-- ==== Sys2Proof/Word.lean ====
section
/-! DEFINITION. The word types of the part: bytes, register words, vector and predicate registers, stamps. -/

namespace Sys2Proof

/-- One byte of device memory, of a frame or of a message. -/
abbrev Byte := BitVec 8
/-- A 32-bit register word of the BAR0 control map (R8). -/
abbrev W32 := BitVec 32
/-- A scalar register or a device address while it is computed (R149). -/
abbrev W64 := BitVec 64
/-- A V register, 4,096 bits (R150). -/
abbrev VReg := BitVec 4096
/-- A P register, one bit per byte lane (R150). -/
abbrev PReg := BitVec 512
/-- A 512-bit instruction word (R190). -/
abbrev IWord := BitVec 512
/-- A 16-byte time stamp in the layout of the stamp table of 03_position_and_time.md, word 0 in the low bits (R9). -/
abbrev TStamp := BitVec 128
/-- An 8-byte pick stamp (R68). -/
abbrev PStamp := BitVec 64
/-- A core number K0 to K31. -/
abbrev CoreId := Fin 32

end Sys2Proof
end

