-- ==== Sys2Proof/Syntax.lean ====
section
/-! DEFINITION. The commands of the part: one constructor of `Instr` for each row of spec/opcode_table.json, in its order,
with the operands the row's rule speaks of. A row that is an operation of the 512-bit instruction word (R190) takes the
core that issues the word and the word; the row gives the opcode of its field, and the word gives everything else. -/

namespace Sys2Proof

/-- Size of a host access to BAR0; `other` stands for every size or alignment R8 puts outside contract. -/
inductive AccSize where
  | b32 | b64 | other
  deriving DecidableEq, Repr

/-- What BIST found in one array (R279 to R281). -/
structure BistArray where
  core : CoreId
  arr : Fin 4
  /-- failed functional columns -/
  failedCols : Fin 129
  /-- failed spare columns -/
  failedSpares : Fin 3
  /-- the checksum column failed -/
  ckCol : Bool
  /-- the checksum row failed -/
  ckRow : Bool
  /-- a functional row failed -/
  rowFailed : Bool
  deriving DecidableEq, Repr

/-- What BIST found (R37, R279 to R281) and the temperatures valid from its end (R528's table). -/
structure BistResult where
  fatal : Bool
  /-- arrays with a failure; an array not listed is whole -/
  arrays : List BistArray
  /-- failed local-store banks: one core number for each bank (R153) -/
  bankFail : List CoreId
  /-- cores that failed for another reason -/
  coreFail : BitVec 32
  /-- failed channels -/
  chFail : BitVec 48
  /-- hottest die sensor, signed °C -/
  dieTemp : BitVec 8
  /-- memory device sensors MD0 to MD11 in order, signed °C -/
  memTemp : List (BitVec 8)
  deriving DecidableEq, Repr

/-- An edge on an EDGE input that its synchroniser and filter take in this TCLK (R85, R86): the input, its kind, and when it
reached the ball: `age` whole TCLK before this one, at sampling phase `phase` of four. -/
structure PinEdge where
  input : Fin 16
  rising : Bool
  phase : Fin 4
  age : Nat
  deriving DecidableEq, Repr

/-- Which lanes of a link the peer aligned on (R437). -/
inductive LaneGroup where
  | all | low | high
  deriving DecidableEq, Repr

/-- What a training phase found (R436 to R438). -/
structure TrainInfo where
  lanes : LaneGroup
  laneRev : Bool
  /-- chip index and link number the peer sent -/
  peerChip : BitVec 4
  peerLink : BitVec 3
  /-- the peer reports no warp image -/
  peerNoImage : Bool
  deriving DecidableEq, Repr

/-- A received flit: its header fields (R435), the message bytes it carries, and what the code found. -/
structure Flit where
  data : Bool
  vc : Fin 4
  som : Bool
  eom : Bool
  fseq : BitVec 12
  ackseq : BitVec 12
  nak : Bool
  cvc : Fin 4
  credits : BitVec 8
  msgnum : BitVec 24
  body : List Byte
  /-- the code corrected at least one symbol -/
  corrected : Bool
  /-- the code cannot correct it, or its CRC fails (R441) -/
  bad : Bool
  deriving DecidableEq, Repr

/-- One index record of a SUB message (R454's table). -/
structure SubRec where
  row : BitVec 32
  slot : BitVec 32
  tier : BitVec 2
  weight : BitVec 32
  deriving DecidableEq, Repr

/-- A SUB message: an embedding sub-request (R414, R454). -/
structure SubMsg where
  /-- the chip it is for (R443) -/
  dst : BitVec 4
  chip : BitVec 4
  req : BitVec 16
  table : BitVec 8
  vslot : Fin 4
  hops : Nat
  dim : Nat
  /-- a GRAD sub-request carries the gradient vector, a LOOKUP none (R425) -/
  grad : Option (List (BitVec 32))
  recs : List SubRec
  deriving DecidableEq, Repr

/-- A PART message: a partial (R414, R454). Status 0 OK, 1 poisoned, 2 hops. -/
structure PartMsg where
  dst : BitVec 4
  chip : BitVec 4
  /-- the chip that formed the partial -/
  src : BitVec 4
  req : BitVec 16
  status : Fin 3
  vals : List (BitVec 32)
  deriving DecidableEq, Repr

/-- A MOVE message: a row on its way to another chip (R420, R454). -/
structure MoveMsg where
  dst : BitVec 4
  src : BitVec 4
  table : BitVec 8
  vslot : Fin 4
  row : BitVec 32
  dstSlot : BitVec 32
  tier : BitVec 2
  num : BitVec 32
  body : List Byte
  deriving DecidableEq, Repr

/-- A SYNC message (R455). -/
structure SyncMsg where
  stamp : TStamp
  lock : Bool
  stepCount : BitVec 16
  hops : Nat
  /-- the receive stamp at this chip's balls -/
  rx : TStamp
  deriving DecidableEq, Repr

/-- A PICK message (R458): counter, count, direction, reference state, the master's stamp of the change and, after a
reference load, its d. -/
structure PickMsg where
  counter : Fin 4
  count : BitVec 48
  dir : BitVec 2
  unref : Bool
  stamp : TStamp
  load : Option (BitVec 48)
  hops : Nat
  deriving DecidableEq, Repr

/-- Outcome of one self-test slot (R496, R497). -/
inductive SlotResult where
  | answered | skipped | wrong
  deriving DecidableEq, Repr

/-- A PCIe configuration request that changes state (R506, R508). -/
inductive CfgReq where
  | read
  | busMaster (en : Bool)
  | msixEnable (en : Bool)
  | power (d3hot : Bool)
  | msixMask (masked : Bool)
  | aerClear
  deriving DecidableEq, Repr

/-- An agent of the fabric that makes an ordinary access to a channel. -/
inductive Agent where
  | core (k : CoreId)
  | part (p : Fin 8)
  | chain
  | host
  deriving DecidableEq, Repr

/-- Direction and data of an access: read so many bytes, or write these. -/
inductive Access where
  | read (n : Nat)
  | write (bs : List Byte)
  deriving DecidableEq, Repr


/-- The commands: the rows of the table of operations and events, each one indivisible step of the part. -/
inductive Instr where
  /-- BAR0_WRITE (R10). Host write to a BAR0 register field that has no step of its own, with the effect its access code gives (RW set, W1C clear, reserved discard). -/
  | bar0Write (a : BitVec 26) (sz : AccSize) (d : W64) (poisoned : Bool)
  /-- BAR0_MULTIWORD_READ (R9). Host read that includes the lowest word of a multi-word quantity returns it and captures the higher words into the shadow. -/
  | bar0MultiwordRead (a : BitVec 26) (sz : AccSize)
  /-- COLD_N_ASSERT (R32). COLD_N low resets the whole part, including the selvedge. -/
  | coldNAssert
  /-- COLD_N_RELEASE (R569). COLD_N rises; the selvedge starts, drives SAFE_N low and latches cause POWER_UP. -/
  | coldNRelease
  /-- PERST_N_ASSERT (R32). PERST_N low resets the fabric and PCIe endpoint, and the selvedge latches FABRIC_RESET. -/
  | perstNAssert
  /-- PERST_N_RELEASE (R34). PERST_N rises; link training and BIST start, the time base starts from zero and ADDR straps are sampled. -/
  | perstNRelease (strap : BitVec 3)
  /-- I2C_TARGET_READY (R34). 5 ms after PERST_N rises, the I2C target starts acknowledging its address. -/
  | i2cTargetReady
  /-- BIST_COMPLETE (R37). BIST finishes, reports cores, channels and array widths, and sets stage 0x2 or 0x8. -/
  | bistComplete (r : BistResult)
  /-- WARP_APPLY (R50). Write of GLOBAL_WARP_CTRL.apply starts application of the staged image, or refuses it on register-only causes. -/
  | warpApply (partialBit : Bool)
  /-- WARP_CRC_CHECK_DONE (R42). The CRC-32 check of the staged image ends; on mismatch nothing is applied, and a partial image for a non-OFF partition is refused. -/
  | warpCrcCheckDone
  /-- WARP_APPLY_DONE (R51). Application of a full or partial image ends with OK; partitions with start = 1 become ENABLED and MSI-X vector 0 is raised. -/
  | warpApplyDone
  /-- PT_ENABLE (R55). GLOBAL_PT_CTRLn.enable request moves a partition towards ENABLED or latches pending. -/
  | ptEnable (n : Fin 8)
  /-- PT_DISABLE (R55). GLOBAL_PT_CTRLn.disable request starts a partition drain or clears pending. -/
  | ptDisable (n : Fin 8)
  /-- PT_DRAIN_COMPLETE (R56). A partition drain ends; it becomes OFF, or ENABLED if pending. -/
  | ptDrainComplete (n : Fin 8)
  /-- CORE_ENABLE (R55). CORE_CTRL.enable request for a core. -/
  | coreEnable (k : CoreId)
  /-- CORE_DISABLE (R57). CORE_CTRL.disable request starts a core drain. -/
  | coreDisable (k : CoreId)
  /-- CORE_WAKE_CMD (R164). CORE_CTRL.wake wakes a sleeping core with cause host. -/
  | coreWakeCmd (k : CoreId)
  /-- CORE_DRAIN_COMPLETE (R57). A core drain completes after outstanding accesses and DMA finish. -/
  | coreDrainComplete (k : CoreId)
  /-- QUEUE_ENABLE (R176). QUEUE_CTRL.enable request; an enabled queue starts empty and armed. -/
  | queueEnable (q : Fin 1024)
  /-- QUEUE_DISABLE (R177). QUEUE_CTRL.disable request starts a queue drain. -/
  | queueDisable (q : Fin 1024)
  /-- QUEUE_FLUSH (R178). QUEUE_CTRL.flush discards every element and reservation of a DRAINING queue. -/
  | queueFlush (q : Fin 1024)
  /-- QUEUE_DRAIN_COMPLETE (R57). A queue drain completes when head, tail and resv are equal or after a flush. -/
  | queueDrainComplete (q : Fin 1024)
  /-- QUEUE_DOORBELL (R173). Host write to QUEUE_DOORBELL commits n slots from tail, judged by kind, state and fill. -/
  | queueDoorbell (q : Fin 1024) (n : BitVec 17)
  /-- QUEUE_RELEASE (R173). Host write to QUEUE_RELEASE releases n elements and rearms the queue interrupt. -/
  | queueRelease (q : Fin 1024) (n : BitVec 17)
  /-- QUEUE_IRQ_WRITE (R175). Write of QUEUE_IRQ rearms the queue and raises the vector at once if the fill meets the threshold. -/
  | queueIrqWrite (q : Fin 1024) (v : W32)
  /-- ETH_PORT_ENABLE (R115). ETH_PORT_CTRL.enable request, refused with cfg_err for an invalid rate and FEC. -/
  | ethPortEnable (p : Fin 8)
  /-- ETH_PORT_DISABLE (R57). ETH_PORT_CTRL.disable request starts a port drain. -/
  | ethPortDisable (p : Fin 8)
  /-- ETH_PORT_DRAIN_COMPLETE (R57). A port drain ends after the frames in flight; the transmitter goes idle. -/
  | ethPortDrainComplete (p : Fin 8)
  /-- ETH_LINK_CHANGE (R111). PCS block lock or remote fault changes ETH_PORT_STATUS.link. -/
  | ethLinkChange (p : Fin 8) (up : Bool)
  /-- SYSCLK_LOSS (R597). SYSCLK stops or the TCLK PLL unlocks; the fabric halts, counters go UNREFERENCED and clk_lost is set. -/
  | sysclkLoss
  /-- SYSCLK_RETURN (R597). SYSCLK returns and the PLLs start to relock. -/
  | sysclkReturn
  /-- PLL_RELOCK (R597). The PLLs relock; the fabric continues from held state and TCLK work resumes. -/
  | pllRelock (lossOverMs : Bool)
  /-- TIME_SET (R72). TIME_CTRL.set samples TIME_SET and requests a load of the time base. -/
  | timeSet
  /-- TIME_SET_DONE (R74). The set is applied at one TCLK, clearing the lock and judging armed time events. -/
  | timeSetDone
  /-- TIME_STEP (R73). TIME_CTRL.step samples TIME_STEP and requests an offset of the time base. -/
  | timeStep
  /-- TIME_STEP_DONE (R73). The step is applied at one TCLK, clamped at zero. -/
  | timeStepDone
  /-- TIME_SNAP (R76). TIME_CTRL.snap requests a snapshot of the time and the four pick stamps. -/
  | timeSnap
  /-- TIME_SNAP_DONE (R76). The snapshot is captured in one TCLK into TIME_SNAP and TIME_SNAP_PK0-3. -/
  | timeSnapDone
  /-- TIME_TRIM_WRITE (R71). Write of TIME_TRIM, clamped to ±1,000 ppm with trim_clamped set. -/
  | timeTrimWrite (v : W32)
  /-- TIME_BASE_SECOND (R79). The time base passes a whole second by counting, starting a PPS_OUT pulse if enabled. -/
  | timeBaseSecond
  /-- PPS_OUT_PULSE_END (R79). A PPS_OUT pulse ends after pps_out_width ms of TCLK. -/
  | ppsOutPulseEnd
  /-- PPS_IN_EDGE (R78). A PPS_IN edge is stamped into TIME_PPS_STAMP and TIME_PPS_COUNT increments. -/
  | ppsInEdge (rising : Bool) (quarter : Fin 4)
  /-- PPS_LOST_TIMEOUT (R78). 1.1 s without a PPS_IN edge sets pps_lost. -/
  | ppsLostTimeout
  /-- EDGE_INPUT_EDGE (R85). A filtered edge on an EDGE input changes pick counts and, if qualifying, is stamped and acts on armed references.
  `es` are the edges that are taken in one TCLK. -/
  | edgeInputEdge (es : List PinEdge)
  /-- POS_EDGE_POP (R87). POS_EDGEe_POP removes the head stamp entry of an edge input. -/
  | posEdgePop (e : Fin 16)
  /-- PICK_STILL_TIMEOUT (R92). No count change for still_time × 2^20 TCLK sets dir STILL. -/
  | pickStillTimeout (n : Fin 4)
  /-- POS_PK_CFG_WRITE (R91). Write of POS_PKn_CFG starts, stops or ignores a mode change. -/
  | posPkCfgWrite (n : Fin 4) (v : W32)
  /-- LOAD_NOW (R94). POS_PKn_REF_CTRL.load_now loads ref into the count and records REF_DELTA and REF_T. -/
  | loadNow (n : Fin 4)
  /-- REF_ARM (R95). POS_PKn_REF_CTRL.arm arms a reference on the next qualifying edge of ref_edge. -/
  | refArm (n : Fin 4)
  /-- REF_DISARM (R96). POS_PKn_REF_CTRL.disarm cancels an armed reference. -/
  | refDisarm (n : Fin 4)
  /-- POS_EV_ARM (R99). POS_EVv_CTRL.arm arms a scheduled event or refuses it, firing or skipping past targets. -/
  | posEvArm (v : Fin 80)
  /-- POS_EV_DISARM (R103). POS_EVv_CTRL.disarm disarms a scheduled event. -/
  | posEvDisarm (v : Fin 80)
  /-- EVENT_FIRE (R100). A time or pick event reaches its target or Nth change and fires, driving TRIG, flipping grids and advancing PERIODIC targets. -/
  | eventFire (v : Fin 80)
  /-- TRIG_PULSE_END (R104). A TRIG pulse ends after (width + 1) × 8 ns. -/
  | trigPulseEnd (v : Fin 16)
  /-- POSITION_DOORBELL (R105). A fired doorbell writes its 32-byte element into its queue and rings it, or drops or skips it. -/
  | positionDoorbell (d : Fin 64)
  /-- ETH_FRAME_RECEIVE (R116). A received frame is stamped, checked, steered or matched, admitted and committed to its contexts.
  Its first octet after the start frame delimiter passed the port's balls `ago` units of 2⁻¹⁶ ns before this step (R80). -/
  | ethFrameReceive (p : Fin 8) (frame : List Byte) (fcsOk : Bool) (cut : Bool) (ago : Nat)
  /-- POINT_INSERTION (R127). Points of an admitted POINT frame are transformed, compensated and inserted into the OPEN grid buffer. -/
  | pointInsertion
  /-- IMAGE_BLOCK_TIMEOUT (R142). 2 ms after its last packet a GVSP block ends and its tiles are emitted zero-filled. -/
  | imageBlockTimeout (x : Fin 4096)
  /-- ETH_FRAME_TRANSMIT (R145). The port takes an element from its transmit queue and sends the frame, stamping it on request.
  Its first octet after the start frame delimiter passed the port's balls `ago` units of 2⁻¹⁶ ns before this step (R80). -/
  | ethFrameTransmit (p : Fin 8) (ago : Nat)
  /-- ETH_TXTS_POP (R83). ETH_TXTS_POP removes the head transmit stamp. -/
  | ethTxtsPop (p : Fin 8)
  /-- INTAKE_GRID_FLIP (R135). INTAKE_GRIDg_CTRL.flip flips a grid by software. -/
  | intakeGridFlip (g : Fin 64)
  /-- GRID_BUFFER_CLOSED (R136). Every frame of a flipped buffer is inserted and closed is set in its header. -/
  | gridBufferClosed (g : Fin 64)
  /-- GRID_RELEASE (R138). An element on the release queue releases the CLOSED buffer of its sequence or sets release_mismatch. -/
  | gridRelease (g : Fin 64)
  /-- GRID_CLEAR_DONE (R138). A released buffer is cleared and becomes READY, opening at once if the grid is STALLED. -/
  | gridClearDone (g : Fin 64)
  /-- NOP (R191). A word with all opcodes 0 executes as a no-operation. -/
  | nop (k : CoreId) (w : IWord)
  /-- ADD (R194). Scalar add modulo 2^64. -/
  | add (k : CoreId) (w : IWord)
  /-- SUB (R194). Scalar subtract modulo 2^64. -/
  | sub (k : CoreId) (w : IWord)
  /-- AND (R194). Scalar bitwise AND. -/
  | andS (k : CoreId) (w : IWord)
  /-- OR (R194). Scalar bitwise OR. -/
  | orS (k : CoreId) (w : IWord)
  /-- XOR (R194). Scalar bitwise XOR. -/
  | xorS (k : CoreId) (w : IWord)
  /-- SLL (R194). Scalar shift left logical. -/
  | sll (k : CoreId) (w : IWord)
  /-- SRL (R194). Scalar shift right logical. -/
  | srl (k : CoreId) (w : IWord)
  /-- SRA (R194). Scalar shift right arithmetic. -/
  | sra (k : CoreId) (w : IWord)
  /-- MUL (R194). Low 64 bits of the scalar product. -/
  | mul (k : CoreId) (w : IWord)
  /-- MULHU (R194). High 64 bits of the unsigned product. -/
  | mulhu (k : CoreId) (w : IWord)
  /-- MULHS (R194). High 64 bits of the signed product. -/
  | mulhs (k : CoreId) (w : IWord)
  /-- SLT (R194). Signed set-less-than. -/
  | slt (k : CoreId) (w : IWord)
  /-- SLTU (R194). Unsigned set-less-than. -/
  | sltu (k : CoreId) (w : IWord)
  /-- MIN (R194). Signed scalar minimum. -/
  | minS (k : CoreId) (w : IWord)
  /-- MAX (R194). Signed scalar maximum. -/
  | maxS (k : CoreId) (w : IWord)
  /-- MINU (R194). Unsigned scalar minimum. -/
  | minu (k : CoreId) (w : IWord)
  /-- MAXU (R194). Unsigned scalar maximum. -/
  | maxu (k : CoreId) (w : IWord)
  /-- CLZ (R194). Count of leading zeros. -/
  | clz (k : CoreId) (w : IWord)
  /-- POPC (R194). Count of set bits. -/
  | popc (k : CoreId) (w : IWord)
  /-- MOV (R194). Scalar move of operand b. -/
  | mov (k : CoreId) (w : IWord)
  /-- MOVHI (R192). Combines the low 16 bits of a with IMM shifted left by 16. -/
  | movhi (k : CoreId) (w : IWord)
  /-- SREAD (R202). Reads a system register. -/
  | sread (k : CoreId) (w : IWord)
  /-- SWRITE (R202). Writes EPC or ESCRATCH. -/
  | swrite (k : CoreId) (w : IWord)
  /-- LD8 (R203). Zero-extending byte load. -/
  | ld8 (k : CoreId) (w : IWord)
  /-- LD16 (R203). Zero-extending 16-bit load. -/
  | ld16 (k : CoreId) (w : IWord)
  /-- LD32 (R203). Zero-extending 32-bit load. -/
  | ld32 (k : CoreId) (w : IWord)
  /-- LD64 (R203). 64-bit load. -/
  | ld64 (k : CoreId) (w : IWord)
  /-- LDS8 (R203). Sign-extending byte load. -/
  | lds8 (k : CoreId) (w : IWord)
  /-- LDS16 (R203). Sign-extending 16-bit load. -/
  | lds16 (k : CoreId) (w : IWord)
  /-- LDS32 (R203). Sign-extending 32-bit load. -/
  | lds32 (k : CoreId) (w : IWord)
  /-- ST8 (R203). Byte store. -/
  | st8 (k : CoreId) (w : IWord)
  /-- ST16 (R203). 16-bit store. -/
  | st16 (k : CoreId) (w : IWord)
  /-- ST32 (R203). 32-bit store. -/
  | st32 (k : CoreId) (w : IWord)
  /-- ST64 (R203). 64-bit store. -/
  | st64 (k : CoreId) (w : IWord)
  /-- VLD (R203). Loads 512 bytes into a V register. -/
  | vld (k : CoreId) (w : IWord)
  /-- VST (R203). Stores a V register, 512 bytes. -/
  | vst (k : CoreId) (w : IWord)
  /-- PLD (R203). Loads 64 bytes into a P register. -/
  | pld (k : CoreId) (w : IWord)
  /-- PST (R203). Stores a P register, 64 bytes. -/
  | pst (k : CoreId) (w : IWord)
  /-- AUPD (R203). Address update with no access. -/
  | aupd (k : CoreId) (w : IWord)
  /-- DMA (R159). Issues a DMA transfer, or a sparse job when src lies in the sparse window. -/
  | dma (k : CoreId) (w : IWord)
  /-- DMA_COMPLETE (R159). A DMA transfer finishes and commits its completion element. -/
  | dmaComplete (k : CoreId) (i : Nat)
  /-- FENCE (R157). Waits until every earlier store and DMA of the core is complete. -/
  | fence (k : CoreId) (w : IWord)
  /-- VADD (R289). Vector add. -/
  | vadd (k : CoreId) (w : IWord)
  /-- VSUB (R289). Vector subtract. -/
  | vsub (k : CoreId) (w : IWord)
  /-- VMUL (R289). Vector multiply. -/
  | vmul (k : CoreId) (w : IWord)
  /-- VMULH (R289). Upper half of the double-width product. -/
  | vmulh (k : CoreId) (w : IWord)
  /-- VFMA (R289). Fused a × b + c. -/
  | vfma (k : CoreId) (w : IWord)
  /-- VMIN (R290). Lane minimum. -/
  | vmin (k : CoreId) (w : IWord)
  /-- VMAX (R290). Lane maximum. -/
  | vmax (k : CoreId) (w : IWord)
  /-- VABS (R289). Lane absolute value. -/
  | vabs (k : CoreId) (w : IWord)
  /-- VNEG (R289). Lane negation. -/
  | vneg (k : CoreId) (w : IWord)
  /-- VAND (R288). Bitwise AND of vectors. -/
  | vand (k : CoreId) (w : IWord)
  /-- VOR (R288). Bitwise OR of vectors. -/
  | vor (k : CoreId) (w : IWord)
  /-- VXOR (R288). Bitwise XOR of vectors. -/
  | vxor (k : CoreId) (w : IWord)
  /-- VNOT (R288). Bitwise NOT of a vector. -/
  | vnot (k : CoreId) (w : IWord)
  /-- VSHL (R291). Lane shift left. -/
  | vshl (k : CoreId) (w : IWord)
  /-- VSHR (R291). Lane logical shift right. -/
  | vshr (k : CoreId) (w : IWord)
  /-- VSHRA (R291). Lane arithmetic shift right. -/
  | vshra (k : CoreId) (w : IWord)
  /-- VSHRR (R291). Lane rounding shift right. -/
  | vshrr (k : CoreId) (w : IWord)
  /-- VCVT (R300). Lane conversion between a listed type pair. -/
  | vcvt (k : CoreId) (w : IWord)
  /-- VBCAST (R286). Scalar operand to every lane. -/
  | vbcast (k : CoreId) (w : IWord)
  /-- VMOV (R288). Vector copy. -/
  | vmov (k : CoreId) (w : IWord)
  /-- VCMPEQ (R292). Equal compare into a predicate. -/
  | vcmpeq (k : CoreId) (w : IWord)
  /-- VCMPNE (R292). Not-equal compare into a predicate. -/
  | vcmpne (k : CoreId) (w : IWord)
  /-- VCMPLT (R292). Less-than compare into a predicate. -/
  | vcmplt (k : CoreId) (w : IWord)
  /-- VCMPLE (R292). Less-or-equal compare into a predicate. -/
  | vcmple (k : CoreId) (w : IWord)
  /-- VCMPGT (R292). Greater-than compare into a predicate. -/
  | vcmpgt (k : CoreId) (w : IWord)
  /-- VCMPGE (R292). Greater-or-equal compare into a predicate. -/
  | vcmpge (k : CoreId) (w : IWord)
  /-- VSEL (R292). Lane select by predicate. -/
  | vsel (k : CoreId) (w : IWord)
  /-- PAND (R293). Predicate AND. -/
  | pand (k : CoreId) (w : IWord)
  /-- POR (R293). Predicate OR. -/
  | por (k : CoreId) (w : IWord)
  /-- PXOR (R293). Predicate XOR. -/
  | pxor (k : CoreId) (w : IWord)
  /-- PNOT (R293). Predicate inversion. -/
  | pnot (k : CoreId) (w : IWord)
  /-- PCNT (R293). Predicate set-bit count into S. -/
  | pcnt (k : CoreId) (w : IWord)
  /-- PFIRST (R293). Index of the first set predicate bit into S. -/
  | pfirst (k : CoreId) (w : IWord)
  /-- VRSUM (R294). Sum reduction by the fixed tree. -/
  | vrsum (k : CoreId) (w : IWord)
  /-- VRMAX (R294). Maximum reduction. -/
  | vrmax (k : CoreId) (w : IWord)
  /-- VRMIN (R294). Minimum reduction. -/
  | vrmin (k : CoreId) (w : IWord)
  /-- VRARGMAX (R296). Index of the greatest unmasked lane into S. -/
  | vrargmax (k : CoreId) (w : IWord)
  /-- VPERMB (R299). Byte permute within 128-byte segments. -/
  | vpermb (k : CoreId) (w : IWord)
  /-- VPERMW (R299). 32-bit permute across two registers. -/
  | vpermw (k : CoreId) (w : IWord)
  /-- VSHUF (R299). Interleave of two registers. -/
  | vshuf (k : CoreId) (w : IWord)
  /-- VDEAL (R299). De-interleave of two registers. -/
  | vdeal (k : CoreId) (w : IWord)
  /-- VPACK (R301). Narrowing pack of two registers, or BS8 encoding. -/
  | vpack (k : CoreId) (w : IWord)
  /-- VUNPKL (R301). Widen the low half. -/
  | vunpkl (k : CoreId) (w : IWord)
  /-- VUNPKH (R301). Widen the high half. -/
  | vunpkh (k : CoreId) (w : IWord)
  /-- VROT (R299). Byte rotation by the scalar operand. -/
  | vrot (k : CoreId) (w : IWord)
  /-- VCMPX (R297). Compare-exchange into two registers and a predicate. -/
  | vcmpx (k : CoreId) (w : IWord)
  /-- VTOPK (R298). Top-k merge step with payload map. -/
  | vtopk (k : CoreId) (w : IWord)
  /-- VEXP (R333). Lane exponential. -/
  | vexp (k : CoreId) (w : IWord)
  /-- VRCP (R333). Lane reciprocal. -/
  | vrcp (k : CoreId) (w : IWord)
  /-- VRSQRT (R333). Lane reciprocal square root. -/
  | vrsqrt (k : CoreId) (w : IWord)
  /-- VSMMAX (R336). Softmax running-maximum step. -/
  | vsmmax (k : CoreId) (w : IWord)
  /-- VSMEXP (R337). Softmax exponential step. -/
  | vsmexp (k : CoreId) (w : IWord)
  /-- VSMNORM (R338). Softmax normalisation step with row flag. -/
  | vsmnorm (k : CoreId) (w : IWord)
  /-- VGATH (R305). Gather of 128 lanes from the local store. -/
  | vgath (k : CoreId) (w : IWord)
  /-- VSCAT (R307). Scatter of 128 lanes to the local store. -/
  | vscat (k : CoreId) (w : IWord)
  /-- AOUT (R232). Issues n steps of mode O, gather-fed when S[sa] lies in the sparse window. -/
  | aout (k : CoreId) (w : IWord)
  /-- AWLD (R234). Issues a stationary weight load for mode R. -/
  | awld (k : CoreId) (w : IWord)
  /-- AROW (R235). Issues n steps of mode R. -/
  | arow (k : CoreId) (w : IWord)
  /-- ADRAIN (R237). Issues a drain of the tiles to tile queues, V16-V31 or a scatter. -/
  | adrain (k : CoreId) (w : IWord)
  /-- ACLR (R254). Clears or fills the accumulators and may load K. -/
  | aclr (k : CoreId) (w : IWord)
  /-- WREAD (R266). ATRD pass 0 reads the stationary weights as a tile. -/
  | wread (k : CoreId) (w : IWord)
  /-- TSTEP (R267). ATRD pass 1 runs n steps against the transposed weights. -/
  | tstep (k : CoreId) (w : IWord)
  /-- ASYNC (R240). Completes when every earlier operation of the masked arrays is complete. -/
  | async (k : CoreId) (w : IWord)
  /-- ARRAY_OP_BEGIN (R229). A queued array operation begins on the sequencer once it heads every command queue and the level is 16. -/
  | arrayOpBegin (k : CoreId)
  /-- ARRAY_STEP (R233). One step of an array operation enters the arrays when its operands are ready. -/
  | arrayStep (k : CoreId)
  /-- ARRAY_OP_COMPLETE (R229). An array operation's last step is written into the accumulators; `i` is its place among the operations in flight. -/
  | arrayOpComplete (k : CoreId) (i : Nat)
  /-- DRAIN_TRANSFER (R238). A due drain transfer copies the accumulators into the drain registers once slots and registers are free. -/
  | drainTransfer (k : CoreId)
  /-- TILE_COMPLETE (R237). A drained tile is complete in its tile-queue slot and checked by the checksums. -/
  | tileComplete (k : CoreId) (a : Fin 4)
  /-- ARRAY_GAP_LIMIT_EXPIRY (R244). The gap count exceeds gap_limit and the array level falls. -/
  | arrayGapLimitExpiry (k : CoreId)
  /-- SCATTER_ROW_ISSUE (R358). A scatter drain issues one row's updates into the conflict queues when they have room. -/
  | scatterRowIssue (k : CoreId)
  /-- BANK_ADDER_RETIRE (R357). A bank adder retires the oldest update of its conflict queue. -/
  | bankAdderRetire (k : CoreId) (b : Fin 32)
  /-- QRES (R207). Reserves slots of a queue, or returns FULL or CLOSED. -/
  | qres (k : CoreId) (w : IWord)
  /-- QRES_UNBLOCK (R169). A blocking QRES completes once enough slots are free or the queue closes. -/
  | qresUnblock (k : CoreId)
  /-- QCMT (R170). Commits a reserved slot; the tail advances over closed gaps. -/
  | qcmt (k : CoreId) (w : IWord)
  /-- QACQ (R207). Acquires the head of a queue, or returns EMPTY or CLOSED. -/
  | qacq (k : CoreId) (w : IWord)
  /-- QACQ_UNBLOCK (R169). A blocking QACQ completes once the fill is at least 1 or the queue closes. -/
  | qacqUnblock (k : CoreId)
  /-- QREL (R172). Releases elements of a queue. -/
  | qrel (k : CoreId) (w : IWord)
  /-- QWAIT (R210). Waits on the watch slots, possibly entering DOZE. -/
  | qwait (k : CoreId) (w : IWord)
  /-- TRD (R211). Reads a row or column of the head tile into a V register. -/
  | trd (k : CoreId) (w : IWord)
  /-- TRDT (R211). Reads a row or column of a tile view without a drain. -/
  | trdt (k : CoreId) (w : IWord)
  /-- TPOP (R238). Removes the head tile of an array's tile queue. -/
  | tpop (k : CoreId) (w : IWord)
  /-- TSTAT (R207). Returns the tile-queue fills of A0-A3. -/
  | tstat (k : CoreId) (w : IWord)
  /-- B (R197). Unconditional relative branch. -/
  | branchB (k : CoreId) (w : IWord)
  /-- BEQ (R197). Branch if equal. -/
  | beq (k : CoreId) (w : IWord)
  /-- BNE (R197). Branch if not equal. -/
  | bne (k : CoreId) (w : IWord)
  /-- BLT (R197). Branch if signed less. -/
  | blt (k : CoreId) (w : IWord)
  /-- BGE (R197). Branch if signed greater or equal. -/
  | bge (k : CoreId) (w : IWord)
  /-- BLTU (R197). Branch if unsigned less. -/
  | bltu (k : CoreId) (w : IWord)
  /-- BGEU (R197). Branch if unsigned greater or equal. -/
  | bgeu (k : CoreId) (w : IWord)
  /-- BL (R197). Branch and link. -/
  | bl (k : CoreId) (w : IWord)
  /-- BIR (R197). Branch to a register. -/
  | bir (k : CoreId) (w : IWord)
  /-- BLIR (R197). Branch to a register and link. -/
  | blir (k : CoreId) (w : IWord)
  /-- ERET (R216). Returns from the exception handler. -/
  | eret (k : CoreId) (w : IWord)
  /-- GBAR (R162). Group barrier; releases all members when the last arrives. -/
  | gbar (k : CoreId) (w : IWord)
  /-- SLEEP (R163). Waits for a wake cause in DOZE or NAP as allowed. -/
  | sleep (k : CoreId) (w : IWord)
  /-- TRAP (R215). Raises exception TRAP with a code. -/
  | trap (k : CoreId) (w : IWord)
  /-- IDLE_DOZE_EXPIRY (R163). A QWAIT idle for idle_doze × 64 CCLK enters DOZE. -/
  | idleDozeExpiry (k : CoreId)
  /-- LOW_POWER_ENTRY (R246). A core enters DOZE or NAP once its array operations complete and the level has fallen. -/
  | lowPowerEntry (k : CoreId)
  /-- LOW_POWER_EXIT_DONE (R165). A core returns to running after DOZE or NAP, or restarts after NAP without retention. -/
  | lowPowerExitDone (k : CoreId)
  /-- MATCH_SPARSE (R349). Sparse job matching output voxels against shifted input voxels into pair groups. -/
  | matchSparse (k : CoreId)
  /-- MATCH_DENSE (R349). Sparse job matching input voxels into a dense output box. -/
  | matchDense (k : CoreId)
  /-- NZMAP (R348). Sparse job marking non-zero feature rows in nonzero maps. -/
  | nzmap (k : CoreId)
  /-- SPARSE_JOB_COMPLETE (R353). A sparse job ends, writing its count table and committing its completion element. -/
  | sparseJobComplete (k : CoreId)
  /-- MEM_TO_MEMORY (R381). MEM_CTRL.to_memory requests memory mode for a channel. -/
  | memToMemory (c : Fin 48)
  /-- MEM_TO_PROCESSOR (R381). MEM_CTRL.to_processor requests processor mode for a channel. -/
  | memToProcessor (c : Fin 48)
  /-- CHANNEL_DRAIN_COMPLETE (R382). A channel-mode drain ends and the channel enters its target mode. -/
  | channelDrainComplete (c : Fin 48)
  /-- MEMORY_ACCESS (R399). An ordinary companion-memory access is performed at its channel, after earlier commands in processor mode. -/
  | memoryAccess (ag : Agent) (a : W64) (acc : Access)
  /-- COMMAND_SUBMIT (R386). A write covering slot word 0x18 submits a bank-unit command. -/
  | commandSubmit (c : Fin 48) (p : CoreId) (slot : Fin 64) (w3 : W64)
  /-- COMMAND_ACCEPT (R387). A submitted command is accepted into the channel queue when there is room, or refused. -/
  | commandAccept (c : Fin 48)
  /-- BANK_UNIT_ADD (R392). Bank-unit element add. -/
  | bankUnitAdd (c : Fin 48)
  /-- BANK_UNIT_SUB (R392). Bank-unit element subtract. -/
  | bankUnitSub (c : Fin 48)
  /-- BANK_UNIT_MUL (R392). Bank-unit element multiply. -/
  | bankUnitMul (c : Fin 48)
  /-- MADD (R392). Bank-unit fused multiply-add. -/
  | madd (c : Fin 48)
  /-- RELU (R392). Bank-unit rectification. -/
  | relu (c : Fin 48)
  /-- BANK_UNIT_CLAMP (R392). Bank-unit clamp between s and aux. -/
  | bankUnitClamp (c : Fin 48)
  /-- LUT (R392). Bank-unit table lookup. -/
  | lut (c : Fin 48)
  /-- BSADD (R395). Bit-serial add. -/
  | bsadd (c : Fin 48)
  /-- BSMUL (R395). Bit-serial multiply. -/
  | bsmul (c : Fin 48)
  /-- MOVE (R396). Moves granules between units over the shared bus. -/
  | moveBu (c : Fin 48)
  /-- NOTIFY (R398). Writes a tag to an on-die address once earlier commands complete. -/
  | notify (c : Fin 48)
  /-- BANK_UNIT_COMPLETE (R396). A running bank-unit command finishes after its unit time. -/
  | bankUnitComplete (c : Fin 48) (u : Fin 8)
  /-- MEM_TEMP_SAMPLE (R397). The memory device sensor is sampled each 1 ms, starting or ending derating. -/
  | memTempSample (d : Fin 12) (t : BitVec 8)
  /-- EMB_LOOKUP (R411). The embedding engine accepts a LOOKUP request, refuses it, or groups indices and sends sub-requests. -/
  | embLookup (i : Fin 8)
  /-- EMB_GRAD (R425). The embedding engine accepts a GRAD request and applies gradients on owners. -/
  | embGrad (i : Fin 8)
  /-- EMB_REQUEST_COMPLETE (R412). A request writes its pooled result and commits its completion element. -/
  | embRequestComplete (r : BitVec 16)
  /-- EMB_SUB (R414). An owner chip receives a SUB message and forms or forwards its partial. -/
  | embSub (m : SubMsg)
  /-- EMB_PART (R414). A requesting chip receives a PART partial. -/
  | embPart (m : PartMsg)
  /-- EMB_REMOTE_TIMEOUT (R414). A partial not returned within remote_timeout ends the request with remote_fail. -/
  | embRemoteTimeout (r : BitVec 16)
  /-- EMB_TAB_CUR_WRITE (R416). Write of EMB_TABt_CUR switches the table's version slot, or is refused. -/
  | embTabCurWrite (t : Fin 256) (v : Fin 4)
  /-- EMB_LOAD_WINDOW_END (R418). A load window ends at a whole millisecond or a set or step and the counts are latched. -/
  | embLoadWindowEnd
  /-- EMB_FENCE (R422). EMB_CTRL.fence sets fence_pending until earlier requests complete. -/
  | embFence
  /-- EMB_MOVE_GO (R420). EMB_MOVE_CTRL.go starts a row move on the owner chip. -/
  | embMoveGo
  /-- EMB_MOVE_MESSAGE (R420). A destination chip receives a MOVE and stores the row, answering with MOVE_ACK. -/
  | embMoveMessage (m : MoveMsg)
  /-- MOVE_ACK (R420). The owner receives MOVE_ACK and installs the redirect and directory entry. -/
  | moveAck (dst : BitVec 4) (num : BitVec 32) (refused : Bool)
  /-- EMB_MOVE_TIMEOUT (R454). No MOVE_ACK within 100 µs ends the move with LINK. -/
  | embMoveTimeout
  /-- CLEAR_REDIRECTS (R423). EMB_MOVE_CTRL.clear_redirects removes every redirect entry. -/
  | clearRedirects
  /-- LINK_ENABLE (R436). LINK_CTRL.enable request; an ENABLED link starts training. -/
  | linkEnable (l : Fin 6)
  /-- LINK_DISABLE (R461). LINK_CTRL.disable request starts a link drain. -/
  | linkDisable (l : Fin 6)
  /-- LINK_RETRAIN (R439). LINK_CTRL.retrain drops the link to DOWN and retrains. -/
  | linkRetrain (l : Fin 6)
  /-- LINK_DRAIN_COMPLETE (R461). A link drain ends after END is acknowledged or its bound; the link goes idle. -/
  | linkDrainComplete (l : Fin 6)
  /-- LINK_TRAIN_PHASE_DONE (R436). A training phase ends and the next begins, or the link comes UP and resends held bolts. -/
  | linkTrainPhaseDone (l : Fin 6) (i : TrainInfo)
  /-- LINK_TRAIN_TIMEOUT (R437). A phase exceeds its limit and training restarts after 1 ms. -/
  | linkTrainTimeout (l : Fin 6)
  /-- LINK_TRAIN_RETRY (R437). 1 ms after a failed phase, training restarts from SIGNAL. -/
  | linkTrainRetry (l : Fin 6)
  /-- PEER_RETRY (R438). PEER is repeated every 10 ms while mismatched. -/
  | peerRetry (l : Fin 6) (i : TrainInfo)
  /-- LINK_SIGNAL_LOSS (R439). Signal or code lock is lost on a lane and the link falls to DOWN. -/
  | linkSignalLoss (l : Fin 6)
  /-- LINK_IDLE_TIMEOUT (R439). No flit for 64 LCLK drops the link to DOWN. -/
  | linkIdleTimeout (l : Fin 6)
  /-- FLIT_RECEIVE (R441). A flit is received, corrected and checked, delivering data, acks, naks and credits. -/
  | flitReceive (l : Fin 6) (f : Flit)
  /-- FLIT_TRANSMIT (R440). A data flit is sent on a virtual channel holding credit. -/
  | flitTransmit (l : Fin 6) (vc : Fin 4)
  /-- REPLAY_TIMEOUT (R441). No acknowledgement progress for 256 LCLK resends from the oldest unacknowledged flit. -/
  | replayTimeout (l : Fin 6)
  /-- BOLT_TRANSMIT (R445). The bolt transmitter takes an element into a free transmit buffer or consumes it as TX_BAD. -/
  | boltTransmit
  /-- BOLT_RECEIVE (R447). A received bolt is forwarded or committed to its bound queue, held, or dropped. -/
  | boltReceive (l : Fin 6)
  /-- BOLT_HOLD_RELEASE (R448). A held bolt is committed when its destination queue frees a slot. -/
  | boltHoldRelease (l : Fin 6)
  /-- BOLT_HOLD_TIMEOUT (R448). A held bolt is dropped after hold_timeout. -/
  | boltHoldTimeout (l : Fin 6)
  /-- END (R461). Receipt of END from a draining peer; the link falls to DOWN when the peer stops. -/
  | endMsg (l : Fin 6)
  /-- SYNC_PERIOD (R455). Every 1,024 TCLK the master sends SYNC on every UP link. -/
  | syncPeriod
  /-- SYNC (R457). A chain-bound chip receives SYNC on its time link, corrects its time base and forwards SYNC. -/
  | sync (l : Fin 6) (m : SyncMsg)
  /-- SYNC_LOSS_TIMEOUT (R457). 8 SYNC periods without a SYNC clear chain_sync. -/
  | syncLossTimeout
  /-- DELAY_MEASURE_PERIOD (R456). Every 65,536 TCLK each link end sends DELAY_REQ. -/
  | delayMeasurePeriod (l : Fin 6)
  /-- DELAY_REQ (R456). Receipt of DELAY_REQ, answered with DELAY_RESP. -/
  | delayReq (l : Fin 6) (t1 t2 : TStamp)
  /-- DELAY_RESP (R456). Receipt of DELAY_RESP updates LINK_DELAY. -/
  | delayResp (l : Fin 6) (t1 t2 t3 t4 : TStamp)
  /-- PICK_SEND (R458). The master sends a PICK for a distributed counter, at most once per 32 TCLK, coalescing changes. -/
  | pickSend (n : Fin 4)
  /-- PICK (R459). A follower receives a PICK and schedules it, applying it at once if late. -/
  | pick (l : Fin 6) (m : PickMsg)
  /-- PICK_APPLY (R459). A CHAIN-mode counter applies a PICK at its time stamp plus the fixed delay. -/
  | pickApply (n : Fin 4)
  /-- BUDGET_WINDOW (R453). A 1 µs link budget window begins and waiting messages may send. -/
  | budgetWindow (l : Fin 6)
  /-- CHECKSUM_EVENT (R278). The selvedge receives an array checksum event and takes its action. -/
  | checksumEvent
  /-- RESIDUE_EVENT (R314). The selvedge receives a residue event and takes its action. -/
  | residueEvent (k : CoreId) (opc : BitVec 10) (lane : BitVec 10)
  /-- MEMORY_EVENT (R379). The selvedge receives a memory event and takes its action. -/
  | memoryEvent
  /-- E2E_EVENT (R449). The selvedge receives a bolt end-to-end event and takes its action. -/
  | e2eEvent
  /-- REGION_EVENT (R490). The selvedge receives a region checker event and takes its action. -/
  | regionEvent
  /-- LOCKSTEP (R468). The two selvedge cores differ; fatal cause LOCKSTEP. -/
  | lockstep
  /-- SELV_ECC (R468). An uncorrectable selvedge SRAM error; fatal cause SELV_ECC. -/
  | selvEcc (corrected : Bool)
  /-- SAFE_CLK_FAULT (R468). SAFE_CLK deviates more than 2 % or stops; fatal cause SAFE_CLK. -/
  | safeClkFault
  /-- DIE_TEMP_SAMPLE (R584). Die sensors are sampled every 10 µs; above 105 °C cause THERMAL is raised. -/
  | dieTempSample (t : BitVec 8)
  /-- SAFE_HB_TOGGLE (R470). SAFE_HB toggles every 500 µs while the selvedge runs. -/
  | safeHbToggle
  /-- RESULT (R481). The selvedge acquires a RESULT record and the comparator matches it against its partner. -/
  | result (i : Fin 4) (b : Bool)
  /-- FRAME_END (R481). The selvedge acquires a FRAME_END record and matches it, ending monitors and seed judgements. -/
  | frameEnd (i : Fin 4) (b : Bool)
  /-- PAIR_WINDOW_EXPIRY (R482). A record's partner has not arrived within pair_window; cause MISSING. -/
  | pairWindowExpiry (i : Fin 4)
  /-- SEED_INJECTION (R487). A commit to seed_trigger_q starts injection of the seed image at the seed input. -/
  | seedInjection
  /-- SEED_FRAME (R146). A seed frame reaches intake at the seed input with its stamp taken at injection. -/
  | seedFrame
  /-- SEED_DEADLINE (R488). A seed FRAME_END missing after seed_deadline is cause SEED. -/
  | seedDeadline (i : Fin 4)
  /-- DM_START (R494). A commit to a monitor's start_q records a pending start. -/
  | dmStart (m : Fin 64)
  /-- DM_END (R494). An end event retires the oldest pending start, judging EARLY and SPURIOUS. -/
  | dmEnd (m : Fin 64)
  /-- DEADLINE (R495). A monitor's max_us expires; cause DEADLINE. -/
  | deadline (m : Fin 64)
  /-- SELFTEST_ROUND (R496). A self-test round starts every 1,000 ms. -/
  | selftestRound
  /-- SELFTEST_SLOT (R497). A 1.8 ms slot tests one checker, or skips it; a wrong answer is cause SELFTEST. -/
  | selftestSlot (r : SlotResult)
  /-- BANDWIDTH_WINDOW (R491). A 1 µs channel meter window begins; overrun_windows consecutive waits raise BUDGET. -/
  | bandwidthWindow (c : Fin 48)
  /-- INTAKE_WINDOW_SWITCH (R493). The intake time-window schedule moves to its next window. -/
  | intakeWindowSwitch
  /-- TELEGRAM_PERIOD (R499). Every period_us the safety port sends a telegram. -/
  | telegramPeriod
  /-- GET_CHALLENGE (R500). Mailbox command returning a fresh challenge, withdrawing the previous one. -/
  | getChallenge
  /-- CLEAR (R500). Mailbox command that clears the safe state if every condition holds. -/
  | clearSafe
  /-- ENTER_SAFE (R502). Mailbox command latching cause HOST_REQUEST. -/
  | enterSafe
  /-- CHALLENGE_EXPIRY (R500). A challenge expires 100 ms after it is issued. -/
  | challengeExpiry
  /-- PCIE_HOT_RESET (R508). A hot reset or link-down reset acts as PERST_N. -/
  | pcieHotReset
  /-- BAR2_READ (R510). Host read through BAR2 mapped by the page table, or all ones on an unmapped page. -/
  | bar2Read (o : BitVec 36) (n : Nat)
  /-- BAR2_WRITE (R510). Host write through BAR2 mapped by the page table, discarded if unmapped or poisoned. -/
  | bar2Write (o : BitVec 36) (bs : List Byte) (poisoned : Bool)
  /-- BAR2_READ_TIMEOUT (R514). A BAR2 read waiting 1 ms is withdrawn with Completer Abort. -/
  | bar2ReadTimeout
  /-- BAR4_WRITE (R516). Host write to an on-die store through BAR4, served last in bank priority. -/
  | bar4Write (o : BitVec 29) (bs : List Byte) (poisoned : Bool)
  /-- HOST_BAR2_PAGE_WRITE (R512). Write of HOST_BAR2_PAGEn remaps a BAR2 page for later accesses. -/
  | hostBar2PageWrite (n : Fin 64) (v : W32)
  /-- MSIX_SEND (R518). A pending MSI-X vector sends its message when its masks clear. -/
  | msixSend (v : Fin 256)
  /-- I2C_START (R520). A START begins an I2C transaction. -/
  | i2cStart
  /-- I2C_ADDRESS_BYTE (R519). An address byte is acknowledged if it matches the strapped address. -/
  | i2cAddressByte (b : Byte)
  /-- I2C_WRITE_BYTE (R521). A pointer or data byte is received and buffered. -/
  | i2cWriteByte (b : Byte)
  /-- I2C_READ_BYTE (R520). The target returns a byte from the pointer and advances it. -/
  | i2cReadByte (nack : Bool)
  /-- I2C_REPEATED_START (R524). A repeated START keeps buffered writes without committing. -/
  | i2cRepeatedStart
  /-- I2C_STOP (R522). A STOP commits every fully written register in one CCLK. -/
  | i2cStop (partialByte : Bool)
  /-- I2C_SCL_TIMEOUT (R525). SCL low for 25 ms abandons the transaction. -/
  | i2cSclTimeout
  /-- H2B_POST (R528). MGMT_MBX.h2b_post sets h2b_full. -/
  | h2bPost
  /-- H2B_ACK (R528). MGMT_MBX.h2b_ack clears h2b_full. -/
  | h2bAck
  /-- B2H_POST (R528). MGMT_MBX.b2h_post sets b2h_full and raises the mailbox vector. -/
  | b2hPost
  /-- B2H_ACK (R528). MGMT_MBX.b2h_ack clears b2h_full. -/
  | b2hAck
  /-- SUPPLY_HOLD_BEGIN (R532). A filtered PF_N low begins a supply hold, stopping the fabric and draining writes. -/
  | supplyHoldBegin
  /-- HOLD_READY (R532). Writes are drained, state retained and channels in self-refresh; hold_ready is set. -/
  | holdReady
  /-- SUPPLY_HOLD_END (R534). A filtered PF_N high ends the hold and resumption starts. -/
  | supplyHoldEnd
  /-- HOLD_RESUME_DONE (R535). Channels leave self-refresh and the compute domain resumes from retention. -/
  | holdResumeDone (us : W32)
  /-- TRACE_ENABLE (R554). Write of TRACE_CTRL.en starts or stops trace, emitting SYNC on enable. -/
  | traceEnable (v : W32)
  /-- TRACE_CLEAR (R546). TRACE_CTRL.clear sets TRACE_WR and TRACE_RD to 0. -/
  | traceClear
  /-- HOST_MARK (R541). Write of TRACE_MARK high emits a HOST_MARK packet. -/
  | hostMark (v : W32)
  /-- TRACE_SYNC_PERIOD (R550). Each enabled running core emits SYNC every 2^n TCLK. -/
  | traceSyncPeriod (k : CoreId)
  /-- PMC_CLEAR (R553). TRACE_PMC_CTRL.clear sets the performance counters to 0. -/
  | pmcClear
  /-- PMC_SNAP (R553). TRACE_PMC_CTRL.snap copies all counters into PMCn_SNAP. -/
  | pmcSnap
  /-- TRACE_FREEZE (R555). Keyed write to TRACE_FREEZE requests a freeze. -/
  | traceFreeze (v : W32)
  /-- FREEZE_N (R555). FREEZE_N held low for 4 TCLK requests a freeze. -/
  | freezeN
  /-- FREEZE (R556). A taken freeze request stops every clock in sequence and holds state for readout. -/
  | freeze
  /-- TAP_RESET (R559). TRST_N low or VMEM rising resets the TAP and readout chain. -/
  | tapReset
  /-- EXTEST (R559). TAP instruction selecting the boundary register for external test. -/
  | extest (drive : List Bool)
  /-- IDCODE (R559). TAP instruction returning the 32-bit IDCODE. -/
  | idcode
  /-- SAMPLE_PRELOAD (R559). TAP instruction sampling or preloading the boundary register. -/
  | samplePreload (load : List Bool)
  /-- EXTEST_PULSE (R559). IEEE 1149.6 pulse test on the boundary register. -/
  | extestPulse
  /-- EXTEST_TRAIN (R559). IEEE 1149.6 train test on the boundary register. -/
  | extestTrain
  /-- HIGHZ (R559). TAP instruction placing outputs high-impedance. -/
  | highz
  /-- CLAMP (R559). TAP instruction holding boundary outputs with bypass selected. -/
  | clamp
  /-- RO_SELECT (R559). TAP instruction selecting readout segments. -/
  | roSelect (sel : BitVec 68)
  /-- READOUT (R560). Shifts the header and selected segments with their CRCs. -/
  | readout
  /-- BYPASS (R559). TAP instruction selecting the 1-bit bypass register. -/
  | bypass
  /-- LOW_POWER_ENTRY_DONE (R246). A DOZE entry of 2 CCLK or a NAP entry of 640 CCLK finishes and CORE_STATUS.power shows the new state. -/
  | lowPowerEntryDone (k : CoreId)
  /-- PCIE_LINK_UP (R34). PCIe link training with the host completes and HOST_LINK and MGMT_STATUS report the link up, with its width and speed. -/
  | pcieLinkUp (width : BitVec 5) (speed : BitVec 3)
  /-- CONFIGURATION_REQUEST (R506). A PCIe configuration request is answered with retry status before BIST completes and normally after it, and it sets power state and Bus Master Enable. -/
  | configurationRequest (r : CfgReq)
  /-- BAR4_READ (R533). A host read through BAR4 of an on-die store, aborted during BIST or a supply hold, where it also counts in HOST_HOLD_DISCARDS. -/
  | bar4Read (o : BitVec 29) (n : Nat)
  /-- SUPPLY_LOSS (R26). The supply rails leave their ratings, during a hold or within 50 µs of PF_N falling, and the part behaves as after a full power loss. -/
  | supplyLoss (selvedge : Bool)
  deriving DecidableEq, Repr

end Sys2Proof
end

