-- ==== Sys2Proof/Decode.lean ====
section
/-! DEFINITION. The command a table word spells. The part takes commands from outside, and no row of the table gives bits
(spec/opcode_table.json), so no word spells one. The 512-bit instruction word that a row's command carries is read by the
field accessors of Machine/Operands.lean. -/

namespace Sys2Proof

/-- The command spelled by the word `w` of `nbits` bits: none, because no row of the table gives bits. -/
def decodeTableWord (_nbits _w : Nat) : Option Instr := none

end Sys2Proof
end

