-- ==== Sys2Proof/Config.lean ====
section
/-! DEFINITION. What the spec leaves open and the machine goes on with: free values, opaque constants that nothing can
evaluate. `State.freeCtr` or the operands they depend on is their argument. -/

namespace Sys2Proof

/-- What the POS section sets besides POS registers: chain binding of the time base (R77), distributed counters (R458),
the delay of CHAIN mode in ns (R93). The spec gives its body no layout. -/
structure PosCfg where
  chainBound : Bool
  distribute : BitVec 4
  delay : Nat
  /-- POS and TIME registers it writes: offset and value -/
  regs : List (Nat × W32)
  /-- events it arms (R98) -/
  arm : List Nat
  deriving DecidableEq, Repr, Inhabited

def PosCfg.none : PosCfg := ⟨false, 0, 0, [], []⟩


namespace Config

/-- The content of a POS section body, whose layout the spec does not give (R39). -/
opaque posDecode : List Byte → PosCfg
/-- A 32-bit value the spec leaves open, at a count of free values. -/
opaque freeWord : Nat → W32
/-- What a special function returns within its bound (R333): function (0 VEXP, 1 VRCP, 2 VRSQRT, 3 VSMEXP), type code and
operand bits. Used only where it lies within the bound. -/
opaque fnCand : Nat → Nat → Nat → Nat
/-- A byte of companion memory at a device address after its contents became undefined for the given time. -/
opaque freeMem : Nat → Nat → Byte
/-- A byte the spec leaves open, at a count of free values. -/
opaque freeByte : Nat → Byte
/-- What a slot of the trace ring holds that no packet was written to since a reset (R540): number of the reset, slot. -/
opaque freePacket : Nat → Nat → BitVec 128
/-- A byte of a readout segment whose layout the spec does not give (R560): segment, byte, and the count of free values at
the freeze. -/
opaque readoutByte : Nat → Nat → Nat → Byte
/-- What a fault of the hardware puts in place of a checksum element at the check of a tile, at a count of free values:
element by number, nothing where it is as computed (R278, R282). -/
opaque freeUpset : Nat → Nat → Option W64
/-- A choice between two outcomes the spec leaves open, at a count of free values. -/
opaque freeBool : Nat → Bool
/-- A choice among several outcomes the spec leaves open: taken modulo their number. -/
opaque freeNat : Nat → Nat

end Config

end Sys2Proof
end

