-- ==== Sys2Proof/Machine/Table.lean ====
section
/-! DEFINITION. Finite tables in one canonical form: a list of (key, value) pairs with rising keys, in which the value an
unlisted key has is never listed, so that equal tables are equal lists. Registers, memory and register files are such
tables. -/

namespace Sys2Proof.Machine

/-- A table from natural numbers; what an unlisted key holds is a parameter of each operation. -/
abbrev Tab (α : Type) := List (Nat × α)

/-- The value at key `i`, `d i` when it is not listed. -/
def Tab.get {α : Type} (d : Nat → α) : Tab α → Nat → α
  | [], i => d i
  | (k, v) :: t, i => if i < k then d i else if i = k then v else Tab.get d t i

/-- Put `v` before the larger keys of a table, unless it is what an unlisted key holds. -/
def Tab.cons {α : Type} [DecidableEq α] (d : Nat → α) (i : Nat) (v : α) (t : Tab α) : Tab α :=
  if v = d i then t else (i, v) :: t

/-- Write `v` at key `i`; writing what an unlisted key holds removes the entry. -/
def Tab.set {α : Type} [DecidableEq α] (d : Nat → α) : Tab α → Nat → α → Tab α
  | [], i, v => Tab.cons d i v []
  | (k, w) :: t, i, v =>
    if i < k then Tab.cons d i v ((k, w) :: t)
    else if i = k then Tab.cons d i v t
    else (k, w) :: Tab.set d t i v

/-- Change what the keys `lo`, `lo + 1`, … hold, `n` of them. -/
def Tab.mapRange {α : Type} [DecidableEq α] (d : Nat → α) (g : Nat → α → α) : Nat → Nat → Tab α → Tab α
  | 0, _, t => t
  | n + 1, lo, [] => Tab.cons d lo (g lo (d lo)) (Tab.mapRange d g n (lo + 1) [])
  | n + 1, lo, (k, v) :: t =>
    if k = lo then Tab.cons d lo (g lo v) (Tab.mapRange d g n (lo + 1) t)
    else Tab.cons d lo (g lo (d lo)) (Tab.mapRange d g n (lo + 1) ((k, v) :: t))

/-- Change what `n` keys from `lo` hold. -/
def Tab.update {α : Type} [DecidableEq α] (d : Nat → α) (g : Nat → α → α) (lo n : Nat) (t : Tab α) : Tab α :=
  t.filter (fun e => e.1 < lo) ++ Tab.mapRange d g n lo (t.filter fun e => lo ≤ e.1)

/-- The canonical form: keys above `lo` and rising, no entry equal to what an unlisted key holds. -/
def Tab.wfFrom {α : Type} [DecidableEq α] (d : Nat → α) : Nat → Tab α → Bool
  | _, [] => true
  | lo, (k, v) :: t => decide (lo ≤ k) && decide (v ≠ d k) && Tab.wfFrom d (k + 1) t

/-- The canonical form of a table. -/
def Tab.wf {α : Type} [DecidableEq α] (d : Nat → α) (t : Tab α) : Bool := Tab.wfFrom d 0 t

end Sys2Proof.Machine
end

