-- ==== Sys2Proof/Machine/RegMap.lean ====
section
/-! DEFINITION. The BAR0 control map (R14): the address of every register the spec's tables list, and for every
32-bit word of it the value after power-up and the bits each access code governs (R10). Host views of one quantity of
several words (R9) are one row. -/

namespace Sys2Proof.Machine

/-- One 32-bit register word: its value after power-up and the bits under each access code of R10. Bits in no mask are
reserved (R13). -/
structure WordDef where
  /-- value after power-up -/
  reset : Nat
  /-- RW bits -/
  rw : Nat
  /-- W1C bits -/
  w1c : Nat
  /-- WO and SC bits: writing them starts an action -/
  act : Nat
  /-- RO bits -/
  ro : Nat
  deriving DecidableEq, Repr

/-- One row of a register table: `count` quantities of `words` consecutive words, the first at `off`, one each
`stride` bytes. -/
structure RegDef where
  name : String
  off : Nat
  stride : Nat
  count : Nat
  words : List WordDef
  deriving DecidableEq, Repr

/-- The blocks of the BAR0 control map (R14). -/
inductive Blk where
  | globalB | timeB | posB | ethB | intakeB | queueB | coreB | memB | embB | linkB | selvB | traceB | hostB | mgmtB
  deriving DecidableEq, Repr

/-- Registers of the GLOBAL block, at offsets from its base. -/
def regsGlobal : List RegDef :=
  [
  ⟨"GLOBAL_ID", 0x0, 0x0, 1, [⟨0x5CE03212, 0x0, 0x0, 0x0, 0xFFFFFFFF⟩]⟩,
  ⟨"GLOBAL_STEPPING", 0x4, 0x0, 1, [⟨0xB1, 0x0, 0x0, 0x0, 0xFFFF⟩]⟩,
  ⟨"GLOBAL_PWRUP_STATUS", 0x10, 0x0, 1, [⟨0x1, 0x0, 0x0, 0x0, 0x3F⟩]⟩,
  ⟨"GLOBAL_WARP_LEN", 0x20, 0x0, 1, [⟨0x0, 0x7FFFFFF, 0x0, 0x0, 0x0⟩]⟩,
  ⟨"GLOBAL_WARP_CTRL", 0x24, 0x0, 1, [⟨0x0, 0x2, 0x0, 0x1, 0x0⟩]⟩,
  ⟨"GLOBAL_WARP_STATUS", 0x28, 0x0, 1, [⟨0x0, 0x0, 0x40, 0x0, 0x3F⟩]⟩,
  ⟨"GLOBAL_WARP_ID", 0x30, 0x0, 1, [⟨0x0, 0x0, 0x0, 0x0, 0xFFFFFFFF⟩, ⟨0x0, 0x0, 0x0, 0x0, 0xFFFFFFFF⟩]⟩,
  ⟨"GLOBAL_WARP_CRC", 0x38, 0x0, 1, [⟨0x0, 0x0, 0x0, 0x0, 0xFFFFFFFF⟩]⟩,
  ⟨"GLOBAL_BIST_STATUS", 0x100, 0x0, 1, [⟨0x0, 0x0, 0x0, 0x0, 0x3FFFFFF⟩]⟩,
  ⟨"GLOBAL_CORE_AVAIL", 0x104, 0x0, 1, [⟨0x0, 0x0, 0x0, 0x0, 0xFFFFFFFF⟩]⟩,
  ⟨"GLOBAL_CH_AVAIL", 0x108, 0x0, 1, [⟨0x0, 0x0, 0x0, 0x0, 0xFFFFFFFF⟩, ⟨0x0, 0x0, 0x0, 0x0, 0xFFFF⟩]⟩,
  ⟨"GLOBAL_PT_CTRL", 0x200, 0x10, 8, [⟨0x0, 0x0, 0x0, 0x3, 0x0⟩]⟩,
  ⟨"GLOBAL_PT_STATUS", 0x204, 0x10, 8, [⟨0x3, 0x0, 0x8, 0x0, 0x7⟩]⟩]

/-- Registers of the TIME block, at offsets from its base. -/
def regsTime : List RegDef :=
  [
  ⟨"TIME_CTRL", 0x0, 0x0, 1, [⟨0x6401, 0xFF63, 0x0, 0x1C, 0x0⟩]⟩,
  ⟨"TIME_STATUS", 0x4, 0x0, 1, [⟨0x0, 0x0, 0x46, 0x0, 0x39⟩]⟩,
  ⟨"TIME_TRIM", 0x8, 0x0, 1, [⟨0x0, 0xFFFFFFFF, 0x0, 0x0, 0x0⟩]⟩,
  ⟨"TIME_SET_FRAC", 0x10, 0x0, 1, [⟨0x0, 0xFFFF, 0x0, 0x0, 0x0⟩]⟩,
  ⟨"TIME_SET_NS", 0x14, 0x0, 1, [⟨0x0, 0x3FFFFFFF, 0x0, 0x0, 0x0⟩]⟩,
  ⟨"TIME_SET_SEC", 0x18, 0x0, 1, [⟨0x0, 0xFFFFFFFF, 0x0, 0x0, 0x0⟩, ⟨0x0, 0xFFFFFFFF, 0x0, 0x0, 0x0⟩]⟩,
  ⟨"TIME_STEP", 0x20, 0x0, 1, [⟨0x0, 0xFFFFFFFF, 0x0, 0x0, 0x0⟩, ⟨0x0, 0xFFFFFFFF, 0x0, 0x0, 0x0⟩]⟩,
  ⟨"TIME_STEP_FRAC", 0x28, 0x0, 1, [⟨0x0, 0xFFFF, 0x0, 0x0, 0x0⟩]⟩,
  ⟨"TIME_SNAP", 0x30, 0x0, 1, [⟨0x0, 0x0, 0x0, 0x0, 0xFFFFFFFF⟩, ⟨0x0, 0x0, 0x0, 0x0, 0xFFFFFFFF⟩, ⟨0x0, 0x0, 0x0, 0x0, 0xFFFFFFFF⟩, ⟨0x0, 0x0, 0x0, 0x0, 0xFFFFFFFF⟩]⟩,
  ⟨"TIME_SNAP_PK", 0x40, 0x8, 4, [⟨0x0, 0x0, 0x0, 0x0, 0xFFFFFFFF⟩, ⟨0x0, 0x0, 0x0, 0x0, 0xFFFFFFFF⟩]⟩,
  ⟨"TIME_PPS_STAMP", 0x60, 0x0, 1, [⟨0x0, 0x0, 0x0, 0x0, 0xFFFFFFFF⟩, ⟨0x0, 0x0, 0x0, 0x0, 0xFFFFFFFF⟩, ⟨0x0, 0x0, 0x0, 0x0, 0xFFFFFFFF⟩, ⟨0x0, 0x0, 0x0, 0x0, 0xFFFFFFFF⟩]⟩,
  ⟨"TIME_PPS_COUNT", 0x70, 0x0, 1, [⟨0x0, 0x0, 0x0, 0x0, 0xFFFFFFFF⟩]⟩]

/-- Registers of the POS block, at offsets from its base. -/
def regsPos : List RegDef :=
  [
  ⟨"POS_EDGE_CFG", 0x0, 0x40, 16, [⟨0x0, 0xFF3F, 0x0, 0x0, 0x0⟩]⟩,
  ⟨"POS_EDGE_STATUS", 0x4, 0x40, 16, [⟨0x0, 0x0, 0x60, 0x0, 0xFFFF001F⟩]⟩,
  ⟨"POS_EDGE_POP", 0x8, 0x40, 16, [⟨0x0, 0x0, 0x0, 0x1, 0x0⟩]⟩,
  ⟨"POS_EDGE_HEAD_T", 0x10, 0x40, 16, [⟨0x0, 0x0, 0x0, 0x0, 0xFFFFFFFF⟩, ⟨0x0, 0x0, 0x0, 0x0, 0xFFFFFFFF⟩, ⟨0x0, 0x0, 0x0, 0x0, 0xFFFFFFFF⟩, ⟨0x0, 0x0, 0x0, 0x0, 0xFFFFFFFF⟩]⟩,
  ⟨"POS_EDGE_HEAD_P", 0x20, 0x40, 16, [⟨0x0, 0x0, 0x0, 0x0, 0xFFFFFFFF⟩, ⟨0x0, 0x0, 0x0, 0x0, 0xFFFFFFFF⟩]⟩,
  ⟨"POS_PK_CFG", 0x800, 0x80, 4, [⟨0x0, 0xFF0FFF, 0x0, 0x0, 0x0⟩]⟩,
  ⟨"POS_PK_STATUS", 0x804, 0x80, 4, [⟨0x4, 0x0, 0x70, 0x0, 0xFFFF000F⟩]⟩,
  ⟨"POS_PK_COUNT", 0x808, 0x80, 4, [⟨0x0, 0x0, 0x0, 0x0, 0xFFFFFFFF⟩, ⟨0x0, 0x0, 0x0, 0x0, 0xFFFFFFFF⟩]⟩,
  ⟨"POS_PK_REF", 0x810, 0x80, 4, [⟨0x0, 0xFFFFFFFF, 0x0, 0x0, 0x0⟩, ⟨0x0, 0xFFFF, 0x0, 0x0, 0x0⟩]⟩,
  ⟨"POS_PK_REF_CTRL", 0x818, 0x80, 4, [⟨0x0, 0x7C, 0x0, 0x83, 0x0⟩]⟩,
  ⟨"POS_PK_REF_DELTA", 0x820, 0x80, 4, [⟨0x0, 0x0, 0x0, 0x0, 0xFFFFFFFF⟩, ⟨0x0, 0x0, 0x0, 0x0, 0xFFFF⟩]⟩,
  ⟨"POS_PK_REF_T", 0x830, 0x80, 4, [⟨0x0, 0x0, 0x0, 0x0, 0xFFFFFFFF⟩, ⟨0x0, 0x0, 0x0, 0x0, 0xFFFFFFFF⟩, ⟨0x0, 0x0, 0x0, 0x0, 0xFFFFFFFF⟩, ⟨0x0, 0x0, 0x0, 0x0, 0xFFFFFFFF⟩]⟩,
  ⟨"POS_PK_LAST_T0", 0x840, 0x80, 4, [⟨0x0, 0x0, 0x0, 0x0, 0xFFFFFFFF⟩, ⟨0x0, 0x0, 0x0, 0x0, 0xFFFFFFFF⟩, ⟨0x0, 0x0, 0x0, 0x0, 0xFFFFFFFF⟩, ⟨0x0, 0x0, 0x0, 0x0, 0xFFFFFFFF⟩]⟩,
  ⟨"POS_PK_LAST_T1", 0x850, 0x80, 4, [⟨0x0, 0x0, 0x0, 0x0, 0xFFFFFFFF⟩, ⟨0x0, 0x0, 0x0, 0x0, 0xFFFFFFFF⟩, ⟨0x0, 0x0, 0x0, 0x0, 0xFFFFFFFF⟩, ⟨0x0, 0x0, 0x0, 0x0, 0xFFFFFFFF⟩]⟩,
  ⟨"POS_EV_CFG", 0x1000, 0x40, 80, [⟨0x0, 0xFFFF03FF, 0x0, 0x0, 0x0⟩]⟩,
  ⟨"POS_EV_CTRL", 0x1004, 0x40, 80, [⟨0x0, 0x0, 0x0, 0x3, 0x0⟩]⟩,
  ⟨"POS_EV_STATUS", 0x1008, 0x40, 80, [⟨0x0, 0x0, 0x7E, 0x0, 0x1⟩]⟩,
  ⟨"POS_EV_QUEUE", 0x100C, 0x40, 80, [⟨0x0, 0x3FF, 0x0, 0x0, 0x0⟩]⟩,
  ⟨"POS_EV_TARGET", 0x1010, 0x40, 80, [⟨0x0, 0xFFFFFFFF, 0x0, 0x0, 0x0⟩, ⟨0x0, 0xFFFFFFFF, 0x0, 0x0, 0x0⟩, ⟨0x0, 0xFFFFFFFF, 0x0, 0x0, 0x0⟩, ⟨0x0, 0xFFFFFFFF, 0x0, 0x0, 0x0⟩]⟩,
  ⟨"POS_EV_INTERVAL", 0x1020, 0x40, 80, [⟨0x0, 0xFFFFFFFF, 0x0, 0x0, 0x0⟩, ⟨0x0, 0xFFFFFFFF, 0x0, 0x0, 0x0⟩]⟩,
  ⟨"POS_EV_FIRES", 0x1028, 0x40, 80, [⟨0x0, 0x0, 0x0, 0x0, 0xFFFFFFFF⟩]⟩,
  ⟨"POS_EV_SKIPS", 0x102C, 0x40, 80, [⟨0x0, 0x0, 0x0, 0x0, 0xFFFFFFFF⟩]⟩]

/-- Registers of the ETH block, at offsets from its base. -/
def regsEth : List RegDef :=
  [
  ⟨"ETH_PORT_CTRL", 0x0, 0x1000, 8, [⟨0x0, 0x0, 0x0, 0x3, 0x0⟩]⟩,
  ⟨"ETH_PORT_STATUS", 0x4, 0x1000, 8, [⟨0x3, 0x0, 0x30, 0x0, 0xFFFF000F⟩]⟩,
  ⟨"ETH_PORT_CFG", 0x8, 0x1000, 8, [⟨0x0, 0x7, 0x0, 0x0, 0x0⟩]⟩,
  ⟨"ETH_MAC", 0x10, 0x1000, 8, [⟨0x0, 0xFFFFFFFF, 0x0, 0x0, 0x0⟩, ⟨0x0, 0xFFFF, 0x0, 0x0, 0x0⟩]⟩,
  ⟨"ETH_TX_QUEUE", 0x18, 0x1000, 8, [⟨0x0, 0x103FF, 0x0, 0x0, 0x0⟩]⟩,
  ⟨"ETH_RX_GOOD", 0x100, 0x1000, 8, [⟨0x0, 0x0, 0x0, 0x0, 0xFFFFFFFF⟩]⟩,
  ⟨"ETH_RX_FCS", 0x104, 0x1000, 8, [⟨0x0, 0x0, 0x0, 0x0, 0xFFFFFFFF⟩]⟩,
  ⟨"ETH_RX_SIZE", 0x108, 0x1000, 8, [⟨0x0, 0x0, 0x0, 0x0, 0xFFFFFFFF⟩]⟩,
  ⟨"ETH_RX_NOT_US", 0x10C, 0x1000, 8, [⟨0x0, 0x0, 0x0, 0x0, 0xFFFFFFFF⟩]⟩,
  ⟨"ETH_RX_NOT_IP", 0x110, 0x1000, 8, [⟨0x0, 0x0, 0x0, 0x0, 0xFFFFFFFF⟩]⟩,
  ⟨"ETH_RX_IP_ERR", 0x114, 0x1000, 8, [⟨0x0, 0x0, 0x0, 0x0, 0xFFFFFFFF⟩]⟩,
  ⟨"ETH_RX_UNMATCHED", 0x118, 0x1000, 8, [⟨0x0, 0x0, 0x0, 0x0, 0xFFFFFFFF⟩]⟩,
  ⟨"ETH_RX_FIFO", 0x11C, 0x1000, 8, [⟨0x0, 0x0, 0x0, 0x0, 0xFFFFFFFF⟩]⟩,
  ⟨"ETH_RX_PF_LOST", 0x120, 0x1000, 8, [⟨0x0, 0x0, 0x0, 0x0, 0xFFFFFFFF⟩]⟩,
  ⟨"ETH_RX_PAUSE", 0x124, 0x1000, 8, [⟨0x0, 0x0, 0x0, 0x0, 0xFFFFFFFF⟩]⟩,
  ⟨"ETH_RX_ABORTED", 0x128, 0x1000, 8, [⟨0x0, 0x0, 0x0, 0x0, 0xFFFFFFFF⟩]⟩,
  ⟨"ETH_RX_BYTES", 0x130, 0x1000, 8, [⟨0x0, 0x0, 0x0, 0x0, 0xFFFFFFFF⟩, ⟨0x0, 0x0, 0x0, 0x0, 0xFFFFFFFF⟩]⟩,
  ⟨"ETH_TX_FRAMES", 0x140, 0x1000, 8, [⟨0x0, 0x0, 0x0, 0x0, 0xFFFFFFFF⟩]⟩,
  ⟨"ETH_TX_BAD", 0x144, 0x1000, 8, [⟨0x0, 0x0, 0x0, 0x0, 0xFFFFFFFF⟩]⟩,
  ⟨"ETH_PTP_CFG", 0x800, 0x1000, 8, [⟨0x0, 0x3FF0003, 0x0, 0x0, 0x0⟩]⟩,
  ⟨"ETH_TXTS_STATUS", 0x810, 0x1000, 8, [⟨0x0, 0x20, 0x10, 0x0, 0xF⟩]⟩,
  ⟨"ETH_TXTS_OVF_COUNT", 0x814, 0x1000, 8, [⟨0x0, 0x0, 0x0, 0x0, 0xFFFFFFFF⟩]⟩,
  ⟨"ETH_TXTS_POP", 0x818, 0x1000, 8, [⟨0x0, 0x0, 0x0, 0x1, 0x0⟩]⟩,
  ⟨"ETH_TXTS_HEAD_T", 0x820, 0x1000, 8, [⟨0x0, 0x0, 0x0, 0x0, 0xFFFFFFFF⟩, ⟨0x0, 0x0, 0x0, 0x0, 0xFFFFFFFF⟩, ⟨0x0, 0x0, 0x0, 0x0, 0xFFFFFFFF⟩, ⟨0x0, 0x0, 0x0, 0x0, 0xFFFFFFFF⟩]⟩,
  ⟨"ETH_TXTS_HEAD_ID", 0x830, 0x1000, 8, [⟨0x0, 0x0, 0x0, 0x0, 0x1FFFF⟩]⟩]

/-- Registers of the INTAKE block, at offsets from its base. -/
def regsIntake : List RegDef :=
  [
  ⟨"INTAKE_GRID_STATUS", 0x1000, 0x40, 64, [⟨0x0, 0x0, 0x30, 0x0, 0xF⟩]⟩,
  ⟨"INTAKE_GRID_CTRL", 0x1004, 0x40, 64, [⟨0x0, 0x0, 0x0, 0x1, 0x0⟩]⟩,
  ⟨"INTAKE_GRID_PICKLEN", 0x1008, 0x40, 64, [⟨0x0, 0xFFFFFFFF, 0x0, 0x0, 0x0⟩]⟩,
  ⟨"INTAKE_GRID_ORIGIN_X", 0x1010, 0x40, 64, [⟨0x0, 0xFFFFFFFF, 0x0, 0x0, 0x0⟩]⟩,
  ⟨"INTAKE_GRID_ORIGIN_Y", 0x1014, 0x40, 64, [⟨0x0, 0xFFFFFFFF, 0x0, 0x0, 0x0⟩]⟩,
  ⟨"INTAKE_GRID_ORIGIN_Z", 0x1018, 0x40, 64, [⟨0x0, 0xFFFFFFFF, 0x0, 0x0, 0x0⟩]⟩,
  ⟨"INTAKE_GRID_SEQ", 0x1020, 0x40, 64, [⟨0x0, 0x0, 0x0, 0x0, 0xFFFFFFFF⟩, ⟨0x0, 0x0, 0x0, 0x0, 0xFFFFFFFF⟩]⟩,
  ⟨"INTAKE_CTX_FRAMES", 0x20000, 0x20, 4096, [⟨0x0, 0x0, 0x0, 0x0, 0xFFFFFFFF⟩]⟩,
  ⟨"INTAKE_CTX_RATE", 0x20004, 0x20, 4096, [⟨0x0, 0x0, 0x0, 0x0, 0xFFFFFFFF⟩]⟩,
  ⟨"INTAKE_CTX_OTHER", 0x20008, 0x20, 4096, [⟨0x0, 0x0, 0x0, 0x0, 0xFFFFFFFF⟩]⟩,
  ⟨"INTAKE_CTX_POINTS", 0x2000C, 0x20, 4096, [⟨0x0, 0x0, 0x0, 0x0, 0xFFFFFFFF⟩]⟩,
  ⟨"INTAKE_CTX_EMPTY", 0x20010, 0x20, 4096, [⟨0x0, 0x0, 0x0, 0x0, 0xFFFFFFFF⟩]⟩,
  ⟨"INTAKE_CTX_OUTSIDE", 0x20014, 0x20, 4096, [⟨0x0, 0x0, 0x0, 0x0, 0xFFFFFFFF⟩]⟩,
  ⟨"INTAKE_CTX_LOST", 0x20018, 0x20, 4096, [⟨0x0, 0x0, 0x0, 0x0, 0xFFFFFFFF⟩]⟩,
  ⟨"INTAKE_CTX_FLAGS", 0x2001C, 0x20, 4096, [⟨0x0, 0x0, 0x1F, 0x0, 0x0⟩]⟩]

/-- Registers of the QUEUE block, at offsets from its base. -/
def regsQueue : List RegDef :=
  [
  ⟨"QUEUE_CTRL", 0x0, 0x40, 1024, [⟨0x0, 0x0, 0x0, 0x7, 0x0⟩]⟩,
  ⟨"QUEUE_STATUS", 0x4, 0x40, 1024, [⟨0x8B, 0x0, 0x60, 0x0, 0x9F⟩]⟩,
  ⟨"QUEUE_BASE", 0x8, 0x40, 1024, [⟨0x0, 0xFFFFFFFF, 0x0, 0x0, 0x0⟩, ⟨0x0, 0xFFFFFFFF, 0x0, 0x0, 0x0⟩]⟩,
  ⟨"QUEUE_CFG", 0x10, 0x40, 1024, [⟨0x0, 0x1FFFFF1F, 0x0, 0x0, 0x0⟩]⟩,
  ⟨"QUEUE_PROD_MASK", 0x14, 0x40, 1024, [⟨0x0, 0xFFFFFFFF, 0x0, 0x0, 0x0⟩]⟩,
  ⟨"QUEUE_HEAD", 0x18, 0x40, 1024, [⟨0x0, 0x0, 0x0, 0x0, 0xFFFFFFFF⟩]⟩,
  ⟨"QUEUE_TAIL", 0x1C, 0x40, 1024, [⟨0x0, 0x0, 0x0, 0x0, 0xFFFFFFFF⟩]⟩,
  ⟨"QUEUE_RESV", 0x20, 0x40, 1024, [⟨0x0, 0x0, 0x0, 0x0, 0xFFFFFFFF⟩]⟩,
  ⟨"QUEUE_DOORBELL", 0x24, 0x40, 1024, [⟨0x0, 0x0, 0x0, 0x1FFFF, 0x0⟩]⟩,
  ⟨"QUEUE_RELEASE", 0x28, 0x40, 1024, [⟨0x0, 0x0, 0x0, 0x1FFFF, 0x0⟩]⟩,
  ⟨"QUEUE_IRQ", 0x2C, 0x40, 1024, [⟨0x0, 0xFFFF01FF, 0x0, 0x0, 0x0⟩]⟩,
  ⟨"QUEUE_REFUSED", 0x30, 0x40, 1024, [⟨0x0, 0x0, 0x0, 0x0, 0xFFFFFFFF⟩]⟩,
  ⟨"QUEUE_HWM", 0x34, 0x40, 1024, [⟨0x0, 0x0, 0x0, 0x0, 0x1FFFF⟩]⟩]

/-- Registers of the CORE block, at offsets from its base. -/
def regsCore : List RegDef :=
  [
  ⟨"CORE_CTRL", 0x0, 0x80000, 32, [⟨0x0, 0x0, 0x0, 0x7, 0x0⟩]⟩,
  ⟨"CORE_STATUS", 0x4, 0x80000, 32, [⟨0x23, 0x0, 0x80, 0x0, 0x7F⟩]⟩,
  ⟨"CORE_PC", 0x8, 0x80000, 32, [⟨0x0, 0x0, 0x0, 0x0, 0xFFFFFFFF⟩, ⟨0x0, 0x0, 0x0, 0x0, 0xFFFFFFFF⟩]⟩,
  ⟨"CORE_ABANDON_PC", 0x10, 0x80000, 32, [⟨0x0, 0x0, 0x0, 0x0, 0xFFFFFFFF⟩, ⟨0x0, 0x0, 0x0, 0x0, 0xFFFFFFFF⟩]⟩,
  ⟨"CORE_ABANDON_Q", 0x18, 0x80000, 32, [⟨0x0, 0x0, 0x0, 0x0, 0x3FF⟩]⟩,
  ⟨"CORE_PWR", 0x20, 0x80000, 32, [⟨0x0, 0xFF07, 0x0, 0x0, 0x0⟩]⟩,
  ⟨"CORE_WAKE_CAUSE", 0x24, 0x80000, 32, [⟨0x0, 0x0, 0x0, 0x0, 0x1FFF⟩]⟩,
  ⟨"CORE_WATCH0", 0x30, 0x80000, 32, [⟨0x0, 0x83FF, 0x0, 0x0, 0x0⟩]⟩,
  ⟨"CORE_WATCH1", 0x34, 0x80000, 32, [⟨0x0, 0x83FF, 0x0, 0x0, 0x0⟩]⟩,
  ⟨"CORE_WATCH2", 0x38, 0x80000, 32, [⟨0x0, 0x83FF, 0x0, 0x0, 0x0⟩]⟩,
  ⟨"CORE_WATCH3", 0x3C, 0x80000, 32, [⟨0x0, 0x83FF, 0x0, 0x0, 0x0⟩]⟩,
  ⟨"CORE_WATCH4", 0x40, 0x80000, 32, [⟨0x0, 0x83FF, 0x0, 0x0, 0x0⟩]⟩,
  ⟨"CORE_WATCH5", 0x44, 0x80000, 32, [⟨0x0, 0x83FF, 0x0, 0x0, 0x0⟩]⟩,
  ⟨"CORE_WATCH6", 0x48, 0x80000, 32, [⟨0x0, 0x83FF, 0x0, 0x0, 0x0⟩]⟩,
  ⟨"CORE_WATCH7", 0x4C, 0x80000, 32, [⟨0x0, 0x83FF, 0x0, 0x0, 0x0⟩]⟩,
  ⟨"CORE_ENTRY", 0x60, 0x80000, 32, [⟨0x0, 0xFFFFFFFF, 0x0, 0x0, 0x0⟩, ⟨0x0, 0xFFFFFFFF, 0x0, 0x0, 0x0⟩]⟩,
  ⟨"CORE_ARG", 0x70, 0x80000, 32, [⟨0x0, 0xFFFFFFFF, 0x0, 0x0, 0x0⟩, ⟨0x0, 0xFFFFFFFF, 0x0, 0x0, 0x0⟩]⟩,
  ⟨"CORE_EXC_CFG", 0x100, 0x80000, 32, [⟨0x0, 0xFF07, 0x0, 0x0, 0x0⟩]⟩,
  ⟨"CORE_EXC_STATUS", 0x104, 0x80000, 32, [⟨0x0, 0x0, 0x4, 0x0, 0xFFFF007B⟩]⟩,
  ⟨"CORE_EXC_PC", 0x108, 0x80000, 32, [⟨0x0, 0x0, 0x0, 0x0, 0xFFFFFFFF⟩, ⟨0x0, 0x0, 0x0, 0x0, 0xFFFFFFFF⟩]⟩,
  ⟨"CORE_EXC_ADDR", 0x110, 0x80000, 32, [⟨0x0, 0x0, 0x0, 0x0, 0xFFFFFFFF⟩, ⟨0x0, 0x0, 0x0, 0x0, 0xFFFFFFFF⟩]⟩,
  ⟨"CORE_EXC_INFO", 0x118, 0x80000, 32, [⟨0x0, 0x0, 0x0, 0x0, 0xFFFF1FFF⟩]⟩,
  ⟨"CORE_EXC_HANDLER", 0x120, 0x80000, 32, [⟨0x0, 0xFFFFFFFF, 0x0, 0x0, 0x0⟩, ⟨0x0, 0xFFFFFFFF, 0x0, 0x0, 0x0⟩]⟩,
  ⟨"CORE_TWIN0_BASE", 0x200, 0x80000, 32, [⟨0x0, 0xFFFFFFFF, 0x0, 0x0, 0x0⟩, ⟨0x0, 0xFFFFFFFF, 0x0, 0x0, 0x0⟩]⟩,
  ⟨"CORE_TWIN0_SIZE", 0x208, 0x80000, 32, [⟨0x0, 0xFFFFFF, 0x0, 0x0, 0x0⟩]⟩,
  ⟨"CORE_TWIN0_CFG", 0x20C, 0x80000, 32, [⟨0x0, 0x7, 0x0, 0x0, 0x0⟩]⟩,
  ⟨"CORE_TWIN1_BASE", 0x210, 0x80000, 32, [⟨0x0, 0xFFFFFFFF, 0x0, 0x0, 0x0⟩, ⟨0x0, 0xFFFFFFFF, 0x0, 0x0, 0x0⟩]⟩,
  ⟨"CORE_TWIN1_SIZE", 0x218, 0x80000, 32, [⟨0x0, 0xFFFFFF, 0x0, 0x0, 0x0⟩]⟩,
  ⟨"CORE_TWIN1_CFG", 0x21C, 0x80000, 32, [⟨0x0, 0x7, 0x0, 0x0, 0x0⟩]⟩,
  ⟨"ARRAY_CFG0", 0x10000, 0x80000, 32, [⟨0x0, 0x1, 0x0, 0x0, 0x0⟩]⟩,
  ⟨"ARRAY_WIDTH0", 0x10004, 0x80000, 32, [⟨0x0, 0x0, 0x0, 0x0, 0x7FF⟩]⟩,
  ⟨"ARRAY_TQ0", 0x10008, 0x80000, 32, [⟨0x0, 0x0, 0x0, 0x0, 0xFFFF000F⟩]⟩,
  ⟨"ARRAY_CFG1", 0x10010, 0x80000, 32, [⟨0x0, 0x1, 0x0, 0x0, 0x0⟩]⟩,
  ⟨"ARRAY_WIDTH1", 0x10014, 0x80000, 32, [⟨0x0, 0x0, 0x0, 0x0, 0x7FF⟩]⟩,
  ⟨"ARRAY_TQ1", 0x10018, 0x80000, 32, [⟨0x0, 0x0, 0x0, 0x0, 0xFFFF000F⟩]⟩,
  ⟨"ARRAY_CFG2", 0x10020, 0x80000, 32, [⟨0x0, 0x1, 0x0, 0x0, 0x0⟩]⟩,
  ⟨"ARRAY_WIDTH2", 0x10024, 0x80000, 32, [⟨0x0, 0x0, 0x0, 0x0, 0x7FF⟩]⟩,
  ⟨"ARRAY_TQ2", 0x10028, 0x80000, 32, [⟨0x0, 0x0, 0x0, 0x0, 0xFFFF000F⟩]⟩,
  ⟨"ARRAY_CFG3", 0x10030, 0x80000, 32, [⟨0x0, 0x1, 0x0, 0x0, 0x0⟩]⟩,
  ⟨"ARRAY_WIDTH3", 0x10034, 0x80000, 32, [⟨0x0, 0x0, 0x0, 0x0, 0x7FF⟩]⟩] ++ [
  ⟨"ARRAY_TQ3", 0x10038, 0x80000, 32, [⟨0x0, 0x0, 0x0, 0x0, 0xFFFF000F⟩]⟩,
  ⟨"ARRAY_PWR", 0x10100, 0x80000, 32, [⟨0x340, 0xFFF, 0x0, 0x0, 0x0⟩]⟩,
  ⟨"ARRAY_STATUS", 0x10104, 0x80000, 32, [⟨0x0, 0x0, 0x0, 0x0, 0xFF⟩]⟩,
  ⟨"ARRAY_STEPS", 0x10110, 0x80000, 32, [⟨0x0, 0x0, 0x0, 0x0, 0xFFFFFFFF⟩, ⟨0x0, 0x0, 0x0, 0x0, 0xFFFFFFFF⟩]⟩,
  ⟨"ARRAY_FRZ_FEED", 0x10118, 0x80000, 32, [⟨0x0, 0x0, 0x0, 0x0, 0xFFFFFFFF⟩]⟩,
  ⟨"ARRAY_FRZ_TQ", 0x1011C, 0x80000, 32, [⟨0x0, 0x0, 0x0, 0x0, 0xFFFFFFFF⟩]⟩,
  ⟨"ARRAY_DUMMY", 0x10120, 0x80000, 32, [⟨0x0, 0x0, 0x0, 0x0, 0xFFFFFFFF⟩]⟩,
  ⟨"ARRAY_RAMPW", 0x10124, 0x80000, 32, [⟨0x0, 0x0, 0x0, 0x0, 0xFFFFFFFF⟩]⟩,
  ⟨"ARRAY_CK0_STATUS", 0x10200, 0x80000, 32, [⟨0x0, 0x0, 0x7, 0x0, 0x0⟩]⟩,
  ⟨"ARRAY_CK0_MISMATCHES", 0x10204, 0x80000, 32, [⟨0x0, 0x0, 0x0, 0x0, 0xFFFFFFFF⟩]⟩,
  ⟨"ARRAY_CK0_CHECKED", 0x10208, 0x80000, 32, [⟨0x0, 0x0, 0x0, 0x0, 0xFFFFFFFF⟩]⟩,
  ⟨"ARRAY_CK0_UNCHECKED", 0x1020C, 0x80000, 32, [⟨0x0, 0x0, 0x0, 0x0, 0xFFFFFFFF⟩]⟩,
  ⟨"ARRAY_CK0_SPECIAL", 0x10210, 0x80000, 32, [⟨0x0, 0x0, 0x0, 0x0, 0xFFFFFFFF⟩]⟩,
  ⟨"ARRAY_CK0_LAST", 0x10214, 0x80000, 32, [⟨0x0, 0x0, 0x0, 0x0, 0x1FFFFFF⟩]⟩,
  ⟨"ARRAY_CK0_TOL", 0x10218, 0x80000, 32, [⟨0x0, 0x0, 0x0, 0x0, 0xFFFF⟩]⟩,
  ⟨"ARRAY_CK1_STATUS", 0x10220, 0x80000, 32, [⟨0x0, 0x0, 0x7, 0x0, 0x0⟩]⟩,
  ⟨"ARRAY_CK1_MISMATCHES", 0x10224, 0x80000, 32, [⟨0x0, 0x0, 0x0, 0x0, 0xFFFFFFFF⟩]⟩,
  ⟨"ARRAY_CK1_CHECKED", 0x10228, 0x80000, 32, [⟨0x0, 0x0, 0x0, 0x0, 0xFFFFFFFF⟩]⟩,
  ⟨"ARRAY_CK1_UNCHECKED", 0x1022C, 0x80000, 32, [⟨0x0, 0x0, 0x0, 0x0, 0xFFFFFFFF⟩]⟩,
  ⟨"ARRAY_CK1_SPECIAL", 0x10230, 0x80000, 32, [⟨0x0, 0x0, 0x0, 0x0, 0xFFFFFFFF⟩]⟩,
  ⟨"ARRAY_CK1_LAST", 0x10234, 0x80000, 32, [⟨0x0, 0x0, 0x0, 0x0, 0x1FFFFFF⟩]⟩,
  ⟨"ARRAY_CK1_TOL", 0x10238, 0x80000, 32, [⟨0x0, 0x0, 0x0, 0x0, 0xFFFF⟩]⟩,
  ⟨"ARRAY_CK2_STATUS", 0x10240, 0x80000, 32, [⟨0x0, 0x0, 0x7, 0x0, 0x0⟩]⟩,
  ⟨"ARRAY_CK2_MISMATCHES", 0x10244, 0x80000, 32, [⟨0x0, 0x0, 0x0, 0x0, 0xFFFFFFFF⟩]⟩,
  ⟨"ARRAY_CK2_CHECKED", 0x10248, 0x80000, 32, [⟨0x0, 0x0, 0x0, 0x0, 0xFFFFFFFF⟩]⟩,
  ⟨"ARRAY_CK2_UNCHECKED", 0x1024C, 0x80000, 32, [⟨0x0, 0x0, 0x0, 0x0, 0xFFFFFFFF⟩]⟩,
  ⟨"ARRAY_CK2_SPECIAL", 0x10250, 0x80000, 32, [⟨0x0, 0x0, 0x0, 0x0, 0xFFFFFFFF⟩]⟩,
  ⟨"ARRAY_CK2_LAST", 0x10254, 0x80000, 32, [⟨0x0, 0x0, 0x0, 0x0, 0x1FFFFFF⟩]⟩,
  ⟨"ARRAY_CK2_TOL", 0x10258, 0x80000, 32, [⟨0x0, 0x0, 0x0, 0x0, 0xFFFF⟩]⟩,
  ⟨"ARRAY_CK3_STATUS", 0x10260, 0x80000, 32, [⟨0x0, 0x0, 0x7, 0x0, 0x0⟩]⟩,
  ⟨"ARRAY_CK3_MISMATCHES", 0x10264, 0x80000, 32, [⟨0x0, 0x0, 0x0, 0x0, 0xFFFFFFFF⟩]⟩,
  ⟨"ARRAY_CK3_CHECKED", 0x10268, 0x80000, 32, [⟨0x0, 0x0, 0x0, 0x0, 0xFFFFFFFF⟩]⟩,
  ⟨"ARRAY_CK3_UNCHECKED", 0x1026C, 0x80000, 32, [⟨0x0, 0x0, 0x0, 0x0, 0xFFFFFFFF⟩]⟩,
  ⟨"ARRAY_CK3_SPECIAL", 0x10270, 0x80000, 32, [⟨0x0, 0x0, 0x0, 0x0, 0xFFFFFFFF⟩]⟩,
  ⟨"ARRAY_CK3_LAST", 0x10274, 0x80000, 32, [⟨0x0, 0x0, 0x0, 0x0, 0x1FFFFFF⟩]⟩,
  ⟨"ARRAY_CK3_TOL", 0x10278, 0x80000, 32, [⟨0x0, 0x0, 0x0, 0x0, 0xFFFF⟩]⟩,
  ⟨"ARRAY_CKCFG", 0x10300, 0x80000, 32, [⟨0x40, 0xFFFF, 0x0, 0x0, 0x0⟩]⟩,
  ⟨"ARRAY_BIST0", 0x10400, 0x80000, 32, [⟨0x0, 0x0, 0x0, 0x0, 0x1FFF⟩]⟩,
  ⟨"ARRAY_BIST1", 0x10404, 0x80000, 32, [⟨0x0, 0x0, 0x0, 0x0, 0x1FFF⟩]⟩,
  ⟨"ARRAY_BIST2", 0x10408, 0x80000, 32, [⟨0x0, 0x0, 0x0, 0x0, 0x1FFF⟩]⟩] ++ [
  ⟨"ARRAY_BIST3", 0x1040C, 0x80000, 32, [⟨0x0, 0x0, 0x0, 0x0, 0x1FFF⟩]⟩,
  ⟨"VEC_CFG", 0x20000, 0x80000, 32, [⟨0x1, 0x1, 0x0, 0x0, 0x0⟩]⟩,
  ⟨"VEC_STATUS", 0x20004, 0x80000, 32, [⟨0x0, 0x0, 0x1F, 0x0, 0x0⟩]⟩,
  ⟨"VEC_RES_COUNT", 0x20008, 0x80000, 32, [⟨0x0, 0x0, 0x0, 0x0, 0xFFFFFFFF⟩]⟩,
  ⟨"VEC_RES_LAST", 0x2000C, 0x80000, 32, [⟨0x0, 0x0, 0x0, 0x0, 0xFFFFF⟩]⟩,
  ⟨"VEC_GATH_WAIT", 0x20010, 0x80000, 32, [⟨0x0, 0x0, 0x0, 0x0, 0xFFFFFFFF⟩]⟩,
  ⟨"SPARSE_WIN_BASE", 0x30000, 0x80000, 32, [⟨0x0, 0xFFFFFFFF, 0x0, 0x0, 0x0⟩, ⟨0x0, 0xFFFFFFFF, 0x0, 0x0, 0x0⟩]⟩,
  ⟨"SPARSE_WIN_SIZE", 0x30008, 0x80000, 32, [⟨0x0, 0xFFFFFF, 0x0, 0x0, 0x0⟩]⟩,
  ⟨"SPARSE_WIN_CFG", 0x3000C, 0x80000, 32, [⟨0x0, 0x1, 0x0, 0x0, 0x0⟩]⟩,
  ⟨"SPARSE_STATUS", 0x30010, 0x80000, 32, [⟨0x0, 0x0, 0xE, 0x0, 0x1⟩]⟩,
  ⟨"SPARSE_JOBS", 0x30014, 0x80000, 32, [⟨0x0, 0x0, 0x0, 0x0, 0xFFFFFFFF⟩]⟩,
  ⟨"SPARSE_PAIRS", 0x30018, 0x80000, 32, [⟨0x0, 0x0, 0x0, 0x0, 0xFFFFFFFF⟩, ⟨0x0, 0x0, 0x0, 0x0, 0xFFFFFFFF⟩]⟩,
  ⟨"SPARSE_FRZ_CQ", 0x30020, 0x80000, 32, [⟨0x0, 0x0, 0x0, 0x0, 0xFFFFFFFF⟩]⟩,
  ⟨"SPARSE_CQ_HWM", 0x30024, 0x80000, 32, [⟨0x0, 0x0, 0x0, 0x0, 0xF⟩]⟩,
  ⟨"SPARSE_ROWS", 0x30028, 0x80000, 32, [⟨0x0, 0x0, 0x0, 0x0, 0xFFFFFFFF⟩]⟩]

/-- Registers of the MEM block, at offsets from its base. -/
def regsMem : List RegDef :=
  [
  ⟨"MEM_CTRL", 0x0, 0x10000, 48, [⟨0x0, 0x0, 0x0, 0x3, 0x0⟩]⟩,
  ⟨"MEM_STATUS", 0x4, 0x10000, 48, [⟨0x0, 0x0, 0xE0, 0x0, 0x1F⟩]⟩,
  ⟨"MEM_QUEUE", 0x8, 0x10000, 48, [⟨0x0, 0x0, 0x0, 0x0, 0x1FF7F⟩]⟩,
  ⟨"MEM_TEMP", 0x10, 0x10000, 48, [⟨0x0, 0x0, 0x0, 0x0, 0xFF⟩]⟩,
  ⟨"MEM_CMD_ACCEPTED", 0x18, 0x10000, 48, [⟨0x0, 0x0, 0x0, 0x0, 0xFFFFFFFF⟩]⟩,
  ⟨"MEM_CMD_DONE", 0x1C, 0x10000, 48, [⟨0x0, 0x0, 0x0, 0x0, 0xFFFFFFFF⟩]⟩,
  ⟨"MEM_CMD_REFUSED", 0x20, 0x10000, 48, [⟨0x0, 0x0, 0x0, 0x0, 0xFFFFFFFF⟩]⟩,
  ⟨"MEM_CMD_DROPPED", 0x24, 0x10000, 48, [⟨0x0, 0x0, 0x0, 0x0, 0xFFFFFFFF⟩]⟩,
  ⟨"MEM_BAD_CMD", 0x28, 0x10000, 48, [⟨0x0, 0x0, 0x0, 0x0, 0xFFFFFFFF⟩]⟩,
  ⟨"MEM_ECC_CE", 0x30, 0x10000, 48, [⟨0x0, 0x0, 0x0, 0x0, 0xFFFFFFFF⟩]⟩,
  ⟨"MEM_ECC_UE", 0x34, 0x10000, 48, [⟨0x0, 0x0, 0x0, 0x0, 0xFFFFFFFF⟩]⟩,
  ⟨"MEM_ECC_POISON", 0x38, 0x10000, 48, [⟨0x0, 0x0, 0x0, 0x0, 0xFFFFFFFF⟩]⟩,
  ⟨"MEM_ECC_LAST", 0x40, 0x10000, 48, [⟨0x0, 0x0, 0x0, 0x0, 0xFFFFFFFF⟩, ⟨0x0, 0x0, 0x0, 0x0, 0x1⟩]⟩,
  ⟨"MEM_RULE_WAIT", 0x50, 0x10000, 48, [⟨0x0, 0x0, 0x0, 0x0, 0xFFFFFFFF⟩]⟩,
  ⟨"MEM_UNAVAIL", 0x54, 0x10000, 48, [⟨0x0, 0x0, 0x0, 0x0, 0xFFFFFFFF⟩]⟩]

/-- Registers of the EMB block, at offsets from its base. -/
def regsEmb : List RegDef :=
  [
  ⟨"EMB_CTRL", 0x0, 0x0, 1, [⟨0x0, 0x0, 0x0, 0x1, 0x0⟩]⟩,
  ⟨"EMB_STATUS", 0x4, 0x0, 1, [⟨0x0, 0x0, 0x1E, 0x0, 0xFF01⟩]⟩,
  ⟨"EMB_CFG", 0x8, 0x0, 1, [⟨0xFF0064, 0xFFFFFF, 0x0, 0x0, 0x0⟩]⟩,
  ⟨"EMB_WINDOW", 0x10, 0x0, 1, [⟨0x0, 0x0, 0x0, 0x0, 0xFFFFFFFF⟩]⟩,
  ⟨"EMB_SAMPLE_DROPS", 0x14, 0x0, 1, [⟨0x0, 0x0, 0x0, 0x0, 0xFFFFFFFF⟩]⟩,
  ⟨"EMB_REDIR_HITS", 0x18, 0x0, 1, [⟨0x0, 0x0, 0x0, 0x0, 0xFFFFFFFF⟩]⟩,
  ⟨"EMB_REDIR_USED", 0x1C, 0x0, 1, [⟨0x0, 0x0, 0x0, 0x0, 0x7FF⟩]⟩,
  ⟨"EMB_TAB_CUR", 0x10000, 0x100, 256, [⟨0x0, 0x3, 0x0, 0x0, 0x0⟩]⟩,
  ⟨"EMB_TAB_STATUS", 0x10004, 0x100, 256, [⟨0x0, 0x0, 0x0, 0x0, 0x1F⟩]⟩,
  ⟨"EMB_TAB_DRAIN0", 0x10010, 0x100, 256, [⟨0x0, 0x0, 0x0, 0x0, 0xFFFF⟩]⟩,
  ⟨"EMB_TAB_DRAIN1", 0x10014, 0x100, 256, [⟨0x0, 0x0, 0x0, 0x0, 0xFFFF⟩]⟩,
  ⟨"EMB_TAB_DRAIN2", 0x10018, 0x100, 256, [⟨0x0, 0x0, 0x0, 0x0, 0xFFFF⟩]⟩,
  ⟨"EMB_TAB_DRAIN3", 0x1001C, 0x100, 256, [⟨0x0, 0x0, 0x0, 0x0, 0xFFFF⟩]⟩,
  ⟨"EMB_TAB_LOAD", 0x10020, 0x100, 256, [⟨0x0, 0x0, 0x0, 0x0, 0xFFFFFFFF⟩]⟩,
  ⟨"EMB_TAB_LOAD_REMOTE", 0x10024, 0x100, 256, [⟨0x0, 0x0, 0x0, 0x0, 0xFFFFFFFF⟩]⟩,
  ⟨"EMB_TAB_LOAD_SENT", 0x10028, 0x100, 256, [⟨0x0, 0x0, 0x0, 0x0, 0xFFFFFFFF⟩]⟩,
  ⟨"EMB_TAB_ABSENT", 0x1002C, 0x100, 256, [⟨0x0, 0x0, 0x0, 0x0, 0xFFFFFFFF⟩]⟩,
  ⟨"EMB_MOVE_CTRL", 0x20000, 0x0, 1, [⟨0x0, 0x0, 0x0, 0x3, 0x0⟩]⟩,
  ⟨"EMB_MOVE_STATUS", 0x20004, 0x0, 1, [⟨0x0, 0x0, 0x10, 0x0, 0xF⟩]⟩,
  ⟨"EMB_MOVE_TABLE", 0x20008, 0x0, 1, [⟨0x0, 0x3FF, 0x0, 0x0, 0x0⟩]⟩,
  ⟨"EMB_MOVE_ROW", 0x2000C, 0x0, 1, [⟨0x0, 0xFFFFFFFF, 0x0, 0x0, 0x0⟩]⟩,
  ⟨"EMB_MOVE_DST", 0x20010, 0x0, 1, [⟨0x0, 0xF, 0x0, 0x0, 0x0⟩]⟩,
  ⟨"EMB_MOVE_DST_SLOT", 0x20014, 0x0, 1, [⟨0x0, 0xFFFFFFFF, 0x0, 0x0, 0x0⟩]⟩]

/-- Registers of the LINK block, at offsets from its base. -/
def regsLink : List RegDef :=
  [
  ⟨"LINK_CTRL", 0x0, 0x10000, 6, [⟨0x0, 0x0, 0x0, 0x7, 0x0⟩]⟩,
  ⟨"LINK_STATUS", 0x4, 0x10000, 6, [⟨0x3, 0x0, 0x500, 0x0, 0xFFFF02FF⟩]⟩,
  ⟨"LINK_CFG", 0x8, 0x10000, 6, [⟨0x0, 0xFFFF0007, 0x0, 0x0, 0x0⟩]⟩,
  ⟨"LINK_PEER", 0xC, 0x10000, 6, [⟨0x0, 0x0, 0x0, 0x0, 0xFF⟩]⟩,
  ⟨"LINK_DELAY", 0x10, 0x10000, 6, [⟨0x0, 0x0, 0x0, 0x0, 0xFFFFFFFF⟩]⟩,
  ⟨"LINK_OFFSET", 0x14, 0x10000, 6, [⟨0x0, 0x0, 0x0, 0x0, 0xFFFFFFFF⟩]⟩,
  ⟨"LINK_CRC_ERR", 0x20, 0x10000, 6, [⟨0x0, 0x0, 0x0, 0x0, 0xFFFFFFFF⟩]⟩,
  ⟨"LINK_FEC_CORR", 0x24, 0x10000, 6, [⟨0x0, 0x0, 0x0, 0x0, 0xFFFFFFFF⟩]⟩,
  ⟨"LINK_REPLAYS", 0x28, 0x10000, 6, [⟨0x0, 0x0, 0x0, 0x0, 0xFFFFFFFF⟩]⟩,
  ⟨"LINK_TX_BOLTS", 0x2C, 0x10000, 6, [⟨0x0, 0x0, 0x0, 0x0, 0xFFFFFFFF⟩]⟩,
  ⟨"LINK_RX_BOLTS", 0x30, 0x10000, 6, [⟨0x0, 0x0, 0x0, 0x0, 0xFFFFFFFF⟩]⟩,
  ⟨"LINK_RX_UNBOUND", 0x34, 0x10000, 6, [⟨0x0, 0x0, 0x0, 0x0, 0xFFFFFFFF⟩]⟩,
  ⟨"LINK_RX_CLOSED", 0x38, 0x10000, 6, [⟨0x0, 0x0, 0x0, 0x0, 0xFFFFFFFF⟩]⟩,
  ⟨"LINK_RX_HOLD_DROP", 0x3C, 0x10000, 6, [⟨0x0, 0x0, 0x0, 0x0, 0xFFFFFFFF⟩]⟩,
  ⟨"LINK_RX_TOO_LONG", 0x40, 0x10000, 6, [⟨0x0, 0x0, 0x0, 0x0, 0xFFFFFFFF⟩]⟩,
  ⟨"LINK_RX_DUP", 0x44, 0x10000, 6, [⟨0x0, 0x0, 0x0, 0x0, 0xFFFFFFFF⟩]⟩,
  ⟨"LINK_E2E_ERR", 0x48, 0x10000, 6, [⟨0x0, 0x0, 0x0, 0x0, 0xFFFFFFFF⟩]⟩,
  ⟨"LINK_TX_LOST", 0x4C, 0x10000, 6, [⟨0x0, 0x0, 0x0, 0x0, 0xFFFFFFFF⟩]⟩,
  ⟨"LINK_BUDGET_WAIT", 0x50, 0x10000, 6, [⟨0x0, 0x0, 0x0, 0x0, 0xFFFFFFFF⟩]⟩,
  ⟨"LINK_ROUTE", 0x8000, 0x4, 16, [⟨0xFF, 0xFF, 0x0, 0x0, 0x0⟩]⟩,
  ⟨"LINK_HOLD", 0x8040, 0x0, 1, [⟨0x64, 0xFFFF, 0x0, 0x0, 0x0⟩]⟩,
  ⟨"CHAIN_TX_BAD", 0x8044, 0x0, 1, [⟨0x0, 0x0, 0x0, 0x0, 0xFFFFFFFF⟩]⟩,
  ⟨"CHAIN_TX_NOROUTE", 0x8048, 0x0, 1, [⟨0x0, 0x0, 0x0, 0x0, 0xFFFFFFFF⟩]⟩,
  ⟨"CHAIN_PICK_LATE", 0x804C, 0x0, 1, [⟨0x0, 0x0, 0x0, 0x0, 0xFFFFFFFF⟩]⟩,
  ⟨"CHAIN_PICK_COALESCED", 0x8050, 0x0, 1, [⟨0x0, 0x0, 0x0, 0x0, 0xFFFFFFFF⟩]⟩]

/-- Registers of the SELV block, at offsets from its base. -/
def regsSelv : List RegDef :=
  [
  ⟨"SELV_STATUS", 0x0, 0x0, 1, [⟨0x10001, 0x0, 0x0, 0x0, 0xFFFFFF0F⟩]⟩,
  ⟨"SELV_SAFE_COUNT", 0x4, 0x0, 1, [⟨0x1, 0x0, 0x0, 0x0, 0xFFFFFFFF⟩]⟩,
  ⟨"SELV_TIME", 0x8, 0x0, 1, [⟨0x0, 0x0, 0x0, 0x0, 0xFFFFFFFF⟩, ⟨0x0, 0x0, 0x0, 0x0, 0xFFFFFFFF⟩]⟩,
  ⟨"SELV_DETECT_TIME", 0x10, 0x0, 1, [⟨0x0, 0x0, 0x0, 0x0, 0xFFFFFFFF⟩, ⟨0x0, 0x0, 0x0, 0x0, 0xFFFFFFFF⟩]⟩,
  ⟨"SELV_CAUSES_SEEN0", 0x18, 0x0, 1, [⟨0x0, 0x0, 0x0, 0x0, 0xFFFFFFFF⟩]⟩,
  ⟨"SELV_ROUNDS", 0x1C, 0x0, 1, [⟨0x0, 0x0, 0x0, 0x0, 0xFFFF⟩]⟩,
  ⟨"SELV_TG_SEQ", 0x20, 0x0, 1, [⟨0x0, 0x0, 0x0, 0x0, 0xFFFFFFFF⟩]⟩,
  ⟨"SELV_ECC_CE", 0x24, 0x0, 1, [⟨0x0, 0x0, 0x0, 0x0, 0xFFFFFFFF⟩]⟩,
  ⟨"SELV_DESC_DROPS", 0x28, 0x0, 1, [⟨0x0, 0x0, 0x0, 0x0, 0xFFFFFFFF⟩]⟩,
  ⟨"SELV_SEED_SKIPS", 0x2C, 0x0, 1, [⟨0x0, 0x0, 0x0, 0x0, 0xFFFFFFFF⟩]⟩,
  ⟨"SELV_ST_SKIPPED", 0x30, 0x0, 1, [⟨0x0, 0x0, 0x0, 0x0, 0xFFFFFFFF⟩]⟩,
  ⟨"SELV_CAUSES_SEEN1", 0x34, 0x0, 1, [⟨0x0, 0x0, 0x0, 0x0, 0xFFFFFFFF⟩]⟩,
  ⟨"SELV_EVENT", 0x100, 0x4, 64, [⟨0x0, 0x0, 0x0, 0x0, 0xFFFFFFFF⟩]⟩,
  ⟨"SELV_DM", 0x200, 0x4, 64, [⟨0x0, 0x0, 0x0, 0x0, 0xFFFF001F⟩]⟩,
  ⟨"SELV_RULE", 0x400, 0x4, 256, [⟨0x0, 0x0, 0x0, 0x0, 0xFFFFFFFF⟩]⟩,
  ⟨"SELV_MBX_CMD", 0x800, 0x0, 1, [⟨0x0, 0x0, 0x0, 0xFF, 0x0⟩]⟩,
  ⟨"SELV_MBX_ARG0", 0x804, 0x0, 1, [⟨0x0, 0xFFFFFFFF, 0x0, 0x0, 0x0⟩]⟩,
  ⟨"SELV_MBX_ARG1", 0x808, 0x0, 1, [⟨0x0, 0xFFFFFFFF, 0x0, 0x0, 0x0⟩]⟩,
  ⟨"SELV_MBX_STATUS", 0x810, 0x0, 1, [⟨0x0, 0x0, 0x0, 0x0, 0xF01⟩]⟩,
  ⟨"SELV_MBX_RSP0", 0x814, 0x0, 1, [⟨0x0, 0x0, 0x0, 0x0, 0xFFFFFFFF⟩]⟩]

/-- Registers of the TRACE block, at offsets from its base. -/
def regsTrace : List RegDef :=
  [
  ⟨"TRACE_CTRL", 0x0, 0x0, 1, [⟨0x0, 0x3, 0x0, 0x4, 0x0⟩]⟩,
  ⟨"TRACE_STATUS", 0x4, 0x0, 1, [⟨0x0, 0x0, 0x2, 0x0, 0x5⟩]⟩,
  ⟨"TRACE_WR", 0x8, 0x0, 1, [⟨0x0, 0x0, 0x0, 0x0, 0xFFFFFFFF⟩]⟩,
  ⟨"TRACE_RD", 0xC, 0x0, 1, [⟨0x0, 0xFFFFFFFF, 0x0, 0x0, 0x0⟩]⟩,
  ⟨"TRACE_DROPS", 0x10, 0x0, 1, [⟨0x0, 0x0, 0x0, 0x0, 0xFFFFFFFF⟩]⟩,
  ⟨"TRACE_SRC_EN", 0x20, 0x0, 1, [⟨0x0, 0xFFFFFFFF, 0x0, 0x0, 0x0⟩]⟩,
  ⟨"TRACE_SRC_SYS", 0x24, 0x0, 1, [⟨0x0, 0x1, 0x0, 0x0, 0x0⟩]⟩,
  ⟨"TRACE_FILTER", 0x28, 0x0, 1, [⟨0x0, 0x103, 0x0, 0x0, 0x0⟩]⟩,
  ⟨"TRACE_SYNC", 0x30, 0x0, 1, [⟨0x0, 0x1F, 0x0, 0x0, 0x0⟩]⟩,
  ⟨"TRACE_MARK", 0x40, 0x0, 1, [⟨0x0, 0xFFFFFFFF, 0x0, 0x0, 0x0⟩, ⟨0x0, 0xFFFF, 0x0, 0x0, 0x0⟩]⟩,
  ⟨"TRACE_PMC_CTRL", 0x100, 0x0, 1, [⟨0x0, 0x1, 0x0, 0x6, 0x0⟩]⟩,
  ⟨"PMC_SEL", 0x200, 0x20, 16, [⟨0x0, 0x3FFF, 0x0, 0x0, 0x0⟩]⟩,
  ⟨"PMC", 0x208, 0x20, 16, [⟨0x0, 0x0, 0x0, 0x0, 0xFFFFFFFF⟩, ⟨0x0, 0x0, 0x0, 0x0, 0xFFFFFFFF⟩]⟩,
  ⟨"PMC_SNAP", 0x210, 0x20, 16, [⟨0x0, 0x0, 0x0, 0x0, 0xFFFFFFFF⟩, ⟨0x0, 0x0, 0x0, 0x0, 0xFFFFFFFF⟩]⟩,
  ⟨"TRACE_FREEZE", 0x400, 0x0, 1, [⟨0x0, 0x0, 0x0, 0xFFFF0001, 0x0⟩]⟩]

/-- Registers of the HOST block, at offsets from its base. -/
def regsHost : List RegDef :=
  [
  ⟨"HOST_CFG", 0x0, 0x0, 1, [⟨0x0, 0xFFFF07, 0x0, 0x0, 0x0⟩]⟩,
  ⟨"HOST_STATUS", 0x4, 0x0, 1, [⟨0x0, 0x0, 0x3C, 0x0, 0x3⟩]⟩,
  ⟨"HOST_LINK", 0x8, 0x0, 1, [⟨0x0, 0x0, 0x0, 0x0, 0x1FF⟩]⟩,
  ⟨"HOST_BAR2_PAGE", 0x100, 0x4, 64, [⟨0x0, 0xFF, 0x0, 0x0, 0x0⟩]⟩,
  ⟨"HOST_HOLD_DISCARDS", 0x200, 0x0, 1, [⟨0x0, 0x0, 0x0, 0x0, 0xFFFFFFFF⟩]⟩,
  ⟨"HOST_PF_DROPPED", 0x204, 0x0, 1, [⟨0x0, 0x0, 0x0, 0x0, 0xFFFFFFFF⟩]⟩,
  ⟨"HOST_UNMAPPED", 0x208, 0x0, 1, [⟨0x0, 0x0, 0x0, 0x0, 0xFFFFFFFF⟩]⟩,
  ⟨"HOST_CPL_ABORTS", 0x20C, 0x0, 1, [⟨0x0, 0x0, 0x0, 0x0, 0xFFFFFFFF⟩]⟩,
  ⟨"HOST_POISON_WR", 0x210, 0x0, 1, [⟨0x0, 0x0, 0x0, 0x0, 0xFFFFFFFF⟩]⟩,
  ⟨"HOST_LAST_HOLD", 0x214, 0x0, 1, [⟨0x0, 0x0, 0x0, 0x0, 0xFFFFFFFF⟩]⟩,
  ⟨"MSIX_TABLE", 0x10000, 0x10, 256, [⟨0x0, 0xFFFFFFFC, 0x0, 0x0, 0x0⟩, ⟨0x0, 0xFFFFFFFF, 0x0, 0x0, 0x0⟩, ⟨0x0, 0xFFFFFFFF, 0x0, 0x0, 0x0⟩, ⟨0x1, 0x1, 0x0, 0x0, 0x0⟩]⟩,
  ⟨"MSIX_PBA", 0x20000, 0x4, 8, [⟨0x0, 0x0, 0x0, 0x0, 0xFFFFFFFF⟩]⟩]

/-- Registers of the MGMT block, at offsets from its base. -/
def regsMgmt : List RegDef :=
  [
  ⟨"MGMT_ID", 0x0, 0x0, 1, [⟨0x5CE03212, 0x0, 0x0, 0x0, 0xFFFFFFFF⟩]⟩,
  ⟨"MGMT_STEPPING", 0x4, 0x0, 1, [⟨0xB1, 0x0, 0x0, 0x0, 0xFFFF⟩]⟩,
  ⟨"MGMT_STATUS", 0x8, 0x0, 1, [⟨0x11, 0x0, 0x0, 0x0, 0xFFFF⟩]⟩,
  ⟨"MGMT_ADDR", 0xC, 0x0, 1, [⟨0x58, 0x0, 0x0, 0x0, 0x7F⟩]⟩,
  ⟨"MGMT_TEMP", 0x10, 0x0, 1, [⟨0x0, 0x0, 0x0, 0x0, 0xFFFF⟩]⟩,
  ⟨"MGMT_TEMP_MD", 0x14, 0x4, 3, [⟨0x0, 0x0, 0x0, 0x0, 0xFFFFFFFF⟩]⟩,
  ⟨"MGMT_HOLDS", 0x20, 0x0, 1, [⟨0x0, 0x0, 0x0, 0x0, 0xFFFFFFFF⟩]⟩,
  ⟨"MGMT_LAST_HOLD", 0x24, 0x0, 1, [⟨0x0, 0x0, 0x0, 0x0, 0xFFFFFFFF⟩]⟩,
  ⟨"MGMT_H2B", 0x100, 0x4, 8, [⟨0x0, 0xFFFFFFFF, 0x0, 0x0, 0x0⟩]⟩,
  ⟨"MGMT_B2H", 0x120, 0x4, 8, [⟨0x0, 0xFFFFFFFF, 0x0, 0x0, 0x0⟩]⟩,
  ⟨"MGMT_MBX", 0x140, 0x0, 1, [⟨0x0, 0x0, 0x0, 0xF00, 0x3⟩]⟩,
  ⟨"MGMT_SCRATCH", 0x200, 0x4, 4, [⟨0x0, 0xFFFFFFFF, 0x0, 0x0, 0x0⟩]⟩]

/-- Base and size of each block of the control map (R14). -/
def blkBase : Blk → Nat × Nat
  | .globalB => (0x0, 0x10000)
  | .timeB => (0x10000, 0x10000)
  | .posB => (0x20000, 0x10000)
  | .ethB => (0x30000, 0x8000)
  | .intakeB => (0x40000, 0x40000)
  | .queueB => (0x80000, 0x10000)
  | .coreB => (0x1000000, 0x1000000)
  | .memB => (0x2000000, 0x300000)
  | .embB => (0x2400000, 0x100000)
  | .linkB => (0x2500000, 0x60000)
  | .selvB => (0x2600000, 0x100000)
  | .traceB => (0x2700000, 0x100000)
  | .hostB => (0x2800000, 0x100000)
  | .mgmtB => (0x2900000, 0x100000)

/-- The register table of each block. -/
def blkRegs : Blk → List RegDef
  | .globalB => regsGlobal
  | .timeB => regsTime
  | .posB => regsPos
  | .ethB => regsEth
  | .intakeB => regsIntake
  | .queueB => regsQueue
  | .coreB => regsCore
  | .memB => regsMem
  | .embB => regsEmb
  | .linkB => regsLink
  | .selvB => regsSelv
  | .traceB => regsTrace
  | .hostB => regsHost
  | .mgmtB => regsMgmt

/-- Every block, in address order. -/
def allBlks : List Blk := [.globalB, .timeB, .posB, .ethB, .intakeB, .queueB, .coreB, .memB, .embB, .linkB, .selvB, .traceB, .hostB, .mgmtB]

/-- Where a 4-byte-aligned BAR0 offset lies: the first offset of its quantity, the number of the word in it, and the
row of the table that lists it. -/
structure RegHit where
  /-- BAR0 offset of the lowest word of the quantity -/
  start : Nat
  /-- number of the word within the quantity -/
  idx : Nat
  row : RegDef
  deriving DecidableEq, Repr

/-- The row and word of one register table that a block offset names. -/
def RegDef.hit (base off : Nat) (r : RegDef) : Option RegHit :=
  let span := 4 * r.words.length
  if off < r.off then none
  else
    let d := off - r.off
    let n := if r.stride = 0 then 0 else d / r.stride
    let o := d - n * r.stride
    if n < r.count ∧ o < span then some ⟨base + r.off + n * r.stride, o / 4, r⟩ else none

/-- The block a BAR0 offset lies in (R14). -/
def blkOf (a : Nat) : Option Blk :=
  allBlks.find? fun b => (blkBase b).1 ≤ a && a < (blkBase b).1 + (blkBase b).2

/-- The register a BAR0 offset names, if any table lists it (R13). -/
def regHit (a : Nat) : Option RegHit :=
  match blkOf a with
  | none => none
  | some b => (blkRegs b).findSome? (RegDef.hit (blkBase b).1 (a - (blkBase b).1))

/-- The masks of the word a BAR0 offset names. -/
def RegHit.word (h : RegHit) : WordDef := h.row.words.getD h.idx ⟨0, 0, 0, 0, 0⟩

/-- The value after power-up of the word at a BAR0 offset: that of the register tables; `HOST_BAR2_PAGEn` starts as n
(R510); an offset no table lists reads 0 (R13). -/
def regReset (a : Nat) : BitVec 32 :=
  if 0x2800100 ≤ a ∧ a < 0x2800200 then BitVec.ofNat 32 ((a - 0x2800100) / 4)
  else match regHit a with
    | none => 0
    | some h => BitVec.ofNat 32 h.word.reset

namespace Reg

/-- GLOBAL_ID -/
abbrev globalId : Nat := 0x0
/-- GLOBAL_STEPPING -/
abbrev globalStepping : Nat := 0x4
/-- GLOBAL_PWRUP_STATUS -/
abbrev globalPwrupStatus : Nat := 0x10
/-- GLOBAL_WARP_LEN -/
abbrev globalWarpLen : Nat := 0x20
/-- GLOBAL_WARP_CTRL -/
abbrev globalWarpCtrl : Nat := 0x24
/-- GLOBAL_WARP_STATUS -/
abbrev globalWarpStatus : Nat := 0x28
/-- GLOBAL_WARP_ID -/
abbrev globalWarpId : Nat := 0x30
/-- GLOBAL_WARP_CRC -/
abbrev globalWarpCrc : Nat := 0x38
/-- GLOBAL_BIST_STATUS -/
abbrev globalBistStatus : Nat := 0x100
/-- GLOBAL_CORE_AVAIL -/
abbrev globalCoreAvail : Nat := 0x104
/-- GLOBAL_CH_AVAIL -/
abbrev globalChAvail : Nat := 0x108
/-- GLOBAL_PT_CTRL, number n -/
abbrev globalPtCtrl (n : Nat) : Nat := 0x200 + n * 0x10
/-- GLOBAL_PT_STATUS, number n -/
abbrev globalPtStatus (n : Nat) : Nat := 0x204 + n * 0x10
/-- TIME_CTRL -/
abbrev timeCtrl : Nat := 0x10000
/-- TIME_STATUS -/
abbrev timeStatus : Nat := 0x10004
/-- TIME_TRIM -/
abbrev timeTrim : Nat := 0x10008
/-- TIME_SET_FRAC -/
abbrev timeSetFrac : Nat := 0x10010
/-- TIME_SET_NS -/
abbrev timeSetNs : Nat := 0x10014
/-- TIME_SET_SEC -/
abbrev timeSetSec : Nat := 0x10018
/-- TIME_STEP -/
abbrev timeStep : Nat := 0x10020
/-- TIME_STEP_FRAC -/
abbrev timeStepFrac : Nat := 0x10028
/-- TIME_SNAP -/
abbrev timeSnap : Nat := 0x10030
/-- TIME_SNAP_PK, number n -/
abbrev timeSnapPk (n : Nat) : Nat := 0x10040 + n * 0x8
/-- TIME_PPS_STAMP -/
abbrev timePpsStamp : Nat := 0x10060
/-- TIME_PPS_COUNT -/
abbrev timePpsCount : Nat := 0x10070
/-- POS_EDGE_CFG, number n -/
abbrev posEdgeCfg (n : Nat) : Nat := 0x20000 + n * 0x40
/-- POS_EDGE_STATUS, number n -/
abbrev posEdgeStatus (n : Nat) : Nat := 0x20004 + n * 0x40
/-- POS_EDGE_POP, number n -/
abbrev posEdgePop (n : Nat) : Nat := 0x20008 + n * 0x40
/-- POS_EDGE_HEAD_T, number n -/
abbrev posEdgeHeadT (n : Nat) : Nat := 0x20010 + n * 0x40
/-- POS_EDGE_HEAD_P, number n -/
abbrev posEdgeHeadP (n : Nat) : Nat := 0x20020 + n * 0x40
/-- POS_PK_CFG, number n -/
abbrev posPkCfg (n : Nat) : Nat := 0x20800 + n * 0x80
/-- POS_PK_STATUS, number n -/
abbrev posPkStatus (n : Nat) : Nat := 0x20804 + n * 0x80
/-- POS_PK_COUNT, number n -/
abbrev posPkCount (n : Nat) : Nat := 0x20808 + n * 0x80
/-- POS_PK_REF, number n -/
abbrev posPkRef (n : Nat) : Nat := 0x20810 + n * 0x80
/-- POS_PK_REF_CTRL, number n -/
abbrev posPkRefCtrl (n : Nat) : Nat := 0x20818 + n * 0x80
/-- POS_PK_REF_DELTA, number n -/
abbrev posPkRefDelta (n : Nat) : Nat := 0x20820 + n * 0x80
/-- POS_PK_REF_T, number n -/
abbrev posPkRefT (n : Nat) : Nat := 0x20830 + n * 0x80
/-- POS_PK_LAST_T0, number n -/
abbrev posPkLastT0 (n : Nat) : Nat := 0x20840 + n * 0x80
/-- POS_PK_LAST_T1, number n -/
abbrev posPkLastT1 (n : Nat) : Nat := 0x20850 + n * 0x80
/-- POS_EV_CFG, number n -/
abbrev posEvCfg (n : Nat) : Nat := 0x21000 + n * 0x40
/-- POS_EV_CTRL, number n -/
abbrev posEvCtrl (n : Nat) : Nat := 0x21004 + n * 0x40
/-- POS_EV_STATUS, number n -/
abbrev posEvStatus (n : Nat) : Nat := 0x21008 + n * 0x40
/-- POS_EV_QUEUE, number n -/
abbrev posEvQueue (n : Nat) : Nat := 0x2100C + n * 0x40
/-- POS_EV_TARGET, number n -/
abbrev posEvTarget (n : Nat) : Nat := 0x21010 + n * 0x40
/-- POS_EV_INTERVAL, number n -/
abbrev posEvInterval (n : Nat) : Nat := 0x21020 + n * 0x40
/-- POS_EV_FIRES, number n -/
abbrev posEvFires (n : Nat) : Nat := 0x21028 + n * 0x40
/-- POS_EV_SKIPS, number n -/
abbrev posEvSkips (n : Nat) : Nat := 0x2102C + n * 0x40
/-- ETH_PORT_CTRL, number n -/
abbrev ethPortCtrl (n : Nat) : Nat := 0x30000 + n * 0x1000
/-- ETH_PORT_STATUS, number n -/
abbrev ethPortStatus (n : Nat) : Nat := 0x30004 + n * 0x1000
/-- ETH_PORT_CFG, number n -/
abbrev ethPortCfg (n : Nat) : Nat := 0x30008 + n * 0x1000
/-- ETH_MAC, number n -/
abbrev ethMac (n : Nat) : Nat := 0x30010 + n * 0x1000
/-- ETH_TX_QUEUE, number n -/
abbrev ethTxQueue (n : Nat) : Nat := 0x30018 + n * 0x1000
/-- ETH_RX_GOOD, number n -/
abbrev ethRxGood (n : Nat) : Nat := 0x30100 + n * 0x1000
/-- ETH_RX_FCS, number n -/
abbrev ethRxFcs (n : Nat) : Nat := 0x30104 + n * 0x1000
/-- ETH_RX_SIZE, number n -/
abbrev ethRxSize (n : Nat) : Nat := 0x30108 + n * 0x1000
/-- ETH_RX_NOT_US, number n -/
abbrev ethRxNotUs (n : Nat) : Nat := 0x3010C + n * 0x1000
/-- ETH_RX_NOT_IP, number n -/
abbrev ethRxNotIp (n : Nat) : Nat := 0x30110 + n * 0x1000
/-- ETH_RX_IP_ERR, number n -/
abbrev ethRxIpErr (n : Nat) : Nat := 0x30114 + n * 0x1000
/-- ETH_RX_UNMATCHED, number n -/
abbrev ethRxUnmatched (n : Nat) : Nat := 0x30118 + n * 0x1000
/-- ETH_RX_FIFO, number n -/
abbrev ethRxFifo (n : Nat) : Nat := 0x3011C + n * 0x1000
/-- ETH_RX_PF_LOST, number n -/
abbrev ethRxPfLost (n : Nat) : Nat := 0x30120 + n * 0x1000
/-- ETH_RX_PAUSE, number n -/
abbrev ethRxPause (n : Nat) : Nat := 0x30124 + n * 0x1000
/-- ETH_RX_ABORTED, number n -/
abbrev ethRxAborted (n : Nat) : Nat := 0x30128 + n * 0x1000
/-- ETH_RX_BYTES, number n -/
abbrev ethRxBytes (n : Nat) : Nat := 0x30130 + n * 0x1000
/-- ETH_TX_FRAMES, number n -/
abbrev ethTxFrames (n : Nat) : Nat := 0x30140 + n * 0x1000
/-- ETH_TX_BAD, number n -/
abbrev ethTxBad (n : Nat) : Nat := 0x30144 + n * 0x1000
/-- ETH_PTP_CFG, number n -/
abbrev ethPtpCfg (n : Nat) : Nat := 0x30800 + n * 0x1000
/-- ETH_TXTS_STATUS, number n -/
abbrev ethTxtsStatus (n : Nat) : Nat := 0x30810 + n * 0x1000
/-- ETH_TXTS_OVF_COUNT, number n -/
abbrev ethTxtsOvfCount (n : Nat) : Nat := 0x30814 + n * 0x1000
/-- ETH_TXTS_POP, number n -/
abbrev ethTxtsPop (n : Nat) : Nat := 0x30818 + n * 0x1000
/-- ETH_TXTS_HEAD_T, number n -/
abbrev ethTxtsHeadT (n : Nat) : Nat := 0x30820 + n * 0x1000
/-- ETH_TXTS_HEAD_ID, number n -/
abbrev ethTxtsHeadId (n : Nat) : Nat := 0x30830 + n * 0x1000
/-- INTAKE_GRID_STATUS, number n -/
abbrev intakeGridStatus (n : Nat) : Nat := 0x41000 + n * 0x40
/-- INTAKE_GRID_CTRL, number n -/
abbrev intakeGridCtrl (n : Nat) : Nat := 0x41004 + n * 0x40
/-- INTAKE_GRID_PICKLEN, number n -/
abbrev intakeGridPicklen (n : Nat) : Nat := 0x41008 + n * 0x40
/-- INTAKE_GRID_ORIGIN_X, number n -/
abbrev intakeGridOriginX (n : Nat) : Nat := 0x41010 + n * 0x40
/-- INTAKE_GRID_ORIGIN_Y, number n -/
abbrev intakeGridOriginY (n : Nat) : Nat := 0x41014 + n * 0x40
/-- INTAKE_GRID_ORIGIN_Z, number n -/
abbrev intakeGridOriginZ (n : Nat) : Nat := 0x41018 + n * 0x40
/-- INTAKE_GRID_SEQ, number n -/
abbrev intakeGridSeq (n : Nat) : Nat := 0x41020 + n * 0x40
/-- INTAKE_CTX_FRAMES, number n -/
abbrev intakeCtxFrames (n : Nat) : Nat := 0x60000 + n * 0x20
/-- INTAKE_CTX_RATE, number n -/
abbrev intakeCtxRate (n : Nat) : Nat := 0x60004 + n * 0x20
/-- INTAKE_CTX_OTHER, number n -/
abbrev intakeCtxOther (n : Nat) : Nat := 0x60008 + n * 0x20
/-- INTAKE_CTX_POINTS, number n -/
abbrev intakeCtxPoints (n : Nat) : Nat := 0x6000C + n * 0x20
/-- INTAKE_CTX_EMPTY, number n -/
abbrev intakeCtxEmpty (n : Nat) : Nat := 0x60010 + n * 0x20
/-- INTAKE_CTX_OUTSIDE, number n -/
abbrev intakeCtxOutside (n : Nat) : Nat := 0x60014 + n * 0x20
/-- INTAKE_CTX_LOST, number n -/
abbrev intakeCtxLost (n : Nat) : Nat := 0x60018 + n * 0x20
/-- INTAKE_CTX_FLAGS, number n -/
abbrev intakeCtxFlags (n : Nat) : Nat := 0x6001C + n * 0x20
/-- QUEUE_CTRL, number n -/
abbrev queueCtrl (n : Nat) : Nat := 0x80000 + n * 0x40
/-- QUEUE_STATUS, number n -/
abbrev queueStatus (n : Nat) : Nat := 0x80004 + n * 0x40
/-- QUEUE_BASE, number n -/
abbrev queueBase (n : Nat) : Nat := 0x80008 + n * 0x40
/-- QUEUE_CFG, number n -/
abbrev queueCfg (n : Nat) : Nat := 0x80010 + n * 0x40
/-- QUEUE_PROD_MASK, number n -/
abbrev queueProdMask (n : Nat) : Nat := 0x80014 + n * 0x40
/-- QUEUE_HEAD, number n -/
abbrev queueHead (n : Nat) : Nat := 0x80018 + n * 0x40
/-- QUEUE_TAIL, number n -/
abbrev queueTail (n : Nat) : Nat := 0x8001C + n * 0x40
/-- QUEUE_RESV, number n -/
abbrev queueResv (n : Nat) : Nat := 0x80020 + n * 0x40
/-- QUEUE_DOORBELL, number n -/
abbrev queueDoorbell (n : Nat) : Nat := 0x80024 + n * 0x40
/-- QUEUE_RELEASE, number n -/
abbrev queueRelease (n : Nat) : Nat := 0x80028 + n * 0x40
/-- QUEUE_IRQ, number n -/
abbrev queueIrq (n : Nat) : Nat := 0x8002C + n * 0x40
/-- QUEUE_REFUSED, number n -/
abbrev queueRefused (n : Nat) : Nat := 0x80030 + n * 0x40
/-- QUEUE_HWM, number n -/
abbrev queueHwm (n : Nat) : Nat := 0x80034 + n * 0x40
/-- CORE_CTRL, number n -/
abbrev coreCtrl (n : Nat) : Nat := 0x1000000 + n * 0x80000
/-- CORE_STATUS, number n -/
abbrev coreStatus (n : Nat) : Nat := 0x1000004 + n * 0x80000
/-- CORE_PC, number n -/
abbrev corePc (n : Nat) : Nat := 0x1000008 + n * 0x80000
/-- CORE_ABANDON_PC, number n -/
abbrev coreAbandonPc (n : Nat) : Nat := 0x1000010 + n * 0x80000
/-- CORE_ABANDON_Q, number n -/
abbrev coreAbandonQ (n : Nat) : Nat := 0x1000018 + n * 0x80000
/-- CORE_PWR, number n -/
abbrev corePwr (n : Nat) : Nat := 0x1000020 + n * 0x80000
/-- CORE_WAKE_CAUSE, number n -/
abbrev coreWakeCause (n : Nat) : Nat := 0x1000024 + n * 0x80000
/-- CORE_WATCH0, number n -/
abbrev coreWatch0 (n : Nat) : Nat := 0x1000030 + n * 0x80000
/-- CORE_WATCH1, number n -/
abbrev coreWatch1 (n : Nat) : Nat := 0x1000034 + n * 0x80000
/-- CORE_WATCH2, number n -/
abbrev coreWatch2 (n : Nat) : Nat := 0x1000038 + n * 0x80000
/-- CORE_WATCH3, number n -/
abbrev coreWatch3 (n : Nat) : Nat := 0x100003C + n * 0x80000
/-- CORE_WATCH4, number n -/
abbrev coreWatch4 (n : Nat) : Nat := 0x1000040 + n * 0x80000
/-- CORE_WATCH5, number n -/
abbrev coreWatch5 (n : Nat) : Nat := 0x1000044 + n * 0x80000
/-- CORE_WATCH6, number n -/
abbrev coreWatch6 (n : Nat) : Nat := 0x1000048 + n * 0x80000
/-- CORE_WATCH7, number n -/
abbrev coreWatch7 (n : Nat) : Nat := 0x100004C + n * 0x80000
/-- CORE_ENTRY, number n -/
abbrev coreEntry (n : Nat) : Nat := 0x1000060 + n * 0x80000
/-- CORE_ARG, number n -/
abbrev coreArg (n : Nat) : Nat := 0x1000070 + n * 0x80000
/-- CORE_EXC_CFG, number n -/
abbrev coreExcCfg (n : Nat) : Nat := 0x1000100 + n * 0x80000
/-- CORE_EXC_STATUS, number n -/
abbrev coreExcStatus (n : Nat) : Nat := 0x1000104 + n * 0x80000
/-- CORE_EXC_PC, number n -/
abbrev coreExcPc (n : Nat) : Nat := 0x1000108 + n * 0x80000
/-- CORE_EXC_ADDR, number n -/
abbrev coreExcAddr (n : Nat) : Nat := 0x1000110 + n * 0x80000
/-- CORE_EXC_INFO, number n -/
abbrev coreExcInfo (n : Nat) : Nat := 0x1000118 + n * 0x80000
/-- CORE_EXC_HANDLER, number n -/
abbrev coreExcHandler (n : Nat) : Nat := 0x1000120 + n * 0x80000
/-- CORE_TWIN0_BASE, number n -/
abbrev coreTwin0Base (n : Nat) : Nat := 0x1000200 + n * 0x80000
/-- CORE_TWIN0_SIZE, number n -/
abbrev coreTwin0Size (n : Nat) : Nat := 0x1000208 + n * 0x80000
/-- CORE_TWIN0_CFG, number n -/
abbrev coreTwin0Cfg (n : Nat) : Nat := 0x100020C + n * 0x80000
/-- CORE_TWIN1_BASE, number n -/
abbrev coreTwin1Base (n : Nat) : Nat := 0x1000210 + n * 0x80000
/-- CORE_TWIN1_SIZE, number n -/
abbrev coreTwin1Size (n : Nat) : Nat := 0x1000218 + n * 0x80000
/-- CORE_TWIN1_CFG, number n -/
abbrev coreTwin1Cfg (n : Nat) : Nat := 0x100021C + n * 0x80000
/-- ARRAY_CFG0, number n -/
abbrev arrayCfg0 (n : Nat) : Nat := 0x1010000 + n * 0x80000
/-- ARRAY_WIDTH0, number n -/
abbrev arrayWidth0 (n : Nat) : Nat := 0x1010004 + n * 0x80000
/-- ARRAY_TQ0, number n -/
abbrev arrayTq0 (n : Nat) : Nat := 0x1010008 + n * 0x80000
/-- ARRAY_CFG1, number n -/
abbrev arrayCfg1 (n : Nat) : Nat := 0x1010010 + n * 0x80000
/-- ARRAY_WIDTH1, number n -/
abbrev arrayWidth1 (n : Nat) : Nat := 0x1010014 + n * 0x80000
/-- ARRAY_TQ1, number n -/
abbrev arrayTq1 (n : Nat) : Nat := 0x1010018 + n * 0x80000
/-- ARRAY_CFG2, number n -/
abbrev arrayCfg2 (n : Nat) : Nat := 0x1010020 + n * 0x80000
/-- ARRAY_WIDTH2, number n -/
abbrev arrayWidth2 (n : Nat) : Nat := 0x1010024 + n * 0x80000
/-- ARRAY_TQ2, number n -/
abbrev arrayTq2 (n : Nat) : Nat := 0x1010028 + n * 0x80000
/-- ARRAY_CFG3, number n -/
abbrev arrayCfg3 (n : Nat) : Nat := 0x1010030 + n * 0x80000
/-- ARRAY_WIDTH3, number n -/
abbrev arrayWidth3 (n : Nat) : Nat := 0x1010034 + n * 0x80000
/-- ARRAY_TQ3, number n -/
abbrev arrayTq3 (n : Nat) : Nat := 0x1010038 + n * 0x80000
/-- ARRAY_PWR, number n -/
abbrev arrayPwr (n : Nat) : Nat := 0x1010100 + n * 0x80000
/-- ARRAY_STATUS, number n -/
abbrev arrayStatus (n : Nat) : Nat := 0x1010104 + n * 0x80000
/-- ARRAY_STEPS, number n -/
abbrev arraySteps (n : Nat) : Nat := 0x1010110 + n * 0x80000
/-- ARRAY_FRZ_FEED, number n -/
abbrev arrayFrzFeed (n : Nat) : Nat := 0x1010118 + n * 0x80000
/-- ARRAY_FRZ_TQ, number n -/
abbrev arrayFrzTq (n : Nat) : Nat := 0x101011C + n * 0x80000
/-- ARRAY_DUMMY, number n -/
abbrev arrayDummy (n : Nat) : Nat := 0x1010120 + n * 0x80000
/-- ARRAY_RAMPW, number n -/
abbrev arrayRampw (n : Nat) : Nat := 0x1010124 + n * 0x80000
/-- ARRAY_CK0_STATUS, number n -/
abbrev arrayCk0Status (n : Nat) : Nat := 0x1010200 + n * 0x80000
/-- ARRAY_CK0_MISMATCHES, number n -/
abbrev arrayCk0Mismatches (n : Nat) : Nat := 0x1010204 + n * 0x80000
/-- ARRAY_CK0_CHECKED, number n -/
abbrev arrayCk0Checked (n : Nat) : Nat := 0x1010208 + n * 0x80000
/-- ARRAY_CK0_UNCHECKED, number n -/
abbrev arrayCk0Unchecked (n : Nat) : Nat := 0x101020C + n * 0x80000
/-- ARRAY_CK0_SPECIAL, number n -/
abbrev arrayCk0Special (n : Nat) : Nat := 0x1010210 + n * 0x80000
/-- ARRAY_CK0_LAST, number n -/
abbrev arrayCk0Last (n : Nat) : Nat := 0x1010214 + n * 0x80000
/-- ARRAY_CK0_TOL, number n -/
abbrev arrayCk0Tol (n : Nat) : Nat := 0x1010218 + n * 0x80000
/-- ARRAY_CK1_STATUS, number n -/
abbrev arrayCk1Status (n : Nat) : Nat := 0x1010220 + n * 0x80000
/-- ARRAY_CK1_MISMATCHES, number n -/
abbrev arrayCk1Mismatches (n : Nat) : Nat := 0x1010224 + n * 0x80000
/-- ARRAY_CK1_CHECKED, number n -/
abbrev arrayCk1Checked (n : Nat) : Nat := 0x1010228 + n * 0x80000
/-- ARRAY_CK1_UNCHECKED, number n -/
abbrev arrayCk1Unchecked (n : Nat) : Nat := 0x101022C + n * 0x80000
/-- ARRAY_CK1_SPECIAL, number n -/
abbrev arrayCk1Special (n : Nat) : Nat := 0x1010230 + n * 0x80000
/-- ARRAY_CK1_LAST, number n -/
abbrev arrayCk1Last (n : Nat) : Nat := 0x1010234 + n * 0x80000
/-- ARRAY_CK1_TOL, number n -/
abbrev arrayCk1Tol (n : Nat) : Nat := 0x1010238 + n * 0x80000
/-- ARRAY_CK2_STATUS, number n -/
abbrev arrayCk2Status (n : Nat) : Nat := 0x1010240 + n * 0x80000
/-- ARRAY_CK2_MISMATCHES, number n -/
abbrev arrayCk2Mismatches (n : Nat) : Nat := 0x1010244 + n * 0x80000
/-- ARRAY_CK2_CHECKED, number n -/
abbrev arrayCk2Checked (n : Nat) : Nat := 0x1010248 + n * 0x80000
/-- ARRAY_CK2_UNCHECKED, number n -/
abbrev arrayCk2Unchecked (n : Nat) : Nat := 0x101024C + n * 0x80000
/-- ARRAY_CK2_SPECIAL, number n -/
abbrev arrayCk2Special (n : Nat) : Nat := 0x1010250 + n * 0x80000
/-- ARRAY_CK2_LAST, number n -/
abbrev arrayCk2Last (n : Nat) : Nat := 0x1010254 + n * 0x80000
/-- ARRAY_CK2_TOL, number n -/
abbrev arrayCk2Tol (n : Nat) : Nat := 0x1010258 + n * 0x80000
/-- ARRAY_CK3_STATUS, number n -/
abbrev arrayCk3Status (n : Nat) : Nat := 0x1010260 + n * 0x80000
/-- ARRAY_CK3_MISMATCHES, number n -/
abbrev arrayCk3Mismatches (n : Nat) : Nat := 0x1010264 + n * 0x80000
/-- ARRAY_CK3_CHECKED, number n -/
abbrev arrayCk3Checked (n : Nat) : Nat := 0x1010268 + n * 0x80000
/-- ARRAY_CK3_UNCHECKED, number n -/
abbrev arrayCk3Unchecked (n : Nat) : Nat := 0x101026C + n * 0x80000
/-- ARRAY_CK3_SPECIAL, number n -/
abbrev arrayCk3Special (n : Nat) : Nat := 0x1010270 + n * 0x80000
/-- ARRAY_CK3_LAST, number n -/
abbrev arrayCk3Last (n : Nat) : Nat := 0x1010274 + n * 0x80000
/-- ARRAY_CK3_TOL, number n -/
abbrev arrayCk3Tol (n : Nat) : Nat := 0x1010278 + n * 0x80000
/-- ARRAY_CKCFG, number n -/
abbrev arrayCkcfg (n : Nat) : Nat := 0x1010300 + n * 0x80000
/-- ARRAY_BIST0, number n -/
abbrev arrayBist0 (n : Nat) : Nat := 0x1010400 + n * 0x80000
/-- ARRAY_BIST1, number n -/
abbrev arrayBist1 (n : Nat) : Nat := 0x1010404 + n * 0x80000
/-- ARRAY_BIST2, number n -/
abbrev arrayBist2 (n : Nat) : Nat := 0x1010408 + n * 0x80000
/-- ARRAY_BIST3, number n -/
abbrev arrayBist3 (n : Nat) : Nat := 0x101040C + n * 0x80000
/-- VEC_CFG, number n -/
abbrev vecCfg (n : Nat) : Nat := 0x1020000 + n * 0x80000
/-- VEC_STATUS, number n -/
abbrev vecStatus (n : Nat) : Nat := 0x1020004 + n * 0x80000
/-- VEC_RES_COUNT, number n -/
abbrev vecResCount (n : Nat) : Nat := 0x1020008 + n * 0x80000
/-- VEC_RES_LAST, number n -/
abbrev vecResLast (n : Nat) : Nat := 0x102000C + n * 0x80000
/-- VEC_GATH_WAIT, number n -/
abbrev vecGathWait (n : Nat) : Nat := 0x1020010 + n * 0x80000
/-- SPARSE_WIN_BASE, number n -/
abbrev sparseWinBase (n : Nat) : Nat := 0x1030000 + n * 0x80000
/-- SPARSE_WIN_SIZE, number n -/
abbrev sparseWinSize (n : Nat) : Nat := 0x1030008 + n * 0x80000
/-- SPARSE_WIN_CFG, number n -/
abbrev sparseWinCfg (n : Nat) : Nat := 0x103000C + n * 0x80000
/-- SPARSE_STATUS, number n -/
abbrev sparseStatus (n : Nat) : Nat := 0x1030010 + n * 0x80000
/-- SPARSE_JOBS, number n -/
abbrev sparseJobs (n : Nat) : Nat := 0x1030014 + n * 0x80000
/-- SPARSE_PAIRS, number n -/
abbrev sparsePairs (n : Nat) : Nat := 0x1030018 + n * 0x80000
/-- SPARSE_FRZ_CQ, number n -/
abbrev sparseFrzCq (n : Nat) : Nat := 0x1030020 + n * 0x80000
/-- SPARSE_CQ_HWM, number n -/
abbrev sparseCqHwm (n : Nat) : Nat := 0x1030024 + n * 0x80000
/-- SPARSE_ROWS, number n -/
abbrev sparseRows (n : Nat) : Nat := 0x1030028 + n * 0x80000
/-- MEM_CTRL, number n -/
abbrev memCtrl (n : Nat) : Nat := 0x2000000 + n * 0x10000
/-- MEM_STATUS, number n -/
abbrev memStatus (n : Nat) : Nat := 0x2000004 + n * 0x10000
/-- MEM_QUEUE, number n -/
abbrev memQueue (n : Nat) : Nat := 0x2000008 + n * 0x10000
/-- MEM_TEMP, number n -/
abbrev memTemp (n : Nat) : Nat := 0x2000010 + n * 0x10000
/-- MEM_CMD_ACCEPTED, number n -/
abbrev memCmdAccepted (n : Nat) : Nat := 0x2000018 + n * 0x10000
/-- MEM_CMD_DONE, number n -/
abbrev memCmdDone (n : Nat) : Nat := 0x200001C + n * 0x10000
/-- MEM_CMD_REFUSED, number n -/
abbrev memCmdRefused (n : Nat) : Nat := 0x2000020 + n * 0x10000
/-- MEM_CMD_DROPPED, number n -/
abbrev memCmdDropped (n : Nat) : Nat := 0x2000024 + n * 0x10000
/-- MEM_BAD_CMD, number n -/
abbrev memBadCmd (n : Nat) : Nat := 0x2000028 + n * 0x10000
/-- MEM_ECC_CE, number n -/
abbrev memEccCe (n : Nat) : Nat := 0x2000030 + n * 0x10000
/-- MEM_ECC_UE, number n -/
abbrev memEccUe (n : Nat) : Nat := 0x2000034 + n * 0x10000
/-- MEM_ECC_POISON, number n -/
abbrev memEccPoison (n : Nat) : Nat := 0x2000038 + n * 0x10000
/-- MEM_ECC_LAST, number n -/
abbrev memEccLast (n : Nat) : Nat := 0x2000040 + n * 0x10000
/-- MEM_RULE_WAIT, number n -/
abbrev memRuleWait (n : Nat) : Nat := 0x2000050 + n * 0x10000
/-- MEM_UNAVAIL, number n -/
abbrev memUnavail (n : Nat) : Nat := 0x2000054 + n * 0x10000
/-- EMB_CTRL -/
abbrev embCtrl : Nat := 0x2400000
/-- EMB_STATUS -/
abbrev embStatus : Nat := 0x2400004
/-- EMB_CFG -/
abbrev embCfg : Nat := 0x2400008
/-- EMB_WINDOW -/
abbrev embWindow : Nat := 0x2400010
/-- EMB_SAMPLE_DROPS -/
abbrev embSampleDrops : Nat := 0x2400014
/-- EMB_REDIR_HITS -/
abbrev embRedirHits : Nat := 0x2400018
/-- EMB_REDIR_USED -/
abbrev embRedirUsed : Nat := 0x240001C
/-- EMB_TAB_CUR, number n -/
abbrev embTabCur (n : Nat) : Nat := 0x2410000 + n * 0x100
/-- EMB_TAB_STATUS, number n -/
abbrev embTabStatus (n : Nat) : Nat := 0x2410004 + n * 0x100
/-- EMB_TAB_DRAIN0, number n -/
abbrev embTabDrain0 (n : Nat) : Nat := 0x2410010 + n * 0x100
/-- EMB_TAB_DRAIN1, number n -/
abbrev embTabDrain1 (n : Nat) : Nat := 0x2410014 + n * 0x100
/-- EMB_TAB_DRAIN2, number n -/
abbrev embTabDrain2 (n : Nat) : Nat := 0x2410018 + n * 0x100
/-- EMB_TAB_DRAIN3, number n -/
abbrev embTabDrain3 (n : Nat) : Nat := 0x241001C + n * 0x100
/-- EMB_TAB_LOAD, number n -/
abbrev embTabLoad (n : Nat) : Nat := 0x2410020 + n * 0x100
/-- EMB_TAB_LOAD_REMOTE, number n -/
abbrev embTabLoadRemote (n : Nat) : Nat := 0x2410024 + n * 0x100
/-- EMB_TAB_LOAD_SENT, number n -/
abbrev embTabLoadSent (n : Nat) : Nat := 0x2410028 + n * 0x100
/-- EMB_TAB_ABSENT, number n -/
abbrev embTabAbsent (n : Nat) : Nat := 0x241002C + n * 0x100
/-- EMB_MOVE_CTRL -/
abbrev embMoveCtrl : Nat := 0x2420000
/-- EMB_MOVE_STATUS -/
abbrev embMoveStatus : Nat := 0x2420004
/-- EMB_MOVE_TABLE -/
abbrev embMoveTable : Nat := 0x2420008
/-- EMB_MOVE_ROW -/
abbrev embMoveRow : Nat := 0x242000C
/-- EMB_MOVE_DST -/
abbrev embMoveDst : Nat := 0x2420010
/-- EMB_MOVE_DST_SLOT -/
abbrev embMoveDstSlot : Nat := 0x2420014
/-- LINK_CTRL, number n -/
abbrev linkCtrl (n : Nat) : Nat := 0x2500000 + n * 0x10000
/-- LINK_STATUS, number n -/
abbrev linkStatus (n : Nat) : Nat := 0x2500004 + n * 0x10000
/-- LINK_CFG, number n -/
abbrev linkCfg (n : Nat) : Nat := 0x2500008 + n * 0x10000
/-- LINK_PEER, number n -/
abbrev linkPeer (n : Nat) : Nat := 0x250000C + n * 0x10000
/-- LINK_DELAY, number n -/
abbrev linkDelay (n : Nat) : Nat := 0x2500010 + n * 0x10000
/-- LINK_OFFSET, number n -/
abbrev linkOffset (n : Nat) : Nat := 0x2500014 + n * 0x10000
/-- LINK_CRC_ERR, number n -/
abbrev linkCrcErr (n : Nat) : Nat := 0x2500020 + n * 0x10000
/-- LINK_FEC_CORR, number n -/
abbrev linkFecCorr (n : Nat) : Nat := 0x2500024 + n * 0x10000
/-- LINK_REPLAYS, number n -/
abbrev linkReplays (n : Nat) : Nat := 0x2500028 + n * 0x10000
/-- LINK_TX_BOLTS, number n -/
abbrev linkTxBolts (n : Nat) : Nat := 0x250002C + n * 0x10000
/-- LINK_RX_BOLTS, number n -/
abbrev linkRxBolts (n : Nat) : Nat := 0x2500030 + n * 0x10000
/-- LINK_RX_UNBOUND, number n -/
abbrev linkRxUnbound (n : Nat) : Nat := 0x2500034 + n * 0x10000
/-- LINK_RX_CLOSED, number n -/
abbrev linkRxClosed (n : Nat) : Nat := 0x2500038 + n * 0x10000
/-- LINK_RX_HOLD_DROP, number n -/
abbrev linkRxHoldDrop (n : Nat) : Nat := 0x250003C + n * 0x10000
/-- LINK_RX_TOO_LONG, number n -/
abbrev linkRxTooLong (n : Nat) : Nat := 0x2500040 + n * 0x10000
/-- LINK_RX_DUP, number n -/
abbrev linkRxDup (n : Nat) : Nat := 0x2500044 + n * 0x10000
/-- LINK_E2E_ERR, number n -/
abbrev linkE2eErr (n : Nat) : Nat := 0x2500048 + n * 0x10000
/-- LINK_TX_LOST, number n -/
abbrev linkTxLost (n : Nat) : Nat := 0x250004C + n * 0x10000
/-- LINK_BUDGET_WAIT, number n -/
abbrev linkBudgetWait (n : Nat) : Nat := 0x2500050 + n * 0x10000
/-- LINK_ROUTE, number n -/
abbrev linkRoute (n : Nat) : Nat := 0x2508000 + n * 0x4
/-- LINK_HOLD -/
abbrev linkHold : Nat := 0x2508040
/-- CHAIN_TX_BAD -/
abbrev chainTxBad : Nat := 0x2508044
/-- CHAIN_TX_NOROUTE -/
abbrev chainTxNoroute : Nat := 0x2508048
/-- CHAIN_PICK_LATE -/
abbrev chainPickLate : Nat := 0x250804C
/-- CHAIN_PICK_COALESCED -/
abbrev chainPickCoalesced : Nat := 0x2508050
/-- SELV_STATUS -/
abbrev selvStatus : Nat := 0x2600000
/-- SELV_SAFE_COUNT -/
abbrev selvSafeCount : Nat := 0x2600004
/-- SELV_TIME -/
abbrev selvTime : Nat := 0x2600008
/-- SELV_DETECT_TIME -/
abbrev selvDetectTime : Nat := 0x2600010
/-- SELV_CAUSES_SEEN0 -/
abbrev selvCausesSeen0 : Nat := 0x2600018
/-- SELV_ROUNDS -/
abbrev selvRounds : Nat := 0x260001C
/-- SELV_TG_SEQ -/
abbrev selvTgSeq : Nat := 0x2600020
/-- SELV_ECC_CE -/
abbrev selvEccCe : Nat := 0x2600024
/-- SELV_DESC_DROPS -/
abbrev selvDescDrops : Nat := 0x2600028
/-- SELV_SEED_SKIPS -/
abbrev selvSeedSkips : Nat := 0x260002C
/-- SELV_ST_SKIPPED -/
abbrev selvStSkipped : Nat := 0x2600030
/-- SELV_CAUSES_SEEN1 -/
abbrev selvCausesSeen1 : Nat := 0x2600034
/-- SELV_EVENT, number n -/
abbrev selvEvent (n : Nat) : Nat := 0x2600100 + n * 0x4
/-- SELV_DM, number n -/
abbrev selvDm (n : Nat) : Nat := 0x2600200 + n * 0x4
/-- SELV_RULE, number n -/
abbrev selvRule (n : Nat) : Nat := 0x2600400 + n * 0x4
/-- SELV_MBX_CMD -/
abbrev selvMbxCmd : Nat := 0x2600800
/-- SELV_MBX_ARG0 -/
abbrev selvMbxArg0 : Nat := 0x2600804
/-- SELV_MBX_ARG1 -/
abbrev selvMbxArg1 : Nat := 0x2600808
/-- SELV_MBX_STATUS -/
abbrev selvMbxStatus : Nat := 0x2600810
/-- SELV_MBX_RSP0 -/
abbrev selvMbxRsp0 : Nat := 0x2600814
/-- TRACE_CTRL -/
abbrev traceCtrl : Nat := 0x2700000
/-- TRACE_STATUS -/
abbrev traceStatus : Nat := 0x2700004
/-- TRACE_WR -/
abbrev traceWr : Nat := 0x2700008
/-- TRACE_RD -/
abbrev traceRd : Nat := 0x270000C
/-- TRACE_DROPS -/
abbrev traceDrops : Nat := 0x2700010
/-- TRACE_SRC_EN -/
abbrev traceSrcEn : Nat := 0x2700020
/-- TRACE_SRC_SYS -/
abbrev traceSrcSys : Nat := 0x2700024
/-- TRACE_FILTER -/
abbrev traceFilter : Nat := 0x2700028
/-- TRACE_SYNC -/
abbrev traceSync : Nat := 0x2700030
/-- TRACE_MARK -/
abbrev traceMark : Nat := 0x2700040
/-- TRACE_PMC_CTRL -/
abbrev tracePmcCtrl : Nat := 0x2700100
/-- PMC_SEL, number n -/
abbrev pmcSel (n : Nat) : Nat := 0x2700200 + n * 0x20
/-- PMC, number n -/
abbrev pmc (n : Nat) : Nat := 0x2700208 + n * 0x20
/-- PMC_SNAP, number n -/
abbrev pmcSnap (n : Nat) : Nat := 0x2700210 + n * 0x20
/-- TRACE_FREEZE -/
abbrev traceFreeze : Nat := 0x2700400
/-- HOST_CFG -/
abbrev hostCfg : Nat := 0x2800000
/-- HOST_STATUS -/
abbrev hostStatus : Nat := 0x2800004
/-- HOST_LINK -/
abbrev hostLink : Nat := 0x2800008
/-- HOST_BAR2_PAGE, number n -/
abbrev hostBar2Page (n : Nat) : Nat := 0x2800100 + n * 0x4
/-- HOST_HOLD_DISCARDS -/
abbrev hostHoldDiscards : Nat := 0x2800200
/-- HOST_PF_DROPPED -/
abbrev hostPfDropped : Nat := 0x2800204
/-- HOST_UNMAPPED -/
abbrev hostUnmapped : Nat := 0x2800208
/-- HOST_CPL_ABORTS -/
abbrev hostCplAborts : Nat := 0x280020C
/-- HOST_POISON_WR -/
abbrev hostPoisonWr : Nat := 0x2800210
/-- HOST_LAST_HOLD -/
abbrev hostLastHold : Nat := 0x2800214
/-- MSIX_TABLE, number n -/
abbrev msixTable (n : Nat) : Nat := 0x2810000 + n * 0x10
/-- MSIX_PBA, number n -/
abbrev msixPba (n : Nat) : Nat := 0x2820000 + n * 0x4
/-- MGMT_ID -/
abbrev mgmtId : Nat := 0x2900000
/-- MGMT_STEPPING -/
abbrev mgmtStepping : Nat := 0x2900004
/-- MGMT_STATUS -/
abbrev mgmtStatus : Nat := 0x2900008
/-- MGMT_ADDR -/
abbrev mgmtAddr : Nat := 0x290000C
/-- MGMT_TEMP -/
abbrev mgmtTemp : Nat := 0x2900010
/-- MGMT_TEMP_MD, number n -/
abbrev mgmtTempMd (n : Nat) : Nat := 0x2900014 + n * 0x4
/-- MGMT_HOLDS -/
abbrev mgmtHolds : Nat := 0x2900020
/-- MGMT_LAST_HOLD -/
abbrev mgmtLastHold : Nat := 0x2900024
/-- MGMT_H2B, number n -/
abbrev mgmtH2b (n : Nat) : Nat := 0x2900100 + n * 0x4
/-- MGMT_B2H, number n -/
abbrev mgmtB2h (n : Nat) : Nat := 0x2900120 + n * 0x4
/-- MGMT_MBX -/
abbrev mgmtMbx : Nat := 0x2900140
/-- MGMT_SCRATCH, number n -/
abbrev mgmtScratch (n : Nat) : Nat := 0x2900200 + n * 0x4

end Reg

end Sys2Proof.Machine
end

