-- ==== Sys2Proof/Machine/State.lean ====
section
/-! DEFINITION. The state of one BR-3212 as plain data: the register file of the BAR0 control map, device memory, and
everything else the spec gives the part. A register of the spec's tables has its one home in `State.regs`; the fields
here are what no register holds. -/

namespace Sys2Proof.Machine

/-- Why a command ends in a fault: none does. Where the spec calls a case outside contract (R591) the part goes on, with an
undefined fabric and a selvedge that judges (R5; log entry 27). -/
inductive Fault where
  deriving DecidableEq, Repr

/-- Why a command is refused. -/
inductive Refusal where
  /-- Raised by the dispatcher alone, for a command that has no meaning yet. Safe. -/
  | notModelled (mnemonic : String)
  deriving DecidableEq, Repr

/-- What a meaning answers for a fabric within its contract: the next state, or that the case is one that rule `rule` puts outside
contract (R591). `inContract` makes a next state of either. -/
inductive Res (σ : Type) where
  | next (s : σ)
  | outside (rule : Nat)
  deriving Repr

/-! ### Pins, clocks and outputs -/

/-- SAFE_N (R469): high-impedance, released, or driven low. -/
inductive SafeN where
  | hiZ | released | low
  deriving DecidableEq, Repr, Inhabited

/-- Pins of the part, `true` is high (R575, R577). -/
structure Pins where
  coldN : Bool
  perstN : Bool
  /-- the filtered level of PF_N (R530) -/
  pfN : Bool
  /-- levels of EDGE0 to EDGE15 after the filter (R86) -/
  edge : BitVec 16
  /-- TRIG0 to TRIG15 -/
  trig : BitVec 16
  ppsOut : Bool
  safeN : SafeN
  safeHb : Bool
  /-- ADDR[2:0] as sampled at the last rising edge of PERST_N (R519) -/
  addr : BitVec 3
  deriving DecidableEq, Repr, Inhabited

/-- SYSCLK and the PLLs (R67, R597). -/
inductive Clk where
  | running | stopped | relocking
  deriving DecidableEq, Repr, Inhabited

/-- What the part has put on its wires. -/
inductive Out where
  /-- an MSI-X message: vector, address and data of its table entry (R518) -/
  | msix (v : Nat) (addr : W64) (data : W32)
  /-- an Ethernet frame with its FCS (R145) -/
  | frame (port : Nat) (bytes : List Byte)
  /-- a safety telegram's payload, and whether it is an event telegram (R498, R499) -/
  | telegram (event : Bool) (payload : List Byte)
  /-- a flit: link, header, the bytes of message data and the CRC (R435) -/
  | flit (link : Nat) (header : W64) (body : List Byte) (crc : Nat)
  /-- PEER in training: own chip index and link number, and whether a warp image has been applied (R436, R438) -/
  | peer (link chip : Nat) (image : Bool)
  /-- CREDIT in training: the flits granted on each virtual channel (R436) -/
  | grant (link : Nat) (credits : List Nat)
  /-- a CTRL message other than a bolt or an embedding message -/
  | ctrl (link : Nat) (name : String)
  /-- a bolt whole, as the last of its flits leaves (R445) -/
  | bolt (link : Nat) (bytes : List Byte)
  | sync (link : Nat) (stamp : TStamp) (lock : Bool) (stepCount hops : Nat)
  | delayReq (link : Nat) (t1 : TStamp)
  | delayResp (link : Nat) (t1 t2 t3 : TStamp)
  | pick (link : Nat) (m : PickMsg)
  | sub (chip : Nat) (m : SubMsg)
  | part (chip : Nat) (m : PartMsg)
  | move (chip : Nat) (m : MoveMsg)
  | moveAck (chip : Nat) (num : W32) (refused : Bool)
  /-- bits the TAP shifted out, first bit first: opcode and data (R559, R560) -/
  | tdo (ir : BitVec 8) (bits : List Bool)
  deriving DecidableEq, Repr

/-- The last completion the part gave to a read or a byte it sent. -/
inductive Resp where
  | none
  /-- Successful Completion with these bytes -/
  | data (bs : List Byte)
  | completerAbort
  /-- the request meets no decoder: Unsupported Request -/
  | unsupported
  /-- Configuration Request Retry Status (R34) -/
  | retry
  | configDone
  /-- no answer: the clock the request needs is stopped, or the part is in reset or frozen (R597, R556) -/
  | unanswered
  /-- I2C: acknowledged or not, and the byte sent -/
  | i2cAck (ack : Bool)
  | i2cByte (b : Byte)
  deriving DecidableEq, Repr, Inhabited

/-- A shadow of a multi-word quantity: its captured words and which of them have been read (R9). -/
structure Shadow where
  words : List W32
  seen : List Bool
  deriving DecidableEq, Repr

/-! ### Warp image -/

/-- A PARTITION entry (R40). -/
structure PartEntry where
  used : Bool
  role : Nat
  peer : Nat
  start : Bool
  coreMask : Nat
  channelMask : Nat
  queueFirst : Nat
  queueCount : Nat
  ctxFirst : Nat
  ctxCount : Nat
  memBase : Nat
  memSize : Nat
  storeBase : Nat
  storeSize : Nat
  deriving DecidableEq, Repr

def PartEntry.unused : PartEntry := ⟨false, 0, 0xFF, false, 0, 0, 0, 0, 0, 0, 0, 0, 0, 0⟩

/-- What CORE_GROUP gives a core besides registers (R183). -/
structure CoreCfg where
  group : Option Nat
  shared : Bool
  deriving DecidableEq, Repr

/-- A template of the TEMPLATE section, as its 1,216 bytes (R122). -/
structure Template where
  bytes : List Byte
  deriving DecidableEq, Repr

/-- The structure the warp image gives the part, besides the registers it loads (R39). -/
structure Warp where
  /-- a full image has been applied since the reset -/
  image : Bool
  chip : Nat
  chainLength : Nat
  master : Nat
  linkEnable : Nat
  /-- peer chip and peer link of L0 to L5 -/
  peers : List (Nat × Nat)
  rewarpMib : Nat
  parts : List PartEntry
  /-- linear regions: base and slice (R373) -/
  lin : List (Nat × Nat)
  cores : Tab CoreCfg
  templates : Tab Template
  /-- ranges WORDS records have filled: address and length (R158) -/
  code : List (Nat × Nat)
  pos : PosCfg
  deriving DecidableEq, Repr, Inhabited

def Warp.empty : Warp := ⟨false, 0, 0, 0, 0, [], 0, [], [], [], [], [], .none⟩

/-- Where an apply command stands (R50, R51). -/
inductive Loader where
  | idle
  /-- the CRC check runs -/
  | checking
  /-- the CRC matched, the image is being applied -/
  | applying
  deriving DecidableEq, Repr, Inhabited

/-! ### Time and position -/

/-- The time base (R70): seconds, nanoseconds, and a 32-bit fraction of a nanosecond. -/
structure TimeBase where
  sec : W64
  ns : BitVec 30
  frac : BitVec 32
  deriving DecidableEq, Repr, Inhabited

/-- One entry of an edge stamp queue (R87). -/
structure EdgeStamp where
  t : TStamp
  p : PStamp
  deriving DecidableEq, Repr

/-- An edge input: the instant of its last edge in quarters of a nanosecond of running TCLK, and its stamp queue. -/
structure EdgeIn where
  last : Option Nat
  q : List EdgeStamp
  deriving DecidableEq, Repr

/-- A pick counter besides its registers: changes since it last left OFF or was loaded, at most 2 kept (R127), the PICKs
waiting to be applied (R459), and what is still to be sent to the chain (R458). -/
structure Pick where
  changes : Nat
  sched : List PickMsg
  /-- a change not yet sent to the chain, and the stamp of the last one -/
  toSend : Bool
  changed : TStamp
  /-- d of a reference load not yet sent -/
  loadD : Option (BitVec 48)
  /-- instant of the last PICK sent, in quarters of a nanosecond -/
  sentAt : Option Nat
  deriving DecidableEq, Repr

def Pick.idle : Pick := ⟨0, [], false, 0, none, none⟩

/-- A firing of a doorbell whose element is still to be written (R105, R107). -/
structure Firing where
  late : Bool
  /-- skips since the element before -/
  skips : Bool
  t : TStamp
  p : PStamp
  /-- POS_EVv_FIRES before this firing -/
  seq : W32
  deriving DecidableEq, Repr

/-- A scheduled event besides its registers (R98 to R107). -/
structure Event where
  /-- the target in force: units of 2⁻³² ns since the epoch for time, a signed count for picks -/
  target : Int
  /-- the instants, in units of 2⁻³² ns, of the TCLK in which firings are to take place whose pick condition has been met:
  the TCLK after the count change or load (R100) -/
  due : List Nat
  /-- changes counted for EACH_N -/
  changes : Nat
  /-- the TRIG pulse is active -/
  pulse : Bool
  /-- skips since the last element written to the queue (R107) -/
  skips : Bool
  /-- firings of a doorbell whose element is still to be written -/
  fired : List Firing
  deriving DecidableEq, Repr

def Event.idle : Event := ⟨0, [], 0, false, false, []⟩

/-- TIME and position besides registers. -/
structure Position where
  tb : TimeBase
  /-- instant in quarters of a nanosecond of running TCLK since the reset -/
  now : Nat
  /-- the instant at which TCLK last returned (R596) -/
  resumed : Nat
  /-- values sampled by a set, a step and a request of a snapshot (R72, R73, R76) -/
  setReq : Option TimeBase
  stepReq : Option (Int × Nat)
  ppsSeen : Bool
  /-- a PPS_OUT pulse is active (R79) -/
  ppsPulse : Bool
  /-- the time base has passed a whole second by counting, and what follows from it has not taken place -/
  secDue : Bool
  /-- the time base has reached a whole millisecond by counting, and the load window has not ended (R418) -/
  msDue : Bool
  edges : Tab EdgeIn
  picks : Tab Pick
  events : Tab Event
  deriving DecidableEq, Repr, Inhabited

/-! ### Queues, Ethernet, intake -/

/-- Who holds a reserved slot. -/
inductive Holder where
  | core (k : Nat)
  | engine
  deriving DecidableEq, Repr

/-- A reserved slot: its counter, its holder, and whether it is committed (R170). A slot whose holder was drained keeps
no holder (R179). -/
structure Slot where
  ctr : Nat
  holder : Option Holder
  committed : Bool
  deriving DecidableEq, Repr

/-- A transmit stamp (R82). -/
structure TxStamp where
  t : TStamp
  id : BitVec 16
  deriving DecidableEq, Repr

structure EthPort where
  tx : List TxStamp
  /-- the instant of running TCLK at which the port's drain began, while the frame in reception then has not ended (R57) -/
  drain : Option Nat
  deriving DecidableEq, Repr

/-- Kinds of a stream context (R117). -/
inductive CtxKind where
  | unused | point | image | raw
  deriving DecidableEq, Repr

/-- The image block in progress of an IMAGE context (R142). -/
structure ImgBlock where
  id : Nat
  extended : Bool
  t : TStamp
  p : PStamp
  width : Nat
  height : Nat
  /-- byte ranges received: start and length within the block -/
  got : List (Nat × Nat)
  /-- tile rows already emitted -/
  emitted : List Nat
  mismatch : Bool
  deriving DecidableEq, Repr

/-- A stream context: the CONTEXT entry, its mount, its bucket in millibits (R117, R120, R127). -/
structure Ctx where
  kind : CtxKind
  port : Nat
  srcIp : Nat
  srcUdp : Nat
  dstUdp : Nat
  vid : Nat
  matchVid : Bool
  sel : Nat
  bind : Nat
  queue : Nat
  rate : Nat
  burst : Nat
  width : Nat
  payload : Nat
  stage : Nat
  /-- 12 words of the mounting matrix; none is the identity (R127) -/
  mount : Option (List W32)
  tokens : Nat
  img : Option ImgBlock
  deriving DecidableEq, Repr

def Ctx.unused : Ctx := ⟨.unused, 0, 0, 0, 0, 0, false, 0, 0, 0, 0, 0, 0, 0, 0, none, 0, none⟩

/-- State of one grid buffer (R133 to R138). -/
inductive BufState where
  | ready | open | closing | closed | clearing
  deriving DecidableEq, Repr

structure GridBuf where
  st : BufState
  seq : Nat
  /-- count of the grid's counter at the opening (R127) -/
  popen : Nat
  opened : TStamp
  keys : Nat
  points : Nat
  blocks : Nat
  bricks : Nat
  flags : Nat
  lost : Nat
  /-- an element has released it before its header showed closed -/
  released : Bool
  /-- origin and pick length taken at its opening (R140) -/
  origin : List W32
  pickLen : W32
  deriving DecidableEq, Repr

def GridBuf.ready : GridBuf := ⟨.ready, 0, 0, 0, 0, 0, 0, 0, 0, 0, false, [], 0⟩

/-- A grid: its record, and its two buffers (R128 to R140). -/
structure Grid where
  part : Nat
  counter : Nat
  flipDb : Option Nat
  size : List W32
  origin : List W32
  axis : List W32
  pickLength : W32
  nb : List Nat
  releaseQ : Nat
  buf0 : Nat
  buf1 : Nat
  capBlocks : Nat
  capBricks : Nat
  capKeys : Nat
  capPoints : Nat
  b0 : GridBuf
  b1 : GridBuf
  nextSeq : Nat
  deriving DecidableEq, Repr

/-- A committed POINT frame whose points are still to be inserted (R133), the grid buffer it belongs to, and the grid's
counter at commit (R127, R148). -/
structure PointFrame where
  /-- number of the received frame, the same for every delivery of it -/
  id : Nat
  port : Nat
  ctx : Nat
  part : Nat
  grid : Nat
  /-- number of the buffer, or none while the grid is STALLED -/
  buf : Option Nat
  /-- receive stamp -/
  t : TStamp
  payload : List Byte
  /-- bytes it holds in the receive FIFO -/
  fifo : Nat
  count : Nat
  dir : Nat
  t0 : TStamp
  t1 : TStamp
  changes : Nat
  deriving DecidableEq, Repr

structure Intake where
  ports : Tab EthPort
  ctxs : Tab Ctx
  grids : List (Nat × Grid)
  frames : List PointFrame
  /-- number of the next received frame -/
  nextId : Nat
  /-- index of the current intake window (R493) -/
  window : Nat
  deriving DecidableEq, Repr, Inhabited

/-! ### Cores -/

/-- An exact number or a special value, the domain of floating arithmetic (R319): (-1)^s m 2^e. -/
inductive FVal where
  | nan
  | inf (s : Bool)
  | fin (s : Bool) (m : Nat) (e : Int)
  deriving DecidableEq, Repr

/-- One accumulator element: a 32-bit or 64-bit word, or an FP32 multi-word accumulator (R258, R260). -/
inductive Elem where
  | word (b : W64)
  | wide (x : FVal)
  deriving DecidableEq, Repr

/-- A sum that feeds a checker, in both readings of its operands: as integers and as numbers (R272). -/
structure Num where
  int : Int
  flt : FVal
  deriving DecidableEq, Repr

/-- The empty sum. -/
def Num.zero : Num := ⟨0, .fin false 0 0⟩

/-- A stationary weight: its bits, and its shared exponent for BS8 (R234). -/
structure Weight where
  bits : Nat
  exp : Nat
  deriving DecidableEq, Repr

/-- Array operations that reach the sequencer (R229). -/
inductive AOp where
  | aout | awld | arow | adrain | aclr | wread | tstep
  deriving DecidableEq, Repr

/-- A gather descriptor read when the AOUT issued (R354). -/
structure Gather where
  /-- address of the pair group -/
  pairBase : Nat
  /-- input and output index of the 32 pairs -/
  pairs : List (Nat × Nat)
  featBase : Nat
  featStride : Nat
  chanOff : Nat
  scatter : Nat
  accBase : Nat
  accStride : Nat
  deriving DecidableEq, Repr

/-- A tile on its way through the drain registers and in a tile queue (R237), with what its checkers apply (R272). -/
structure Tile where
  /-- element (r, c) at key 128 r + c -/
  elems : Tab Elem
  /-- the checksum row by column and the checksum column by row, which travel with the tile (R237, R272) -/
  ckRow : Tab Elem
  ckCol : Tab Elem
  paired : Bool
  complete : Bool
  /-- ARRAY_TQa.tiles when the first write after its last clear took place (R272) -/
  t : Nat
  /-- the row check and the column check apply to it (R277) -/
  rowCk : Bool
  colCk : Bool
  duplicate : Bool
  flt : Bool
  /-- the tolerance K it is judged under, taken at its transfer (R275) -/
  k : Nat
  deriving DecidableEq, Repr

/-- An array operation in the command queues or in progress (R201, R229). -/
structure ArrOp where
  op : AOp
  amask : Nat
  eop : Nat
  fmt : Nat
  pass : Nat
  /-- steps, loads, half or K -/
  n : Nat
  sa : Nat
  sw : Nat
  srcV : Bool
  /-- with src_v = 1, V[sa] to V15 as the word found them (R194, R230) -/
  vact : List Byte
  acc : Bool
  /-- the gather of an AOUT, or of the AOUT a scatter drain follows -/
  gather : Option Gather
  /-- steps or loads that have entered; 1 for a drain whose transfer has taken place -/
  done : Nat
  /-- what a drain is to transfer: array and tile -/
  snap : List (Nat × Tile)
  /-- the V register that the TQ field of a drain's own word writes, which a shared drain leaves as it is (R195) -/
  keepV : Option Nat
  deriving DecidableEq, Repr

/-- What wrote an array's accumulators since the last clear (R272, R277). -/
structure CkState where
  /-- check kinds and element operations seen -/
  kinds : List (Nat × Nat)
  t : Nat
  paired : Bool
  fmt : Nat
  /-- the gather of the AOUT that last wrote the tile, with its mask and format (R356) -/
  gather : Option (Gather × Nat × Nat)
  deriving DecidableEq, Repr

def CkState.clear : CkState := ⟨[], 0, false, 0, none⟩

/-- One row still to be issued by a scatter drain: destination of each array's part, and its elements (R356). -/
structure ScatRow where
  /-- granule updates: address, elements (offset in the granule, value) -/
  parts : List (Nat × List (Nat × W32))
  how : Nat
  flt : Bool
  /-- the arrays of its drain (R356, R359) -/
  amask : Nat
  deriving DecidableEq, Repr

/-- A granule update in a conflict queue (R357). -/
structure Update where
  addr : Nat
  elems : List (Nat × W32)
  how : Nat
  flt : Bool
  /-- the arrays of its drain (R356, R359) -/
  amask : Nat
  deriving DecidableEq, Repr

/-- The arrays and sparse unit of one core besides registers. -/
structure Arrays where
  acc : Tab Elem
  /-- checksum row, element (128 a + c), and checksum column, element (32 a + r), of array a (R226, R272) -/
  ckRow : Tab Elem
  ckCol : Tab Elem
  wgt : Tab Weight
  /-- what the checksum column holds from AWLD, by 32 a + r: the sum of stationary row r over the presented columns (R272) -/
  wsum : Tab Num
  cmdq : List ArrOp
  cur : Option ArrOp
  /-- operations whose last step has entered and which are not complete -/
  flight : List ArrOp
  /-- tile queues of A0 to A3 -/
  tq : Tab (List Tile)
  ck : Tab CkState
  rows : List ScatRow
  cq : Tab (List Update)
  deriving DecidableEq, Repr

def Arrays.empty : Arrays := ⟨[], [], [], [], [], [], none, [], [], [], [], []⟩

/-- A DMA transfer in flight, or a sparse job (R159, R346). -/
structure Dma where
  src : Nat
  dst : Nat
  rowLen : Nat
  rows : Nat
  srcStride : Nat
  dstStride : Nat
  cmplQ : Nat
  bcast : Bool
  tag : W32
  /-- the transposing window's element size that held at issue (R269) -/
  transpose : Option Nat
  /-- bytes of the job descriptor -/
  job : Option (List Byte)
  /-- result of the job the matcher has run: groups, flags, pairs, pairs and groups of each offset -/
  ran : Option (Nat × Bool × Nat × List (Nat × Nat))
  /-- a write was lost at a supply hold, or the core was drained -/
  lost : Bool
  /-- its writes have been made, and commands they submitted wait to be accepted (R387) -/
  written : Bool
  deriving DecidableEq, Repr

/-- What a core waits for. `word` is the address of the waiting word. -/
inductive Wait where
  | none
  /-- a word whose QRES or QACQ blocks: it has not issued (R198); `closed`: the operation has been answered CLOSED (R177, R178) -/
  | queue (w : IWord) (closed : Bool)
  /-- QWAIT: the S register its result goes to, and whether the word also waits in GBAR (R210) -/
  | qwait (word : W64) (rd : Option Nat) (gbar : Bool)
  /-- GBAR and SLEEP: `refused` is the queue whose refused operation raises QUEUE once the wait is over (R215) -/
  | barrier (word : W64) (refused : Option Nat)
  | sleep (word : W64) (refused : Option Nat)
  deriving DecidableEq, Repr

/-- Where entry to or exit from DOZE or NAP stands (R163 to R165, R246). Codes are those of CORE_STATUS.power. -/
inductive Nap where
  | awake
  /-- the core is to enter the state of this code once its arrays allow it -/
  | wanted (code : Nat)
  /-- entry has begun -/
  | entering (code : Nat)
  | asleep
  /-- a wake cause has arrived, the exit time runs -/
  | exiting
  deriving DecidableEq, Repr

/-- A core besides its registers (R150). -/
structure CoreSt where
  s : Tab W64
  v : Tab VReg
  p : Tab PReg
  /-- address of the next word -/
  pc : W64
  epc : W64
  eaddr : W64
  escratch : W64
  cycle : Nat
  wait : Wait
  nap : Nap
  /-- effective CORE_PWR and CORE_WATCH0-7 (R188) -/
  pwr : W32
  watch : List W32
  dma : List Dma
  arr : Arrays
  /-- the latest operations with residue checks: opcode and unmasked lanes, newest first (R313, R314) -/
  checked : List (Nat × Nat)
  deriving DecidableEq, Repr

def CoreSt.start : CoreSt := ⟨[], [], [], 0, 0, 0, 0, 0, .none, .awake, 0, [], [], .empty, []⟩

/-! ### Companion memory -/

/-- Health of a companion-memory word (R376, R377). -/
inductive Health where
  | good | corrected | bad | poisoned
  deriving DecidableEq, Repr

/-- A bank-unit command and the port it came from. -/
structure BuCmd where
  cmd : BitVec 256
  port : Nat
  deriving DecidableEq, Repr

/-- Counts of one command port (R388). -/
structure PortCount where
  accepted : Nat
  completed : Nat
  refused : Nat
  deriving DecidableEq, Repr

/-- Who makes an ordinary access that waits at a channel: the word of a core, a transfer of a core by source and
destination, the host by address, or the engines that work for a partition (8 the chain, 9 none). -/
inductive Requester where
  | word (k : Nat)
  | dma (k src dst : Nat)
  | host (a : Nat)
  | engine (p : Nat)
  deriving DecidableEq, Repr

/-- A channel besides its registers. -/
structure Chan where
  staging : Tab Byte
  /-- submitted commands that wait to be accepted -/
  waiting : List BuCmd
  accq : List BuCmd
  running : List BuCmd
  ports : Tab PortCount
  /-- ordinary accesses that wait, each with how many commands of the queue arrived before it (R399) -/
  barriers : List (Requester × Nat)
  deriving DecidableEq, Repr

def Chan.idle : Chan := ⟨[], [], [], [], [], []⟩

/-! ### Embedding engine -/

structure EmbTab where
  partMask : Nat
  dim : Nat
  wFmt : Nat
  slotValid : Nat
  rows : Nat
  hStride : Nat
  wStride : Nat
  nStride : Nat
  touch : Nat
  /-- for each version slot: directory, H, W, N pools, hot area, hgrad_off, wgrad_off -/
  slots : List (List Nat)
  deriving DecidableEq, Repr

/-- Where the value of one row of a group stands (R411, R420, R421). -/
inductive TermSt where
  /-- the row's elements -/
  | val (vs : List W32)
  /-- nothing to add: skipped, or a gradient already applied -/
  | none
  /-- the row is being moved to another chip (R420) -/
  | moving
  /-- forwarded under a redirect, with the number of the sub-request -/
  | fwd (num : Nat)
  deriving DecidableEq, Repr

structure EmbTerm where
  row : Nat
  slot : Nat
  tier : Nat
  weight : W32
  st : TermSt
  deriving DecidableEq, Repr

/-- Work of the embedding engine: a request of this chip, or a sub-request it serves for another chip. -/
structure EmbJob where
  /-- request number on this chip -/
  id : Nat
  /-- requesting chip and its request number, of a sub-request served -/
  served : Option (Nat × Nat)
  table : Nat
  vslot : Nat
  dim : Nat
  hops : Nat
  /-- gradient vector of a GRAD -/
  grad : Option (List W32)
  replyQ : Nat
  out : Nat
  tag : W64
  /-- partition that owns the request queue -/
  part : Nat
  /-- rows this chip values, in request order -/
  terms : List EmbTerm
  /-- chips whose partial has not come, and the rows asked of each -/
  waitFor : List (Nat × Nat)
  /-- partials of other chips -/
  partials : Tab (List W32)
  refused : Bool
  remoteFail : Bool
  poisoned : Bool
  hopsOver : Bool
  nSkipped : Bool
  supply : Bool
  here : Nat
  elsewhere : Nat
  hot : Nat
  absent : Nat
  deriving DecidableEq, Repr

structure Redirect where
  table : Nat
  vslot : Nat
  row : Nat
  chip : Nat
  slot : Nat
  deriving DecidableEq, Repr

structure Move where
  table : Nat
  vslot : Nat
  row : Nat
  chip : Nat
  slot : Nat
  num : W32
  deriving DecidableEq, Repr

structure Emb where
  tabs : List (Nat × EmbTab)
  reqQ : List Nat
  /-- position of the request queue next in turn -/
  turn : Nat
  sampleQ : Nat
  jobs : List EmbJob
  nextId : Nat
  /-- work a fence waits for (R422) -/
  fence : List Nat
  redirects : List Redirect
  move : Option Move
  moveNum : W32
  /-- counts of the load window: own, remote, sent, by table -/
  load : Tab Nat
  remote : Tab Nat
  sent : Tab Nat
  /-- rows served since the last sample -/
  sampled : Nat
  deriving DecidableEq, Repr, Inhabited

/-! ### Links -/

/-- Training phases (R436). -/
inductive Phase where
  | down | waiting | signal | align | fec | peer | mismatch | credit | up
  deriving DecidableEq, Repr

/-- A message waiting for a link or being sent. -/
structure TxMsg where
  vc : Nat
  /-- message bytes -/
  size : Nat
  /-- flits sent -/
  sent : Nat
  /-- message number, once its first flit has been sent -/
  msgnum : Option Nat
  content : Out
  /-- partition it is charged to (R453) -/
  charge : Option Nat
  deriving DecidableEq, Repr

/-- An unacknowledged flit in the replay buffer (R441). -/
structure SentFlit where
  fseq : Nat
  vc : Nat
  msgnum : Nat
  som : Bool
  eom : Bool
  body : List Byte
  deriving DecidableEq, Repr

/-- A received bolt: message number, flits and bytes. -/
structure RxBolt where
  msgnum : Nat
  flits : Nat
  bytes : List Byte
  deriving DecidableEq, Repr

structure Link where
  phase : Phase
  /-- messages queued for transmission, oldest first -/
  tx : List TxMsg
  nextMsg : Nat
  fseq : Nat
  replay : List SentFlit
  /-- times the oldest unacknowledged flit has been resent -/
  resent : Nat
  /-- credits held for each virtual channel -/
  credit : List Nat
  /-- credits to return for each virtual channel -/
  owed : List Nat
  /-- sequence number of the next flit -/
  rxNext : Nat
  /-- a resend is requested: flits are discarded until the expected one comes -/
  nak : Bool
  /-- an acknowledgement is to be sent -/
  ackDue : Bool
  /-- flits received of the message that each virtual channel but BOLT is receiving, and of those received whole whose flits
  are still in its buffer (R440) -/
  rxCount : List Nat
  rxWhole : List (List Nat)
  /-- the bolt being received -/
  rxPart : Option RxBolt
  rxBolts : List RxBolt
  /-- message number of the last bolt committed or sent on -/
  rxLast : Option Nat
  /-- the oldest received bolt waits for a slot (R448) -/
  held : Bool
  /-- END has been queued for the drain (R461) -/
  ending : Bool
  /-- END has come from the peer -/
  peerEnd : Bool
  /-- bytes spent in the window, budget in units of 64 bytes, and consecutive waiting windows, of PT0 to PT7 -/
  spent : List Nat
  budget : List Nat
  overrun : List Nat
  deriving DecidableEq, Repr

def Link.down : Link where
  phase := .down
  tx := []
  nextMsg := 0
  fseq := 0
  replay := []
  resent := 0
  credit := [0, 0, 0, 0]
  owed := [0, 0, 0, 0]
  rxNext := 0
  nak := false
  ackDue := false
  rxCount := [0, 0, 0, 0]
  rxWhole := [[], [], [], []]
  rxPart := none
  rxBolts := []
  rxLast := none
  held := false
  ending := false
  peerEnd := false
  spent := [0, 0, 0, 0, 0, 0, 0, 0]
  budget := [0xFFFF, 0xFFFF, 0xFFFF, 0xFFFF, 0xFFFF, 0xFFFF, 0xFFFF, 0xFFFF]
  overrun := [0, 0, 0, 0, 0, 0, 0, 0]

structure Chain where
  links : Tab Link
  /-- transmit queues, and receive bindings with their source masks -/
  txq : List Nat
  rxq : List (Nat × Nat)
  /-- next sequence number of each transmit queue -/
  seqs : Tab Nat
  turn : Nat
  stepCount : Nat
  lastStep : Option Nat
  syncGood : Nat
  lastLock : Bool
  deriving DecidableEq, Repr, Inhabited

/-! ### Selvedge -/

structure Pair where
  a : Nat
  b : Nat
  aQ : Nat
  bQ : Nat
  outQ : Nat
  window : Nat
  seedDeadline : Nat
  aSig : W32
  bSig : W32
  timeTol : Nat
  seedPasses : Nat
  deriving DecidableEq, Repr

structure Tol where
  cls : Nat
  exact : Bool
  abs : W32
  rel : W32
  int : Nat
  deriving DecidableEq, Repr

structure Rule where
  type : Nat
  action : Nat
  pair : Nat
  allowMissing : Bool
  cls : Nat
  index : Nat
  cls2 : Nat
  index2 : Nat
  lo : W32
  hi : W32
  tol : W32
  deriving DecidableEq, Repr

structure Monitor where
  mode : Nat
  action : Nat
  startQ : Nat
  endQ : Nat
  part : Nat
  maxUs : Nat
  minUs : Nat
  deriving DecidableEq, Repr

structure SharedRegion where
  base : Nat
  size : Nat
  read : Nat
  write : Nat
  chain : Nat
  deriving DecidableEq, Repr

/-- The SAFETY section (R504's tables). -/
structure Safety where
  /-- chip index of the image that brought it (R498) -/
  chip : Nat
  connId : W32
  periodUs : W32
  key : W64
  dstMac : List Byte
  srcMac : List Byte
  vlan : Nat
  seedTrigger : Nat
  overrunWindows : Nat
  msix : Nat
  msixEn : Bool
  actions : List Nat
  freezeMask : W64
  chBudget : List Nat
  chainBudget : Nat
  pairs : List Pair
  tols : List Tol
  rules : List Rule
  dms : List Monitor
  windows : List (Nat × Nat)
  shared : List SharedRegion
  seedImage : List (List Byte)
  deriving DecidableEq, Repr

/-- A record held by the comparator (R480). -/
structure Record where
  frameEnd : Bool
  flags : Nat
  cls : Nat
  id : Nat
  frame : W64
  time : TStamp
  pick : PStamp
  vfmt : Nat
  values : List W32
  /-- selvedge time of its arrival -/
  arrived : Nat
  /-- the bytes a signature is formed over (R488) -/
  sigBytes : List Byte
  deriving DecidableEq, Repr

/-- A matched record of a frame: channel A's record and whether the pair agreed (R481). -/
structure Matched where
  record : Record
  agreed : Bool
  deriving DecidableEq, Repr

/-- A frame of a pair that is not yet emitted (R482, R484). -/
structure Frame where
  num : W64
  /-- records of channel A and of channel B whose partner has not come -/
  as : List Record
  bs : List Record
  matched : List Matched
  /-- the matched FRAME_END records: channel A's -/
  ends : Option Matched
  /-- first invalidating cause, 0 for none -/
  bar : Nat
  /-- VALID is barred -/
  barred : Bool
  /-- PF_N was low at some time since the first record -/
  hold : Bool
  /-- a safe state held at some time since the first record -/
  safeSeen : Bool
  /-- selvedge time at which the frame store last had no room for a record of the frame (R482) -/
  lostAt : Option Nat
  deriving DecidableEq, Repr

structure PairSt where
  frames : List Frame
  seq : W32
  /-- pick count and unref of the last judged frame -/
  lastPick : Option (PStamp)
  seedSigA : W32
  seedSigB : W32
  seedEndA : Bool
  seedEndB : Bool
  /-- starts, as selvedge times, of the injections still to be judged, oldest first -/
  seedStarts : List Nat
  /-- the last seed judgement since both partitions became ENABLED; consecutive passes -/
  seedOk : Bool
  seedRun : Nat
  /-- both partitions have become ENABLED since the detection of the safe state -/
  restartedA : Bool
  restartedB : Bool
  /-- frames of which a record was committed but not yet acquired when PF_N rose (R478) -/
  heldNums : List W64
  deriving DecidableEq, Repr

def PairSt.idle : PairSt := ⟨[], 0, none, 0, 0, false, false, [], false, 0, false, false, []⟩

/-- An event on its way from a checker of the fabric to the selvedge. -/
inductive FabEvent where
  | checksum (core arr t : Nat) (col : Bool) (index : Nat) (dup : Bool)
  | memory (chan addr : Nat) (poison : Bool)
  /-- a bolt's end-to-end event: link, source chip and queue, sequence number, and the queue it was committed to (R449, R473) -/
  | e2e (link src queue : Nat) (seq : W32) (dst : Nat)
  | region (part : Nat) (chain : Bool) (addr : Nat) (write : Bool)
  deriving DecidableEq, Repr

structure Selv where
  /-- the selvedge has started, and VSAF has not failed since (R569, R470) -/
  running : Bool
  safety : Option Safety
  /-- a SAFETY section has been applied since the latched detection (R500) -/
  imageSince : Bool
  /-- SCLK beyond the last whole µs of SELV_TIME -/
  sclk : Nat
  tgSeq : W32
  tgDead : Bool
  challenge : Option W32
  /-- a full image has been applied since COLD_N rose -/
  everImage : Bool
  /-- a fatal cause has been decided since COLD_N rose (R477) -/
  fatalSeen : Bool
  /-- commits to the start queue and to the end queue of a monitor that are still to be recorded -/
  startDue : Tab Nat
  endDue : Tab Nat
  /-- a SAFE event was decided after the challenge was issued -/
  newEvent : Bool
  pairs : Tab PairSt
  /-- pending starts of each monitor, oldest first, as selvedge times; `alive` the last end event -/
  starts : Tab (List Nat)
  alive : Tab Nat
  verdicts : List (List Byte)
  inbox : List FabEvent
  seedFrames : List (List Byte)
  seedBusy : Bool
  /-- a commit to seed_trigger_q whose injection is still to begin -/
  seedDue : Bool
  /-- self-test: slot of the current round, skips in it, a slot of it has failed, the last round completed without skips,
  a round that started after the detection has completed -/
  slot : Option Nat
  skips : Nat
  slotFailed : Bool
  lastRoundFull : Bool
  roundAfter : Bool
  startedAfter : Bool
  /-- bytes spent in the current window by (channel, partition), and waiting windows -/
  spent : Tab Nat
  waits : Tab Nat
  waitNow : Tab Bool
  dieTemp : BitVec 8
  deriving DecidableEq, Repr, Inhabited

/-! ### Host, supply, trace, freeze, TAP -/

structure HostSt where
  linkUp : Bool
  d3hot : Bool
  busMaster : Bool
  /-- MSI-X Enable and Function Mask of the MSI-X capability (Base Specification) -/
  msixEn : Bool
  fnMask : Bool
  bistDone : Bool
  /-- Poisoned TLP Received stands in Advanced Error Reporting (R515) -/
  aerPoison : Bool
  /-- BAR2 accesses waiting at their channel, oldest first: device address and access -/
  waiting : List (Nat × Access)
  deriving DecidableEq, Repr, Inhabited

inductive I2cPhase where
  | idle
  | address
  | pointer (hi : Option Byte)
  | write
  | read
  | ignored
  deriving DecidableEq, Repr, Inhabited

/-- The I2C target (R519 to R525): bytes buffered at MGMT offsets, data bytes taken, and the register captured for a
read. -/
structure I2c where
  ready : Bool
  phase : I2cPhase
  ptr : Nat
  buf : Tab (Option Byte)
  count : Nat
  capture : W32
  /-- no byte has been sent since the address byte with R -/
  fresh : Bool
  deriving DecidableEq, Repr, Inhabited

inductive HoldPhase where
  | none | entering | ready | resuming
  deriving DecidableEq, Repr, Inhabited

structure Hold where
  phase : HoldPhase
  /-- the stage before the hold -/
  stage : Nat
  /-- PF_N rose before hold_ready (R536) -/
  ended : Bool
  /-- PF_N fell again before resumption ended -/
  again : Bool
  deriving DecidableEq, Repr, Inhabited

structure Trace where
  /-- next sequence number of each source -/
  seqs : Tab Nat
  /-- packets of each source lost at the ring since its last LOST packet (R546, R547) -/
  lost : Tab Nat
  /-- packets of each core source lost at its FIFO since its last LOST packet (R545, R547) -/
  dropped : Tab Nat
  /-- FIFOs of the core sources -/
  fifo : Tab (List (BitVec 128))
  /-- sources that emit SYNC with reason 3 before their next word (R554) -/
  syncDue : BitVec 32
  /-- the ring: packet index modulo 32,768 to its 16 bytes, nothing where none was written since the last reset (R540) -/
  sram : Tab (Option (BitVec 128))
  /-- resets of the ring, after each of which its contents are not defined (R540) -/
  gen : Nat
  deriving DecidableEq, Repr, Inhabited

structure FreezeSt where
  frozen : Bool
  /-- requests waiting to be taken: bit 0 FREEZE_N, 1 register, 2 selvedge -/
  req : BitVec 3
  sources : BitVec 3
  stage : Nat
  t : TStamp
  inHold : Bool
  /-- the model's own: the count of free values when the freeze was taken -/
  free : Nat
  deriving DecidableEq, Repr, Inhabited

structure Tap where
  ir : BitVec 8
  sel : BitVec 68
  /-- the boundary register's update stage -/
  bsr : List Bool
  highz : Bool
  deriving DecidableEq, Repr, Inhabited

/-! ### The state -/

/-- How many times the contents of companion memory (R54, R557, R597) and of the on-die stores (R32, R154) have become
undefined. -/
structure MemGen where
  comp : Nat
  die : Nat
  deriving DecidableEq, Repr, Inhabited

/-- Whether the fabric is within its contract (R5, R593): a case that the spec calls outside contract leaves what the fabric does
undefined from then on (`left`), until a reset (`leftReset`: there has been one since) and a full image. The number is that of the
rule that lists the case. -/
inductive Contract where
  | kept
  | left (rule : Nat)
  | leftReset (rule : Nat)
  deriving DecidableEq, Repr, Inhabited

structure State where
  /-- commands that wait, first in, first out -/
  pending : List Instr
  /-- VMEM and the rails of the fabric have stayed within their ratings since COLD_N last rose (R26, R567) -/
  powered : Bool
  pins : Pins
  clk : Clk
  /-- the register file of the BAR0 control map, keyed by offset -/
  regs : Tab W32
  shadows : List (Nat × Shadow)
  /-- device memory: on-die stores and companion memory, keyed by device address (R15) -/
  mem : List Host.Cell
  /-- the model's own: how many times the contents of companion memory and of the on-die stores have become undefined -/
  memGen : MemGen
  /-- companion-memory words that are not good, keyed by device address / 8 -/
  health : Tab Health
  loader : Loader
  warp : Warp
  pos : Position
  slots : Tab (List Slot)
  intake : Intake
  cores : List (Nat × CoreSt)
  chans : Tab Chan
  emb : Emb
  chain : Chain
  selv : Selv
  host : HostSt
  i2c : I2c
  hold : Hold
  trace : Trace
  frz : FreezeSt
  tap : Tap
  /-- the model's own: what the part has put on its wires, newest first -/
  out : List Out
  /-- the model's own: the last completion or I2C byte -/
  resp : Resp
  /-- the model's own: counter to which free values are applied -/
  freeCtr : Nat
  contract : Contract
  deriving DecidableEq, Repr, Inhabited

/-- The fabric has left its contract, and no reset has followed (R5). -/
def Contract.broken : Contract → Bool
  | .left _ => true
  | _ => false

/-- A reset is the first half of a return to defined behaviour (R593). -/
def Contract.afterReset : Contract → Contract
  | .left r => .leftReset r
  | c => c

/-- A new full image is the second half (R593). -/
def Contract.afterImage : Contract → Contract
  | .leftReset _ => .kept
  | c => c

/-- The fabric leaves its contract by a rule (R5). -/
def State.leave (r : Nat) (s : State) : State :=
  if s.contract.broken then s else { s with contract := .left r }

/-- The machine right after reset: PERST_N has just risen with COLD_N high, BIST runs (stage 0x1), and the selvedge has
been in the safe state with cause POWER_UP since COLD_N rose (R31, R34, R569). Every register holds its After power-up
value. What the spec gives no value is named in log entries 3 to 8. -/
def State.reset : State where
  pending := []
  powered := true
  pins := { coldN := true, perstN := true, pfN := true, edge := 0, trig := 0, ppsOut := false, safeN := .low, safeHb := false, addr := 0 }
  clk := .running
  regs := []
  shadows := []
  mem := []
  memGen := ⟨0, 0⟩
  health := []
  loader := .idle
  warp := .empty
  pos := { tb := ⟨0, 0, 0⟩, now := 0, resumed := 0, setReq := none, stepReq := none, ppsSeen := false, ppsPulse := false, secDue := false, msDue := false, edges := [], picks := [], events := [] }
  slots := []
  intake := { ports := [], ctxs := [], grids := [], frames := [], nextId := 0, window := 0 }
  cores := []
  chans := []
  emb := {
    tabs := [], reqQ := [], turn := 0, sampleQ := 0xFFFF, jobs := [], nextId := 0, fence := [], redirects := [], move := none, moveNum := 0
    load := [], remote := [], sent := [], sampled := 0 }
  chain := { links := [], txq := [], rxq := [], seqs := [], turn := 0, stepCount := 0, lastStep := none, syncGood := 0, lastLock := false }
  selv := {
    running := true, safety := none, imageSince := false, sclk := 0, tgSeq := 0, tgDead := false, challenge := none, everImage := false
    fatalSeen := false, startDue := [], endDue := [], newEvent := false, pairs := [], starts := [], alive := []
    verdicts := [], inbox := [], seedFrames := [], seedBusy := false, seedDue := false, slot := none, skips := 0, slotFailed := false, lastRoundFull := false
    roundAfter := false, startedAfter := false, spent := [], waits := [], waitNow := [], dieTemp := 0 }
  host := { linkUp := false, d3hot := false, busMaster := false, msixEn := false, fnMask := false, bistDone := false, aerPoison := false, waiting := [] }
  i2c := { ready := false, phase := .idle, ptr := 0, buf := [], count := 0, capture := 0, fresh := false }
  hold := { phase := .none, stage := 0, ended := false, again := false }
  trace := { seqs := [], lost := [], dropped := [], fifo := [], syncDue := 0, sram := [], gen := 0 }
  frz := { frozen := false, req := 0, sources := 0, stage := 0, t := 0, inHold := false, free := 0 }
  tap := { ir := 0x01, sel := BitVec.allOnes 68, bsr := [], highz := false }
  out := []
  resp := .none
  freeCtr := 0
  contract := .kept

end Sys2Proof.Machine
end

