-- ==== Sys2Proof/Machine/Ops.lean ====
section
/-! DEFINITION. The named operations over the register file, device memory and the outputs, shared by every family, and
the small arithmetic of fields, byte strings and cyclic codes. -/

namespace Sys2Proof.Machine

/-! ### Outcomes -/

/-- A case that rule `r` puts outside contract (R5). -/
def oc (r : Nat) : Res State := .outside r

/-- Go on from a next state. -/
def andThen (r : Res State) (f : State → Res State) : Res State :=
  match r with
  | .next s => f s
  | .outside x => .outside x

/-- An effect that comes about only under a condition; without it nothing changes (log entry 10). -/
def onlyIf (b : Bool) (f : State → State) (s : State) : Res State :=
  if b then .next (f s) else .next s

/-- The same for an effect that may stop. -/
def onlyIfR (b : Bool) (f : State → Res State) (s : State) : Res State :=
  if b then f s else .next s

/-- One effect after another for the members of a list, up to the first that stops. -/
def foldRes {α : Type} (f : α → State → Res State) : List α → State → Res State
  | [], s => .next s
  | a :: l, s => andThen (f a s) (foldRes f l)

/-! ### Numbers, fields, byte strings -/

/-- Bits [lo + n - 1 : lo] of a number. -/
def fieldN (v lo n : Nat) : Nat := v / 2 ^ lo % 2 ^ n

/-- A two's complement value of `n` bits. -/
def signedN (n v : Nat) : Int := if v % 2 ^ n < 2 ^ (n - 1) then (v % 2 ^ n : Nat) else (v % 2 ^ n : Nat) - (2 ^ n : Nat)

/-- The `n`-bit pattern of an integer. -/
def wrapN (n : Nat) (i : Int) : Nat := (i % (2 ^ n : Nat)).toNat

/-- The value of a byte string, least significant byte first (R7). -/
def leNat : List Byte → Nat
  | [] => 0
  | b :: bs => b.toNat + 256 * leNat bs

/-- The low `n` bytes of a number, least significant byte first (R7). -/
def natLe : Nat → Nat → List Byte
  | 0, _ => []
  | n + 1, v => BitVec.ofNat 8 v :: natLe n (v / 256)

/-- The value of a byte string, most significant byte first. -/
def beNat (bs : List Byte) : Nat := leNat bs.reverse

/-- `n` bytes of a byte string from offset `o`. -/
def slice (bs : List Byte) (o n : Nat) : List Byte := (bs.drop o).take n

/-- The little-endian number of `n` bytes at offset `o`. -/
def leAt (bs : List Byte) (o n : Nat) : Nat := leNat (slice bs o n)

/-- The big-endian number of `n` bytes at offset `o`. -/
def beAt (bs : List Byte) (o n : Nat) : Nat := beNat (slice bs o n)

/-- `n` zero bytes. -/
def zeros (n : Nat) : List Byte := List.replicate n 0

/-- A byte string cut or padded with zeros to `n` bytes. -/
def fit (n : Nat) (bs : List Byte) : List Byte := (bs ++ zeros (n - bs.length)).take n

/-- The bits of `bs` from bit `lo`, `n` of them, as a number; bit 0 is the least significant bit of the first byte. -/
def bitsAt (bs : List Byte) (lo n : Nat) : Nat := fieldN (leAt bs (lo / 8) ((lo % 8 + n + 7) / 8)) (lo % 8) n

/-- Every address of [lo, hi) lies in one of some ranges, each a start and a length; `n` bounds the ranges to walk. -/
def covered (got : List (Nat × Nat)) : Nat → Nat → Nat → Bool
  | 0, lo, hi => decide (hi ≤ lo)
  | n + 1, lo, hi =>
    if hi ≤ lo then true
    else match got.find? (fun r => decide (r.1 ≤ lo ∧ lo < r.1 + r.2)) with
      | none => false
      | some r => covered got n (r.1 + r.2) hi

/-- Two ranges, each a start and a length, overlap. -/
def rangesMeet (x y : Nat × Nat) : Bool := decide (x.1 < y.1 + y.2 ∧ y.1 < x.1 + x.2 ∧ 0 < x.2 ∧ 0 < y.2)

/-- The set bits of a number below `n`, rising. -/
def bitsOf (n v : Nat) : List Nat := (List.range n).filter fun i => v.testBit i

/-- One bit of a reflected cyclic code. -/
def crcBit (poly : Nat) (c : Nat) : Nat := if c % 2 = 1 then (c / 2).xor poly else c / 2

/-- One byte of a reflected cyclic code. -/
def crcByte (poly : Nat) (c : Nat) (b : Byte) : Nat :=
  crcBit poly (crcBit poly (crcBit poly (crcBit poly (crcBit poly (crcBit poly (crcBit poly (crcBit poly (c.xor b.toNat))))))))

/-- The CRC-32 of R41. -/
def crc32 (bs : List Byte) : Nat := (bs.foldl (crcByte 0xEDB88320) 0xFFFFFFFF).xor 0xFFFFFFFF

/-- The crc32c of R488, the CRC with polynomial 0x1EDC_6F41. -/
def crc32c (bs : List Byte) : Nat := (bs.foldl (crcByte 0x82F63B78) 0xFFFFFFFF).xor 0xFFFFFFFF

namespace State

/-! ### Registers (R8 to R13) -/

/-- The register word at a BAR0 offset. -/
def rd (s : State) (a : Nat) : W32 := Tab.get regReset s.regs a

/-- Write a register word. -/
def wr (s : State) (a : Nat) (v : W32) : State := { s with regs := Tab.set regReset s.regs a v }

/-- Field [lo + n - 1 : lo] of a register. -/
def fld (s : State) (a lo n : Nat) : Nat := fieldN (s.rd a).toNat lo n

/-- Bit `i` of a register. -/
def bit (s : State) (a i : Nat) : Bool := (s.rd a).toNat.testBit i

/-- Set field [lo + n - 1 : lo] of a register. -/
def putF (s : State) (a lo n v : Nat) : State :=
  let m := BitVec.ofNat 32 ((2 ^ n - 1) * 2 ^ lo)
  s.wr a ((s.rd a &&& ~~~m) ||| (BitVec.ofNat 32 (v * 2 ^ lo) &&& m))

/-- Set bit `i` of a register. -/
def putB (s : State) (a i : Nat) (b : Bool) : State := s.putF a i 1 (if b then 1 else 0)

/-- A quantity of `n` words, lowest word at the lowest offset (R9). -/
def rdQ (s : State) (a : Nat) : Nat → Nat
  | 0 => 0
  | n + 1 => (s.rd a).toNat + 2 ^ 32 * rdQ s (a + 4) n

/-- Write a quantity of `n` words. -/
def wrQ (s : State) (a : Nat) : Nat → Nat → State
  | 0, _ => s
  | n + 1, v => (s.wr a (BitVec.ofNat 32 v)).wrQ (a + 4) n (v / 2 ^ 32)

/-- Write a number into a register. -/
def wrN (s : State) (a v : Nat) : State := s.wr a (BitVec.ofNat 32 v)

/-- Add `n` to a counter that saturates at all ones. -/
def satAdd (s : State) (a n : Nat) : State := s.wrN a (min ((s.rd a).toNat + n) 0xFFFFFFFF)

/-- Count one in a saturating counter. -/
def sat (s : State) (a : Nat) : State := s.satAdd a 1

/-- Count one in a counter that wraps. -/
def inc (s : State) (a : Nat) : State := s.wr a (s.rd a + 1)

/-- Count one in a saturating field. -/
def satF (s : State) (a lo n : Nat) : State := s.putF a lo n (min (s.fld a lo n + 1) (2 ^ n - 1))

/-- Write the RW bits of a register word (R10). -/
def putRw (s : State) (a : Nat) (v : W32) : State :=
  match regHit a with
  | none => s
  | some h =>
    let m := BitVec.ofNat 32 h.word.rw
    s.wr a ((s.rd a &&& ~~~m) ||| (v &&& m))

/-- Every register of a range of BAR0 offsets takes its value after power-up. -/
def resetRange (s : State) (lo hi : Nat) : State :=
  { s with regs := s.regs.filter fun e => e.1 < lo || hi ≤ e.1 }

/-! ### Device memory (R15) -/

end State

/-- An address lies in companion memory (R15). -/
def inComp (a : Nat) : Bool := a < 0x3000000000

/-- What a byte that nothing has written reads as: the spec gives memory no contents after power-up (log entry 5, DESIGN
CHOICE); a byte of a memory that has lost its contents since is a free value. -/
def memUnlisted (g : MemGen) (a : Nat) : Byte :=
  let n := if inComp a then g.comp else g.die
  if n = 0 then 0 else Config.freeMem n a

/-- The canonical form of a memory: addresses rising, no byte listed that an unlisted address reads as. -/
abbrev Memory.wf (g : MemGen) (m : List Host.Cell) : Bool := Tab.wf (memUnlisted g) m

/-- Read one byte. -/
def Memory.read (g : MemGen) (m : List Host.Cell) (a : Nat) : Byte := Tab.get (memUnlisted g) m a

/-- Write one byte. -/
def Memory.write (g : MemGen) (m : List Host.Cell) (a : Nat) (b : Byte) : List Host.Cell := Tab.set (memUnlisted g) m a b

/-- Read `n` bytes from address `a`. -/
def Memory.reads (g : MemGen) (m : List Host.Cell) (a : Nat) : Nat → List Byte
  | 0 => []
  | n + 1 => Memory.read g m a :: Memory.reads g m (a + 1) n

/-- Write bytes from address `a`. -/
def Memory.writes (g : MemGen) (m : List Host.Cell) (a : Nat) : List Byte → List Host.Cell
  | [] => m
  | b :: bs => Memory.writes g (Memory.write g m a b) (a + 1) bs

namespace State

/-- A byte of device memory. -/
def byte (s : State) (a : Nat) : Byte := Memory.read s.memGen s.mem a
/-- `n` bytes of device memory from `a`. -/
def bytes (s : State) (a n : Nat) : List Byte := Memory.reads s.memGen s.mem a n
/-- The little-endian number of `n` bytes of device memory at `a`. -/
def leMem (s : State) (a n : Nat) : Nat := leNat (s.bytes a n)
/-- Put bytes into device memory from `a`. -/
def putBytes (s : State) (a : Nat) (bs : List Byte) : State := { s with mem := Memory.writes s.memGen s.mem a bs }
/-- Companion memory loses its contents (R54, R557, R597); its check bits are taken as good (log entry 5). -/
def loseComp (s : State) : State :=
  { s with mem := s.mem.filter (fun e => !inComp e.1), memGen := { s.memGen with comp := s.memGen.comp + 1 }, health := [] }
/-- The on-die stores lose their contents (R32, R154). -/
def loseOnDie (s : State) : State :=
  { s with mem := s.mem.filter (fun e => inComp e.1), memGen := { s.memGen with die := s.memGen.die + 1 } }

/-! ### Free values and outputs -/

/-- Pass to the next free value. -/
def tickFree (s : State) : State := { s with freeCtr := s.freeCtr + 1 }

/-- Put something on the part's wires. -/
def emit (s : State) (o : Out) : State := { s with out := o :: s.out }

/-- Give a completion. -/
def answer (s : State) (r : Resp) : State := { s with resp := r }

/-! ### Conditions under which the parts of the chip run -/

/-- Supplied, not in reset and not frozen (R29, R32, R556). -/
def up (s : State) : Bool := s.powered && s.pins.coldN && s.pins.perstN && !s.frz.frozen

/-- TCLK runs (R67, R597): the TIME and POS blocks work, also in a supply hold. -/
def tclk (s : State) : Bool := s.up && s.clk == .running

/-- A supply hold is in force, or its end is being carried out (R532, R534). -/
def inHold (s : State) : Bool := s.hold.phase != .none

/-- CCLK runs and the compute domain works. -/
def cclk (s : State) : Bool := s.tclk && !s.inHold

/-- BIST has completed, without fatal failure or with one (R35). -/
def bistDone (s : State) : Bool := s.host.bistDone

/-- The selvedge runs (R469, R556, R569). -/
def selvUp (s : State) : Bool := s.pins.coldN && !s.frz.frozen && s.selv.running

/-- STATUS[3:0] (R36). -/
def stage (s : State) : Nat := s.fld Reg.globalPwrupStatus 0 4
/-- Set STATUS[3:0] (R36). -/
def setStage (s : State) (v : Nat) : State := s.putF Reg.globalPwrupStatus 0 4 v

/-! ### MSI-X (R517, R518) -/

/-- The entry of a vector is masked, or the function is. -/
def msixMasked (s : State) (v : Nat) : Bool := s.host.fnMask || s.bit (Reg.msixTable v + 12) 0

/-- Send the message of vector `v` and clear its pending bit. -/
def msixGo (s : State) (v : Nat) : State :=
  (s.emit (.msix v (BitVec.ofNat 64 (s.rdQ (Reg.msixTable v) 2)) (s.rd (Reg.msixTable v + 8)))).putB
    (Reg.msixPba (v / 32)) (v % 32) false

/-- A message cannot be sent: the vector is masked, MSI-X Enable or Bus Master Enable is 0, or the function is in D3hot. -/
def msixHeld (s : State) (v : Nat) : Bool := s.msixMasked v || !s.host.msixEn || !s.host.busMaster || s.host.d3hot

/-- Raise vector `v`: its message is sent, or its pending bit is set while it cannot be sent. -/
def raise (s : State) (v : Nat) : State :=
  if s.msixHeld v then s.putB (Reg.msixPba (v / 32)) (v % 32) true else s.msixGo v

/-! ### Time stamps (R68) -/

/-- Whole nanoseconds since the epoch of a time base. -/
def tbNs (t : TimeBase) : Nat := t.sec.toNat * 1000000000 + t.ns.toNat

end State

end Sys2Proof.Machine
end

