-- ==== Sys2Proof/Machine/Float.lean ====
section
/-! DEFINITION. The number formats of 10_formats_and_functions.md: decoding and rounding by format (R318 to R332), exact
arithmetic on dyadic values, and the special functions within their bounds (R333, R334). -/

namespace Sys2Proof.Machine

/-! ### Formats (R318, R319) -/

/-- A floating format: exponent bits, fraction bits, bias, and whether it is FP8-E4M3, which has no infinity. -/
structure FFmt where
  eb : Nat
  fb : Nat
  bias : Int
  e4m3 : Bool
  deriving DecidableEq, Repr

def fp32 : FFmt := ⟨8, 23, 127, false⟩
def fp16 : FFmt := ⟨5, 10, 15, false⟩
def bf16 : FFmt := ⟨8, 7, 127, false⟩
def e4m3 : FFmt := ⟨4, 3, 7, true⟩
def e5m2 : FFmt := ⟨5, 2, 15, false⟩

/-- The floating format of an element type code. -/
def floatFmt (code : Nat) : Option FFmt :=
  match code with
  | 0x5 => some e4m3
  | 0x6 => some e5m2
  | 0x7 => some fp16
  | 0x8 => some bf16
  | 0x9 => some fp32
  | _ => none

/-- An integer type: bits, signed. -/
structure IFmt where
  bits : Nat
  signed : Bool
  deriving DecidableEq, Repr

/-- The integer type of an element type code; BS8 elements are as INT8. -/
def intFmt (code : Nat) : Option IFmt :=
  match code with
  | 0x0 => some ⟨8, true⟩
  | 0x1 => some ⟨16, true⟩
  | 0x2 => some ⟨32, true⟩
  | 0x3 => some ⟨64, true⟩
  | 0x4 => some ⟨4, true⟩
  | 0xB => some ⟨8, false⟩
  | 0xC => some ⟨16, false⟩
  | 0xD => some ⟨32, false⟩
  | _ => none

/-- Bits of an element of a type code. -/
def elemBits (code : Nat) : Nat :=
  match code with
  | 0x0 => 8 | 0x1 => 16 | 0x2 => 32 | 0x3 => 64 | 0x4 => 4
  | 0x5 => 8 | 0x6 => 8 | 0x7 => 16 | 0x8 => 16 | 0x9 => 32
  | 0xA => 8 | 0xB => 8 | 0xC => 16 | 0xD => 32
  | _ => 8

/-- The value of an integer element. -/
def IFmt.val (i : IFmt) (v : Nat) : Int := if i.signed then signedN i.bits v else (v % 2 ^ i.bits : Nat)
/-- Smallest value. -/
def IFmt.lo (i : IFmt) : Int := if i.signed then -(2 ^ (i.bits - 1) : Nat) else 0
/-- Largest value. -/
def IFmt.hi (i : IFmt) : Int := if i.signed then (2 ^ (i.bits - 1) : Nat) - 1 else (2 ^ i.bits : Nat) - 1
/-- Clamp to the type range. -/
def IFmt.clamp (i : IFmt) (x : Int) : Int := if x < i.lo then i.lo else if i.hi < x then i.hi else x
/-- Wrap to the width, or clamp with sat: bits, and whether a clamp changed the value. -/
def IFmt.put (i : IFmt) (sat : Bool) (x : Int) : Nat × Bool :=
  if sat then (wrapN i.bits (i.clamp x), i.clamp x != x) else (wrapN i.bits x, false)

/-- Width of a floating format. -/
def FFmt.width (f : FFmt) : Nat := 1 + f.eb + f.fb
/-- Exponent of the least significant bit of a subnormal. -/
def FFmt.qmin (f : FFmt) : Int := 1 - f.bias - f.fb
/-- Magnitude bits of the largest finite value. -/
def FFmt.maxBits (f : FFmt) : Nat := if f.e4m3 then 2 ^ (f.eb + f.fb) - 2 else (2 ^ f.eb - 1) * 2 ^ f.fb - 1
/-- Magnitude bits of infinity; NaN where the format has none. -/
def FFmt.infBits (f : FFmt) : Nat := if f.e4m3 then 2 ^ (f.eb + f.fb) - 1 else (2 ^ f.eb - 1) * 2 ^ f.fb
/-- The canonical NaN (R321). -/
def FFmt.nanBits (f : FFmt) : Nat := if f.e4m3 then 2 ^ (f.eb + f.fb) - 1 else (2 ^ f.eb - 1) * 2 ^ f.fb + 2 ^ (f.fb - 1)
/-- The sign bit. -/
def FFmt.signBit (f : FFmt) (s : Bool) : Nat := if s then 2 ^ (f.eb + f.fb) else 0

/-- The value of a bit pattern (R319). -/
def FFmt.decode (f : FFmt) (v : Nat) : FVal :=
  let s := v.testBit (f.eb + f.fb)
  let e := v / 2 ^ f.fb % 2 ^ f.eb
  let m := v % 2 ^ f.fb
  if e = 2 ^ f.eb - 1 ∧ !f.e4m3 then (if m = 0 then .inf s else .nan)
  else if e = 2 ^ f.eb - 1 ∧ m = 2 ^ f.fb - 1 then .nan
  else if e = 0 then .fin s m f.qmin
  else .fin s (2 ^ f.fb + m) (f.qmin + (e : Int) - 1)

/-! ### Rounding (R324, R325) -/

/-- Round m / 2^k to an integer in a rounding mode, for a value of sign s. -/
def roundShift (rnd : Nat) (s : Bool) (m k : Nat) : Nat :=
  let q := m / 2 ^ k
  let r := m % 2 ^ k
  match rnd with
  | 0 => if 2 * r > 2 ^ k ∨ (2 * r = 2 ^ k ∧ k ≠ 0 ∧ q % 2 = 1) then q + 1 else q
  | 1 => q
  | 2 => if s ∧ r ≠ 0 then q + 1 else q
  | _ => if !s ∧ r ≠ 0 then q + 1 else q

/-- The value written on overflow (R325). -/
def FFmt.overflow (f : FFmt) (rnd : Nat) (sat s : Bool) : Nat :=
  let toInf := match rnd with
    | 0 => true
    | 1 => false
    | 2 => s
    | _ => !s
  f.signBit s + (if sat || !toInf then f.maxBits else if f.e4m3 then 0 else f.infBits)
    + (if f.e4m3 && !sat && toInf then f.nanBits else 0)

/-- The bits of a value in a format, and whether it overflowed (R324 to R326). An E4M3 NaN has sign 0 (R321). -/
def FFmt.round (f : FFmt) (rnd : Nat) (sat : Bool) (x : FVal) : Nat × Bool :=
  match x with
  | .nan => (f.nanBits, false)
  | .inf s => if f.e4m3 then (if sat then f.signBit s + f.maxBits else f.nanBits, true) else (f.signBit s + f.infBits, false)
  | .fin s m e =>
    if m = 0 then (f.signBit s, false)
    else
      let q := max (e + (m.log2 : Int) - f.fb) f.qmin
      let m' := if q ≤ e then m * 2 ^ (e - q).toNat else roundShift rnd s m (q - e).toNat
      let b := (q - f.qmin).toNat * 2 ^ f.fb + m'
      if f.maxBits < b then
        let o := f.overflow rnd sat s
        (if f.e4m3 && o % 2 ^ 7 == f.nanBits then f.nanBits else o, true)
      else (f.signBit s + b, false)

/-! ### Exact arithmetic (R322) -/

/-- A value is NaN. -/
def FVal.isNan : FVal → Bool
  | .nan => true
  | _ => false

/-- A value is an infinity. -/
def FVal.isInf : FVal → Bool
  | .inf _ => true
  | _ => false

/-- A value is a zero. -/
def FVal.isZero : FVal → Bool
  | .fin _ m _ => m == 0
  | _ => false

/-- The sign of a value. -/
def FVal.sign : FVal → Bool
  | .nan => false
  | .inf s => s
  | .fin s _ _ => s

/-- The opposite value. -/
def FVal.neg : FVal → FVal
  | .nan => .nan
  | .inf s => .inf (!s)
  | .fin s m e => .fin (!s) m e

/-- The magnitude. -/
def FVal.abs : FVal → FVal
  | .nan => .nan
  | .inf _ => .inf false
  | .fin _ m e => .fin false m e

/-- Signed mantissa at exponent `e0`, at or below the value's own. -/
def signedAt (s : Bool) (m : Nat) (e e0 : Int) : Int := (if s then -1 else 1) * ((m * 2 ^ (e - e0).toNat : Nat) : Int)

/-- A dyadic value from a signed mantissa; an exact zero takes the sign `z`. -/
def ofSigned (x : Int) (e : Int) (z : Bool) : FVal := if x = 0 then .fin z 0 e else .fin (decide (x < 0)) x.natAbs e

/-- Exact sum (R322). -/
def FVal.add (rnd : Nat) (a b : FVal) : FVal :=
  match a, b with
  | .nan, _ => .nan
  | _, .nan => .nan
  | .inf s, .inf t => if s = t then .inf s else .nan
  | .inf s, _ => .inf s
  | _, .inf t => .inf t
  | .fin s m e, .fin t n d =>
    let e0 := min e d
    let z := if m = 0 ∧ n = 0 ∧ s = t then s else rnd == 2
    ofSigned (signedAt s m e e0 + signedAt t n d e0) e0 z

/-- Exact product. -/
def FVal.mul (a b : FVal) : FVal :=
  match a, b with
  | .nan, _ => .nan
  | _, .nan => .nan
  | .inf s, .inf t => .inf (s != t)
  | .inf s, .fin t n _ => if n = 0 then .nan else .inf (s != t)
  | .fin s m _, .inf t => if m = 0 then .nan else .inf (s != t)
  | .fin s m e, .fin t n d => .fin (s != t) (m * n) (e + d)

/-- Exact quotient to enough bits, with a sticky bit, for one rounding of a format of up to 24 significant bits. -/
def FVal.div (a b : FVal) : FVal :=
  match a, b with
  | .nan, _ => .nan
  | _, .nan => .nan
  | .inf _, .inf _ => .nan
  | .inf s, .fin t _ _ => .inf (s != t)
  | .fin s _ _, .inf t => .fin (s != t) 0 0
  | .fin s m e, .fin t n d =>
    if n = 0 then (if m = 0 then .nan else .inf (s != t))
    else
      let p := n.log2 + 64
      let q := m * 2 ^ p / n
      let r := m * 2 ^ p % n
      .fin (s != t) (2 * q + (if r = 0 then 0 else 1)) (e - d - p - 1)

/-- Strictly less, for values that are not NaN; −0 equals +0. -/
def FVal.lt (a b : FVal) : Bool :=
  match a, b with
  | .nan, _ => false
  | _, .nan => false
  | .inf s, .inf t => s && !t
  | .inf s, .fin _ _ _ => s
  | .fin _ _ _, .inf t => !t
  | .fin s m e, .fin t n d =>
    let e0 := min e d
    decide (signedAt s m e e0 < signedAt t n d e0)

/-- Equal values; NaN equals nothing. -/
def FVal.eqv (a b : FVal) : Bool := !a.isNan && !b.isNan && !a.lt b && !b.lt a

/-- Ordered with −0 below +0. -/
def FVal.ltz (a b : FVal) : Bool := a.lt b || (a.isZero && b.isZero && a.sign && !b.sign)

/-- The exact value of an integer. -/
def FVal.ofInt (i : Int) : FVal := .fin (decide (i < 0)) i.natAbs 0

/-- A finite value times 2^k. -/
def FVal.scale (k : Int) : FVal → FVal
  | .fin s m e => .fin s m (e + k)
  | x => x

/-- Round a finite value to an integer in a mode. -/
def FVal.toInt (rnd : Nat) : FVal → Int
  | .fin s m e =>
    let n := if 0 ≤ e then m * 2 ^ e.toNat else roundShift rnd s m (-e).toNat
    if s then -(n : Int) else n
  | _ => 0

/-- Floor of the binary logarithm of a positive finite value. -/
def FVal.log2 : FVal → Int
  | .fin _ m e => e + m.log2
  | _ => 0

/-- Conversion to an integer type: bits, and whether it is invalid (R327). -/
def toIntType (i : IFmt) (rnd : Nat) (x : FVal) : Nat × Bool :=
  match x with
  | .nan => (0, true)
  | .inf s => (wrapN i.bits (if s then i.lo else i.hi), true)
  | x => let r := x.toInt rnd; (wrapN i.bits (i.clamp r), i.clamp r != r)

/-! ### FP32 words -/

/-- The value of an FP32 word. -/
def f32 (w : W32) : FVal := fp32.decode w.toNat
/-- An FP32 word, rounded to nearest even without saturation. -/
def toF32 (x : FVal) : W32 := BitVec.ofNat 32 (fp32.round 0 false x).1

/-! ### Special functions (R333, R334) -/

/-- The exponent of the ulp of an exact result whose binary logarithm has floor `l`. -/
def FFmt.ulpExp (f : FFmt) (l : Int) : Int := max (l - f.fb) f.qmin

/-- Fraction bits of the fixed point in which exponentials are enclosed. -/
def expBits : Nat := 640

/-- Sum of x^k / k! below the `n`-th term, in fixed point: term and sum so far. -/
def expSeries : Nat → Nat → Nat → Nat → Nat → Nat
  | 0, _, _, _, acc => acc
  | n + 1, k, x, term, acc =>
    let term' := term * x / (2 ^ expBits * (k + 1))
    expSeries n (k + 1) x term' (acc + term')

/-- Square `n` times in fixed point. -/
def expSquare : Nat → Nat → Nat
  | 0, y => y
  | n + 1, y => expSquare n (y * y / 2 ^ expBits)

/-- e^|a| to far beyond the precision of any format, for |a| below 256: a lower bound whose relative error is below
2^−400. -/
def expPos (m : Nat) (e : Int) : FVal :=
  let x := if 0 ≤ e + expBits - 9 then m * 2 ^ (e + expBits - 9).toNat else m / 2 ^ (-(e + expBits - 9)).toNat
  .fin false (expSquare 9 (expSeries 100 0 x (2 ^ expBits) (2 ^ expBits))) (-expBits)

/-- e^a for a finite value: enclosed as above, a value too large or too small for every format where |a| is 256 or
more. -/
def expOf (s : Bool) (m : Nat) (e : Int) : FVal :=
  if m = 0 then .fin false 1 0
  else if (8 : Int) ≤ e + m.log2 then .fin false 1 (if s then -360 else 360)
  else if s then (FVal.fin false 1 0).div (expPos m e) else expPos m e

/-- The magnitude bits of the least and the greatest finite value within `bound` ulp of an exact positive result (R333). -/
def FFmt.bounds (f : FFmt) (bound : Nat) (exact : FVal) : Nat × Nat :=
  let d : FVal := .fin false bound (f.ulpExp exact.log2)
  let lo := exact.abs.add 0 d.neg
  (if lo.sign then 0 else (f.round 3 false lo).1, min f.maxBits (f.round 2 true (exact.abs.add 0 d)).1)

/-- A free candidate brought within its bounds. -/
def boundedBy (f : FFmt) (cand : Nat) (exact : FVal) (bound : Nat) : Nat :=
  let b := f.bounds bound exact
  min b.2 (max b.1 cand)

/-- The greatest of c 0, …, c n. -/
def runMax (c : Nat → Nat) : Nat → Nat
  | 0 => c 0
  | n + 1 => max (runMax c n) (c (n + 1))

/-- The least of c t, …, c (t + n). -/
def runMin (c : Nat → Nat) (t : Nat) : Nat → Nat
  | 0 => c t
  | n + 1 => min (runMin c t n) (c (t + n + 1))

/-- The value at place t of a rising function on the places 0 to `top` that lies within the bounds of every place: free but
for that, since `cand` is (R333: within the bounds, the same on every run, and monotonic in the operand). -/
def monoValue (range : Nat → Nat × Nat) (cand : Nat → Nat) (top t : Nat) : Nat :=
  min (runMin (fun i => (range i).2) t (top - t)) (max (runMax (fun i => (range i).1) t) (runMax cand t))

/-- The result of a special function and its flags: invalid, overflow, div_zero. -/
structure FnRes where
  bits : Nat
  invalid : Bool
  overflow : Bool
  divZero : Bool
  deriving DecidableEq, Repr

/-- A result without flags. -/
def FnRes.plain (b : Nat) : FnRes := ⟨b, false, false, false⟩

/-- e^x (R333, R334); `g` gives the bits where the rules give a bound only. -/
def fnExp (f : FFmt) (sat : Bool) (g : FVal → Nat) (x : FVal) : FnRes :=
  match x with
  | .nan => .plain f.nanBits
  | .inf true => .plain 0
  | .inf false => .plain f.infBits
  | .fin s m e =>
    if m = 0 then .plain (f.round 0 false (.fin false 1 0)).1
    else
      let y := expOf s m e
      if (f.decode f.maxBits).lt y then ⟨f.overflow 0 sat false, false, true, false⟩
      else .plain (g y)

/-- The ulp bound of VEXP by format. -/
def FFmt.expBound (f : FFmt) : Nat := if f.fb = 23 then 2 else 1

/-- The operand at place t of the order of values: −∞ first, the NaNs left out at either end. -/
def FFmt.atPlace (f : FFmt) (t : Nat) : Nat :=
  if t ≤ f.infBits then f.signBit true + (f.infBits - t) else t - f.infBits - 1
/-- The place of an operand that is not NaN. -/
def FFmt.place (f : FFmt) (v : Nat) : Nat :=
  let m := v % 2 ^ (f.eb + f.fb)
  if v.testBit (f.eb + f.fb) then f.infBits - m else f.infBits + 1 + m

/-- What VEXP may return at an operand. -/
def expRange (f : FFmt) (v : Nat) : Nat × Nat :=
  match f.decode v with
  | .nan => (0, f.infBits)
  | .inf s => if s then (0, 0) else (f.infBits, f.infBits)
  | .fin s m e =>
    if m = 0 then let o := (f.round 0 false (.fin false 1 0)).1; (o, o)
    else
      let y := expOf s m e
      if (f.decode f.maxBits).lt y then (f.infBits, f.infBits) else f.bounds f.expBound y

/-- VEXP of operand bits (R333, R334): rising in its operand. -/
def fnVexp (f : FFmt) (sat : Bool) (cand : Nat → Nat) (v : Nat) : FnRes :=
  fnExp f sat (fun _ => monoValue (fun t => expRange f (f.atPlace t)) cand (2 * f.infBits + 1) (f.place v)) (f.decode v)

/-- VSMEXP of a difference (R337): bounded only. -/
def fnSmexp (f : FFmt) (cand : Nat) (x : FVal) : FnRes := fnExp f false (fun y => boundedBy f cand y f.expBound) x

/-- 1/x exactly enough, for x ≠ 0. -/
def rcpOf (x : FVal) : FVal := (FVal.fin false 1 0).div x

/-- The magnitudes that VRCP may return at a positive operand. -/
def rcpRange (f : FFmt) (v : Nat) : Nat × Nat :=
  match f.decode v with
  | .nan => (0, f.infBits)
  | .inf _ => (0, 0)
  | .fin s m e =>
    if m = 0 then (f.infBits, f.infBits)
    else
      let y := rcpOf (.fin s m e)
      if (f.decode f.maxBits).lt y.abs then (f.infBits, f.infBits)
      else if m = 2 ^ m.log2 then let o := (f.round 0 false (.fin false 1 (-e - m.log2))).1; (o, o)
      else f.bounds 1 y

/-- VRCP of operand bits (R333, R334): its magnitude falls with that of its operand, for each sign. -/
def fnRcp (f : FFmt) (sat : Bool) (cand : Nat → Nat) (v : Nat) : FnRes :=
  match f.decode v with
  | .nan => .plain f.nanBits
  | .inf s => .plain (f.signBit s)
  | .fin s m e =>
    if m = 0 then ⟨f.signBit s + f.infBits, false, false, true⟩
    else if (f.decode f.maxBits).lt (rcpOf (.fin s m e)).abs then ⟨f.overflow 0 sat s, false, true, false⟩
    else if m = 2 ^ m.log2 then .plain (f.round 0 false (.fin s 1 (-e - m.log2))).1
    else .plain (f.signBit s + monoValue (fun t => rcpRange f (f.infBits - t)) (fun t => cand (f.signBit s + t)) f.infBits
      (f.infBits - v % 2 ^ (f.eb + f.fb)))

/-- 1/√(m 2^e) for m ≠ 0, to 80 bits or more. -/
def rsqrtOf (m : Nat) (e : Int) : FVal :=
  let p : Nat := 2 * m.log2 + 200
  let odd : Bool := (e + p) % 2 == 1
  -- 1/√(m 2^e) = √(2^(p' ) / m) · 2^(−(e + p')/2), with e + p' even
  let p' := if odd then p + 1 else p
  .fin false (2 * (2 ^ p' / m).sqrt + 1) (-((e + p') / 2) - 1)

/-- What VRSQRT may return at a positive operand. -/
def rsqrtRange (f : FFmt) (v : Nat) : Nat × Nat :=
  match f.decode v with
  | .nan => (0, f.infBits)
  | .inf _ => (0, 0)
  | .fin _ m e =>
    if m = 0 then (f.infBits, f.infBits)
    else if m = 2 ^ m.log2 ∧ (e + m.log2) % 2 = 0 then
      let o := (f.round 0 false (.fin false 1 (-((e + m.log2) / 2)))).1
      (o, o)
    else f.bounds 1 (rsqrtOf m e)

/-- VRSQRT of operand bits (R333, R334): it falls with its operand. -/
def fnRsqrt (f : FFmt) (cand : Nat → Nat) (v : Nat) : FnRes :=
  match f.decode v with
  | .nan => .plain f.nanBits
  | .inf true => ⟨f.nanBits, true, false, false⟩
  | .inf false => .plain 0
  | .fin s m e =>
    if m = 0 then ⟨f.signBit s + f.infBits, false, false, true⟩
    else if s then ⟨f.nanBits, true, false, false⟩
    else if m = 2 ^ m.log2 ∧ (e + m.log2) % 2 = 0 then .plain (f.round 0 false (.fin false 1 (-((e + m.log2) / 2)))).1
    else .plain (monoValue (fun t => rsqrtRange f (f.infBits - t)) cand f.infBits (f.infBits - v % 2 ^ (f.eb + f.fb)))

end Sys2Proof.Machine
end

