-- ==== Sys2Proof/Machine/Hierarchy.lean ====
section
/-! DEFINITION. The occupancy hierarchy, the job descriptor of the sparse unit, and the bytes that running jobs and gathers
read (11_sparse_execution.md, R341, R342, R346, R354, R366). -/

namespace Sys2Proof.Machine

/-! ### The hierarchy (R341, R342) -/

/-- A grid as a job descriptor gives it: buffer address, blocks per axis, capacity in blocks. -/
structure GridRef where
  base : Nat
  nx : Nat
  ny : Nat
  nz : Nat
  cap : Nat
  deriving DecidableEq, Repr

/-- A present voxel: its coordinates, brick record, bit in the brick, key-entry index. -/
structure GridVoxel where
  x : Nat
  y : Nat
  z : Nat
  brick : Nat
  bit : Nat
  key : Nat
  deriving DecidableEq, Repr

/-- Bytes of a region map (R130). -/
def regionBytes (n : Nat) : Nat := (n + 511) / 512 * 64
/-- Address of the block pool. -/
def GridRef.blockPool (g : GridRef) : Nat := g.base + 0x80 + regionBytes (g.nx * g.ny * g.nz)
/-- Address of the brick pool. -/
def GridRef.brickPool (g : GridRef) : Nat := g.blockPool + g.cap * 1088
/-- Address of block record i. -/
def GridRef.block (g : GridRef) (i : Nat) : Nat := g.blockPool + i * 1088
/-- Address of brick record b. -/
def GridRef.brickAt (g : GridRef) (b : Nat) : Nat := g.brickPool + b * 2112

/-- Bit n of a bitmap at an address (R341). -/
def mapBit (s : State) (a n : Nat) : Bool := (s.byte (a + n / 8)).toNat.testBit (n % 8)
/-- The set bits of a bitmap of n bits, ascending. -/
def mapBits (s : State) (a n : Nat) : List Nat := bitsOf n (leNat (s.bytes a ((n + 7) / 8)))
/-- Blocks a grid has. -/
def GridRef.blocks (g : GridRef) : Nat := min (g.nx * g.ny * g.nz) g.cap
/-- The brick record of brick j of block i. -/
def GridRef.brickOf (g : GridRef) (s : State) (i j : Nat) : Nat := s.leMem (g.block i + 0x40 + 2 * j) 2

/-- GridVoxel v of brick j of block i. -/
def GridRef.voxel (g : GridRef) (s : State) (i j v : Nat) : GridVoxel :=
  let b := g.brickOf s i j
  { x := 64 * (i % g.nx) + 8 * (j % 8) + v % 8
    y := 64 * (i / g.nx % g.ny) + 8 * (j / 8 % 8) + v / 8 % 8
    z := 64 * (i / (g.nx * g.ny)) + 8 * (j / 64) + v / 64
    brick := b, bit := v, key := s.leMem (g.brickAt b + 0x40 + 4 * v) 4 }

/-- Every present voxel in walk order: block number, brick bit, voxel bit (R350). -/
def GridRef.walk (g : GridRef) (s : State) : List GridVoxel :=
  ((mapBits s (g.base + 0x80) g.blocks)).flatMap fun i =>
    (mapBits s (g.block i) 512).flatMap fun j =>
      (mapBits s (g.brickAt (g.brickOf s i j)) 512).map fun v => g.voxel s i j v

/-- The voxel at coordinates, if it is present; a negative coordinate or one outside the window is absent. -/
def GridRef.find (g : GridRef) (s : State) (x y z : Int) : Option GridVoxel :=
  if x < 0 ∨ y < 0 ∨ z < 0 ∨ (64 * g.nx : Nat) ≤ x ∨ (64 * g.ny : Nat) ≤ y ∨ (64 * g.nz : Nat) ≤ z then none
  else
    let (x, y, z) := (x.toNat, y.toNat, z.toNat)
    let i := x / 64 + g.nx * (y / 64 + g.ny * (z / 64))
    let j := x / 8 % 8 + 8 * (y / 8 % 8) + 64 * (z / 8 % 8)
    let v := x % 8 + 8 * (y % 8) + 64 * (z % 8)
    if i < g.blocks && mapBit s (g.base + 0x80) i && mapBit s (g.block i) j && mapBit s (g.brickAt (g.brickOf s i j)) v then
      some (g.voxel s i j v)
    else none

/-! ### The job descriptor (R346) -/

/-- Kind of a job. -/
def jobKind (d : List Byte) : Nat := leAt d 0 1
/-- The input grid. -/
def jobIn (d : List Byte) : GridRef := ⟨leAt d 0x08 8, leAt d 0x64 2, leAt d 0x66 2, leAt d 0x68 2, leAt d 0x70 4⟩
/-- The output grid. -/
def jobOut (d : List Byte) : GridRef := ⟨leAt d 0x10 8, leAt d 0x6A 2, leAt d 0x6C 2, leAt d 0x6E 2, leAt d 0x74 4⟩
/-- Stride s. -/
def jobStride (d : List Byte) : Nat := leAt d 1 1
/-- Kernel offsets. -/
def jobOffs (d : List Byte) : Nat := leAt d 2 1
/-- The signed offsets of the offset table. -/
def jobOffset (s : State) (d : List Byte) (q : Nat) : Int × Int × Int :=
  let a := leAt d 0x20 8 + 4 * q
  (signedN 8 (s.leMem a 1), signedN 8 (s.leMem (a + 1) 1), signedN 8 (s.leMem (a + 2) 1))

/-- The nonzero bit of a voxel of the input grid. -/
def nonzero (s : State) (d : List Byte) (v : GridVoxel) : Bool := mapBit s (leAt d 0x18 8 + v.brick * 64) v.bit

/-- Bytes of a grid the descriptor names, up to its brick pool. -/
def GridRef.range (g : GridRef) : Nat × Nat := (g.base, g.brickPool - g.base)

/-- The brick records of a grid. -/
def GridRef.brickRanges (g : GridRef) (s : State) : List (Nat × Nat) :=
  (mapBits s (g.base + 0x80) g.blocks).flatMap fun i =>
    (mapBits s (g.block i) 512).map fun j => (g.brickAt (g.brickOf s i j), 2112)

/-- The nonzero maps of the bricks of a job's input grid. -/
def jobMaps (s : State) (d : List Byte) : List (Nat × Nat) :=
  let g := jobIn d
  (mapBits s (g.base + 0x80) g.blocks).flatMap fun i =>
    (mapBits s (g.block i) 512).map fun j => (leAt d 0x18 8 + g.brickOf s i j * 64, 64)

/-- The feature rows that an NZMAP job examines. -/
def jobRows (s : State) (d : List Byte) : List (Nat × Nat) :=
  ((jobIn d).walk s).map fun v => (leAt d 0x58 8 + v.key * leAt d 0x60 4, leAt d 0x52 2)

/-- The grids a job reads. -/
def jobGrids (d : List Byte) : List GridRef := if jobKind d = 1 then [jobIn d, jobOut d] else [jobIn d]

/-- The bytes a job reads: grids, offset table, nonzero maps with use_nz, feature rows (R366). -/
def jobReads (s : State) (d : List Byte) : List (Nat × Nat) :=
  (jobGrids d).flatMap (fun g => g.range :: g.brickRanges s)
    ++ (if jobKind d = 3 then jobRows s d
      else (leAt d 0x20 8, 4 * jobOffs d) :: if (leAt d 3 1).testBit 0 then jobMaps s d else [])

/-- The oldest sparse job of a core: its place among the transfers, and its descriptor. -/
def firstJob (c : CoreSt) : Option (Nat × Dma × List Byte) := c.dma.zipIdx.findSome? fun (d, i) => d.job.map fun j => (i, d, j)

/-- The bytes a gather-fed operation reads: its pair group and the feature rows of its pairs (R354, R366). -/
def gatherReads (p : ArrOp) : List (Nat × Nat) :=
  match p.op, p.gather with
  | .aout, some g => (g.pairBase, 256) :: g.pairs.filterMap fun pr =>
      if pr.1 = 0xFFFFFFFF then none
      else some (g.featBase + pr.1 * g.featStride + g.chanOff, (p.n * elemBits p.fmt + 7) / 8)
  | _, _ => []

/-- The bytes that the running job and the gathers of a core read. -/
def coreReads (s : State) (c : CoreSt) : List (Nat × Nat) :=
  (match firstJob c with
    | some (_, d, j) => if d.lost || jobKind j == 0 || 3 < jobKind j then [] else jobReads s j
    | none => []) ++ (c.arr.cmdq ++ c.arr.cur.toList).flatMap gatherReads

/-- A write reaches what a running job or a gather reads (R366). -/
def hitsReads (s : State) (a n : Nat) : Bool := s.cores.any fun c => (coreReads s c.2).any fun r => rangesMeet r (a, n)

end Sys2Proof.Machine
end

