-- ==== Sys2Proof/Machine/Trace.lean ====
section
/-! DEFINITION. The trace unit of 17_debug_trace_freeze.md: packets, the core FIFOs, the ring in the trace SRAM, and the
performance counters. Source 32 is the system source. -/

namespace Sys2Proof.Machine

/-! ### Performance counters (R553) -/

/-- The counters that count event `ev` of core `k`, below `n`. -/
def pmcHits (s : State) (ev k : Nat) (n : Nat) : List Nat :=
  (List.range n).filter fun i =>
    s.fld (Reg.pmcSel i) 0 8 == ev && (s.fld (Reg.pmcSel i) 8 6 == k || s.fld (Reg.pmcSel i) 8 6 == 63)

/-- Add `n` to one 64-bit counter, which wraps. -/
def pmcAdd (n : Nat) (s : State) (i : Nat) : State := s.wrQ (Reg.pmc i) 2 (s.rdQ (Reg.pmc i) 2 + n)

/-- Count `n` occurrences of event `ev` of core `k` while the counters run (R553). -/
def pmcCount (ev k n : Nat) (s : State) : State :=
  if s.bit Reg.tracePmcCtrl 0 then (pmcHits s ev k 16).foldl (pmcAdd n) s else s

/-! ### Packets (R541 to R547) -/

/-- Trace is enabled for a source (R554). -/
def traced (s : State) (src : Nat) : Bool :=
  s.bit Reg.traceCtrl 0 && (if src < 32 then s.bit Reg.traceSrcEn src else s.bit Reg.traceSrcSys 0)

/-- The time base in the layout of a packet: [29:0] ns, [47:30] low 18 bits of the seconds (R541). -/
def packetTime (t : TimeBase) : Nat := t.ns.toNat + 2 ^ 30 * (t.sec.toNat % 2 ^ 18)

/-- The time base is not locked to any reference: the unsync condition of R68. -/
def unsync (s : State) : Bool := !s.bit Reg.timeStatus 0

/-- Count one packet of a source in its sequence number (R542). -/
def traceSeq (s : State) (src : Nat) : State :=
  { s with trace := { s.trace with seqs := Tab.set (fun _ => 0) s.trace.seqs src ((Tab.get (fun _ => 0) s.trace.seqs src + 1) % 2 ^ 21) } }

/-- The packet a source generates now: its 16 bytes (R541). -/
def packetBits (s : State) (src type : Nat) (t : TimeBase) (payload : Nat) : BitVec 128 :=
  BitVec.ofNat 128 (type + 16 * src + 2 ^ 10 * (if unsync s then 1 else 0)
    + 2 ^ 11 * Tab.get (fun _ => 0) s.trace.seqs src + 2 ^ 32 * packetTime t + 2 ^ 80 * (payload % 2 ^ 48))

/-- The ring is full in mode STOP (R546). -/
def ringFull (s : State) : Bool :=
  !s.bit Reg.traceCtrl 1 && decide (32768 ≤ (s.rd Reg.traceWr - s.rd Reg.traceRd).toNat)

/-- Keep TRACE_STATUS.full as the ring stands. -/
def traceFull (s : State) : State := s.putB Reg.traceStatus 0 (ringFull s)

/-- A slot of the ring; one that holds no packet is not defined (R540). -/
def packetAt (s : State) (i : Nat) : BitVec 128 :=
  (Tab.get (fun _ => none) s.trace.sram i).getD (Config.freePacket s.trace.gen i)

/-- Put one packet into the ring (R546). -/
def ringPut (s : State) (p : BitVec 128) : State :=
  traceFull { (s.inc Reg.traceWr) with
    trace := { s.trace with sram := Tab.set (fun _ => none) s.trace.sram ((s.rd Reg.traceWr).toNat % 32768) (some p) } }

/-- A lost packet of a source is counted (R547). -/
def countLost (src : Nat) (s : State) : State :=
  let s := (s.sat Reg.traceDrops).putB Reg.traceStatus 1 true
  if src < 32 then pmcCount 0x0D src 1 s else s

/-- A packet of a source is lost at the ring (R546, R547). -/
def traceLose (src : Nat) (s : State) : State :=
  countLost src { s with trace := { s.trace with lost := Tab.set (fun _ => 0) s.trace.lost src (Tab.get (fun _ => 0) s.trace.lost src + 1) } }

/-- A packet of core `k` is lost at its FIFO (R545, R547). -/
def traceDrop (k : Nat) (s : State) : State :=
  countLost k { s with trace := { s.trace with dropped := Tab.set (fun _ => 0) s.trace.dropped k (Tab.get (fun _ => 0) s.trace.dropped k + 1) } }

/-- Write the LOST packet of a source that has lost packets at the ring, if the ring has room; it takes the source's next
sequence number (R547). Packets of a core that were already in its FIFO have lower numbers and follow it (log entry 79, DESIGN
CHOICE). -/
def lostPacket (src : Nat) (s : State) : State :=
  let n := Tab.get (fun _ => 0) s.trace.lost src
  if n = 0 || ringFull s then s
  else
    let s' := traceSeq (ringPut s (packetBits s src 0xC s.pos.tb n)) src
    { s' with trace := { s'.trace with lost := Tab.set (fun _ => 0) s'.trace.lost src 0 } }

/-- Move one packet of a source into the ring, after its LOST packet (R546, R547). -/
def ringWrite (src : Nat) (p : BitVec 128) (s : State) : State :=
  let s := lostPacket src s
  if ringFull s then traceLose src s else ringPut s p

/-- The FIFO of a core source. -/
def fifoOf (s : State) (k : Nat) : List (BitVec 128) := Tab.get (fun _ => []) s.trace.fifo k

/-- Replace the FIFO of a core source; TRACE_STATUS.busy shows whether any FIFO holds a packet. -/
def setFifo (s : State) (k : Nat) (l : List (BitVec 128)) : State :=
  let s := { s with trace := { s.trace with fifo := Tab.set (fun _ => []) s.trace.fifo k l } }
  s.putB Reg.traceStatus 2 (decide (s.trace.fifo ≠ []))

/-- A packet of the system source, written at once, after its LOST packet (R544, R547). -/
def traceSys (type payload : Nat) (s : State) : State :=
  if traced s 32 then
    let s := lostPacket 32 s
    ringWrite 32 (packetBits s 32 type s.pos.tb payload) (traceSeq s 32)
  else s

/-- Append one packet to the FIFO of core `k`, with the source's next sequence number (R542). -/
def fifoPut (k type payload : Nat) (s : State) : State :=
  let p := packetBits s k type s.pos.tb payload
  let s := traceSeq s k
  setFifo s k (fifoOf s k ++ [p])

/-- The LOST packet of a core that has lost packets at its FIFO, before its next one (R547). -/
def fifoLost (k : Nat) (s : State) : State :=
  let n := Tab.get (fun _ => 0) s.trace.dropped k
  if n = 0 then s
  else
    let s := fifoPut k 0xC n s
    { s with trace := { s.trace with dropped := Tab.set (fun _ => 0) s.trace.dropped k 0 } }

/-- A packet of core `k` that is never lost at the FIFO: beyond the 16 of the FIFO it stands for one that the core waits to
write, and the core's next word waits for it (R545, fifoOver). -/
def traceCore (k type payload : Nat) (s : State) : State :=
  if traced s k then fifoPut k type payload (fifoLost k s) else s

/-- The FIFO of core `k` has no room (R544, R545). -/
def fifoFull (s : State) (k : Nat) : Bool := decide (16 ≤ (fifoOf s k).length)

/-- Core `k` has a packet that waits for room in its FIFO (R545). -/
def fifoOver (s : State) (k : Nat) : Bool := decide (16 < (fifoOf s k).length)

/-- The FIFO of core `k` has room for a packet and for the LOST packet before it. -/
def fifoTakes (s : State) (k : Nat) : Bool :=
  decide ((fifoOf s k).length + (if Tab.get (fun _ => 0) s.trace.dropped k = 0 then 1 else 2) ≤ 16)

/-- A BRANCH or QUEUE packet: lost when the FIFO is full and TRACE_FILTER.stall is 0 (R545); with stall set the word
has waited for room. -/
def traceFiltered (k bit type payload : Nat) (s : State) : State :=
  if traced s k && s.bit Reg.traceFilter bit then
    if fifoTakes s k || s.bit Reg.traceFilter 8 then traceCore k type payload s else traceDrop k (traceSeq s k)
  else s

/-- Move up to `n` packets from the FIFOs into the ring, lowest source first (R544). -/
def traceMove : Nat → State → State
  | 0, s => s
  | n + 1, s =>
    match s.trace.fifo with
    | [] => s
    | (k, p :: l) :: _ => traceMove n (ringWrite k p (setFifo s k l))
    | (k, []) :: _ => traceMove n (setFifo s k [])

/-- Empty every FIFO into the ring (R552, R554, R556). -/
def traceEmpty (s : State) : State := traceMove ((s.trace.fifo.map fun e => e.2.length + 1).sum) s

/-- Payload of a code address: [44:0] (R541). -/
def codeAddr (pc : Nat) (hi : Nat) : Nat := pc % 2 ^ 45 + 2 ^ 45 * hi

/-- SYNC of core `k` (R550, R554). -/
def traceSync (k reason : Nat) (pc : Nat) (s : State) : State := traceCore k 0x1 (codeAddr pc reason) s

end Sys2Proof.Machine
end

