-- ==== Sys2Proof/Machine/Selvedge.lean ====
section
/-! DEFINITION. The selvedge's core of 15_selvedge_safety.md: events and their actions, the safe-state latch, the safety
telegram, and the arming of deadline monitors. -/

namespace Sys2Proof.Machine

/-! ### Reading the selvedge's state -/

/-- µs since COLD_N rose. -/
def selvTime (s : State) : Nat := s.rdQ Reg.selvTime 2

/-- The safe state is latched. -/
def isSafe (s : State) : Bool := s.bit Reg.selvStatus 0

/-- Partition n is ENABLED. -/
def ptEnabled (s : State) (n : Nat) : Bool := n < 8 && s.fld (Reg.globalPtStatus n) 0 2 == 1

/-- Telegram state: 0 NO_IMAGE, 1 RUN, 2 SAFE, 3 FATAL (R498). NO_IMAGE holds until the first full image since COLD_N
rose (log entry 11). -/
def selvState (s : State) : Nat :=
  if s.selv.fatalSeen then 3 else if !s.selv.everImage then 0 else if isSafe s then 2 else 1

/-- The pair entries of the SAFETY section, none before one is applied. -/
def pairsOf (s : State) : List Pair :=
  match s.selv.safety with
  | none => []
  | some f => f.pairs

/-- The rules of the SAFETY section. -/
def rulesOf (s : State) : List Rule :=
  match s.selv.safety with
  | none => []
  | some f => f.rules

/-- The deadline monitors of the SAFETY section. -/
def monitorsOf (s : State) : List Monitor :=
  match s.selv.safety with
  | none => []
  | some f => f.dms

/-- The frame judging state of pair number `i`. -/
def pairSt (s : State) (i : Nat) : PairSt := Tab.get (fun _ => PairSt.idle) s.selv.pairs i

/-- Replace the frame judging state of pair number `i`. -/
def setPairSt (s : State) (i : Nat) (p : PairSt) : State :=
  { s with selv := { s.selv with pairs := Tab.set (fun _ => PairSt.idle) s.selv.pairs i p } }

/-- The numbers of the pairs partition `n` belongs to. -/
def pairsOfPart (s : State) (n : Nat) : List Nat :=
  (List.range (pairsOf s).length).filter fun i =>
    match (pairsOf s)[i]? with
    | none => false
    | some p => p.a == n || p.b == n

/-- The partition entry number `n` of the warp image. -/
def partEntry (s : State) (n : Nat) : PartEntry := s.warp.parts.getD n .unused

/-- The partition a core belongs to. -/
def corePart (s : State) (k : Nat) : Option Nat :=
  (List.range 8).find? fun n => (partEntry s n).used && (partEntry s n).coreMask.testBit k

/-- The partition a queue belongs to. -/
def queuePart (s : State) (q : Nat) : Option Nat :=
  (List.range 8).find? fun n => (partEntry s n).used && decide ((partEntry s n).queueFirst ≤ q ∧ q < (partEntry s n).queueFirst + (partEntry s n).queueCount)

/-- The partition a stream context belongs to. -/
def ctxPart (s : State) (x : Nat) : Option Nat :=
  (List.range 8).find? fun n => (partEntry s n).used && decide ((partEntry s n).ctxFirst ≤ x ∧ x < (partEntry s n).ctxFirst + (partEntry s n).ctxCount)

/-! ### The safety telegram (R498, R499) -/

/-- One 16-byte verdict entry, or zeros for an unused one. -/
def verdictAt (s : State) (i : Nat) : List Byte := fit 16 (s.selv.verdicts.getD i [])

/-- The pairs with both partitions ENABLED, bit n for channel A on PTn. -/
def pairsUp (s : State) : Nat :=
  ((pairsOf s).map fun p => if ptEnabled s p.a && ptEnabled s p.b then 2 ^ p.a else 0).foldl Nat.lor 0

/-- Bytes 0x00 to 0x7B of the payload. -/
def telegramBody (s : State) : List Byte :=
  let f := s.selv.safety
  let connId := match f with | none => 0 | some f => f.connId.toNat
  let period := match f with | none => 10000 | some f => f.periodUs.toNat
  let chip := match f with | none => 0xFF | some f => f.chip
  let flags := (if s.pins.safeN == .low then 1 else 0) + (if s.bit Reg.selvStatus 1 then 2 else 0)
    + (if s.bit Reg.timeStatus 0 then 4 else 0) + (if s.selv.lastRoundFull then 8 else 0)
  let cause := if selvState s == 1 then 0 else s.fld Reg.selvStatus 16 16
  let enabled := ((List.range 8).map fun n => if ptEnabled s n then 2 ^ n else 0).sum
  natLe 2 1 ++ natLe 1 1 ++ natLe 1 chip ++ natLe 4 connId ++ natLe 4 s.selv.tgSeq.toNat ++ natLe 4 period
    ++ natLe 8 (selvTime s) ++ natLe 1 (selvState s) ++ natLe 1 flags ++ natLe 2 cause
    ++ natLe 4 (s.rd Reg.selvSafeCount).toNat ++ natLe 8 (s.rdQ Reg.selvDetectTime 2)
    ++ natLe 1 enabled ++ natLe 1 (pairsUp s) ++ natLe 2 (s.fld Reg.selvRounds 0 16) ++ zeros 4
    ++ verdictAt s 0 ++ verdictAt s 1 ++ verdictAt s 2 ++ verdictAt s 3 ++ zeros 12

/-- The telegram as an Ethernet frame without FCS. -/
def telegramFrame (s : State) : List Byte :=
  let key := match s.selv.safety with | none => 0 | some f => f.key.toNat
  let dst := match s.selv.safety with | none => List.replicate 6 0xFF | some f => f.dstMac
  let src := match s.selv.safety with
    | none => [0x02, 0x5C, 0xE0, 0x00, 0x00, s.pins.addr.setWidth 8]
    | some f => f.srcMac
  let tag := match s.selv.safety with
    | none => []
    | some f => if f.vlan.testBit 12 then [0x81, 0x00] ++ (natLe 2 (f.vlan - (if f.vlan.testBit 12 then 4096 else 0))).reverse else []
  let body := telegramBody s
  dst ++ src ++ tag ++ [0x88, 0xB5] ++ body ++ natLe 4 (crc32c (natLe 8 key ++ body))

/-- Send one telegram, periodic or for an event, while the port may send (R477). -/
def telegram (event : Bool) (s : State) : State :=
  if s.selvUp && !s.selv.tgDead then
    let seq := s.selv.tgSeq
    let s := (s.emit (.telegram event (telegramFrame s))).wr Reg.selvTgSeq seq
    { s with selv := { s.selv with tgSeq := seq + 1 } }
  else s

/-- Keep SELV_STATUS.state as the telegram state; a change sends an event telegram (R499). -/
def selvSync (s : State) : State :=
  let st := selvState s
  if s.fld Reg.selvStatus 8 8 == st then s else telegram true (s.putF Reg.selvStatus 8 8 st)

/-! ### Events and the safe-state latch (R472 to R476) -/

/-- Causes of the fatal class. -/
def fatalCause (c : Nat) : Bool := 0x20 ≤ c && c ≤ 0x23

/-- The configurable action of causes 0x10 to 0x1F: 0 SAFE, 1 INVALIDATE, 2 COUNT. -/
def causeAction (s : State) (c : Nat) : Nat :=
  match s.selv.safety with
  | none => 2
  | some f => f.actions.getD (c - 0x10) 2

/-- Change every frame of pair `i` that is not yet emitted. -/
def mapFrames (g : Frame → Frame) (s : State) (i : Nat) : State :=
  setPairSt s i { pairSt s i with frames := (pairSt s i).frames.map g }

/-- The numbers of all defined pairs. -/
def pairNums (s : State) : List Nat := List.range (pairsOf s).length

/-- A frame whose VALID is barred, with the first invalidating cause (R473). -/
def Frame.barBy (c : Nat) (f : Frame) : Frame := { f with barred := true, bar := if f.bar = 0 then c else f.bar }

/-- Latch the safe state with cause `c` (R474, R475). -/
def latchSafe (c : Nat) (s : State) : State :=
  let s := ((s.putB Reg.selvStatus 0 true).putB Reg.selvStatus 2 (fatalCause c)).putF Reg.selvStatus 16 16 c
  let s := (s.inc Reg.selvSafeCount).wrQ Reg.selvDetectTime 2 (selvTime s)
  let s := { s with pins := { s.pins with safeN := .low } }
  let s := (pairNums s).foldl (mapFrames fun f => { f with safeSeen := true, bar := if f.bar = 0 then c else f.bar }) s
  let s := (pairNums s).foldl (fun s i => setPairSt s i { pairSt s i with restartedA := false, restartedB := false }) s
  let s := { s with selv := { s.selv with imageSince := false, roundAfter := false, startedAfter := false } }
  match s.selv.safety with
  | none => s
  | some f => if f.msixEn && s.up then s.raise f.msix else s

/-- Record a later event during the safe state (R475). -/
def seenCause (c : Nat) (s : State) : State :=
  if c < 32 then s.putB Reg.selvCausesSeen0 c true else s.putB Reg.selvCausesSeen1 (c - 32) true

/-- The freeze mask asks for a freeze on cause `c` (R479). -/
def freezeOn (s : State) (c : Nat) : Bool :=
  match s.selv.safety with
  | none => false
  | some f => f.freezeMask.toNat.testBit c

/-- Effect of an event with action SAFE (R474, R475, R477, R479). -/
def eventSafe (c : Nat) (s : State) : State :=
  let s := { s with selv := { s.selv with newEvent := true, fatalSeen := s.selv.fatalSeen || fatalCause c } }
  if isSafe s then selvSync (seenCause c s)
  else
    let s := selvSync (latchSafe c s)
    if freezeOn s c then { s with frz := { s.frz with req := s.frz.req ||| 4#3 } } else s

/-- Effect of an event with action INVALIDATE on the pairs it concerns (R473). -/
def eventInvalidate (c : Nat) (ps : List Nat) (s : State) : State :=
  let s := ps.foldl (mapFrames (Frame.barBy c)) s
  if isSafe s then seenCause c s else s

/-- An event with cause `c`, its action, and the pairs it concerns (R472). -/
def selvEvent (c act : Nat) (ps : List Nat) (s : State) : State :=
  if s.selvUp then
    let s := s.sat (Reg.selvEvent c)
    if act = 0 then eventSafe c s
    else if act = 1 then eventInvalidate c ps s
    else if isSafe s then seenCause c s else s
  else s

/-- An event with a configurable action. -/
def selvCause (c : Nat) (ps : List Nat) (s : State) : State := selvEvent c (causeAction s c) ps s

/-- An event that has been decided: its cause, its action, and the pairs it concerns. -/
structure SelvEv where
  cause : Nat
  act : Nat
  pairs : List Nat
  deriving DecidableEq, Repr

/-- Raise an event. -/
def raiseEv (s : State) (e : SelvEv) : State := selvEvent e.cause e.act e.pairs s

/-- The events decided in one SCLK: of those with action SAFE the lowest cause code comes first, so that it is latched (R475). -/
def raiseAll (es : List SelvEv) (s : State) : State :=
  ((List.range 64).flatMap fun c => es.filter fun e => e.act = 0 ∧ e.cause = c).foldl raiseEv
    ((es.filter fun e => e.act ≠ 0).foldl raiseEv s)

/-! ### Deadline monitors: arming (R495) -/

/-- The monitor in force at number `m`. -/
def monitor (s : State) (m : Nat) : Option Monitor :=
  match (monitorsOf s)[m]? with
  | none => none
  | some d => if d.mode = 1 ∨ d.mode = 2 then some d else none

/-- Set the pending starts of monitor `m`, and their number in SELV_DMm. -/
def setStarts (m : Nat) (l : List Nat) (s : State) : State :=
  ({ s with selv := { s.selv with starts := Tab.set (fun _ => []) s.selv.starts m l } } : State).putF (Reg.selvDm m) 1 4 l.length

/-- Pending starts of monitor `m`, oldest first. -/
def startsOf (s : State) (m : Nat) : List Nat := Tab.get (fun _ => []) s.selv.starts m

/-- Both conditions of arming hold for monitor `m`: its partition is ENABLED and PF_N is high. -/
def mayArm (s : State) (d : Monitor) : Bool := ptEnabled s d.part && !s.bit Reg.selvStatus 1

/-- Follow the arming conditions of monitor `m`: an ALIVE monitor arms, and any monitor whose conditions fail is disarmed
with its pending starts cleared. -/
def armMonitor (s : State) (m : Nat) : State :=
  match monitor s m with
  | none => s
  | some d =>
    if mayArm s d then
      if d.mode = 2 ∧ !s.bit (Reg.selvDm m) 0 then
        let s := s.putB (Reg.selvDm m) 0 true
        { s with selv := { s.selv with alive := Tab.set (fun _ => 0) s.selv.alive m (selvTime s) } }
      else s
    else
      let s := setStarts m [] (s.putB (Reg.selvDm m) 0 false)
      { s with selv := { s.selv with startDue := Tab.set (fun _ => 0) s.selv.startDue m 0, endDue := Tab.set (fun _ => 0) s.selv.endDue m 0 } }

/-- Follow the arming conditions of every monitor. -/
def armMonitors (s : State) : State := (List.range 64).foldl armMonitor s

/-- A commit to queue `q` triggers an injection of the seed image if the SAFETY section names it; while one runs it is
counted (R487). `n` elements are `n` commits (log entry 66). -/
def seedTrigger (q n : Nat) (s : State) : State :=
  match s.selv.safety with
  | none => s
  | some f =>
    if f.seedTrigger ≠ q then s
    else if s.selv.seedBusy || s.selv.seedDue then s.satAdd Reg.selvSeedSkips n
    else { s with selv := { s.selv with seedDue := true } }.satAdd Reg.selvSeedSkips (n - 1)

/-- Add `n` to the commits of monitor `m` that are still to be recorded. -/
def addDue (n m : Nat) (t : Tab Nat) : Tab Nat := Tab.set (fun _ => 0) t m (Tab.get (fun _ => 0) t m + n)

/-- The commit of `n` elements to queue `q` is reported to the monitors that name it (R494). Where the end queue is an input queue of the
selvedge, the FRAME_END record itself ends the monitor, when the selvedge acquires it. -/
def commitReport (q n : Nat) (s : State) : State :=
  let s := seedTrigger q n s
  let inQ := (pairsOf s).any fun p => p.aQ == q || p.bQ == q
  (List.range 64).foldl (fun s m =>
    match monitor s m with
    | none => s
    | some d =>
      if mayArm s d then
        let s := if d.mode = 1 ∧ d.startQ = q then
          { s with selv := { s.selv with startDue := addDue n m s.selv.startDue } } else s
        if d.endQ = q ∧ !inQ then
          { s with selv := { s.selv with endDue := addDue n m s.selv.endDue } } else s
      else s) s

/-! ### Partitions of pairs -/

/-- Partition `n` has become ENABLED: what its pairs and monitors take from that (R483, R485, R495, R500). -/
def pairEnter (n : Nat) (s : State) : State :=
  let s := (pairsOfPart s n).foldl (fun s i =>
    match (pairsOf s)[i]? with
    | none => s
    | some p => setPairSt s i { pairSt s i with
        restartedA := (pairSt s i).restartedA || p.a == n
        restartedB := (pairSt s i).restartedB || p.b == n
        seedOk := false, seedRun := 0, lastPick := none }) s
  armMonitors s

/-- Partition `n` is no longer ENABLED (R59, R485, R495). -/
def pairLeave (n : Nat) (s : State) : State :=
  armMonitors ((pairsOfPart s n).foldl (mapFrames fun f => { f with barred := true }) s)

end Sys2Proof.Machine
end

