-- ==== Sys2Proof/Machine/Memory.lean ====
section
/-! DEFINITION. The device address space: on-die stores, companion memory with its address map, check bits and poison, the
bank-unit command windows, the region checkers and the bandwidth meters
(05_cores_and_queues.md, 12_memory_and_bank_units.md, R489 to R492). -/

namespace Sys2Proof.Machine

/-! ### The layout of the address space (R15, R151) -/

/-- First address of the on-die stores. -/
def onDieBase : Nat := 0x100000000000
/-- An address lies in the on-die stores. -/
def inOnDie (a : Nat) : Bool := onDieBase ≤ a && a < onDieBase + 0x20000000
/-- First address of the command windows. -/
def winBase : Nat := 0x200000000000
/-- An address lies in a command window. -/
def inWin (a : Nat) : Bool := winBase ≤ a && a < winBase + 48 * 0x100000
/-- First address of the local store of core k. -/
def localBase (k : Nat) : Nat := onDieBase + k * 0xC00000
/-- Size of a local store. -/
def localSize : Nat := 0xC00000
/-- First address of the shared store. -/
def sharedBase : Nat := onDieBase + 0x18000000
/-- An address lies in the local store of core k. -/
def inLocal (k a : Nat) : Bool := localBase k ≤ a && a < localBase k + localSize
/-- An address is decoded (R15). -/
def decoded (a : Nat) : Bool := inOnDie a || inComp a || inWin a
/-- Every byte of a range lies in one decoded area. -/
def decodedRange (a n : Nat) : Bool :=
  n == 0 || (inOnDie a && inOnDie (a + n - 1)) || (inComp a && inComp (a + n - 1)) || (inWin a && inWin (a + n - 1))

/-- The memory regions of partition p: the local stores of its cores, its shared-store region and its companion-memory
region (R180). -/
def partRegions (s : State) (p : Nat) : List (Nat × Nat) :=
  let e := partEntry s p
  ((bitsOf 32 e.coreMask).map fun k => (localBase k, localSize)) ++ [(e.storeBase, e.storeSize), (e.memBase, e.memSize)]

/-- A range lies wholly within the memory regions of partition p (R180). -/
def inRegions (s : State) (p a n : Nat) : Bool := covered (partRegions s p) 35 a (a + n)

/-! ### The staged image (R37, R53) -/

/-- GLOBAL_WARP_CTRL.partial. -/
def warpPartial (s : State) : Bool := s.bit Reg.globalWarpCtrl 1
/-- Where the image is staged: the staging area, or the re-warp window. -/
def warpBase (s : State) : Nat := if warpPartial s then sharedBase + 0x8000000 - s.warp.rewarpMib * 2 ^ 20 else sharedBase
/-- Bytes of the staging area, or of the re-warp window. -/
def warpRoom (s : State) : Nat := if warpPartial s then s.warp.rewarpMib * 2 ^ 20 else 96 * 2 ^ 20
/-- A write reaches the area that holds the image being applied (R53): the staging area for a full image, the re-warp window
for a partial one (log entry 41). -/
def hitsStaging (s : State) (a n : Nat) : Bool := s.loader != .idle && rangesMeet (a, n) (warpBase s, warpRoom s)

/-! ### Channels (R371 to R375) -/

/-- The hash of a local granule number (R371). -/
def stripeHash (l : Nat) : Nat := (((l % 64).xor (l / 64 % 64)).xor (l / 4096 % 64)).xor (l / 262144 % 64)

/-- The linear region an address lies in: base and slice (R373). -/
def linearOf (s : State) (a : Nat) : Option (Nat × Nat) :=
  s.warp.lin.find? fun r => decide (r.1 ≤ a ∧ a < r.1 + 48 * r.2)

/-- Channel and local address of a companion-memory byte (R371, R373). -/
def chanOf (s : State) (a : Nat) : Nat × Nat :=
  match linearOf s a with
  | some (b, z) => ((a - b) / z, b / 48 + (a - b) % z)
  | none =>
    let g := a / 256
    let l := g / 48
    ((g % 48 + stripeHash l) % 48, l * 256 + a % 256)

/-- Device address of a local address of channel c: the inverse of the map (R371, R373). -/
def chanInv (s : State) (c a : Nat) : Nat :=
  match s.warp.lin.find? (fun r => decide (r.1 / 48 ≤ a ∧ a < r.1 / 48 + r.2)) with
  | some (b, z) => b + c * z + (a - b / 48)
  | none =>
    let l := a / 256
    (48 * l + (c + 96 - stripeHash l) % 48) * 256 + a % 256

/-- Channel c passed BIST and is usable. -/
def chanAvail (s : State) (c : Nat) : Bool := (s.rdQ Reg.globalChAvail 2).testBit c

/-- State of a channel: 0 MEMORY, 1 PROCESSOR, 2 DRAINING, 3 UNUSED. -/
def chanState (s : State) (c : Nat) : Nat := s.fld (Reg.memStatus c) 0 2

/-- A channel besides its registers. -/
def chan (s : State) (c : Nat) : Chan := Tab.get (fun _ => Chan.idle) s.chans c
/-- Replace a channel. -/
def setChan (s : State) (c : Nat) (x : Chan) : State := { s with chans := Tab.set (fun _ => Chan.idle) s.chans c x }

/-- The 256-byte-aligned blocks of device addresses a range touches. -/
def blocks (a n : Nat) : List Nat := (List.range ((a + n + 255) / 256 - a / 256)).map fun i => (a / 256 + i) * 256

/-- Count an access to unavailable channels, once for each block it touches (R375). -/
def countUnavail (a n : Nat) (s : State) : State :=
  (blocks a n).foldl (fun s b =>
    let c := (chanOf s b).1
    if chanAvail s c then s else s.sat (Reg.memUnavail c)) s

/-! ### Check bits and poison (R376 to R379) -/

/-- Health of the companion-memory word with number w (device address / 8). -/
def healthOf (s : State) (w : Nat) : Health := Tab.get (fun _ => Health.good) s.health w
/-- Set the health of a word. -/
def setHealth (s : State) (w : Nat) (h : Health) : State := { s with health := Tab.set (fun _ => Health.good) s.health w h }

/-- `n` bytes of 0xFF. -/
def ffs (n : Nat) : List Byte := List.replicate n 0xFF

/-- Count a read of word w by its health: CE, UE or POISON, with the memory event of a bad word (R376, R377, R379). -/
def noteWord (w : Nat) (s : State) : State :=
  let (c, a) := chanOf s (8 * w)
  let bad (cnt bit kind : Nat) : State :=
    let s := ((s.sat cnt).putB (Reg.memStatus c) bit true).wrQ (Reg.memEccLast c) 2 (a + 2 ^ 32 * kind)
    { s with selv := { s.selv with inbox := s.selv.inbox ++ [.memory c a (kind == 1)] } }
  match healthOf s w with
  | .good => s
  | .corrected => s.sat (Reg.memEccCe c)
  | .bad => bad (Reg.memEccUe c) 6 0
  | .poisoned => bad (Reg.memEccPoison c) 7 1

/-- The bytes a read of word w returns. -/
def wordBytes (s : State) (w : Nat) : List Byte :=
  if !chanAvail s (chanOf s (8 * w)).1 then ffs 8
  else match healthOf s w with
    | .good => s.bytes (8 * w) 8
    | .corrected => s.bytes (8 * w) 8
    | .bad => ffs 8
    | .poisoned => ffs 8

/-- Count the reads of `n` words from number w; words of unavailable channels are not read. -/
def noteWords (w : Nat) : Nat → State → State
  | 0, s => s
  | n + 1, s => noteWords (w + 1) n (if chanAvail s (chanOf s (8 * w)).1 then noteWord w s else s)

/-- The number of aligned words a range touches. -/
def wordSpan (a n : Nat) : Nat := (a + n + 7) / 8 - a / 8

/-- Read `n` bytes of companion memory (R375 to R379). -/
def compRead (a n : Nat) (s : State) : List Byte × State :=
  let bs := ((List.range (wordSpan a n)).flatMap fun i => wordBytes s (a / 8 + i))
  ((bs.drop (a % 8)).take n, noteWords (a / 8) (wordSpan a n) (countUnavail a n s))

/-- Write part of one companion-memory word: bytes `bs` from byte `o` of word w. A whole word replaces it and clears any
poison; a part is merged, and a bad word becomes poisoned (R377, R378). -/
def compWriteWord (w o : Nat) (bs : List Byte) (s : State) : State :=
  if !chanAvail s (chanOf s (8 * w)).1 then s
  else if bs.length = 8 then setHealth (s.putBytes (8 * w) bs) w .good
  else
    match healthOf s w with
    | .bad => setHealth (noteWord w s) w .poisoned
    | .poisoned => setHealth (noteWord w s) w .poisoned
    | _ => setHealth ((noteWord w s).putBytes (8 * w + o) bs) w .good

/-- Write the bytes that lie in word after word. -/
def compWriteWords : Nat → Nat → List Byte → State → State
  | 0, _, _, s => s
  | n + 1, a, bs, s =>
    let m := 8 - a % 8
    compWriteWords n (a + m) (bs.drop m) (if bs.isEmpty then s else compWriteWord (a / 8) (a % 8) (bs.take m) s)

/-- Write companion memory (R375, R378). -/
def compWrite (a : Nat) (bs : List Byte) (s : State) : State :=
  compWriteWords (wordSpan a bs.length) a bs (countUnavail a bs.length s)

/-- Poison every word of a granule-aligned range (R393, R531). -/
def poisonRange (a n : Nat) (s : State) : State :=
  (List.range (n / 8)).foldl (fun s i => setHealth (s.putBytes (a + 8 * i) (ffs 8)) (a / 8 + i) .poisoned) s

/-! ### Command windows (R385 to R388) -/

/-- Key of the meter of partition p (8 for the chain) at channel c. -/
def meterKey (c p : Nat) : Nat := 16 * c + p

/-- Charge `n` bytes to the meter of number p at channel c. -/
def meterAdd (c p n : Nat) (s : State) : State :=
  { s with selv := { s.selv with spent := Tab.set (fun _ => 0) s.selv.spent (meterKey c p) (Tab.get (fun _ => 0) s.selv.spent (meterKey c p) + n) } }

/-- Counts of one port. -/
def portCount (x : Chan) (p : Nat) : PortCount := Tab.get (fun _ => ⟨0, 0, 0⟩) x.ports p
/-- Change the counts of one port. -/
def mapPort (x : Chan) (p : Nat) (f : PortCount → PortCount) : Chan :=
  { x with ports := Tab.set (fun _ => ⟨0, 0, 0⟩) x.ports p (f (portCount x p)) }

/-- The port counter word of port p (R388). -/
def portWord (s : State) (c p : Nat) : Nat :=
  let x := portCount (chan s c) p
  x.accepted % 2 ^ 24 + 2 ^ 24 * (x.completed % 2 ^ 24) + 2 ^ 48 * (x.refused % 2 ^ 16)

/-- One byte read from the window of channel c at offset o. -/
def winByte (s : State) (c o : Nat) : Byte :=
  if o < 0x20000 ∧ 0x800 ≤ o % 0x1000 ∧ o % 0x1000 < 0x808 then
    BitVec.ofNat 8 (portWord s c (o / 0x1000) / 2 ^ (8 * (o % 8)))
  else 0

/-- Read from the command windows. -/
def winRead (a n : Nat) (s : State) : List Byte × State :=
  ((List.range n).map fun i =>
    let o := a + i - winBase
    if chanAvail s (o / 0x100000) then winByte s (o / 0x100000) (o % 0x100000) else 0xFF,
   (blocks a n).foldl (fun s b =>
     let c := ((if b < a then a else b) - winBase) / 0x100000
     if chanAvail s c then s else s.sat (Reg.memUnavail c)) s)

/-- The channel refuses commands: it is not in processor mode, or PF_N is low (R387, R401). -/
def chanRefuses (s : State) (c : Nat) : Bool := chanState s c != 1 || !s.pins.pfN || s.inHold

/-- Refuse a command of port p (R387). -/
def refuseCmd (c p : Nat) (s : State) : State :=
  ((setChan s c (mapPort (chan s c) p fun x => { x with refused := x.refused + 1 })).sat (Reg.memCmdRefused c)).putB (Reg.memStatus c) 5 true

/-- A command is submitted from port p: it is refused, or waits to be accepted (R387), and is charged to the partition of
core p (R491). -/
def submit (c p : Nat) (cmd : BitVec 256) (s : State) : State :=
  if chanRefuses s c then refuseCmd c p s
  else
    let s := setChan s c { chan s c with waiting := (chan s c).waiting ++ [⟨cmd, p⟩] }
    match corePart s p with
    | some n => meterAdd c n 32 s
    | none => s

/-- The staged bytes of the slot at window offset o. -/
def slotBytes (x : Chan) (o : Nat) : List Byte := (List.range 32).map fun i => Tab.get (fun _ => 0) x.staging (o + i)

/-- Stage bytes in the window of channel c from offset o: slots only. -/
def stageBytes (x : Chan) (o : Nat) : List Byte → Chan
  | [] => x
  | b :: bs =>
    let x := if o < 0x20000 ∧ o % 0x1000 < 0x800 then { x with staging := Tab.set (fun _ => 0) x.staging o b } else x
    stageBytes x (o + 1) bs

/-- Offsets of the slot words 0x18 that a write of `n` bytes at window offset o covers whole, rising. -/
def coveredWords (o n : Nat) : List Nat :=
  ((List.range (n / 32 + 2)).map fun i => (o / 32 + i) * 32 + 0x18).filter fun w =>
    decide (o ≤ w ∧ w + 8 ≤ o + n ∧ w < 0x20000 ∧ w % 0x1000 < 0x800)

/-- Write into the command window of one channel: stage the bytes, then submit in ascending slot order (R386). -/
def winWriteChan (c o : Nat) (bs : List Byte) (s : State) : State :=
  if !chanAvail s c then (blocks o bs.length).foldl (fun s _ => s.sat (Reg.memUnavail c)) s
  else
    let s := setChan s c (stageBytes (chan s c) o bs)
    (coveredWords o bs.length).foldl (fun s w =>
      submit c (w / 0x1000) (BitVec.ofNat 256 (leNat (slotBytes (chan s c) (w - 0x18)))) s) s

/-- Write into the command windows. -/
def winWrite (a : Nat) (bs : List Byte) (s : State) : State :=
  let o := a - winBase
  let c := o / 0x100000
  let m := (c + 1) * 0x100000 - o
  let s := winWriteChan c (o % 0x100000) (bs.take m) s
  if m < bs.length then winWriteChan (c + 1) 0 (bs.drop m) s else s

/-! ### Unchecked access -/

/-- Read `n` bytes at a decoded address. -/
def devRead (a n : Nat) (s : State) : List Byte × State :=
  if inComp a then compRead a n s else if inWin a then winRead a n s else (s.bytes a n, s)

/-- Write bytes at a decoded address. -/
def devWrite (a : Nat) (bs : List Byte) (s : State) : State :=
  if inComp a then compWrite a bs s else if inWin a then winWrite a bs s else s.putBytes a bs

/-! ### Region checkers (R489, R490) -/

/-- The partition whose identity an agent's accesses carry. -/
def agentPart (s : State) : Agent → Option Nat
  | .core k => corePart s k.val
  | .part p => some p.val
  | .chain => none
  | .host => none

/-- The shared regions of the SAFETY section. -/
def sharedRegions (s : State) : List SharedRegion :=
  match s.selv.safety with
  | none => []
  | some f => f.shared

/-- A shared region lets partition p (or the chain) access one byte. -/
def sharedOk (s : State) (p : Option Nat) (wr : Bool) (a : Nat) : Bool :=
  (sharedRegions s).any fun r => decide (r.base ≤ a ∧ a < r.base + r.size) &&
    match p with
    | some n => if wr then r.write.testBit n else r.read.testBit n
    | none => if wr then r.chain.testBit 1 else r.chain.testBit 0

/-- Partition p may access one byte by its own resources (R489). `k` is the issuing core, if a core issues. -/
def ownOk (s : State) (p : Nat) (k : Option Nat) (a : Nat) : Bool :=
  let e := partEntry s p
  if inOnDie a then
    (decide (a < sharedBase) && e.coreMask.testBit ((a - onDieBase) / localSize))
      || decide (e.storeBase ≤ a ∧ a < e.storeBase + e.storeSize)
  else if inComp a then
    decide (e.memBase ≤ a ∧ a < e.memBase + e.memSize) && e.channelMask.testBit (chanOf s a).1
  else
    let o := a - winBase
    some (o % 0x100000 / 0x1000) == k && e.channelMask.testBit (o / 0x100000)

/-- One byte may be accessed by an agent (R489). Host accesses are not checked. -/
def byteOk (s : State) (ag : Agent) (wr : Bool) (a : Nat) : Bool :=
  match ag with
  | .host => true
  | .chain => sharedOk s none wr a
  | .part p => ownOk s p.val none a || sharedOk s (some p.val) wr a
  | .core k =>
    match corePart s k.val with
    | none => false
    | some p => ownOk s p (some k.val) a || sharedOk s (some p) wr a

/-- An access of `n` bytes may be performed (R489). -/
def accessOk (s : State) (ag : Agent) (wr : Bool) (a n : Nat) : Bool :=
  (List.range n).all fun i => byteOk s ag wr (a + i)

/-- The region checker's event for a refused access (R490). -/
def regionEvent (ag : Agent) (a : Nat) (wr : Bool) (s : State) : State :=
  let (p, ch) := match agentPart s ag with | some p => (p, false) | none => (0xFF, true)
  { s with selv := { s.selv with inbox := s.selv.inbox ++ [.region p ch a wr] } }

/-! ### Bandwidth meters (R491, R492) -/

/-- The number under which an agent is metered, if it is. -/
def meterNum (s : State) (ag : Agent) : Option Nat :=
  match ag with
  | .host => none
  | .chain => some 8
  | _ => agentPart s ag

/-- The budget of a meter in bytes per window, none without limit. -/
def meterBudget (s : State) (p : Nat) : Option Nat :=
  match s.selv.safety with
  | none => none
  | some f =>
    let u := if p = 8 then f.chainBudget else f.chBudget.getD p 0xFFFF
    if u = 0xFFFF then none else some (64 * u)

/-- The companion-memory channels a range touches. -/
def chansOf (s : State) (a n : Nat) : List Nat :=
  if inComp a then ((blocks a n).map fun b => (chanOf s (if b < a then a else b)).1).dedup else []

/-- The channels a range touches, in companion memory or by their command windows. -/
def chansAt (s : State) (a n : Nat) : List Nat :=
  if inWin a then (List.range ((a + n - 1 - winBase) / 0x100000 - (a - winBase) / 0x100000 + 1)).map fun i => (a - winBase) / 0x100000 + i
  else chansOf s a n

/-- The meter of number p at channel c has spent its budget. -/
def meterSpent (s : State) (c p : Nat) : Bool :=
  match meterBudget s p with
  | none => false
  | some b => decide (b ≤ Tab.get (fun _ => 0) s.selv.spent (meterKey c p))

/-- A request of an agent must wait for the next window at some channel it touches. -/
def meterWaits (s : State) (ag : Agent) (a n : Nat) : Bool :=
  match meterNum s ag with
  | none => false
  | some p => (chansAt s a n).any fun c => meterSpent s c p

/-- Mark the meters a request waits on. -/
def meterMark (ag : Agent) (a n : Nat) (s : State) : State :=
  match meterNum s ag with
  | none => s
  | some p => (chansAt s a n).foldl (fun s c =>
      if meterSpent s c p then
        { s with selv := { s.selv with waitNow := Tab.set (fun _ => false) s.selv.waitNow (meterKey c p) true } }
      else s) s

/-- Charge an ordinary access: 64 bytes for each started 64 bytes (R491). -/
def meterCharge (ag : Agent) (a n : Nat) (s : State) : State :=
  match meterNum s ag with
  | none => s
  | some p =>
    if inComp a then
      (blocks a n).foldl (fun s b =>
        let lo := max a b
        let hi := min (a + n) (b + 256)
        meterAdd (chanOf s b).1 p (64 * ((hi - lo + 63) / 64)) s) s
    else s

/-! ### Ordinary accesses as barriers (R382, R399, R401) -/

/-- Requester q waits at a channel, and every command accepted before it arrived has started. -/
def barrierFirst (x : Chan) (q : Requester) : Bool := x.barriers.any fun b => b.1 == q && b.2 == 0

/-- Channel c serves an ordinary access of q now: in processor mode once every command accepted before the access arrived
has completed (R399), while it drains if the channel had accepted the access before (R382), never in self-refresh (R401). -/
def chanServes (s : State) (q : Requester) (c : Nat) : Bool :=
  let x := chan s c
  !chanAvail s c || (!s.bit (Reg.memStatus c) 4 && x.running.isEmpty &&
    match chanState s c with
    | 1 => x.accq.isEmpty || barrierFirst x q
    | 2 => barrierFirst x q
    | _ => true)

/-- Some channel of a range cannot serve an ordinary access of q now. -/
def chanWaits (s : State) (q : Requester) (a n : Nat) : Bool := (chansOf s a n).any fun c => !chanServes s q c

/-- An access of q arrives at the channels of a range: where it has to wait in processor mode, no command accepted after it
starts before it is performed (R399). -/
def arrive (q : Requester) (a n : Nat) (s : State) : State :=
  (chansOf s a n).foldl (fun s c =>
    if chanState s c == 1 && !chanServes s q c && !(chan s c).barriers.any (fun b => b.1 == q) then
      setChan s c { chan s c with barriers := (chan s c).barriers ++ [(q, (chan s c).accq.length)] }
    else s) s

/-- An access of q is performed, or withdrawn: it waits at no channel. -/
def depart (q : Requester) (s : State) : State :=
  if s.chans.any fun c => c.2.barriers.any fun b => b.1 == q then
    { s with chans := Tab.update (fun _ => Chan.idle) (fun _ x => { x with barriers := x.barriers.filter fun b => b.1 != q }) 0 48 s.chans }
  else s

/-- Core k has submitted commands that wait to be accepted (R387). -/
def portWaits (s : State) (k : Nat) : Bool := (List.range 48).any fun c => (chan s c).waiting.any fun b => b.port == k
/-- A range touches a channel at which a command of core k waits to be accepted: program order holds its access (R386). -/
def portHolds (s : State) (k a n : Nat) : Bool := (chansAt s a n).any fun c => (chan s c).waiting.any fun b => b.port == k

/-! ### Checked access -/

/-- A read by an agent: all ones and a REGION event where R489 does not allow it (R490). -/
def busRead (ag : Agent) (a n : Nat) (s : State) : List Byte × State :=
  if accessOk s ag false a n then devRead a n (meterCharge ag a n s)
  else (ffs n, regionEvent ag a false s)

/-- A write by an agent: discarded with a REGION event where R489 does not allow it (R490). -/
def busWrite (ag : Agent) (a : Nat) (bs : List Byte) (s : State) : State :=
  if accessOk s ag true a bs.length then devWrite a bs (meterCharge ag a bs.length s)
  else regionEvent ag a true s

/-- The pairs a channel event concerns: those of the partitions whose channel_mask, or a shared region of theirs, includes
the channel (R473). -/
def pairsOfChannel (s : State) (c : Nat) : List Nat :=
  let shared (n : Nat) : Bool := (sharedRegions s).any fun r =>
    (r.read.testBit n || r.write.testBit n) && (chansOf s r.base r.size).contains c
  ((List.range 8).filter fun n => (partEntry s n).used && ((partEntry s n).channelMask.testBit c || shared n)).flatMap (pairsOfPart s)

end Sys2Proof.Machine
end

