-- ==== Sys2Proof/Machine/Queue.lean ====
section
/-! DEFINITION. The hardware queues of 05_cores_and_queues.md: counters, reservations, commits, releases, interrupts, and
what waits on a queue: the wake of sleeping cores and group barriers. -/

namespace Sys2Proof.Machine

/-! ### Reading a queue -/

/-- State of queue q: 0 OFF, 1 ENABLED, 2 DRAINING, 3 UNUSED. -/
def qState (s : State) (q : Nat) : Nat := s.fld (Reg.queueStatus q) 0 2
/-- Released counter (R167). -/
def qHead (s : State) (q : Nat) : W32 := s.rd (Reg.queueHead q)
/-- Committed counter (R167). -/
def qTail (s : State) (q : Nat) : W32 := s.rd (Reg.queueTail q)
/-- Reserved counter (R167). -/
def qResv (s : State) (q : Nat) : W32 := s.rd (Reg.queueResv q)
/-- Elements in the ring that are committed and not released. -/
def qFill (s : State) (q : Nat) : Nat := (qTail s q - qHead s q).toNat
/-- Slots of the ring. -/
def qDepth (s : State) (q : Nat) : Nat := 2 ^ s.fld (Reg.queueCfg q) 0 5
/-- Free slots (R167). -/
def qFree (s : State) (q : Nat) : Nat := qDepth s q - (qResv s q - qHead s q).toNat
/-- Element size in bytes. -/
def qEsize (s : State) (q : Nat) : Nat := 8 * s.fld (Reg.queueCfg q) 8 12
/-- Producer kind: 1 cores, 2 host, 3 engine. -/
def qProd (s : State) (q : Nat) : Nat := s.fld (Reg.queueCfg q) 20 2
/-- Consumer kind: 1 core, 2 host, 3 engine. -/
def qCons (s : State) (q : Nat) : Nat := s.fld (Reg.queueCfg q) 22 2
/-- Address of slot counter c: base + (c mod depth) × esize (R167). -/
def qSlot (s : State) (q : Nat) (c : Nat) : Nat := s.rdQ (Reg.queueBase q) 2 + c % qDepth s q * qEsize s q
/-- Reserved slots of a queue that its tail has not passed. -/
def qSlots (s : State) (q : Nat) : List Slot := Tab.get (fun _ => []) s.slots q
/-- Replace the reserved slots. -/
def setSlots (s : State) (q : Nat) (l : List Slot) : State := { s with slots := Tab.set (fun _ => []) s.slots q l }

/-- Keep QUEUE_STATUS.empty and full and QUEUE_HWM as the counters stand. -/
def qSync (q : Nat) (s : State) : State :=
  let f := qFill s q
  let s := (s.putB (Reg.queueStatus q) 3 (f == 0)).putB (Reg.queueStatus q) 4 (qFree s q == 0)
  if s.fld (Reg.queueHwm q) 0 17 < f then s.putF (Reg.queueHwm q) 0 17 f else s

/-! ### Cores that wait -/

/-- A core besides its registers. -/
def core (s : State) (k : Nat) : CoreSt := Tab.get (fun _ => CoreSt.start) s.cores k
/-- Replace a core. -/
def setCore (s : State) (k : Nat) (c : CoreSt) : State := { s with cores := Tab.set (fun _ => CoreSt.start) s.cores k c }
/-- State of core k, as CORE_STATUS.state. -/
def coreState (s : State) (k : Nat) : Nat := s.fld (Reg.coreStatus k) 0 2
/-- Power code of core k, as CORE_STATUS.power. -/
def corePower (s : State) (k : Nat) : Nat := s.fld (Reg.coreStatus k) 3 3
/-- A core stopped by an exception (R217). -/
def coreStopped (s : State) (k : Nat) : Bool := s.bit (Reg.coreExcStatus k) 0
/-- Read an S register; S0 reads as 0 (R193). -/
def CoreSt.sreg (c : CoreSt) (i : Nat) : W64 := if i = 0 then 0 else Tab.get (fun _ => 0) c.s i
/-- Write an S register; a write to S0 is discarded (R193). -/
def CoreSt.setS (c : CoreSt) (i : Nat) (v : W64) : CoreSt := if i = 0 then c else { c with s := Tab.set (fun _ => 0) c.s i v }

/-- The effective watch slots of a core that are enabled, with the queue each names (R188). -/
def watched (c : CoreSt) : List (Nat × Nat) :=
  (List.range 8).filterMap fun i =>
    let w := (c.watch.getD i 0).toNat
    if w.testBit 15 then some (i, fieldN w 0 10) else none

/-- The result of a QWAIT that ends now: the lowest-numbered enabled slot whose queue is non-empty, or bit 31 (R210). -/
def qwaitResult (s : State) (c : CoreSt) : W64 :=
  match (watched c).find? (fun w => qFill s w.2 != 0) with
  | some (i, q) => BitVec.ofNat 64 (i + 2 ^ 16 * q)
  | none => BitVec.ofNat 64 (2 ^ 31)

/-! ### Exceptions (R215 to R219) -/

/-- A 64-bit value the spec leaves open. -/
def freeQ (s : State) : W64 := Config.freeWord s.freeCtr ++ Config.freeWord (s.freeCtr + 1)

/-- What an exception reports: cause, field, queue, TRAP code, EPC, and the address where its cause has one. -/
structure Exc where
  cause : Nat
  field : Nat
  queue : Nat
  code : Nat
  epc : W64
  addr : Option W64
  deriving DecidableEq, Repr

/-- Taking an exception (R216, R217): the exception is recorded; the core goes on at its handler, or stops. EADDR of a
cause that has no address is a value the spec does not state, and the fields of CORE_EXC_INFO that a cause does not name read
0 (log entry 12). -/
def takeException (k : Nat) (e : Exc) (s : State) : State :=
  let ea := e.addr.getD (freeQ s)
  let s := if e.addr.isNone then s.tickFree.tickFree else s
  let inH := s.bit (Reg.coreExcStatus k) 1
  let s := (s.putF (Reg.coreExcStatus k) 3 4 e.cause).satF (Reg.coreExcStatus k) 16 16
  let s := (s.wrQ (Reg.coreExcPc k) 2 e.epc.toNat).wrQ (Reg.coreExcAddr k) 2 ea.toNat
  let s := s.wrN (Reg.coreExcInfo k) (e.field + 8 * e.queue + 2 ^ 16 * e.code)
  let s := traceCore k 0x6 (codeAddr e.epc.toNat e.cause) s
  if s.bit (Reg.coreExcCfg k) 0 && !inH then
    let s := s.putB (Reg.coreExcStatus k) 1 true
    setCore s k { core s k with epc := e.epc, eaddr := ea, pc := BitVec.ofNat 64 (s.rdQ (Reg.coreExcHandler k) 2) }
  else
    let s := (s.putB (Reg.coreExcStatus k) 0 true).putB (Reg.coreExcStatus k) 2 (inH || s.bit (Reg.coreExcStatus k) 2)
    let s := setCore s k { core s k with epc := e.epc, eaddr := ea }
    let s := traceCore k 0x8 (codeAddr (s.rdQ (Reg.corePc k) 2) 1) s
    if s.bit (Reg.coreExcCfg k) 2 then s.raise (s.fld (Reg.coreExcCfg k) 8 8) else s

/-- The return from an exception: leave the handler and go on at EPC (R216). -/
def returnFromException (k : Nat) (s : State) : State :=
  setCore (s.putB (Reg.coreExcStatus k) 1 false) k { core s k with pc := (core s k).epc }

/-! ### The end of a wait -/

/-- A word of core k at `pc` is complete; an operation of it on queue `refused` that was refused raises QUEUE now (R215). -/
def wordDone (k : Nat) (pc : W64) (refused : Option Nat) (s : State) : State :=
  let s := s.wrQ (Reg.corePc k) 2 pc.toNat
  match refused with
  | none => s
  | some q => takeException k ⟨4, 5, q, 0, (core s k).pc, none⟩ s

/-- End what core k waits for: a QWAIT writes its result; the word is complete, unless it also waits in a GBAR that has not been
released (R162). -/
def endWait (k : Nat) (s : State) : State :=
  let c := core s k
  let s := s.putB (Reg.coreStatus k) 6 false
  match c.wait with
  | .qwait w rd g =>
    let c' := match rd with | none => c | some r => c.setS r (qwaitResult s c)
    if g then (setCore s k { c' with wait := .barrier w none, nap := .awake }).putB (Reg.coreStatus k) 6 true
    else wordDone k w none (setCore s k { c' with wait := .none, nap := .awake })
  | .barrier w refused => wordDone k w refused (setCore s k { c with wait := .none })
  | .sleep w refused => wordDone k w refused (setCore s k { c with wait := .none, nap := .awake })
  | .none => s
  | .queue _ _ => s

/-- Record a wake cause and its queue (R164). -/
def wakeCause (k cause q : Nat) (s : State) : State := s.wrN (Reg.coreWakeCause k) (cause + 8 * q)

/-- RESUME of core k leaving the state of a power code (R549). -/
def traceResume (k cause q code : Nat) (s : State) : State :=
  traceCore k 0x5 (cause + 8 * q + 2 ^ 13 * (if code = 1 then 1 else 2)) s

/-- A wake cause reaches core k: 1 queue, 2 host, 3 barrier, 4 drain (R164). It ends a wait in the running state and an
entry to DOZE or NAP at once, and starts the exit of a sleeping core. -/
def wakeCore (cause q k : Nat) (s : State) : State :=
  let c := core s k
  let waits := match c.wait with | .qwait _ _ _ => true | .sleep _ _ => true | _ => false
  if !waits then s
  else match c.nap with
    | .awake => endWait k (wakeCause k cause q s)
    | .wanted _ => endWait k (wakeCause k cause q s)
    | .entering code => endWait k (traceResume k cause q code (wakeCause k cause q s))
    | .asleep =>
      let s := wakeCause k cause q s
      let s := if corePower s k == 3 then s else traceResume k cause q (corePower s k) s
      setCore s k { core s k with nap := .exiting }
    | .exiting => s

/-- Wake every core that watches queue q (R164). -/
def wakeWatchers (q : Nat) (s : State) : State :=
  (List.range 32).foldl (fun s k =>
    if (watched (core s k)).any (fun w => w.2 == q) && coreState s k == 1 then wakeCore 1 q k s else s) s

/-! ### Group barriers (R162) -/

/-- The group of a core. -/
def groupOf (s : State) (k : Nat) : Option Nat := (Tab.get (fun _ => ⟨none, false⟩) s.warp.cores k : CoreCfg).group

/-- Core k waits in GBAR. -/
def inGbar (s : State) (k : Nat) : Bool :=
  match (core s k).wait with
  | .barrier _ _ => true
  | .qwait _ _ g => g
  | _ => false

/-- Every member of group g waits in GBAR or is not ENABLED. -/
def gbarMet (s : State) (g : Nat) : Bool :=
  (List.range 32).all fun k => groupOf s k != some g || coreState s k != 1 || inGbar s k

/-- Release one waiting member: cause barrier for a core that also waits in QWAIT. -/
def gbarFree (g : Nat) (s : State) (k : Nat) : State :=
  if groupOf s k == some g && coreState s k == 1 then
    match (core s k).wait with
    | .barrier _ _ => endWait k s
    | .qwait w rd true => wakeCore 3 0 k (setCore s k { core s k with wait := .qwait w rd false })
    | _ => s
  else s

/-- Release the waiting members of the group of core k when its barrier is met. -/
def gbarCheck (k : Nat) (s : State) : State :=
  match groupOf s k with
  | none => s
  | some g => if gbarMet s g then (List.range 32).foldl (gbarFree g) s else s

/-! ### Queue interrupts (R175) -/

/-- Raise the vector of an armed queue with a host consumer whose fill has reached the threshold, and disarm it. -/
def qIrq (q : Nat) (s : State) : State :=
  let th := max 1 (s.fld (Reg.queueIrq q) 16 16)
  if qCons s q == 2 && s.bit (Reg.queueIrq q) 8 && s.bit (Reg.queueStatus q) 7 && decide (th ≤ qFill s q) then
    (s.raise (s.fld (Reg.queueIrq q) 0 8)).putB (Reg.queueStatus q) 7 false
  else s

/-- Rearm a queue's interrupt; it may be raised at once. -/
def qRearm (q : Nat) (s : State) : State := qIrq q (s.putB (Reg.queueStatus q) 7 true)

/-! ### Queue operations (R167 to R172) -/

/-- Release `n` elements. -/
def qRel (q n : Nat) (s : State) : State := qSync q (s.wr (Reg.queueHead q) (qHead s q + BitVec.ofNat 32 n))

/-- The selvedge takes the elements of its trigger queue as they are committed, where its consumer is an engine (R168,
R487; log entry 67). -/
def seedTake (q n : Nat) (s : State) : State :=
  match s.selv.safety with
  | none => s
  | some f => if f.seedTrigger = q ∧ qCons s q = 3 then qRel q n s else s

/-- What follows when the tail of a queue has advanced by `n`: interrupt, wakes, and the report to the selvedge. -/
def qCommitted (q n : Nat) (s : State) : State := seedTake q n (commitReport q n (wakeWatchers q (qIrq q (qSync q s))))

/-- Reserve `n` consecutive slots for a holder. -/
def qReserve (q n : Nat) (h : Holder) (s : State) : State :=
  let c := (qResv s q).toNat
  let new : List Slot := (List.range n).map fun i => ⟨(c + i) % 2 ^ 32, some h, false⟩
  qSync q ((setSlots s q (qSlots s q ++ new)).wrN (Reg.queueResv q) (c + n))

/-- Drop the committed slots at the front, and how many they were: the tail passes them (R170). -/
def passSlots : List Slot → Nat × List Slot
  | [] => (0, [])
  | x :: l => if x.committed then ((passSlots l).1 + 1, (passSlots l).2) else (0, x :: l)

/-- Commit slot counter c of a queue. -/
def qCommit (q c : Nat) (s : State) : State :=
  let l := (qSlots s q).map fun x => if x.ctr = c then { x with committed := true } else x
  let (n, rest) := passSlots l
  let s := setSlots s q rest
  if n = 0 then s else qCommitted q n (s.wr (Reg.queueTail q) (qTail s q + BitVec.ofNat 32 n))

/-- Core k holds the uncommitted slot c. -/
def holdsSlot (s : State) (k q c : Nat) : Bool :=
  (qSlots s q).any fun x => x.ctr == c && x.holder == some (.core k) && !x.committed

/-! ### Operations that wait in the queue engine (R169, R177, R178) -/

/-- Operation of the tile-queue field of a word, and the queue it names. -/
def waitOp (w : IWord) : Nat := fieldN w.toNat 336 6
def waitQ (w : IWord) : Nat := fieldN w.toNat 342 10

/-- Answer CLOSED to a QRES of core k that waits on queue q, counting it, and with `acq` to a QACQ. -/
def closeWait (q : Nat) (acq : Bool) (s : State) (k : Nat) : State :=
  match (core s k).wait with
  | .queue w false =>
    if waitQ w == q && (waitOp w == 1 || (acq && waitOp w == 3)) then
      setCore (if waitOp w = 1 then s.sat (Reg.queueRefused q) else s) k { core s k with wait := .queue w true }
    else s
  | _ => s
/-- Answer CLOSED to every core that waits in QRES on queue q, and with `acq` in QACQ. -/
def closeWaits (q : Nat) (acq : Bool) (s : State) : State := (List.range 32).foldl (closeWait q acq) s

/-- An ENABLED queue starts to drain: a QRES that waits on it returns CLOSED (R177). -/
def qLeave (q : Nat) (s : State) : State := closeWaits q false (s.putF (Reg.queueStatus q) 0 2 2)

/-- Start a queue as after power-up (R176). -/
def qStart (q : Nat) (s : State) : State :=
  let s := setSlots (((s.wr (Reg.queueHead q) 0).wr (Reg.queueTail q) 0).wr (Reg.queueResv q) 0) q []
  let s := ((s.putF (Reg.queueHwm q) 0 17 0).putB (Reg.queueStatus q) 7 true).putF (Reg.queueStatus q) 0 2 1
  qSync q s

/-- Flush a queue: every element and reservation is discarded, and the cores that wait on it return CLOSED (R178). -/
def qFlush (q : Nat) (s : State) : State :=
  closeWaits q true (qSync q (setSlots (((s.wr (Reg.queueHead q) 0).wr (Reg.queueTail q) 0).wr (Reg.queueResv q) 0) q []))

/-- A drain of a queue ends: OFF, where a QACQ that waits returns CLOSED, or ENABLED again with an enable pending (R56, R177). -/
def qDrained (q : Nat) (s : State) : State :=
  if s.bit (Reg.queueStatus q) 2 then qStart q (s.putB (Reg.queueStatus q) 2 false)
  else closeWaits q true (s.putF (Reg.queueStatus q) 0 2 0)

/-! ### Writes that the spec puts outside contract, whoever writes (R53, R158, R182, R366, R370) -/

/-- A write reaches a code region of an ENABLED core (R158). -/
def hitsCode (s : State) (a n : Nat) : Bool :=
  s.warp.code.any fun r => rangesMeet r (a, n) && (List.range 32).any fun k =>
    coreState s k == 1 && decide (max (max r.1 a) (localBase k) < min (min (r.1 + r.2) (a + n)) (localBase k + localSize))

/-- The queues whose tail has moved since power-up. -/
def movedQueues (s : State) : List Nat :=
  (s.regs.filter fun e => 0x80000 ≤ e.1 && e.1 < 0x90000 && e.1 % 0x40 == 0x1C).map fun e => (e.1 - 0x80000) / 0x40

/-- The writer, an agent of the memory system, is the consumer of queue q. -/
def consumes (s : State) (who : Agent) (q : Nat) : Bool :=
  match who with
  | .core k => qCons s q == 1 && s.fld (Reg.queueCfg q) 24 5 == k.val
  | .host => qCons s q == 2
  | _ => false

/-- A write reaches a slot of a ring between its commit and its release, and the writer is not the consumer, as `mine` says
(R182). -/
def hitsRing (s : State) (mine : Nat → Bool) (a n : Nat) : Bool :=
  (movedQueues s).any fun q => !mine q && (List.range (qFill s q)).any fun i =>
    rangesMeet (qSlot s q ((qHead s q).toNat + i), qEsize s q) (a, n)

/-- A write reaches a granule that has updates in a conflict queue (R370). -/
def hitsUpdate (s : State) (a n : Nat) : Bool :=
  s.cores.any fun c => c.2.arr.cq.any fun q => q.2.any fun u => decide (u.addr < a + n ∧ a < u.addr + 64)

/-- A write of an engine that is outside contract: its rule, if any; `own` are the queues whose consumer the engine is. -/
def engineOutside (s : State) (own : List Nat) (a n : Nat) : Option Nat :=
  if hitsStaging s a n then some 53 else if hitsCode s a n then some 158
  else if hitsRing s own.contains a n then some 182 else if hitsReads s a n then some 366 else none

/-- The fabric leaves its contract when a rule is broken. -/
def State.leaveIf (r : Option Nat) (s : State) : State :=
  match r with
  | some r => s.leave r
  | none => s

/-- The fabric leaves its contract when an engine writes where no engine may. -/
def engineGuard (own : List Nat) (a n : Nat) (s : State) : State :=
  s.leaveIf (match engineOutside s own a n with
    | some r => some r
    | none => if hitsUpdate s a n then some 370 else none)

/-- The intake, or an engine of a core, writes bytes that no region checker judges. -/
def putEngine (a : Nat) (bs : List Byte) (s : State) : State := (engineGuard [] a bs.length s).putBytes a bs

/-- An engine writes bytes with the identity of an agent. -/
def engWrite (own : List Nat) (ag : Agent) (a : Nat) (bs : List Byte) (s : State) : State :=
  if accessOk s ag true a bs.length then busWrite ag a bs (engineGuard own a bs.length s) else busWrite ag a bs s

/-- The issuer of an engine's writes of queue elements: the partition of the queue (R489). -/
def queueAgent (s : State) (q : Nat) : Agent :=
  match queuePart s q with
  | some p => if h : p < 8 then .part ⟨p, h⟩ else .host
  | none => .host

/-- The requester that the engines of an agent are at a channel. -/
def engineOf (ag : Agent) : Requester :=
  match ag with
  | .core k => .word k.val
  | .part p => .engine p.val
  | .chain => .engine 8
  | .host => .engine 9

/-- Accesses that an engine makes: the identity they carry, address and length. -/
abbrev EngRanges := List (Agent × Nat × Nat)

/-- Some meter has spent its budget for an access (R491). -/
def engMetered (s : State) (rs : EngRanges) : Bool := rs.any fun r => meterWaits s r.1 r.2.1 r.2.2
/-- Some channel cannot serve an access now (R382, R399). -/
def engHeld (s : State) (rs : EngRanges) : Bool := rs.any fun r => chanWaits s (engineOf r.1) r.2.1 r.2.2

/-- The accesses of an engine wait: for the next window of a spent meter (R491), or at their channels as ordinary accesses
(R382, R399). -/
def engWaits (s : State) (rs : EngRanges) : Bool := engMetered s rs || engHeld s rs
/-- What the wait of an engine's accesses leaves. -/
def engHold (rs : EngRanges) (s : State) : State :=
  if engMetered s rs then rs.foldl (fun s r => meterMark r.1 r.2.1 r.2.2 s) s
  else rs.foldl (fun s r => arrive (engineOf r.1) r.2.1 r.2.2 s) s
/-- The accesses of an engine wait no longer. -/
def engGo (rs : EngRanges) (s : State) : State := rs.foldl (fun s r => depart (engineOf r.1) s) s

/-- Accesses of an engine, and what follows them: while they wait, nothing does. -/
def engAccess (s : State) (rs : EngRanges) (f : State → Res State) : Res State :=
  if engWaits s rs then .next (engHold rs s) else f (engGo rs s)

/-- The slot that an engine writes when it commits an element to queue q, if it can. -/
def commitRange (s : State) (q : Nat) : EngRanges :=
  if decide (q < 1024) && qState s q == 1 && qProd s q == 3 && qFree s q != 0 then [(queueAgent s q, qSlot s q (qResv s q).toNat, qEsize s q)] else []

/-- The whole ring of queue q, for an engine that may commit several elements. -/
def ringRange (s : State) (q : Nat) : EngRanges :=
  if qState s q == 1 && qProd s q == 3 then [(queueAgent s q, s.rdQ (Reg.queueBase q) 2, qDepth s q * qEsize s q)] else []

/-- An engine writes one element with an identity and commits it: what happened (R177). An element is cut to the
element size. Refusals on an OFF or DRAINING queue count in QUEUE_REFUSED; on an UNUSED queue they do not. -/
def engCommitAs (ag : Agent) (q : Nat) (bs : List Byte) (s : State) : Bool × State :=
  if qState s q == 1 then
    if qProd s q == 3 && qFree s q != 0 then
      let c := (qResv s q).toNat
      let s := engWrite [] ag (qSlot s q c) (bs.take (qEsize s q)) s
      (true, qCommit q c (qReserve q 1 .engine s))
    else (false, s)
  else if qState s q == 3 then (false, s)
  else (false, s.sat (Reg.queueRefused q))

/-- An engine writes and commits an element with the partition of the queue (R489). -/
def engCommit (q : Nat) (bs : List Byte) (s : State) : Bool × State := engCommitAs (queueAgent s q) q bs s

/-- The bytes of the oldest element of a queue, if it holds one. -/
def qPeek (s : State) (q : Nat) : Option (List Byte) :=
  if qFill s q == 0 || qState s q == 3 then none
  else some (devRead (qSlot s q (qHead s q).toNat) (qEsize s q) s).1

/-- The address of the oldest element. -/
def qHeadAddr (s : State) (q : Nat) : Nat := qSlot s q (qHead s q).toNat

/-- The element that an engine reads when it takes from queue q. -/
def takeRange (s : State) (q : Nat) : EngRanges := if qFill s q == 0 then [] else [(queueAgent s q, qHeadAddr s q, qEsize s q)]

/-- The engine that consumes a queue reads its oldest element and releases it; the read is one of the memory the ring lies in
(R168, R375 to R379). -/
def qTake (q : Nat) (s : State) : State := qRel q 1 (devRead (qHeadAddr s q) (qEsize s q) s).2

end Sys2Proof.Machine
end

