-- ==== Sys2Proof/Machine/CoreCtl.lean ====
section
/-! DEFINITION. Starting, stopping and draining a core; its exceptions; DOZE and NAP; and the host's requests to cores and
queues (R149 to R189, R215 to R219, R246, R247). Taking an exception is `takeException`, the return from one
`returnFromException`. -/

namespace Sys2Proof.Machine

/-! ### Host writes and their gates -/

/-- A host access that a supply hold discards or aborts (R533). -/
def holdDiscard (s : State) : State := (s.sat Reg.hostHoldDiscards).putB Reg.hostStatus 5 true

/-- Where the register of a host write works: in the fabric, in the held domain (R28), in its time base, which TCLK does not
gate (R596), or in the selvedge. -/
inductive Dom where
  | fabric
  | held
  | time
  | selvedge
  deriving DecidableEq, Repr

/-- A waiting access of the host writes. -/
def accWrites : Access → Bool
  | .write _ => true
  | .read _ => false

/-- A posted write of the host waits at its channel. -/
def postedWaits (s : State) : Bool := s.host.waiting.any fun e => accWrites e.2

/-- A host write to a register: lost in reset, in a freeze, before BIST has completed (R35) and in D3hot (R508); in a supply
hold discarded and counted unless its block works then (R533). A write that needs a clock that is stopped (R597), or that
arrives behind a posted write that waits (R174), is not performed by this command: the sender gives it again when the part
takes it (log entry 29). -/
def hostWrite (d : Dom) (f : State → Res State) (s : State) : Res State :=
  if !s.up || !s.bistDone || s.host.d3hot then .next s
  else if s.inHold && d == .fabric then .next (holdDiscard s)
  else if s.clk != .running && (d == .fabric || d == .held) then .next s
  else if postedWaits s then .next s
  else f s

/-! ### Starting a core (R150, R248, R275, R283, R316, R364) -/

/-- Restore the registers of core k that a start clears. -/
def clearCoreRegs (k : Nat) (s : State) : State :=
  let b := Reg.coreCtrl k
  let s := [0, 1, 2, 3].foldl (fun s a => s.wr (b + 0x10008 + 0x10 * a) 0) s
  let s := (s.resetRange (b + 0x10104) (b + 0x10128))
  let s := [0, 1, 2, 3].foldl (fun s a => s.resetRange (b + 0x10200 + 0x20 * a) (b + 0x10214 + 0x20 * a)) s
  let s := (s.resetRange (b + 0x20004) (b + 0x20014)).resetRange (b + 0x30010) (b + 0x3002C)
  let s := [0, 1, 2, 3].foldl (fun s a => s.wrN (b + 0x10218 + 0x20 * a) (s.fld (b + 0x10300) 0 16)) s
  let st := s.rd (Reg.coreExcStatus k)
  s.wr (Reg.coreExcStatus k) (st &&& 4#32)

/-- Reserved slots that core k held are held by no one any more. -/
def dropHolds (k : Nat) (s : State) : State :=
  { s with slots := s.slots.map fun e => (e.1, e.2.map fun x => if x.holder = some (.core k) then { x with holder := none } else x) }

/-- Core k starts: start contents, S4 = `s4`, and SYNC with a reason (R150, R165, R550). -/
def coreStart (k s4 reason : Nat) (s : State) : State :=
  let p := (corePart s k).getD 0
  let c : CoreSt := CoreSt.start
  let c := { c with
    pc := BitVec.ofNat 64 (s.rdQ (Reg.coreEntry k) 2)
    pwr := s.rd (Reg.corePwr k)
    watch := (List.range 8).map fun i => s.rd (Reg.coreWatch0 k + 4 * i) }
  let c := (((c.setS 1 (BitVec.ofNat 64 k)).setS 2 (BitVec.ofNat 64 p)).setS 3 (BitVec.ofNat 64 (s.rdQ (Reg.coreArg k) 2))).setS 4 (BitVec.ofNat 64 s4)
  let s := clearCoreRegs k (dropHolds k (setCore s k c))
  let s := ((s.putF (Reg.coreStatus k) 0 2 1).putF (Reg.coreStatus k) 3 3 0).putB (Reg.coreStatus k) 6 false
  traceSync k reason c.pc.toNat s

/-! ### Draining a core (R57, R166, R247, R363) -/

/-- The queue operation a drain abandons: its address and queue. QWAIT names no one queue and records 0 (log entry 13). -/
def abandon (k : Nat) (pc : W64) (q : Nat) (s : State) : State :=
  ((s.putB (Reg.coreStatus k) 7 true).wrQ (Reg.coreAbandonPc k) 2 pc.toNat).wrN (Reg.coreAbandonQ k) q

/-- The arrays and the sparse unit of core k drain (R247, R363): operations that have not begun, tile queues and scatter
rows are discarded; sparse jobs are abandoned, and the updates in the conflict queues retire. -/
def drainArrays (k : Nat) (s : State) : State :=
  let c := core s k
  let s := setCore s k { c with
    arr := { c.arr with cmdq := [], cur := none, flight := [], tq := [], rows := [] }
    dma := c.dma.map fun d => if d.job.isSome then { d with lost := true } else d }
  [0, 1, 2, 3].foldl (fun s a => s.putF (Reg.arrayTq0 k + 0x10 * a) 0 4 0) (s.putF (Reg.arrayStatus k) 5 3 0)

/-- A drain of an ENABLED core begins (R57, R164, R166). A core in NAP does not wake. -/
def coreDrainBegin (k : Nat) (s : State) : State :=
  let c := core s k
  let s := s.putF (Reg.coreStatus k) 0 2 2
  let asleep := c.nap == .asleep
  let nap := asleep && corePower s k != 1
  let s := match c.wait with
    | .queue w _ => abandon k c.pc (fieldN w.toNat 342 10) s
    | .qwait w _ _ =>
      if nap then s
      else
        let s := wakeCause k 4 0 s
        let s := if asleep then traceResume k 4 0 (corePower s k) s else s
        abandon k w 0 s
    | .sleep _ _ =>
      if nap then s
      else
        let s := wakeCause k 4 0 s
        if asleep then traceResume k 4 0 (corePower s k) s else s
    | _ => s
  let s := if nap then s else (s.putF (Reg.coreStatus k) 3 3 0)
  let s := (setCore s k { core s k with wait := .none, nap := if nap then .asleep else .awake }).putB (Reg.coreStatus k) 6 false
  gbarCheck k (drainArrays k (depart (.word k) s))

/-- Core k has nothing outstanding: no DMA in flight and no update in its conflict queues. -/
def coreQuiet (s : State) (k : Nat) : Bool :=
  (core s k).dma.isEmpty && (core s k).arr.cq.isEmpty

/-- A slot of a drained core stays uncommitted and its queue shows a hole (R179). -/
def markHoles (k : Nat) (s : State) : State :=
  let qs := (s.slots.filter fun e => e.2.any fun x => x.holder == some (.core k) && !x.committed).map Prod.fst
  dropHolds k (qs.foldl (fun s q => s.putB (Reg.queueStatus q) 6 true) s)

/-- A core drain ends: STOP, holes, OFF, or ENABLED again with an enable pending (R56, R57, R551). -/
def coreDrainEnd (k : Nat) (s : State) : State :=
  let nap := (core s k).nap == .asleep
  let s := traceCore k 0x8 (codeAddr (s.rdQ (Reg.corePc k) 2) (if nap then 2 else 0)) s
  let s := markHoles k s
  if s.bit (Reg.coreStatus k) 2 then coreStart k 0 1 (s.putB (Reg.coreStatus k) 2 false)
  else ((s.putF (Reg.coreStatus k) 0 2 0).putF (Reg.coreStatus k) 3 3 4)

/-! ### Memory regions of a partition's rings (R180) -/

/-- The ring of a queue lies outside the regions of its partition (R180). -/
def ringOutside (s : State) (q : Nat) : Bool :=
  match queuePart s q with
  | none => true
  | some p => !inRegions s p (s.rdQ (Reg.queueBase q) 2) (qDepth s q * qEsize s q)

/-- The rule that puts the ring of a queue outside contract, if one does (R180, R181). -/
def ringFault (s : State) (q : Nat) : Option Nat :=
  if ringOutside s q then some 180
  else if (chansOf s (s.rdQ (Reg.queueBase q) 2) (qDepth s q * qEsize s q)).any fun c => chanState s c == 1 then some 181
  else none

/-! ### Requests to a switchable block (R55) -/

/-- The state after an enable request, by R55: what the state field and the pending bit become. `2` in the first place
stands for becoming ENABLED. -/
inductive Req where
  | nothing | start | latch | drain | unlatch
  deriving DecidableEq, Repr

/-- What an enable request does (R55). -/
def enableReq (state : Nat) (pending : Bool) : Req :=
  if state = 0 then .start else if state = 2 ∧ !pending then .latch else .nothing

/-- What a disable request does (R55). -/
def disableReq (state : Nat) (pending : Bool) : Req :=
  if state = 1 then .drain else if state = 2 ∧ pending then .unlatch else .nothing

/-! ### Commands: cores -/

/-- A block whose state field is `st` is enabled individually while its partition is OFF or DRAINING (R61). -/
def aloneOutside (s : State) (st : Nat) (p : Option Nat) : Bool :=
  st != 3 && match p with | none => true | some n => !ptEnabled s n

/-- CORE_ENABLE (R55, R61): an OFF core starts. -/
def execCoreEnable (k : CoreId) : State → Res State :=
  hostWrite .fabric fun s =>
    if aloneOutside s (coreState s k) (corePart s k) then oc 61
    else match enableReq (coreState s k) (s.bit (Reg.coreStatus k) 2) with
    | .start => .next (coreStart k 0 1 s)
    | .latch => .next (s.putB (Reg.coreStatus k) 2 true)
    | _ => .next s

/-- CORE_DISABLE (R55, R57): an ENABLED core drains. -/
def execCoreDisable (k : CoreId) : State → Res State :=
  hostWrite .fabric fun s =>
    match disableReq (coreState s k) (s.bit (Reg.coreStatus k) 2) with
    | .drain => .next (coreDrainBegin k s)
    | .unlatch => .next (s.putB (Reg.coreStatus k) 2 false)
    | _ => .next s

/-- CORE_WAKE_CMD (R164): a write of CORE_CTRL.wake. -/
def execCoreWakeCmd (k : CoreId) : State → Res State :=
  hostWrite .fabric fun s => onlyIf (coreState s k == 1) (wakeCore 2 0 k) s

/-- CORE_DRAIN_COMPLETE (R57). -/
def execCoreDrainComplete (k : CoreId) (s : State) : Res State :=
  onlyIf (s.cclk && coreState s k == 2 && coreQuiet s k && !(traced s k && fifoFull s k)) (coreDrainEnd k) s

/-! ### Commands: queues -/

/-- QUEUE_ENABLE (R55, R176, R61, R180). -/
def execQueueEnable (q : Fin 1024) : State → Res State :=
  hostWrite .fabric fun s =>
    if aloneOutside s (qState s q) (queuePart s q) then oc 61
    else match enableReq (qState s q) (s.bit (Reg.queueStatus q) 2) with
    | .start =>
      match ringFault s q with
      | some r => oc r
      | none => .next (qStart q s)
    | .latch => .next (s.putB (Reg.queueStatus q) 2 true)
    | _ => .next s

/-- QUEUE_DISABLE (R55, R177). -/
def execQueueDisable (q : Fin 1024) : State → Res State :=
  hostWrite .fabric fun s =>
    match disableReq (qState s q) (s.bit (Reg.queueStatus q) 2) with
    | .drain => .next (qLeave q s)
    | .unlatch => .next (s.putB (Reg.queueStatus q) 2 false)
    | _ => .next s

/-- QUEUE_FLUSH (R178): acts only while DRAINING. -/
def execQueueFlush (q : Fin 1024) : State → Res State :=
  hostWrite .fabric fun s => onlyIf (qState s q == 2) (qFlush q) s

/-- QUEUE_DRAIN_COMPLETE (R57): head, tail and resv are equal. -/
def execQueueDrainComplete (q : Fin 1024) (s : State) : Res State :=
  onlyIf (s.cclk && qState s q == 2 && qHead s q == qTail s q && qTail s q == qResv s q) (qDrained q) s

/-- A host doorbell or release that is discarded and flagged (R173). -/
def doorbellErr (q : Nat) (s : State) : State := s.putB (Reg.queueStatus q) 5 true

/-- Commit n slots from tail for the host (R173). -/
def hostCommit (q n : Nat) (s : State) : State :=
  qCommitted q n ((s.wr (Reg.queueResv q) (qResv s q + BitVec.ofNat 32 n)).wr (Reg.queueTail q) (qTail s q + BitVec.ofNat 32 n))

/-- QUEUE_DOORBELL (R173, R177): kind, then state, then fill. -/
def execQueueDoorbell (q : Fin 1024) (n : BitVec 17) : State → Res State :=
  hostWrite .fabric fun s =>
    if n = 0 then .next s
    else if qState s q == 3 || qProd s q != 2 then .next (doorbellErr q s)
    else if qState s q != 1 then .next (s.sat (Reg.queueRefused q))
    else if qDepth s q < qFill s q + n.toNat then .next (doorbellErr q s)
    else .next (hostCommit q n.toNat s)

/-- QUEUE_RELEASE (R173, R175): a release rearms the queue. One of 0 has no effect, and one that is discarded only sets
doorbell_err (log entry 74). -/
def execQueueRelease (q : Fin 1024) (n : BitVec 17) : State → Res State :=
  hostWrite .fabric fun s =>
    if n = 0 then .next s
    else if qState s q == 3 || qCons s q != 2 || decide (qFill s q < n.toNat) then .next (doorbellErr q s)
    else .next (qRearm q (qRel q n.toNat s))

/-- QUEUE_IRQ_WRITE (R60, R175): the register is written and the queue rearmed. -/
def execQueueIrqWrite (q : Fin 1024) (v : W32) : State → Res State :=
  hostWrite .fabric fun s =>
    if v &&& 0x0000FE00#32 ≠ 0 then oc 13
    else if qState s q = 2 then oc 60
    else .next (qRearm q (s.wr (Reg.queueIrq q) v))

/-! ### Commands: DOZE and NAP (R163 to R166, R246) -/

/-- Every array operation of core k is complete: none is queued, in progress or in flight, and no scattered row or update
is left (R359). -/
def arraysIdle (s : State) (k : Nat) : Bool :=
  (core s k).arr.cmdq.isEmpty && (core s k).arr.cur.isNone && (core s k).arr.flight.isEmpty
    && (core s k).arr.rows.isEmpty && (core s k).arr.cq.isEmpty

/-- IDLE_DOZE_EXPIRY (R163): a QWAIT that has been idle for idle_doze is to enter DOZE if DOZE is allowed. -/
def execIdleDozeExpiry (k : CoreId) (s : State) : Res State :=
  let c := core s k
  let idle := match c.wait with | .qwait _ _ _ => true | _ => false
  onlyIf (s.cclk && coreState s k == 1 && idle && c.nap == .awake && c.pwr.toNat.testBit 0)
    (fun s => setCore s k { c with nap := .wanted 1 }) s

/-- The address of the word a core sleeps in. -/
def sleepWord (c : CoreSt) : W64 :=
  match c.wait with
  | .qwait w _ _ => w
  | .sleep w _ => w
  | _ => c.pc

/-- LOW_POWER_ENTRY (R246, R545, R548): entry begins once the array operations are complete and its packet has room; the level
falls to 0. -/
def execLowPowerEntry (k : CoreId) (s : State) : Res State :=
  match (core s k).nap with
  | .wanted code =>
    onlyIf (s.cclk && coreState s k == 1 && arraysIdle s k && !(traced s k && fifoFull s k)) (fun s =>
      let c := core s k
      let w := (sleepWord c).toNat
      let s := if code = 1 then traceCore k 0x3 (codeAddr w 0) s
        else traceCore k 0x4 (codeAddr w (if code = 2 then 1 else 0)) s
      (setCore s k { c with nap := .entering code }).putF (Reg.arrayStatus k) 0 5 0) s
  | _ => .next s

/-- LOW_POWER_ENTRY_DONE (R246): CORE_STATUS.power shows the new state. -/
def execLowPowerEntryDone (k : CoreId) (s : State) : Res State :=
  match (core s k).nap with
  | .entering code =>
    onlyIf (s.cclk && coreState s k == 1)
      (fun s => (setCore s k { core s k with nap := .asleep }).putF (Reg.coreStatus k) 3 3 code) s
  | _ => .next s

/-- LOW_POWER_EXIT_DONE (R165): the core runs on, or restarts after NAP without retention. -/
def execLowPowerExitDone (k : CoreId) (s : State) : Res State :=
  onlyIf (s.cclk && coreState s k == 1 && (core s k).nap == .exiting) (fun s =>
    if corePower s k == 3 then coreStart k 1 2 s
    else endWait k ((s.putF (Reg.coreStatus k) 3 3 0).putF (Reg.arrayStatus k) 0 5 0)) s

end Sys2Proof.Machine
end

