-- ==== Sys2Proof/Machine/Operands.lean ====
section
/-! DEFINITION. The fields of the 512-bit instruction word and the operands they select
(06_instruction_word.md, R190 to R193), and the register results of one word. -/

namespace Sys2Proof.Machine

/-! ### Fields (R190) -/

/-- Bits [lo + n - 1 : lo] of the word. -/
def wfld (w : IWord) (lo n : Nat) : Nat := fieldN w.toNat lo n
/-- A field of WCTL. -/
def wctl (w : IWord) (lo n : Nat) : Nat := wfld w lo n
/-- A field of SCA, counted from its bit 0. -/
def scaF (w : IWord) (lo n : Nat) : Nat := wfld w (16 + lo) n
/-- A field of ADR. -/
def adrF (w : IWord) (lo n : Nat) : Nat := wfld w (80 + lo) n
/-- A field of VEC. -/
def vecF (w : IWord) (lo n : Nat) : Nat := wfld w (144 + lo) n
/-- A field of ARR. -/
def arrF (w : IWord) (lo n : Nat) : Nat := wfld w (240 + lo) n
/-- A field of TQ. -/
def tqF (w : IWord) (lo n : Nat) : Nat := wfld w (336 + lo) n
/-- A field of BR. -/
def brF (w : IWord) (lo n : Nat) : Nat := wfld w (400 + lo) n
/-- The shared long immediate, 48 bits (R192). -/
def immBits (w : IWord) : Nat := wfld w 464 48
/-- The long immediate sign-extended to 64 bits (R192). -/
def immS (w : IWord) : W64 := BitVec.ofInt 64 (signedN 48 (immBits w))

/-- Opcode of the SCA field. -/
def scaOp (w : IWord) : Nat := scaF w 0 8
/-- Opcode of the ADR field. -/
def adrOp (w : IWord) : Nat := adrF w 0 6
/-- Opcode of the VEC field. -/
def vecOp (w : IWord) : Nat := vecF w 0 10
/-- Opcode of the ARR field. -/
def arrOp (w : IWord) : Nat := arrF w 0 6
/-- Opcode of the TQ field. -/
def tqOp (w : IWord) : Nat := tqF w 0 6
/-- Opcode of the BR field. -/
def brOp (w : IWord) : Nat := brF w 0 5

/-- A word with `n` bits from bit `lo` replaced. -/
def setWf (w : IWord) (lo n v : Nat) : IWord :=
  let m := BitVec.ofNat 512 ((2 ^ n - 1) * 2 ^ lo)
  (w &&& ~~~m) ||| (BitVec.ofNat 512 (v * 2 ^ lo) &&& m)

/-- The word with a SCA opcode. -/
def withSca (op : Nat) (w : IWord) : IWord := setWf w 16 8 op
/-- The word with an ADR opcode. -/
def withAdr (op : Nat) (w : IWord) : IWord := setWf w 80 6 op
/-- The word with a VEC opcode. -/
def withVec (op : Nat) (w : IWord) : IWord := setWf w 144 10 op
/-- The word with an ARR opcode. -/
def withArr (op : Nat) (w : IWord) : IWord := setWf w 240 6 op
/-- The word with a TQ opcode. -/
def withTq (op : Nat) (w : IWord) : IWord := setWf w 336 6 op
/-- The word with a BR opcode. -/
def withBr (op : Nat) (w : IWord) : IWord := setWf w 400 5 op
/-- The word with no operation in any field (R191). -/
def withNone (w : IWord) : IWord := withBr 0 (withTq 0 (withArr 0 (withVec 0 (withAdr 0 (withSca 0 w)))))

/-! ### Register operands -/

/-- A V register. -/
def CoreSt.vreg (c : CoreSt) (i : Nat) : VReg := Tab.get (fun _ => 0) c.v i
/-- Write a V register. -/
def CoreSt.setV (c : CoreSt) (i : Nat) (v : VReg) : CoreSt := { c with v := Tab.set (fun _ => 0) c.v i v }
/-- A P register. -/
def CoreSt.preg (c : CoreSt) (i : Nat) : PReg := Tab.get (fun _ => 0) c.p i
/-- Write a P register. -/
def CoreSt.setP (c : CoreSt) (i : Nat) (v : PReg) : CoreSt := { c with p := Tab.set (fun _ => 0) c.p i v }

/-- The register results of one field of a word. -/
structure Writes where
  s : List (Nat × W64)
  v : List (Nat × VReg)
  p : List (Nat × PReg)
  deriving DecidableEq, Repr

/-- No register result. -/
def Writes.none : Writes := ⟨[], [], []⟩
/-- One S result. -/
def Writes.ofS (i : Nat) (x : W64) : Writes := ⟨[(i, x)], [], []⟩
/-- One V result. -/
def Writes.ofV (i : Nat) (x : VReg) : Writes := ⟨[], [(i, x)], []⟩
/-- One P result. -/
def Writes.ofP (i : Nat) (x : PReg) : Writes := ⟨[], [], [(i, x)]⟩

/-- Write the results of one field; a later call overwrites an earlier one (R195). -/
def CoreSt.apply (c : CoreSt) (w : Writes) : CoreSt :=
  let c := w.s.foldl (fun c e => c.setS e.1 e.2) c
  let c := w.v.foldl (fun c e => c.setV e.1 e.2) c
  w.p.foldl (fun c e => c.setP e.1 e.2) c

/-- The bytes of a V register, lane 0 first (R7). -/
def vBytes (v : VReg) : List Byte := natLe 512 v.toNat
/-- A V register of bytes. -/
def vOfBytes (bs : List Byte) : VReg := BitVec.ofNat 4096 (leNat bs)

end Sys2Proof.Machine
end

