-- ==== Sys2Proof/Machine/Address.lean ====
section
/-! DEFINITION. The address field: loads, stores, the issue of DMA transfers and their completion
(06_instruction_word.md R203, R204; 05_cores_and_queues.md R155 to R162; 08_array_operations_and_faults.md R268 to R270;
11_sparse_execution.md R346). -/

namespace Sys2Proof.Machine

/-! ### Encoding -/

/-- Every opcode the address table lists. -/
def adrListed (op : Nat) : Bool :=
  op ≤ 7 || (8 ≤ op && op ≤ 0x0B) || op == 0x10 || op == 0x11 || op == 0x14 || op == 0x15 || op == 0x18 || op == 0x20 || op == 0x22

/-- The address field raises ILLEGAL (R204): an unlisted opcode or upd = 3. -/
def adrIllegal (w : IWord) : Bool := !adrListed (adrOp w) || (adrOp w != 0 && adrF w 35 3 ≥ 3)

/-- The address field holds a non-zero bit that its table marks 0 (R223). -/
def adrReserved (w : IWord) : Bool := adrOp w != 0 && adrF w 38 26 != 0

/-- The byte offset: IMM or the signed off13. -/
def adrOffset (w : IWord) : W64 :=
  if adrF w 21 1 = 1 then immS w else BitVec.ofInt 64 (signedN 13 (adrF w 22 13))

/-- The effective address and the updated base (R203). -/
def adrEa (w : IWord) (c : CoreSt) : W64 × W64 :=
  let base := c.sreg (adrF w 11 5)
  let sum := base + adrOffset w
  match adrF w 35 3 with
  | 0 => (sum, base)
  | 1 => (base, sum)
  | _ => (sum, sum)

/-- Bytes an operation accesses, 0 for none. -/
def adrBytes (op : Nat) : Nat :=
  match op with
  | 0x01 => 1 | 0x02 => 2 | 0x03 => 4 | 0x04 => 8
  | 0x05 => 1 | 0x06 => 2 | 0x07 => 4
  | 0x08 => 1 | 0x09 => 2 | 0x0A => 4 | 0x0B => 8
  | 0x10 => 512 | 0x11 => 512 | 0x14 => 64 | 0x15 => 64
  | 0x20 => 48
  | _ => 0

/-- The alignment an operation needs (R204). -/
def adrAlign (op : Nat) : Nat := if adrBytes op ≤ 8 then max 1 (adrBytes op) else 8

/-- The operation stores. -/
def adrStores (op : Nat) : Bool := (8 ≤ op && op ≤ 0x0B) || op == 0x11 || op == 0x15

/-- The address field raises MISALIGN (R204). -/
def adrMisaligned (w : IWord) (c : CoreSt) : Bool := (adrEa w c).1.toNat % adrAlign (adrOp w) != 0

/-- The bytes a store writes. -/
def adrData (w : IWord) (c : CoreSt) : List Byte :=
  let rb := adrF w 16 5
  match adrOp w with
  | 0x11 => vBytes (c.vreg rb)
  | 0x15 => natLe 64 (c.preg (rb % 8)).toNat
  | op => natLe (adrBytes op) (c.sreg rb).toNat

/-- The result a load writes from the bytes it read. -/
def adrLoaded (w : IWord) (bs : List Byte) : Writes :=
  let rd := adrF w 6 5
  let v := leNat bs
  match adrOp w with
  | 0x05 => .ofS rd (BitVec.ofInt 64 (signedN 8 v))
  | 0x06 => .ofS rd (BitVec.ofInt 64 (signedN 16 v))
  | 0x07 => .ofS rd (BitVec.ofInt 64 (signedN 32 v))
  | 0x10 => .ofV rd (vOfBytes bs)
  | 0x14 => .ofP (rd % 8) (BitVec.ofNat 512 v)
  | _ => .ofS rd (BitVec.ofNat 64 v)

/-! ### What makes a write outside contract (R53, R158, R182, R366, R370, R385) -/

/-- A write reaches a command port that is not the writer's own (R385). -/
def hitsPort (who : Agent) (a n : Nat) : Bool :=
  (List.range (n / 0x1000 + 2)).any fun i =>
    let p := a / 0x1000 * 0x1000 + i * 0x1000
    inWin p && decide (p < a + n) && decide (p % 0x100000 < 0x20000) &&
      match who with
      | .core k => p % 0x100000 / 0x1000 != k.val
      | _ => true

/-- A write of a byte range by an agent of the fabric that the spec puts outside contract: its rule, if any. A write that
the region checker discards is not performed (R490), so it is not one of them. -/
def writeOutside (s : State) (who : Agent) (a n : Nat) : Option Nat :=
  if !accessOk s who true a n then none
  else if hitsStaging s a n then some 53 else if hitsCode s a n then some 158
  else if hitsRing s (consumes s who) a n then some 182
  else if hitsReads s a n then some 366 else if hitsUpdate s a n then some 370 else if hitsPort who a n then some 385 else none

/-! ### DMA: issue (R159, R160, R268 to R270, R346) -/

/-- The enabled transpose window an address lies in: its base, size and element size in bytes. -/
def transposeAt (s : State) (a : Nat) : Option (Nat × Nat × Nat) :=
  (List.range 64).findSome? fun i =>
    let b := Reg.coreTwin0Base (i / 2) + 0x10 * (i % 2)
    let base := s.rdQ b 2
    let size := s.fld (b + 8) 0 24
    if s.bit (b + 12) 0 && decide (base ≤ a ∧ a < base + size) then some (base, size, 2 ^ s.fld (b + 12) 1 2) else none

/-- An address lies in the enabled sparse window of core k (R345). -/
def inSparseWin (s : State) (k a : Nat) : Bool :=
  let b := Reg.sparseWinBase k
  s.bit (b + 0xC) 0 && decide (s.rdQ b 2 ≤ a ∧ a < s.rdQ b 2 + s.fld (b + 8) 0 24)

/-- The transfer a 48-byte descriptor describes. -/
def dmaOf (bs : List Byte) : Dma :=
  { src := leAt bs 0 8, dst := leAt bs 8 8, rowLen := leAt bs 0x10 4, rows := leAt bs 0x14 4
    srcStride := leAt bs 0x18 4, dstStride := leAt bs 0x1C 4, cmplQ := leAt bs 0x20 2
    bcast := (leAt bs 0x22 2).testBit 0, tag := BitVec.ofNat 32 (leAt bs 0x24 4)
    transpose := none, job := none, ran := none, lost := false, written := false }

/-- The byte ranges a transfer reads. -/
def dmaSrcRows (d : Dma) : List (Nat × Nat) := (List.range d.rows).map fun i => (d.src + i * d.srcStride, d.rowLen)

/-- The byte ranges a transfer writes: rows, or in a transpose window its elements (R268). -/
def dmaDstRows (d : Dma) : List (Nat × Nat) :=
  match d.transpose with
  | none => (List.range d.rows).map fun i => (d.dst + i * d.dstStride, d.rowLen)
  | some z => (List.range (d.rowLen / z)).map fun j => (d.dst + j * d.dstStride, d.rows * z)

/-- The members of the group of core k that are ENABLED, k alone where it has none (R162). -/
def bcastCores (s : State) (k : Nat) : List Nat :=
  match groupOf s k with
  | none => [k]
  | some g => (List.range 32).filter fun i => groupOf s i == some g && coreState s i == 1

/-- The destinations of a transfer: its own, or with the broadcast flag the same offset in every member (R162). -/
def dmaDsts (s : State) (k : Nat) (d : Dma) : List Nat :=
  if d.bcast then (bcastCores s k).map fun m => localBase m + (d.dst - onDieBase) % localSize else [d.dst]

/-- The byte ranges a transfer writes in every destination. -/
def dmaWrites (s : State) (k : Nat) (d : Dma) : List (Nat × Nat) :=
  (dmaDsts s k d).flatMap fun x => dmaDstRows { d with dst := x }

/-- A transfer reads what it writes, in one of its destinations (R160). -/
def dmaMeets (s : State) (k : Nat) (d : Dma) : Bool := (dmaSrcRows d).any fun x => (dmaWrites s k d).any (rangesMeet x)

/-- What makes a transfer of core k outside contract at its issue: overlap (R160), a misused transpose window (R270), an
address that is not decoded (R15). -/
def dmaOutside (s : State) (k : Nat) (d : Dma) : Option Nat :=
  if (dmaSrcRows d).any (fun r => !decodedRange r.1 r.2) || (dmaWrites s k d).any (fun r => !decodedRange r.1 r.2) then some 15
  else if dmaMeets s k d then some 160
  else match transposeAt s d.dst, d.transpose with
    | some (b, z, _), some e =>
      if d.rowLen % e ≠ 0 ∨ d.dstStride < d.rows * e ∨ d.bcast
          ∨ (dmaDstRows d).any (fun r => !decide (b ≤ r.1 ∧ r.1 + r.2 ≤ b + z)) then some 270 else none
    | _, _ => none

/-- Issue the DMA of core k whose descriptor lies at the effective address: a transfer, or a sparse job when its source
lies in the core's sparse window (R159, R346). -/
def dmaIssue (k : CoreId) (ea : Nat) (s : State) : Res State :=
  let (bs, s) := busRead (.core k) ea 48 s
  let d := dmaOf bs
  if inSparseWin s k d.src then
    if !decodedRange d.src 128 then oc 15
    else
      let (js, s) := busRead (.core k) d.src 128 s
      .next ((setCore s k { core s k with dma := (core s k).dma ++ [{ d with job := some js }] }).putB (Reg.sparseStatus k) 0 true)
  else
    let d := { d with transpose := (transposeAt s d.dst).map fun t => t.2.2 }
    match dmaOutside s k d with
    | some r => oc r
    | none => .next (setCore s k { core s k with dma := (core s k).dma ++ [d] })

/-! ### DMA: completion (R157, R159, R162) -/

/-- Copy one row of a transfer, with the identity of its core. Writes to companion memory that a supply hold dropped do
not take place (R531). -/
def dmaRow (k : CoreId) (d : Dma) (dst : Nat) (i : Nat) (s : State) : State :=
  let (bs, s) := busRead (.core k) (d.src + i * d.srcStride) d.rowLen s
  if d.lost && inComp dst then s
  else match d.transpose with
    | none => busWrite (.core k) (dst + i * d.dstStride) bs s
    | some z => (List.range (d.rowLen / z)).foldl (fun s j => busWrite (.core k) (dst + j * d.dstStride + i * z) (slice bs (j * z) z) s) s

/-- Copy every row to one destination. -/
def dmaCopy (k : CoreId) (d : Dma) (s : State) (dst : Nat) : State :=
  (List.range d.rows).foldl (fun s i => dmaRow k d dst i s) s

/-- The completion element of a transfer: tag and abandon flag (R159). -/
def dmaElement (d : Dma) : List Byte := natLe 8 (d.tag.toNat + (if d.lost then 2 ^ 32 else 0))

/-- Commit the completion element, if the transfer names a queue. -/
def dmaCommit (d : Dma) (s : State) : State :=
  if d.cmplQ < 1024 then (engCommit d.cmplQ (dmaElement d) s).2 else s

/-- Transfer number i of core k ends: its completion element is committed (R159). -/
def dmaEnd (k i : Nat) (d : Dma) (s : State) : State :=
  dmaCommit d (setCore s k { core s k with dma := (core s k).dma.eraseIdx i })

/-- Make every write of transfer number i. It ends then, unless commands that it submitted wait to be accepted (R387). -/
def dmaWrite (k : CoreId) (i : Nat) (d : Dma) (s : State) : State :=
  let s := depart (.dma k d.src d.dst) ((dmaDsts s k d).foldl (dmaCopy k d) s)
  let s := pmcCount 0x0B k (d.rowLen * d.rows) s
  if inWin d.dst && portWaits s k then setCore s k { core s k with dma := (core s k).dma.set i { d with written := true } }
  else dmaEnd k i d s

/-- DMA_COMPLETE (R159): transfer number `i` of core k, counted from the oldest, finishes: every write, then its
completion element. It waits for what the channels it touches, and that of its completion queue, have to serve first. -/
def execDmaComplete (k : CoreId) (i : Nat) (s : State) : Res State :=
  if !s.cclk then .next s
  else match (core s k).dma[i]? with
    | none => .next s
    | some d =>
      if d.job.isSome then .next s
      else if d.written then
        if portWaits s k then .next s else engAccess s (commitRange s d.cmplQ) fun s => .next (dmaEnd k i d s)
      else
        let rs := dmaSrcRows d ++ dmaDstRows d
        if rs.any (fun r => meterWaits s (.core k) r.1 r.2) then .next (rs.foldl (fun s r => meterMark (.core k) r.1 r.2 s) s)
        else if rs.any (fun r => portHolds s k r.1 r.2) then .next s
        else if rs.any (fun r => chanWaits s (.dma k d.src d.dst) r.1 r.2) then
          .next (rs.foldl (fun s r => arrive (.dma k d.src d.dst) r.1 r.2 s) s)
        else if dmaMeets s k d then oc 160
        else match (dmaWrites s k d).findSome? (fun r => writeOutside s (.core k) r.1 r.2) with
          | some r => oc r
          | none => engAccess s (commitRange s d.cmplQ) fun s => .next (dmaWrite k i d s)

/-! ### The field in a word -/

/-- The address field cannot issue yet (R198, R159, R157, R491, R399): the seventeenth DMA, a FENCE with stores or
transfers outstanding, or a channel that cannot serve the access. -/
def adrWaits (k : CoreId) (w : IWord) (s : State) : Bool :=
  let c := core s k
  let ea := (adrEa w c).1.toNat
  let n := adrBytes (adrOp w)
  (adrOp w == 0x20 && decide (16 ≤ c.dma.length))
    || (adrOp w == 0x22 && (!c.dma.isEmpty || portWaits s k))
    || (n != 0 && (meterWaits s (.core k) ea n || portHolds s k ea n || chanWaits s (.word k) ea n))

/-- The memory effect of the address field and its register results (R196): base update first, then a loaded value. -/
def adrEffect (k : CoreId) (w : IWord) (entry : CoreSt) (s : State) : Res (Writes × State) :=
  let op := adrOp w
  let (ea, base) := adrEa w entry
  let upd : Writes := if adrF w 35 3 = 0 then .none else .ofS (adrF w 11 5) base
  let a := ea.toNat
  let n := adrBytes op
  if op = 0 then .next (.none, s)
  else if op = 0x18 ∨ op = 0x22 then .next (upd, s)
  else if !decodedRange a n then oc15
  else if op = 0x20 then
    match dmaIssue k a s with
    | .next s => .next (upd, s)
    | .outside r => .outside r
  else if adrStores op then
    match writeOutside s (.core k) a n with
    | some r => .outside r
    | none => .next (upd, busWrite (.core k) a (adrData w entry) s)
  else
    let (bs, s) := busRead (.core k) a n s
    let l := adrLoaded w bs
    .next (⟨upd.s ++ l.s, l.v, l.p⟩, s)
where
  /-- An address that is not decoded (R15). -/
  oc15 : Res (Writes × State) := .outside 15

end Sys2Proof.Machine
end

