-- ==== Sys2Proof/Machine/Arrays.lean ====
section
/-! DEFINITION. The matrix arrays: issue into the command queues, the steps, drains, checks and scatter
(07_matrix_arrays.md, 08_array_operations_and_faults.md, 11_sparse_execution.md R354 to R362). -/

namespace Sys2Proof.Machine

/-! ### Access (R226) -/

/-- What an accumulator element holds at the start of the core. -/
def elem0 : Nat → Elem := fun _ => .word 0

/-- Replace the arrays of a core; ARRAY_STATUS.busy follows. -/
def setArr (k : Nat) (a : Arrays) (s : State) : State :=
  let s := setCore s k { core s k with arr := a }
  s.putB (Reg.arrayStatus k) 5 (!(a.cmdq.isEmpty && a.cur.isNone && a.flight.isEmpty))

/-- The arrays of a core. -/
def arrs (s : State) (k : Nat) : Arrays := (core s k).arr
/-- Presented width of array a of core k. -/
def arrWidth (s : State) (k a : Nat) : Nat := s.fld (Reg.arrayWidth0 k + 0x10 * a) 0 8
/-- The core has the shared coupling (R183). -/
def sharedReg (s : State) (k : Nat) : Bool := (Tab.get (fun _ => ⟨none, false⟩) s.warp.cores k : CoreCfg).shared
/-- The arrays of a mask, ascending. -/
def maskArrs (m : Nat) : List Nat := bitsOf 4 m
/-- What has written an array since its last clear. -/
def ckOf (s : State) (k a : Nat) : CkState := Tab.get (fun _ => CkState.clear) (arrs s k).ck a
/-- Tile queue of an array. -/
def tqOf (s : State) (k a : Nat) : List Tile := Tab.get (fun _ => []) (arrs s k).tq a
/-- Key of accumulator element (r, c) of array a. -/
def elemKey (a r c : Nat) : Nat := 4096 * a + 128 * r + c

/-- The word of a 32-bit element. -/
def Elem.w32 : Elem → W32
  | .word b => b.setWidth 32
  | .wide x => toF32 x

/-- The pair word of a multi-word element: 64-bit integers, or hi and lo of an FP32 sum (R258, R260). -/
def Elem.w64 : Elem → W64
  | .word b => b
  | .wide x =>
    let hi := toF32 x
    toF32 (x.add 0 (f32 hi).neg) ++ hi

/-! ### Formats of an operation (R227, R257, R258) -/

/-- A multi-word operation: INT16 or FP32 operands. -/
def isPaired (fmt : Nat) : Bool := fmt == 1 || fmt == 9
/-- A complex pass. -/
def isComplex (pass : Nat) : Bool := 8 ≤ pass
/-- Formats of single-pass operation (R227). -/
def singleFmt (fmt : Nat) : Bool := fmt == 0 || fmt == 0xB || fmt == 4 || (5 ≤ fmt && fmt ≤ 8) || fmt == 0xA
/-- The accumulator of a format is floating. -/
def fltAcc (fmt : Nat) : Bool := (5 ≤ fmt && fmt ≤ 0xA)

/-- Bytes of an activation column (R230, R258). -/
def colBytes (fmt : Nat) : Nat := 32 * elemBits fmt / 8
/-- Bytes of a weight row (R230, R258). -/
def rowBytes (fmt : Nat) : Nat := (if isPaired fmt then 64 else 128) * elemBits fmt / 8

/-- fmt, eop and pass of an operation are defined (R249, R256, R257, R265, R267): the rule broken, if any. -/
def fmtOutside (op : AOp) (fmt eop pass : Nat) : Option Nat :=
  let okPass := if fmt = 1 then pass ≤ 1 else if fmt = 9 then pass ≤ 2
    else pass = 0 || (8 ≤ pass && pass ≤ 11 && (fmt == 0 || fmt == 7 || fmt == 8))
  if !singleFmt fmt && !isPaired fmt then some 249
  else match op with
    | .aout =>
      if !okPass || ((isPaired fmt || isComplex pass) && eop != 0) then some 257
      else if eop ≠ 0 ∧ fmt = 0xA then some 256 else none
    | .arow => if isPaired fmt || pass ≠ 0 then some 257 else if eop ≠ 0 ∧ fmt = 0xA then some 256 else none
    | .awld => if isPaired fmt || pass ≠ 0 then some 257 else none
    | .aclr => if !okPass || ((isPaired fmt || isComplex pass) && eop != 0) then some 257 else none
    | .adrain => if okPass then none else some 257
    | .tstep => if isPaired fmt || eop ≠ 0 then some 257 else if fmt = 0xA then some 267 else none
    | .wread => if isPaired fmt || eop ≠ 0 then some 257 else none


/-! ### Element operations (R228, R252 to R254, R332) -/

/-- The value of a floating operand, with the shared exponent of a BS8 block (R332). -/
def opVal (fmt bits exp : Nat) : FVal :=
  match floatFmt fmt with
  | some f => f.decode bits
  | none => if exp = 255 then .nan else (FVal.ofInt (signedN 8 bits)).scale ((exp : Int) - 127)

/-- The integer value of an operand. -/
def opInt (fmt bits : Nat) : Int :=
  match intFmt fmt with
  | some i => i.val bits
  | none => 0

/-- a ⊗ b on integers. -/
def intTerm (eop : Nat) (a b : Int) : Int :=
  match eop with
  | 1 => (a - b).natAbs
  | 2 => (a - b) * (a - b)
  | 3 => a + b
  | 5 => if a = b then 1 else 0
  | _ => a * b

/-- acc ⊕ x on INT32. -/
def intComb (eop : Nat) (acc x : Int) : Int :=
  let x := signedN 32 (wrapN 32 x)
  match eop with
  | 3 => min acc x
  | 4 => max acc x
  | _ => acc + x

/-- min and max in which NaN stays and −0 lies below +0 (R253). -/
def fltMin (a b : FVal) : FVal := if a.isNan || b.isNan then .nan else if a.ltz b then a else b
/-- As `fltMin`. -/
def fltMax (a b : FVal) : FVal := if a.isNan || b.isNan then .nan else if a.ltz b then b else a

/-- a ⊗ b on floating operands, before the rounding of ⊕. -/
def fltTerm (eop : Nat) (a b : FVal) : FVal :=
  let r (x : FVal) : FVal := f32 (toF32 x)
  match eop with
  | 1 => (r (a.add 0 b.neg)).abs
  | 2 => let d := r (a.add 0 b.neg); d.mul d
  | 3 => r (a.add 0 b)
  | 4 => r (a.mul b)
  | 5 => if a.eqv b then .fin false 1 0 else .fin false 0 0
  | _ => a.mul b

/-- acc ⊕ x in FP32. -/
def fltComb (eop : Nat) (acc x : FVal) : W32 :=
  match eop with
  | 3 => toF32 (fltMin acc x)
  | 4 => toF32 (fltMax acc x)
  | _ => toF32 (acc.add 0 x)

/-- The accumulator after one term: the term itself when it replaces the accumulator (R254). -/
def accTerm (fmt eop : Nat) (replace : Bool) (acc : W32) (xi : Int) (xf : FVal) : W32 :=
  if fltAcc fmt then (if replace then toF32 xf else fltComb eop (f32 acc) xf)
  else BitVec.ofInt 32 (if replace then xi else intComb eop acc.toInt xi)

/-- One operand pair added to an accumulator. -/
def cell (fmt eop : Nat) (replace : Bool) (acc : W32) (a ax b bx : Nat) : W32 :=
  if fltAcc fmt then accTerm fmt eop replace acc 0 (fltTerm eop (opVal fmt a ax) (opVal fmt b bx))
  else accTerm fmt eop replace acc (intTerm eop (opInt fmt a) (opInt fmt b)) .nan

/-! ### Multi-word and complex products (R259 to R261) -/

/-- Round to 48 significant bits, to nearest even. -/
def round48 : FVal → FVal
  | .fin s m e =>
    if m.log2 < 48 then .fin s m e
    else let k := m.log2 - 47; .fin s (roundShift 0 s m k) (e + k)
  | x => x

/-- An FP32 multi-word accumulator. -/
def Elem.val : Elem → FVal
  | .wide x => x
  | .word _ => .fin false 0 0

/-- One term of an INT16 pass on a pair accumulator. -/
def pairInt (pass : Nat) (replace : Bool) (acc : Elem) (a w : Nat) : Elem :=
  let ai := signedN 16 a
  let x := if pass = 0 then ((a % 256 : Nat) : Int) * signedN 16 w else ai / 256 * signedN 16 w * 256
  .word (if replace then BitVec.ofInt 64 x else acc.w64 + BitVec.ofInt 64 x)

/-- Limb p of a significand, with its scale. -/
def limb (p : Nat) : FVal → FVal
  | .fin s m e => .fin s (m / 2 ^ (8 * p) % 256) (e + 8 * p)
  | x => x

/-- One term of an FP32 pass on a pair accumulator. -/
def pairFlt (pass : Nat) (replace : Bool) (acc : Elem) (a w : Nat) : Elem :=
  let x := fp32.decode a
  let y := fp32.decode w
  let special := x.isNan || x.isInf || y.isNan || y.isInf
  if pass = 0 then
    let t := if special then x.mul y else (limb 0 x).mul y
    .wide (round48 (if replace then t else acc.val.add 0 t))
  else if special then (if replace then .wide (.fin false 0 0) else acc)
  else if acc.val.isNan || acc.val.isInf then (if replace then .wide (round48 ((limb pass x).mul y)) else acc)
  else .wide (round48 (if replace then (limb pass x).mul y else acc.val.add 0 ((limb pass x).mul y)))

/-- The weight routed to a column of a complex pass: whether it is negated, and which of the pair (R261). -/
def route (pass c : Nat) : Bool × Nat :=
  match pass % 4, c % 2 with
  | 0, 0 => (false, c)
  | 0, _ => (false, c)
  | 1, 0 => (true, c + 1)
  | 1, _ => (false, c - 1)
  | 2, 0 => (false, c)
  | 2, _ => (true, c)
  | _, 0 => (false, c + 1)
  | _, _ => (false, c - 1)

/-- One operand pair of a complex pass. -/
def complexCell (fmt pass c : Nat) (replace : Bool) (acc : W32) (a : Nat) (w : List Nat) : W32 :=
  let (neg, i) := route pass c
  let b := w.getD i 0
  if fltAcc fmt then
    let x := opVal fmt b 0
    accTerm fmt 0 replace acc 0 ((opVal fmt a 0).mul (if neg then x.neg else x))
  else accTerm fmt 0 replace acc (opInt fmt a * (if neg then -(opInt fmt b) else opInt fmt b)) .nan

/-! ### Operands (R230, R258, R354) -/

/-- Elements of a byte string by type. -/
def elemsOf (fmt n : Nat) (bs : List Byte) : List Nat :=
  (List.range n).map fun i => bitsAt bs (i * elemBits fmt) (elemBits fmt)

/-- Bytes of the activations of an operation, from offset o: the local store, or V registers as the word found them
(R194, R230). -/
def actBytes (p : ArrOp) (o n : Nat) (s : State) : List Byte :=
  if p.srcV then slice p.vact o n else s.bytes (p.sa + o) n

/-- Element i of one gathered row: zeros for a null pair (R354). -/
def gatherElem (k : CoreId) (g : Gather) (fmt i : Nat) (acc : List Nat × State) (pr : Nat × Nat) : List Nat × State :=
  if pr.1 = 0xFFFFFFFF then (acc.1 ++ [0], acc.2)
  else
    let b := elemBits fmt
    let (bs, s) := busRead (.core k) (g.featBase + pr.1 * g.featStride + g.chanOff + i * b / 8) ((b + 7) / 8) acc.2
    (acc.1 ++ [bitsAt bs (i * b % 8) b], s)

/-- The activation column of step i: 32 elements and the exponent of a BS8 column. -/
def actCol (k : CoreId) (p : ArrOp) (i : Nat) (s : State) : List Nat × Nat × State :=
  match p.gather with
  | some g => let (l, s) := g.pairs.foldl (gatherElem k g p.fmt i) ([], s); (l, 0, s)
  | none =>
    let ca := colBytes p.fmt
    let x := if p.fmt = 0xA then leNat (actBytes p (p.n * ca + i) 1 s) else 0
    (elemsOf p.fmt 32 (actBytes p (i * ca) ca s), x, s)

/-- The weight row of step i for the array of rank j, and the exponents of a BS8 row. -/
def wgtRow (p : ArrOp) (i j : Nat) (s : State) : List Nat × List Nat :=
  let na := (maskArrs p.amask).length
  let cw := rowBytes p.fmt
  let bs := s.bytes (p.sw + (i * na + j) * cw) cw
  let xs := if p.fmt = 0xA then (s.bytes (p.sw + p.n * na * cw + (i * na + j) * 4) 4).map BitVec.toNat else []
  (elemsOf p.fmt (if isPaired p.fmt then 64 else 128) bs, xs)

/-! ### Steps -/

/-- Change the accumulator elements of array a, its checksum row by column and its checksum column by row. -/
def mapAcc (k a : Nat) (f : Nat → Nat → Elem → Elem) (row col : Nat → Elem → Elem) (s : State) : State :=
  let x := arrs s k
  setArr k
    { x with
      acc := Tab.update elem0 (fun i e => f (i % 4096 / 128) (i % 128) e) (4096 * a) 4096 x.acc
      ckRow := Tab.update elem0 (fun i e => row (i % 128) e) (128 * a) 128 x.ckRow
      ckCol := Tab.update elem0 (fun i e => col (i % 32) e) (32 * a) 32 x.ckCol } s

/-- An operand of a step, as the checkers sum it. -/
def numOf (fmt bits exp : Nat) : Num := ⟨opInt fmt bits, opVal fmt bits exp⟩
/-- The exact sum of a list of operands. -/
def Num.sum (l : List Num) : Num := l.foldl (fun a x => ⟨a.int + x.int, a.flt.add 0 x.flt⟩) Num.zero
/-- The exact product of two operands. -/
def Num.mul (a b : Num) : Num := ⟨a.int * b.int, a.flt.mul b.flt⟩
/-- The opposite. -/
def Num.neg (a : Num) : Num := ⟨-a.int, a.flt.neg⟩
/-- A checksum element after one term: a checksum cell accumulates as the other cells do (R226, R228). -/
def ckTerm (fmt : Nat) (replace : Bool) (e : Elem) (x : Num) : Elem :=
  .word ((accTerm fmt 0 replace e.w32 x.int x.flt).setWidth 64)

/-- Which duplicate the checksum row and column of an operation hold: elements of row t mod 32 and of column t mod width
(R272). FP32 multi-word has no column check. -/
def dupRow (f : Nat → Nat → Elem → Elem) (t : Nat) (c : Nat) (e : Elem) : Elem := f (t % 32) c e
/-- As `dupRow`, of a column. -/
def dupCol (f : Nat → Nat → Elem → Elem) (t wd : Nat) (r : Nat) (e : Elem) : Elem := f r (t % wd) e

/-- The value of an activation in an INT16 pass (R259). -/
def limb16 (pass a : Nat) : Int := if pass = 0 then ((a % 256 : Nat) : Int) else signedN 16 a / 256 * 256

/-- The checksum row and column of a mode O step: the row is fed the sum of the column's activations, the column the sum
of the presented weights, with complex routing the routed ones (R272). -/
def ckOut (p : ArrOp) (rep : Bool) (wd : Nat) (col : List Nat) (cx : Nat) (w wx : List Nat) : (Nat → Elem → Elem) × (Nat → Elem → Elem) :=
  if p.fmt = 1 then
    let n := wd / 2
    let a := ((List.range 32).map fun r => limb16 p.pass (col.getD r 0)).foldl (· + ·) 0
    let b := ((List.range n).map fun c => signedN 16 (w.getD c 0)).foldl (· + ·) 0
    (fun c e => if n ≤ c then elem0 0
      else let x := BitVec.ofInt 64 (a * signedN 16 (w.getD c 0)); .word (if rep then x else e.w64 + x),
     fun r e => let x := BitVec.ofInt 32 (limb16 p.pass (col.getD r 0) * b); .word ((if rep then x else e.w32 + x).setWidth 64))
  else
    let n := if isComplex p.pass then 2 * (wd / 2) else wd
    let act (r : Nat) : Num := numOf p.fmt (col.getD r 0) cx
    let wgt (c : Nat) : Num :=
      if isComplex p.pass then
        let (neg, i) := route p.pass c
        let x := numOf p.fmt (w.getD i 0) 0
        if neg then x.neg else x
      else numOf p.fmt (w.getD c 0) (wx.getD (c / 32) 0)
    let a := Num.sum ((List.range 32).map act)
    let b := Num.sum ((List.range n).map wgt)
    (fun c e => if n ≤ c then elem0 0 else ckTerm p.fmt rep e (a.mul (wgt c)), fun r e => ckTerm p.fmt rep e ((act r).mul b))

/-- One step of an AOUT on one array, whose checksums duplicate row and column t (R232, R259 to R261, R272). -/
def stepOut (k : Nat) (p : ArrOp) (t i j a : Nat) (col : List Nat) (cx : Nat) (s : State) : State :=
  let (w, wx) := wgtRow p i j s
  let rep := i == 0 && !p.acc
  let wd := arrWidth s k a
  let f (r c : Nat) (e : Elem) : Elem :=
    let x := col.getD r 0
    if isPaired p.fmt then
      if wd / 2 ≤ c then elem0 0
      else if p.fmt = 1 then pairInt p.pass rep e x (w.getD c 0) else pairFlt p.pass rep e x (w.getD c 0)
    else if isComplex p.pass then
      if 2 * (wd / 2) ≤ c then elem0 0 else .word ((complexCell p.fmt p.pass c rep e.w32 x w).setWidth 64)
    else if wd ≤ c then elem0 0
    else .word ((cell p.fmt p.eop rep e.w32 x cx (w.getD c 0) (wx.getD (c / 32) 0)).setWidth 64)
  if p.eop ≠ 0 then mapAcc k a f (dupRow f t) (dupCol f t wd) s
  else if p.fmt = 9 then mapAcc k a f (dupRow f t) (fun _ e => e) s
  else
    let (row, cl) := ckOut p rep wd col cx w wx
    mapAcc k a f row cl s

/-- The stationary weight (r, c) of array a. -/
def wgtAt (s : State) (k a r c : Nat) : Weight := Tab.get (fun _ => ⟨0, 0⟩) (arrs s k).wgt (elemKey a r c)

/-- The partial result y of one column of a mode R step, or of one row of a TSTEP (R235, R267): it starts at 0, and each
term is combined in order. -/
def partialSum (fmt eop : Nat) (terms : List (Nat × Nat × Weight)) : W32 :=
  terms.foldl (fun y t => cell fmt eop false y t.1 t.2.1 t.2.2.bits t.2.2.exp) 0

/-- acc ⊕ y. -/
def combY (fmt eop : Nat) (replace : Bool) (acc y : W32) : W32 := accTerm fmt eop replace acc y.toInt (f32 y)

/-- The sum of stationary row r of array a that its checksum column holds (R272). -/
def wsumAt (s : State) (k a r : Nat) : Num := Tab.get (fun _ => Num.zero) (arrs s k).wsum (32 * a + r)

/-- One step of an AROW on one array: with acc = 0 the tile is cleared at step 0, whose row takes y (R235, R254). The
checksum row adds every step's results, and the checksum column those of the summed weights (R272). -/
def stepRow (k : Nat) (p : ArrOp) (t i a : Nat) (col : List Nat) (cx : Nat) (s : State) : State :=
  let wd := arrWidth s k a
  let first := i == 0 && !p.acc
  let f (r c : Nat) (e : Elem) : Elem :=
    let e := if first then elem0 0 else e
    if r = i % 32 ∧ c < wd then
      let y := partialSum p.fmt p.eop ((List.range 32).map fun q => (col.getD q 0, cx, wgtAt s k a q c))
      .word ((combY p.fmt p.eop first e.w32 y).setWidth 64)
    else e
  if p.eop ≠ 0 then mapAcc k a f (dupRow f t) (dupCol f t wd) s
  else
    let yc : W32 := (List.range 32).foldl (fun y r =>
      let x := (numOf p.fmt (col.getD r 0) cx).mul (wsumAt s k a r)
      accTerm p.fmt 0 false y x.int x.flt) 0
    mapAcc k a f
      (fun c e => f (i % 32) c e)
      (fun r e => let e := if first then elem0 0 else e
        if r = i % 32 then .word ((combY p.fmt 0 first e.w32 yc).setWidth 64) else e) s

/-- One step of a TSTEP on one array (R267): the sum over the presented columns, in column order. -/
def stepT (k : Nat) (p : ArrOp) (i a : Nat) (act : List Nat) (s : State) : State :=
  let wd := arrWidth s k a
  let first := i == 0 && !p.acc
  let f (r c : Nat) (e : Elem) : Elem :=
    let e := if first then elem0 0 else e
    if c = i % wd then
      let y := partialSum p.fmt 0 ((List.range wd).map fun q => (act.getD q 0, 0, wgtAt s k a r q))
      .word ((combY p.fmt 0 first e.w32 y).setWidth 64)
    else e
  mapAcc k a f (fun _ e => e) (fun _ e => e) s

/-- One load of an AWLD: stationary row r of one array, and its sum in the checksum column (R234, R272). -/
def stepLoad (k : Nat) (p : ArrOp) (r j a : Nat) (s : State) : State :=
  let (w, wx) := wgtRow p r j s
  let x := arrs s k
  let b := Num.sum ((List.range (arrWidth s k a)).map fun c => numOf p.fmt (w.getD c 0) (wx.getD (c / 32) 0))
  setArr k
    { x with
      wgt := Tab.update (fun _ => ⟨0, 0⟩) (fun i _ => ⟨w.getD (i % 128) 0, wx.getD (i % 128 / 32) 0⟩) (elemKey a r 0) 128 x.wgt
      wsum := Tab.set (fun _ => Num.zero) x.wsum (32 * a + r) b } s

/-! ### Check states (R272, R277) -/

/-- The check kind of a stepping operation: 0 and 1 LINEAR in mode O and R, 2 INT16, 3 FP32 multi-word, 4 DUPLICATE,
5 none. -/
def ckKind (p : ArrOp) : Nat :=
  if p.op = .tstep then 5 else if p.eop ≠ 0 then 4 else if p.fmt = 1 then 2 else if p.fmt = 9 then 3
  else if p.op = .arow then 1 else 0

/-- A drain whose transfer has not taken place. -/
def ArrOp.untransferred (p : ArrOp) : Bool := (p.op == .adrain || p.op == .wread) && p.done == 0

/-- ARRAY_TQa.tiles once the transfers before the next write have taken place. -/
def tilesNow (s : State) (k a : Nat) : Nat :=
  min 0xFFFF (s.fld (Reg.arrayTq0 k + 0x10 * a) 16 16 + ((arrs s k).flight.filter fun p => p.untransferred && p.amask.testBit a).length)

/-- Set what has written an array. -/
def setCk (k a : Nat) (c : CkState) (s : State) : State :=
  let x := arrs s k
  setArr k { x with ck := Tab.set (fun _ => CkState.clear) x.ck a c } s

/-- The first step of an operation is written into array a. -/
def ckWrite (k : Nat) (p : ArrOp) (a : Nat) (s : State) : State :=
  let c := if p.acc then ckOf s k a else CkState.clear
  let t := if c.kinds.isEmpty then tilesNow s k a else c.t
  let kind := (ckKind p, p.eop)
  setCk k a
    { kinds := if c.kinds.contains kind then c.kinds else c.kinds ++ [kind]
      t := t, paired := isPaired p.fmt, fmt := p.fmt
      gather := p.gather.map fun g => (g, p.amask, p.fmt) } s

/-! ### Tiles -/

/-- The presented columns, or pairs. -/
def presented (s : State) (k a : Nat) (paired : Bool) : Nat := if paired then arrWidth s k a / 2 else arrWidth s k a

/-- The tile of array a as it stands (R237, R277). A tile that no operation has written since its clear is compared with
its duplicates. -/
def tileOf (s : State) (k a : Nat) : Tile :=
  let c := ckOf s k a
  let w := presented s k a c.paired
  let one := decide (c.kinds.length ≤ 1) && !(c.kinds.any fun x => x.1 == 5)
  { elems := ((arrs s k).acc.filter fun e => decide (e.1 / 4096 = a ∧ e.1 % 128 < w)).map fun e => (e.1 % 4096, e.2)
    ckRow := ((arrs s k).ckRow.filter fun e => decide (e.1 / 128 = a)).map fun e => (e.1 % 128, e.2)
    ckCol := ((arrs s k).ckCol.filter fun e => decide (e.1 / 32 = a)).map fun e => (e.1 % 32, e.2)
    paired := c.paired, complete := false, t := c.t
    rowCk := one && !s.bit (Reg.arrayBist0 k + 4 * a) 12
    colCk := one && !s.bit (Reg.arrayBist0 k + 4 * a) 11
    duplicate := c.kinds.all fun x => x.1 == 3 || x.1 == 4
    flt := fltAcc c.fmt, k := 0 }

/-- The tile of the stationary weights of array a (R266). -/
def weightTile (s : State) (k a fmt : Nat) : Tile :=
  let w := arrWidth s k a
  let e (x : Weight) : Elem :=
    .word ((if fltAcc fmt then toF32 (opVal fmt x.bits x.exp) else BitVec.ofInt 32 (opInt fmt x.bits)).setWidth 64)
  { elems := (((arrs s k).wgt.filter fun x => decide (x.1 / 4096 = a ∧ x.1 % 128 < w)).map fun x => (x.1 % 4096, e x.2)).filter fun x => x.2 ≠ elem0 0
    ckRow := [], ckCol := [], paired := false, complete := false, t := tilesNow s k a, rowCk := false, colCk := false, duplicate := false
    flt := fltAcc fmt, k := 0 }

/-- One row of a tile as 512 bytes: 128 lanes of 32 bits, or 64 of 64 bits (R211). -/
def tileRow (t : Tile) (r : Nat) : List Byte :=
  if t.paired then (List.range 64).flatMap fun c => natLe 8 (Tab.get elem0 t.elems (128 * r + c)).w64.toNat
  else (List.range 128).flatMap fun c => natLe 4 (Tab.get elem0 t.elems (128 * r + c)).w32.toNat

/-- One column of a tile, the rest zeros (R211). -/
def tileCol (t : Tile) (c : Nat) : List Byte :=
  fit 512 (if t.paired then (List.range 32).flatMap fun r => natLe 8 (Tab.get elem0 t.elems (128 * r + c)).w64.toNat
    else (List.range 32).flatMap fun r => natLe 4 (Tab.get elem0 t.elems (128 * r + c)).w32.toNat)

/-- A drained element is NaN or an infinity: of a pair, its hi part (R260). -/
def pairSpecial (b : W64) : Bool :=
  let x := f32 (b.setWidth 32)
  x.isNan || x.isInf

/-! ### Issue (R201, R206, R230, R354) -/

/-- Every array opcode the table lists. -/
def arrListed (op : Nat) : Bool := (1 ≤ op && op ≤ 6) || op == 8

/-- Mode the operation needs: mode O for AOUT, mode R for AWLD, AROW and ATRD. -/
def arrMode (op : Nat) : Option Bool :=
  match op with
  | 1 => some false
  | 2 => some true
  | 3 => some true
  | 6 => some true
  | _ => none

/-- The ARR field raises ILLEGAL (R206, R309, and the opcode table's eop values). -/
def arrIllegal (w : IWord) (s : State) (k : Nat) : Bool :=
  let op := arrOp w
  let m := arrF w 6 4
  let modeBad := match arrMode op with
    | none => false
    | some b => (maskArrs m).any fun a => s.bit (Reg.arrayCfg0 k + 0x10 * a) 0 != b
  let drain := op == 4 || (op == 6 && arrF w 45 4 == 0)
  op != 0 && (!arrListed op || m == 0 || 6 ≤ arrF w 10 3 || 0xE ≤ arrF w 13 4 || (arrF w 43 1 == 1 && !sharedReg s k) || modeBad
    || (drain && sharedReg s k && (maskArrs m).length != 1))

/-- The ARR field holds a non-zero bit that its table marks 0 (R223). -/
def arrReserved (w : IWord) : Bool := arrOp w != 0 && arrF w 49 47 != 0

/-- The operation an ARR field asks for, before its gather is read; ATRD by its pass field. -/
def arrOpOf (w : IWord) (c : CoreSt) : ArrOp :=
  let kind : AOp := match arrOp w with
    | 1 => .aout
    | 2 => .awld
    | 3 => .arow
    | 4 => .adrain
    | 5 => .aclr
    | _ => if arrF w 45 4 = 0 then .wread else .tstep
  let n := arrF w 27 16
  let srcV := arrF w 43 1 == 1 && kind != .tstep
  { op := kind, amask := arrF w 6 4, eop := arrF w 10 3, fmt := arrF w 13 4, pass := arrF w 45 4
    n := match kind with | .awld => 32 | .aclr => n | .adrain => n | .wread => n | _ => n + 1
    sa := if srcV then arrF w 17 5 else (c.sreg (arrF w 17 5)).toNat
    sw := (c.sreg (arrF w 22 5)).toNat
    srcV := srcV, vact := if srcV then (List.range (16 - arrF w 17 5)).flatMap fun i => vBytes (c.vreg (arrF w 17 5 + i)) else []
    acc := arrF w 44 1 == 1, gather := none, done := 0, snap := []
    keepV := if tqOp w = 9 then some (tqF w 33 5) else none }

/-- The operation reads activations. -/
def ArrOp.hasAct (p : ArrOp) : Bool := p.op == .aout || p.op == .arow || p.op == .tstep
/-- The operation reads weights. -/
def ArrOp.hasWgt (p : ArrOp) : Bool := p.op == .aout || p.op == .awld
/-- The operation steps or loads. -/
def ArrOp.steps (p : ArrOp) : Bool := p.hasAct || p.op == .awld

/-- Byte ranges of the local store an operation's feeders have still to read (R198). -/
def ArrOp.feeds (p : ArrOp) : List (Nat × Nat) :=
  let ca := if p.op = .tstep then rowBytes p.fmt else colBytes p.fmt
  let na := (maskArrs p.amask).length
  let cw := rowBytes p.fmt
  let x := if p.fmt = 0xA then 1 else 0
  let act : List (Nat × Nat) :=
    if !p.hasAct || p.srcV then []
    else match p.gather with
      | none => [(p.sa + p.done * ca, (p.n - p.done) * ca + p.n * x)]
      | some g => g.pairs.filterMap fun pr =>
          if pr.1 = 0xFFFFFFFF then none
          else some (g.featBase + pr.1 * g.featStride + g.chanOff, (p.n * elemBits p.fmt + 7) / 8)
  act ++ (if p.hasWgt then [(p.sw + p.done * na * cw, (p.n - p.done) * na * cw + p.n * na * 4 * x)] else [])

/-- V registers an operation with src_v = 1 has still to read (R311). -/
def ArrOp.feedsV (p : ArrOp) : List Nat :=
  if p.srcV && p.hasAct then
    let ca := colBytes p.fmt
    let lo := p.sa + p.done * ca / 512
    let n := p.n * ca + (if p.fmt = 0xA then p.n else 0)
    (List.range (p.sa + (n + 511) / 512 - lo)).map fun i => lo + i
  else []

/-- Operations of core k whose feeders may still read. -/
def feeding (s : State) (k : Nat) : List ArrOp := (arrs s k).cmdq ++ (arrs s k).cur.toList

/-- What makes the ARR field outside contract at issue (R249 to R251, R257, R265, R267, R368, R369): its rule, if any. -/
def arrOutside (w : IWord) (s : State) (k : Nat) (c : CoreSt) : Option Nat :=
  if arrOp w = 0 then none
  else if arrOp w = 8 then fmtOutside .adrain (arrF w 13 4) 0 (arrF w 45 4)
  else
    let p := arrOpOf w c
    let win := inSparseWin s k p.sa && !p.srcV
    let gath := p.op == .aout && win
    if (p.op = .wread ∨ p.op = .tstep) ∧ p.pass ≥ 2 then some 265
    else match fmtOutside p.op p.fmt p.eop p.pass with
      | some r => some r
      | none =>
        if gath then
          let n := p.n * elemBits p.fmt
          let stride := leNat (s.bytes (p.sa + 0x10) 4)
          let off := leNat (s.bytes (p.sa + 0x14) 2)
          if p.sa % 64 ≠ 0 ∨ p.sw % 64 ≠ 0 then some 250
          else if p.fmt = 0xA ∨ 4096 < n ∨ 8 * stride < 8 * off + n ∨ p.pass ≠ 0 then some 368
          else if (ArrOp.feeds { p with srcV := true }).any (fun r => !(inLocal k r.1 && inLocal k (r.1 + r.2 - 1))) then some 250
          else if sharedReg s k && leNat (s.bytes (p.sa + 0x16) 1) ≠ 0 then some 369
          else none
        else if win && (p.op == .arow || p.op == .tstep || p.op == .wread) then some 368
        else if (p.hasAct && !p.srcV && p.sa % 64 != 0) || (p.hasWgt && p.sw % 64 != 0) then some 250
        else if p.feeds.any fun r => !(inLocal k r.1 && inLocal k (r.1 + r.2 - 1)) then some 250
        else if p.feedsV.any (fun v => 16 ≤ v) then some 251
        else none

/-- The gather descriptor at an address, with its pair group (R354). -/
def gatherAt (k : CoreId) (a : Nat) (s : State) : Gather × State :=
  let d := s.bytes a 64
  let (ps, s) := busRead (.core k) (leAt d 0 8) 256 s
  ({ pairBase := leAt d 0 8
     pairs := (List.range 32).map fun i => (leAt ps (8 * i) 4, leAt ps (8 * i + 4) 4)
     featBase := leAt d 8 8, featStride := leAt d 0x10 4, chanOff := leAt d 0x14 2, scatter := leAt d 0x16 1
     accBase := leAt d 0x18 8, accStride := leAt d 0x20 4 }, s)

/-- Operations of array a that wait in its command queue. -/
def cmdqFill (s : State) (k a : Nat) : Nat := ((arrs s k).cmdq.filter fun p => p.amask.testBit a).length

/-- Operations of some array of a mask that are not complete, its tiles and updates included (R240, R359). -/
def arrPending (s : State) (k m : Nat) : Bool :=
  ((arrs s k).cmdq ++ (arrs s k).cur.toList ++ (arrs s k).flight).any (fun p => p.amask &&& m != 0)
    || (arrs s k).rows.any (fun x => x.amask &&& m != 0) || (arrs s k).cq.any fun q => q.2.any fun u => u.amask &&& m != 0

/-- The ARR field cannot issue yet: a full command queue, or for ASYNC an operation not complete (R198, R240). -/
def arrWaits (k : Nat) (w : IWord) (s : State) : Bool :=
  if arrOp w = 0 then false
  else if arrOp w = 8 then arrPending s k (arrF w 6 4)
  else (maskArrs (arrF w 6 4)).any fun a => 4 ≤ cmdqFill s k a

/-- The ARR field issues its operation into the command queues (R201). -/
def arrEffect (k : CoreId) (w : IWord) (entry : CoreSt) (s : State) : State :=
  if arrOp w = 0 ∨ arrOp w = 8 then s
  else
    let p := arrOpOf w entry
    if p.op == .aout && !p.srcV && inSparseWin s k p.sa then
      let (g, s) := gatherAt k p.sa s
      setArr k { arrs s k with cmdq := (arrs s k).cmdq ++ [{ p with gather := some g }] } s
    else setArr k { arrs s k with cmdq := (arrs s k).cmdq ++ [p] } s

/-! ### ARRAY_OP_BEGIN (R229, R237, R240, R244, R254, R275, R356) -/

/-- Array level L. -/
def arrLevel (s : State) (k : Nat) : Nat := s.fld (Reg.arrayStatus k) 0 5
/-- The ramp rate in levels per CCLK. -/
def rampRate (s : State) (k : Nat) : Nat := 2 ^ s.fld (Reg.arrayPwr k) 10 2

/-- The rise to L = 16 before the first step or load, with its wait counted (R244, R245); the dummy operations that run
meanwhile are counted by the CCLK (`coreTick`). -/
def riseLevel (k : Nat) (s : State) : State :=
  let wait := if s.bit (Reg.arrayPwr k) 8 && s.bit (Reg.arrayPwr k) 9 then (16 - arrLevel s k + rampRate s k - 1) / rampRate s k else 0
  (s.satAdd (Reg.arrayRampw k) wait).putF (Reg.arrayStatus k) 0 5 16

/-- An operation in flight still has steps to write into some array of a mask. -/
def stepsInFlight (s : State) (k m : Nat) : Bool := (arrs s k).flight.any fun p => p.steps && p.amask &&& m != 0

/-- The value ACLR fills with (R254). -/
def clrFill (eop fmt : Nat) : Elem :=
  match eop with
  | 3 => .word (if fltAcc fmt then 0x7F800000 else 0x7FFFFFFF)
  | 4 => .word (if fltAcc fmt then 0xFF800000 else 0x80000000)
  | _ => .word 0

/-- ACLR on one array; its checksum row and column are filled alike (R254, R272). -/
def clearArr (k : Nat) (p : ArrOp) (s : State) (a : Nat) : State :=
  let w := arrWidth s k a
  let fill (c : Nat) (_ : Elem) : Elem := if c < w then clrFill p.eop p.fmt else elem0 0
  let s := setCk k a { CkState.clear with fmt := p.fmt } (mapAcc k a (fun _ => fill) fill (fun _ => fill 0) s)
  if p.acc then s.putF (Reg.arrayCk0Tol k + 0x20 * a) 0 16 p.n else s

/-- An operation with acc = 1 continues accumulators of the other pairing or format (R263, R264). -/
def accOutside (s : State) (k : Nat) (p : ArrOp) : Option Nat :=
  if !p.acc || !p.hasAct then none
  else (maskArrs p.amask).findSome? fun a =>
    let c := ckOf s k a
    if c.kinds.isEmpty then none
    else if c.paired != isPaired p.fmt then some 263
    else if p.fmt = 9 ∧ c.fmt ≠ 9 then some 264 else none

/-- The gather an ADRAIN scatters by, if it scatters (R356), or the rule it breaks (R369). -/
def scatterOf (s : State) (k : Nat) (p : ArrOp) : Res (Option (Gather × Nat)) :=
  if sharedReg s k then .next none
  else
    let g := (maskArrs p.amask).filterMap fun a => (ckOf s k a).gather.filter fun x => x.1.scatter != 0
    match g with
    | [] => .next none
    | x :: _ =>
      let row (u : Nat) : Bool := (maskArrs p.amask).zipIdx.all fun (_, j) =>
        let lo := x.1.accBase + u * x.1.accStride + j * 512
        inLocal k lo && inLocal k (lo + 511)
      if g.any (fun y => y.2.1 ≠ p.amask) || g.length ≠ (maskArrs p.amask).length
          || x.1.pairs.any (fun pr => pr.1 ≠ 0xFFFFFFFF && !row pr.2) then .outside 369
      else .next (some (x.1, x.2.2))

/-- Operation p leaves the command queues and begins. -/
def beginOp (k : CoreId) (p : ArrOp) (s : State) : Res State :=
  match p.op with
  | .aclr => .next ((maskArrs p.amask).foldl (clearArr k p) s)
  | .adrain =>
    match scatterOf s k p with
    | .outside r => .outside r
    | .next g =>
      let p := { p with
        snap := (maskArrs p.amask).map fun a => (a, tileOf s k a)
        gather := g.map Prod.fst, fmt := (g.map Prod.snd).getD p.fmt }
      .next (setArr k { arrs s k with flight := (arrs s k).flight ++ [p] } s)
  | .wread =>
    let p := { p with snap := (maskArrs p.amask).map fun a => (a, weightTile s k a p.fmt) }
    .next (setArr k { arrs s k with flight := (arrs s k).flight ++ [p] } s)
  | _ =>
    match accOutside s k p with
    | some r => oc r
    | none => .next (setArr k { arrs s k with cur := some p } s)

/-! ### Freezes (R237, R238, R241, R358) -/

/-- Drains whose transfer is due, by place among the operations in flight: no operation before them has steps to write
into their arrays, nor a transfer of these to make (R237). -/
def dueDrains (s : State) (k : Nat) : List (Nat × ArrOp) :=
  let l := (arrs s k).flight
  (l.zipIdx.filter fun (p, i) => p.untransferred && !((l.take i).any fun q => (q.steps || q.untransferred) && q.amask &&& p.amask != 0)).map
    fun (p, i) => (i, p)

/-- Every masked array has what the transfer of a drain needs (R238, R310, R356). -/
def drainRoom (s : State) (k : Nat) (p : ArrOp) : Bool :=
  (maskArrs p.amask).all fun a =>
    !s.bit (Reg.arrayTq0 k + 0x10 * a) 3 && (sharedReg s k || p.gather.isSome || decide ((tqOf s k a).length < 4))

/-- A transfer is due and cannot take place: the arrays freeze (R241). -/
def drainFrozen (s : State) (k : Nat) : Bool := (dueDrains s k).any fun x => !drainRoom s k x.2

/-- Bank of a local-store address (R152). -/
def bankOf (a : Nat) : Nat := a / 64 % 32
/-- The conflict queue of a bank. -/
def cqOf (s : State) (k b : Nat) : List Update := Tab.get (fun _ => []) (arrs s k).cq b
/-- A row finds a conflict queue that it needs full (R358). -/
def rowBlocked (s : State) (k : Nat) (x : ScatRow) : Bool := x.parts.any fun u => 8 ≤ (cqOf s k (bankOf u.1)).length
/-- A row waits for room in a conflict queue: the arrays freeze (R358). -/
def rowFrozen (s : State) (k : Nat) : Bool := match (arrs s k).rows with | [] => false | x :: _ => rowBlocked s k x
/-- The four arrays of the core are frozen: no step, load or clear takes place (R241, R358). -/
def arrFrozen (s : State) (k : Nat) : Bool := drainFrozen s k || rowFrozen s k

/-- ARRAY_OP_BEGIN (R229, R244): the oldest queued operation begins once the sequencer is free, for ACLR and ATRD once
the tile is ready too; an ACLR clears in no frozen CCLK (R241). -/
def execArrayOpBegin (k : CoreId) (s : State) : Res State :=
  match (arrs s k).cmdq with
  | [] => .next s
  | p :: rest =>
    let ready := !(p.op == .aclr || p.op == .wread || p.op == .tstep) || !stepsInFlight s k p.amask
    onlyIfR (s.cclk && coreState s k == 1 && (arrs s k).cur.isNone && ready && !(p.op == .aclr && arrFrozen s k))
      (fun s => beginOp k p (setArr k { arrs s k with cmdq := rest } s)) s

/-! ### ARRAY_STEP (R232 to R236, R241) -/

/-- One array's part of step or load i of an operation. -/
def stepOne (k : Nat) (p : ArrOp) (col : List Nat) (cx : Nat) (s : State) (x : Nat × Nat) : State :=
  let s := if p.hasAct && p.done == 0 then ckWrite k p x.1 s else s
  match p.op with
  | .aout => stepOut k p (ckOf s k x.1).t p.done x.2 x.1 col cx s
  | .arow => stepRow k p (ckOf s k x.1).t p.done x.1 col cx s
  | .tstep => stepT k p p.done x.1 col s
  | .awld => stepLoad k p p.done x.2 x.1 s
  | _ => s

/-- The operands of step i that all arrays share. -/
def stepActs (k : CoreId) (p : ArrOp) (s : State) : List Nat × Nat × State :=
  match p.op with
  | .tstep => (elemsOf p.fmt 128 (s.bytes (p.sa + p.done * rowBytes p.fmt) (rowBytes p.fmt)), 0, s)
  | .awld => ([], 0, s)
  | _ => actCol k p p.done s

/-- Count one step (R553). -/
def countStep (k : Nat) (s : State) : State :=
  pmcCount 0x07 k 1 (s.wrQ (Reg.arraySteps k) 2 (s.rdQ (Reg.arraySteps k) 2 + 1))

/-- One step or load of the operation in progress enters, after the rise if the level fell (R244). -/
def runStep (k : CoreId) (p : ArrOp) (s : State) : State :=
  let (col, cx, s) := stepActs k p (riseLevel k s)
  let s := (maskArrs p.amask).zipIdx.foldl (stepOne k p col cx) s
  let s := if p.op = .awld then s else countStep k s
  let p' := { p with done := p.done + 1 }
  let s := (s.putB (Reg.arrayStatus k) 6 false).putB (Reg.arrayStatus k) 7 false
  if p'.done < p.n then setArr k { arrs s k with cur := some p' } s
  else setArr k { arrs s k with cur := none, flight := (arrs s k).flight ++ [p'] } s

/-- ARRAY_STEP (R233, R244): one step of the operation in progress enters the arrays, after the rise; none does in a frozen
CCLK. -/
def execArrayStep (k : CoreId) (s : State) : Res State :=
  match (arrs s k).cur with
  | none => .next s
  | some p => onlyIf (s.cclk && coreState s k == 1 && !arrFrozen s k) (runStep k p) s

/-- CCLK from the last step of an operation to its tile: an AWLD leaves nothing to write (R233, R234, R236, R267). -/
def ArrOp.latency (p : ArrOp) : Nat :=
  match p.op with
  | .aout => 4
  | .arow => 40
  | .tstep => 48
  | _ => 0

/-- Operation i in flight steps or loads, and every such operation before it takes longer to its last write: it may be
complete first (R229, R233, R236). -/
def mayComplete (l : List ArrOp) (i : Nat) : Bool :=
  match l[i]? with
  | none => false
  | some p => p.steps && (l.take i).all fun q => !q.steps || decide (p.latency < q.latency)

/-- ARRAY_OP_COMPLETE (R229): the last step of operation i in flight, counting all of them from the oldest, is written. -/
def execArrayOpComplete (k : CoreId) (i : Nat) (s : State) : Res State :=
  onlyIf (s.cclk && coreState s k == 1 && mayComplete (arrs s k).flight i)
    (fun s => setArr k { arrs s k with flight := (arrs s k).flight.eraseIdx i } s) s

/-! ### DRAIN_TRANSFER (R237, R238, R309, R356) -/

/-- The element updates of one row of a scatter, by granule (R356, R357). -/
def scatterParts (g : Gather) (u r : Nat) (tiles : List (Nat × Tile)) (width : Nat → Nat) : List (Nat × List (Nat × W32)) :=
  tiles.zipIdx.flatMap fun ((a, t), j) =>
    let lo := g.accBase + u * g.accStride + j * 512
    (List.range 8).filterMap fun b =>
      let es := (List.range 16).filterMap fun e =>
        let c := 16 * b + e
        if c < width a then some (e, (Tab.get elem0 t.elems (128 * r + c)).w32) else none
      if es.isEmpty then none else some (lo + 64 * b, es)

/-- The rows a scatter drain issues: those of the non-null pairs, ascending. -/
def scatterRows (s : State) (k : Nat) (p : ArrOp) (g : Gather) : List ScatRow :=
  g.pairs.zipIdx.filterMap fun (pr, r) =>
    if pr.1 = 0xFFFFFFFF then none
    else some ⟨scatterParts g pr.2 r p.snap (arrWidth s k), g.scatter, fltAcc p.fmt, p.amask⟩

/-- The transfer of one array's tile: counted, drain registers taken, and in tile-queue coupling its slot. -/
def transferOne (k : Nat) (slot busy : Bool) (s : State) (x : Nat × Tile) : State :=
  let q := Reg.arrayTq0 k + 0x10 * x.1
  let s := (s.satF q 16 16).putB q 3 busy
  if slot then
    let l := tqOf s k x.1 ++ [x.2]
    (setArr k { arrs s k with tq := Tab.set (fun _ => []) (arrs s k).tq x.1 l } s).putF q 0 3 l.length
  else s

/-- Write the rows of half h of a tile into V16 to V31, but for the register that the TQ field of the drain's word writes
(R195, R309). -/
def sharedRows (k h : Nat) (keep : Option Nat) (s : State) (x : Nat × Tile) : State :=
  (List.range 16).foldl (fun s m => if keep = some (16 + m) then s
    else setCore s k ((core s k).setV (16 + m) (vOfBytes (tileRow x.2 (16 * h + m))))) s

/-- Take the transfer of drain p, operation i in flight. -/
def transfer (k i : Nat) (p : ArrOp) (s : State) : State :=
  let sh := sharedReg s k
  let rows := match p.gather with | none => [] | some g => scatterRows s k p g
  let busy := p.gather.isNone || !rows.isEmpty
  let p := { p with snap := p.snap.map fun (x : Nat × Tile) => (x.1, { x.2 with k := s.fld (Reg.arrayCk0Tol k + 0x20 * x.1) 0 16 }) }
  let s := p.snap.foldl (transferOne k (!sh && p.gather.isNone) busy) s
  let s := if sh then p.snap.foldl (sharedRows k (p.n % 2) p.keepV) s else s
  let x := arrs s k
  setArr k { x with flight := x.flight.set i { p with done := 1 }, rows := x.rows ++ rows } (s.putB (Reg.arrayStatus k) 7 false)

/-- DRAIN_TRANSFER (R238): the first due transfer that has room takes place. -/
def execDrainTransfer (k : CoreId) (s : State) : Res State :=
  match (dueDrains s k).find? fun x => drainRoom s k x.2 with
  | none => .next s
  | some (i, p) => onlyIf (s.cclk && coreState s k == 1) (transfer k i p) s

/-! ### TILE_COMPLETE (R237, R272 to R278) -/

/-- What a checker at fault holds at TILE_COMPLETE in place of element i of the checksum row, or of element i − 128 of the
checksum column: free, and free to be nothing. -/
abbrev Upset := Nat → Option W64

/-- Element (r, c) of a tile as the checkers see it. -/
def Tile.at (t : Tile) (r c : Nat) : W64 := (Tab.get elem0 t.elems (128 * r + c)).w64

/-- The rows and columns that one axis compares: columns for the checksum row (`col` false), rows for the checksum column.
FP32 multi-word has no column check (R272). -/
def ckLines (t : Tile) (w : Nat) (col : Bool) : List Nat :=
  if col then (if t.colCk && !(t.duplicate && t.paired) then List.range 32 else [])
  else if t.rowCk then List.range w else []

/-- The checksum element of line i of an axis. -/
def ckElem (t : Tile) (up : Upset) (col : Bool) (i : Nat) : W64 :=
  (up (if col then 128 + i else i)).getD (Tab.get elem0 (if col then t.ckCol else t.ckRow) i).w64

/-- The elements that the checksum element of line i is compared with (R272). -/
def ckElems (t : Tile) (w : Nat) (col : Bool) (i : Nat) : List W64 :=
  match col, t.duplicate with
  | true, true => [t.at i (t.t % w)]
  | true, false => (List.range w).map (t.at i)
  | false, true => [t.at (t.t % 32) i]
  | false, false => (List.range 32).map fun r => t.at r i

/-- Line i has a NaN or an infinity among its compared elements and its checksum element (R276). -/
def lineSpecial (t : Tile) (w : Nat) (up : Upset) (col : Bool) (i : Nat) : Bool :=
  t.flt && (ckElem t up col i :: ckElems t w col i).any pairSpecial

/-- The larger magnitude. -/
def fltMag (a b : FVal) : FVal := if a.abs.ltz b.abs then b.abs else a.abs

/-- ulp(M) times K (R274). -/
def ulpTimes (k : Nat) : FVal → FVal
  | .fin _ m e => .fin false k (if m = 0 then -149 else max ((e + (m.log2 : Int)) - 23) (-149))
  | x => x

/-- A floating LINEAR comparison fails: |S − C| > K × ulp(M), computed exactly (R274). -/
def fltLinearFails (k : Nat) (xs : List W32) (c : W32) : Bool :=
  let vs := xs.map f32
  let sum := f32 (toF32 (vs.foldl (fun a x => a.add 0 x) (.fin false 0 0)))
  let big := vs.foldl fltMag (f32 c).abs
  (ulpTimes k big).ltz ((sum.add 0 (f32 c).neg).abs)

/-- The comparison of R273 or R274 of a line fails; pairs are compared on 64 bits by the checksum row, and their low words
by the checksum column (R272). -/
def lineFails (t : Tile) (w : Nat) (up : Upset) (col : Bool) (i : Nat) : Bool :=
  let es := ckElems t w col i
  let c := ckElem t up col i
  if t.duplicate then
    if t.paired then es.any (· != c) else es.any fun e => e.setWidth 32 != c.setWidth 32
  else if t.flt then fltLinearFails t.k (es.map fun e => e.setWidth 32) (c.setWidth 32)
  else if t.paired && !col then es.foldl (· + ·) 0 != c
  else es.foldl (fun (a : W32) e => a + e.setWidth 32) 0 != c.setWidth 32

/-- An axis is not compared, or not wholly: a DUPLICATE row or column as a whole, a LINEAR one line by line (R276). -/
def lineSkipped (t : Tile) (w : Nat) (up : Upset) (col : Bool) (i : Nat) : Bool :=
  if t.duplicate then (ckLines t w col).any (lineSpecial t w up col) else lineSpecial t w up col i

/-- The index that a failing axis reports: of a LINEAR check the first failing line, of a DUPLICATE one the row or column
that is duplicated (R278, and the chapter's worked example). -/
def ckFirst (t : Tile) (w : Nat) (up : Upset) (col : Bool) : Option Nat :=
  ((ckLines t w col).find? fun i => !lineSkipped t w up col i && lineFails t w up col i).map fun i =>
    if t.duplicate then (if col then t.t % w else t.t % 32) else i

/-- A mismatch: recorded, counted and reported to the selvedge; the tile is unchanged (R278). -/
def ckMismatch (k a : Nat) (t : Tile) (col : Bool) (i : Nat) (s : State) : State :=
  let b := 0x20 * a
  let s := (s.putB (Reg.arrayCk0Status k + b) 0 true).sat (Reg.arrayCk0Mismatches k + b)
  let s := s.wrN (Reg.arrayCk0Last k + b) (t.t % 2 ^ 16 + 2 ^ 16 * i + 2 ^ 23 * (if col then 1 else 0) + 2 ^ 24 * (if t.duplicate then 1 else 0))
  { s with selv := { s.selv with inbox := s.selv.inbox ++ [.checksum k a t.t col i t.duplicate] } }

/-- The check of one axis. -/
def checkAxis (k a : Nat) (t : Tile) (up : Upset) (s : State) (col : Bool) : State :=
  match ckFirst t (presented s k a t.paired) up col with
  | none => s
  | some i => ckMismatch k a t col i s

/-- What the checks of one tile leave, row before column (R276 to R278). -/
def checkTile (k a : Nat) (t : Tile) (up : Upset) (s : State) : State :=
  let b := 0x20 * a
  let w := presented s k a t.paired
  let un := !t.rowCk || !t.colCk
  let sp := [false, true].any fun c => (ckLines t w c).any (lineSpecial t w up c)
  let s := if un then (s.putB (Reg.arrayCk0Status k + b) 2 true).sat (Reg.arrayCk0Unchecked k + b) else s
  let s := if sp then (s.putB (Reg.arrayCk0Status k + b) 1 true).sat (Reg.arrayCk0Special k + b) else s
  let s := if un || sp then s else s.sat (Reg.arrayCk0Checked k + b)
  [false, true].foldl (checkAxis k a t up) s

/-- Mark the first incomplete tile of a queue complete. -/
def markComplete : List Tile → List Tile
  | [] => []
  | t :: l => if t.complete then t :: markComplete l else { t with complete := true } :: l

/-- Array a of a drain is done. -/
def finishDrain (k a : Nat) (p : ArrOp) (s : State) : State :=
  let x := arrs s k
  let p' := { p with amask := p.amask - 2 ^ a }
  let i := x.flight.idxOf p
  setArr k { x with flight := if p'.amask = 0 then x.flight.eraseIdx i else x.flight.set i p' } s

/-- A drain of array a whose transfer has taken place, and whose rows have been issued where it scatters (R237, R356). -/
def drained (s : State) (k a : Nat) (p : ArrOp) : Bool :=
  (p.op == .adrain || p.op == .wread) && p.done == 1 && p.amask.testBit a
    && (p.gather.isNone || !(arrs s k).rows.any fun x => x.amask.testBit a)

/-- TILE_COMPLETE (R237, R272, R310, R360): the oldest transferred tile of array a is complete and its checks are made,
against what its checkers hold; which of them a fault has changed is free. A scattered tile is complete once its rows are
issued; the second half of a shared drain is not checked again. -/
def execTileComplete (k : CoreId) (a : Fin 4) (s : State) : Res State :=
  match (arrs s k).flight.find? (drained s k a) with
  | none => .next s
  | some p =>
    onlyIf (s.cclk && coreState s k == 1) (fun s =>
      let q := Reg.arrayTq0 k + 0x10 * a.val
      let s := match p.snap.find? (fun x => x.1 == a.val) with
        | some x => if sharedReg s k && p.n % 2 == 1 then s else (checkTile k a x.2 (Config.freeUpset s.freeCtr) s).tickFree
        | none => s
      let s := if sharedReg s k || p.gather.isSome then s
        else setArr k { arrs s k with tq := Tab.set (fun _ => []) (arrs s k).tq a (markComplete (tqOf s k a)) } s
      finishDrain k a p (s.putB q 3 false)) s

/-! ### ARRAY_GAP_LIMIT_EXPIRY (R244, R245) -/

/-- ARRAY_GAP_LIMIT_EXPIRY: one gap CCLK beyond gap_limit; the level falls. Its dummy operation is counted with the CCLK
(R243, `coreTick`). -/
def execArrayGapLimitExpiry (k : CoreId) (s : State) : Res State :=
  onlyIf (s.cclk && coreState s k == 1 && s.bit (Reg.arrayPwr k) 8) (fun s =>
    s.putF (Reg.arrayStatus k) 0 5 (if s.bit (Reg.arrayPwr k) 9 then arrLevel s k - rampRate s k else 0)) s

/-! ### Scatter (R356 to R359) -/

/-- Replace a conflict queue. -/
def setCq (k b : Nat) (l : List Update) (s : State) : State :=
  setArr k { arrs s k with cq := Tab.set (fun _ => []) (arrs s k).cq b l } s

/-- One granule update enters its conflict queue. -/
def enterUpdate (k : Nat) (x : ScatRow) (s : State) (u : Nat × List (Nat × W32)) : State :=
  let b := bankOf u.1
  let l := cqOf s k b ++ [⟨u.1, u.2, x.how, x.flt, x.amask⟩]
  let s := setCq k b l s
  if s.fld (Reg.sparseCqHwm k) 0 4 < l.length then s.putF (Reg.sparseCqHwm k) 0 4 l.length else s

/-- After the last row of a scatter of arrays m is issued its drain registers are free (R356). -/
def freeScatter (k m : Nat) (s : State) : State :=
  if (arrs s k).rows.any fun x => x.amask == m then s
  else (maskArrs m).foldl (fun s a => s.putB (Reg.arrayTq0 k + 0x10 * a) 3 false) s

/-- SCATTER_ROW_ISSUE (R356, R358): one row enters the conflict queues, or waits for a CCLK in which the arrays freeze. -/
def execScatterRowIssue (k : CoreId) (s : State) : Res State :=
  match (arrs s k).rows with
  | [] => .next s
  | x :: rest =>
    onlyIf (s.cclk && coreState s k == 1) (fun s =>
      if rowBlocked s k x then
        pmcCount 0x08 k 1 ((s.putB (Reg.sparseStatus k) 1 true).sat (Reg.sparseFrzCq k))
      else
        let s := x.parts.foldl (enterUpdate k x) s
        freeScatter k x.amask ((setArr k { arrs s k with rows := rest } s).sat (Reg.sparseRows k))) s

/-- One element combined with its accumulator value (R357). -/
def scatterComb (how : Nat) (flt : Bool) (old x : W32) : W32 :=
  if flt then
    match how with
    | 1 => toF32 ((f32 old).add 0 (f32 x))
    | 2 => toF32 (fltMax (f32 old) (f32 x))
    | _ => toF32 (fltMin (f32 old) (f32 x))
  else
    match how with
    | 1 => old + x
    | 2 => if old.toInt < x.toInt then x else old
    | _ => if x.toInt < old.toInt then x else old

/-- Retire one update: read, combine, write back. -/
def retire (u : Update) (s : State) : State :=
  u.elems.foldl (fun s e =>
    let a := u.addr + 4 * e.1
    (s.leaveIf (engineOutside s [] a 4)).putBytes a (natLe 4 (scatterComb u.how u.flt (BitVec.ofNat 32 (leNat (s.bytes a 4))) e.2).toNat)) s

/-- BANK_ADDER_RETIRE (R357): the oldest update of bank b retires, also while the core drains (R363). -/
def execBankAdderRetire (k : CoreId) (b : Fin 32) (s : State) : Res State :=
  match cqOf s k b with
  | [] => .next s
  | u :: rest => onlyIf (s.cclk && (coreState s k == 1 || coreState s k == 2)) (fun s => retire u (setCq k b rest s)) s

end Sys2Proof.Machine
end

