-- ==== Sys2Proof/Machine/BankUnits.lean ====
section
/-! DEFINITION. Channel modes, ordinary accesses, and the bank units of 12_memory_and_bank_units.md (R381 to R403). The
times of R396 and R397 are left to the sender of the commands. -/

namespace Sys2Proof.Machine

/-! ### The command word -/

/-- The fields of a bank-unit command. -/
structure BuOp where
  op : Nat
  unit : Nat
  type : Nat
  n : Nat
  bs : Bool
  sat : Bool
  dunit : Nat
  s : Nat
  a : Nat
  b : Nat
  c : Nat
  d : Nat
  aux : Nat
  wa : Nat
  wb : Nat
  wd : Nat
  deriving DecidableEq, Repr

/-- Bits of a command, word `w`. -/
def buF (v : BitVec 256) (w lo n : Nat) : Nat := fieldN v.toNat (64 * w + lo) n

/-- Read a command's fields. -/
def buOp (v : BitVec 256) : BuOp where
  op := buF v 0 0 8
  unit := buF v 0 8 3
  type := buF v 0 12 4
  n := buF v 0 16 8 + 1
  bs := buF v 0 24 1 == 1
  sat := buF v 0 25 1 == 1
  dunit := buF v 0 26 3
  s := buF v 0 32 32
  a := buF v 1 0 24
  b := buF v 1 32 24
  c := buF v 2 0 24
  d := buF v 2 32 24
  aux := buF v 3 0 32
  wa := buF v 3 32 4 + 1
  wb := buF v 3 36 4 + 1
  wd := buF v 3 40 5 + 1

/-- Types an op allows. -/
def buTypes (op : Nat) : List Nat :=
  match op with
  | 0x01 => [0, 1, 2, 0xB, 5, 6, 7, 8, 9]
  | 0x02 => [0, 1, 2, 0xB, 5, 6, 7, 8, 9]
  | 0x03 => [5, 6, 7, 8, 9]
  | 0x04 => [5, 6, 7, 8, 9]
  | 0x08 => [0, 1, 2, 7, 8, 9]
  | 0x09 => [0, 1, 2, 7, 8, 9]
  | 0x0A => [0, 0xB, 5, 6]
  | 0x10 => [0, 0xB]
  | 0x11 => [0, 0xB]
  | 0x18 => List.range 16
  | 0x1F => List.range 16
  | _ => []

/-- Row, column and half of an operand field. -/
def opRow (o : Nat) : Nat := o % 2 ^ 17
def opCol (o : Nat) : Nat := fieldN o 17 3
def opHalf (o : Nat) : Nat := fieldN o 20 1

/-- A word-layout vector of n granules ends within its bank. -/
def vecFits (o n : Nat) : Bool := decide (8 * opRow o + opCol o + n ≤ 8 * 131072)
/-- A bit-serial operand of n blocks and w planes ends within its row and its bank. -/
def bitFits (o n w : Nat) : Bool := decide (opCol o + n ≤ 8 ∧ opRow o + w ≤ 131072)

/-- A reserved bit is set. -/
def buReserved (v : BitVec 256) : Bool :=
  buF v 0 11 1 != 0 || buF v 0 29 3 != 0 || buF v 3 45 19 != 0
    || (if buF v 0 0 8 = 0x1F then buF v 2 63 1 != 0
        else buF v 1 21 11 != 0 || buF v 1 53 11 != 0 || buF v 2 21 11 != 0 || buF v 2 53 11 != 0)

/-- A command is bad (R391). A bit-serial command that breaks R395's placement is bad too (log entry 18). -/
def buBad (v : BitVec 256) : Bool :=
  let o := buOp v
  let two := o.op = 0x01 ∨ o.op = 0x02 ∨ o.op = 0x03 ∨ o.op = 0x04
  !(buTypes o.op).contains o.type || buReserved v || decide (8 < o.wa ∨ 8 < o.wb ∨ 16 < o.wd) ||
    match o.op with
    | 0x1F => false
    | 0x10 => !bitFits o.a o.n o.wa || !bitFits o.b o.n o.wb || !bitFits o.d o.n o.wd
    | 0x11 => !bitFits o.a o.n o.wa || !bitFits o.b o.n o.wb || !bitFits o.d o.n o.wd
    | _ => !vecFits o.a o.n || !vecFits o.d o.n || (decide two && !o.bs && !vecFits o.b o.n) || (o.op == 0x04 && !vecFits o.c o.n)

/-! ### Granules (R372, R390, R393, R394) -/

/-- Device address of the granule in (bank, row, column) of channel c. -/
def granAddr (s : State) (c bank row col : Nat) : Nat :=
  chanInv s c ((row * 128 + col * 16 + (bank.xor (row / 32 % 16))) * 256)

/-- Granule i of a word-layout operand of unit u. -/
def vecGran (s : State) (c u o i : Nat) : Nat :=
  let k := 8 * opRow o + opCol o + i
  granAddr s c (2 * u + opHalf o) (k / 8) (k % 8)

/-- Plane j of block i of a bit-serial operand of unit u. -/
def bitGran (s : State) (c u o i j : Nat) : Nat := granAddr s c (2 * u + opHalf o) (opRow o + j) (opCol o + i)

/-- A granule holds an uncorrectable or poisoned word. -/
def granBad (s : State) (a : Nat) : Bool :=
  (List.range 32).any fun i => match healthOf s (a / 8 + i) with | .bad => true | .poisoned => true | _ => false

/-- Read granules: their bytes, whether any is bad, and the state after the reads are counted (R376, R393). -/
def granRead (s : State) : List Nat → List (List Byte) × Bool × State
  | [] => ([], false, s)
  | a :: l =>
    let (bs, s') := devRead a 256 s
    let (r, b, s'') := granRead s' l
    (bs :: r, granBad s a || b, s'')

/-- Write one destination granule, poisoned when an operand was bad. -/
def granWrite (a : Nat) (bad : Bool) (bs : List Byte) (s : State) : State :=
  if bad then poisonRange a 256 s else compWrite a bs s

/-! ### Element results (R392) -/

/-- Elements of a granule. -/
def granElems (n : Nat) (bs : List Byte) : List Nat := (List.range (256 / n)).map fun i => leAt bs (n * i) n

/-- The larger or smaller of two floating values; NaN if either is, −0 below +0. -/
def fSel (f : FFmt) (max : Bool) (a b : Nat) : Nat :=
  let x := f.decode a
  let y := f.decode b
  if x.isNan || y.isNan then f.nanBits else if x.ltz y == max then b else a

/-- One element of a word-layout result from elements of A, B and C. -/
def buElem (o : BuOp) (a b c : Nat) : Nat :=
  let w := elemBits o.type
  let lim (v : Nat) : Nat := v % 2 ^ w
  match floatFmt o.type, intFmt o.type with
  | some f, _ =>
    let put (x : FVal) : Nat := (f.round 0 o.sat x).1
    match o.op with
    | 0x01 => put ((f.decode a).add 0 (f.decode b))
    | 0x02 => put ((f.decode a).add 0 (f.decode b).neg)
    | 0x03 => put ((f.decode a).mul (f.decode b))
    | 0x04 => put (((f.decode a).mul (f.decode b)).add 0 (f.decode c))
    | 0x08 => if (f.decode a).isNan then f.nanBits else if (f.decode a).sign then 0 else a
    | _ => fSel f false (fSel f true a (lim o.s)) (lim o.aux)
  | none, some i =>
    let put (x : Int) : Nat := (i.put o.sat x).1
    match o.op with
    | 0x01 => put (i.val a + i.val b)
    | 0x02 => put (i.val a - i.val b)
    | 0x08 => put (max (i.val a) 0)
    | _ => put (min (max (i.val a) (i.val (lim o.s))) (i.val (lim o.aux)))
  | none, none => 0

/-- One granule of a word-layout result. -/
def buGran (o : BuOp) (a b c : List Byte) : List Byte :=
  let n := elemBits o.type / 8
  let es := (granElems n a).zip ((granElems n b).zip (granElems n c))
  es.flatMap fun e => natLe n (buElem o e.1 (if o.bs then o.s % 2 ^ (8 * n) else e.2.1) e.2.2)

/-- Element k of a bit-serial block of planes. -/
def bitElem (signed : Bool) (planes : List (List Byte)) (k : Nat) : Int :=
  let v := (planes.zipIdx.map fun p => if ((p.1.getD (k / 8) 0).toNat.testBit (k % 8)) then 2 ^ p.2 else 0).sum
  if signed then signedN planes.length v else v

/-- Plane j of the 2,048 results of a block. -/
def bitPlane (rs : List Int) (j : Nat) : List Byte :=
  (List.range 256).map fun y => BitVec.ofNat 8
    ((List.range 8).map fun i => if (wrapN 16 (rs.getD (8 * y + i) 0)).testBit j then 2 ^ i else 0).sum

/-! ### The channel -/

/-- Keep MEM_QUEUE as the queue of channel c stands. -/
def memSync (c : Nat) (s : State) : State :=
  let x := chan s c
  let busy := (List.range 8).map fun u =>
    if x.running.any fun r => (buOp r.cmd).unit == u || ((buOp r.cmd).op == 0x18 && (buOp r.cmd).dunit == u) then 2 ^ u else 0
  let bus := x.running.any fun r => (buOp r.cmd).op == 0x18
  s.wrN (Reg.memQueue c) (x.accq.length + 2 ^ 8 * busy.sum + (if bus then 2 ^ 16 else 0))

/-- A command of channel c counts as completed. -/
def buCount (c : Nat) (m : BuCmd) (s : State) : State :=
  (setChan s c (mapPort (chan s c) m.port fun p => { p with completed := p.completed + 1 })).sat (Reg.memCmdDone c)

/-- The tag and the address of a NOTIFY. -/
def notifyAddr (m : BuCmd) : Nat := buF m.cmd 1 0 64
def notifyTag (m : BuCmd) : Nat := buF m.cmd 2 0 63

/-- The address of a NOTIFY lies outside the on-die stores of the submitting core's partition (R403). -/
def notifyOutside (s : State) (m : BuCmd) : Bool :=
  let a := notifyAddr m
  match corePart s m.port with
  | none => true
  | some p =>
    let e := partEntry s p
    !((List.range 32).any (fun k => e.coreMask.testBit k && decide (localBase k ≤ a ∧ a + 8 ≤ localBase k + localSize))
      || decide (e.storeBase ≤ a ∧ a + 8 ≤ e.storeBase + e.storeSize))

/-- Write the tag of a NOTIFY; bit 63 marks one that was discarded (R398). -/
def notifyWrite (m : BuCmd) (dropped : Bool) (s : State) : State :=
  putEngine (notifyAddr m) (natLe 8 (notifyTag m + (if dropped then 2 ^ 63 else 0))) s

/-- Discard the accepted commands of channel c that have not started (R382, R389, R398, R401). -/
def buDiscard (c : Nat) (s : State) : Res State :=
  let l := (chan s c).accq
  let s := setChan s c { chan s c with accq := [], barriers := (chan s c).barriers.map fun b => (b.1, 0) }
  let drop (r : Res State) (m : BuCmd) : Res State := andThen r fun s =>
    let s := (buCount c m s).sat (Reg.memCmdDropped c)
    if (buOp m.cmd).op = 0x1F then (if notifyOutside s m then oc 403 else .next (notifyWrite m true s)) else .next s
  andThen (l.foldl drop (.next s)) fun s => .next (memSync c s)

/-- The destination granules of a command, as device addresses. -/
def buDest (s : State) (c : Nat) (o : BuOp) : List Nat :=
  match o.op with
  | 0x10 => (List.range o.n).flatMap fun i => (List.range o.wd).map fun j => bitGran s c o.unit o.d i j
  | 0x11 => (List.range o.n).flatMap fun i => (List.range o.wd).map fun j => bitGran s c o.unit o.d i j
  | 0x18 => (List.range o.n).map fun i => vecGran s c o.dunit o.d i
  | _ => (List.range o.n).map fun i => vecGran s c o.unit o.d i

/-- A running command is abandoned at the start of a hold: every destination granule is poisoned (R401, R531). -/
def buAbandon (c : Nat) (s : State) : State :=
  let l := (chan s c).running
  let s := setChan s c { chan s c with running := [] }
  memSync c (l.foldl (fun s m => buCount c m ((buDest s c (buOp m.cmd)).foldl (fun s a => poisonRange a 256 s) s)) s)

/-! ### Commands: modes (R381 to R383) -/

/-- A request for a mode of channel c: 0 memory, 1 processor. -/
def modeRequest (c mode : Nat) (s : State) : Res State :=
  let st := chanState s c
  if st = 3 then .next s
  else if st = 2 then .next (s.putF (Reg.memStatus c) 2 1 mode)
  else if st = mode then .next s
  else buDiscard c ((s.putF (Reg.memStatus c) 0 2 2).putF (Reg.memStatus c) 2 1 mode)

/-- A host request for a mode: refused while a hold is in force (R533). -/
def hostMode (c mode : Nat) : State → Res State :=
  hostWrite .held fun s => if s.inHold then .next s else modeRequest c mode s

/-- MEM_TO_MEMORY (R381, R382, R533). -/
def execMemToMemory (c : Fin 48) : State → Res State := hostMode c 0
/-- MEM_TO_PROCESSOR (R381, R382, R533). -/
def execMemToProcessor (c : Fin 48) : State → Res State := hostMode c 1
/-- A ring of an ENABLED queue lies in channel c (R181). -/
def ringIn (s : State) (c : Nat) : Bool :=
  (s.regs.any fun e => 0x80000 ≤ e.1 && e.1 < 0x90000 && e.1 % 0x40 == 4 && fieldN e.2.toNat 0 2 == 1
    && (chansOf s (s.rdQ (Reg.queueBase ((e.1 - 0x80000) / 0x40)) 2) (qDepth s ((e.1 - 0x80000) / 0x40) * qEsize s ((e.1 - 0x80000) / 0x40))).contains c)

/-- CHANNEL_DRAIN_COMPLETE (R381, R382): the running commands and the accesses that the channel had accepted have completed;
it enters its target mode. A ring in a channel that enters processor mode is outside contract (R181). -/
def execChannelDrainComplete (c : Fin 48) (s : State) : Res State :=
  onlyIf (s.cclk && chanState s c == 2 && (chan s c).running.isEmpty && (chan s c).barriers.isEmpty)
    (fun s => (s.leaveIf (if s.fld (Reg.memStatus c) 2 1 == 1 && ringIn s c then some 181 else none)).putF (Reg.memStatus c) 0 2 (s.fld (Reg.memStatus c) 2 1)) s

/-! ### Commands: ordinary accesses (R375 to R379, R399, R489 to R491) -/

/-- The length of an access. -/
def accLen : Access → Nat
  | .read n => n
  | .write bs => bs.length

/-- Perform an access of an agent now. -/
def accPerform (ag : Agent) (a : Nat) (acc : Access) (s : State) : Res State :=
  match acc with
  | .read n => .next ((busRead ag a n s).2.answer (.data (busRead ag a n s).1))
  | .write bs =>
    match writeOutside s ag a bs.length with
    | some r => oc r
    | none => .next (busWrite ag a bs s)

/-- A host access may be performed before those of `l`: no write passes a write, and a read passes nothing (R513). -/
def hostTurn (l : List (Nat × Access)) (acc : Access) : Bool :=
  if accWrites acc then !(l.any fun (e : Nat × Access) => accWrites e.2) else l.isEmpty

/-- The first access of a list that equals one given: those before it, and those after it. -/
def splitAtAccess (e : Nat × Access) : List (Nat × Access) → Option (List (Nat × Access) × List (Nat × Access))
  | [] => none
  | x :: l => if x = e then some ([], l) else (splitAtAccess e l).map fun (r : List (Nat × Access) × List (Nat × Access)) => (x :: r.1, r.2)

/-- A BAR2 access that waits at its channel is performed, in its turn (R399, R513). -/
def hostAccess (a : Nat) (acc : Access) (s : State) : Res State :=
  match splitAtAccess (a, acc) s.host.waiting with
  | none => .next s
  | some (before, rest) =>
    if hostTurn before acc then accPerform .host a acc (depart (.host a) { s with host := { s.host with waiting := before ++ rest } })
    else .next s

/-- The requester of an access of an agent to an address. -/
def requesterOf (ag : Agent) (a : Nat) : Requester :=
  match ag with
  | .host => .host a
  | .core k => .word k.val
  | .part p => .engine p.val
  | .chain => .engine 8

/-- MEMORY_ACCESS (R399): an ordinary access of an agent is performed at its channel. It waits while a meter is spent,
while a channel drains, and in processor mode for the commands before it. An access of the host is one of those that
wait. -/
def execMemoryAccess (ag : Agent) (a : W64) (acc : Access) (s : State) : Res State :=
  let n := accLen acc
  let a := a.toNat
  if !s.cclk || n == 0 || !(inComp a && inComp (a + n - 1)) then .next s
  else if meterWaits s ag a n then .next (meterMark ag a n s)
  else if chanWaits s (requesterOf ag a) a n then .next (if ag = .host then s else arrive (requesterOf ag a) a n s)
  else match ag with
    | .host => hostAccess a acc s
    | .core k => accPerform (.core k) a acc (depart (.word k) s)
    | .part p => accPerform (.part p) a acc (depart (.engine p) s)
    | .chain => accPerform .chain a acc (depart (.engine 8) s)

/-! ### Commands: the command queue (R386, R387, R391) -/

/-- COMMAND_SUBMIT (R386): core p writes the last word of a slot of its port, which submits the slot's command. -/
def execCommandSubmit (c : Fin 48) (p : CoreId) (slot : Fin 64) (w3 : W64) (s : State) : Res State :=
  onlyIf s.cclk (busWrite (.core p) (winBase + c * 0x100000 + p * 0x1000 + slot * 32 + 0x18) (natLe 8 w3.toNat)) s

/-- COMMAND_ACCEPT (R387, R391): the oldest submitted command is accepted when the queue has room, or refused. -/
def execCommandAccept (c : Fin 48) (s : State) : Res State :=
  match (chan s c).waiting with
  | [] => .next s
  | m :: l =>
    let x := chan s c
    if !s.tclk then .next s
    else if chanRefuses s c then .next (refuseCmd c m.port (setChan s c { x with waiting := l }))
    else if 64 ≤ x.accq.length then .next s
    else
      let x := mapPort { x with waiting := l } m.port fun p => { p with accepted := p.accepted + 1 }
      let s := (setChan s c x).sat (Reg.memCmdAccepted c)
      if buBad m.cmd then .next ((buCount c m s).sat (Reg.memBadCmd c))
      else .next (memSync c (setChan s c { chan s c with accq := (chan s c).accq ++ [m] }))

/-! ### Commands: starting a command (R392 to R396) -/

/-- The units a command needs are idle, and the bus for a MOVE. -/
def buIdle (s : State) (c : Nat) (o : BuOp) : Bool :=
  (chan s c).running.all fun r =>
    let y := buOp r.cmd
    let uses (u : Nat) : Bool := y.unit == u || (y.op == 0x18 && y.dunit == u)
    !uses o.unit && !(o.op == 0x18 && (uses o.dunit || y.op == 0x18))

/-- No ordinary access waits at channel c ahead of the command at the front of its queue (R396, R399). -/
def noBarrier (s : State) (c : Nat) : Bool := !(chan s c).barriers.any fun b => b.2 == 0
/-- The command at the front of the queue of channel c leaves it: `run` says whether it runs. -/
def takeFront (c : Nat) (run : List BuCmd) (s : State) : State :=
  setChan s c { chan s c with
    accq := (chan s c).accq.drop 1, running := (chan s c).running ++ run, barriers := (chan s c).barriers.map fun b => (b.1, b.2 - 1) }

/-- The command at the front of the queue of channel c starts, if it has this op, its units are idle and no access waits
ahead of it; `f` gives its effect on memory. Its results are not seen before it completes (R396, R399). -/
def buStart (op c : Nat) (f : BuOp → State → State) (s : State) : Res State :=
  match (chan s c).accq with
  | [] => .next s
  | m :: _ =>
    let o := buOp m.cmd
    onlyIf (s.cclk && o.op == op && buIdle s c o && noBarrier s c) (fun s => memSync c (f o (takeFront c [m] s))) s

/-- The effect of a word-layout command: granule by granule, each read before it is written. -/
def buWords (c : Nat) (o : BuOp) (s : State) : State :=
  let two := o.op = 0x01 ∨ o.op = 0x02 ∨ o.op = 0x03 ∨ o.op = 0x04
  (List.range o.n).foldl (fun s i =>
    let srcs := [vecGran s c o.unit o.a i] ++ (if decide two && !o.bs then [vecGran s c o.unit o.b i] else [])
      ++ (if o.op = 0x04 then [vecGran s c o.unit o.c i] else [])
    let (g, bad, s) := granRead s srcs
    let a := g.getD 0 []
    let b := if decide two && !o.bs then g.getD 1 [] else a
    let z := if o.op = 0x04 then g.getLastD [] else a
    granWrite (vecGran s c o.unit o.d i) bad (buGran o a b z) s) s

/-- The effect of LUT. -/
def buLut (c : Nat) (o : BuOp) (s : State) : State :=
  (List.range o.n).foldl (fun s i =>
    let (g, bad, s) := granRead s [vecGran s c o.unit o.a i, vecGran s c o.unit o.b 0]
    granWrite (vecGran s c o.unit o.d i) bad ((g.getD 0 []).map fun b => (g.getD 1 []).getD b.toNat 0) s) s

/-- The effect of MOVE. -/
def buMove (c : Nat) (o : BuOp) (s : State) : State :=
  (List.range o.n).foldl (fun s i =>
    let (g, bad, s) := granRead s [vecGran s c o.unit o.a i]
    granWrite (vecGran s c o.dunit o.d i) bad (g.getD 0 []) s) s

/-- The effect of BSADD and BSMUL. Where D shares a plane granule with A or B, which R395 rules out without a result, D
holds free values (log entry 18). -/
def buBits (mul : Bool) (c : Nat) (o : BuOp) (s : State) : State :=
  let signed := o.type == 0
  (List.range o.n).foldl (fun s i =>
    let as := (List.range o.wa).map fun j => bitGran s c o.unit o.a i j
    let bs := (List.range o.wb).map fun j => bitGran s c o.unit o.b i j
    let ds := (List.range o.wd).map fun j => bitGran s c o.unit o.d i j
    let shared := (buDest s c o).any fun d =>
      (List.range o.n).any fun k => (List.range o.wa).any (fun j => bitGran s c o.unit o.a k j == d)
        || (List.range o.wb).any (fun j => bitGran s c o.unit o.b k j == d)
    let (ga, bada, s) := granRead s as
    let (gb, badb, s) := granRead s bs
    let rs := (List.range 2048).map fun k =>
      let x := bitElem signed ga k
      let y := bitElem signed gb k
      if mul then x * y else x + y
    ds.zipIdx.foldl (fun s d =>
      let plane := if shared then (List.range 256).map fun k => Config.freeByte (s.freeCtr * 256 + k) else bitPlane rs d.2
      granWrite d.1 (bada || badb) plane (if shared then s.tickFree else s)) s) s

/-- BANK_UNIT_ADD (R392). -/
def execBankUnitAdd (c : Fin 48) : State → Res State := buStart 0x01 c (buWords c)
/-- BANK_UNIT_SUB (R392). -/
def execBankUnitSub (c : Fin 48) : State → Res State := buStart 0x02 c (buWords c)
/-- BANK_UNIT_MUL (R392). -/
def execBankUnitMul (c : Fin 48) : State → Res State := buStart 0x03 c (buWords c)
/-- MADD (R392). -/
def execMadd (c : Fin 48) : State → Res State := buStart 0x04 c (buWords c)
/-- RELU (R392). -/
def execRelu (c : Fin 48) : State → Res State := buStart 0x08 c (buWords c)
/-- BANK_UNIT_CLAMP (R392). -/
def execBankUnitClamp (c : Fin 48) : State → Res State := buStart 0x09 c (buWords c)
/-- LUT (R392). -/
def execLut (c : Fin 48) : State → Res State := buStart 0x0A c (buLut c)
/-- BSADD (R394, R395). -/
def execBsadd (c : Fin 48) : State → Res State := buStart 0x10 c (buBits false c)
/-- BSMUL (R394, R395). -/
def execBsmul (c : Fin 48) : State → Res State := buStart 0x11 c (buBits true c)
/-- MOVE (R396). -/
def execMoveBu (c : Fin 48) : State → Res State := buStart 0x18 c (buMove c)

/-- NOTIFY (R398, R403): every earlier command of the channel has completed; the tag is written. -/
def execNotify (c : Fin 48) (s : State) : Res State :=
  match (chan s c).accq with
  | [] => .next s
  | m :: _ =>
    if !s.cclk || (buOp m.cmd).op != 0x1F || !(chan s c).running.isEmpty || !noBarrier s c then .next s
    else if notifyOutside s m then oc 403
    else .next (memSync c (buCount c m (notifyWrite m false (takeFront c [] s))))

/-- BANK_UNIT_COMPLETE (R396): the command running on unit u completes. -/
def execBankUnitComplete (c : Fin 48) (u : Fin 8) (s : State) : Res State :=
  match (chan s c).running.find? (fun r => (buOp r.cmd).unit == u.val) with
  | none => .next s
  | some m => onlyIf s.tclk (fun s =>
      memSync c (buCount c m (setChan s c { chan s c with running := (chan s c).running.erase m }))) s

/-- MGMT_TEMP shows the hottest memory device. -/
def memHottest (s : State) : State :=
  let ts := (List.range 12).map fun d => BitVec.ofNat 8 (s.fld (Reg.mgmtTempMd (d / 4)) (8 * (d % 4)) 8)
  s.putF Reg.mgmtTemp 8 8 ((ts.foldl (fun a b => if a.toInt < b.toInt then b else a) (ts.headD 0)).toNat)

/-- MEM_TEMP_SAMPLE (R397, R584): the sensor of device d is sampled. -/
def execMemTempSample (d : Fin 12) (t : BitVec 8) (s : State) : Res State :=
  onlyIf (s.tclk && s.bistDone) (fun s =>
    let s := [0, 1, 2, 3].foldl (fun s i =>
      let c := 4 * d.val + i
      let s := s.putF (Reg.memTemp c) 0 8 t.toNat
      if 85 < t.toInt then s.putB (Reg.memStatus c) 3 true
      else if t.toInt ≤ 83 then s.putB (Reg.memStatus c) 3 false else s) s
    memHottest (s.putF (Reg.mgmtTempMd (d / 4)) (8 * (d.val % 4)) 8 t.toNat)) s
end Sys2Proof.Machine
end

