-- ==== Sys2Proof/Machine/Time.lean ====
section
/-! DEFINITION. The time base, its stamps, PPS, and the loss of SYSCLK (03_position_and_time.md R65 to R79, R596,
R597). -/

namespace Sys2Proof.Machine

/-! ### Stamps (R68, R70) -/

/-- A time base in units of 2⁻³² ns since the epoch. -/
def tb32 (t : TimeBase) : Nat := State.tbNs t * 2 ^ 32 + t.frac.toNat
/-- The time base at a number of units. -/
def ofTb32 (n : Nat) : TimeBase :=
  ⟨BitVec.ofNat 64 (n / 2 ^ 32 / 1000000000), BitVec.ofNat 30 (n / 2 ^ 32 % 1000000000), BitVec.ofNat 32 n⟩
/-- The time base now. -/
def now32 (s : State) : Nat := tb32 s.pos.tb

/-- The time base follows the chain (R77). -/
def chainBound (s : State) : Bool := s.bit Reg.timeStatus 4
/-- Effective lock (R75, R77). -/
def timeLock (s : State) : Bool := s.bit Reg.timeStatus 0

/-- The 16-byte stamp of an instant. -/
def stampAt (s : State) (n : Nat) : TStamp :=
  BitVec.ofNat 128 (n / 2 ^ 16 % 2 ^ 16 + 2 ^ 16 * (if timeLock s then 0 else 1) + 2 ^ 17 * (if chainBound s then 1 else 0)
    + 2 ^ 32 * (n / 2 ^ 32 % 1000000000) + 2 ^ 64 * (n / 2 ^ 32 / 1000000000 % 2 ^ 64))
/-- The stamp of the current instant. -/
def nowStamp (s : State) : TStamp := stampAt s (now32 s)
/-- What the time base adds each TCLK, in units of 2⁻³² ns: nothing while it is held (R70, R74). -/
def tbInc (s : State) : Nat := if s.bit Reg.timeCtrl 0 then (2 ^ 32 + (s.rd Reg.timeTrim).toInt).toNat else 0
/-- The instant of an edge that reached its ball `age` TCLK before this one, `q` quarters of a nanosecond into that TCLK,
rounded down to 0.25 ns (R85). The time base is taken to have counted by its present increment since (log entry 69). -/
def edgeInstant (s : State) (q age : Nat) : Nat := (now32 s + q * 2 ^ 30 - age * tbInc s) / 2 ^ 30 * 2 ^ 30
/-- The stamp of an instant `ago` units of 2⁻¹⁶ ns before this one (R80). -/
def agoStamp (s : State) (ago : Nat) : TStamp := stampAt s (now32 s - ago * 2 ^ 16)

/-- Sub-nanosecond units (2⁻¹⁶ ns) of a stamp, its ns field taken as at most 999,999,999 (R72, R100). -/
def stamp16 (t : TStamp) : Nat :=
  (t.toNat / 2 ^ 64 * 1000000000 + min (t.toNat / 2 ^ 32 % 2 ^ 30) 999999999) * 2 ^ 16 + t.toNat % 2 ^ 16
/-- A signed number of picoseconds of an instant. -/
def stampPs (t : TStamp) : Int := (stamp16 t : Int) * 1000 / 65536

/-- This chip is the position master of its chain. -/
def isMaster (s : State) : Bool := s.warp.image && s.warp.chip == s.warp.master
/-- Mode code of counter n. -/
def pkMode (s : State) (n : Nat) : Nat := s.fld (Reg.posPkCfg n) 0 3
/-- Counter n follows the chain (R93). -/
def pkChain (s : State) (n : Nat) : Bool := pkMode s n == 5 && !isMaster s
/-- Count of counter n, 48 bits. -/
def pkCount (s : State) (n : Nat) : Nat := s.rdQ (Reg.posPkCount n) 2 % 2 ^ 48
/-- A 48-bit count as a signed number. -/
def signed48 (n : Nat) : Int := signedN 48 n
/-- Write a count, sign-extended to 64 bits. -/
def setPkCount (s : State) (n v : Nat) : State := s.wrQ (Reg.posPkCount n) 2 (wrapN 64 (signed48 v))

/-- The pick stamp of counter n. -/
def pickStamp (s : State) (n : Nat) : PStamp :=
  BitVec.ofNat 64 (pkCount s n + 2 ^ 48 * s.fld (Reg.posPkStatus n) 0 2 + 2 ^ 50 * s.fld (Reg.posPkStatus n) 2 1 + 2 ^ 51 * n
    + 2 ^ 53 * (if pkChain s n then 1 else 0) + 2 ^ 54 * (if s.clk == .running then 0 else 1))

/-- Keep TIME_STATUS.lock and its mirror as R75 and R77 state. -/
def timeSync (s : State) : State :=
  let l := if chainBound s then s.chain.lastLock && s.bit Reg.timeStatus 5 else s.bit Reg.timeCtrl 1 && s.bit Reg.timeCtrl 0
  (s.putB Reg.timeStatus 0 l).putB Reg.globalPwrupStatus 5 l

/-! ### Counting -/

/-- The time base after n TCLK (R70). -/
def tbAdvance (s : State) (n : Nat) : State :=
  if s.bit Reg.timeCtrl 0 then
    let t := now32 s + n * tbInc s
    let passes (unit : Nat) : Bool := decide (now32 s / (unit * 2 ^ 32) < t / (unit * 2 ^ 32))
    { s with pos := { s.pos with
      tb := ofTb32 t
      secDue := s.pos.secDue || passes 1000000000
      msDue := s.pos.msDue || passes 1000000 } }
  else s

/-! ### The load window of the embedding engine (R418) -/

/-- Latch one of the three counts of the window into its register of every table described. -/
def latchCount (reg : Nat → Nat) (counts : Tab Nat) (s : State) : State :=
  s.emb.tabs.foldl (fun s t => s.wrN (reg t.1) (Tab.get (fun _ => 0) counts t.1)) s

/-- A load window ends: its counts are latched and the next begins. -/
def loadWindowEnd (s : State) : State :=
  let s := latchCount Reg.embTabLoad s.emb.load s
  let s := latchCount Reg.embTabLoadRemote s.emb.remote s
  let s := latchCount Reg.embTabLoadSent s.emb.sent s
  let s := s.inc Reg.embWindow
  { s with emb := { s.emb with load := [], remote := [], sent := [] }, pos := { s.pos with msDue := false } }

/-! ### TIME commands -/

/-- TIME_SET (R72, R77): the values are sampled; a set in progress goes on (R12). -/
def execTimeSet (s : State) : Res State :=
  hostWrite .time (fun s =>
    if chainBound s || s.bit Reg.timeCtrl 2 then .next s
    else
      let t : TimeBase := ⟨BitVec.ofNat 64 (s.rdQ Reg.timeSetSec 2), BitVec.ofNat 30 (min (s.fld Reg.timeSetNs 0 30) 999999999),
        BitVec.ofNat 32 (s.fld Reg.timeSetFrac 0 16 * 2 ^ 16)⟩
      .next { (s.putB Reg.timeCtrl 2 true) with pos := { s.pos with setReq := some t } }) s

/-- TIME_STEP (R73, R77). -/
def execTimeStep (s : State) : Res State :=
  hostWrite .time (fun s =>
    if chainBound s || s.bit Reg.timeCtrl 3 then .next s
    else .next { (s.putB Reg.timeCtrl 3 true) with
      pos := { s.pos with stepReq := some (signedN 64 (s.rdQ Reg.timeStep 2), s.fld Reg.timeStepFrac 0 16) } }) s

/-- TIME_SNAP (R76). -/
def execTimeSnap (s : State) : Res State := hostWrite .time (fun s => .next (s.putB Reg.timeCtrl 4 true)) s

/-- TIME_SNAP_DONE (R76): the time stamp and four pick stamps of one TCLK. -/
def execTimeSnapDone (s : State) : Res State :=
  onlyIf (s.tclk && s.bit Reg.timeCtrl 4) (fun s =>
    let t := (nowStamp s).toNat
    let ps := (List.range 4).map fun n => (pickStamp s n).toNat
    ps.zipIdx.foldl (fun s x => s.wrQ (Reg.timeSnapPk x.2) 2 x.1) ((s.wrQ Reg.timeSnap 4 t).putB Reg.timeCtrl 4 false)) s

/-- Put a value into TIME_TRIM, clamped to ±1,000 ppm (R71). -/
def trimPut (v : W32) (s : State) : State :=
  let lim : Int := 0x418937
  let x := if v.toInt < -lim then -lim else if lim < v.toInt then lim else v.toInt
  let s := if x = v.toInt then s else s.putB Reg.timeStatus 1 true
  s.wr Reg.timeTrim (BitVec.ofInt 32 x)

/-- TIME_TRIM_WRITE (R71, R77): TIME_TRIM holds the clamped value. -/
def execTimeTrimWrite (v : W32) (s : State) : Res State :=
  hostWrite .time (fun s => .next (if chainBound s then s else trimPut v s)) s

/-- TIME packet of the trace (R543). -/
def traceTime (s : State) : State := traceSys 0x9 (s.pos.tb.sec.toNat % 2 ^ 48) s

/-- TIME_BASE_SECOND (R79, R543): the time base has passed a whole second by counting. A pulse that is still high then, which a
step or set can bring about, goes on, and no new one begins: DESIGN CHOICE, log entry 69, R79 does not say. -/
def execTimeBaseSecond (s : State) : Res State :=
  onlyIf (s.tclk && s.pos.secDue) (fun s =>
    let s := traceTime { s with pos := { s.pos with secDue := false } }
    if s.bit Reg.timeCtrl 5 && !s.pos.ppsPulse then
      { s with pos := { s.pos with ppsPulse := true }, pins := { s.pins with ppsOut := true } }
    else s) s

/-- PPS_OUT_PULSE_END (R79). -/
def execPpsOutPulseEnd (s : State) : Res State :=
  onlyIf (s.tclk && s.pos.ppsPulse)
    (fun s => { s with pos := { s.pos with ppsPulse := false }, pins := { s.pins with ppsOut := false } }) s

/-- PPS_IN_EDGE (R78): an edge of the kind that TIME_CTRL.pps_in_fall selects. -/
def execPpsInEdge (rising : Bool) (quarter : Fin 4) (s : State) : Res State :=
  onlyIf (s.tclk && rising != s.bit Reg.timeCtrl 6) (fun s =>
    let s := (s.wrQ Reg.timePpsStamp 4 (stampAt s (edgeInstant s quarter 0)).toNat).inc Reg.timePpsCount
    { (s.putB Reg.timeStatus 3 true) with pos := { s.pos with ppsSeen := true } }) s

/-- PPS_LOST_TIMEOUT (R78): 1.1 s without an edge, after at least one. -/
def execPpsLostTimeout (s : State) : Res State :=
  onlyIf (s.tclk && s.pos.ppsSeen && s.bit Reg.timeStatus 3) (fun s => (s.putB Reg.timeStatus 2 true).putB Reg.timeStatus 3 false) s

/-! ### Loss of SYSCLK (R67, R596, R597) -/

/-- A counter becomes UNREFERENCED. -/
def unrefPick (s : State) (n : Nat) : State := s.putB (Reg.posPkStatus n) 2 true

/-- What a loss of TCLK does at once (R67). -/
def clockLost (s : State) : State :=
  [0, 1, 2, 3].foldl unrefPick (timeSync ((s.putB Reg.timeStatus 6 true).putB Reg.timeCtrl 1 false))

/-- SYSCLK_LOSS (R67, R472): everything on SYSCLK halts; the selvedge decides FABRIC_CLOCK. -/
def execSysclkLoss (s : State) : Res State :=
  onlyIf (s.clk != .stopped && !s.frz.frozen) (fun s =>
    let s := { s with clk := .stopped }
    let s := if s.up then clockLost s else s
    selvEvent 0x03 0 [] s) s

/-- SYSCLK_RETURN (R597): the PLLs start to relock. -/
def execSysclkReturn (s : State) : Res State :=
  onlyIf (s.clk == .stopped && !s.frz.frozen) (fun s => { s with clk := .relocking }) s

/-- PLL_RELOCK (R596, R597): the fabric continues from its held state; after a loss longer than 1 ms companion memory has
undefined contents. -/
def execPllRelock (lossOverMs : Bool) (s : State) : Res State :=
  onlyIf (s.clk == .relocking && !s.frz.frozen) (fun s =>
    let s := { s with clk := .running, pos := { s.pos with resumed := s.pos.now } }
    if lossOverMs then s.loseComp else s) s

end Sys2Proof.Machine
end

