-- ==== Sys2Proof/Machine/Grid.lean ====
section
/-! DEFINITION. Grid buffers of 04_sweep_intake.md: opening, flipping, closing, releasing and clearing (R132 to R140). A
buffer's header and region map stand in the shared store; its counts are also kept in the state of the intake. -/

namespace Sys2Proof.Machine

/-! ### Reading -/

/-- Grid g of the TRANSFORM sections. -/
def gridOf (s : State) (g : Nat) : Option Grid := (s.intake.grids.find? fun e => e.1 == g).map Prod.snd
/-- Replace a grid. -/
def putGrid (s : State) (g : Nat) (x : Grid) : State :=
  { s with intake := { s.intake with grids := s.intake.grids.map fun e => if e.1 = g then (g, x) else e } }
/-- Buffer 0 or 1 of a grid. -/
def Grid.buf (x : Grid) (b : Nat) : GridBuf := if b = 0 then x.b0 else x.b1
/-- Replace a buffer of a grid. -/
def Grid.setBuf (x : Grid) (b : Nat) (v : GridBuf) : Grid := if b = 0 then { x with b0 := v } else { x with b1 := v }
/-- Device address of a buffer. -/
def Grid.addr (x : Grid) (b : Nat) : Nat := if b = 0 then x.buf0 else x.buf1
/-- Number of the buffer in a state, the lower first. -/
def Grid.find (x : Grid) (st : BufState) : Option Nat :=
  if x.b0.st = st then some 0 else if x.b1.st = st then some 1 else none
/-- Blocks of the window. -/
def Grid.nblocks (x : Grid) : Nat := x.nb.getD 0 0 * x.nb.getD 1 0 * x.nb.getD 2 0
/-- Bytes of the region map: one bit a block, rounded up to 64 bytes. -/
def Grid.mapSize (x : Grid) : Nat := (x.nblocks + 511) / 512 * 64
/-- Offset of the block pool, the brick pool, the key list and the point pool in a buffer (R342). -/
def Grid.offBlocks (x : Grid) : Nat := 128 + x.mapSize
def Grid.offBricks (x : Grid) : Nat := x.offBlocks + x.capBlocks * 1088
def Grid.offKeys (x : Grid) : Nat := x.offBricks + x.capBricks * 2112
def Grid.offPoints (x : Grid) : Nat := x.offKeys + x.capKeys * 16
/-- Bytes of a buffer. -/
def Grid.bufSize (x : Grid) : Nat := x.offPoints + x.capPoints * 32

/-- Keep INTAKE_GRIDg_STATUS and the sequence of the OPEN buffer as the grid stands. -/
def gridSync (g : Nat) (s : State) : State :=
  match gridOf s g with
  | none => s
  | some x =>
    match x.find .open with
    | some b =>
      let st := if ptEnabled s x.part then 1 else 3
      let s := (s.putF (Reg.intakeGridStatus g) 0 2 st).putF (Reg.intakeGridStatus g) 2 1 b
      let s := s.putB (Reg.intakeGridStatus g) 3 ((x.buf (1 - b)).st == .ready)
      s.wrQ (Reg.intakeGridSeq g) 2 (x.buf b).seq
    | none =>
      let st := if ptEnabled s x.part then 2 else 3
      (s.putF (Reg.intakeGridStatus g) 0 2 st).putB (Reg.intakeGridStatus g) 3 ((x.find .ready).isSome)

/-- Write a grid and what its status shows. -/
def setGrid (g : Nat) (x : Grid) (s : State) : State := gridSync g (putGrid s g x)

/-- Write the counts and flags of a buffer into its header. -/
def headerCounts (x : Grid) (b : Nat) (s : State) : State :=
  let v := x.buf b
  putEngine (x.addr b + 0x38)
    (natLe 4 v.keys ++ natLe 4 v.points ++ natLe 4 v.blocks ++ natLe 4 v.bricks ++ natLe 4 v.flags ++ natLe 4 v.lost) s

/-! ### Opening and flipping (R135, R137, R139, R140) -/

/-- Buffer b of grid g opens with the next sequence number, at the TCLK stamped `t`: open stamps, origin and pick length are
taken; `stall` sets the stall-before-open flag. -/
def gridOpen (g b : Nat) (stall : Bool) (t : TStamp) (s : State) : State :=
  match gridOf s g with
  | none => s
  | some x =>
    let v : GridBuf := { GridBuf.ready with st := .open, seq := x.nextSeq, popen := pkCount s x.counter, opened := t,
                                            flags := if stall then 32 else 0, pickLen := s.rd (Reg.intakeGridPicklen g)
                                            origin := [s.rd (Reg.intakeGridOriginX g), s.rd (Reg.intakeGridOriginY g),
                                              s.rd (Reg.intakeGridOriginZ g)] }
    let x := { x.setBuf b v with nextSeq := x.nextSeq + 1 }
    let s := putEngine (x.addr b)
      (natLe 8 v.seq ++ natLe 16 t.toNat ++ natLe 8 (pickStamp s x.counter).toNat) s
    setGrid g x (headerCounts x b s)

/-- Flip grid g of an ENABLED partition at the TCLK stamped `t`: the OPEN buffer takes the close stamps and becomes CLOSED, and
the other opens if it is READY (R135). A STALLED grid has no OPEN buffer and stays as it is. -/
def gridFlip (g : Nat) (t : TStamp) (s : State) : State :=
  match gridOf s g with
  | none => s
  | some x =>
    match x.find .open with
    | none => s
    | some b =>
      if !ptEnabled s x.part then s
      else
        let s := putEngine (x.addr b + 0x20) (natLe 16 t.toNat ++ natLe 8 (pickStamp s x.counter).toNat) s
        let x := x.setBuf b { x.buf b with st := .closing }
        let s := setGrid g x s
        if (x.buf (1 - b)).st = .ready then gridOpen g (1 - b) false t s else s

/-- Flip every grid that position doorbell d flips, at the TCLK of the firing (R135). -/
def gridsFlip (d : Nat) (t : TStamp) (s : State) : State :=
  s.intake.grids.foldl (fun s e => if e.2.flipDb = some d then gridFlip e.1 t s else s) s

/-- A reference load on counter n: every OPEN buffer of a grid on it shows flag bit 6 (R140). -/
def gridRefLoad (n : Nat) (s : State) : State :=
  s.intake.grids.foldl (fun s e =>
    if e.2.counter = n then
      match gridOf s e.1 with
      | none => s
      | some x =>
        match x.find .open with
        | none => s
        | some b =>
          let x := x.setBuf b { x.buf b with flags := (x.buf b).flags ||| 64 }
          setGrid e.1 x (headerCounts x b s)
    else s) s

/-- Clear the header and the region map of a buffer (R138). -/
def clearBuf (x : Grid) (b : Nat) (s : State) : State := putEngine (x.addr b) (zeros (128 + x.mapSize)) s

/-- Every grid of partition n starts: both buffers cleared, buffer 0 open with sequence 0, buffer 1 READY (R139). -/
def gridsStart (n : Nat) (s : State) : State :=
  s.intake.grids.foldl (fun s e =>
    if e.2.part = n then
      let x := { e.2 with b0 := .ready, b1 := .ready, nextSeq := 0 }
      gridOpen e.1 0 false (nowStamp s) (putGrid (clearBuf x 1 (clearBuf x 0 s)) e.1 x)
    else s) s

/-- The grids of partition n show that it is no longer ENABLED, or that it is. -/
def gridsShow (n : Nat) (s : State) : State :=
  s.intake.grids.foldl (fun s e => if e.2.part = n then gridSync e.1 s else s) s

/-! ### Closing, releasing, clearing (R136 to R138) -/

/-- A committed frame that belongs to buffer b of grid g is still to be inserted. -/
def bufPending (s : State) (g b : Nat) : Bool := s.intake.frames.any fun f => f.grid == g && f.buf == some b

/-- INTAKE_GRID_FLIP (R135): INTAKE_GRIDg_CTRL.flip. -/
def execIntakeGridFlip (g : Fin 64) : State → Res State := hostWrite .fabric fun s => .next (gridFlip g (nowStamp s) s)

/-- GRID_BUFFER_CLOSED (R136): closed is set in the header once every frame of the buffer is inserted. -/
def execGridBufferClosed (g : Fin 64) (s : State) : Res State :=
  match gridOf s g with
  | none => .next s
  | some x =>
    match x.find .closing with
    | none => .next s
    | some b =>
      onlyIf (s.cclk && !bufPending s g b) (fun s =>
        let v := x.buf b
        let x := x.setBuf b { v with st := if v.released then .clearing else .closed, flags := v.flags ||| 1 }
        setGrid g x (headerCounts x b s)) s

/-- The buffer of a grid that an element with value `v` on its release queue releases: a CLOSED buffer, whether or not its
header shows it yet. -/
def Grid.releasable (x : Grid) (v : Nat) : Option Nat :=
  if (x.b0.st = .closed ∨ x.b0.st = .closing ∧ !x.b0.released) ∧ x.b0.seq = v then some 0
  else if (x.b1.st = .closed ∨ x.b1.st = .closing ∧ !x.b1.released) ∧ x.b1.seq = v then some 1
  else none

/-- Release a buffer. A buffer that still waits for its frames is cleared after them. -/
def gridFree (g b : Nat) (s : State) : State :=
  match gridOf s g with
  | none => s
  | some x =>
    let v := x.buf b
    setGrid g (x.setBuf b (if v.st = .closed then { v with st := .clearing } else { v with released := true })) s

/-- GRID_RELEASE (R138): the element at the head of the release queue of grid g is consumed. It releases the buffer it
names of a grid that has this release queue, or sets release_mismatch. -/
def execGridRelease (g : Fin 64) (s : State) : Res State :=
  match gridOf s g with
  | none => .next s
  | some x =>
    let q := x.releaseQ
    if !s.cclk || qCons s q != 3 then .next s
    else match qPeek s q with
      | none => .next s
      | some bs =>
        engAccess s (takeRange s q) fun s =>
          let v := leNat (bs.take 8)
          let s := qTake q s
          let gs := s.intake.grids.filter fun e => e.2.releaseQ == q
          match gs.find? (fun e => (e.2.releasable v).isSome) with
          | some (h, y) => .next (gridFree h ((y.releasable v).getD 0) s)
          | none => .next (gs.foldl (fun s e => s.putB (Reg.intakeGridStatus e.1) 4 true) s)

/-- GRID_CLEAR_DONE (R137, R138): a released buffer is READY; it opens at once if the grid is STALLED. -/
def execGridClearDone (g : Fin 64) (s : State) : Res State :=
  match gridOf s g with
  | none => .next s
  | some x =>
    match x.find .clearing with
    | none => .next s
    | some b =>
      onlyIf s.cclk (fun s =>
        let y := x.setBuf b .ready
        let s := setGrid g y (clearBuf x b s)
        if y.find .open = none ∧ ptEnabled s x.part then gridOpen g b true (nowStamp s) s else s) s

end Sys2Proof.Machine
end

