-- ==== Sys2Proof/Machine/Points.lean ====
section
/-! DEFINITION. Point frames of 04_sweep_intake.md: templates, the five steps from a point to its voxel, and insertion into
the hierarchy of the OPEN buffer (R122 to R134, R147, R341 to R343). -/

namespace Sys2Proof.Machine

/-! ### FP32 arithmetic, each operation rounded to nearest even -/

def fAdd (a b : W32) : W32 := toF32 ((f32 a).add 0 (f32 b))
def fSub (a b : W32) : W32 := toF32 ((f32 a).add 0 (f32 b).neg)
def fMul (a b : W32) : W32 := toF32 ((f32 a).mul (f32 b))
def fDiv (a b : W32) : W32 := toF32 ((f32 a).div (f32 b))
/-- A value is finite. -/
def FVal.isFin : FVal → Bool
  | .fin _ _ _ => true
  | _ => false
/-- Floor of a finite value. -/
def FVal.floor (x : FVal) : Int := x.toInt 2

/-! ### Sine and cosine, far beyond FP32 -/

/-- Fraction bits of the fixed point. -/
def trigBits : Nat := 400
/-- arctan(1/n) in fixed point: term n^-(2k+1), its divisor, and sign. -/
def atanSum : Nat → Nat → Nat → Int → Int
  | 0, _, _, _ => 0
  | fuel + 1, n2, k, t => t / (2 * k + 1) + atanSum fuel n2 (k + 1) (-t / n2)
def atanInv (n : Nat) : Int := atanSum 100 (n * n) 0 ((2 ^ trigBits / n : Nat) : Int)
/-- 2π in fixed point. -/
def twoPi : Int := 32 * atanInv 5 - 8 * atanInv 239
/-- An angle modulo 2π in fixed point. -/
def angle (s : Bool) (m : Nat) (e : Int) : Int :=
  let q := e + trigBits
  let a : Int := if 0 ≤ q then ((m * 2 ^ q.toNat : Nat) : Int) else ((m / 2 ^ (-q).toNat : Nat) : Int)
  (if s then -a else a) % twoPi
/-- Sum of an alternating power series: terms t, t x² / (k (k + 1)), … -/
def trigSum : Nat → Int → Nat → Int → Int
  | 0, _, _, _ => 0
  | fuel + 1, x2, k, t => t + trigSum fuel x2 (k + 2) (-(t * x2 / 2 ^ trigBits) / (k * (k + 1)))
def cosFix (x : Int) : FVal := ofSigned (trigSum 80 (x * x / 2 ^ trigBits) 1 (2 ^ trigBits)) (-trigBits) false
def sinFix (x : Int) : FVal := ofSigned (trigSum 80 (x * x / 2 ^ trigBits) 2 x) (-trigBits) false
/-- Cosine of a value. -/
def FVal.cos : FVal → FVal
  | .fin s m e => cosFix (angle s m e)
  | _ => .nan
/-- Sine of a value. -/
def FVal.sin : FVal → FVal
  | .fin s m e => sinFix (angle s m e)
  | _ => .nan

/-- Coordinate `i` of a spherical point: any value within 4·10⁻⁷ r of the exact one (R127), the free value of its operands
where that is such a value. -/
def cartesian (i : Nat) (r a e : W32) : W32 :=
  let exact := match i with
    | 0 => ((f32 r).mul (f32 e).cos).mul (f32 a).cos
    | 1 => ((f32 r).mul (f32 e).cos).mul (f32 a).sin
    | _ => (f32 r).mul (f32 e).sin
  let c := BitVec.ofNat 32 (Config.fnCand (4 + i) 9 (r.toNat + 2 ^ 32 * a.toNat + 2 ^ 64 * e.toNat))
  let d := (((f32 c).add 0 exact.neg).abs).mul (.ofInt 10000000)
  if exact.isFin && (f32 c).isFin && !((FVal.ofInt 4).mul (f32 r).abs).lt d then c else toF32 exact

/-! ### Templates (R122 to R126) -/

/-- One field descriptor. -/
structure Field where
  src : Nat
  type : Nat
  offset : Nat
  scale : W32
  bias : W32
  big : Bool
  azOff : Bool
  deriving DecidableEq, Repr

namespace Template

def coord (t : Template) : Nat := leAt t.bytes 0x001 1
def firstBlock (t : Template) : Nat := leAt t.bytes 0x002 2
def blocks (t : Template) : Nat := leAt t.bytes 0x004 2
def blockStride (t : Template) : Nat := leAt t.bytes 0x006 2
def blockHdr (t : Template) : Nat := leAt t.bytes 0x008 2
def points (t : Template) : Nat := leAt t.bytes 0x00A 2
def pointStride (t : Template) : Nat := leAt t.bytes 0x00C 2
def tableLen (t : Template) : Nat := leAt t.bytes 0x00E 2
def word (t : Template) (o : Nat) : W32 := BitVec.ofNat 32 (leAt t.bytes o 4)
def minRange (t : Template) : W32 := t.word 0x010
def maxRange (t : Template) : W32 := t.word 0x014
def rxLatency (t : Template) : Nat := leAt t.bytes 0x018 4
def elev (t : Template) (c : Nat) : W32 := t.word (0x0C0 + 4 * c)
def azOff (t : Template) (c : Nat) : W32 := t.word (0x2C0 + 4 * c)
def field (t : Template) (i : Nat) : Field :=
  let o := 0x040 + 16 * i
  ⟨leAt t.bytes o 1, leAt t.bytes (o + 1) 1, leAt t.bytes (o + 2) 2, t.word (o + 4), t.word (o + 8),
    (leAt t.bytes (o + 12) 4).testBit 0, (leAt t.bytes (o + 12) 4).testBit 1⟩
/-- Spherical coordinates; a coord code the table does not list gives either (log entry 15). -/
def spherical (t : Template) : Bool := t.coord == 0 || (decide (1 < t.coord) && Config.freeBool t.coord)
/-- Some field uses a channel table. -/
def usesTables (t : Template) : Bool := (List.range 8).any (fun i => (t.field i).src == 4) || (t.field 1).azOff

end Template

/-- The rule that puts a template outside contract, if one does (R122, R125). -/
def templateOutside (t : Template) : Option Nat :=
  if (List.range 8).any (fun i => (t.field i).src == 4 && i != 2) then some 122
  else if 512 < t.blocks * t.points || (t.usesTables && (decide (t.tableLen < t.points) || decide (128 < t.points))) then some 125
  else none

/-- Bytes of a raw value of a type code. -/
def rawSize (type : Nat) : Nat :=
  match type with
  | 0 => 1 | 1 => 2 | 2 => 4 | 3 => 1 | 4 => 2 | 5 => 4 | 6 => 2 | _ => 4

/-- A raw value as FP32; a type code the table does not list gives a free value (log entry 15). -/
def rawValue (type v : Nat) : W32 :=
  match type with
  | 0 => toF32 (.ofInt v)
  | 1 => toF32 (.ofInt v)
  | 2 => toF32 (.ofInt v)
  | 3 => toF32 (.ofInt (signedN 8 v))
  | 4 => toF32 (.ofInt (signedN 16 v))
  | 5 => toF32 (.ofInt (signedN 32 v))
  | 6 => toF32 (fp16.decode v)
  | 7 => BitVec.ofNat 32 v
  | _ => BitVec.ofNat 32 (Config.fnCand 7 type v)

/-- Where the bytes of a field lie in the payload, for the block and the point at these offsets. -/
def fieldOffset (f : Field) (bo po : Nat) : Nat :=
  f.offset + (if f.src = 2 then bo else if f.src = 3 then po else 0)

/-- Value of field `i` (R122); none when it is absent. An integer raw value is rounded to FP32 before it is scaled, and the
product is rounded before the bias is added: DESIGN CHOICE, log entry 72, R122 says FP32 with round to nearest even and not
which intermediate results are rounded. -/
def fieldValue (t : Template) (pay : List Byte) (bo po ch i : Nat) : Option W32 :=
  let f := t.field i
  match f.src with
  | 0 => none
  | 4 => some (t.elev ch)
  | 5 => some f.bias
  | 1 => some (fAdd (fMul (rawValue f.type ((if f.big then beAt else leAt) pay (fieldOffset f bo po) (rawSize f.type))) f.scale) f.bias)
  | 2 => some (fAdd (fMul (rawValue f.type ((if f.big then beAt else leAt) pay (fieldOffset f bo po) (rawSize f.type))) f.scale) f.bias)
  | 3 => some (fAdd (fMul (rawValue f.type ((if f.big then beAt else leAt) pay (fieldOffset f bo po) (rawSize f.type))) f.scale) f.bias)
  | _ => some (BitVec.ofNat 32 (Config.fnCand 8 f.src i))

/-- Offset of block b, and of point p of it. -/
def blockAt (t : Template) (b : Nat) : Nat := t.firstBlock + b * t.blockStride
def pointAt (t : Template) (b p : Nat) : Nat := blockAt t b + t.blockHdr + p * t.pointStride

/-- Bytes a packet needs for its last point (R123): up to the end of the last byte that a field of it, of its block or of the
packet takes, not to the end of point_stride. DESIGN CHOICE, log entry 72: R123 does not say which. -/
def templateNeed (t : Template) : Nat :=
  ((List.range 8).map fun i =>
    let f := t.field i
    if f.src = 1 ∨ f.src = 2 ∨ f.src = 3 then
      fieldOffset f (blockAt t (t.blocks - 1)) (pointAt t (t.blocks - 1) (t.points - 1)) + rawSize f.type
    else 0).foldl max 0

/-! ### Steps 1 and 2 of R127 -/

/-- A point cut from a packet and mounted. -/
structure PointIn where
  x : W32
  y : W32
  z : W32
  intensity : W32
  toff : W32
  ret : W32
  range : W32
  deriving DecidableEq, Repr

/-- A row of the mounting matrix applied to a point, each product and sum rounded. -/
def mountRow (m : List W32) (k : Nat) (x y z : W32) : W32 :=
  fAdd (fAdd (fAdd (fMul (m.getD (4 * k) 0) x) (fMul (m.getD (4 * k + 1) 0) y)) (fMul (m.getD (4 * k + 2) 0) z))
    (m.getD (4 * k + 3) 0)

/-- The point p of block b of a packet; none when it is empty (R124). -/
def cutPoint (t : Template) (mount : Option (List W32)) (pay : List Byte) (b p : Nat) : Option PointIn :=
  let val (i : Nat) : Option W32 := fieldValue t pay (blockAt t b) (pointAt t b p) p i
  let v (i : Nat) : W32 := (val i).getD 0
  let invalid := match val 6 with | none => false | some w => (f32 w).isZero
  let r := v 0
  let far := t.spherical && (!(f32 r).isFin || (f32 r).lt (f32 t.minRange) || (f32 t.maxRange).lt (f32 r))
  if invalid || far then none
  else
    let a := if t.spherical && (t.field 1).azOff then fAdd (v 1) (t.azOff p) else v 1
    let (x, y, z) := if t.spherical then (cartesian 0 r a (v 2), cartesian 1 r a (v 2), cartesian 2 r a (v 2)) else (v 0, v 1, v 2)
    let (x, y, z) := match mount with
      | none => (x, y, z)
      | some m => (mountRow m 0 x y z, mountRow m 1 x y z, mountRow m 2 x y z)
    some ⟨x, y, z, v 3, v 4, v 5, if t.spherical then r else 0⟩

/-! ### Steps 3 to 5 of R127, and the voxel (R129, R130) -/

/-- A stamp in 2⁻¹⁶ ns as an exact value in ns. -/
def stampVal (t : TStamp) : FVal := .fin false (stamp16 t) (-16)

/-- The correction of step 4 for a point at time `t`: the differences are formed exactly and rounded to FP32. -/
def pickCorrection (f : PointFrame) (t : FVal) : W32 :=
  if f.changes < 2 ∨ f.dir = 0 then 0
  else
    let c := fDiv (toF32 (t.add 0 (stampVal f.t0).neg)) (toF32 ((stampVal f.t0).add 0 (stampVal f.t1).neg))
    let c := if f.dir = 2 then toF32 (f32 c).neg else c
    if (f32 c).lt (.ofInt (-2)) then toF32 (.ofInt (-2)) else if (FVal.ofInt 2).lt (f32 c) then toF32 (.ofInt 2) else c

/-- A point with its voxel. -/
structure Voxel where
  vox : List Nat
  rel : List W32
  intensity : Nat
  ret : Nat
  time : Nat
  range : W32
  deriving DecidableEq, Repr

/-- A value rounded and saturated to 0 to `hi`; NaN gives 0 (R327). -/
def satTo (hi : Nat) (rnd : Nat) (x : FVal) : Nat :=
  match x with
  | .nan => 0
  | .inf s => if s then 0 else hi
  | x => (min (max (x.toInt rnd) 0) (hi : Int)).toNat

/-- Place a point in buffer b of a grid, with the origin and pick length of its
opening (R140); none when it lies outside the window. -/
def placePoint (x : Grid) (b : Nat) (f : PointFrame) (t : Template) (p : PointIn) : Option Voxel :=
  let time := (stampVal f.t).add 0 ((FVal.ofInt (-(t.rxLatency : Int))).add 0 (f32 p.toff))
  let base := signed48 ((f.count + 2 ^ 48 - (x.buf b).popen) % 2 ^ 48)
  let diff := toF32 ((FVal.ofInt base).add 0 (f32 (pickCorrection f time)))
  let step := fMul diff (x.buf b).pickLen
  let rel (k : Nat) (q : W32) : W32 := fSub (fAdd q (fMul step (x.axis.getD k 0))) ((x.buf b).origin.getD k 0)
  let rels := [rel 0 p.x, rel 1 p.y, rel 2 p.z]
  let cs := (List.range 3).map fun k => f32 (fMul (rels.getD k 0) (toF32 ((FVal.ofInt 1).div (f32 (x.size.getD k 0)))))
  let ok := (List.range 3).all fun k =>
    let c := cs.getD k .nan
    c.isFin && decide (0 ≤ c.floor) && decide (c.floor < 64 * (x.nb.getD k 0 : Nat))
  if ok then
    some ⟨cs.map fun c => c.floor.toNat, rels, satTo 65535 0 (f32 p.intensity), satTo 15 0 (f32 p.ret),
      satTo 0xFFFFFFFF 1 (time.add 0 (stampVal (x.buf b).opened).neg), p.range⟩
  else none

/-! ### Insertion (R130, R133, R134, R341 to R343) -/

/-- Bit `i` of a bitmap in memory. -/
def memBit (s : State) (a i : Nat) : Bool := (s.byte (a + i / 8)).toNat.testBit (i % 8)
/-- Set bit `i` of a bitmap in memory. -/
def setMemBit (a i : Nat) (s : State) : State :=
  putEngine (a + i / 8) [s.byte (a + i / 8) ||| BitVec.ofNat 8 (2 ^ (i % 8))] s
/-- Write a little-endian number. -/
def putNat (a n v : Nat) (s : State) : State := putEngine a (natLe n v) s

/-- Where a voxel stands in the hierarchy: block, brick and voxel numbers. -/
def voxBlock (x : Grid) (v : List Nat) : Nat :=
  v.getD 0 0 / 64 + x.nb.getD 0 0 * (v.getD 1 0 / 64 + x.nb.getD 1 0 * (v.getD 2 0 / 64))
def voxBrick (v : List Nat) : Nat := v.getD 0 0 / 8 % 8 + 8 * (v.getD 1 0 / 8 % 8) + 64 * (v.getD 2 0 / 8 % 8)
def voxVoxel (v : List Nat) : Nat := v.getD 0 0 % 8 + 8 * (v.getD 1 0 % 8) + 64 * (v.getD 2 0 % 8)
/-- The voxel key (R130). -/
def voxKey (v : List Nat) : Nat := v.getD 0 0 + 2 ^ 21 * v.getD 1 0 + 2 ^ 42 * v.getD 2 0

/-- Insert one placed point into buffer b of grid g, or count it lost (R134). -/
def insertPoint (g b ctx : Nat) (p : Voxel) (s : State) : State :=
  match gridOf s g with
  | none => s
  | some x =>
    let a := x.addr b
    let v := x.buf b
    let bn := voxBlock x p.vox
    let j := voxBrick p.vox
    let vo := voxVoxel p.vox
    let blkA := a + x.offBlocks + bn * 1088
    let hasBlk := decide (bn < x.capBlocks) && memBit s (a + 128) bn
    let hasBrk := hasBlk && memBit s blkA j
    let brk := if hasBrk then s.leMem (blkA + 0x40 + 2 * j) 2 else v.bricks
    let brkA := a + x.offBricks + brk * 2112
    let hasKey := hasBrk && memBit s brkA vo
    let key := if hasKey then s.leMem (brkA + 0x40 + 4 * vo) 4 else v.keys
    let keyA := a + x.offKeys + key * 16
    let full := (if !hasKey && decide (x.capKeys ≤ v.keys) then 2 else 0) + (if x.capPoints ≤ v.points then 4 else 0)
      + (if !hasBrk && decide (x.capBricks ≤ v.bricks) then 8 else 0) + (if x.capBlocks ≤ bn then 16 else 0)
    if full ≠ 0 then
      let s := if hasKey then setMemBit keyA 63 s else s
      let x := x.setBuf b { v with flags := v.flags ||| full, lost := min (v.lost + 1) 0xFFFFFFFF }
      (headerCounts x b (setGrid g x (s.putB (Reg.intakeGridStatus g) 5 true))).sat (Reg.intakeCtxLost ctx)
    else
      let s := if hasBlk then s else setMemBit (a + 128) bn (putEngine blkA (zeros 64) s)
      let s := if hasBrk then s else setMemBit blkA j (putNat (blkA + 0x40 + 2 * j) 2 brk (putEngine brkA (zeros 64) s))
      let s := if hasKey then s else setMemBit brkA vo (putNat (brkA + 0x40 + 4 * vo) 4 key s)
      let older := if hasKey then s.leMem (keyA + 8) 4 else 0xFFFFFFFF
      let n := if hasKey then s.leMem (keyA + 12) 4 else 0
      let s := if hasKey then s else putNat keyA 8 (voxKey p.vox) s
      let s := putNat (keyA + 12) 4 (n + 1) (putNat (keyA + 8) 4 v.points s)
      let s := putEngine (a + x.offPoints + v.points * 32)
        ((p.rel.flatMap fun w => natLe 4 w.toNat) ++ natLe 2 p.intensity ++ natLe 2 (ctx % 4096 + 4096 * p.ret)
          ++ natLe 4 p.time ++ natLe 4 p.range.toNat ++ natLe 4 older ++ natLe 4 key) s
      let x := x.setBuf b { v with
        keys := v.keys + (if hasKey then 0 else 1), points := v.points + 1
        blocks := v.blocks + (if hasBlk then 0 else 1), bricks := v.bricks + (if hasBrk then 0 else 1) }
      (headerCounts x b (setGrid g x s)).sat (Reg.intakeCtxPoints ctx)

/-- One point of a frame: empty, lost while the grid is STALLED, outside, or inserted (R124, R129, R137). -/
def takePoint (f : PointFrame) (t : Template) (mount : Option (List W32)) (s : State) (i : Nat × Nat) : State :=
  match cutPoint t mount f.payload i.1 i.2 with
  | none => s.sat (Reg.intakeCtxEmpty f.ctx)
  | some p =>
    match f.buf, gridOf s f.grid with
    | some b, some x =>
      match placePoint x b f t p with
      | none => s.sat (Reg.intakeCtxOutside f.ctx)
      | some v => insertPoint f.grid b f.ctx v s
    | _, _ => s.sat (Reg.intakeCtxLost f.ctx)

/-- The blocks and points of a packet in packet order. -/
def packetPoints (t : Template) : List (Nat × Nat) :=
  (List.range t.blocks).flatMap fun b => (List.range t.points).map fun p => (b, p)

/-- The insertion window lets partition n insert now (R147, R493). -/
def windowOpen (s : State) (n : Nat) : Bool :=
  match s.selv.safety with
  | none => true
  | some f => f.windows.isEmpty || (f.windows.getD s.intake.window (0, 0)).2.testBit n

/-- Context x. -/
def ctxOf (s : State) (x : Nat) : Ctx := Tab.get (fun _ => Ctx.unused) s.intake.ctxs x
/-- Replace a context. -/
def setCtx (s : State) (x : Nat) (c : Ctx) : State :=
  { s with intake := { s.intake with ctxs := Tab.set (fun _ => Ctx.unused) s.intake.ctxs x c } }
/-- Template i of the TEMPLATE section. -/
def templateOf (s : State) (i : Nat) : Template := Tab.get (fun _ => (⟨[]⟩ : Template)) s.warp.templates i

/-- POINT_INSERTION (R127, R133): the points of the oldest frame whose partition may insert, in packet order. -/
def execPointInsertion (s : State) : Res State :=
  match s.intake.frames.find? (fun f => windowOpen s f.part) with
  | none => .next s
  | some f =>
    if !s.cclk then .next s
    else
      let t := templateOf s (ctxOf s f.ctx).sel
      match templateOutside t with
      | some r => oc r
      | none =>
        let s := { s with intake := { s.intake with frames := s.intake.frames.erase f } }
        .next ((packetPoints t).foldl (takePoint f t (ctxOf s f.ctx).mount) s)

end Sys2Proof.Machine
end

