-- ==== Sys2Proof/Machine/Image.lean ====
section
/-! DEFINITION. Image streams of 04_sweep_intake.md (R141 to R143): the GVSP packets of GigE Vision, whose layout is taken
from that standard (PRESUMED, log entry 16), the staging area, and image tiles. -/

namespace Sys2Proof.Machine

/-- A GVSP packet: packet format 1 leader, 2 trailer, 3 payload; block ID, packet ID and body. -/
structure Gvsp where
  extended : Bool
  format : Nat
  block : Nat
  packet : Nat
  body : List Byte
  deriving DecidableEq, Repr

/-- Read a GVSP packet from a UDP payload; none when its header is cut short. -/
def gvsp (pay : List Byte) : Option Gvsp :=
  if pay.length < 8 then none
  else
    let w := beAt pay 4 4
    if w.testBit 31 then
      if pay.length < 20 then none
      else some ⟨true, w / 2 ^ 24 % 16, beAt pay 8 8, beAt pay 16 4, pay.drop 20⟩
    else some ⟨false, w / 2 ^ 24 % 16, beAt pay 2 2, w % 2 ^ 24, pay.drop 8⟩

/-- Bytes of a pixel of a context; a sel the table does not list gives either (log entry 15). -/
def pixelBytes (c : Ctx) : Nat := if c.sel = 0 then 1 else if c.sel = 1 then 2 else if Config.freeBool c.sel then 1 else 2

/-- The pixel format is one the context accepts (R141): Mono8, BayerGR8, RG8, GB8, BG8; Mono10, Mono12, Mono16. -/
def formatOk (c : Ctx) (f : Nat) : Bool :=
  if pixelBytes c = 1 then f == 0x01080001 || f == 0x01080008 || f == 0x01080009 || f == 0x0108000A || f == 0x0108000B
  else f == 0x01100003 || f == 0x01100005 || f == 0x01100007

/-- Bytes of a line, and of a tile row of a context. -/
def lineBytes (c : Ctx) : Nat := c.width * pixelBytes c
def tileRowBytes (c : Ctx) : Nat := 32 * lineBytes c
/-- Tile rows of a block. -/
def ImgBlock.rows (i : ImgBlock) : Nat := (i.height + 31) / 32

/-- Tile row r of a block is complete. -/
def rowDone (c : Ctx) (i : ImgBlock) (r : Nat) : Bool :=
  covered i.got (i.got.length + 1) (r * tileRowBytes c) (min ((r + 1) * tileRowBytes c) (i.height * lineBytes c))

/-- Where byte `o` of a block stands in the staging area of two tile rows. -/
def stageAddr (c : Ctx) (o : Nat) : Nat := sharedBase + c.stage + o % (2 * tileRowBytes c)

/-- A byte of a block: its staged value, or zero while it is missing. -/
def imgByte (s : State) (c : Ctx) (i : ImgBlock) (o : Nat) : Byte :=
  if i.got.any fun r => decide (r.1 ≤ o ∧ o < r.1 + r.2) then s.byte (stageAddr c o) else 0

/-- The element of tile column k of tile row r. -/
def tileElement (s : State) (c : Ctx) (i : ImgBlock) (r k : Nat) : List Byte :=
  let pb := pixelBytes c
  let cols := min 128 (c.width - 128 * k)
  let rows := min 32 (i.height - 32 * r)
  let at_ (y : Nat) : Nat := (32 * r + y) * lineBytes c + 128 * k * pb
  let missing := (List.range rows).any fun y => !covered i.got (i.got.length + 1) (at_ y) (at_ y + cols * pb)
  let last := decide (r + 1 = i.rows ∧ 128 * (k + 1) ≥ c.width)
  let flags := (if missing then 1 else 0) + (if cols < 128 then 2 else 0) + (if last then 4 else 0) + (if i.mismatch then 8 else 0)
  natLe 16 i.t.toNat ++ natLe 8 i.p.toNat ++ natLe 8 i.id ++ natLe 2 k ++ natLe 2 r ++ natLe 2 cols ++ natLe 2 rows
    ++ natLe 4 flags ++ zeros 20
    ++ (List.range 32).flatMap fun y =>
        (List.range (128 * pb)).map fun b => if y < rows ∧ b < cols * pb then imgByte s c i (at_ y + b) else 0

/-- Emit tile row r of the block in progress of context x (R142, R143): a tile its queue does not take is dropped. -/
def emitRow (x r : Nat) (s : State) : State :=
  let c := ctxOf s x
  match c.img with
  | none => s
  | some i =>
    let s := (List.range ((c.width + 127) / 128)).foldl (fun s k =>
      match engCommit c.queue (tileElement s c i r k) s with
      | (true, s) => s
      | (false, s) => s.putB (Reg.intakeCtxFlags x) 1 true) s
    setCtx s x { c with img := some { i with emitted := r :: i.emitted } }

/-- Emit the tile rows of context x that hold: complete ones, or all that are left. -/
def emitRows (x : Nat) (all : Bool) (s : State) : State :=
  match (ctxOf s x).img with
  | none => s
  | some i => (List.range i.rows).foldl (fun s r =>
      if !i.emitted.contains r && (all || rowDone (ctxOf s x) i r) then emitRow x r s else s) s

/-- The block of context x ends (R142). -/
def endBlock (x : Nat) (s : State) : State :=
  let s := emitRows x true s
  setCtx s x { ctxOf s x with img := none }

/-- Count a frame of context x that its stream drops (R141). -/
def imgOther (x : Nat) (bad : Bool) (s : State) : State :=
  let s := s.sat (Reg.intakeCtxOther x)
  if bad then s.putB (Reg.intakeCtxFlags x) 3 true else s

/-- The bytes of a payload packet that lie in tile row r go to the staging area. The staging area of a row that holds
another row, not yet emitted, is emptied by emitting that one (log entry 17). -/
def stageRow (x o : Nat) (bs : List Byte) (s : State) (r : Nat) : State :=
  let c := ctxOf s x
  match c.img with
  | none => s
  | some i =>
    if i.emitted.contains r then s
    else
      let old := (List.range r).filter fun k => k % 2 == r % 2 && !i.emitted.contains k
      let s := old.foldl (fun s k => emitRow x k s) s
      let lo := max o (r * tileRowBytes c)
      let hi := min (o + bs.length) (min ((r + 1) * tileRowBytes c) (i.height * lineBytes c))
      if hi ≤ lo then s
      else
        let s := putEngine (stageAddr c lo) (slice bs (lo - o) (hi - lo)) s
        match (ctxOf s x).img with
        | none => s
        | some i => setCtx s x { ctxOf s x with img := some { i with got := i.got ++ [(lo, hi - lo)] } }

/-- The rule that puts an IMAGE context outside contract, if one does (R143): its queue's element size, or its staging
area. -/
def imageOutside (s : State) (x : Nat) : Bool :=
  let c := ctxOf s x
  let bad := match ctxPart s x with
    | none => true
    | some p =>
      let e := partEntry s p
      decide (sharedBase + c.stage < e.storeBase ∨ e.storeBase + e.storeSize < sharedBase + c.stage + 2 * tileRowBytes c)
  qEsize s c.queue != 64 + 4096 * pixelBytes c || bad

/-- Block ID `b` is later than `a`: a difference below half the range of the IDs (log entry 17). -/
def blockLater (extended : Bool) (a b : Nat) : Bool :=
  let m := if extended then 2 ^ 64 else 2 ^ 16
  let d := (b + m - a) % m
  decide (0 < d ∧ d < m / 2)

/-- An admitted GVSP packet of context x (R141, R142). A leader of a block that is not later than the one in progress is
dropped and counted: DESIGN CHOICE, log entry 17. -/
def imageFrame (x : Nat) (t : TStamp) (pay : List Byte) (s : State) : State :=
  let c := ctxOf s x
  match gvsp pay with
  | none => imgOther x true s
  | some g =>
    if g.format = 1 then
      match c.img with
      | some i =>
        if i.extended = g.extended ∧ i.id = g.block then s
        else if i.extended ≠ g.extended ∨ blockLater g.extended i.id g.block then imageLeader x t g (endBlock x s)
        else imgOther x false s
      | none => imageLeader x t g s
    else
      match c.img with
      | none => imgOther x false s
      | some i =>
        if i.id ≠ g.block ∨ i.extended ≠ g.extended then imgOther x false s
        else if g.format = 2 then endBlock x s
        else if g.format = 3 ∧ g.packet ≠ 0 then
          let o := (g.packet - 1) * c.payload
          let n := max 1 (tileRowBytes c)
          let rows := (List.range (g.body.length / n + 2)).map fun k => o / n + k
          emitRows x false ((rows.filter fun r => decide (r < i.rows)).foldl (stageRow x o g.body) s)
        else imgOther x true s
where
  /-- The leader of a block: payload type Image and an accepted pixel format start it; another block is dropped. A leader
  whose width is not that of the context sets size_mismatch and flag [3] of the block's tiles: DESIGN CHOICE, log entry 17,
  R141 and R142 do not say what raises tile flag [3]. -/
  imageLeader (x : Nat) (t : TStamp) (g : Gvsp) (s : State) : State :=
    let c := ctxOf s x
    if beAt g.body 2 2 = 1 ∧ formatOk c (beAt g.body 12 4) then
      let w := beAt g.body 16 4
      let s := if w ≠ c.width then s.putB (Reg.intakeCtxFlags x) 3 true else s
      setCtx s x { c with img := some {
        id := g.block, extended := g.extended, t := t, p := pickStamp s (c.bind % 4), width := w, height := beAt g.body 20 4
        got := [], emitted := [], mismatch := decide (w ≠ c.width) } }
    else imgOther x true s

/-- IMAGE_BLOCK_TIMEOUT (R142): 2 ms after its last packet the block ends. -/
def execImageBlockTimeout (x : Fin 4096) (s : State) : Res State :=
  if (ctxOf s x).img.isNone || !s.cclk then .next s
  else if imageOutside s x then oc 143
  else engAccess s (ringRange s (ctxOf s x).queue) fun s => .next (endBlock x s)

end Sys2Proof.Machine
end

