-- ==== Sys2Proof/Machine/Position.lean ====
section
/-! DEFINITION. Position of 03_position_and_time.md: edge inputs, pick counters and their references, scheduled events,
TRIG outputs and position doorbells (R85 to R108, R598), and the application of a time set or step, which judges the
events (R72 to R74). -/

namespace Sys2Proof.Machine

/-! ### The state of inputs, counters and events besides registers -/

def edgeIn (s : State) (e : Nat) : EdgeIn := Tab.get (fun _ => (⟨none, []⟩ : EdgeIn)) s.pos.edges e
def setEdgeIn (s : State) (e : Nat) (x : EdgeIn) : State :=
  { s with pos := { s.pos with edges := Tab.set (fun _ => (⟨none, []⟩ : EdgeIn)) s.pos.edges e x } }
def pickOf (s : State) (n : Nat) : Pick := Tab.get (fun _ => Pick.idle) s.pos.picks n
def setPick (s : State) (n : Nat) (x : Pick) : State :=
  { s with pos := { s.pos with picks := Tab.set (fun _ => Pick.idle) s.pos.picks n x } }
def eventOf (s : State) (v : Nat) : Event := Tab.get (fun _ => Event.idle) s.pos.events v
def setEvent (s : State) (v : Nat) (x : Event) : State :=
  { s with pos := { s.pos with events := Tab.set (fun _ => Event.idle) s.pos.events v x } }

/-- Counter n is distributed over the chain by this chip (R458). -/
def distributes (s : State) (n : Nat) : Bool := isMaster s && s.warp.pos.distribute.toNat.testBit n
/-- Note a change of counter n, with its stamp, that the chain is to be told of; `d` is that of a reference load. -/
def noteChange (n : Nat) (t : TStamp) (d : Option (BitVec 48)) (s : State) : State :=
  if distributes s n then
    let p := pickOf s n
    let s := if p.toSend then s.sat Reg.chainPickCoalesced else s
    setPick s n { p with toSend := true, changed := t, loadD := if d.isSome then d else p.loadD }
  else s

/-! ### Scheduled events (R98 to R107) -/

/-- An event is armed. -/
def evArmed (s : State) (v : Nat) : Bool := s.bit (Reg.posEvStatus v) 0
/-- Pick basis. -/
def evPick (s : State) (v : Nat) : Bool := s.bit (Reg.posEvCfg v) 0
/-- Counter of an event. -/
def evCounter (s : State) (v : Nat) : Nat := s.fld (Reg.posEvCfg v) 1 2
/-- Direction: 0 RISING, 1 FALLING, 2 EITHER. -/
def evDir (s : State) (v : Nat) : Nat := s.fld (Reg.posEvCfg v) 3 2
/-- Repeat: 0 ONCE, 1 PERIODIC, 2 EACH_N. -/
def evRepeat (s : State) (v : Nat) : Nat := s.fld (Reg.posEvCfg v) 5 2
/-- SKIP rather than FIRE_LATE. -/
def evSkip (s : State) (v : Nat) : Bool := s.bit (Reg.posEvCfg v) 7
/-- follow_ref. -/
def evFollow (s : State) (v : Nat) : Bool := s.bit (Reg.posEvCfg v) 8
/-- Interval of a PERIODIC event, in the units of its target. -/
def evInterval (s : State) (v : Nat) : Int :=
  if evPick s v then signed48 (s.rdQ (Reg.posEvInterval v) 2) else signedN 64 (s.rdQ (Reg.posEvInterval v) 2) * 2 ^ 32
/-- Queue of a doorbell. -/
def evQueue (s : State) (v : Nat) : Nat := s.fld (Reg.posEvQueue v) 0 10

/-- The level of TRIGv: its pulse, inverted by invert (R108). -/
def trigSync (v : Nat) (s : State) : State :=
  if v < 16 then
    let l := (eventOf s v).pulse != s.bit (Reg.posEvCfg v) 9
    let m : BitVec 16 := 1#16 <<< v
    { s with pins := { s.pins with trig := if l then s.pins.trig ||| m else s.pins.trig &&& ~~~m } }
  else s

/-- Count `k` skips of event v (R101, R106). -/
def evSkips (v k : Nat) (s : State) : State :=
  if k = 0 then s
  else
    let s := (s.wr (Reg.posEvSkips v) (s.rd (Reg.posEvSkips v) + BitVec.ofNat 32 k)).putB (Reg.posEvStatus v) 2 true
    setEvent s v { eventOf s v with skips := true }

/-- A doorbell firing that is treated as skipped (R106). -/
def dbSkipped (s : State) (v : Nat) : Bool :=
  let q := evQueue s v
  (match queuePart s q with | none => true | some p => !ptEnabled s p) || qState s q != 1 || !s.pins.pfN

/-- One firing of event v with the stamps of its TCLK (R100, R104 to R107, R135). A doorbell flips its grids at that TCLK. -/
def evFire (v : Nat) (late : Bool) (t : TStamp) (s : State) : State :=
  if v < 16 then
    let s := (s.inc (Reg.posEvFires v)).putB (Reg.posEvStatus v) 1 (late || s.bit (Reg.posEvStatus v) 1)
    let x := eventOf s v
    let s := if x.pulse then s.putB (Reg.posEvStatus v) 3 true else s
    trigSync v (setEvent s v { x with pulse := true })
  else if dbSkipped s v then evSkips v 1 s
  else
    let seq := s.rd (Reg.posEvFires v)
    let s := (s.inc (Reg.posEvFires v)).putB (Reg.posEvStatus v) 1 (late || s.bit (Reg.posEvStatus v) 1)
    let x := eventOf s v
    let s :=
      if qFree s (evQueue s v) = 0 then s.putB (Reg.posEvStatus v) 6 true
      else
        let p := pickStamp s (if evPick s v then evCounter s v else 0)
        setEvent s v { x with skips := false, fired := x.fired ++ [⟨late, x.skips, t, p, seq⟩] }
    gridsFlip (v - 16) t s

/-- Disarm event v. -/
def evDisarm (v : Nat) (s : State) : State :=
  setEvent (s.putB (Reg.posEvStatus v) 0 false) v { eventOf s v with due := [], changes := 0 }

/-- What follows a firing: ONCE disarms, PERIODIC adds its interval (R100). -/
def evAfter (v : Nat) (s : State) : State :=
  if evRepeat s v = 0 then evDisarm v s
  else if evRepeat s v = 1 then
    let t := (eventOf s v).target + evInterval s v
    setEvent s v { eventOf s v with target := if evPick s v then signed48 (wrapN 48 t) else t }
  else s

/-- Number of targets of event v that are past, `lim` being the last target that is past and `up` the direction in which
targets advance; 0 when its target is not past (R101). -/
def pastCount (s : State) (v : Nat) (lim : Int) (up : Bool) : Nat :=
  let t := (eventOf s v).target
  let gap := if up then lim - t else t - lim
  if gap < 0 then 0
  else if evRepeat s v = 1 then
    let i := (evInterval s v).natAbs
    if i = 0 then 1 else gap.toNat / i + 1
  else 1

/-- Act on `k` past targets of event v (R101). With FIRE_LATE the further past targets are counted as skips before the late
firing takes place, so that its own element reports them in flag bit [1]: DESIGN CHOICE, log entry 69, R101 and R107 do not
give their order. -/
def actPast (v k : Nat) (s : State) : State :=
  if k = 0 then s
  else
    let per := evRepeat s v = 1
    let t := (eventOf s v).target + k * evInterval s v
    let fire := !evSkip s v
    let s := evSkips v (if fire then k - 1 else k) s
    let s := if fire then evFire v true (nowStamp s) s else s
    if per then setEvent s v { eventOf s v with target := if evPick s v then signed48 (wrapN 48 t) else t } else evDisarm v s

/-- Judge the target of a time event against the instant `lim`, in units of 2⁻³² ns: past when at or before it. -/
def judgeTime (lim : Int) (v : Nat) (s : State) : State := actPast v (pastCount s v lim true) s

/-- Judge the target of a pick event against the count of its counter (R101). -/
def judgePick (v : Nat) (s : State) : State :=
  let c := signed48 (pkCount s (evCounter s v))
  if evRepeat s v = 2 then s
  else if evDir s v = 0 then actPast v (pastCount s v (c - 1) true) s
  else if evDir s v = 1 then actPast v (pastCount s v (c + 1) false) s
  else s

/-- The events that are armed on counter n. -/
def evsOn (s : State) (n : Nat) : List Nat := (List.range 80).filter fun v => evArmed s v && evPick s v && evCounter s v == n

/-- A pick condition of event v has been met: it fires in the TCLK after this one (R100). -/
def evMet (v : Nat) (s : State) : State :=
  setEvent s v { eventOf s v with due := (eventOf s v).due ++ [now32 s + tbInc s] }

/-- Count `k` changes of an EACH_N event: it fires once if an Nth change is among them, and further ones count as skips
(R100, R459). -/
def evCount (k v : Nat) (s : State) : State :=
  let n := s.rdQ (Reg.posEvInterval v) 2
  let x := eventOf s v
  let m := (x.changes + k) / n
  let s := setEvent s v { x with changes := (x.changes + k) % n }
  evSkips v (m - 1) (if m = 0 then s else evMet v s)

/-- The events of counter n follow a count change of ±1 that no load absorbs: the targets it reaches come due. -/
def evsChanged (n : Nat) (up : Bool) (s : State) : State :=
  (evsOn s n).foldl (fun s v =>
    if evRepeat s v = 2 then evCount 1 v s
    else if (eventOf s v).target = signed48 (pkCount s n) ∧ (evDir s v = 2 ∨ evDir s v = if up then 0 else 1) then evMet v s
    else s) s

/-- The events of counter n follow a reference load by d (R97, R100): a target it lands on comes due, others without
follow_ref are judged for being past. -/
def evsLoaded (n : Nat) (d : Int) (s : State) : State :=
  (evsOn s n).foldl (fun s v =>
    if evRepeat s v = 2 then s
    else
      let x := eventOf s v
      let s := if evFollow s v then setEvent s v { x with target := signed48 (wrapN 48 (x.target + d)) } else s
      if (eventOf s v).target = signed48 (pkCount s n) then evMet v s
      else if evFollow s v then s
      else judgePick v s) s

/-! ### Counting (R89 to R92, R598) -/

/-- What a counter does in one TCLK: nothing, a quadrature error, or a step that an edge causes. -/
inductive PickMove where
  | none
  | error
  | step (up : Bool) (x : PinEdge)
  deriving DecidableEq, Repr

/-- Filter length of input e in TCLK (R86). -/
def edgeFilter (s : State) (e : Nat) : Nat := s.fld (Reg.posEdgeCfg e) 8 8
/-- Instant at which an edge reached its ball, in quarters of a nanosecond of running TCLK (R85). -/
def edgeAt (s : State) (x : PinEdge) : Nat := s.pos.now + x.phase - 4 * x.age
/-- The stamp of an edge. -/
def edgeStampOf (s : State) (x : PinEdge) : TStamp := stampAt s (edgeInstant s x.phase x.age)

/-- B has changed within 1 ns of the rising edge `x` of A, plus the difference between the filter lengths (R89): an edge of B
in this TCLK, or the last one before. -/
def dirUnstable (s : State) (b : Nat) (x : PinEdge) (eb : Option PinEdge) : Bool :=
  let near (i : Nat) : Bool :=
    let f := edgeFilter s x.input
    let g := edgeFilter s b
    let lim := 4 + 4 * (f - g + (g - f))
    decide (i ≤ edgeAt s x + lim ∧ edgeAt s x ≤ i + lim)
  (eb.map (edgeAt s)).any near || (edgeIn s b).last.any near

/-- What counter n does with the edges `es` that one TCLK takes, whose levels the pins already show (R89, R90). In PULSE_DIR a B
that changes close to the edge of A gives either sign, a free choice. -/
def pickDelta (s : State) (n : Nat) (es : List PinEdge) : PickMove :=
  let a := s.fld (Reg.posPkCfg n) 3 4
  let b := s.fld (Reg.posPkCfg n) 7 4
  let ea := es.find? fun x => x.input.val == a
  let eb := es.find? fun x => x.input.val == b
  let lb := s.pins.edge.toNat.testBit b
  let la := s.pins.edge.toNat.testBit a
  let sg (up : Bool) : Bool := up != s.bit (Reg.posPkCfg n) 11
  match pkMode s n, ea, eb with
  | 1, some _, some _ => .error
  | 2, some _, some _ => .error
  | 3, some _, some _ => .error
  | 1, some x, none => if x.rising then .step (sg (!lb)) x else .none
  | 2, some x, none => .step (sg (x.rising != lb)) x
  | 3, some x, none => .step (sg (x.rising != lb)) x
  | 3, none, some y => .step (sg (la == y.rising)) y
  | 4, some x, y =>
    if !x.rising then .none
    else .step (sg (if dirUnstable s b x y then Config.freeBool s.freeCtr else !lb)) x
  | _, _, _ => .none

/-- Count one pick up or down, at the instant stamped `t` (R69, R92, R598). -/
def pickStep (n : Nat) (up : Bool) (t : TStamp) (s : State) : State :=
  let c := pkCount s n
  let c' := if up then (c + 1) % 2 ^ 48 else (c + 2 ^ 48 - 1) % 2 ^ 48
  let wrap := if up then c == 2 ^ 47 - 1 else c == 2 ^ 47
  let s := (setPkCount s n c').putF (Reg.posPkStatus n) 0 2 (if up then 1 else 2)
  let s := if wrap then s.putB (Reg.posPkStatus n) 5 true else s
  let s := (s.wrQ (Reg.posPkLastT1 n) 4 (s.rdQ (Reg.posPkLastT0 n) 4)).wrQ (Reg.posPkLastT0 n) 4 t.toNat
  let s := setPick s n { pickOf s n with changes := min 2 ((pickOf s n).changes + 1) }
  noteChange n t none s

/-! ### References (R94 to R97) -/

/-- ref as a count. -/
def pkRef (s : State) (n : Nat) : Nat := s.rdQ (Reg.posPkRef n) 2 % 2 ^ 48
/-- Arm or disarm the reference of counter n. -/
def setArmed (n : Nat) (b : Bool) (s : State) : State := (s.putB (Reg.posPkRefCtrl n) 1 b).putB (Reg.posPkStatus n) 3 b
/-- The reference of counter n is armed. -/
def refArmed (s : State) (n : Nat) : Bool := s.bit (Reg.posPkRefCtrl n) 1

/-- Record a reference: count minus ref, and its stamp. -/
def refRecord (n : Nat) (t : TStamp) (s : State) : State :=
  (s.wrQ (Reg.posPkRefDelta n) 2 ((pkCount s n + 2 ^ 48 - pkRef s n) % 2 ^ 48)).wrQ (Reg.posPkRefT n) 4 t.toNat

/-- Load ref into the count of counter n (R94, R97, R140). -/
def refLoad (n : Nat) (s : State) : State :=
  let d := signed48 ((pkRef s n + 2 ^ 48 - pkCount s n) % 2 ^ 48)
  let s := (setPkCount s n (pkRef s n)).putB (Reg.posPkStatus n) 2 false
  let s := setPick s n { pickOf s n with changes := 0 }
  gridRefLoad n (evsLoaded n d (noteChange n (nowStamp s) (some (BitVec.ofInt 48 d)) s))

/-! ### Edges (R85 to R88) -/

/-- An edge is a qualifying edge (R85). -/
def qualifies (s : State) (x : PinEdge) : Bool :=
  s.bit (Reg.posEdgeCfg x.input) 0 &&
    match s.fld (Reg.posEdgeCfg x.input) 1 2 with
    | 0 => x.rising
    | 1 => !x.rising
    | 2 => true
    | _ => false

/-- The level of an edge has been stable for the filter length of its input as that is set now (R86, R88). -/
def edgeFiltered (s : State) (x : PinEdge) : Bool := decide (edgeFilter s x.input ≤ x.age)
/-- An edge did not reach its ball before TCLK last stopped (R596). -/
def edgeKept (s : State) (x : PinEdge) : Bool := x.age == 0 || decide (s.pos.resumed + 4 * x.age ≤ s.pos.now)

/-- The inputs take the levels after their edges. -/
def takeLevels (es : List PinEdge) (s : State) : State :=
  { s with pins := { s.pins with edge := es.foldl (fun l x =>
      if x.rising then l ||| (1#16 <<< x.input.val) else l &&& ~~~(1#16 <<< x.input.val)) s.pins.edge } }

/-- Show the head and the fill of stamp queue e; an empty queue shows 0. -/
def edgeShow (e : Nat) (s : State) : State :=
  let q := (edgeIn s e).q
  let h := q.headD ⟨0, 0⟩
  ((s.putF (Reg.posEdgeStatus e) 0 5 q.length).wrQ (Reg.posEdgeHeadT e) 4 h.t.toNat).wrQ (Reg.posEdgeHeadP e) 2 h.p.toNat

/-- Stamp a qualifying edge on input e (R87). -/
def edgeStamp (e : Nat) (t : TStamp) (s : State) : State :=
  let x := edgeIn s e
  if x.q.length < 16 then edgeShow e (setEdgeIn s e { x with q := x.q ++ [⟨t, pickStamp s (s.fld (Reg.posEdgeCfg e) 4 2)⟩] })
  else (s.putB (Reg.posEdgeStatus e) 5 true).satF (Reg.posEdgeStatus e) 16 16

/-- An edge has been taken: overrun, and its stamp (R86, R87). -/
def edgeSeen (x : PinEdge) (s : State) : State :=
  let e := x.input.val
  let i := edgeIn s e
  let close := match i.last with | none => false | some l => decide (edgeAt s x < l + 16)
  let s := setEdgeIn s e { i with last := some (edgeAt s x) }
  let s := if close then s.putB (Reg.posEdgeStatus e) 6 true else s
  if !close && qualifies s x && s.bit (Reg.posEdgeCfg e) 3 then edgeStamp e (edgeStampOf s x) s else s

/-- Counter n takes the edges of one TCLK; the step it made, if any. -/
def pickSeen (es : List PinEdge) (n : Nat) (s : State) : State × Option Bool :=
  match pickDelta s n es with
  | .none => (s, none)
  | .error => ((s.putB (Reg.posPkStatus n) 4 true).satF (Reg.posPkStatus n) 16 16, none)
  | .step up x => (pickStep n up (edgeStampOf s x) s.tickFree, some up)

/-- The armed reference of counter n acts on one of the edges of this TCLK (R93, R95): that edge. -/
def refEdge (s : State) (n : Nat) (es : List PinEdge) : Option PinEdge :=
  if refArmed s n && !pkChain s n then
    es.find? fun x => x.input.val == s.fld (Reg.posPkRefCtrl n) 2 4 && qualifies s x
  else none

/-- What follows the step of counter n in one TCLK: an armed reference acts, and the events of the counter follow (R95 to R97,
R100). -/
def pickFollow (es : List PinEdge) (n : Nat) (step : Option Bool) (s : State) : State :=
  match refEdge s n es with
  | some x =>
    let s := setArmed n false (refRecord n (edgeStampOf s x) s)
    if s.bit (Reg.posPkRefCtrl n) 6 then
      match step with
      | none => s
      | some up => evsChanged n up s
    else refLoad n (if step.isSome then (evsOn s n).foldl (fun s v => if evRepeat s v = 2 then evCount 1 v s else s) s else s)
  | none =>
    match step with
    | none => s
    | some up => evsChanged n up s

/-- EDGE_INPUT_EDGE (R85 to R97, R596, R598): the edges that one TCLK takes. Counters count first, then stamps are taken, then
armed references act, and the events of each counter follow. An edge whose level has not been stable for the filter length
is none yet. While TCLK is stopped the inputs only take their levels, and so they do for an edge that was on its way when TCLK
stopped. -/
def execEdgeInputEdge (es : List PinEdge) (s : State) : Res State :=
  if !s.tclk then .next (takeLevels es s)
  else
    let es := es.filter (edgeFiltered s)
    let s := takeLevels es s
    let es := es.filter (edgeKept s)
    let (s, steps) := [0, 1, 2, 3].foldl (fun (x : State × List (Option Bool)) n =>
      ((pickSeen es n x.1).1, x.2 ++ [(pickSeen es n x.1).2])) (s, [])
    let s := es.foldl (fun s x => edgeSeen x s) s
    .next ([0, 1, 2, 3].foldl (fun s n => pickFollow es n (steps.getD n none) s) s)

/-- POS_EDGE_POP (R87): the head entry is removed. -/
def execPosEdgePop (e : Fin 16) : State → Res State :=
  hostWrite .held fun s => .next (edgeShow e (setEdgeIn s e { edgeIn s e with q := (edgeIn s e).q.tail }))

/-! ### Counters -/

/-- PICK_STILL_TIMEOUT (R92). -/
def execPickStillTimeout (n : Fin 4) (s : State) : Res State :=
  onlyIf (s.tclk && s.fld (Reg.posPkCfg n) 16 8 != 0 && !pkChain s n)
    (fun s => if s.fld (Reg.posPkStatus n) 0 2 = 0 then s else noteChange n (nowStamp s) none (s.putF (Reg.posPkStatus n) 0 2 0)) s

/-- A mode code is treated as OFF: 0, 6, 7, and 5 on the position master (R89, R93). -/
def offMode (s : State) (m : Nat) : Bool := m == 0 || m == 6 || m == 7 || (m == 5 && isMaster s)

/-- Put a value into POS_PKn_CFG: the counter starts, stops or keeps its mode (R89, R91). -/
def pkCfgPut (n : Nat) (v : W32) (s : State) : State :=
  let m0 := pkMode s n
  let m1 := fieldN v.toNat 0 3
  if m0 ≠ 0 ∧ m1 ≠ 0 ∧ m0 ≠ m1 then s.putB (Reg.posPkStatus n) 6 true
  else
    let s := s.wr (Reg.posPkCfg n) v
    let s := if m1 = 6 ∨ m1 = 7 then s.putB (Reg.posPkStatus n) 6 true else s
    if m0 = 0 ∧ !offMode s m1 then
      let s := (setPkCount s n 0).putF (Reg.posPkStatus n) 0 3 4
      noteChange n (nowStamp s) none (setPick s n { pickOf s n with changes := 0, sched := [] })
    else if m1 = 0 then setPick s n { pickOf s n with sched := [] }
    else s

/-- POS_PK_CFG_WRITE (R89, R91). -/
def execPosPkCfgWrite (n : Fin 4) (v : W32) : State → Res State :=
  hostWrite .held fun s => if v &&& 0xFF00F000#32 ≠ 0 then oc 13 else .next (pkCfgPut n v s)

/-- LOAD_NOW (R93, R94). -/
def execLoadNow (n : Fin 4) : State → Res State :=
  hostWrite .held fun s => if pkChain s n then .next s else .next (refLoad n (refRecord n (nowStamp s) s))

/-- REF_ARM (R93, R95). -/
def execRefArm (n : Fin 4) : State → Res State :=
  hostWrite .held fun s => if pkChain s n then .next s else .next (setArmed n true s)

/-- REF_DISARM (R93, R96). -/
def execRefDisarm (n : Fin 4) : State → Res State :=
  hostWrite .held fun s => if pkChain s n then .next s else .next (setArmed n false s)

/-! ### Events: commands -/

/-- An arm of event v is refused (R99). -/
def armRefused (s : State) (v : Nat) : Bool :=
  let i := s.rdQ (Reg.posEvInterval v) 2
  evDir s v == 3 || evRepeat s v == 3
  || (evRepeat s v == 2 && (!evPick s v || i == 0))
  || (evRepeat s v == 1 && !evPick s v && decide (signedN 64 i < 16))
  || (evRepeat s v == 1 && evPick s v &&
      (signed48 i == 0 || (evDir s v == 0 && decide (signed48 i < 0)) || (evDir s v == 1 && decide (0 < signed48 i))))
  || (decide (16 ≤ v) && ((queuePart s (evQueue s v)).isNone || qEsize s (evQueue s v) != 32))

/-- Arm event v (R72, R98 to R101). Skips that no element has reported yet stay for the next one (R107). -/
def evArm (v : Nat) (s : State) : State :=
  if evArmed s v then s
  else if armRefused s v then s.putB (Reg.posEvStatus v) 5 true
  else
    let t : Int := if evPick s v then signed48 (s.rdQ (Reg.posEvTarget v) 2)
      else (stamp16 (BitVec.ofNat 128 (s.rdQ (Reg.posEvTarget v) 4)) : Int) * 2 ^ 16
    let s := ((s.putB (Reg.posEvStatus v) 0 true).wr (Reg.posEvFires v) 0).wr (Reg.posEvSkips v) 0
    let s := setEvent s v { eventOf s v with target := t, due := [], changes := 0 }
    if evPick s v then judgePick v s else judgeTime ((now32 s : Int) + 16 * 2 ^ 32 - 1) v s

/-- POS_EV_ARM (R98 to R101). -/
def execPosEvArm (v : Fin 80) : State → Res State := hostWrite .held fun s => .next (evArm v s)

/-- Event v is to fire: a pick condition has been met, or the time base has reached its target (R100). -/
def evDue (s : State) (v : Nat) : Bool :=
  evArmed s v && if evPick s v then !(eventOf s v).due.isEmpty else decide ((eventOf s v).target ≤ now32 s)

/-- Fire event v and go on from the firing. A time event's stamp is the instant of its target (log entry 14), a pick event's
the TCLK after the one that met its condition (R100). -/
def evGo (v : Nat) (s : State) : State :=
  let x := eventOf s v
  let t := if evPick s v then x.due.headD (now32 s) else x.target.toNat
  evAfter v (evFire v false (stampAt s t) (setEvent s v { x with due := x.due.tail }))

/-- EVENT_FIRE (R100). -/
def execEventFire (v : Fin 80) (s : State) : Res State := onlyIf (s.tclk && evDue s v) (evGo v) s

/-- POS_EV_DISARM (R103): a firing of the same TCLK comes first. -/
def execPosEvDisarm (v : Fin 80) : State → Res State :=
  hostWrite .held fun s =>
    if evArmed s v then .next (evDisarm v (if s.tclk && evDue s v then evGo v s else s)) else .next s

/-- TRIG_PULSE_END (R104). -/
def execTrigPulseEnd (v : Fin 16) (s : State) : Res State :=
  onlyIf (s.tclk && (eventOf s v).pulse) (fun s => trigSync v (setEvent s v { eventOf s v with pulse := false })) s

/-- The 32-byte element of a position doorbell. -/
def dbElement (d : Nat) (f : Firing) : List Byte :=
  natLe 16 f.t.toNat ++ natLe 8 f.p.toNat ++ natLe 1 d ++ natLe 1 ((if f.late then 1 else 0) + (if f.skips then 2 else 0))
    ++ zeros 2 ++ natLe 4 f.seq.toNat

/-- The whole nanosecond of a stamp, which names the TCLK of a firing. -/
def stampTclk (t : TStamp) : Nat := t.toNat / 2 ^ 32
/-- A doorbell of a lower number that fired in the same TCLK is still to write into the same queue (R105). -/
def dbBehind (s : State) (v : Nat) (f : Firing) : Bool :=
  (List.range 80).any fun u => decide (16 ≤ u ∧ u < v) && evQueue s u == evQueue s v
    && (eventOf s u).fired.any fun g => stampTclk g.t == stampTclk f.t

/-- POSITION_DOORBELL (R105, R107): the oldest element of the doorbell is written into its queue and committed, after those of
the lower doorbells that fired with it. -/
def execPositionDoorbell (d : Fin 64) (s : State) : Res State :=
  let v := 16 + d.val
  match (eventOf s v).fired with
  | [] => .next s
  | f :: l =>
    onlyIfR (s.cclk && !dbBehind s v f) (fun s => engAccess s (commitRange s (evQueue s v)) fun s =>
      let s := setEvent s v { eventOf s v with fired := l }
      match engCommit (evQueue s v) (dbElement d f) s with
      | (true, s) => .next s
      | (false, s) =>
        .next (setEvent (s.putB (Reg.posEvStatus v) 6 true) v { eventOf s v with skips := f.skips || (eventOf s v).skips })) s

/-! ### Set and step (R72 to R74, R101, R102) -/

/-- Judge every armed time event after a set or a forward step. -/
def judgeTimes (s : State) : State :=
  (List.range 80).foldl (fun s v => if evArmed s v && !evPick s v then judgeTime (now32 s) v s else s) s

/-- What follows a set or a step: the step count, the end of the load window and the TIME packet (R455, R418, R543). -/
def timeMoved (s : State) : State :=
  let s := loadWindowEnd s
  traceTime { s with chain := { s.chain with stepCount := (s.chain.stepCount + 1) % 65536 } }

/-- TIME_SET_DONE (R72, R74, R75, R543). -/
def execTimeSetDone (s : State) : Res State :=
  match s.pos.setReq with
  | none => .next s
  | some t =>
    onlyIf s.tclk (fun s =>
      let s := { s with pos := { s.pos with tb := t, setReq := none } }
      judgeTimes (timeMoved (timeSync ((s.putB Reg.timeCtrl 2 false).putB Reg.timeCtrl 1 false)))) s

/-- TIME_STEP_DONE (R73, R74, R543): a step below zero gives zero; only a forward step makes targets past. -/
def execTimeStepDone (s : State) : Res State :=
  match s.pos.stepReq with
  | none => .next s
  | some (ns, fr) =>
    onlyIf s.tclk (fun s =>
      let d : Int := ns * 2 ^ 32 + fr * 2 ^ 16
      let t : Int := now32 s + d
      let s := { s with pos := { s.pos with tb := ofTb32 t.toNat, stepReq := none } }
      let s := timeMoved (s.putB Reg.timeCtrl 3 false)
      if 0 < d then judgeTimes s else s) s

end Sys2Proof.Machine
end

