-- ==== Sys2Proof/Machine/Ethernet.lean ====
section
/-! DEFINITION. Ethernet ports of 04_sweep_intake.md and 03_position_and_time.md: port control, receive checks, PTP
steering, matching, admission, delivery, transmission and transmit stamps (R57, R80 to R84, R109 to R121, R144 to R146). A
frame is its bytes from the destination address, without its FCS. -/

namespace Sys2Proof.Machine

/-! ### Port control (R55 to R57, R111, R115) -/

def portState (s : State) (p : Nat) : Nat := s.fld (Reg.ethPortStatus p) 0 2
def ethPort (s : State) (p : Nat) : EthPort := Tab.get (fun _ => (⟨[], none⟩ : EthPort)) s.intake.ports p
def setEthPort (s : State) (p : Nat) (x : EthPort) : State :=
  { s with intake := { s.intake with ports := Tab.set (fun _ => (⟨[], none⟩ : EthPort)) s.intake.ports p x } }
def portLink (s : State) (p : Nat) : Bool := s.bit (Reg.ethPortStatus p) 3
/-- ETH_PORT_CFG holds a combination an enable refuses (R115). -/
def portCfgBad (s : State) (p : Nat) : Bool :=
  let fec := s.fld (Reg.ethPortCfg p) 1 2
  fec == 3 || (fec == 2 && s.bit (Reg.ethPortCfg p) 0)
/-- The link of port p changes; a port that is OFF has no link. -/
def setPortLink (p : Nat) (up : Bool) (s : State) : State :=
  if portLink s p == up then s
  else
    let s := (s.putB (Reg.ethPortStatus p) 3 up).putB (Reg.ethPortStatus p) 4 true
    if up then s else s.satF (Reg.ethPortStatus p) 16 16
/-- An OFF port becomes ENABLED, or its enable is refused. -/
def portStart (p : Nat) (s : State) : State :=
  if portCfgBad s p then setPortLink p false ((s.putF (Reg.ethPortStatus p) 0 2 0).putB (Reg.ethPortStatus p) 5 true)
  else s.putF (Reg.ethPortStatus p) 0 2 1

/-- ETH_PORT_ENABLE (R55, R115). -/
def execEthPortEnable (p : Fin 8) : State → Res State :=
  hostWrite .fabric fun s =>
    match enableReq (portState s p) (s.bit (Reg.ethPortStatus p) 2) with
    | .start => .next (portStart p s)
    | .latch => .next (s.putB (Reg.ethPortStatus p) 2 true)
    | _ => .next s

/-- ETH_PORT_DISABLE (R55, R57). The drain keeps its instant: a frame already in reception then is finished. -/
def execEthPortDisable (p : Fin 8) : State → Res State :=
  hostWrite .fabric fun s =>
    match disableReq (portState s p) (s.bit (Reg.ethPortStatus p) 2) with
    | .drain => .next ((setEthPort s p { ethPort s p with drain := some s.pos.now }).putF (Reg.ethPortStatus p) 0 2 2)
    | .unlatch => .next (s.putB (Reg.ethPortStatus p) 2 false)
    | _ => .next s

/-- ETH_PORT_DRAIN_COMPLETE (R56, R57, R111, R115). -/
def execEthPortDrainComplete (p : Fin 8) (s : State) : Res State :=
  onlyIf (s.cclk && portState s p == 2) (fun s =>
    if s.bit (Reg.ethPortStatus p) 2 then portStart p (s.putB (Reg.ethPortStatus p) 2 false)
    else setPortLink p false (s.putF (Reg.ethPortStatus p) 0 2 0)) s

/-- ETH_LINK_CHANGE (R111): block lock or remote fault changes at a port that is not OFF. -/
def execEthLinkChange (p : Fin 8) (up : Bool) (s : State) : Res State :=
  onlyIf (s.cclk && (portState s p == 1 || portState s p == 2)) (setPortLink p up) s

/-! ### Reading a frame -/

/-- An 802.1Q tag follows the addresses. -/
def tagged (f : List Byte) : Bool := beAt f 12 2 == 0x8100
/-- Offset of the EtherType after at most one tag, and the EtherType. -/
def typeOff (f : List Byte) : Nat := if tagged f then 16 else 12
def etherType (f : List Byte) : Nat := beAt f (typeOff f) 2
/-- Offset and length of the IPv4 header. -/
def ipOff (f : List Byte) : Nat := typeOff f + 2
def ipHdr (f : List Byte) : Nat := 4 * (beAt f (ipOff f) 1 % 16)
/-- IPv4 carrying UDP (check 7). -/
def isUdp (f : List Byte) : Bool := etherType f == 0x0800 && beAt f (ipOff f) 1 / 16 == 4 && beAt f (ipOff f + 9) 1 == 17
/-- Offset of the UDP header. -/
def udpOff (f : List Byte) : Nat := ipOff f + ipHdr f
def srcIp (f : List Byte) : Nat := beAt f (ipOff f + 12) 4
def srcUdp (f : List Byte) : Nat := beAt f (udpOff f) 2
def dstUdp (f : List Byte) : Nat := beAt f (udpOff f + 2) 2
/-- The UDP payload. -/
def udpPayload (f : List Byte) : List Byte := slice f (udpOff f + 8) (beAt f (udpOff f + 4) 2 - 8)

/-- Sum of big-endian 16-bit words. -/
def wordSum : List Byte → Nat
  | a :: b :: l => 256 * a.toNat + b.toNat + wordSum l
  | [a] => 256 * a.toNat
  | [] => 0
/-- The one's complement sum of a header is all ones. -/
def ipSumOk (h : List Byte) : Bool :=
  let n := wordSum h
  let n := n % 65536 + n / 65536
  (n % 65536 + n / 65536) == 65535

/-- Check 8: header checksum, no fragment, lengths consistent with the frame. The UDP length is the IPv4 payload
length. -/
def ipOk (f : List Byte) : Bool :=
  let total := beAt f (ipOff f + 2) 2
  let frag := beAt f (ipOff f + 6) 2
  decide (20 ≤ ipHdr f) && ipSumOk (slice f (ipOff f) (ipHdr f)) && frag % 0x4000 == 0
    && decide (ipHdr f + 8 ≤ total ∧ ipOff f + total ≤ f.length) && beAt f (udpOff f + 4) 2 == total - ipHdr f

/-- PAUSE and priority flow control (check 6). -/
def isPause (f : List Byte) : Bool := beAt f 12 2 == 0x8808 && (beAt f 14 2 == 0x0001 || beAt f 14 2 == 0x0101)

/-- The destination is the port MAC, broadcast or a group address (check 5). -/
def forUs (s : State) (p : Nat) (f : List Byte) : Bool :=
  f.take 6 == natLe 6 (s.rdQ (Reg.ethMac p) 2) || (leAt f 0 1).testBit 0

/-! ### The receive FIFO (R128) -/

/-- Bytes held in the receive FIFO of a port. -/
def fifoHeld (s : State) (p : Nat) : Nat :=
  ((s.intake.frames.filter fun f => f.port == p).map fun f => (f.id, f.fifo)).dedup.map Prod.snd |>.sum

/-- Bytes of a receive FIFO. -/
def fifoSize : Nat := 262144

/-! ### Matching (R117, R118) -/

/-- A received frame as matching and delivery see it. -/
structure RxFrame where
  id : Nat
  port : Nat
  frame : List Byte
  /-- bytes from destination address to FCS -/
  len : Nat
  t : TStamp
  deriving DecidableEq, Repr

/-- The frame matches context x. -/
def ctxMatches (s : State) (r : RxFrame) (x : Nat) : Bool :=
  let c := ctxOf s x
  let f := r.frame
  (ctxPart s x).isSome && c.kind != .unused && c.port == r.port && c.srcIp == srcIp f
    && (c.srcUdp == 0 || c.srcUdp == srcUdp f) && c.dstUdp == dstUdp f
    && (!c.matchVid || (tagged f && beAt f 14 2 % 4096 == c.vid))

/-- The lowest-numbered matching context of each partition that owns a match, in ascending partition. -/
def deliveries (s : State) (r : RxFrame) : List (Nat × Nat) :=
  (List.range 8).filterMap fun n =>
    ((List.range (partEntry s n).ctxCount).map fun i => (partEntry s n).ctxFirst + i).find?
        (fun x => ctxPart s x == some n && ctxMatches s r x)
      |>.map fun x => (n, x)

/-! ### Delivery (R119, R120, R123, R133, R141, R144) -/

/-- A POINT delivery is committed: it waits for insertion into the OPEN buffer of its grid, if the grid is its partition's
and has one. -/
def commitPoint (n x : Nat) (r : RxFrame) (s : State) : State :=
  let c := ctxOf s x
  let pay := udpPayload r.frame
  if pay.length < templateNeed (templateOf s c.sel) then (s.sat (Reg.intakeCtxOther x)).putB (Reg.intakeCtxFlags x) 0 true
  else
    let g := match gridOf s c.bind with
      | none => none
      | some g => if g.part = n then some g else none
    let k := match g with | none => 0 | some g => g.counter
    let fr : PointFrame := {
      id := r.id, port := r.port, ctx := x, part := n, grid := c.bind, t := r.t, payload := pay, fifo := r.len
      buf := match g with | none => none | some g => g.find .open
      count := pkCount s k, dir := s.fld (Reg.posPkStatus k) 0 2, changes := (pickOf s k).changes
      t0 := BitVec.ofNat 128 (s.rdQ (Reg.posPkLastT0 k) 4), t1 := BitVec.ofNat 128 (s.rdQ (Reg.posPkLastT1 k) 4) }
    { s with intake := { s.intake with frames := s.intake.frames ++ [fr] } }

/-- A RAW delivery is written to its queue (R144); a queue that does not take it drops it. -/
def commitRaw (x : Nat) (r : RxFrame) (s : State) : State :=
  let c := ctxOf s x
  let pay := udpPayload r.frame
  let cut := decide (qEsize s c.queue < 32 + pay.length)
  match engCommit c.queue
    (natLe 16 r.t.toNat ++ natLe 8 (pickStamp s (c.bind % 4)).toNat ++ natLe 4 (pay.length % 65536 + (if cut then 65536 else 0))
      ++ zeros 4 ++ pay) s with
  | (true, s) => s
  | (false, s) => s.putB (Reg.intakeCtxFlags x) 1 true

/-- One delivery of a frame to context x of partition n. -/
def deliver (r : RxFrame) (d : Nat × Nat) (s : State) : Res State :=
  let (n, x) := d
  let s := s.putB (Reg.intakeCtxFlags x) 4 true
  if !ptEnabled s n then .next ((s.sat (Reg.intakeCtxOther x)).putB (Reg.intakeCtxFlags x) 2 true)
  else
    let c := ctxOf s x
    let cost := r.len * 8000
    if c.rate = 0 ∨ c.tokens < cost then .next (s.sat (Reg.intakeCtxRate x))
    else
      let s := (setCtx s x { c with tokens := c.tokens - cost }).sat (Reg.intakeCtxFrames x)
      match c.kind with
      | .point => .next (commitPoint n x r s)
      | .raw => .next (commitRaw x r s)
      | .image => if imageOutside s x then oc 143 else .next (imageFrame x r.t (udpPayload r.frame) s)
      | .unused => .next s

/-- Deliver a frame to every context that takes it. -/
def deliverAll (r : RxFrame) : List (Nat × Nat) → State → Res State
  | [], s => .next s
  | d :: l, s => andThen (deliver r d s) (deliverAll r l)

/-- What the deliveries of a frame may write into queues. -/
def deliverRanges (s : State) (ds : List (Nat × Nat)) : EngRanges :=
  ds.flatMap fun d =>
    let c := ctxOf s d.2
    match c.kind with
    | .raw => commitRange s c.queue
    | .image => ringRange s c.queue
    | _ => []

/-- The next received frame takes a number. -/
def nextFrame (s : State) : State := { s with intake := { s.intake with nextId := s.intake.nextId + 1 } }

/-! ### Reception (R80, R81, R112, R116) -/

/-- A frame is steered to the PTP queue of its port (R81). -/
def steeredL2 (s : State) (p : Nat) (f : List Byte) : Bool := s.bit (Reg.ethPtpCfg p) 0 && etherType f == 0x88F7
def steeredUdp (s : State) (p : Nat) (f : List Byte) : Bool :=
  s.bit (Reg.ethPtpCfg p) 1 && (dstUdp f == 319 || dstUdp f == 320)

/-- Count a frame that passed every check. -/
def rxGood (p len : Nat) (s : State) : State :=
  (s.sat (Reg.ethRxGood p)).wrQ (Reg.ethRxBytes p) 2 (s.rdQ (Reg.ethRxBytes p) 2 + len)

/-- Write a steered frame into the PTP queue (R81). The length it gives is that of the bytes it may hold, so without the FCS:
DESIGN CHOICE, log entry 69, R81 does not say. -/
def ptpSteer (p : Nat) (t : TStamp) (f : List Byte) (s : State) : State :=
  let q := s.fld (Reg.ethPtpCfg p) 16 10
  let cut := decide (qEsize s q < 20 + f.length)
  (engCommit q (natLe 16 t.toNat
    ++ natLe 4 (f.length % 2 ^ 14 + (if cut then 2 ^ 14 else 0) + (if tagged f then 2 ^ 15 else 0)) ++ f) s).2

/-- The receive checks in order: the counter of the first that fails (R116). Check 10 is the match. -/
def rxFail (s : State) (p : Nat) (f : List Byte) (fcsOk cut : Bool) : Option Nat :=
  let len := f.length + 4
  if !s.pins.pfN then some (Reg.ethRxPfLost p)
  else if cut then some (Reg.ethRxAborted p)
  else if !fcsOk then some (Reg.ethRxFcs p)
  else if len < 64 ∨ 9216 < len then some (Reg.ethRxSize p)
  else if !forUs s p f then some (Reg.ethRxNotUs p)
  else if isPause f then some (Reg.ethRxPause p)
  else if !steeredL2 s p f && !isUdp f then some (Reg.ethRxNotIp p)
  else if !steeredL2 s p f && !ipOk f then some (Reg.ethRxIpErr p)
  else if fifoSize < fifoHeld s p + len then some (Reg.ethRxFifo p)
  else none

/-- Port p takes or sends a frame whose first octet came `ago` units of 2⁻¹⁶ ns before now: it is ENABLED, or it drains and the frame
was in reception or in transmission when the drain began (R57). -/
def portTakes (s : State) (p ago : Nat) : Bool :=
  portState s p == 1 ||
    (portState s p == 2 && match (ethPort s p).drain with
      | none => false
      | some d => decide (s.pos.now * 2 ^ 14 ≤ d * 2 ^ 14 + ago))

/-- ETH_FRAME_RECEIVE (R57, R80, R81, R116 to R121): a frame ends at port p, `ago` units of 2⁻¹⁶ ns after its first octet
behind the start frame delimiter, which its stamp names. While PF_N is low every frame is lost and counted (R27); frames that
arrive while CCLK is stopped are lost uncounted (R597). So are those that arrive after PF_N has risen and before the resumption
is complete: DESIGN CHOICE, log entry 70, the spec does not say whether they are received or counted. -/
def execEthFrameReceive (p : Fin 8) (frame : List Byte) (fcsOk cut : Bool) (ago : Nat) (s : State) : Res State :=
  if !s.tclk || !portTakes s p ago || !(portLink s p || cut) || !(s.cclk || !s.pins.pfN) then .next s
  else
    match rxFail s p frame fcsOk cut with
    | some r => .next (s.sat r)
    | none =>
      let t := agoStamp s ago
      let len := frame.length + 4
      if steeredL2 s p frame || steeredUdp s p frame then
        engAccess s (commitRange s (s.fld (Reg.ethPtpCfg p) 16 10)) fun s => .next (ptpSteer p t frame (rxGood p len s))
      else
        let r : RxFrame := ⟨s.intake.nextId, p, frame, len, t⟩
        match deliveries s r with
        | [] => .next (s.sat (Reg.ethRxUnmatched p))
        | ds => engAccess s (deliverRanges s ds) fun s => deliverAll r ds (nextFrame (rxGood p len s))

/-! ### Transmission (R80, R82, R83, R145) -/

/-- Replace the transmit stamps of port p and show them; the port's vector is raised when stamps come to be held while
irq_en is set. -/
def setTxStamps (p : Nat) (l : List TxStamp) (s : State) : State :=
  let was := s.fld (Reg.ethTxtsStatus p) 0 4
  let s := setEthPort s p { ethPort s p with tx := l }
  let h := l.headD ⟨0, 0⟩
  let s := (s.putF (Reg.ethTxtsStatus p) 0 4 l.length).wrQ (Reg.ethTxtsHeadT p) 4 h.t.toNat
  let s := s.wrN (Reg.ethTxtsHeadId p) (h.id.toNat + (if l.isEmpty then 0 else 65536))
  if was == 0 && !l.isEmpty && s.bit (Reg.ethTxtsStatus p) 5 then s.raise (16 + p) else s

/-- The stamp point of a requested frame has passed, at the instant stamped `t` (R80, R82). -/
def txStamp (p id : Nat) (t : TStamp) (s : State) : State :=
  let l := (ethPort s p).tx
  if l.length < 8 then setTxStamps p (l ++ [⟨t, BitVec.ofNat 16 id⟩]) s
  else (s.putB (Reg.ethTxtsStatus p) 4 true).sat (Reg.ethTxtsOvfCount p)

/-- A frame as it goes out: padded to 64 bytes with its FCS, the CRC-32 of IEEE 802.3, appended (R145; log entry 71). -/
def framed (f : List Byte) : List Byte :=
  let b := f ++ zeros (60 - f.length)
  b ++ natLe 4 (crc32 b)

/-- ETH_FRAME_TRANSMIT (R80, R82, R145): the port has sent the oldest element of its transmit queue, whose first octet passed
the transmit balls `ago` units of 2⁻¹⁶ ns before now. -/
def execEthFrameTransmit (p : Fin 8) (ago : Nat) (s : State) : Res State :=
  let q := s.fld (Reg.ethTxQueue p) 0 10
  if !s.cclk || !portTakes s p ago || !portLink s p || !s.bit (Reg.ethTxQueue p) 16 || qCons s q != 3 then .next s
  else match qPeek s q with
    | none => .next s
    | some e =>
      engAccess s (takeRange s q) fun s =>
        let n := leAt e 0 2
        let s := qTake q s
        if n < 14 ∨ 9212 < n ∨ e.length < n + 16 then .next (s.sat (Reg.ethTxBad p))
        else
          let f := slice e 16 n
          let s := (s.emit (.frame p (framed f))).sat (Reg.ethTxFrames p)
          .next (if (leAt e 2 2).testBit 0 then txStamp p (leAt e 4 2) (agoStamp s ago) s else s)

/-- ETH_TXTS_POP (R83). -/
def execEthTxtsPop (p : Fin 8) : State → Res State :=
  hostWrite .fabric fun s => .next (setTxStamps p (ethPort s p).tx.tail s)

end Sys2Proof.Machine
end

