-- ==== Sys2Proof/Machine/Debug.lean ====
section
/-! DEFINITION. Trace control, the performance counters, the freeze, and the TAP with its readout chain
(17_debug_trace_freeze.md). -/

namespace Sys2Proof.Machine

/-! ### Commands: trace control (R546, R550, R554) -/

/-- Set TRACE_WR and TRACE_RD to 0, while trace is not enabled. -/
def traceClear (s : State) : State :=
  if s.bit Reg.traceCtrl 0 then s else traceFull ((s.wr Reg.traceWr 0).wr Reg.traceRd 0)

/-- The ENABLED cores trace is enabled for, one bit each. -/
def tracedCores (s : State) : BitVec 32 :=
  BitVec.ofNat 32 (((List.range 32).map fun k => if s.bit Reg.traceSrcEn k && coreState s k == 1 then 2 ^ k else 0).sum)

/-- A write of TRACE_CTRL (R554): `clear` and `mode` act only while trace was not enabled. -/
def traceCtrlWrite (v : W32) (s : State) : Res State :=
  if v &&& 0xFFFFFFF8#32 ≠ 0 then oc 13
  else
    let s := if v.toNat.testBit 2 then traceClear s else s
    let s := if s.bit Reg.traceCtrl 0 then s else traceFull (s.putB Reg.traceCtrl 1 (v.toNat.testBit 1))
    let s := s.putB Reg.traceCtrl 0 (v.toNat.testBit 0)
    if v.toNat.testBit 0 then .next { s with trace := { s.trace with syncDue := s.trace.syncDue ||| tracedCores s } } else .next s

/-- TRACE_ENABLE (R554): a write of TRACE_CTRL. -/
def execTraceEnable (v : W32) : State → Res State := hostWrite .fabric (traceCtrlWrite v)

/-- TRACE_CLEAR (R546): a write of TRACE_CTRL.clear. -/
def execTraceClear : State → Res State := hostWrite .fabric fun s => .next (traceClear s)

/-- A write of the high word of TRACE_MARK (R541). -/
def markWrite (v : W32) (s : State) : Res State :=
  if v &&& 0xFFFF0000#32 ≠ 0 then oc 13
  else
    let s := s.wr (Reg.traceMark + 4) v
    .next (traceSys 0xD (s.rdQ Reg.traceMark 2) s)

/-- HOST_MARK (R541). -/
def execHostMark (v : W32) : State → Res State := hostWrite .fabric (markWrite v)

/-- TRACE_SYNC_PERIOD (R550): a core that runs emits SYNC with reason 0 while the period is not 0. -/
def execTraceSyncPeriod (k : CoreId) (s : State) : Res State :=
  onlyIf (s.cclk && s.fld Reg.traceSync 0 5 != 0 && coreState s k == 1 && corePower s k == 0 && !coreStopped s k)
    (fun s => traceSync k 0 (core s k).pc.toNat s) s

/-! ### Commands: performance counters (R553) -/

/-- PMC_CLEAR (R553): all sixteen counters become 0. -/
def execPmcClear : State → Res State :=
  hostWrite .fabric fun s => .next ((List.range 16).foldl (fun s n => s.wrQ (Reg.pmc n) 2 0) s)

/-- PMC_SNAP (R553): all sixteen counters are copied. -/
def execPmcSnap : State → Res State :=
  hostWrite .fabric fun s => .next ((List.range 16).foldl (fun s n => s.wrQ (Reg.pmcSnap n) 2 (s.rdQ (Reg.pmc n) 2)) s)

/-! ### Commands: freeze (R555 to R558) -/

/-- Ask for a freeze. -/
def freezeAsk (src : BitVec 3) (s : State) : State := { s with frz := { s.frz with req := s.frz.req ||| src } }

/-- TRACE_FREEZE (R555): a write without the key is discarded. -/
def execTraceFreeze (v : W32) : State → Res State :=
  hostWrite .fabric fun s =>
    if fieldN v.toNat 16 16 ≠ 0x4652 then .next s
    else if fieldN v.toNat 1 15 ≠ 0 then oc 13
    else onlyIf (v.toNat.testBit 0) (freezeAsk 2#3) s

/-- FREEZE_N (R555): FREEZE_N has been low for 4 TCLK after its synchroniser. -/
def execFreezeN (s : State) : Res State := onlyIf s.tclk (freezeAsk 1#3) s

/-- Every channel but the UNUSED ones enters or leaves self-refresh. -/
def selfRefresh (b : Bool) (s : State) : State :=
  (List.range 48).foldl (fun s c => if chanState s c == 3 then s else s.putB (Reg.memStatus c) 4 b) s

/-- The freeze is taken (R556): the FIFOs are emptied, FREEZE is written with the stamp of this instant, SAFE_N goes low,
and nothing runs any more. -/
def freezeTake (s : State) : State :=
  let t := nowStamp s
  let stage := s.stage
  let src := s.frz.req
  let s := traceEmpty s
  let s := traceSys 0xB (src.toNat + 2 ^ 8 * (s.fld Reg.selvStatus 16 8)) s
  let s := selfRefresh true (s.setStage 7)
  let s := if s.selv.running then { s with pins := { s.pins with safeN := .low } } else s
  let s := { s with i2c := { s.i2c with phase := .idle, buf := [], count := 0 } }
  { s with
    frz := { frozen := true, req := 0, sources := src, stage := stage, t := t, inHold := s.inHold, free := s.freeCtr }
    freeCtr := s.freeCtr + 1 }

/-- FREEZE (R556): the requests that wait are taken as one freeze. -/
def execFreeze (s : State) : Res State := onlyIf (s.tclk && s.frz.req != 0) freezeTake s

/-! ### The TAP (R559 to R563) -/

/-- The TAP holds an instruction. -/
def tapIr (ir : BitVec 8) (s : State) : State := { s with tap := { s.tap with ir := ir, highz := ir == 0x05#8 } }

/-- The TAP shifts bits out. -/
def tapOut (bs : List Bool) (s : State) : State := s.emit (.tdo s.tap.ir bs)

/-- The `n` bits of a number, least significant bit first. -/
def natBits (n v : Nat) : List Bool := (List.range n).map fun i => v.testBit i

/-- The bits of a byte string in shift order. -/
def byteBits (bs : List Byte) : List Bool := bs.flatMap fun b => natBits 8 b.toNat

/-- What `n` cells of the boundary register capture: their order is in the BSDL file, which the spec does not give. -/
def captured (s : State) (n : Nat) : List Bool := (List.range n).map fun i => Config.freeBool (s.freeCtr + i)

/-- Shift through the boundary register: the captured bits go out, `load` comes in and is updated. -/
def boundaryShift (load : List Bool) (s : State) : State :=
  let s := tapOut (captured s load.length) s
  { s with tap := { s.tap with bsr := load }, freeCtr := s.freeCtr + load.length }

/-- An instruction that takes the outputs from their function is outside contract while COLD_N is high and the part is not
frozen (R563). -/
def tapDrives (f : State → State) (s : State) : Res State :=
  if s.pins.coldN && !s.frz.frozen then oc 563 else .next (f s)

/-- TAP_RESET (R559, R560): IDCODE is selected, as IEEE 1149.1 has it (log entry 7), and RO_SELECT selects every
segment. -/
def execTapReset (s : State) : Res State :=
  .next { s with tap := { ir := 0x01, sel := BitVec.allOnes 68, bsr := [], highz := false } }

/-- EXTEST (R559). -/
def execExtest (drive : List Bool) : State → Res State := tapDrives fun s => boundaryShift drive (tapIr 0x00 s)

/-- IDCODE (R559): the 32 bits of the identity. -/
def execIdcode (s : State) : Res State := .next (tapOut (natBits 32 0x13212B9D) (tapIr 0x01 s))

/-- SAMPLE_PRELOAD (R559). -/
def execSamplePreload (load : List Bool) (s : State) : Res State := .next (boundaryShift load (tapIr 0x02 s))

/-- EXTEST_PULSE (R559). -/
def execExtestPulse : State → Res State := tapDrives (tapIr 0x03)

/-- EXTEST_TRAIN (R559). -/
def execExtestTrain : State → Res State := tapDrives (tapIr 0x04)

/-- HIGHZ (R559). -/
def execHighz : State → Res State := tapDrives (tapIr 0x05)

/-- CLAMP (R559). -/
def execClamp : State → Res State := tapDrives (tapIr 0x06)

/-- RO_SELECT (R559). -/
def execRoSelect (sel : BitVec 68) (s : State) : Res State := .next { (tapIr 0x20 s) with tap := { (tapIr 0x20 s).tap with sel := sel } }

/-- BYPASS (R559). -/
def execBypass (s : State) : Res State := .next (tapIr 0xFF s)

/-! ### Readout (R560, R561) -/

/-- The bytes of a packet of the trace SRAM, lowest first. -/
def packetBytes (s : State) (i : Nat) : List Byte := natLe 16 (packetAt s i).toNat

/-- The domain of core k is powered down with no retention. -/
def coreDark (s : State) (k : Nat) : Bool := corePower s k == 3 || corePower s k == 4

/-- Segment number n holds data. -/
def segmentHolds (s : State) (n : Nat) : Bool := !(decide (4 ≤ n ∧ n < 36) && coreDark s (n - 4))

/-- Size of a segment in bytes. -/
def segmentSize (n : Nat) : Nat :=
  if n = 1 then 1114112 else if n = 2 then 524288 else if n = 3 then 1048576 else if n < 36 then 524288
  else if n < 68 then localSize else 134217728

/-- The bytes of a segment. The layout of segments 1, 3 and 4 + k is not stated: their bytes are free values. -/
def segmentBytes (s : State) (n : Nat) : List Byte :=
  if n = 2 then (List.range 32768).flatMap (packetBytes s)
  else if n < 36 then
    if segmentHolds s n then (List.range (segmentSize n)).map fun i => Config.readoutByte n i s.frz.free
    else zeros (segmentSize n)
  else if n < 68 then s.bytes (localBase (n - 36)) localSize
  else s.bytes sharedBase 134217728

/-- Some core segment is read from retention cells: the hold is ready, or a core is in NAP with retention. -/
def retained (s : State) : Bool := s.hold.phase == .ready || (List.range 32).any fun k => corePower s k == 2

/-- The header's 1,024 bits as a number. On a part that is not frozen, the fields that describe the freeze have no stated
value. -/
def readoutHeader (s : State) : Nat :=
  let free := Config.freeNat s.freeCtr
  let held := ((List.range 68).map fun i => if segmentHolds s (i + 1) then 2 ^ i else 0).sum
  let src := if s.frz.frozen then s.frz.sources.toNat + 2 ^ 3 * s.frz.stage else free % 2 ^ 7
  let t := if s.frz.frozen then s.frz.t.toNat else free / 2 ^ 7 % 2 ^ 128
  (if s.frz.frozen then 1 else 0) + 2 * src + 2 ^ 8 * t
    + 2 ^ 136 * (if (if s.frz.frozen then s.frz.inHold else s.inHold) then 1 else 0)
    + 2 ^ 137 * (if retained s then 1 else 0) + 2 ^ 138 * held

/-- A segment's bits and its CRC. -/
def withCrc (bs : List Byte) : List Bool := byteBits bs ++ natBits 32 (crc32 bs)

/-- READOUT (R560, R561): the header, and on a frozen part every selected segment. -/
def execReadout (s : State) : Res State :=
  let segs := if s.frz.frozen then (List.range 68).filter fun i => s.tap.sel.toNat.testBit i else []
  .next (tapOut (withCrc (natLe 128 (readoutHeader s)) ++ segs.flatMap fun i => withCrc (segmentBytes s (i + 1))) (tapIr 0x21 s))

end Sys2Proof.Machine
end

