-- ==== Sys2Proof/Machine/Chain.lean ====
section
/-! DEFINITION. What the Olran links share (14_chip_chain.md R434 to R463): a link besides its registers, routing, what is
queued for transmission, flits and their replay, and what a link does when it falls to DOWN or loses the chain's time. -/

namespace Sys2Proof.Config

/-- The message bytes of a chain message other than a bolt, of which the spec gives the contents and no layout (R454, R455). -/
opaque chainBytes : Machine.Out → List Byte

end Sys2Proof.Config

namespace Sys2Proof.Machine

/-! ### A link -/

/-- Link l besides its registers. -/
def link (s : State) (l : Nat) : Link := Tab.get (fun _ => Link.down) s.chain.links l
/-- Replace link l. -/
def setLink (s : State) (l : Nat) (x : Link) : State :=
  { s with chain := { s.chain with links := Tab.set (fun _ => Link.down) s.chain.links l x } }
/-- State of link l: 0 OFF, 1 ENABLED, 2 DRAINING, 3 UNUSED. -/
def linkState (s : State) (l : Nat) : Nat := s.fld (Reg.linkStatus l) 0 2
/-- Link l is UP (R436). -/
def linkUp (s : State) (l : Nat) : Bool := (link s l).phase == .up
/-- LINK_STATUS.phase of a phase: 0 DOWN, 1 TRAINING, 2 UP. -/
def Phase.code : Phase → Nat
  | .down => 0
  | .waiting => 0
  | .up => 2
  | _ => 1
/-- Link l enters a training phase. -/
def setPhase (l : Nat) (p : Phase) (s : State) : State :=
  (setLink s l { link s l with phase := p }).putF (Reg.linkStatus l) 3 2 p.code

/-- The link towards a chip; an entry that names no link is as 0xFF (R443). -/
def routeOf (s : State) (c : Nat) : Option Nat :=
  let r := s.fld (Reg.linkRoute (c % 16)) 0 8
  if r < 6 then some r else none
/-- The time link: the one towards the position master (R455). -/
def timeLink (s : State) : Option Nat := if isMaster s || !s.warp.image then none else routeOf s s.warp.master
/-- Flits of a message of `n` bytes (R435). -/
def flitsOf (n : Nat) : Nat := (n + 223) / 224
/-- Flits of a waiting message. -/
def TxMsg.flits (m : TxMsg) : Nat := flitsOf m.size
/-- Change one entry of a list by its number. -/
def mapAt {α : Type} (l : List α) (i : Nat) (f : α → α) : List α :=
  (l.zipIdx).map fun e => if e.2 = i then f e.1 else e.1

/-! ### Transmission (R435, R440, R441, R453, R462) -/

/-- Queue a message on link l; only an ENABLED link takes new ones (R436, R461). -/
def putTx (l : Nat) (m : TxMsg) (s : State) : State :=
  if linkState s l == 1 then setLink s l { link s l with tx := (link s l).tx ++ [m] } else s

/-- A CTRL message of one flit. -/
def ctrlMsg (c : Out) : TxMsg := ⟨3, 1, 0, none, c, none⟩

/-- A free transmit buffer for a bolt (R445). -/
def boltFree (s : State) (l : Nat) : Bool := decide (((link s l).tx.filter fun m => m.vc = 0).length < 2)

/-- The partition's budget for the link is spent in this window (R453). -/
def budgetSpent (x : Link) (p : Nat) : Bool :=
  x.budget.getD p 0xFFFF != 0xFFFF && decide (64 * x.budget.getD p 0xFFFF ≤ x.spent.getD p 0)

/-- A message may begin: its budget is not spent, and while PF_N is low it is no bolt, SUB or MOVE (R453, R462). -/
def mayBegin (s : State) (x : Link) (m : TxMsg) : Bool :=
  (match m.charge with | none => true | some p => !budgetSpent x p)
    && (s.pins.pfN || (m.vc != 0 && m.vc != 1 && match m.content with | .move _ _ => false | _ => true))

/-- The number of the message of channel `vc` whose flit goes next: the one being sent, or the first that may begin. -/
def nextMsg (s : State) (x : Link) (vc : Nat) : Option Nat :=
  match x.tx.findIdx? (fun m => m.vc = vc ∧ 0 < m.sent ∧ m.sent < m.flits) with
  | some i => some i
  | none => x.tx.findIdx? fun m => m.vc == vc && m.sent == 0 && mayBegin s x m

/-- Channel `vc` of an UP link has a flit ready: a message, a credit and room in the replay buffer. -/
def vcReady (s : State) (x : Link) (vc : Nat) : Bool :=
  (nextMsg s x vc).isSome && decide (0 < x.credit.getD vc 0 ∧ x.replay.length < 128)

/-- No channel of higher priority has a flit ready: CTRL, EMB_REP, EMB_REQ, BOLT (R440). -/
def vcFirst (s : State) (x : Link) (vc : Nat) : Bool :=
  (List.range 4).all fun v => v ≤ vc || !vcReady s x v

/-- What a message carries as it leaves: the stamps at the transmit balls, and in a SYNC the master's lock (R455, R456). -/
def stamped (s : State) : Out → Out
  | .sync l _ _ _ h => .sync l (nowStamp s) (if isMaster s then timeLock s else s.chain.lastLock) s.chain.stepCount h
  | .delayReq l _ => .delayReq l (nowStamp s)
  | .delayResp l t1 t2 _ => .delayResp l t1 t2 (nowStamp s)
  | o => o

/-- The channel and number of the credits a flit returns, and the credits still owed after it (R435, R440). -/
def creditReturn (x : Link) : Nat × Nat × List Nat :=
  match x.owed.findIdx? (fun n => n ≠ 0) with
  | none => (0, 0, x.owed)
  | some v => (v, min 255 (x.owed.getD v 0), mapAt x.owed v fun n => n - 255)

/-- Sequence number that link l acknowledges (R441). -/
def ackSeq (x : Link) : Nat := (x.rxNext + 4095) % 4096

/-- Header of a data flit (R435). -/
def flitHeader (x : Link) (f : SentFlit) (cvc credits : Nat) : Nat :=
  1 + 2 * f.vc + 2 ^ 3 * f.som.toNat + 2 ^ 4 * f.eom.toNat + 2 ^ 5 * f.fseq + 2 ^ 17 * ackSeq x + 2 ^ 29 * x.nak.toNat + 2 ^ 30 * cvc
    + 2 ^ 32 * credits + 2 ^ 40 * (if f.som then f.msgnum else 0)
/-- Header of an idle flit: an acknowledgement and a credit return (R435). -/
def idleHeader (x : Link) (cvc credits : Nat) : Nat := 2 ^ 17 * ackSeq x + 2 ^ 29 * x.nak.toNat + 2 ^ 30 * cvc + 2 ^ 32 * credits

/-- Put a flit on link l; its parity is left out (log entry 61). -/
def emitFlit (l header : Nat) (body : List Byte) (s : State) : State :=
  s.emit (.flit l (BitVec.ofNat 64 header) body (crc32 (natLe 8 header ++ body)))

/-- Message data of flit number `i` of a message: unused bytes of the last one are 0 (R435). -/
def flitBody (s : State) (m : TxMsg) (i : Nat) : List Byte :=
  let bytes := match stamped s m.content with
    | .bolt _ b => b
    | c => fit (224 * m.flits) (Config.chainBytes c)
  fit 224 (bytes.drop (224 * i))

/-- Send the next flit of message number `i` of link l. -/
def sendFlit (l i : Nat) (m : TxMsg) (s : State) : State :=
  let x := link s l
  let eom := m.sent + 1 == m.flits
  let num := m.msgnum.getD x.nextMsg
  let f : SentFlit := ⟨x.fseq, m.vc, num, m.sent == 0, eom, flitBody s m m.sent⟩
  let (cvc, cr, owed) := creditReturn x
  let s := emitFlit l (flitHeader x f cvc cr) f.body s
  let s := if eom then s.emit (stamped s m.content) else s
  let s := if eom && m.vc == 0 then s.sat (Reg.linkTxBolts l) else s
  let m' : TxMsg := { m with sent := m.sent + 1, msgnum := some num, charge := none }
  setLink s l { x with
    tx := if eom ∧ m.vc ≠ 0 then x.tx.eraseIdx i else x.tx.set i m'
    nextMsg := if m.msgnum.isNone then (x.nextMsg + 1) % 2 ^ 24 else x.nextMsg
    fseq := (x.fseq + 1) % 4096
    replay := x.replay ++ [f]
    credit := mapAt x.credit m.vc fun n => n - 1
    owed := owed
    ackDue := false
    spent := match m.charge with | none => x.spent | some p => mapAt x.spent p fun n => n + m.size }

/-- Link l returns credits and acknowledgements in an idle flit (R435). -/
def idleFlit (s : State) (l : Nat) : State :=
  let x := link s l
  if x.phase == .up && (x.ackDue || x.owed.any fun n => n ≠ 0) then
    let (cvc, cr, owed) := creditReturn x
    setLink (emitFlit l (idleHeader x cvc cr) (zeros 224) s) l { x with owed := owed, ackDue := false }
  else s

/-- Owe the peer `n` credits of a channel: its flits have left the buffer (R440). -/
def oweCredit (l vc n : Nat) (s : State) : State :=
  setLink s l { link s l with owed := mapAt (link s l).owed vc fun o => o + n }

/-- A flit of a channel other than BOLT enters its buffer; the last completes its message. -/
def bufferFlit (l vc : Nat) (som eom : Bool) (s : State) : State :=
  let x := link s l
  let n := (if som then 0 else x.rxCount.getD vc 0) + 1
  setLink s l { x with
    rxCount := mapAt x.rxCount vc fun _ => if eom then 0 else n
    rxWhole := if eom then mapAt x.rxWhole vc fun ms => ms ++ [n] else x.rxWhole }

/-- The oldest message received whole on a channel of link l is dealt with: its flits leave the buffer (R440). -/
def msgTaken (l vc : Nat) (s : State) : State :=
  match (link s l).rxWhole.getD vc [] with
  | [] => s
  | n :: ms => oweCredit l vc n (setLink s l { link s l with rxWhole := mapAt (link s l).rxWhole vc fun _ => ms })

/-- As msgTaken for a message whose command does not say on which link it came: of the links that hold one, a free choice
(log entry 61). -/
def msgTakenAny (vc : Nat) (s : State) : State :=
  let ls := (List.range 6).filter fun l => !((link s l).rxWhole.getD vc []).isEmpty
  match ls[Config.freeNat s.freeCtr % ls.length]? with
  | none => s
  | some l => msgTaken l vc s.tickFree

/-! ### Loss of the chain's time (R457, R460) -/

/-- Counters in CHAIN mode hold their count and read UNREFERENCED. -/
def chainLost (s : State) : State :=
  [0, 1, 2, 3].foldl (fun s n => if pkChain s n then setPick (unrefPick s n) n { pickOf s n with sched := [] } else s) s

/-- The route towards the master has been written: while the time link is not UP, counters in CHAIN mode hold (R460). -/
def routeWritten (s : State) : State :=
  match timeLink s with
  | some l => if linkUp s l then s else chainLost s
  | none => chainLost s

/-- chain_sync is cleared; after a loss the counters follow R460. -/
def chainUnsync (s : State) : State :=
  let s := { s with chain := { s.chain with syncGood := 0 } }
  if s.bit Reg.timeStatus 5 then chainLost (timeSync (s.putB Reg.timeStatus 5 false)) else s

/-! ### Falling to DOWN (R439, R442, R451, R457) -/

/-- What a link keeps when it falls: its bolts, to be resent whole, and what it has received whole (R442, R451). -/
def Link.fallen (x : Link) (p : Phase) : Link :=
  { x with
    phase := p
    tx := (x.tx.filter fun m => m.vc = 0).map fun m => { m with sent := 0 }
    fseq := 0, replay := [], resent := 0, credit := [0, 0, 0, 0], owed := [0, 0, 0, 0], rxNext := 0, nak := false
    ackDue := false, rxCount := [0, 0, 0, 0], rxWhole := [[], [], [], []], rxPart := none, rxBolts := x.rxBolts.map fun b => { b with flits := 0 }, peerEnd := false }

/-- Link l leaves what it was doing for a phase; the time link takes the chain's time with it. -/
def linkLeave (l : Nat) (p : Phase) (s : State) : State :=
  let up := linkUp s l
  let s := (setLink s l ((link s l).fallen p)).putF (Reg.linkStatus l) 3 2 p.code
  let s := if up then s.putB (Reg.linkStatus l) 10 true else s
  if up ∧ timeLink s = some l then chainLost (chainUnsync s) else s

/-- Phase in which an ENABLED link starts: it trains from SIGNAL, while PF_N is low once it rises (R436, R462). -/
def startPhase (s : State) : Phase := if s.pins.pfN then .signal else .down

/-- An UP link falls to DOWN, counts, and restarts training while it is ENABLED (R439). -/
def linkFall (l : Nat) (s : State) : State :=
  linkLeave l (if linkState s l = 1 then startPhase s else .down) (s.satF (Reg.linkStatus l) 16 16)

/-- PF_N has risen and the compute domain is restored: every ENABLED link that is DOWN trains (R462, R535). -/
def linksTrain (s : State) : State :=
  (List.range 6).foldl (fun s l => if linkState s l = 1 ∧ (link s l).phase = .down then setPhase l .signal s else s) s

/-! ### Acknowledgement and replay (R441) -/

/-- Resend every unacknowledged flit, oldest first; a flit resent 16 times without progress brings the link down. -/
def replayAll (l : Nat) (s : State) : State :=
  let x := link s l
  if x.replay.isEmpty then s
  else if 16 ≤ x.resent then linkFall l s
  else
    let s := x.replay.foldl (fun s f => emitFlit l (flitHeader x f 0 0) f.body s) s
    setLink (s.sat (Reg.linkReplays l)) l { x with resent := x.resent + 1 }

/-- The bolts a link still has to deliver: bolts whose every flit is acknowledged leave their buffers (R451). -/
def boltsLeft (x : Link) : List TxMsg :=
  x.tx.filter fun m => !(m.vc == 0 && m.sent == m.flits && !x.replay.any fun f => some f.msgnum == m.msgnum)

/-- A draining link with no bolt left queues END (R461). -/
def endDue (l : Nat) (s : State) : State :=
  let x := link s l
  if linkState s l == 2 && !x.ending && x.tx.all fun m => m.vc ≠ 0 then
    setLink s l { x with ending := true, tx := x.tx ++ [ctrlMsg (.ctrl l "END")] }
  else s

/-- Flits up to `seq` are acknowledged. -/
def acked (l seq : Nat) (s : State) : State :=
  let x := link s l
  match x.replay.findIdx? (fun f => f.fseq = seq) with
  | none => s
  | some i =>
    let x := { x with replay := x.replay.drop (i + 1), resent := 0 }
    endDue l (setLink s l { x with tx := boltsLeft x })

/-! ### Sending to another chip (R443) -/

/-- Send a message of this chip to another by its route: whether there is one. -/
def sendTo (dst vc size : Nat) (c : Out) (charge : Option Nat) (s : State) : Bool × State :=
  match routeOf s dst with
  | none => (false, s)
  | some l => (true, putTx l ⟨vc, size, 0, none, c, charge⟩ s)

/-- Send on a message that has arrived for another chip, uncharged; without a route it is discarded and counted (R443,
R453). -/
def forwardTo (dst vc size : Nat) (c : Out) (s : State) : State :=
  match sendTo dst vc size c none s with
  | (true, s) => s
  | (false, s) => s.sat Reg.chainTxNoroute

end Sys2Proof.Machine
end

