-- ==== Sys2Proof/Machine/Emb.lean ====
section
/-! DEFINITION. The embedding engine of 13_embedding_tables.md (R405 to R433): tables and directories, requests and
sub-requests, pooling, versions, load counts, moves, gradients. A request reads its rows in the step that accepts it. -/

namespace Sys2Proof.Machine

/-! ### Tables (R405 to R407) -/

/-- A table described on this chip. -/
def embTab (s : State) (t : Nat) : Option EmbTab := (s.emb.tabs.find? fun e => e.1 = t).map Prod.snd
/-- An address of a version slot: 0 directory, 1 H, 2 W, 3 N pool, 4 hot area, 5 hgrad_off, 6 wgrad_off. -/
def EmbTab.addr (x : EmbTab) (v i : Nat) : Nat := (x.slots.getD v []).getD i 0
/-- Row stride of a tier. -/
def EmbTab.stride (x : EmbTab) (tier : Nat) : Nat := if tier = 0 then x.hStride else if tier = 1 then x.wStride else x.nStride
/-- Row size of a tier (R406). -/
def EmbTab.rowSize (x : EmbTab) (tier : Nat) : Nat := if tier = 0 then 2 * x.dim else if tier = 1 then x.dim else 4 + x.dim / 2
/-- Address of a row (R407). -/
def EmbTab.row (x : EmbTab) (v tier slot : Nat) : Nat := x.addr v (1 + tier) + slot * x.stride tier

/-- Element `e` of a row as FP32 (R406). -/
def rowElem (x : EmbTab) (tier : Nat) (bs : List Byte) (e : Nat) : W32 :=
  if tier = 0 then toF32 (fp16.decode (leAt bs (2 * e) 2))
  else if tier = 1 then toF32 ((if x.wFmt = 5 then e4m3 else e5m2).decode (leAt bs e 1))
  else
    let q := signedN 4 (leAt bs (4 + e / 2) 1 / (if e % 2 = 0 then 1 else 16))
    toF32 ((FVal.ofInt q).mul (f32 (BitVec.ofNat 32 (leAt bs 0 4))))

/-- The elements of a row. -/
def rowVals (x : EmbTab) (tier : Nat) (bs : List Byte) : List W32 := (List.range x.dim).map (rowElem x tier bs)

/-- A range holds a word that reads as uncorrectable or poisoned (R376, R377). -/
def poisonIn (s : State) (a n : Nat) : Bool :=
  inComp a && (List.range (wordSpan a n)).any fun i =>
    chanAvail s (chanOf s (a / 8 * 8 + 8 * i)).1 && match healthOf s (a / 8 + i) with | .bad => true | .poisoned => true | _ => false

/-- A directory entry as read. -/
structure DirEnt where
  tier : Nat
  chip : Nat
  hot : Bool
  slot : Nat
  hotSlot : Nat
  bad : Bool
  deriving DecidableEq, Repr

/-- Read a directory entry: one aligned 8-byte word; an unreadable one is taken as ABSENT (R407, R410). -/
def dirRead (ag : Agent) (x : EmbTab) (v row : Nat) (s : State) : DirEnt × State :=
  let a := x.addr v 0 + 8 * row
  let bad := poisonIn s a 8
  let (bs, s) := busRead ag a 8 s
  let w := leNat bs
  (⟨if bad then 3 else fieldN w 0 2, fieldN w 2 4, w.testBit 6, fieldN w 8 32, fieldN w 40 16, bad⟩, s)

/-- The issuer of the engine's accesses for a piece of work (R489). -/
def EmbJob.agent (j : EmbJob) : Agent :=
  if j.served.isSome then .chain else if h : j.part < 8 then .part ⟨j.part, h⟩ else .chain

/-- A range lies within the regions of the partitions that may look the table up (R431). -/
def inTabRegions (s : State) (x : EmbTab) (a n : Nat) : Bool :=
  covered ((bitsOf 8 x.partMask).flatMap (partRegions s)) 280 a (a + n)

/-! ### Counts (R408, R417 to R419, R422) -/

/-- Requests and sub-requests that use slot v of table t, and the requests in flight. -/
def embSync (t v : Nat) (s : State) : State :=
  let n := (s.emb.jobs.filter fun j => j.table = t ∧ j.vslot = v ∧ !j.refused).length
  let s := if t < 256 ∧ v < 4 then s.wrN (Reg.embTabDrain0 t + 4 * v) (min n 0xFFFF) else s
  s.putF Reg.embStatus 8 8 (s.emb.jobs.filter fun j => j.served.isNone).length

/-- Add a piece of work, or replace it at its place: the list stands in the order in which the work was accepted. -/
def putJob (j : EmbJob) (s : State) : State :=
  let old := s.emb.jobs.any fun i => i.id == j.id
  let jobs := if old then s.emb.jobs.map fun i => if i.id = j.id then j else i else s.emb.jobs ++ [j]
  embSync j.table j.vslot { s with emb := { s.emb with jobs := jobs } }

/-- A piece of work has ended; a fence that waited for nothing else clears (R422). -/
def dropJob (j : EmbJob) (s : State) : State :=
  let fence := s.emb.fence.filter fun i => i ≠ j.id
  let s := { s with emb := { s.emb with jobs := s.emb.jobs.filter (fun i => i.id ≠ j.id), fence := fence } }
  let s := if fence.isEmpty then s.putB Reg.embStatus 0 false else s
  embSync j.table j.vslot s

/-- Count in one of the tables of the load window. -/
def windowCount (c : Tab Nat) (t n : Nat) : Tab Nat := Tab.set (fun _ => 0) c t (min (Tab.get (fun _ => 0) c t + n) 0xFFFFFFFF)

/-- Push a sample for every 2^k rows served (R419); a sample queue that the engine does not produce for is outside contract
(R430). -/
def sampleRow (t tier chip row : Nat) (s : State) : State :=
  let k := s.fld Reg.embCfg 16 8
  let n := s.emb.sampled + 1
  if k < 32 ∧ 2 ^ k ≤ n then
    let s := { s with emb := { s.emb with sampled := 0 } }
    if s.emb.sampleQ = 0xFFFF then s
    else if qProd s s.emb.sampleQ ≠ 3 then s.leave 430
    else
      match engCommit s.emb.sampleQ (natLe 8 (row + 2 ^ 32 * t + 2 ^ 40 * tier + 2 ^ 42 * chip)) s with
      | (true, s) => s
      | (false, s) => s.sat Reg.embSampleDrops
  else { s with emb := { s.emb with sampled := n } }

/-- One row has been served: load counts and samples (R418, R419). -/
def countServed (j : EmbJob) (row tier : Nat) (s : State) : State :=
  let s := if j.served.isSome then { s with emb := { s.emb with remote := windowCount s.emb.remote j.table 1 } }
    else { s with emb := { s.emb with load := windowCount s.emb.load j.table 1 } }
  sampleRow j.table tier (match j.served with | some (c, _) => c | none => s.warp.chip) row s

/-- Set the touched bit of a row (R424). -/
def touchRow (ag : Agent) (x : EmbTab) (row : Nat) (s : State) : State :=
  if x.touch = 0 then s
  else
    let (bs, s) := busRead ag (x.touch + row / 8) 1 s
    engWrite [] ag (x.touch + row / 8) (natLe 1 ((leNat bs).lor (2 ^ (row % 8)))) s

/-! ### Serving one row (R411, R415, R425) -/

/-- Address and length of the gradient row of a row of tier H or W (R425). -/
def gradRow (x : EmbTab) (v tier slot : Nat) : Nat × Nat :=
  (((x.row v tier slot : Int) + signedN 64 (x.addr v (5 + tier))).toNat, (if tier = 0 then 2 else 1) * x.dim)

/-- Apply the gradient g with a weight to the gradient row of a row: an FP32 fma, then the rounding to the row's format
(R425). -/
def applyGrad (ag : Agent) (x : EmbTab) (v tier slot : Nat) (w : W32) (g : List W32) (s : State) : State :=
  let f := if tier = 0 then fp16 else if x.wFmt = 5 then e4m3 else e5m2
  let sz := if tier = 0 then 2 else 1
  let (a, n) := gradRow x v tier slot
  let (bs, s) := busRead ag a n s
  let new := (List.range x.dim).flatMap fun e =>
    natLe sz (f.round 0 true (f32 (toF32 (((f32 w).mul (f32 (g.getD e 0))).add 0 (f.decode (leAt bs (sz * e) sz)))))).1
  engWrite [] ag a new s

/-- Serve one row on this chip from its pool: a value, or the gradient's update. -/
def serveRow (x : EmbTab) (j : EmbJob) (t : EmbTerm) (s : State) : EmbTerm × Bool × State :=
  if t.tier = 3 then ({ t with st := .none }, false, s)
  else
    let ag := j.agent
    match j.grad with
    | some g =>
      if t.tier = 2 then ({ t with st := .none }, false, s)
      else
        let s := applyGrad ag x j.vslot t.tier t.slot t.weight g s
        ({ t with st := .none }, false, touchRow ag x t.row (countServed j t.row t.tier s))
    | none =>
      let a := x.row j.vslot t.tier t.slot
      let bad := poisonIn s a (x.rowSize t.tier)
      let (bs, s) := busRead ag a (x.rowSize t.tier) s
      ({ t with st := .val (rowVals x t.tier bs) }, bad, touchRow ag x t.row (countServed j t.row t.tier s))

/-! ### The accesses of a piece of work (R399, R491) -/

/-- Rows that serving a row reads or updates, each as address and length. -/
def serveRanges (x : EmbTab) (v tier slot row : Nat) (grad : Bool) : List (Nat × Nat) :=
  let touch := if x.touch = 0 then [] else [(x.touch + row / 8, 1)]
  if tier = 3 then []
  else if grad then (if tier = 2 then [] else gradRow x v tier slot :: touch)
  else (x.row v tier slot, x.rowSize tier) :: touch

/-- The ring that a sample may be written to. -/
def sampleRange (s : State) : EngRanges :=
  if s.fld Reg.embCfg 16 8 < 32 ∧ s.emb.sampleQ ≠ 0xFFFF then ringRange s s.emb.sampleQ else []

/-- Bytes of a SUB message (R454). -/
def subSize (m : SubMsg) : Nat := 32 + 16 * m.recs.length + (match m.grad with | some g => 4 * g.length | none => 0)

/-- The SUB message of a piece of work to another chip. -/
def subMsg (s : State) (j : EmbJob) (num dst hops : Nat) (recs : List SubRec) : SubMsg where
  dst := BitVec.ofNat 4 dst
  chip := BitVec.ofNat 4 s.warp.chip
  req := BitVec.ofNat 16 num
  table := BitVec.ofNat 8 j.table
  vslot := ⟨j.vslot % 4, Nat.mod_lt _ (by decide)⟩
  hops := hops
  dim := j.dim
  grad := j.grad
  recs := recs

/-- Send a SUB, charged to the partition of the request queue and counted in LOAD_SENT where it is for a request of this
chip (R414, R418, R453). -/
def sendSub (j : EmbJob) (num dst hops : Nat) (recs : List SubRec) (s : State) : Bool × State :=
  let m := subMsg s j num dst hops recs
  match sendTo dst 1 (subSize m) (.sub dst m) (if j.served.isSome then none else some j.part) s with
  | (true, s) =>
    (true, if j.served.isSome then s
      else { s with emb := { s.emb with sent := windowCount s.emb.sent j.table recs.length } })
  | (false, s) => (false, s)

/-- Take a number for a request or a forwarded sub-request. -/
def takeNum (s : State) : Nat × State :=
  (s.emb.nextId, { s with emb := { s.emb with nextId := (s.emb.nextId + 1) % 65536 } })

/-- The redirect of a row (R420, R421). -/
def redirectOf (s : State) (t v row : Nat) : Option Redirect :=
  s.emb.redirects.find? fun r => r.table = t ∧ r.vslot = v ∧ r.row = row

/-- A move of the row runs (R420). -/
def rowMoving (s : State) (t v row : Nat) : Bool :=
  match s.emb.move with
  | some m => m.table = t ∧ m.vslot = v ∧ m.row = row
  | none => false

/-- A piece of work waits for nothing more from other chips; of a LOOKUP also for no row in a move (R414, R426, log entry 59). -/
def EmbJob.giveUp (j : EmbJob) : EmbJob :=
  { j with
    waitFor := []
    terms := j.terms.map fun t => match t.st with
      | .fwd _ => { t with st := .none }
      | .moving => if j.grad.isSome then t else { t with st := .none }
      | _ => t }

/-- Send one row of a piece of work on to the chip that now holds it, with the hop count one higher; above 2 it is not
sent (R421). A gradient keeps its weight; a value is asked for with weight 1, and weighted at its own place in this chip's
partial (R411). A row forwarded under a redirect, as `hit` says, counts (R421); a redirect to this chip itself, left by a
move within the chip, serves the row here. -/
def forwardTerm (x : EmbTab) (hit : Bool) (j : EmbJob) (t : EmbTerm) (chip slot : Nat) (s : State) : EmbTerm × EmbJob × State :=
  let counted (s : State) : State := if hit then s.sat Reg.embRedirHits else s
  if 2 < j.hops + 1 then ({ t with st := .none }, { j with hopsOver := true }, s)
  else if chip = s.warp.chip then
    let (t, bad, s) := serveRow x j { t with slot := slot } (counted s)
    (t, { j with poisoned := j.poisoned || bad, here := j.here + 1 }, s)
  else
    let (num, s) := takeNum s
    let w : W32 := if j.grad.isSome then t.weight else 0x3F800000
    match sendSub j num chip (j.hops + 1) [⟨BitVec.ofNat 32 t.row, BitVec.ofNat 32 slot, BitVec.ofNat 2 t.tier, w⟩] s with
    | (true, s) => ({ t with st := .fwd num }, j, counted s)
    | (false, s) => ({ t with st := .none }, { j with remoteFail := true }, if j.served.isNone then s.putB Reg.embStatus 2 true else s)

/-! ### Pooling and completion (R411 to R413) -/

/-- Element `e` of this chip's partial: the terms in request order, one rounding each (R411). -/
def partialElem (terms : List EmbTerm) (e : Nat) : W32 :=
  terms.foldl (fun p t =>
    match t.st with
    | .val vs => toF32 (((f32 t.weight).mul (f32 (vs.getD e 0))).add 0 (f32 p))
    | _ => p) 0

/-- This chip's partial. -/
def partialOf (j : EmbJob) : List W32 := (List.range j.dim).map (partialElem j.terms)

/-- The pooled vector: the partials in ascending chip number (R411), or NaN (R413). -/
def pooled (own : Nat) (j : EmbJob) : List W32 :=
  if j.remoteFail || j.hopsOver || j.supply then List.replicate j.dim 0x7FC00000
  else
    let ps := Tab.set (fun _ => []) j.partials own (if j.terms.isEmpty then [] else partialOf j)
    (List.range j.dim).map fun e =>
      ps.foldl (fun r p => toF32 ((f32 r).add 0 (f32 (p.2.getD e 0)))) 0

/-- Every part of the work has come, or it is refused or abandoned. -/
def EmbJob.ready (j : EmbJob) : Bool :=
  j.refused || j.supply
    || (j.waitFor.isEmpty && j.terms.all fun t => match t.st with | .val _ => true | .none => true | _ => false)

/-- A piece of work as it goes on: one that has failed waits for nothing more from other chips. -/
def EmbJob.settle (j : EmbJob) : EmbJob := if j.remoteFail then j.giveUp else j

/-- A sub-request that is ready returns its partial (R414); one that could not be served to its end is left to the
requester's timeout. -/
def finishServed (j : EmbJob) (s : State) : State :=
  match j.served with
  | none => putJob j.settle s
  | some (c, req) =>
    if j.remoteFail ∧ j.settle.ready then dropJob j s
    else if !j.ready then putJob j.settle s
    else
      let vals := if j.grad.isSome || j.hopsOver then [] else partialOf j
      let st : Fin 3 := if j.hopsOver then 2 else if j.poisoned then 1 else 0
      let m : PartMsg := ⟨BitVec.ofNat 4 c, BitVec.ofNat 4 c, BitVec.ofNat 4 s.warp.chip, BitVec.ofNat 16 req, st, vals⟩
      dropJob j (sendTo c 2 (32 + 4 * vals.length) (.part c m) none s).2

/-- Completion element (R412). -/
def completion (j : EmbJob) : List Byte :=
  let b (v : Bool) (n : Nat) : Nat := if v then 2 ^ n else 0
  let flags := b j.refused 0 + b (j.absent ≠ 0) 1 + b j.poisoned 2 + b j.remoteFail 3 + b j.hopsOver 4 + b j.supply 5 + b j.nSkipped 6
  natLe 8 j.tag.toNat ++ natLe 2 flags ++ natLe 1 j.vslot ++ [0] ++ natLe 2 j.here ++ natLe 2 j.elsewhere
    ++ natLe 2 j.hot ++ natLe 2 j.absent ++ zeros 12

/-- EMB_REQUEST_COMPLETE (R412, R413): the result is written, then the completion element committed. -/
def execEmbRequestComplete (r : BitVec 16) (s : State) : Res State :=
  match s.emb.jobs.find? (fun j => j.id = r.toNat ∧ j.served = none) with
  | none => .next s
  | some j =>
    if !s.cclk || !j.ready then .next s
    else
      let result := if j.refused || j.grad.isSome then [] else (pooled s.warp.chip j).flatMap fun w => natLe 4 w.toNat
      let reply := j.replyQ ≠ 0xFFFF ∧ j.replyQ < 1024 ∧ (queuePart s j.replyQ).isSome
      engAccess s ((j.agent, j.out, result.length) :: if reply then commitRange s j.replyQ else []) fun s =>
        let s := if result.isEmpty then s else engWrite [] j.agent j.out result s
        let s := if j.replyQ = 0xFFFF then s
          else if ¬ reply then s.putB Reg.embStatus 3 true
          else match engCommit j.replyQ (completion j) s with
            | (true, s) => s
            | (false, s) => s.putB Reg.embStatus 3 true
        .next (dropJob j s)

/-! ### Requests (R408 to R410, R414, R415, R425, R431) -/

/-- What is built up while the indices of a request are gone through. -/
structure EmbAcc where
  job : EmbJob
  /-- rows of other chips, in request order -/
  others : List (Nat × SubRec)
  /-- a row of the hot area lies outside the regions (R431) -/
  outside : Bool
  s : State
  deriving DecidableEq, Repr

/-- One index of a request (R410, R411, R415, R420, R425). -/
def takeIndex (x : EmbTab) (noHot : Bool) (acc : EmbAcc) (r : Nat × W32) : EmbAcc :=
  let j := acc.job
  let absent (a : EmbAcc) : EmbAcc :=
    { a with job := { a.job with absent := a.job.absent + 1 }, s := a.s.sat (Reg.embTabAbsent j.table) }
  if x.rows ≤ r.1 then absent acc
  else
    let (d, s) := dirRead j.agent x j.vslot r.1 acc.s
    let acc := { acc with s := s, job := { j with poisoned := j.poisoned || d.bad } }
    let j := acc.job
    let t : EmbTerm := ⟨r.1, d.slot, d.tier, r.2, .none⟩
    if d.tier = 3 then absent acc
    else if j.grad.isSome && d.tier == 2 then { acc with job := { j with nSkipped := true } }
    else if j.grad.isNone && d.hot && !noHot then
      let a := x.addr j.vslot 4 + d.hotSlot * x.hStride
      let n := x.rowSize 0
      let bad := poisonIn s a n
      let (bs, s) := busRead j.agent a n s
      let s := countServed j r.1 d.tier s
      { acc with
        s := s
        outside := acc.outside || !inTabRegions s x a n
        job := { j with terms := j.terms ++ [{ t with st := .val (rowVals x 0 bs) }], hot := j.hot + 1, poisoned := j.poisoned || bad } }
    else if d.chip = s.warp.chip then
      if rowMoving s j.table j.vslot r.1 then { acc with job := { j with terms := j.terms ++ [{ t with st := .moving }] } }
      else
        let (t, bad, s) := serveRow x j t s
        { acc with s := s, job := { j with terms := j.terms ++ [t], here := j.here + 1, poisoned := j.poisoned || bad } }
    else { acc with others := acc.others ++ [(d.chip, ⟨BitVec.ofNat 32 r.1, BitVec.ofNat 32 d.slot, BitVec.ofNat 2 d.tier, r.2⟩)] }

/-- Send the sub-request to one chip of a request; without a route the request ends with remote_fail (R414, R454). -/
def askChip (others : List (Nat × SubRec)) (x : EmbJob × State) (c : Nat) : EmbJob × State :=
  let recs := (others.filter fun r => r.1 = c).map Prod.snd
  if recs.isEmpty then x
  else
    let (j, s) := x
    match sendSub j j.id c 0 recs s with
    | (true, s) => ({ j with waitFor := j.waitFor ++ [(c, recs.length)] }, s)
    | (false, s) => ({ j with remoteFail := true }, s.putB Reg.embStatus 2 true)

/-- The request of an element, before its indices are gone through. -/
def newJob (s : State) (id part vslot dim : Nat) (e : List Byte) : EmbJob where
  id := id
  served := none
  table := leAt e 0 2
  vslot := vslot
  dim := dim
  hops := 0
  grad := none
  replyQ := leAt e 4 2
  out := leAt e 8 8
  tag := BitVec.ofNat 64 (leAt e 0x10 8)
  part := part
  terms := []
  waitFor := []
  partials := []
  refused := false
  remoteFail := false
  poisoned := false
  hopsOver := false
  nSkipped := false
  supply := !s.pins.pfN
  here := 0
  elsewhere := 0
  hot := 0
  absent := 0

/-- The index records of an element. -/
def indexRecs (e : List Byte) (n : Nat) : List (Nat × W32) :=
  (List.range n).map fun i => (leAt e (0x40 + 8 * i) 4, BitVec.ofNat 32 (leAt e (0x44 + 8 * i) 4))

/-- A request of queue q of partition p for table x is refused (R409). -/
def badRequest (s : State) (x : EmbTab) (q p : Nat) (e : List Byte) : Bool :=
  let n := leAt e 2 2
  !x.partMask.testBit p || n == 0 || decide (256 < n) || decide (qEsize s q < 64 + 8 * n) || decide (2 ≤ leAt e 6 1 % 4)

/-- What going through one index reads or updates on this chip: its directory entry and, where this chip serves it, its
row. -/
def indexRanges (s : State) (ag : Agent) (x : EmbTab) (t v : Nat) (grad noHot : Bool) (r : Nat) : List (Nat × Nat) :=
  if x.rows ≤ r then []
  else
    let d := (dirRead ag x v r s).1
    (x.addr v 0 + 8 * r, 8) ::
      (if d.tier = 3 then []
      else if d.hot && !noHot && !grad then [(x.addr v 4 + d.hotSlot * x.hStride, x.rowSize 0)]
      else if d.chip = s.warp.chip && !rowMoving s t v r then serveRanges x v d.tier d.slot r grad else [])

/-- The accesses that accepting a request makes. -/
def requestRanges (s : State) (q p : Nat) (e : List Byte) : EngRanges :=
  match embTab s (leAt e 0 2) with
  | none => []
  | some x =>
    if badRequest s x q p e then []
    else
      let t := leAt e 0 2
      let fl := leAt e 6 1
      let ag : Agent := if h : p < 8 then .part ⟨p, h⟩ else .chain
      let rs := (indexRecs e (leAt e 2 2)).flatMap fun r =>
        indexRanges s ag x t (s.fld (Reg.embTabCur t) 0 2) (fl % 4 == 1) (fl.testBit 2) r.1
      (rs.map fun r => (ag, r.1, r.2)) ++ sampleRange s

/-- Accept the request of an element of queue q of partition p; the element has been released (R408, R409). -/
def acceptRequest (q p : Nat) (e : List Byte) (s : State) : Res State :=
  let (id, s) := takeNum s
  let tn := leAt e 0 2
  let n := leAt e 2 2
  let fl := leAt e 6 1
  match embTab s tn with
  | none => .next ((putJob { newJob s id p 0 0 e with refused := true } s).putB Reg.embStatus 1 true)
  | some x =>
    let cur := s.fld (Reg.embTabCur tn) 0 2
    let j := newJob s id p cur x.dim e
    if badRequest s x q p e then .next ((putJob { j with refused := true } s).putB Reg.embStatus 1 true)
    else if !inOnDie j.out || !inRegions s p j.out (4 * x.dim) then oc 431
    else if x.touch ≠ 0 ∧ !inTabRegions s x x.touch ((x.rows + 7) / 8) then oc 431
    else
      let (gs, s) := if fl % 4 = 1 then busRead j.agent j.out (4 * x.dim) s else ([], s)
      let g := (List.range x.dim).map fun i => BitVec.ofNat 32 (leAt gs (4 * i) 4)
      let j := if fl % 4 = 1 then { j with grad := some g } else j
      let acc := (indexRecs e n).foldl (takeIndex x (fl.testBit 2)) ⟨j, [], false, s⟩
      if acc.outside then oc 431
      else
        let (j, s) := (List.range 16).foldl (askChip acc.others) (acc.job, acc.s)
        .next (putJob j.settle s)

/-- The position of the request queue whose element is taken next (R408). -/
def nextReq (s : State) : Option Nat :=
  ((List.range 8).map fun i => (s.emb.turn + i) % 8).find? fun i =>
    let q := s.emb.reqQ.getD i 0xFFFF
    q < 1024 && (qPeek s q).isSome && (match queuePart s q with | some p => ptEnabled s p | none => false)

/-- Take the element at the head of request queue number i, when it is its turn and its kind is LOOKUP, or GRAD, as
`grad` says; fewer than 64 requests are in flight and PF_N is high (R408, R426). -/
def takeRequest (i : Nat) (grad : Bool) (s : State) : Res State :=
  let q := s.emb.reqQ.getD i 0xFFFF
  if !s.cclk || !s.pins.pfN || nextReq s != some i || s.fld Reg.embStatus 8 8 == 64 then .next s
  else if qCons s q ≠ 3 ∨ qEsize s q < 72 then oc 430
  else
    match qPeek s q, queuePart s q with
    | some e, some p =>
      if (leAt e 6 1 % 4 = 1) ≠ (grad = true) then .next s
      else engAccess s (takeRange s q ++ requestRanges s q p e) fun s =>
        acceptRequest q p e (qTake q { s with emb := { s.emb with turn := (i + 1) % 8 } })
    | _, _ => .next s

/-- EMB_LOOKUP (R408 to R415): the element at the head of a request queue, of any kind but GRAD. -/
def execEmbLookup (i : Fin 8) (s : State) : Res State := takeRequest i false s

/-- EMB_GRAD (R408 to R410, R425). -/
def execEmbGrad (i : Fin 8) (s : State) : Res State := takeRequest i true s

/-! ### Sub-requests and partials (R414, R421, R423) -/

/-- One row of a sub-request: under a redirect it is forwarded; a row being moved waits; a row that this chip's directory
gives to another chip is served from there; a row that it does not hold, or whose entry is ABSENT or unreadable, adds
nothing (R410); any other is served from this chip's pools. -/
def takeSubRec (x : EmbTab) (acc : EmbJob × State) (r : SubRec) : EmbJob × State :=
  let (j, s) := acc
  let t : EmbTerm := ⟨r.row.toNat, r.slot.toNat, r.tier.toNat, r.weight, .none⟩
  match redirectOf s j.table j.vslot t.row with
  | some d =>
    let (t, j, s) := forwardTerm x true j t d.chip d.slot s
    ({ j with terms := j.terms ++ [t] }, s)
  | none =>
    if rowMoving s j.table j.vslot t.row then ({ j with terms := j.terms ++ [{ t with st := .moving }] }, s)
    else if x.rows ≤ t.row then
      ({ j with terms := j.terms ++ [t], absent := j.absent + 1 }, s.sat (Reg.embTabAbsent j.table))
    else
      let (d, s) := dirRead .chain x j.vslot t.row s
      if d.tier = 3 then
        ({ j with terms := j.terms ++ [t], absent := j.absent + 1, poisoned := j.poisoned || d.bad },
          s.sat (Reg.embTabAbsent j.table))
      else if d.chip ≠ s.warp.chip then
        let (t, j, s) := forwardTerm x false j { t with tier := d.tier } d.chip d.slot s
        ({ j with terms := j.terms ++ [t] }, s)
      else
        let (t, bad, s) := serveRow x j t s
        ({ j with terms := j.terms ++ [t], poisoned := j.poisoned || bad }, s)

/-- What one row of a sub-request reads or updates on this chip. -/
def subRanges (s : State) (x : EmbTab) (m : SubMsg) (r : SubRec) : List (Nat × Nat) :=
  let t := m.table.toNat
  let row := r.row.toNat
  let serve (tier slot : Nat) : List (Nat × Nat) := serveRanges x m.vslot tier slot row m.grad.isSome
  match redirectOf s t m.vslot row with
  | some d => if d.chip = s.warp.chip then serve r.tier.toNat d.slot else []
  | none =>
    if rowMoving s t m.vslot row || decide (x.rows ≤ row) then []
    else
      let d := (dirRead .chain x m.vslot row s).1
      (x.addr m.vslot 0 + 8 * row, 8) ::
        (if d.tier = 3 || d.chip ≠ s.warp.chip then [] else serve r.tier.toNat r.slot.toNat)

/-- EMB_SUB (R411, R414, R421, R423): a sub-request arrives; one for another chip goes on by its route (R443). -/
def execEmbSub (m : SubMsg) (s : State) : Res State :=
  if m.dst.toNat ≠ s.warp.chip then onlyIf s.tclk (fun s => msgTakenAny 1 (forwardTo m.dst.toNat 1 (subSize m) (.sub m.dst.toNat m) s)) s
  else if !s.cclk then .next s
  else
    match embTab s m.table.toNat with
    | none => oc 429
    | some x =>
      if m.dim ≠ x.dim then oc 429
      else if x.touch ≠ 0 ∧ !inTabRegions s x x.touch ((x.rows + 7) / 8) then oc 431
      else
        engAccess s (((m.recs.flatMap (subRanges s x m)).map fun r => (Agent.chain, r.1, r.2)) ++ sampleRange s) fun s =>
          let (id, s) := takeNum s
          let j : EmbJob := { newJob s id 8 m.vslot x.dim [] with
            served := some (m.chip.toNat, m.req.toNat), table := m.table.toNat, hops := m.hops, grad := m.grad, supply := false }
          let (j, s) := m.recs.foldl (takeSubRec x) (j, s)
          .next (msgTakenAny 1 (finishServed j s))

/-- What a returned partial adds to a piece of work that waits for it: a whole partial, or one forwarded row. -/
def takePart (m : PartMsg) (j : EmbJob) : Option EmbJob :=
  let flags (j : EmbJob) : EmbJob := { j with poisoned := j.poisoned || m.status == 1, hopsOver := j.hopsOver || m.status == 2 }
  let src := m.src.toNat
  if j.served = none ∧ j.id = m.req.toNat then
    match j.waitFor.find? (fun c => c.1 = src) with
    | none => none
    | some (_, n) => some (flags { j with
        waitFor := j.waitFor.filter (fun c => c.1 ≠ src)
        partials := Tab.set (fun _ => []) j.partials src m.vals
        elsewhere := j.elsewhere + n })
  else if j.terms.any (fun t => t.st = .fwd m.req.toNat) then
    some (flags { j with
      elsewhere := j.elsewhere + 1
      terms := j.terms.map fun t =>
        if t.st = .fwd m.req.toNat then { t with st := if j.grad.isSome then .none else .val m.vals } else t })
  else none

/-- EMB_PART (R411, R414): a partial arrives; one that nothing waits for is discarded. -/
def execEmbPart (m : PartMsg) (s : State) : Res State :=
  if m.dst.toNat ≠ s.warp.chip then
    onlyIf s.tclk (fun s => msgTakenAny 2 (forwardTo m.dst.toNat 2 (32 + 4 * m.vals.length) (.part m.dst.toNat m) s)) s
  else
    onlyIf s.tclk (fun s => msgTakenAny 2
      (match s.emb.jobs.findSome? (takePart m) with | none => s | some j => finishServed j s)) s

/-- EMB_REMOTE_TIMEOUT (R414): a partial of request number r has not returned in time. -/
def execEmbRemoteTimeout (r : BitVec 16) (s : State) : Res State :=
  let waits (j : EmbJob) : Bool :=
    (j.served.isNone && j.id == r.toNat && !j.waitFor.isEmpty) || j.terms.any fun t => t.st = .fwd r.toNat
  match s.emb.jobs.find? waits with
  | none => .next s
  | some j =>
    onlyIf s.cclk (fun s =>
      let s := if j.served.isNone then s.putB Reg.embStatus 2 true else s
      finishServed { j with remoteFail := true } s) s

/-! ### Commands of the registers (R416, R418, R422, R423) -/

/-- EMB_TAB_CUR_WRITE (R416): a slot that slot_valid does not mark is refused. -/
def execEmbTabCurWrite (t : Fin 256) (v : Fin 4) : State → Res State :=
  hostWrite .fabric fun s =>
    if s.bit (Reg.embTabStatus t) v then .next (s.wrN (Reg.embTabCur t) v) else .next (s.putB Reg.embStatus 4 true)

/-- EMB_LOAD_WINDOW_END (R418): the time base has reached a whole millisecond by counting. -/
def execEmbLoadWindowEnd (s : State) : Res State := onlyIf (s.tclk && s.pos.msDue) loadWindowEnd s

/-- EMB_FENCE (R422). -/
def execEmbFence : State → Res State :=
  hostWrite .fabric fun s =>
    let ids := s.emb.jobs.map fun j => j.id
    .next ({ s with emb := { s.emb with fence := ids } }.putB Reg.embStatus 0 (!ids.isEmpty))

/-- CLEAR_REDIRECTS (R423). -/
def execClearRedirects : State → Res State :=
  hostWrite .fabric fun s => .next ({ s with emb := { s.emb with redirects := [] } }.wrN Reg.embRedirUsed 0)

/-! ### Row moves (R420, R454) -/

/-- A move runs: EMB_MOVE_CTRL.go reads 1 (R10, R420). -/
def moveRuns (s : State) : Bool := s.bit Reg.embMoveCtrl 0

/-- A move ends with a result (R420). -/
def moveEnd (code : Nat) (s : State) : State :=
  (({ s with emb := { s.emb with move := none } }.putB Reg.embMoveCtrl 0 false).putF Reg.embMoveStatus 0 4 code).putB
    Reg.embMoveStatus 4 true

/-- Install the redirect of a moved row and name its new place in this chip's directory (R420). -/
def moveInstall (x : EmbTab) (mv : Move) (s : State) : State :=
  let a := x.addr mv.vslot 0 + 8 * mv.row
  let (bs, s) := busRead .host a 8 s
  let w := leNat bs
  let w' := fieldN w 0 2 + 4 * mv.chip + 2 ^ 6 * fieldN w 6 2 + 2 ^ 8 * mv.slot + 2 ^ 40 * fieldN w 40 24
  let s := engWrite [] .host a (natLe 8 w') s
  let rs := s.emb.redirects.filter fun r => ¬ (r.table = mv.table ∧ r.vslot = mv.vslot ∧ r.row = mv.row)
  let rs := rs ++ [⟨mv.table, mv.vslot, mv.row, mv.chip, mv.slot⟩]
  moveEnd 0 (({ s with emb := { s.emb with redirects := rs } }).wrN Reg.embRedirUsed rs.length)

/-- Copy the row of a move and send it to its destination, or store it if that is this chip (R420). -/
def moveCopy (x : EmbTab) (mv : Move) (d : DirEnt) (s : State) : State :=
  let (bs, s) := busRead .host (x.row mv.vslot d.tier d.slot) (x.stride d.tier) s
  let s := { s with emb := { s.emb with moveNum := mv.num } }
  if mv.chip = s.warp.chip then moveInstall x mv (engWrite [] .host (x.row mv.vslot d.tier mv.slot) bs s)
  else
    let m : MoveMsg := ⟨BitVec.ofNat 4 mv.chip, BitVec.ofNat 4 s.warp.chip, BitVec.ofNat 8 mv.table,
      ⟨mv.vslot % 4, Nat.mod_lt _ (by decide)⟩, BitVec.ofNat 32 mv.row, BitVec.ofNat 32 mv.slot, BitVec.ofNat 2 d.tier, mv.num, bs⟩
    match sendTo mv.chip 2 (32 + bs.length) (.move mv.chip m) none s with
    | (false, s) => moveEnd 4 s
    | (true, s) => { s with emb := { s.emb with move := some mv } }

/-- The accesses that a move on this chip makes at its start. -/
def moveRanges (s : State) (x : EmbTab) (mv : Move) (d : DirEnt) : EngRanges :=
  let own := if mv.chip = s.warp.chip then [(Agent.host, x.row mv.vslot d.tier mv.slot, x.stride d.tier)] else []
  (Agent.host, x.addr mv.vslot 0 + 8 * mv.row, 8) :: (Agent.host, x.row mv.vslot d.tier d.slot, x.stride d.tier) :: own

/-- The move that the registers describe begins, once its accesses need not wait (R420, log entry 60). -/
def moveStart (s : State) : State :=
  if !moveRuns s || s.emb.move.isSome then s
  else
    let mv : Move := ⟨s.fld Reg.embMoveTable 0 8, s.fld Reg.embMoveTable 8 2, (s.rd Reg.embMoveRow).toNat, s.fld Reg.embMoveDst 0 4,
      (s.rd Reg.embMoveDstSlot).toNat, s.emb.moveNum + 1⟩
    match embTab s mv.table with
    | none => moveEnd 1 s
    | some x =>
      if x.rows ≤ mv.row then moveEnd 1 s
      else
        let rs := moveRanges s x mv (dirRead .host x mv.vslot mv.row s).1
        if engWaits s rs then engHold rs s
        else
          let (d, s) := dirRead .host x mv.vslot mv.row (engGo rs s)
          if d.tier = 3 ∨ d.chip ≠ s.warp.chip then moveEnd 1 s
          else if 1024 ≤ s.emb.redirects.length then moveEnd 2 s
          else moveCopy x mv d s

/-- EMB_MOVE_GO (R420): a move begins; go reads 1 until it ends. -/
def execEmbMoveGo : State → Res State :=
  hostWrite .fabric fun s =>
    if moveRuns s then .next (s.putF Reg.embMoveStatus 0 4 3) else .next (moveStart (s.putB Reg.embMoveCtrl 0 true))

/-- A row that waited for a move is served through its redirect, or on this chip if the move failed (R420). -/
def resumeTerm (x : EmbTab) (mv : Move) (ok : Bool) (acc : EmbJob × State) (t : EmbTerm) : EmbJob × State :=
  let (j, s) := acc
  if t.st = .moving ∧ t.row = mv.row then
    if ok then
      let (t, j, s) := forwardTerm x true j t mv.chip mv.slot s
      ({ j with terms := j.terms ++ [t] }, s)
    else
      let (t, bad, s) := serveRow x j t s
      ({ j with terms := j.terms ++ [t], poisoned := j.poisoned || bad, here := j.here + 1 }, s)
  else ({ j with terms := j.terms ++ [t] }, s)

/-- The work that waited for a move goes on. -/
def resumeWaiting (mv : Move) (ok : Bool) (s : State) : State :=
  (s.emb.jobs.filter fun j => j.table = mv.table ∧ j.vslot = mv.vslot ∧ j.terms.any fun t => t.st = .moving ∧ t.row = mv.row).foldl
    (fun s j =>
      match embTab s j.table with
      | none => s
      | some x =>
        let (j, s) := j.terms.foldl (resumeTerm x mv ok) ({ j with terms := [] }, s)
        finishServed j s) s

/-- Store the row of a MOVE in the pool of its tier: whether it is refused. -/
def moveStore (m : MoveMsg) (s : State) : Bool × State :=
  match embTab s m.table.toNat with
  | none => (true, s)
  | some x =>
    let a := x.row m.vslot m.tier.toNat m.dstSlot.toNat
    let n := x.stride m.tier.toNat
    if m.tier = 3 then (true, s)
    else (!accessOk s .chain true a n, engWrite [] .chain a (fit n m.body) s)

/-- EMB_MOVE_MESSAGE (R420, R454): a row arrives; it is stored in the pool of its tier and answered. -/
def execEmbMoveMessage (m : MoveMsg) (s : State) : Res State :=
  if m.dst.toNat ≠ s.warp.chip then onlyIf s.tclk (fun s => msgTakenAny 2 (forwardTo m.dst.toNat 2 (32 + m.body.length) (.move m.dst.toNat m) s)) s
  else if !s.cclk then .next s
  else
    let rs : EngRanges := match embTab s m.table.toNat with
      | none => []
      | some x => [(.chain, x.row m.vslot m.tier.toNat m.dstSlot.toNat, x.stride m.tier.toNat)]
    engAccess s rs fun s =>
      let (refused, s) := moveStore m s
      .next (msgTakenAny 2 (sendTo m.src.toNat 2 32 (.moveAck m.src.toNat m.num refused) none s).2)

/-- The accesses of the work that a move held up, once it ends; where it ended well, only those of the directory entry and of
rows that stay on this chip. -/
def resumeRanges (s : State) (mv : Move) (ok : Bool) : EngRanges :=
  match embTab s mv.table with
  | none => []
  | some x =>
    let dir : EngRanges := if ok then [(.host, x.addr mv.vslot 0 + 8 * mv.row, 8)] else []
    let rows : EngRanges := if ok then [] else (s.emb.jobs.filter fun j => j.table = mv.table ∧ j.vslot = mv.vslot).flatMap fun j =>
      (j.terms.filter fun t => t.st = .moving ∧ t.row = mv.row).flatMap fun t =>
        (serveRanges x mv.vslot t.tier t.slot t.row j.grad.isSome).map fun r => (j.agent, r.1, r.2)
    dir ++ rows ++ sampleRange s

/-- MOVE_ACK (R420): the redirect is installed and this chip's directory entry rewritten, or the move has failed. -/
def execMoveAck (dst : BitVec 4) (num : BitVec 32) (refused : Bool) (s : State) : Res State :=
  if dst.toNat ≠ s.warp.chip then onlyIf s.tclk (fun s => msgTakenAny 2 (forwardTo dst.toNat 2 32 (.moveAck dst.toNat num refused) s)) s
  else if !s.cclk then .next s
  else
    match s.emb.move with
    | none => .next (msgTakenAny 2 s)
    | some mv =>
      if mv.num ≠ num then .next (msgTakenAny 2 s)
      else
        engAccess s (resumeRanges s mv (!refused)) fun s =>
          .next (msgTakenAny 2 (if refused then resumeWaiting mv false (moveEnd 4 s)
            else match embTab s mv.table with
              | none => moveEnd 4 s
              | some x => resumeWaiting mv true (moveInstall x mv s)))

/-- EMB_MOVE_TIMEOUT (R420, R454): no MOVE_ACK within 100 µs. -/
def execEmbMoveTimeout (s : State) : Res State :=
  match s.emb.move with
  | none => .next s
  | some mv => onlyIfR s.tclk (fun s => engAccess s (resumeRanges s mv false) fun s => .next (resumeWaiting mv false (moveEnd 4 s))) s

/-! ### Supply holds and drains (R426, R427) -/

/-- The reads and writes of a request have all been performed, or it makes none (R426). -/
def EmbJob.performed (j : EmbJob) : Bool := j.refused || (j.grad.isSome && j.ready)

/-- PF_N has fallen: requests in flight and sub-requests served whose reads or writes have not all been performed are
abandoned (R426). -/
def embHold (s : State) : State :=
  s.emb.jobs.foldl (fun s j =>
    if j.served.isSome then dropJob j s else if j.performed then s
    else putJob { j with supply := true, waitFor := [], terms := j.terms.map fun t => match t.st with
      | .val _ => t
      | _ => { t with st := .none } } s) s

/-- Partition p drains: its requests in flight are abandoned (R427). -/
def embDrain (p : Nat) (s : State) : State :=
  (s.emb.jobs.filter fun j => j.served.isNone ∧ j.part = p).foldl (fun s j => dropJob j s) s

end Sys2Proof.Machine
end

