-- ==== Sys2Proof/Machine/Power.lean ====
section
/-! DEFINITION. Resets, loss of the supplies, BIST, the PCIe link and configuration requests, and supply holds
(02_warp_and_power_up.md, 16_host_management_supply.md, 18_electrical_mechanical.md). -/

namespace Sys2Proof.Machine

/-! ### What a reset leaves (R31, R32) -/

/-- The registers a PERST_N leaves: the SELV block, and the count of holds since COLD_N. -/
def keepRegs (r : Tab W32) : Tab W32 :=
  r.filter fun e => (0x2600000 ≤ e.1 && e.1 < 0x2700000) || e.1 == Reg.mgmtHolds

/-- Everything but the selvedge, the TAP, the pins' input levels and what the model records is as after power-up; the
contents of the trace SRAM are not defined (R540). -/
def fabricClear (s : State) : State :=
  let s := s.loseComp.loseOnDie
  { State.reset with
    pending := s.pending
    powered := s.powered
    pins := { s.pins with trig := 0, ppsOut := false }
    clk := s.clk
    regs := keepRegs s.regs
    memGen := s.memGen
    trace := { State.reset.trace with gen := s.trace.gen + 1 }
    selv := { s.selv with imageSince := false }
    tap := s.tap
    out := s.out
    resp := s.resp
    freeCtr := s.freeCtr
    contract := s.contract.afterReset }

/-- A reset of everything but the selvedge (R32): the partitions leave ENABLED, and STATUS shows 0x0. -/
def fabricReset (s : State) : State :=
  (List.range 8).foldl (fun s n => pairLeave n s) ((fabricClear s).setStage 0)

/-- A reset of the whole part (R31, R32). -/
def coldReset (s : State) : State :=
  let s := fabricClear s
  { s with regs := [], selv := { State.reset.selv with running := false } }.setStage 0

/-- From the rising edge of PERST_N (R34): BIST runs. A loss of SYSCLK that persists is detected again (R67). -/
def boot (s : State) : State :=
  let s := s.setStage 1
  if s.clk == .running then s else clockLost s

/-! ### Commands: resets (R32, R34, R508, R557, R569) -/

/-- COLD_N_ASSERT (R32, R469, R557, R577). It also ends a freeze. -/
def execColdNAssert (s : State) : Res State :=
  onlyIf s.pins.coldN (fun s =>
    let s := coldReset s
    { s with pins := { s.pins with coldN := false, safeN := .hiZ, safeHb := false } }) s

/-- COLD_N_RELEASE (R569): the selvedge starts, with cause POWER_UP. -/
def execColdNRelease (s : State) : Res State :=
  onlyIf (!s.pins.coldN) (fun s =>
    let s := { s with powered := true, selv := State.reset.selv, pins := { s.pins with coldN := true, safeN := .low } }
    if s.pins.perstN then boot s else s) s

/-- PERST_N_ASSERT (R32): the selvedge decides FABRIC_RESET. A frozen part ignores it (R557). -/
def execPerstNAssert (s : State) : Res State :=
  onlyIf s.pins.perstN (fun s =>
    let up := s.up
    let s := { s with pins := { s.pins with perstN := false } }
    if up then selvEvent 0x02 0 [] (fabricReset s) else s) s

/-- PERST_N_RELEASE (R34, R519): the straps are sampled and BIST starts. -/
def execPerstNRelease (strap : BitVec 3) (s : State) : Res State :=
  onlyIf (!s.pins.perstN) (fun s =>
    if s.frz.frozen then { s with pins := { s.pins with perstN := true } }
    else
      let s := { s with pins := { s.pins with perstN := true, addr := strap } }
      if s.up then boot s else s) s

/-- PCIE_HOT_RESET (R508): as an assertion of PERST_N, and as after its rise when the reset ends. -/
def execPcieHotReset (s : State) : Res State :=
  onlyIf s.up (fun s => boot (selvEvent 0x02 0 [] (fabricReset s))) s

/-- SUPPLY_LOSS (R26, R29): everything the lost rails held is gone; the TAP is reset when VMEM returns (R559). Without VSAF
the selvedge stops too, SAFE_N is high-impedance and SAFE_HB stops (R469, R470). While VSAF stays valid the selvedge goes on with
its latch, SAFE_N and the SAFETY section, and decides no cause for the loss itself: the spec names none (log entry 70, DESIGN
CHOICE). -/
def execSupplyLoss (selvedge : Bool) (s : State) : Res State :=
  let tap := State.reset.tap
  if selvedge then
    let s := coldReset s
    .next { s with powered := false, tap := tap, pins := { s.pins with safeN := .hiZ, safeHb := false } }
  else .next { fabricReset s with powered := false, tap := tap }

/-! ### Commands: power-up (R34 to R37, R153, R279 to R281) -/

/-- I2C_TARGET_READY (R34). -/
def execI2cTargetReady (s : State) : Res State :=
  onlyIf s.up (fun s => { s with i2c := { s.i2c with ready := true } }.putB Reg.globalPwrupStatus 4 true) s

/-- Working spares. -/
def bistSpares (b : BistArray) : Nat := 2 - b.failedSpares.val
/-- A spare replaces the checksum column. -/
def bistCkSpared (b : BistArray) : Bool := b.ckCol && decide (0 < bistSpares b)
/-- Functional columns that a spare replaces (R279). -/
def bistReplaced (b : BistArray) : Nat := min b.failedCols.val (bistSpares b - (if (bistCkSpared b) then 1 else 0))
/-- Columns replaced by spares. -/
def bistUsed (b : BistArray) : Nat := bistReplaced b + (if (bistCkSpared b) then 1 else 0)
/-- Presented columns (R280). -/
def bistWidth (b : BistArray) : Nat := 128 - (b.failedCols.val - bistReplaced b)
/-- The array is narrowed. -/
def bistNarrowed (b : BistArray) : Bool := decide (bistWidth b < 128)
/-- The core of the array fails (R280). -/
def bistFails (b : BistArray) : Bool := decide (bistWidth b < 112) || b.rowFailed

/-- Report one array in ARRAY_WIDTHa and ARRAY_BISTa. -/
def reportArray (b : BistArray) (s : State) : State :=
  let w := bistWidth b + 2 ^ 8 * bistUsed b + 2 ^ 10 * (if (bistNarrowed b) then 1 else 0)
  let r := b.failedCols.val % 256 + 2 ^ 8 * b.failedSpares.val + 2 ^ 10 * (if (bistCkSpared b) then 1 else 0)
    + 2 ^ 11 * (if b.ckCol && !(bistCkSpared b) then 1 else 0) + 2 ^ 12 * (if b.ckRow then 1 else 0)
  (s.wrN (Reg.arrayWidth0 b.core + 0x10 * b.arr) w).wrN (Reg.arrayBist0 b.core + 4 * b.arr) r

/-- The cores that failed (R153, R280). -/
def failedCores (r : BistResult) : Nat :=
  let l := r.bankFail.map Fin.val ++ (r.arrays.filter bistFails).map fun b => b.core.val
  l.foldl (fun (m k : Nat) => m.lor (2 ^ k)) r.coreFail.toNat

/-- The whole arrays' width, 128, in every ARRAY_WIDTHa. -/
def wholeArrays (s : State) : State :=
  (List.range 128).foldl (fun s i => s.wrN (Reg.arrayWidth0 (i / 4) + 0x10 * (i % 4)) 128) s

/-- The results of BIST in the registers (R37, R397). -/
def bistReport (r : BistResult) (s : State) : State :=
  let spares := (r.arrays.map bistUsed).sum
  let narrow := (r.arrays.filter bistNarrowed).length
  let s := r.arrays.foldl (fun s b => reportArray b s) (wholeArrays s)
  let s := s.wrN Reg.globalBistStatus
    (1 + (if r.fatal then 2 else 0) + 2 ^ 2 * min spares 255 + 2 ^ 10 * min narrow 255 + 2 ^ 18 * min r.bankFail.length 255)
  let s := (s.wr Reg.globalCoreAvail (~~~(BitVec.ofNat 32 (failedCores r)))).wrQ Reg.globalChAvail 2 (~~~r.chFail).toNat
  let s := (bitsOf 48 r.chFail.toNat).foldl (fun s c => s.putF (Reg.memStatus c) 0 2 3) s
  let s := s.putF Reg.mgmtTemp 0 8 r.dieTemp.toNat
  let s := (List.range 12).foldl (fun s d =>
    let t := (r.memTemp.getD d 0).toNat
    (List.range 4).foldl (fun s i => s.putF (Reg.memTemp (4 * d + i)) 0 8 t) (s.putF (Reg.mgmtTempMd (d / 4)) (8 * (d % 4)) 8 t)) s
  memHottest s

/-- BIST_COMPLETE (R34 to R37). A hold stops BIST (R537). -/
def execBistComplete (r : BistResult) (s : State) : Res State :=
  onlyIf (s.tclk && !s.inHold && !s.bistDone) (fun s =>
    let s := bistReport r s
    { s with host := { s.host with bistDone := true } }.setStage (if r.fatal then 8 else 2)) s

/-! ### Commands: the PCIe endpoint (R34, R506 to R508) -/

/-- PCIE_LINK_UP (R34): training ends. -/
def execPcieLinkUp (width : BitVec 5) (speed : BitVec 3) (s : State) : Res State :=
  onlyIf s.up (fun s =>
    { s with host := { s.host with linkUp := true } }.wrN Reg.hostLink (1 + 2 * width.toNat + 2 ^ 6 * speed.toNat)) s

/-- What a configuration request changes. -/
def cfgApply (r : CfgReq) (h : HostSt) : HostSt :=
  match r with
  | .read => h
  | .busMaster b => { h with busMaster := b }
  | .msixEnable b => { h with msixEn := b }
  | .power b => { h with d3hot := b }
  | .msixMask b => { h with fnMask := b }
  | .aerClear => { h with aerPoison := false }

/-- CONFIGURATION_REQUEST (R34, R506 to R508, R517): retry status until BIST completes. -/
def execConfigurationRequest (r : CfgReq) (s : State) : Res State :=
  if !s.up then .next (s.answer .unanswered)
  else if !s.bistDone then .next (s.answer .retry)
  else .next ({ s with host := cfgApply r s.host }.answer .configDone)

/-! ### Supply holds: the selvedge (R478, R499) -/

/-- The selvedge sees PF_N fall. -/
def selvFall (s : State) : State :=
  if s.selvUp && !s.bit Reg.selvStatus 1 then
    let s := s.putB Reg.selvStatus 1 true
    telegram true (armMonitors ((pairNums s).foldl (mapFrames fun f => { f with hold := true, barred := true }) s))
  else s

/-- The frame numbers of the records that a queue holds and the selvedge has not acquired. -/
def waitingFrames (s : State) (q : Nat) : List W64 :=
  if qState s q == 3 then []
  else (List.range (qFill s q)).map fun i =>
    BitVec.ofNat 64 (leAt (devRead (qSlot s q ((qHead s q).toNat + i)) (qEsize s q) s).1 8 8)

/-- The frames of pair i with a record that was committed before PF_N rises carry the hold flag: those in the frame store, and
those whose first record is still to be acquired (R478). -/
def holdFrames (s : State) (i : Nat) : State :=
  match (pairsOf s)[i]? with
  | none => s
  | some p =>
    let nums := waitingFrames s p.aQ ++ waitingFrames s p.bQ
    setPairSt s i { pairSt s i with
      heldNums := nums
      frames := (pairSt s i).frames.map fun f => if nums.contains f.num then { f with hold := true, barred := true } else f }

/-- The selvedge sees PF_N rise. -/
def selvRise (s : State) : State :=
  if s.selvUp && s.bit Reg.selvStatus 1 then
    telegram true (armMonitors ((pairNums s).foldl holdFrames (s.putB Reg.selvStatus 1 false)))
  else s

/-! ### Supply holds: the fabric (R531 to R537) -/

/-- Raise the PF_N vector if it is enabled (R517). -/
def raisePf (s : State) : State := if s.bit Reg.hostCfg 0 then s.raise (s.fld Reg.hostCfg 8 8) else s

/-- Host accesses that wait at a channel when a hold begins: writes are dropped (R531), reads are aborted (R533). -/
def dropHostWaiting (s : State) : State :=
  let ws := s.host.waiting.filter fun (e : Nat × Access) => accWrites e.2
  let rs := s.host.waiting.filter fun (e : Nat × Access) => !accWrites e.2
  let s := { s with host := { s.host with waiting := [] } }
  let s := s.satAdd Reg.hostPfDropped ws.length
  rs.foldl (fun s _ => (holdDiscard s).answer .completerAbort) s

/-- A transfer writes companion memory. -/
def dmaToComp (d : Dma) : Bool := (dmaDstRows d).any fun r => inComp r.1

/-- Whether a transfer in flight has a write that is not yet accepted at its channel is not stated: a free value says so for
each. A transfer that loses writes counts them, and carries the flag (R531). -/
def dmaDrop (k i : Nat) (s : State) : State :=
  match (core s k).dma[i]? with
  | none => s
  | some d =>
    if d.job.isNone && !d.lost && dmaToComp d then
      let lost := Config.freeBool s.freeCtr
      let n := Config.freeNat (s.freeCtr + 1) + 1
      let s := s.tickFree.tickFree
      if lost then
        (setCore s k { core s k with dma := (core s k).dma.set i { d with lost := true } }).satAdd Reg.hostPfDropped n
      else s
    else s

/-- The transfers of every core at the start of a hold. -/
def dmaDropAll (s : State) : State :=
  (List.range 32).foldl (fun s k => (List.range (core s k).dma.length).foldl (fun s i => dmaDrop k i s) s) s

/-- The start of a hold in the fabric (R531, R532, R552). -/
def holdBegin (s : State) : Res State :=
  let s := { s with hold := { phase := .entering, stage := s.stage, ended := s.pins.pfN, again := false } }
  let s := ((s.setStage 6).putB Reg.hostStatus 0 true).putB Reg.hostStatus 2 true
  let s := (dmaDropAll (dropHostWaiting s)).sat Reg.mgmtHolds
  let s := embHold s
  andThen (foldRes buDiscard (List.range 48) s) fun s =>
    let s := if s.bit Reg.hostCfg 2 then (List.range 48).foldl (fun s c => buAbandon c s) s else s
    .next (raisePf (traceSys 0xA 0 (traceEmpty s)))

/-- PF_N falls, and the selvedge sees it. -/
def pfFall (s : State) : State :=
  if !s.pins.coldN || s.frz.frozen || s.clk != .running then s else selvFall { s with pins := { s.pins with pfN := false } }

/-- SUPPLY_HOLD_BEGIN (R530 to R532, R538, R596): the filter takes a low level of PF_N. -/
def execSupplyHoldBegin (s : State) : Res State :=
  if !s.pins.coldN || s.frz.frozen || s.clk != .running then .next s
  else
    let s := pfFall s
    if !s.tclk then .next s
    else match s.hold.phase with
      | .none => if s.loader ≠ .idle then oc 538 else holdBegin s
      | .resuming => .next { s with hold := { s.hold with again := true } }
      | _ => if s.hold.ended then .next { s with hold := { s.hold with again := true } } else .next s

/-- HOLD_READY (R532, R536): the running commands have finished and every channel is in self-refresh. -/
def execHoldReady (s : State) : Res State :=
  onlyIf (s.tclk && s.hold.phase == .entering && (List.range 48).all fun c => (chan s c).running.isEmpty) (fun s =>
    let s := (selfRefresh true s).putB Reg.hostStatus 1 true
    { s with hold := { s.hold with phase := if s.hold.ended then .resuming else .ready } }) s

/-- SUPPLY_HOLD_END (R530, R534, R536): the filter takes a high level of PF_N. -/
def execSupplyHoldEnd (s : State) : Res State :=
  if !s.pins.coldN || s.frz.frozen || s.clk != .running then .next s
  else
    let s := selvRise { s with pins := { s.pins with pfN := true } }
    match s.hold.phase with
    | .entering => .next { s with hold := { s.hold with ended := true } }
    | .ready => .next { s with hold := { s.hold with phase := .resuming } }
    | .none => .next (if s.cclk then linksTrain s else s)
    | _ => .next s

/-- HOLD_RESUME_DONE (R534, R535, R552): `us` is the duration of the hold. -/
def execHoldResumeDone (us : W32) (s : State) : Res State :=
  if !(s.tclk && s.hold.phase == .resuming) then .next s
  else
    let again := s.hold.again
    let s := (selfRefresh false s).setStage s.hold.stage
    let s := ((s.putB Reg.hostStatus 0 false).putB Reg.hostStatus 1 false).putB Reg.hostStatus 3 true
    let s := s.wr Reg.hostLastHold us
    let s := (List.range 32).foldl (fun s k => s.putF (Reg.arrayStatus k) 0 5 0) s
    let s := { s with hold := State.reset.hold }
    let s := linksTrain (raisePf (traceSys 0xA 1 s))
    if again then holdBegin s else .next s

end Sys2Proof.Machine
end

