-- ==== Sys2Proof/Machine/Host.lean ====
section
/-! DEFINITION. Host accesses through BAR2 and BAR4, MSI-X sending, the I2C target and the management mailbox
(16_host_management_supply.md). -/

namespace Sys2Proof.Machine

/-! ### What reads of the control map see -/

/-- MGMT_STATUS. -/
def mgmtStatusWord (s : State) : W32 :=
  BitVec.ofNat 32 (s.stage + 2 ^ 4 * (if isSafe s then 1 else 0) + 2 ^ 5 * (if s.inHold then 1 else 0)
    + 2 ^ 6 * (if timeLock s then 1 else 0) + 2 ^ 7 * s.fld Reg.hostLink 0 9)

/-- First offset of the trace SRAM in BAR0, and its size. -/
def traceSramBase : Nat := 0x2780000
def traceSramSize : Nat := 0x80000

/-- A word of the trace SRAM. -/
def traceWord (s : State) (o : Nat) : W32 :=
  (packetAt s (o / 16)).extractLsb' (32 * (o / 4 % 4)) 32

/-- The current value of the word at a 4-byte-aligned BAR0 offset. -/
def regView (s : State) (a : Nat) : W32 :=
  if a = Reg.mgmtStatus then mgmtStatusWord s
  else if a = Reg.mgmtAddr then BitVec.ofNat 32 (0x58 + s.pins.addr.toNat)
  else if a = Reg.mgmtLastHold then s.rd Reg.hostLastHold
  else if traceSramBase ≤ a ∧ a < traceSramBase + traceSramSize then traceWord s (a - traceSramBase)
  else s.rd a

/-! ### Gates of a read (R34, R35, R508, R513, R533, R597) -/

/-- A non-posted request: not answered in reset or in a freeze, aborted before BIST has completed, not decoded in
D3hot. -/
def hostRead (f : State → Res State) (s : State) : Res State :=
  if !s.up then .next (s.answer .unanswered)
  else if !s.bistDone then .next (s.answer .completerAbort)
  else if s.host.d3hot then .next (s.answer .unsupported)
  else f s

/-- A write with its EP bit set is discarded, counted, and reported as a Poisoned TLP Received (R515). -/
def poisonedWrite (s : State) : State := { s with host := { s.host with aerPoison := true } }.sat Reg.hostPoisonWr

/-- A posted write through BAR2 or BAR4: lost as `hostWrite` states, or discarded as poisoned (R515). `queues` says that it
waits with the posted writes before it instead of arriving after them (R174, R513). -/
def hostData (poisoned queues : Bool) (f : State → Res State) (s : State) : Res State :=
  if !s.up || !s.bistDone || s.host.d3hot || s.clk != .running || (postedWaits s && !queues) then .next s
  else if poisoned then .next (poisonedWrite s)
  else if s.inHold then .next (holdDiscard s)
  else f s

/-- A memory request lies in one 4 KiB block, as the Base Specification requires; no other request exists. -/
def tlpFits (o n : Nat) : Bool := decide (0 < n ∧ o % 4096 + n ≤ 4096)

/-! ### Commands: BAR2 (R510 to R515, R399) -/

/-- The GiB page n maps (R510). -/
def bar2Gib (s : State) (n : Nat) : Nat := s.fld (Reg.hostBar2Page n) 0 8

/-- The device address of a BAR2 offset, none on an unmapped page (R510, R511). -/
def bar2Addr (s : State) (o : Nat) : Option Nat :=
  let g := bar2Gib s (o / 2 ^ 30)
  if 192 ≤ g then none else some (g * 2 ^ 30 + o % 2 ^ 30)

/-- Count an access to an unmapped page (R511). -/
def unmapped (s : State) : State := (s.sat Reg.hostUnmapped).putB Reg.hostStatus 4 true

/-- A mapped access is performed at its channel, or waits there (R399, R597). -/
def bar2Access (a : Nat) (acc : Access) (s : State) : Res State :=
  if s.clk != .running || chanWaits s (.host a) a (accLen acc) || !hostTurn s.host.waiting acc then
    .next (arrive (.host a) a (accLen acc) { s with host := { s.host with waiting := s.host.waiting ++ [(a, acc)] } })
  else accPerform .host a acc s

/-- BAR2_READ (R510, R511, R513). -/
def execBar2Read (o : BitVec 36) (n : Nat) : State → Res State :=
  hostRead fun s =>
    if !tlpFits o.toNat n then .next s
    else if s.inHold then .next ((holdDiscard s).answer .completerAbort)
    else if s.loader ≠ .idle then oc 53
    else match bar2Addr s o.toNat with
      | none => .next ((unmapped s).answer (.data (ffs n)))
      | some a => bar2Access a (.read n) (s.answer .none)

/-- BAR2_WRITE (R510, R511, R515). -/
def execBar2Write (o : BitVec 36) (bs : List Byte) (poisoned : Bool) : State → Res State :=
  hostData poisoned true fun s =>
    if !tlpFits o.toNat bs.length then .next s
    else if s.loader ≠ .idle then oc 53
    else match bar2Addr s o.toNat with
      | none => .next (unmapped s)
      | some a => bar2Access a (.write bs) s

/-- Remove the first read of a list of accesses. -/
def dropRead : List (Nat × Access) → List (Nat × Access)
  | [] => []
  | (_, .read _) :: l => l
  | (a, .write bs) :: l => (a, .write bs) :: dropRead l

/-- BAR2_READ_TIMEOUT (R514): the oldest read that waits at its channel is withdrawn. -/
def execBar2ReadTimeout (s : State) : Res State :=
  onlyIf (s.up && s.host.waiting.any fun (e : Nat × Access) => !accWrites e.2)
    (fun s =>
      let s := match s.host.waiting.find? fun (e : Nat × Access) => !accWrites e.2 with
        | some e => depart (.host e.1) s
        | none => s
      ({ s with host := { s.host with waiting := dropRead s.host.waiting } }.sat Reg.hostCplAborts).answer .completerAbort) s

/-- HOST_BAR2_PAGE_WRITE (R512). -/
def execHostBar2PageWrite (n : Fin 64) (v : W32) : State → Res State :=
  hostWrite .held fun s => if v &&& 0xFFFFFF00#32 ≠ 0 then oc 13 else .next (s.wr (Reg.hostBar2Page n) v)

/-! ### Commands: BAR4 (R509, R516) -/

/-- BAR4_READ (R513, R533). -/
def execBar4Read (o : BitVec 29) (n : Nat) : State → Res State :=
  hostRead fun s =>
    if !tlpFits o.toNat n then .next s
    else if s.inHold then .next ((holdDiscard s).answer .completerAbort)
    else if s.loader ≠ .idle then oc 53
    else if s.clk != .running then .next (s.answer .unanswered)
    else .next (s.answer (.data (s.bytes (onDieBase + o.toNat) n)))

/-- The local store of a DRAINING core lies in a range (R62). -/
def drainingStore (s : State) (a n : Nat) : Bool :=
  (List.range 32).any fun k => coreState s k == 2 && decide (a < localBase k + localSize ∧ localBase k < a + n)

/-- BAR4_WRITE (R53, R62, R158, R182, R516). -/
def execBar4Write (o : BitVec 29) (bs : List Byte) (poisoned : Bool) : State → Res State :=
  hostData poisoned false fun s =>
    let a := onDieBase + o.toNat
    if !tlpFits o.toNat bs.length then .next s
    else if s.loader ≠ .idle then oc 53
    else if drainingStore s a bs.length then oc 62
    else match writeOutside s .host a bs.length with
      | some r => oc r
      | none => .next (s.putBytes a bs)

/-! ### Commands: MSI-X (R518) -/

/-- MSIX_SEND (R518): a pending message is sent once nothing holds it. -/
def execMsixSend (v : Fin 256) (s : State) : Res State :=
  onlyIf (s.up && s.bit (Reg.msixPba (v / 32)) (v % 32) && !s.msixHeld v) (fun s => s.msixGo v) s

/-! ### Commands: the mailbox (R517, R528) -/

/-- Raise the mailbox vector if it is enabled. -/
def raiseMbx (s : State) : State := if s.bit Reg.hostCfg 1 then s.raise (s.fld Reg.hostCfg 16 8) else s

/-- The management device posts a message. -/
def b2hPost (s : State) : State := raiseMbx (s.putB Reg.mgmtMbx 1 true)

/-- H2B_POST (R528): a host write of h2b_post. -/
def execH2bPost : State → Res State := hostWrite .held fun s => .next (s.putB Reg.mgmtMbx 0 true)

/-- B2H_ACK (R528): a host write of b2h_ack. -/
def execB2hAck : State → Res State := hostWrite .held fun s => .next (s.putB Reg.mgmtMbx 1 false)

/-- H2B_ACK (R528): h2b_ack takes effect over I2C. -/
def execH2bAck (s : State) : Res State := onlyIf (s.up && s.i2c.ready) (fun s => s.putB Reg.mgmtMbx 0 false) s

/-- B2H_POST (R528): b2h_post takes effect over I2C. -/
def execB2hPost (s : State) : Res State := onlyIf (s.up && s.i2c.ready) b2hPost s

/-! ### The I2C target (R519 to R528) -/

/-- The target answers: 5 ms have passed since PERST_N rose. -/
def i2cUp (s : State) : Bool := s.up && s.i2c.ready

/-- Replace the target's state. -/
def setI2c (s : State) (x : I2c) : State := { s with i2c := x }

/-- I2C_START (R520): a START outside a transaction begins one; within one it is a repeated START. -/
def execI2cStart (s : State) : Res State :=
  onlyIf (i2cUp s) (fun s =>
    if s.i2c.phase = .idle then setI2c s { s.i2c with phase := .address, buf := [], count := 0 }
    else setI2c s { s.i2c with phase := .address }) s

/-- I2C_REPEATED_START (R524): what is buffered is kept. -/
def execI2cRepeatedStart (s : State) : Res State :=
  onlyIf (i2cUp s && s.i2c.phase != .idle) (fun s => setI2c s { s.i2c with phase := .address }) s

/-- I2C_ADDRESS_BYTE (R519, R520): the target takes part if the byte holds its address. -/
def execI2cAddressByte (b : Byte) (s : State) : Res State :=
  if !(i2cUp s && s.i2c.phase == .address) then .next (s.answer (.i2cAck false))
  else if b.toNat / 2 ≠ 0x58 + s.pins.addr.toNat then .next ((setI2c s { s.i2c with phase := .ignored }).answer (.i2cAck false))
  else if b.toNat % 2 = 0 then .next ((setI2c s { s.i2c with phase := .pointer none }).answer (.i2cAck true))
  else .next ((setI2c s { s.i2c with phase := .read, fresh := true }).answer (.i2cAck true))

/-- I2C_WRITE_BYTE (R520, R521): a pointer byte, or a data byte, of which 64 are acknowledged. -/
def execI2cWriteByte (b : Byte) (s : State) : Res State :=
  if !i2cUp s then .next (s.answer (.i2cAck false))
  else match s.i2c.phase with
    | .pointer none => .next ((setI2c s { s.i2c with phase := .pointer (some b) }).answer (.i2cAck true))
    | .pointer (some hi) =>
      .next ((setI2c s { s.i2c with phase := .write, ptr := (256 * hi.toNat + b.toNat) / 4 * 4 }).answer (.i2cAck true))
    | .write =>
      if s.i2c.count < 64 then
        let x := s.i2c
        .next ((setI2c s { x with
          buf := Tab.set (fun _ => none) x.buf x.ptr (some b), ptr := (x.ptr + 1) % 65536, count := x.count + 1 }).answer (.i2cAck true))
      else .next (s.answer (.i2cAck false))
    | _ => .next (s.answer (.i2cAck false))

/-- I2C_READ_BYTE (R520): each register is captured whole as its first byte is sent. -/
def execI2cReadByte (nack : Bool) (s : State) : Res State :=
  if !(i2cUp s && s.i2c.phase == .read) then .next (s.answer .unanswered)
  else
    let x := s.i2c
    let w := if x.fresh || x.ptr % 4 == 0 then regView s (Reg.mgmtId + x.ptr / 4 * 4) else x.capture
    let b : Byte := BitVec.ofNat 8 (w.toNat / 2 ^ (8 * (x.ptr % 4)))
    .next ((setI2c s { x with
      capture := w, fresh := false, ptr := (x.ptr + 1) % 65536, phase := if nack then .ignored else .read }).answer (.i2cByte b))

/-- The registers all four of whose bytes are buffered, as MGMT offset and value, rising (R522). -/
def i2cComplete (x : I2c) : List (Nat × W32) :=
  let byte (a : Nat) : Option Byte := Tab.get (fun _ => none) x.buf a
  ((x.buf.map fun (e : Nat × Option Byte) => e.1 / 4 * 4).dedup).filterMap fun o =>
    match byte o, byte (o + 1), byte (o + 2), byte (o + 3) with
    | some a, some b, some c, some d => some (o, BitVec.ofNat 32 (leNat [a, b, c, d]))
    | _, _, _, _ => none

/-- A write over I2C has a bit set that the MGMT table does not list (R13). -/
def mgmtReserved (o : Nat) (v : W32) : Bool :=
  match regHit (Reg.mgmtId + o) with
  | none => false
  | some h => v &&& ~~~(BitVec.ofNat 32 ((h.word.rw.lor h.word.w1c).lor (h.word.act.lor h.word.ro))) != 0

/-- One register of a commit, judged on the mailbox flags `m` from before it (R522, R528): host-only and read-only fields
are discarded. -/
def i2cCommitOne (m : W32) (s : State) (e : Nat × W32) : State :=
  let (o, v) := e
  if 0x120 ≤ o ∧ o < 0x140 then (if m.toNat.testBit 1 then s else s.wr (Reg.mgmtId + o) v)
  else if 0x200 ≤ o ∧ o < 0x210 then s.wr (Reg.mgmtId + o) v
  else if o = 0x140 then
    let s := if v.toNat.testBit 9 then s.putB Reg.mgmtMbx 0 false else s
    if v.toNat.testBit 10 then b2hPost s else s
  else s

/-- I2C_STOP (R522 to R524): every register written whole is written; a byte in progress is discarded. -/
def execI2cStop (_partialByte : Bool) (s : State) : Res State :=
  if !(i2cUp s && s.i2c.phase != .idle) then .next s
  else
    let ws := i2cComplete s.i2c
    let s := setI2c s { s.i2c with phase := .idle, buf := [], count := 0 }
    if ws.any fun e => mgmtReserved e.1 e.2 then oc 13
    else .next (ws.foldl (i2cCommitOne (s.rd Reg.mgmtMbx)) s)

/-- I2C_SCL_TIMEOUT (R525): the transaction is abandoned. -/
def execI2cSclTimeout (s : State) : Res State :=
  onlyIf (i2cUp s && s.i2c.phase != .idle) (fun s => setI2c s { s.i2c with phase := .idle, buf := [], count := 0 }) s

end Sys2Proof.Machine
end

