-- ==== Sys2Proof/Machine/Judge.lean ====
section
/-! DEFINITION. The selvedge's judgement of 15_selvedge_safety.md: events of the fabric's checkers, the comparator, the
plausibility rules, frame judgement and descriptors, the seed frame, deadline monitors, the self-test, meters and windows,
telegrams, and the mailbox (R468 to R502). -/

namespace Sys2Proof.Machine

/-! ### Events of the fabric's checkers (R472, R473, R278, R314, R379, R449, R490) -/

/-- The pairs of the partition a core belongs to. -/
def pairsOfCore (s : State) (k : Nat) : List Nat :=
  match corePart s k with
  | none => []
  | some n => pairsOfPart s n

/-- Cause of a fabric event, and the pairs it concerns. -/
def fabCause (s : State) : FabEvent → Nat × List Nat
  | .checksum k _ _ _ _ _ => (0x17, pairsOfCore s k)
  | .memory c _ _ => (0x19, pairsOfChannel s c)
  | .e2e _ _ _ _ q => (0x1A, match queuePart s q with | none => [] | some n => pairsOfPart s n)
  | .region n chain _ _ => (0x1B, if chain then [] else pairsOfPart s n)

/-- The selvedge receives the oldest waiting event of a cause. -/
def takeFab (cause : Nat) (s : State) : Res State :=
  match s.selv.inbox.findIdx? (fun e => (fabCause s e).1 = cause) with
  | none => .next s
  | some i =>
    match s.selv.inbox[i]? with
    | none => .next s
    | some e =>
      onlyIf s.selvUp (fun s =>
        selvCause cause (fabCause s e).2 { s with selv := { s.selv with inbox := s.selv.inbox.eraseIdx i } }) s

/-- CHECKSUM_EVENT (R278, R472). -/
def execChecksumEvent : State → Res State := takeFab 0x17
/-- MEMORY_EVENT (R379, R472). -/
def execMemoryEvent : State → Res State := takeFab 0x19
/-- E2E_EVENT (R449, R472). -/
def execE2eEvent : State → Res State := takeFab 0x1A
/-- REGION_EVENT (R472, R490). -/
def execRegionEvent : State → Res State := takeFab 0x1B

/-- RESIDUE_EVENT (R313 to R315): core k reports the opcode of one of its latest checked operations and the first failing
of its unmasked lanes. -/
def execResidueEvent (k : CoreId) (opc lane : BitVec 10) (s : State) : Res State :=
  let real := (core s k).checked.any fun x => x.1 == opc.toNat && x.2.testBit lane.toNat
  onlyIf (s.cclk && s.bit (Reg.vecCfg k) 0 && real) (fun s =>
    let s := (s.putB (Reg.vecStatus k) 4 true).sat (Reg.vecResCount k)
    selvCause 0x18 (pairsOfCore s k) (s.wrN (Reg.vecResLast k) (opc.toNat + 2 ^ 10 * lane.toNat))) s

/-! ### Causes of the selvedge itself (R468, R470, R477, R584) -/

/-- LOCKSTEP (R468, R477): no telegram is sent any more. -/
def execLockstep (s : State) : Res State :=
  onlyIf s.selvUp (fun s => selvEvent 0x20 0 [] { s with selv := { s.selv with tgDead := true } }) s

/-- SELV_ECC (R468, R477). -/
def execSelvEcc (corrected : Bool) (s : State) : Res State :=
  onlyIf s.selvUp (fun s =>
    if corrected then s.sat Reg.selvEccCe
    else selvEvent 0x21 0 [] { s with selv := { s.selv with tgDead := true } }) s

/-- SAFE_CLK_FAULT (R468). -/
def execSafeClkFault (s : State) : Res State := onlyIf s.selvUp (selvEvent 0x22 0 []) s

/-- DIE_TEMP_SAMPLE (R472, R584): the hottest die sensor; temperatures are valid from the end of BIST. -/
def execDieTempSample (t : BitVec 8) (s : State) : Res State :=
  let s := if s.up && s.bistDone then s.putF Reg.mgmtTemp 0 8 t.toNat else s
  onlyIf s.selvUp (fun s =>
    let s := { s with selv := { s.selv with dieTemp := t } }
    if 105 < t.toInt then selvEvent 0x04 0 [] s else s) s

/-- SAFE_HB_TOGGLE (R470). -/
def execSafeHbToggle (s : State) : Res State :=
  onlyIf (s.selvUp && !s.selv.fatalSeen && s.pins.safeN != .hiZ)
    (fun s => { s with pins := { s.pins with safeHb := !s.pins.safeHb } }) s

/-! ### Records (R480) -/

/-- The record in an element, as it arrives. -/
def readRecord (s : State) (e : List Byte) : Record where
  frameEnd := leAt e 0 1 == 2
  flags := leAt e 1 1
  cls := leAt e 2 2
  id := leAt e 4 4
  frame := BitVec.ofNat 64 (leAt e 8 8)
  time := BitVec.ofNat 128 (leAt e 0x10 16)
  pick := BitVec.ofNat 64 (leAt e 0x20 8)
  vfmt := leAt e 0x2A 1
  values := (List.range (leAt e 0x28 2)).map fun i => BitVec.ofNat 32 (leAt e (0x40 + 4 * i) 4)
  arrived := selvTime s
  sigBytes := slice e 2 6 ++ slice e 0x28 3 ++ slice e 0x40 (4 * leAt e 0x28 2)

/-- An element is no record: its kind, its number of values or its length (R480). -/
def recordBad (e : List Byte) : Bool :=
  let k := leAt e 0 1
  let n := leAt e 0x28 2
  (k != 1 && k != 2) || decide (240 < n) || decide (e.length < 64 + 4 * n)

/-- Bytes of a record in the frame store. -/
def Record.size (r : Record) : Nat := 64 + 4 * r.values.length
/-- Bytes of the frame store in use: the unmatched records of every pair (R482). -/
def storeUsed (s : State) : Nat :=
  ((pairNums s).flatMap fun i => (pairSt s i).frames.flatMap fun f => (f.as ++ f.bs).map Record.size).sum

/-! ### Agreement (R481) -/

/-- a ≤ b, for values that are not NaN. -/
def FVal.le (a b : FVal) : Bool := !a.isNan && !b.isNan && !b.lt a
/-- Absolute value of a difference. -/
def FVal.dist (a b : FVal) : FVal := (a.add 0 b.neg).abs
/-- The greater of two values. -/
def FVal.greater (a b : FVal) : FVal := if a.lt b then b else a
/-- A value as INT32. -/
def i32 (w : W32) : Int := w.toInt

/-- The tolerance entry of a class. -/
def tolOf (s : State) (c : Nat) : Option Tol :=
  match s.selv.safety with
  | none => none
  | some f => f.tols.find? fun t => t.cls = c

/-- One value pair agrees under the tolerance of its class. -/
def valueOk (t : Option Tol) (vfmt : Nat) (a b : W32) : Bool :=
  if vfmt = 0 then
    let x := f32 a
    let y := f32 b
    let tol := match t with
      | none => false
      | some t => !t.exact && (x.dist y).le ((f32 t.abs).add 0 ((f32 t.rel).mul (x.abs.greater y.abs)))
    (x.isNan && y.isNan) || tol || a == b
  else decide ((i32 a - i32 b).natAbs ≤ (match t with | none => 0 | some t => t.int))

/-- Pick count of a stamp. -/
def pickCountOf (p : PStamp) : Nat := p.toNat % 2 ^ 48

/-- Two matched records agree. -/
def recordsAgree (s : State) (p : Pair) (a b : Record) : Bool :=
  a.flags == b.flags && a.values.length == b.values.length && a.vfmt == b.vfmt && pickCountOf a.pick == pickCountOf b.pick
    && decide (((stamp16 a.time : Int) - stamp16 b.time).natAbs ≤ p.timeTol * 2 ^ 16)
    && (a.values.zip b.values).all fun v => valueOk (tolOf s a.cls) a.vfmt v.1 v.2

/-- Two records are partners: the same frame, class and id, and the same kind. -/
def Record.partner (a b : Record) : Bool := a.frameEnd == b.frameEnd && a.cls == b.cls && a.id == b.id

/-! ### Plausibility rules (R483) -/

/-- Channel A's records of a frame: the matched ones, then those without a partner. -/
def Frame.records (f : Frame) : List Record := f.matched.map Matched.record ++ f.as.filter fun r => !r.frameEnd

/-- Value number `i` of a record lies in [lo, hi]; `free` answers for a value the record does not have. -/
def inRange (x : Rule) (r : Record) (free : Bool) (i : Nat) : Bool :=
  match r.values[i]? with
  | none => free
  | some v =>
    if r.vfmt = 0 then (f32 x.lo).le (f32 v) && (f32 v).le (f32 x.hi)
    else decide (i32 x.lo ≤ i32 v ∧ i32 v ≤ i32 x.hi)

/-- A record-level rule passes for a record: RANGE and STAMP. -/
def rulePassesRecord (x : Rule) (free : Bool) (r : Record) : Bool :=
  if r.cls ≠ x.cls then true
  else if x.type = 1 then
    (if x.index = 0xFFFF then List.range r.values.length else [x.index]).all (inRange x r free)
  else if x.type = 5 then !r.time.toNat.testBit 16 && !r.pick.toNat.testBit 50
  else true

/-- Two values differ by at most the tolerance of an AGREE rule. -/
def agreeValues (x : Rule) (free : Bool) (a b : Record) : Bool :=
  match a.values[x.index]?, b.values[x.index2]? with
  | some u, some v =>
    if a.vfmt ≠ b.vfmt then free
    else if a.vfmt = 0 then ((f32 u).dist (f32 v)).le (f32 x.tol)
    else decide (((i32 u - i32 v).natAbs : Int) ≤ i32 x.tol)
  | _, _ => free

/-- A frame-level rule passes: MONO, COUNT and AGREE; `last` is the pick stamp of the last judged frame. -/
def rulePassesFrame (x : Rule) (free : Bool) (last : Option PStamp) (f : Frame) : Bool :=
  let rs := f.records
  if x.type = 2 then
    match last, f.ends with
    | some l, some e =>
      let p := e.record.pick
      if p.toNat.testBit 50 != l.toNat.testBit 50 then true
      else
        let d := signedN 48 (pickCountOf p + 2 ^ 48 - pickCountOf l)
        let hi : Int := x.hi.toNat
        let dir := fieldN p.toNat 48 2
        if dir = 1 then decide (1 ≤ d ∧ d ≤ hi) else if dir = 2 then decide (-hi ≤ d ∧ d ≤ -1) else false
    | _, _ => true
  else if x.type = 3 then
    let n := (rs.filter fun r => r.cls = x.cls).length
    decide (x.lo.toNat ≤ n ∧ n ≤ x.hi.toNat)
  else if x.type = 4 then
    rs.all fun r => r.cls != x.cls ||
      match rs.find? fun y => y.cls = x.cls2 ∧ y.id = r.id with
      | none => x.allowMissing
      | some y => agreeValues x free r y
  else true

/-- The rules that judge a pair, with their numbers. -/
def rulesFor (s : State) (p : Pair) : List (Nat × Rule) :=
  ((rulesOf s).zipIdx.map fun e => (e.2, e.1)).filter fun e => e.2.pair = p.a ∨ e.2.pair = 0xFF

/-- The records of a list for which a rule fails, by their place. -/
def failsAt (x : Rule) (free : Bool) (rs : List Record) : List Nat :=
  (rs.zipIdx.filter fun e => !rulePassesRecord x free e.1).map Prod.snd

/-- What the rules find in a frame: for each rule its number, its action, the places of the records it fails, and whether
it fails the frame. -/
structure RuleRes where
  rule : Nat
  action : Nat
  recs : List Nat
  frame : Bool
  deriving DecidableEq, Repr

/-- Judge a frame by every rule of its pair. -/
def ruleResults (s : State) (i : Nat) (p : Pair) (f : Frame) : List RuleRes :=
  let free := Config.freeBool s.freeCtr
  (rulesFor s p).map fun e =>
    { rule := e.1, action := e.2.action, recs := failsAt e.2 free f.records
      frame := !rulePassesFrame e.2 free (pairSt s i).lastPick f }

/-- Failures of one rule in a frame: one for each record it fails, and one if it fails the frame. -/
def RuleRes.fails (x : RuleRes) : Nat := x.recs.length + if x.frame then 1 else 0
/-- The events of one rule. -/
def RuleRes.events (x : RuleRes) : List SelvEv := List.replicate x.fails ⟨0x13, x.action, []⟩
/-- Count the failures of one rule. -/
def countRule (s : State) (x : RuleRes) : State := s.satAdd (Reg.selvRule x.rule) x.fails

/-- An action that invalidates what its rule fails. -/
def RuleRes.bars (x : RuleRes) : Bool := x.action == 0 || x.action == 1

/-- Number plus 1 of the first rule of a list, 0 for none. -/
def firstRule (l : List RuleRes) : Nat :=
  match l.head? with
  | none => 0
  | some x => x.rule + 1

/-! ### Frame judgement and descriptors (R484 to R486) -/

/-- A descriptor: its header fields and values. -/
structure Desc where
  kind : Nat
  flags : Nat
  cls : Nat
  id : Nat
  frame : W64
  time : TStamp
  pick : PStamp
  vfmt : Nat
  values : List W32
  fail : Nat
  deriving DecidableEq, Repr

/-- Commit a descriptor of pair i to its out_q, as the selvedge, which no region checker judges (R489); the sequence number
advances whether or not it is dropped. -/
def putDesc (i : Nat) (p : Pair) (d : Desc) (s : State) : State :=
  let x := pairSt s i
  let cut := decide (qEsize s p.outQ < 64 + 4 * d.values.length)
  let b := natLe 1 d.kind ++ natLe 1 (d.flags + (if cut then 64 else 0)) ++ natLe 2 d.cls ++ natLe 4 d.id ++ natLe 8 d.frame.toNat
    ++ natLe 16 d.time.toNat ++ natLe 8 d.pick.toNat ++ natLe 8 (selvTime s) ++ natLe 4 x.seq.toNat ++ natLe 2 d.values.length
    ++ natLe 1 d.vfmt ++ natLe 1 p.a ++ natLe 4 d.fail ++ zeros 4 ++ d.values.flatMap fun v => natLe 4 v.toNat
  let s := setPairSt s i { x with seq := x.seq + 1 }
  match engCommitAs .host p.outQ b s with
  | (true, s) => s
  | (false, s) => s.sat Reg.selvDescDrops

/-- Flag bits of a descriptor. -/
def descFlags (valid cmp rules seed safe hold : Bool) : Nat :=
  (if valid then 1 else 0) + (if cmp then 2 else 0) + (if rules then 4 else 0) + (if seed then 8 else 0)
    + (if safe then 16 else 0) + (if hold then 32 else 0)

/-- Earlier in the order of descriptors: class, then id. -/
def descBefore (a b : Desc) : Bool := decide (a.cls < b.cls) || (a.cls == b.cls && decide (a.id ≤ b.id))

/-- Put a descriptor in its place in a sorted list. -/
def insertDesc (d : Desc) : List Desc → List Desc
  | [] => [d]
  | x :: l => if descBefore x d then x :: insertDesc d l else d :: x :: l

/-- Every record of a frame was matched and agreed. -/
def Frame.agreed (f : Frame) : Bool :=
  f.as.isEmpty && f.bs.isEmpty && f.matched.all Matched.agreed && (match f.ends with | none => false | some e => e.agreed)

/-- A frame's descriptors may be VALID: R485, without the rules. -/
def frameMayBeValid (s : State) (i : Nat) (p : Pair) (f : Frame) : Bool :=
  !isSafe s && !f.safeSeen && ptEnabled s p.a && ptEnabled s p.b && f.agreed && (pairSt s i).seedOk && !f.barred && !f.hold
    && !s.bit Reg.selvStatus 1

/-- The fail field: the first of the rules that fail, and the cause that invalidates: that of an event or of the safe
state, else RULE, else SEED where the last seed judgement did not pass. -/
def failField (f : Frame) (seedOk : Bool) (l : List RuleRes) : Nat :=
  firstRule l + 2 ^ 16 * (if f.bar ≠ 0 then f.bar else if l.any RuleRes.bars then 0x13 else if seedOk then 0 else 0x12)

/-- The RESULT descriptor of record number `n` of a frame: its rules_ok speaks of the record, its fail also of the rules
that fail the frame (log entry 68). -/
def resultDesc (s : State) (f : Frame) (valid seedOk : Bool) (rr : List RuleRes) (n : Nat) (r : Record) : Desc :=
  let mine := rr.filter fun x => x.recs.contains n
  let cmp := match f.matched[n]? with | none => false | some m => m.agreed
  { kind := 1, cls := r.cls, id := r.id, frame := r.frame, time := r.time, pick := r.pick, vfmt := r.vfmt, values := r.values
    flags := descFlags (valid && !mine.any RuleRes.bars) cmp mine.isEmpty seedOk (isSafe s || f.safeSeen) f.hold
    fail := failField f seedOk (rr.filter fun x => x.recs.contains n || x.frame) }

/-- The verdict entry of a FRAME descriptor (R498). -/
def verdictEntry (p : Pair) (d : Desc) (good bad : Nat) (seedOk : Bool) : List Byte :=
  natLe 4 d.frame.toNat ++ natLe 8 d.pick.toNat ++ natLe 2 good ++ natLe 1 (min bad 255)
    ++ natLe 1 (1 + 2 * (d.flags % 2) + (if seedOk then 4 else 0) + (if d.flags.testBit 1 then 8 else 0)
      + (if d.flags.testBit 2 then 16 else 0) + 32 * p.a)

/-- Commit the descriptors of a judged frame of pair i, which leaves the frame store. -/
def emitFrame (i : Nat) (p : Pair) (f : Frame) (rr : List RuleRes) (s : State) : State :=
  let s := setPairSt s i { pairSt s i with
    frames := (pairSt s i).frames.filter fun g => g.num ≠ f.num
    heldNums := (pairSt s i).heldNums.filter fun n => n ≠ f.num }
  let valid := frameMayBeValid s i p f && !rr.any fun x => x.frame && x.bars
  let rs := f.records
  let seedOk := (pairSt s i).seedOk
  let ds := (rs.zipIdx.map fun e => resultDesc s f valid seedOk rr e.2 e.1).foldr insertDesc []
  let failed := rr.filter RuleRes.frame
  let lead := match f.ends with | some e => some e.record | none => rs.head?
  let d : Desc := {
    kind := 2, cls := 0, id := rs.length, frame := f.num, vfmt := 0, values := []
    time := (match lead with | none => 0 | some r => r.time), pick := (match lead with | none => 0 | some r => r.pick)
    flags := descFlags valid f.agreed failed.isEmpty seedOk (isSafe s || f.safeSeen) f.hold
    fail := failField f seedOk failed }
  let good := (ds.filter fun x => x.flags % 2 = 1).length
  let v := verdictEntry p d good (ds.length - good) seedOk
  let s := (ds ++ [d]).foldl (fun s d => putDesc i p d s) s
  let s := match f.ends with
    | none => s
    | some e => setPairSt s i { pairSt s i with lastPick := some e.record.pick }
  { s with selv := { s.selv with verdicts := (v :: s.selv.verdicts).take 4 } }

/-! ### The comparator (R481, R482) -/

/-- The frame of a pair with a number. -/
def frameOf (s : State) (i : Nat) (num : W64) : Option Frame := (pairSt s i).frames.find? fun f => f.num = num

/-- Put a frame of a pair, in the place of the one with its number or at the end. -/
def putFrame (i : Nat) (f : Frame) (s : State) : State :=
  let x := pairSt s i
  let l := if x.frames.any fun g => g.num = f.num then x.frames.map fun g => if g.num = f.num then f else g else x.frames ++ [f]
  setPairSt s i { x with frames := l }

/-- The frame a record belongs to; it starts with its first record, with the hold flag if a record of it was committed
before PF_N rose (R478). -/
def frameFor (s : State) (i : Nat) (p : Pair) (num : W64) : Frame :=
  match frameOf s i num with
  | some f => f
  | none =>
    { num := num, as := [], bs := [], matched := [], ends := none, bar := if isSafe s then s.fld Reg.selvStatus 16 16 else 0
      barred := !(ptEnabled s p.a && ptEnabled s p.b), hold := s.bit Reg.selvStatus 1 || (pairSt s i).heldNums.contains num
      safeSeen := isSafe s, lostAt := none }

/-- A matched pair of records enters its frame: channel A's record, and whether it agrees with B's. -/
def Frame.addMatch (f : Frame) (a : Record) (ok : Bool) : Frame :=
  if a.frameEnd then { f with ends := some ⟨a, ok⟩ } else { f with matched := f.matched ++ [⟨a, ok⟩] }

/-- Both FRAME_ENDs are matched, and every RESULT record they count (R484), but for those that the frame store had no room
for (R482). -/
def Frame.complete (f : Frame) : Bool :=
  match f.ends with
  | none => false
  | some e => decide (e.record.id ≤ f.matched.length) || (f.lostAt.isSome && f.as.isEmpty && f.bs.isEmpty)

/-- What has been decided of a frame of pair i at once: the events `es`, and, where `done` says that the frame is judged, those
of its rules; then its descriptors are committed. -/
def decideFrame (i : Nat) (p : Pair) (num : W64) (done : Frame → Bool) (es : List SelvEv) (s : State) : State :=
  match (frameOf s i num).filter done with
  | none => raiseAll es s
  | some f =>
    let rr := ruleResults s i p f
    let s := raiseAll (es ++ rr.flatMap RuleRes.events) (rr.foldl countRule s.tickFree)
    match frameOf s i num with
    | none => s
    | some f => emitFrame i p f rr s

/-- A record of channel A or B of pair i enters the comparator; `es` are events decided with its arrival. -/
def compareRecord (i : Nat) (p : Pair) (chB : Bool) (r : Record) (es : List SelvEv) (s : State) : State :=
  let f := frameFor s i p r.frame
  let others := if chB then f.as else f.bs
  match others.findIdx? (Record.partner r) with
  | some n =>
    let o := others.getD n r
    let a := if chB then o else r
    let ok := recordsAgree s p a (if chB then r else o)
    let f := if chB then { f with as := others.eraseIdx n } else { f with bs := others.eraseIdx n }
    let f := f.addMatch a ok
    decideFrame i p r.frame Frame.complete (if ok then es else ⟨0x10, causeAction s 0x10, [i]⟩ :: es)
      (putFrame i (if ok then f else f.barBy 0x10) s)
  | none =>
    if 524288 < storeUsed s + r.size then
      raiseAll (⟨0x1D, causeAction s 0x1D, [i]⟩ :: es) (putFrame i { f.barBy 0x1D with lostAt := some (selvTime s) } s)
    else raiseAll es (putFrame i (if chB then { f with bs := f.bs ++ [r] } else { f with as := f.as ++ [r] }) s)

/-! ### The seed frame (R487, R488) -/

/-- The seed judgement of pair i: the oldest injection is judged, and the signatures start again. -/
def seedJudged (i : Nat) (pass : Bool) (s : State) : State :=
  let x := pairSt s i
  let s := setPairSt s i { x with
    seedStarts := x.seedStarts.drop 1, seedSigA := 0, seedSigB := 0, seedEndA := false, seedEndB := false
    seedOk := pass, seedRun := if pass then x.seedRun + 1 else 0 }
  if pass then s else selvCause 0x12 [i] s

/-- A record with the seed flag. -/
def seedRecord (i : Nat) (p : Pair) (chB : Bool) (r : Record) (s : State) : State :=
  let x := pairSt s i
  if r.frameEnd then
    let x := if chB then { x with seedEndB := true } else { x with seedEndA := true }
    let s := setPairSt s i x
    if x.seedEndA && x.seedEndB && !x.seedStarts.isEmpty then seedJudged i (x.seedSigA == p.aSig && x.seedSigB == p.bSig) s else s
  else
    let g := BitVec.ofNat 32 (crc32c r.sigBytes)
    setPairSt s i (if chB then { x with seedSigB := x.seedSigB + g } else { x with seedSigA := x.seedSigA + g })

/-- SEED_INJECTION (R487): an injection of the seed image begins. -/
def execSeedInjection (s : State) : Res State :=
  match s.selv.safety with
  | none => .next s
  | some f =>
    onlyIf (s.selvUp && s.cclk && s.selv.seedDue) (fun s =>
      let s := { s with selv := { s.selv with seedDue := false, seedBusy := !f.seedImage.isEmpty, seedFrames := f.seedImage } }
      (pairNums s).foldl (fun s i => setPairSt s i { pairSt s i with seedStarts := (pairSt s i).seedStarts ++ [selvTime s] }) s) s

/-- SEED_FRAME (R118, R146, R487): the next frame of the seed image reaches intake at the seed input, port 8, with its
receive stamp taken now; it passes the full-FIFO check and the match only. -/
def execSeedFrame (s : State) : Res State :=
  match s.selv.seedFrames with
  | [] => .next s
  | f :: rest =>
    onlyIfR (s.selvUp && s.cclk) (fun s =>
      let sent (s : State) : State := { s with selv := { s.selv with seedFrames := rest, seedBusy := !rest.isEmpty } }
      let r : RxFrame := ⟨s.intake.nextId, 8, f, f.length + 4, nowStamp s⟩
      if fifoSize < fifoHeld s 8 + r.len then .next (sent s)
      else
        let ds := deliveries s r
        engAccess s (deliverRanges s ds) fun s => deliverAll r ds (nextFrame (sent s))) s

/-- SEED_DEADLINE (R488): a seed FRAME_END has not arrived within seed_deadline of the injection's start. -/
def execSeedDeadline (i : Fin 4) (s : State) : Res State :=
  match (pairsOf s)[i.val]?, (pairSt s i).seedStarts.head? with
  | some p, some t => onlyIf (s.selvUp && !s.bit Reg.selvStatus 1 && decide (p.seedDeadline < selvTime s - t)) (seedJudged i false) s
  | _, _ => .next s

/-! ### Deadline monitors (R494, R495) -/

/-- An event of monitor m, with its action, for the pairs of its partition. -/
def monitorEvent (c : Nat) (d : Monitor) (s : State) : State := selvEvent c d.action (pairsOfPart s d.part) s

/-- DEADLINE of monitor m: it counts a miss. -/
def monitorMiss (m : Nat) (d : Monitor) (s : State) : State := monitorEvent 0x14 d (s.satF (Reg.selvDm m) 16 16)

/-- A start of monitor m is recorded; the sixteenth pending is an event DEADLINE. -/
def monitorStart (m : Nat) (d : Monitor) (s : State) : State :=
  let s := s.putB (Reg.selvDm m) 0 true
  if 15 ≤ (startsOf s m).length then monitorMiss m d s else setStarts m (startsOf s m ++ [selvTime s]) s

/-- An end event of monitor m: it retires the oldest pending start. A monitor in mode DEADLINE judges it once it is armed, which
it is from a start (R495). The state, and the event decided. -/
def monitorEnd (m : Nat) (s : State) : State × List SelvEv :=
  match monitor s m with
  | none => (s, [])
  | some d =>
    let ev (c : Nat) : SelvEv := ⟨c, d.action, pairsOfPart s d.part⟩
    if !mayArm s d || !s.bit (Reg.selvDm m) 0 then (s, [])
    else if d.mode = 2 then ({ s with selv := { s.selv with alive := Tab.set (fun _ => 0) s.selv.alive m (selvTime s) } }, [])
    else match startsOf s m with
      | [] => (s, [ev 0x16])
      | t :: l => (setStarts m l s, if selvTime s - t < d.minUs then [ev 0x15] else [])

/-- DM_START (R494): a commit to start_q. -/
def execDmStart (m : Fin 64) (s : State) : Res State :=
  let n := Tab.get (fun _ => 0) s.selv.startDue m
  match monitor s m with
  | none => .next s
  | some d =>
    onlyIf (s.selvUp && n != 0 && mayArm s d) (fun s =>
      monitorStart m d { s with selv := { s.selv with startDue := Tab.set (fun _ => 0) s.selv.startDue m (n - 1) } }) s

/-- DM_END (R494): a commit to end_q. -/
def execDmEnd (m : Fin 64) (s : State) : Res State :=
  let n := Tab.get (fun _ => 0) s.selv.endDue m
  onlyIf (s.selvUp && n != 0) (fun s =>
    let r := monitorEnd m { s with selv := { s.selv with endDue := Tab.set (fun _ => 0) s.selv.endDue m (n - 1) } }
    raiseAll r.2 r.1) s

/-- DEADLINE (R494, R495): the elapsed time of a monitor exceeds max_us. -/
def execDeadline (m : Fin 64) (s : State) : Res State :=
  match monitor s m with
  | none => .next s
  | some d =>
    if !s.selvUp || !mayArm s d then .next s
    else if d.mode = 2 then
      onlyIf (s.bit (Reg.selvDm m) 0 && decide (d.maxUs < selvTime s - Tab.get (fun _ => 0) s.selv.alive m)) (fun s =>
        monitorMiss m d { s with selv := { s.selv with alive := Tab.set (fun _ => 0) s.selv.alive m (selvTime s) } }) s
    else match startsOf s m with
      | [] => .next s
      | t :: l => onlyIf (decide (d.maxUs < selvTime s - t)) (fun s => monitorMiss m d (setStarts m l s)) s

/-! ### Acquiring records (R480) -/

/-- The input queue of channel A or B of a pair. -/
def Pair.inQ (p : Pair) (chB : Bool) : Nat := if chB then p.bQ else p.aQ

/-- A FRAME_END ends the monitors whose end queue is the input queue it came by (R494): the state, and the events decided. -/
def frameEnds (q : Nat) (s : State) : State × List SelvEv :=
  (List.range 64).foldl (fun (x : State × List SelvEv) m =>
    match monitor x.1 m with
    | none => x
    | some d => if d.endQ = q then ((monitorEnd m x.1).1, x.2 ++ (monitorEnd m x.1).2) else x) (s, [])

/-- The selvedge reads and releases the oldest record of an input queue; RESULT and FRAME_END records are taken by steps of
their own, and a malformed element of another kind by RESULT. -/
def acquire (i : Nat) (chB wantEnd : Bool) (s : State) : Res State :=
  match (pairsOf s)[i]? with
  | none => .next s
  | some p =>
    let q := p.inQ chB
    match qPeek s q with
    | none => .next s
    | some e =>
      onlyIfR (s.selvUp && s.cclk && (leAt e 0 1 == 2) == wantEnd) (fun s =>
        engAccess s [(.host, qHeadAddr s q, qEsize s q)] fun s =>
          let s := qTake q s
          if recordBad e then .next (selvCause 0x11 [i] s)
          else
            let r := readRecord s e
            if r.flags % 2 = 1 then .next (seedRecord i p chB r s)
            else
              let (s, es) := if r.frameEnd then frameEnds q s else (s, [])
              .next (compareRecord i p chB r es s)) s

/-- RESULT (R480 to R485). -/
def execResult (i : Fin 4) (b : Bool) (s : State) : Res State := acquire i b false s
/-- FRAME_END (R480 to R488, R494). -/
def execFrameEnd (i : Fin 4) (b : Bool) (s : State) : Res State := acquire i b true s

/-- A record of a frame has waited for its partner longer than pair_window. -/
def overdue (s : State) (p : Pair) (f : Frame) : Bool := (f.as ++ f.bs).any fun r => decide (p.window < selvTime s - r.arrived)

/-- A frame has nothing left to wait for but records that the frame store had no room for, and pair_window has passed since
(R482, log entry 77). -/
def stranded (s : State) (p : Pair) (f : Frame) : Bool :=
  f.as.isEmpty && f.bs.isEmpty && match f.lostAt with | none => false | some t => decide (p.window < selvTime s - t)

/-- PAIR_WINDOW_EXPIRY (R482, R484): MISSING; the frame it concerns is judged. A frame that waits only for discarded records is
judged without the event. The timer stands while PF_N is low (R478). -/
def execPairWindowExpiry (i : Fin 4) (s : State) : Res State :=
  match (pairsOf s)[i.val]? with
  | none => .next s
  | some p =>
    match (pairSt s i).frames.find? fun f => overdue s p f || stranded s p f with
    | none => .next s
    | some f =>
      onlyIf (s.selvUp && !s.bit Reg.selvStatus 1) (fun s =>
        if overdue s p f then
          decideFrame i p f.num (fun _ => true) [⟨0x11, causeAction s 0x11, [i.val]⟩] (putFrame i (f.barBy 0x11) s)
        else decideFrame i p f.num (fun _ => true) [] s) s

/-! ### Self-test (R496, R497) -/

/-- Slots of a round. -/
def testSlots : Nat := 547

/-- What the checker of a slot belongs to, the slots taken in the order of R496's table (log entry 78). -/
inductive SlotOf where
  | none
  | core (k : Nat)
  | array (k a : Nat)
  | chan (c : Nat)
  | link (l : Nat)
  deriving DecidableEq, Repr

def slotOf (n : Nat) : SlotOf :=
  if n < 102 then .none
  else if n < 150 then .chan (n - 102)
  else if n < 151 then .none
  else if n < 199 then .chan (n - 151)
  else if n < 205 then .link (n - 199)
  else if n < 461 then .array ((n - 205) / 8) ((n - 205) / 2 % 4)
  else if n < 493 then .core (n - 461)
  else if n < 541 then .chan (n - 493)
  else .link (n - 541)

/-- A core is powered down or in NAP. -/
def coreAsleep (s : State) (k : Nat) : Bool := decide (2 ≤ corePower s k)

/-- The checker of a slot is active: its slot is not skipped (R497). -/
def slotActive (s : State) (n : Nat) : Bool :=
  match slotOf n with
  | .none => true
  | .core k => !coreAsleep s k
  | .array k _ => !coreAsleep s k
  | .chan c => s.fld (Reg.memStatus c) 0 2 != 3
  | .link l => linkUp s l

/-- The test of a checksum checker whose array's drain registers are not free freezes the arrays for 2 CCLK (R497). -/
def slotFreeze (n : Nat) (s : State) : State :=
  match slotOf n with
  | .array k a => if s.bit (Reg.arrayTq0 k + 0x10 * a) 3 then s.satAdd (Reg.arrayFrzTq k) 2 else s
  | _ => s

/-- What comes of a slot: the checker of one that is not active is not tested. -/
def slotResult (s : State) (n : Nat) (r : SlotResult) : SlotResult := if slotActive s n then r else .skipped

/-- SELFTEST_ROUND (R496). -/
def execSelftestRound (s : State) : Res State :=
  onlyIf (s.selvUp && s.selv.slot.isNone)
    (fun s => { s with selv := { s.selv with slot := some 0, skips := 0, slotFailed := false, startedAfter := true } }) s

/-- SELFTEST_SLOT (R497): the checker of the current slot answers, is skipped, or answers wrong. A round in which a slot
failed ends without being complete. The sender gives the slot when the drain registers are free, or 100 µs after its start. -/
def execSelftestSlot (r : SlotResult) (s : State) : Res State :=
  match s.selv.slot with
  | none => .next s
  | some n =>
    onlyIf s.selvUp (fun s =>
      let s := match slotResult s n r with
        | .answered => slotFreeze n s
        | .skipped => ({ s with selv := { s.selv with skips := s.selv.skips + 1 } }).sat Reg.selvStSkipped
        | .wrong => selvEvent 0x23 0 [] { slotFreeze n s with selv := { s.selv with slotFailed := true } }
      if n + 1 < testSlots then { s with selv := { s.selv with slot := some (n + 1) } }
      else if s.selv.slotFailed then { s with selv := { s.selv with slot := none, lastRoundFull := false } }
      else
        let s := s.putF Reg.selvRounds 0 16 (s.fld Reg.selvRounds 0 16 + 1)
        { s with selv := { s.selv with
          slot := none, lastRoundFull := s.selv.skips == 0, roundAfter := s.selv.roundAfter || s.selv.startedAfter } }) s

/-! ### Meters and windows (R491 to R493) -/

/-- One meter at the end of a window: a partition that waited in overrun_windows consecutive windows raises BUDGET. -/
def meterWindow (c : Nat) (s : State) (p : Nat) : State :=
  let k := meterKey c p
  let w := if Tab.get (fun _ => false) s.selv.waitNow k then Tab.get (fun _ => 0) s.selv.waits k + 1 else 0
  let spent := p < 8 && match s.selv.safety with | none => false | some f => decide (f.overrunWindows ≤ w ∧ w ≠ 0)
  let s := { s with selv := { s.selv with
    spent := Tab.set (fun _ => 0) s.selv.spent k 0
    waitNow := Tab.set (fun _ => false) s.selv.waitNow k false
    waits := Tab.set (fun _ => 0) s.selv.waits k (if spent then 0 else w) } }
  if spent then selvCause 0x1C (pairsOfPart s p) s else s

/-- BANDWIDTH_WINDOW (R491, R492): a 1 µs window of the meters of channel c begins. -/
def execBandwidthWindow (c : Fin 48) (s : State) : Res State :=
  onlyIf s.selvUp (fun s => (List.range 9).foldl (meterWindow c) s) s

/-- INTAKE_WINDOW_SWITCH (R493). -/
def execIntakeWindowSwitch (s : State) : Res State :=
  match s.selv.safety with
  | none => .next s
  | some f =>
    onlyIf (s.selvUp && s.up && !f.windows.isEmpty)
      (fun s => { s with intake := { s.intake with window := (s.intake.window + 1) % f.windows.length } }) s

/-- TELEGRAM_PERIOD (R477, R499). -/
def execTelegramPeriod (s : State) : Res State := .next (telegram false s)

/-! ### The mailbox (R500 to R502) -/

/-- GET_CHALLENGE (R500): a fresh non-zero challenge, a free value. -/
def execGetChallenge : State → Res State :=
  hostWrite .selvedge fun s => onlyIf s.selvUp (fun s =>
    let w := Config.freeWord s.freeCtr
    let w := if w = 0 then 1 else w
    { s.tickFree.wr Reg.selvMbxRsp0 w with selv := { s.selv with challenge := some w, newEvent := false } }) s

/-- The condition of CLEAR that fails first, 0 when none does (R500). After any fatal cause the answer is FATAL, since SAFE_N
then stays low until COLD_N (R477). -/
def clearResult (s : State) : Nat :=
  let cause := s.fld Reg.selvStatus 16 16
  let pairs := (pairsOf s).zipIdx
  if !isSafe s then 1
  else if s.bit Reg.selvStatus 2 || s.selv.fatalSeen then 2
  else if s.selv.challenge ≠ some (s.rd Reg.selvMbxArg0) then 3
  else if (s.rd Reg.selvMbxArg1).toNat ≠ cause then 4
  else if !s.selv.imageSince && (cause == 1 || cause == 2) then 5
  else if s.bit Reg.selvStatus 1 || s.clk != .running || decide (100 < s.selv.dieTemp.toInt) then 6
  else if !s.selv.roundAfter then 7
  else if pairs.any (fun e => let x := pairSt s e.2
      !(x.restartedA && x.restartedB && ptEnabled s e.1.a && ptEnabled s e.1.b)) then 8
  else if pairs.any (fun e => decide ((pairSt s e.2).seedRun < e.1.seedPasses)) then 9
  else if s.selv.newEvent then 10
  else 0

/-- CLEAR (R475, R476, R500, R501): the safe state ends when every condition holds, and no cause is latched any more; the
challenge is spent. -/
def execClearSafe : State → Res State :=
  hostWrite .selvedge fun s => onlyIf s.selvUp (fun s =>
    let r := clearResult s
    let s := { s.putF Reg.selvMbxStatus 8 4 r with selv := { s.selv with challenge := none } }
    if r = 0 then
      let s := (((s.putB Reg.selvStatus 0 false).putF Reg.selvStatus 16 16 0).wr Reg.selvCausesSeen0 0).wr Reg.selvCausesSeen1 0
      selvSync { s with pins := { s.pins with safeN := .released } }
    else s) s

/-- ENTER_SAFE (R502). -/
def execEnterSafe : State → Res State := hostWrite .selvedge fun s => onlyIf s.selvUp (selvEvent 0x05 0 []) s

/-- CHALLENGE_EXPIRY (R500). -/
def execChallengeExpiry (s : State) : Res State :=
  onlyIf s.selvUp (fun s => { s with selv := { s.selv with challenge := none } }) s

end Sys2Proof.Machine
end

