-- ==== Sys2Proof/Machine/Link.lean ====
section
/-! DEFINITION. The commands of the Olran links (14_chip_chain.md R434 to R466): training, flits, bolts, budgets, and the
distribution of time and picks. Times and phases' limits are left to the sender of the commands. -/

namespace Sys2Proof.Machine

/-! ### Enabling, draining and training (R436 to R439, R461) -/

/-- An ENABLED link starts training from SIGNAL. -/
def trainStart (l : Nat) (s : State) : State := setPhase l (startPhase s) (s.putF (Reg.linkStatus l) 0 2 1)

/-- LINK_ENABLE (R55, R436). -/
def execLinkEnable (l : Fin 6) : State → Res State :=
  hostWrite .fabric fun s =>
    match enableReq (linkState s l) (s.bit (Reg.linkStatus l) 2) with
    | .start => .next (trainStart l s)
    | .latch => .next (s.putB (Reg.linkStatus l) 2 true)
    | _ => .next s

/-- LINK_DISABLE (R55, R461): an ENABLED link drains. -/
def execLinkDisable (l : Fin 6) : State → Res State :=
  hostWrite .fabric fun s =>
    match disableReq (linkState s l) (s.bit (Reg.linkStatus l) 2) with
    | .drain =>
      let s := s.putF (Reg.linkStatus l) 0 2 2
      .next (endDue l (if linkUp s l then s else setPhase l .down s))
    | .unlatch => .next (s.putB (Reg.linkStatus l) 2 false)
    | _ => .next s

/-- LINK_RETRAIN (R439): an UP link falls to DOWN and trains. -/
def execLinkRetrain (l : Fin 6) : State → Res State := hostWrite .fabric fun s => onlyIf (linkUp s l) (linkFall l) s

/-- LINK_DRAIN_COMPLETE (R56, R461): END is acknowledged, or the bound has come; bolts still unacknowledged are discarded
and counted. -/
def execLinkDrainComplete (l : Fin 6) (s : State) : Res State :=
  onlyIf (s.cclk && linkState s l == 2) (fun s =>
    let n := ((link s l).tx.filter fun m => m.vc = 0).length
    let s := linkLeave l .down (s.satAdd (Reg.linkTxLost l) n)
    let s := setLink s l { link s l with tx := [], ending := false }
    if s.bit (Reg.linkStatus l) 2 then trainStart l (s.putB (Reg.linkStatus l) 2 false)
    else s.putF (Reg.linkStatus l) 0 2 0) s

/-- What ALIGN finds: the width to come up on, and whether it is narrowed; none restarts training (R437). -/
def alignWidth (s : State) (l : Nat) (g : LaneGroup) : Option (Nat × Bool) :=
  let cfg := s.fld (Reg.linkCfg l) 0 2
  let auto := s.bit (Reg.linkCfg l) 2
  if cfg = 1 then (match g with | .high => none | _ => some (1, false))
  else if cfg = 2 then (match g with | .low => none | _ => some (2, false))
  else match g with
    | .all => some (0, false)
    | .low => if auto then some (1, true) else none
    | .high => if auto then some (2, true) else none

/-- In PEER this end sends its chip index and link number (R436). -/
def sendPeer (l : Nat) (s : State) : State := s.emit (.peer l s.warp.chip s.warp.image)

/-- Flits that the receive buffers of the virtual channels hold (R440's table). -/
def fullCredit : List Nat := [128, 32, 64, 8]

/-- PEER: what the peer sends is compared with the CHAIN section (R438). -/
def comparePeer (l : Nat) (i : TrainInfo) (s : State) : State :=
  let s := s.wrN (Reg.linkPeer l) (i.peerChip.toNat + 16 * i.peerLink.toNat + 128)
  let p := s.warp.peers.getD l (0xFF, 0xFF)
  if p.1 ≠ i.peerChip.toNat ∨ p.2 ≠ i.peerLink.toNat ∨ i.peerNoImage then
    setPhase l .mismatch (s.putB (Reg.linkStatus l) 8 true)
  else (setPhase l .credit s).emit (.grant l fullCredit)

/-- The link comes UP with the peer's full buffer credit (R436, R440, R451). -/
def linkCome (l : Nat) (s : State) : State :=
  let s := setPhase l .up s
  setLink (s.putB (Reg.linkStatus l) 10 true) l { link s l with credit := fullCredit, owed := [0, 0, 0, 0] }

/-- LINK_TRAIN_PHASE_DONE (R436 to R438). -/
def execLinkTrainPhaseDone (l : Fin 6) (i : TrainInfo) (s : State) : Res State :=
  onlyIf (s.tclk && linkState s l == 1) (fun s =>
    match (link s l).phase with
    | .signal => setPhase l .align s
    | .align =>
      match alignWidth s l i.lanes with
      | none => setPhase l .waiting s
      | some (w, nar) =>
        setPhase l .fec (((s.putF (Reg.linkStatus l) 5 2 w).putB (Reg.linkStatus l) 7 nar).putB (Reg.linkStatus l) 9 i.laneRev)
    | .fec => sendPeer l (setPhase l .peer s)
    | .peer => comparePeer l i s
    | .credit => linkCome l s
    | _ => s) s

/-- LINK_TRAIN_TIMEOUT (R437): a phase exceeds its limit. -/
def execLinkTrainTimeout (l : Fin 6) (s : State) : Res State :=
  let runs := match (link s l).phase with | .signal => true | .align => true | .fec => true | .peer => true | .credit => true | _ => false
  onlyIf (s.tclk && linkState s l == 1 && runs) (setPhase l .waiting) s

/-- LINK_TRAIN_RETRY (R437). -/
def execLinkTrainRetry (l : Fin 6) (s : State) : Res State :=
  onlyIf (s.tclk && linkState s l == 1 && (link s l).phase == .waiting) (setPhase l .signal) s

/-- PEER_RETRY (R438): PEER is repeated. -/
def execPeerRetry (l : Fin 6) (i : TrainInfo) (s : State) : Res State :=
  onlyIf (s.tclk && linkState s l == 1 && (link s l).phase == .mismatch) (fun s => comparePeer l i (sendPeer l s)) s

/-- LINK_SIGNAL_LOSS (R439). -/
def execLinkSignalLoss (l : Fin 6) (s : State) : Res State := onlyIf (s.up && linkUp s l) (linkFall l) s

/-- LINK_IDLE_TIMEOUT (R439). -/
def execLinkIdleTimeout (l : Fin 6) (s : State) : Res State := onlyIf (s.tclk && linkUp s l) (linkFall l) s

/-- END (R439, R461): the peer ends its drain; this side falls when the peer stops, which LINK_SIGNAL_LOSS or
LINK_IDLE_TIMEOUT tells. -/
def execEndMsg (l : Fin 6) (s : State) : Res State :=
  onlyIf (s.tclk && linkUp s l) (fun s => msgTaken l 3 (setLink s l { link s l with peerEnd := true })) s

/-! ### Flits (R435, R440, R441) -/

/-- A flit of a bolt joins the bolt being received; its last completes it. -/
def takeBoltFlit (f : Flit) (l : Nat) (s : State) : State :=
  let x := link s l
  let part : Option RxBolt :=
    if f.som then some ⟨f.msgnum.toNat, 1, fit 224 f.body⟩
    else x.rxPart.map fun b => { b with flits := b.flits + 1, bytes := b.bytes ++ fit 224 f.body }
  match part, f.eom with
  | some b, true => setLink (s.sat (Reg.linkRxBolts l)) l { x with rxPart := none, rxBolts := x.rxBolts ++ [b] }
  | p, _ => setLink s l { x with rxPart := p }

/-- FLIT_RECEIVE (R435, R440, R441): the flit is checked; a good one gives its acknowledgement and credits, and a data flit
in sequence enters the buffer of its channel. The messages of channels other than BOLT are commands of their own, by which
their flits leave the buffer. -/
def execFlitReceive (l : Fin 6) (f : Flit) (s : State) : Res State :=
  onlyIf (s.tclk && linkUp s l) (fun s =>
    if f.bad then
      let s := s.sat (Reg.linkCrcErr l)
      setLink s l { link s l with nak := true, ackDue := true }
    else
      let s := if f.corrected then s.sat (Reg.linkFecCorr l) else s
      let x := link s l
      let s := setLink s l { x with credit := mapAt x.credit f.cvc fun n => n + f.credits.toNat }
      let s := acked l f.ackseq.toNat s
      let s := if f.nak then replayAll l s else s
      let x := link s l
      if !f.data || x.phase != .up then s
      else if f.fseq.toNat ≠ x.rxNext then setLink s l { x with ackDue := true }
      else
        let s := setLink s l { x with rxNext := (x.rxNext + 1) % 4096, nak := false, ackDue := true }
        if f.vc = 0 then takeBoltFlit f l s else bufferFlit l f.vc f.som f.eom s) s

/-- FLIT_TRANSMIT (R440, R453, R462): the next flit of a channel that holds a credit and has no channel before it. -/
def execFlitTransmit (l : Fin 6) (vc : Fin 4) (s : State) : Res State :=
  let x := link s l
  match nextMsg s x vc with
  | none => .next s
  | some i =>
    match x.tx[i]? with
    | none => .next s
    | some m => onlyIf (s.tclk && linkUp s l && vcReady s x vc && vcFirst s x vc) (sendFlit l i m) s

/-- REPLAY_TIMEOUT (R439, R441). -/
def execReplayTimeout (l : Fin 6) (s : State) : Res State := onlyIf (s.tclk && linkUp s l) (replayAll l) s

/-! ### Bolts (R443 to R451) -/

/-- e2e of a bolt: CRC-32 over header bytes 0x00 to 0x2F, flags taken as 0, and the payload. -/
def boltCrc (b : List Byte) (len : Nat) : Nat := crc32 (slice b 0 5 ++ [0] ++ slice b 6 0x2A ++ slice b 80 len)

/-- Replace bytes of a string from an offset. -/
def splice (b : List Byte) (o : Nat) (x : List Byte) : List Byte := b.take o ++ x ++ b.drop (o + x.length)

/-- payload_len of a bolt. -/
def payloadLen (b : List Byte) : Nat := leAt b 0x0C 4

/-- The element at the head of a transmit queue cannot be sent (R446). -/
def txBad (s : State) (q : Nat) (e : List Byte) : Bool :=
  let dst := leAt e 1 1
  let len := payloadLen e
  leAt e 0 1 != 1 || dst == s.warp.chip || 16 ≤ dst || (routeOf s dst).isNone || len % 8 != 0
    || decide (16304 < len) || decide (qEsize s q < 80 + len)

/-- The transmitter can take the element of a transmit queue now (R445). -/
def txTakes (s : State) (q : Nat) : Bool :=
  match qPeek s q with
  | none => false
  | some e => txBad s q e || match routeOf s (leAt e 1 1) with
    | some l => linkState s l == 1 && boltFree s l
    | none => false

/-- BOLT_TRANSMIT (R445, R446, R450, R453, R462, R466): the transmitter takes the element of the queue next in turn. -/
def execBoltTransmit (s : State) : Res State :=
  let n := s.chain.txq.length
  if !s.cclk || !s.pins.pfN then .next s
  else
    match ((List.range n).map fun i => (s.chain.turn + i) % n).find? fun i => txTakes s (s.chain.txq.getD i 0) with
    | none => .next s
    | some i =>
      let q := s.chain.txq.getD i 0
      if qCons s q ≠ 3 then oc 466
      else
        match qPeek s q with
        | none => .next s
        | some e => engAccess s (takeRange s q) fun s =>
          let s := qTake q { s with chain := { s.chain with turn := (i + 1) % n } }
          match txBad s q e, routeOf s (leAt e 1 1) with
          | false, some l =>
            let len := payloadLen e
            let seq := Tab.get (fun _ => 0) s.chain.seqs q
            let b := fit (80 + len) e
            let b := splice (splice (splice b 4 (natLe 1 s.warp.chip)) 8 (natLe 4 seq)) 0x16 (natLe 2 q)
            let b := splice b 0x30 (natLe 4 (boltCrc b len))
            let s := { s with chain := { s.chain with seqs := Tab.set (fun _ => 0) s.chain.seqs q ((seq + 1) % 2 ^ 32) } }
            .next (putTx l ⟨0, 80 + len, 0, none, .bolt l b, queuePart s q⟩ s)
          | _, _ => .next (s.sat Reg.chainTxBad)

/-- The oldest received bolt of link l is dealt with: its flits leave the buffer; `mark` when it was committed or sent on
(R440, R451). -/
def boltDone (l : Nat) (mark : Bool) (s : State) : State :=
  match (link s l).rxBolts with
  | [] => s
  | b :: rest =>
    let x := link s l
    oweCredit l 0 b.flits (setLink s l { x with
      rxBolts := rest, held := false, rxLast := if mark then some b.msgnum else x.rxLast })

/-- The source binding of a receive queue admits a chip (R447). -/
def rxBound (s : State) (q src : Nat) : Bool := s.chain.rxq.any fun b => b.1 == q && b.2.testBit src

/-- Commit a bolt to its queue (R447, R449). -/
def boltCommit (l q : Nat) (b : List Byte) (s : State) : State :=
  let len := payloadLen b
  let bad := boltCrc b len != leAt b 0x30 4
  let flags := fieldN (leAt b 5 1) 0 1 + (if bad then 2 else 0) + 4 * fieldN (leAt b 5 1) 2 6
  let b := splice (splice b 5 (natLe 1 flags)) 0x40 (natLe 16 (nowStamp s).toNat)
  let s := (engCommit q (b.take (80 + len)) s).2
  let s := if bad then
      { (s.sat (Reg.linkE2eErr l)) with selv := { s.selv with
        inbox := s.selv.inbox ++ [.e2e l (leAt b 4 1) (leAt b 0x16 2) (BitVec.ofNat 32 (leAt b 8 4)) q] } }
    else s
  boltDone l true s

/-- A bolt for this chip meets its queue: refused for size, closed, held while the queue is full, or committed (R448). -/
def boltPlace (l q : Nat) (b : List Byte) (s : State) : Res State :=
  if qState s q = 3 then .next (boltDone l false (s.sat (Reg.linkRxClosed l)))
  else if qEsize s q < 80 + payloadLen b then .next (boltDone l false (s.sat (Reg.linkRxTooLong l)))
  else if qState s q ≠ 1 then .next (boltDone l false ((s.sat (Reg.linkRxClosed l)).sat (Reg.queueRefused q)))
  else if qProd s q ≠ 3 then oc 466
  else if qFree s q = 0 then .next (setLink s l { link s l with held := true })
  else engAccess s (commitRange s q) fun s => .next (boltCommit l q b s)

/-- A resent bolt whose message number is not later than that of the last bolt taken (R451). -/
def boltDup (x : Link) (m : Nat) : Bool :=
  match x.rxLast with
  | none => false
  | some k => !decide (0 < (m + 2 ^ 24 - k) % 2 ^ 24 ∧ (m + 2 ^ 24 - k) % 2 ^ 24 < 2 ^ 23)

/-- BOLT_RECEIVE (R443, R447 to R451): the oldest bolt received on link l goes on to another chip or to its queue. -/
def execBoltReceive (l : Fin 6) (s : State) : Res State :=
  match (link s l).rxBolts with
  | [] => .next s
  | b :: _ =>
    if !s.cclk || (link s l).held then .next s
    else if boltDup (link s l) b.msgnum then .next (boltDone l false (s.sat (Reg.linkRxDup l)))
    else
      let dst := leAt b.bytes 1 1
      if dst = s.warp.chip then
        let q := leAt b.bytes 2 2
        if q < 1024 ∧ rxBound s q (leAt b.bytes 4 1) then boltPlace l q b.bytes s
        else .next (boltDone l false (s.sat (Reg.linkRxUnbound l)))
      else
        match (if dst < 16 then routeOf s dst else none) with
        | none => .next (boltDone l false (s.sat Reg.chainTxNoroute))
        | some out =>
          if linkState s out == 1 && boltFree s out then
            let len := min (payloadLen b.bytes) (b.bytes.length - 80)
            .next (boltDone l true (putTx out ⟨0, 80 + len, 0, none, .bolt out (b.bytes.take (80 + len)), none⟩ s))
          else .next s

/-- BOLT_HOLD_RELEASE (R448): the queue of the held bolt has a free slot, or has closed. -/
def execBoltHoldRelease (l : Fin 6) (s : State) : Res State :=
  match (link s l).rxBolts with
  | [] => .next s
  | b :: _ =>
    let q := leAt b.bytes 2 2
    if !s.cclk || !(link s l).held || (qState s q == 1 && qFree s q == 0) then .next s else boltPlace l q b.bytes s

/-- BOLT_HOLD_TIMEOUT (R448). -/
def execBoltHoldTimeout (l : Fin 6) (s : State) : Res State :=
  onlyIf (s.cclk && (link s l).held) (fun s => boltDone l false (s.sat (Reg.linkRxHoldDrop l))) s

/-! ### Budgets (R453, R492) -/

/-- Partition p has a message on link l that waits for the next window. -/
def linkWaits (x : Link) (p : Nat) : Bool := budgetSpent x p && x.tx.any fun m => m.sent == 0 && m.charge == some p

/-- overrun_windows of the SAFETY section, if one is applied. -/
def overrunLimit (s : State) : Option Nat := s.selv.safety.map fun f => f.overrunWindows

/-- One partition at the end of a window of link l: a waiting window counts, and overrun_windows of them in a row raise
BUDGET. -/
def windowOf (l : Nat) (s : State) (p : Nat) : State :=
  let x := link s l
  if linkWaits x p then
    let s := s.sat (Reg.linkBudgetWait l)
    let n := x.overrun.getD p 0 + 1
    if overrunLimit s = some n then
      selvCause 0x1C (pairsOfPart s p) (setLink s l { x with overrun := mapAt x.overrun p fun _ => 0 })
    else setLink s l { x with overrun := mapAt x.overrun p fun _ => n }
  else setLink s l { x with overrun := mapAt x.overrun p fun _ => 0 }

/-- BUDGET_WINDOW (R453, R492): a window of link l ends and the next begins. -/
def execBudgetWindow (l : Fin 6) (s : State) : Res State :=
  onlyIf s.cclk (fun s =>
    let s := (List.range 8).foldl (windowOf l) s
    setLink s l { link s l with spent := [0, 0, 0, 0, 0, 0, 0, 0] }) s

/-! ### Time over the chain (R455 to R457) -/

/-- The UP links but one. -/
def otherLinks (s : State) (l : Option Nat) : List Nat := (List.range 6).filter fun k => linkUp s k && l != some k

/-- Queue this chip's SYNC on links (R455). -/
def sendSync (ls : List Nat) (hops : Nat) (s : State) : State :=
  ls.foldl (fun s k => putTx k (ctrlMsg (.sync k 0 false 0 hops)) s) s

/-- SYNC_PERIOD (R455): every 1,024 TCLK on the position master. -/
def execSyncPeriod (s : State) : Res State := onlyIf (s.tclk && isMaster s) (fun s => sendSync (otherLinks s none) 0 s) s

/-- The trim a follower chooses to remove an offset: towards zero offset, within ±100 ppm; the rest is left open (R457). -/
def chainTrim (s : State) (off : Int) : State :=
  let m : Int := if off = 0 then 0 else Config.freeNat s.freeCtr % 429497
  (s.tickFree).wr Reg.timeTrim (BitVec.ofInt 32 (if 0 < off then -m else m))

/-- Correct the time base by a SYNC of offset `off` in ps (R457). -/
def syncCorrect (off : Int) (stepped : Bool) (s : State) : State :=
  if stepped || 1000000 ≤ off.natAbs then
    let t : Int := now32 s - off * 2 ^ 32 / 1000
    let s := { s with pos := { s.pos with tb := ofTb32 t.toNat } }
    let s := timeMoved (chainUnsync s)
    if off < 0 then judgeTimes s else s
  else
    let s := chainTrim s off
    let s := if 16000 < off.natAbs then chainUnsync s else s
    if off.natAbs ≤ 4000 then
      let n := s.chain.syncGood + 1
      let s := { s with chain := { s.chain with syncGood := n } }
      if 16 ≤ n then s.putB Reg.timeStatus 5 true else s
    else { s with chain := { s.chain with syncGood := 0 } }

/-- SYNC (R455, R457): taken from the time link by a chip whose time base is chain-bound, and sent on; any other is
discarded. -/
def execSync (l : Fin 6) (m : SyncMsg) (s : State) : Res State :=
  onlyIf (s.tclk && linkUp s l) (fun s => takeSync (msgTaken l 3 s)) s
where
  /-- The effect of the SYNC, if it is one this chip takes. -/
  takeSync (s : State) : State :=
    if !chainBound s || timeLink s != some l.val then s
    else
    let off := stampPs m.rx - (stampPs m.stamp + (s.rd (Reg.linkDelay l)).toInt)
    let stepped := match s.chain.lastStep with | none => false | some k => k != m.stepCount.toNat
    let s := s.wr (Reg.linkOffset l) (BitVec.ofInt 32 (max (-(2 ^ 31)) (min (2 ^ 31 - 1) off)))
    let s := { s with chain := { s.chain with lastStep := some m.stepCount.toNat, lastLock := m.lock } }
    let s := timeSync (syncCorrect off stepped s)
    sendSync (otherLinks s (some l.val)) (m.hops + 1) s

/-- SYNC_LOSS_TIMEOUT (R457). -/
def execSyncLossTimeout (s : State) : Res State := onlyIf (s.tclk && chainBound s) chainUnsync s

/-- DELAY_MEASURE_PERIOD (R456). -/
def execDelayMeasurePeriod (l : Fin 6) (s : State) : Res State :=
  onlyIf (s.tclk && linkUp s l) (putTx l (ctrlMsg (.delayReq l 0))) s

/-- DELAY_REQ (R456): t1 the sender's stamp, t2 the receive stamp. -/
def execDelayReq (l : Fin 6) (t1 t2 : TStamp) (s : State) : Res State :=
  onlyIf (s.tclk && linkUp s l) (fun s => putTx l (ctrlMsg (.delayResp l t1 t2 0)) (msgTaken l 3 s)) s

/-- DELAY_RESP (R456): d = ((t2 − t1) + (t4 − t3)) / 2 + asym, in ps. -/
def execDelayResp (l : Fin 6) (t1 t2 t3 t4 : TStamp) (s : State) : Res State :=
  onlyIf (s.tclk && linkUp s l) (fun s =>
    let d := ((stampPs t2 - stampPs t1) + (stampPs t4 - stampPs t3)) / 2 + signedN 16 (s.fld (Reg.linkCfg l) 16 16)
    (msgTaken l 3 s).wr (Reg.linkDelay l) (BitVec.ofInt 32 d)) s

/-! ### Picks over the chain (R93, R458 to R460) -/

/-- Send a PICK on links. -/
def sendPick (ls : List Nat) (m : PickMsg) (s : State) : State := ls.foldl (fun s k => putTx k (ctrlMsg (.pick k m)) s) s

/-- PICK_SEND (R458): at most one for a counter in 32 TCLK. -/
def execPickSend (n : Fin 4) (s : State) : Res State :=
  let p := pickOf s n
  let may := match p.sentAt with | none => true | some t => decide (t + 128 ≤ s.pos.now)
  onlyIf (s.tclk && distributes s n && p.toSend && may) (fun s =>
    let m : PickMsg := ⟨n, BitVec.ofNat 48 (pkCount s n), BitVec.ofNat 2 (s.fld (Reg.posPkStatus n) 0 2),
      s.bit (Reg.posPkStatus n) 2, p.changed, p.loadD, 0⟩
    sendPick (otherLinks s none) m (setPick s n { p with toSend := false, loadD := none, sentAt := some s.pos.now })) s

/-- The events of counter n follow a change by `d` of more than one pick: an EACH_N event counts the change, a target it lands
on comes due, and others are judged for being past (R459). -/
def evsJumped (n : Nat) (d : Int) (s : State) : State :=
  (evsOn s n).foldl (fun s v =>
    if evRepeat s v = 2 then evCount d.natAbs v s
    else if (eventOf s v).target = signed48 (pkCount s n) ∧ (evDir s v = 2 ∨ evDir s v = if 0 < d then 0 else 1) then evMet v s
    else judgePick v s) s

/-- Counter n in CHAIN mode changes by `d` picks to `count` at the master's stamp: it wraps as the master's does (R69, R598). -/
def pickMove (n : Nat) (d : Int) (count : Nat) (t : TStamp) (s : State) : State :=
  if d = 0 then s
  else
    let wrap := signed48 (pkCount s n) + d ≠ signed48 count
    let s := setPkCount s n count
    let s := if wrap then s.putB (Reg.posPkStatus n) 5 true else s
    let s := (s.wrQ (Reg.posPkLastT1 n) 4 (s.rdQ (Reg.posPkLastT0 n) 4)).wrQ (Reg.posPkLastT0 n) 4 t.toNat
    setPick s n { pickOf s n with changes := min 2 ((pickOf s n).changes + 1) }

/-- Apply a PICK to counter n (R93, R459, R460). -/
def pickTake (n : Nat) (m : PickMsg) (s : State) : State :=
  let old := pkCount s n
  let s := (s.putF (Reg.posPkStatus n) 0 2 m.dir.toNat).putB (Reg.posPkStatus n) 2 m.unref
  match m.load with
  | some l =>
    let mid := wrapN 48 ((m.count.toNat : Int) - l.toInt)
    let d := signed48 (wrapN 48 ((mid : Int) - old))
    let s := pickMove n d mid m.stamp s
    let s := (evsOn s n).foldl (fun s v => if evRepeat s v = 2 ∧ d ≠ 0 then evCount d.natAbs v s else s) s
    let s := setPkCount (setPick s n { pickOf s n with changes := 0 }) n m.count.toNat
    gridRefLoad n (evsLoaded n l.toInt s)
  | none =>
    let d := signed48 (wrapN 48 ((m.count.toNat : Int) - old))
    let s := pickMove n d m.count.toNat m.stamp s
    if d = 0 then s else if d.natAbs = 1 then evsChanged n (decide (0 < d)) s else evsJumped n d s

/-- The instant at which a PICK takes effect, in units of 2⁻³² ns: its stamp and the delay of the POS section (R93). -/
def pickInstant (s : State) (m : PickMsg) : Nat := stamp16 m.stamp * 2 ^ 16 + s.warp.pos.delay * 2 ^ 32

/-- PICK (R458 to R460): taken from the time link and sent on; one that comes after its instant is applied at once, and one
that comes on another link is discarded. -/
def execPick (l : Fin 6) (m : PickMsg) (s : State) : Res State :=
  onlyIf (s.tclk && linkUp s l) (fun s => takePick (msgTaken l 3 s)) s
where
  /-- The effect of the PICK, if it is one this chip takes. -/
  takePick (s : State) : State :=
    if timeLink s != some l.val then s
    else
    let s := sendPick (otherLinks s (some l.val)) { m with hops := m.hops + 1 } s
    let n := m.counter.val
    if !pkChain s n then s
    else if pickInstant s m < now32 s then pickTake n m (s.sat Reg.chainPickLate)
    else setPick s n { pickOf s n with sched := (pickOf s n).sched ++ [m] }

/-- PICK_APPLY (R93, R459): the oldest PICK waiting for counter n takes effect at its instant. -/
def execPickApply (n : Fin 4) (s : State) : Res State :=
  match (pickOf s n).sched with
  | [] => .next s
  | m :: rest =>
    onlyIf (s.tclk && pkChain s n && decide (pickInstant s m ≤ now32 s))
      (fun s => pickTake n m (setPick s n { pickOf s n with sched := rest })) s

end Sys2Proof.Machine
end

