-- ==== Sys2Proof/Machine/Warp.lean ====
section
/-! DEFINITION. Warp images and partitions of 02_warp_and_power_up.md: the loader, the section bodies given in the other
chapters, and the requests to a partition (R39 to R64, R113, R183 to R187, R220 to R222, R384, R503 to R505, R594). -/

namespace Sys2Proof.Machine

/-! ### Partitions: start and drain (R55 to R59) -/

/-- The cores of partition n. -/
def partCores (s : State) (n : Nat) : List Nat := bitsOf 32 (partEntry s n).coreMask
/-- The queues of partition n. -/
def partQueues (s : State) (n : Nat) : List Nat :=
  (List.range (partEntry s n).queueCount).map fun i => (partEntry s n).queueFirst + i
/-- The stream contexts of partition n. -/
def partCtxs (s : State) (n : Nat) : List Nat :=
  (List.range (partEntry s n).ctxCount).map fun i => (partEntry s n).ctxFirst + i

/-- State of partition n, as GLOBAL_PT_STATUSn.state. -/
def ptState (s : State) (n : Nat) : Nat := s.fld (Reg.globalPtStatus n) 0 2

/-- An OFF queue starts with its partition. -/
def startQueue (q : Nat) (s : State) : Res State :=
  if qState s q != 0 then .next s
  else match ringFault s q with
    | some r => oc r
    | none => .next (qStart q s)

/-- The buckets of a context are full when its partition becomes ENABLED (R120), in millibits. -/
def fillBucket (x : Nat) (s : State) : State :=
  if (ctxOf s x).kind = .unused then s else setCtx s x { ctxOf s x with tokens := (ctxOf s x).burst * 1024 * 8 * 1000 }

/-- Partition n becomes ENABLED: queues empty, buckets full, grids opened, cores at their entries, transmit sequence
numbers from 0 (R54, R58, R120, R139, R445). -/
def ptStart (n : Nat) (s : State) : Res State :=
  andThen (foldRes startQueue (partQueues s n) (s.putF (Reg.globalPtStatus n) 0 2 1)) fun s =>
    let s := (partCtxs s n).foldl (fun s x => fillBucket x s) s
    let s := gridsStart n s
    let s := { s with chain := { s.chain with seqs := s.chain.seqs.filter fun (e : Nat × Nat) => queuePart s e.1 ≠ some n } }
    let s := (partCores s n).foldl (fun s k => if coreState s k = 0 then coreStart k 0 1 s else s) s
    .next (pairEnter n s)

/-- A drain of partition n begins: admission stops, its cores and queues drain (R57, R59, R427). An enable that was pending on
one of its cores or queues is cleared: DESIGN CHOICE, log entry 73, R57 does not say. -/
def ptDrainBegin (n : Nat) (s : State) : State :=
  let s := s.putF (Reg.globalPtStatus n) 0 2 2
  let s := (partCores s n).foldl (fun s k =>
    let s := s.putB (Reg.coreStatus k) 2 false
    if coreState s k = 1 then coreDrainBegin k s else s) s
  let s := (partQueues s n).foldl (fun s q =>
    let s := s.putB (Reg.queueStatus q) 2 false
    if qState s q = 1 then qLeave q s else s) s
  gridsShow n (embDrain n (pairLeave n s))

/-- PT_ENABLE (R55, R58): an OFF partition starts. The GLOBAL block works during a hold (R533). An enable of the partition that
a partial image names is taken also while that image is APPLYING: DESIGN CHOICE, log entry 73, R63 does not say. -/
def execPtEnable (n : Fin 8) : State → Res State :=
  hostWrite .held fun s =>
    match enableReq (ptState s n) (s.bit (Reg.globalPtStatus n) 2) with
    | .start => ptStart n s
    | .latch => .next (s.putB (Reg.globalPtStatus n) 2 true)
    | _ => .next s

/-- PT_DISABLE (R55, R57, R59): an ENABLED partition drains. -/
def execPtDisable (n : Fin 8) : State → Res State :=
  hostWrite .held fun s =>
    match disableReq (ptState s n) (s.bit (Reg.globalPtStatus n) 2) with
    | .drain => .next (ptDrainBegin n s)
    | .unlatch => .next (s.putB (Reg.globalPtStatus n) 2 false)
    | _ => .next s

/-- The cores of partition n have finished, and no frame admitted for it waits for insertion. -/
def ptQuiet (s : State) (n : Nat) : Bool :=
  (partCores s n).all (fun k => coreState s k != 1 && coreState s k != 2) && s.intake.frames.all fun f => f.part != n

/-- The queues of a drained partition are flushed and OFF (R57, R178). -/
def ptFlush (n : Nat) (s : State) : State :=
  (partQueues s n).foldl (fun s q => if qState s q = 2 then (qFlush q s).putF (Reg.queueStatus q) 0 2 0 else s) s

/-- PT_DRAIN_COMPLETE (R56, R57, R58). -/
def execPtDrainComplete (n : Fin 8) (s : State) : Res State :=
  onlyIfR (s.cclk && ptState s n == 2 && ptQuiet s n) (fun s =>
    let s := ptFlush n s
    if s.bit (Reg.globalPtStatus n) 2 then ptStart n (s.putB (Reg.globalPtStatus n) 2 false)
    else .next (gridsShow n (s.putF (Reg.globalPtStatus n) 0 2 0))) s

/-! ### The image (R39 to R44) -/

/-- A section of an image: its type, its partition field and its body. -/
structure Section where
  type : Nat
  part : Nat
  body : List Byte
  deriving DecidableEq, Repr

/-- What reading the sections of an image gives: the rule that puts it outside contract, or the sections. -/
inductive SecRes where
  | outside (rule : Nat)
  | ok (l : List Section)
  deriving DecidableEq, Repr

/-- Read `n` sections, which must be followed by the pad and the trailer, eight bytes (R43, R44). -/
def readSections : Nat → List Byte → SecRes
  | 0, bs => if bs.length = 8 then .ok [] else .outside 43
  | n + 1, bs =>
    if bs.length < 16 + 8 then .outside 43
    else
      let len := leAt bs 4 4
      let type := leAt bs 0 2
      if type = 0 ∨ 0xF < type ∨ len % 8 ≠ 0 ∨ bs.length < 16 + len + 8 then .outside 44
      else match readSections n (bs.drop (16 + len)) with
        | .outside r => .outside r
        | .ok l => .ok (⟨type, leAt bs 8 1, slice bs 16 len⟩ :: l)

/-- The header of an image is outside contract (R43); `part` is GLOBAL_WARP_CTRL.partial. -/
def headerOutside (img : List Byte) (part : Bool) : Bool :=
  let kind := leAt img 0x0A 2
  leAt img 0 4 != 0x50524157 || leAt img 4 2 != 0x0100 || leAt img 6 2 != 64 || leAt img 0x0C 2 != 0x00B1
    || leAt img 8 2 == 0 || decide (4096 < leAt img 8 2) || decide (1 < kind) || (kind == 1) != part
    || decide (15 < leAt img 0x0E 1) || decide ((if part then 0 else 32) < leAt img 0x10 2)
    || (!part && leAt img 0x0F 1 != 0xFF)

/-- Section types a partial image may hold (R39). -/
def partialCapable (t : Nat) : Bool := [4, 5, 8, 9, 13, 14].contains t

/-- The sections of a full image break R48. -/
def fullOutside (l : List Section) : Bool :=
  [1, 2, 12].any (fun t => (l.filter fun x => x.type = t).length != 1)
    || l.any fun x => decide (1 < (l.filter fun y => y.type = x.type ∧ y.part = x.part).length)

/-- The sections of a partial image for partition n break R48. -/
def partialOutside (n : Nat) (l : List Section) : Bool := l.any fun x => !partialCapable x.type || x.part != n

/-- The records of a body of entries of `n` bytes; none when the body ends before its last entry is complete (R44). -/
def entriesFrom (n : Nat) : Nat → List Byte → List (List Byte)
  | 0, _ => []
  | k + 1, bs => bs.take n :: entriesFrom n k (bs.drop n)
/-- The entries of a body of entries of `n` bytes each. -/
def entries (n : Nat) (bs : List Byte) : Option (List (List Byte)) :=
  if bs.length % n = 0 then some (entriesFrom n (bs.length / n) bs) else none

/-- Apply a body of entries of `n` bytes each; a short last entry is outside contract (R44). -/
def applyEntries (n : Nat) (f : List Byte → State → Res State) (b : List Byte) (s : State) : Res State :=
  match entries n b with
  | none => oc 44
  | some l => foldRes f l s

/-! ### CHAIN and PARTITION -/

/-- CHAIN: chip index, chain length, position master, links of the chain and their peers. -/
def applyChain (chip : Nat) (b : List Byte) (s : State) : Res State :=
  if b.length < 32 then oc 44
  else
    let mask := leAt b 2 1
    let s := { s with warp := { s.warp with
      chip := chip, chainLength := leAt b 0 1, master := leAt b 1 1, linkEnable := mask
      peers := (List.range 6).map fun l => (leAt b (4 + 2 * l) 1, leAt b (5 + 2 * l) 1) } }
    .next ((List.range 6).foldl (fun s l => s.putF (Reg.linkStatus l) 0 2 (if mask.testBit l then 0 else 3)) s)

/-- A PARTITION entry (R40, R594). -/
def readPart (b : List Byte) : PartEntry :=
  if leAt b 0 1 = 0 then .unused
  else
    { used := true, role := leAt b 1 1, peer := leAt b 2 1, start := leAt b 3 1 == 1, coreMask := leAt b 4 4,
      channelMask := leAt b 8 8 % 2 ^ 48, queueFirst := leAt b 0x10 2, queueCount := leAt b 0x12 2,
      ctxFirst := leAt b 0x14 2, ctxCount := leAt b 0x16 2, memBase := leAt b 0x18 8, memSize := leAt b 0x20 8,
      storeBase := leAt b 0x28 8, storeSize := leAt b 0x30 8 }

/-- Two ranges of numbers overlap. -/
def regionsMeet (a n b m : Nat) : Bool := decide (0 < n ∧ 0 < m ∧ a < b + m ∧ b < a + n)

/-- Two partitions share a core, channel, queue or context (R45). -/
def partsMeet (x y : PartEntry) : Bool :=
  x.coreMask &&& y.coreMask != 0 || x.channelMask &&& y.channelMask != 0
    || regionsMeet x.queueFirst x.queueCount y.queueFirst y.queueCount
    || regionsMeet x.ctxFirst x.ctxCount y.ctxFirst y.ctxCount

/-- Some two partitions of a list share a resource. -/
def anyMeet : List PartEntry → Bool
  | [] => false
  | x :: l => l.any (partsMeet x) || anyMeet l

/-- A partition names a core or channel that BIST reported unavailable (R46). -/
def partUnavailable (s : State) (x : PartEntry) : Bool :=
  (bitsOf 32 x.coreMask).any (fun k => !s.bit Reg.globalCoreAvail k) || (bitsOf 48 x.channelMask).any fun c => !chanAvail s c

/-- A core takes what CORE_GROUP and CODE give a core without an entry (R183, R221). -/
def coreDefaults (k : Nat) (s : State) : State :=
  let s := [Reg.arrayCfg0 k, Reg.arrayCfg1 k, Reg.arrayCfg2 k, Reg.arrayCfg3 k, Reg.corePwr k].foldl (fun s a => s.wr a 0) s
  let s := ((List.range 8).foldl (fun s i => s.wr (Reg.coreWatch0 k + 4 * i) 0) s).wrQ (Reg.coreArg k) 2 0
  { s with warp := { s.warp with cores := Tab.set (fun _ => ⟨none, false⟩) s.warp.cores k ⟨none, false⟩ } }
/-- The entry, handler and exception configuration of a core without an ENTRY record (R221). -/
def entryDefaults (k : Nat) (s : State) : State :=
  ((s.wrQ (Reg.coreEntry k) 2 (localBase k)).wrQ (Reg.coreExcHandler k) 2 0).wr (Reg.coreExcCfg k) 0

/-- PARTITION: owned cores are OFF, the others UNUSED; the vector engine's coupling register follows CORE_GROUP. -/
def applyPartition (b : List Byte) (s : State) : Res State :=
  if b.length < 512 then oc 44
  else
    let l := (entriesFrom 64 8 b).map readPart
    if anyMeet (l.filter fun x => x.used) then oc 45
    else if l.any (partUnavailable s) then oc 46
    else
      let s := { s with warp := { s.warp with parts := l } }
      let s := (List.range 8).foldl (fun s n => s.putF (Reg.globalPtStatus n) 0 2 (if (partEntry s n).used then 0 else 3)) s
      .next ((List.range 32).foldl (fun s k =>
        let own := (corePart s k).isSome
        let s := (s.putF (Reg.coreStatus k) 0 2 (if own then 0 else 3)).putF (Reg.coreStatus k) 3 3 4
        if own then entryDefaults k (coreDefaults k s) else s) s)

/-! ### CHANNEL_MODE (R374, R384, R404) -/

/-- Base and slice of the linear regions of a CHANNEL_MODE body. -/
def readLinear (b : List Byte) : List (Nat × Nat) :=
  (List.range (leAt b 8 1)).map fun j => (leAt b (0x10 + 16 * j) 8, leAt b (0x18 + 16 * j) 8)

/-- A linear region breaks R404. -/
def linearBad (r : Nat × Nat) : Bool :=
  r.1 % (48 * 2 ^ 20) != 0 || r.2 == 0 || r.2 % 2 ^ 20 != 0 || decide (2 ^ 32 < r.2) || decide (2 ^ 32 < r.1 / 48 + r.2)

/-- Two linear regions of a list overlap (R374). -/
def linearsMeet : List (Nat × Nat) → Bool
  | [] => false
  | x :: l => l.any (fun y => regionsMeet x.1 (48 * x.2) y.1 (48 * y.2)) || linearsMeet l

/-- CHANNEL_MODE: modes of the available channels, and the linear regions. -/
def applyChannelMode (b : List Byte) (s : State) : Res State :=
  if b.length < 80 then oc 44
  else if 4 < leAt b 8 1 then oc 404
  else
    let lin := readLinear b
    if lin.any linearBad then oc 404
    else if linearsMeet lin then oc 374
    else
      let mask := leAt b 0 8
      let s := { s with warp := { s.warp with lin := lin } }
      .next ((List.range 48).foldl (fun s c =>
        if chanAvail s c then
          let m := if mask.testBit c then 1 else 0
          (s.putF (Reg.memStatus c) 0 2 m).putF (Reg.memStatus c) 2 1 m
        else s) s)

/-! ### CORE_GROUP (R183, R184) -/

/-- A number is a core of partition n. -/
def ownsCore (s : State) (n k : Nat) : Bool := decide (k < 32) && corePart s k == some n
/-- A number is a queue of partition n. -/
def ownsQueue (s : State) (n q : Nat) : Bool := decide (q < 1024) && queuePart s q == some n
/-- A number is a context of partition n. -/
def ownsCtx (s : State) (n x : Nat) : Bool := decide (x < 4096) && ctxPart s x == some n

/-- The watch slots of a CORE_GROUP entry, of which bit 15 enables one and [9:0] name its queue. -/
def entryWatch (b : List Byte) : List Nat := (List.range 8).map fun i => leAt b (0x10 + 2 * i) 2

/-- One CORE_GROUP entry: it binds its core and the queues of its enabled watch slots (R47, R183). -/
def applyCoreEntry (n : Nat) (b : List Byte) (s : State) : Res State :=
  let k := leAt b 0 1
  if !ownsCore s n k || (entryWatch b).any (fun x => x.testBit 15 && !ownsQueue s n (x % 1024)) then oc 47
  else
    let g := leAt b 1 1
    let mode := leAt b 2 1
    let s := (List.range 4).foldl (fun s a => s.wrN (Reg.arrayCfg0 k + 0x10 * a) (mode / 2 ^ a % 2)) s
    let s := (s.wrN (Reg.corePwr k) (leAt b 4 1 % 8 + 256 * leAt b 5 1)).wrQ (Reg.coreArg k) 2 (leAt b 8 8)
    let s := (List.range 8).foldl (fun s i =>
      s.wr (Reg.coreWatch0 k + 4 * i) (BitVec.ofNat 32 ((entryWatch b).getD i 0) &&& 0x83FF#32)) s
    let c : CoreCfg := ⟨if g = 0xFF then none else some g, leAt b 3 1 == 1⟩
    .next { s with warp := { s.warp with cores := Tab.set (fun _ => ⟨none, false⟩) s.warp.cores k c } }

/-- CORE_GROUP: in a partial image it replaces the entries of the partition (R187). -/
def applyCoreGroup (n : Nat) (b : List Byte) (s : State) : Res State :=
  applyEntries 32 (applyCoreEntry n) b ((partCores s n).foldl (fun s k => coreDefaults k s) s)

/-- Some group is used by cores of two quadrants or two partitions, or by more than 8 cores (R184). -/
def groupsBad (s : State) : Bool :=
  let mem := (List.range 32).filterMap fun k => (groupOf s k).map fun g => (g, k)
  mem.any (fun x => mem.any fun y => x.1 == y.1 && (x.2 / 8 != y.2 / 8 || corePart s x.2 != corePart s y.2))
    || mem.any fun x => decide (8 < (mem.filter fun y => y.1 = x.1).length)

/-! ### QUEUE (R185, R187, R595) -/

/-- A QUEUE entry names a consumer core, or cores that may produce, of another partition (R47). -/
def queueCoresBad (s : State) (n : Nat) (b : List Byte) : Bool :=
  (leAt b 6 1 == 1 && !ownsCore s n (leAt b 7 1))
    || (leAt b 3 1 == 1 && (bitsOf 32 (leAt b 0x10 4)).any fun k => !ownsCore s n k)

/-- One QUEUE entry: the queue is OFF. -/
def applyQueueEntry (n : Nat) (b : List Byte) (s : State) : Res State :=
  let q := leAt b 0 2
  let depth := leAt b 2 1
  let esize := leAt b 4 2
  let prod := leAt b 3 1
  let cons := leAt b 6 1
  if !ownsQueue s n q || queueCoresBad s n b then oc 47
  else if depth < 1 ∨ 16 < depth ∨ esize % 8 ≠ 0 ∨ esize < 8 ∨ 16384 < esize ∨ prod < 1 ∨ 3 < prod ∨ cons < 1 ∨ 3 < cons then oc 595
  else
    let s := s.wrN (Reg.queueCfg q) (depth + 2 ^ 8 * (esize / 8) + 2 ^ 20 * prod + 2 ^ 22 * cons + 2 ^ 24 * (leAt b 7 1 % 32))
    let s := (s.wrQ (Reg.queueBase q) 2 (leAt b 8 8)).wrN (Reg.queueProdMask q) (leAt b 0x10 4)
    .next ((s.wrN (Reg.queueIrq q) (leAt b 0x14 2 % 512 + 2 ^ 16 * leAt b 0x16 2)).putF (Reg.queueStatus q) 0 2 0)

/-- QUEUE: an owned queue without an entry is UNUSED. -/
def applyQueue (n : Nat) (b : List Byte) (s : State) : Res State :=
  applyEntries 32 (applyQueueEntry n) b ((partQueues s n).foldl (fun s q => s.putF (Reg.queueStatus q) 0 2 3) s)

/-! ### EMB (R407, R416, R430) -/

/-- A table entry. -/
def readEmbTab (b : List Byte) : EmbTab where
  partMask := leAt b 1 1
  dim := leAt b 2 2
  wFmt := leAt b 4 1
  slotValid := leAt b 6 1 % 16
  rows := leAt b 8 4
  hStride := leAt b 0xC 2
  wStride := leAt b 0xE 2
  nStride := leAt b 0x10 2
  touch := leAt b 0x18 8
  slots := (List.range 4).map fun v => (List.range 7).map fun i => leAt b (0x20 + 64 * v + 8 * i) 8

/-- One table entry: EMB_TABt_CUR and EMB_TABt_STATUS are loaded. -/
def applyTable (b : List Byte) (s : State) : Res State :=
  let t := leAt b 0 1
  let x := readEmbTab b
  let s := { s with emb := { s.emb with tabs := (s.emb.tabs.filter fun (e : Nat × EmbTab) => e.1 ≠ t) ++ [(t, x)] } }
  .next ((s.wrN (Reg.embTabCur t) (leAt b 5 1 % 4)).wrN (Reg.embTabStatus t) (x.slotValid + 16))

/-- EMB: request queues, sample queue and tables. -/
def applyEmb (b : List Byte) (s : State) : Res State :=
  let n := leAt b 0 2
  if b.length < 64 ∨ b.length < 64 + 288 * n then oc 44
  else
    let reqs := (List.range 8).map fun i => leAt b (8 + 2 * i) 2
    let smp := leAt b 2 2
    if reqs.any (fun q => q != 0xFFFF && (qCons s q != 3 || decide (qEsize s q < 72))) then oc 430
    else if smp != 0xFFFF && qProd s smp != 3 then oc 430
    else
      let s := { s with emb := { s.emb with tabs := [], reqQ := reqs, turn := 0, sampleQ := smp } }
      foldRes applyTable (entriesFrom 288 n (b.drop 64)) s

/-! ### TEMPLATE, TRANSFORM and CONTEXT (R122 to R132) -/

/-- One template. -/
def applyTemplate (b : List Byte) (s : State) : Res State :=
  let t : Template := ⟨b⟩
  match templateOutside t with
  | some r => oc r
  | none => .next { s with warp := { s.warp with templates := Tab.set (fun _ => (⟨[]⟩ : Template)) s.warp.templates (leAt b 0 1) t } }

/-- A mount record: the matrix of a context. One that names no context of the partition is ignored. -/
def applyMount (n : Nat) (b : List Byte) (s : State) : State :=
  let x := leAt b 2 2
  if ownsCtx s n x then
    setCtx s x { ctxOf s x with mount := some ((List.range 12).map fun i => BitVec.ofNat 32 (leAt b (8 + 4 * i) 4)) }
  else s

/-- Three FP32 words from an offset. -/
def words3 (b : List Byte) (o : Nat) : List W32 := (List.range 3).map fun i => BitVec.ofNat 32 (leAt b (o + 4 * i) 4)

/-- A grid record of partition n. -/
def readGrid (n : Nat) (b : List Byte) : Grid where
  part := n
  counter := leAt b 3 1 % 4
  flipDb := if leAt b 4 1 < 64 then some (leAt b 4 1) else none
  size := words3 b 8
  origin := words3 b 0x14
  axis := words3 b 0x20
  pickLength := BitVec.ofNat 32 (leAt b 0x2C 4)
  nb := (List.range 3).map fun i => leAt b (0x30 + 2 * i) 2
  releaseQ := leAt b 0x36 2
  buf0 := leAt b 0x40 8
  buf1 := leAt b 0x48 8
  capBlocks := leAt b 0x50 4
  capBricks := leAt b 0x54 4
  capKeys := leAt b 0x58 4
  capPoints := leAt b 0x5C 4
  b0 := .ready
  b1 := .ready
  nextSeq := 0

/-- The window of a grid record breaks R131. -/
def windowBad (x : Grid) : Bool := x.nb.any (fun v => v == 0 || decide (32768 < v)) || decide (32768 < x.nblocks)

/-- A buffer lies outside the shared-store region of partition n (R132). -/
def bufOutside (s : State) (n a size : Nat) : Bool :=
  let e := partEntry s n
  !decide (e.storeBase ≤ a ∧ a + size ≤ e.storeBase + e.storeSize)

/-- Buffers of two grids overlap (R132). -/
def gridsMeet (x y : Grid) : Bool :=
  [x.buf0, x.buf1].any fun a => [y.buf0, y.buf1].any fun b => regionsMeet a x.bufSize b y.bufSize

/-- A grid record: the grid belongs to the partition, and its registers are loaded. -/
def applyGrid (n : Nat) (b : List Byte) (s : State) : Res State :=
  let g := leAt b 2 1
  let x := readGrid n b
  let others := s.intake.grids.filter fun e => e.1 ≠ g
  if 63 < g ∨ s.intake.grids.any (fun e => e.1 == g && e.2.part != n) ∨ !ownsQueue s n x.releaseQ then oc 47
  else if windowBad x then oc 131
  else if bufOutside s n x.buf0 x.bufSize || bufOutside s n x.buf1 x.bufSize || others.any (fun e => gridsMeet x e.2) then oc 132
  else
    let s := { s with intake := { s.intake with
      grids := (others.filter fun (e : Nat × Grid) => e.1 < g) ++ [(g, x)] ++ others.filter fun (e : Nat × Grid) => g < e.1 } }
    let s := (s.wr (Reg.intakeGridPicklen g) x.pickLength).wr (Reg.intakeGridOriginX g) (x.origin.getD 0 0)
    .next (gridSync g ((s.wr (Reg.intakeGridOriginY g) (x.origin.getD 1 0)).wr (Reg.intakeGridOriginZ g) (x.origin.getD 2 0)))

/-- The records of a TRANSFORM body, at most `fuel` of them. -/
def transformRecs : Nat → Nat → List Byte → State → Res State
  | 0, _, _, s => .next s
  | k + 1, n, b, s =>
    if b.isEmpty then .next s
    else
      let t := leAt b 0 2
      if t = 1 ∧ 64 ≤ b.length then transformRecs k n (b.drop 64) (applyMount n (b.take 64) s)
      else if t = 2 ∧ 128 ≤ b.length then andThen (applyGrid n (b.take 128) s) (transformRecs k n (b.drop 128))
      else oc 44

/-- TRANSFORM: in a partial image it replaces the mounts and grids of the partition. -/
def applyTransform (n : Nat) (b : List Byte) (s : State) : Res State :=
  let s := (partCtxs s n).foldl (fun s x => setCtx s x { ctxOf s x with mount := none }) s
  let s := { s with intake := { s.intake with grids := s.intake.grids.filter fun e => e.2.part ≠ n } }
  transformRecs b.length n b s

/-- One CONTEXT entry. -/
def applyCtxEntry (n : Nat) (b : List Byte) (s : State) : Res State :=
  let x := leAt b 0 2
  let kind : CtxKind := match leAt b 2 1 with | 0 => .point | 1 => .image | 2 => .raw | _ => .unused
  let sel := leAt b 0xE 1
  let bind := leAt b 0xF 1
  let queue := leAt b 0x10 2
  let grid := s.intake.grids.any fun e => e.1 == bind && e.2.part == n
  if !ownsCtx s n x then oc 47
  else if kind = .point ∧ (templateOf s sel).bytes = [] then oc 126
  else if (kind = .point ∧ !grid) ∨ ((kind = .image ∨ kind = .raw) ∧ !ownsQueue s n queue) then oc 47
  else
    let vlan := leAt b 0xC 2
    .next (setCtx s x {
      kind := kind, port := leAt b 3 1, srcIp := beAt b 4 4, srcUdp := leAt b 8 2, dstUdp := leAt b 0xA 2,
      vid := vlan % 4096, matchVid := vlan.testBit 12, sel := sel, bind := bind, queue := queue, rate := leAt b 0x12 2,
      burst := leAt b 0x14 2, width := leAt b 0x16 2, payload := leAt b 0x18 2, stage := leAt b 0x1C 4,
      mount := (ctxOf s x).mount, tokens := 0, img := none })

/-- CONTEXT: in a partial image it replaces every entry of the partition. -/
def applyContext (n : Nat) (b : List Byte) (s : State) : Res State :=
  applyEntries 32 (applyCtxEntry n) b
    ((partCtxs s n).foldl (fun s x => setCtx s x { Ctx.unused with mount := (ctxOf s x).mount }) s)

/-! ### POS (R77, R93, R98) -/

/-- Load one register of the TIME or POS block as its own write would, at application. -/
def posReg (s : State) (e : Nat × W32) : State :=
  if e.1 < 0x10000 || 0x30000 ≤ e.1 then s
  else if e.1 = Reg.timeTrim then trimPut e.2 s
  else
    match (List.range 4).find? fun n => Reg.posPkCfg n = e.1 with
    | some n => pkCfgPut n (e.2 &&& 0xFF0FFF#32) s
    | none =>
      let s := s.putRw e.1 e.2
      (List.range 16).foldl (fun s v => trigSync v s) s

/-- POS: what its body sets, by the free decoding of the body; its events are armed when the application ends. -/
def applyPos (b : List Byte) (s : State) : Res State :=
  let c := Config.posDecode b
  let s := { s with warp := { s.warp with pos := c } }
  .next (timeSync (c.regs.foldl posReg (s.putB Reg.timeStatus 4 c.chainBound)))

/-! ### LINK -/

/-- One link entry: LINK_CFG, budgets, and the state after application. -/
def applyLinkEntry (b : List Byte) (l : Nat) (s : State) : State :=
  let f := leAt b 0 1
  let s := s.wrN (Reg.linkCfg l) (f / 2 % 4 + 4 * (f / 8 % 2) + 2 ^ 16 * leAt b 2 2)
  let s := setLink s l { link s l with budget := (List.range 8).map fun p => leAt b (8 + 2 * p) 2 }
  if f % 2 = 1 ∧ linkState s l = 0 then trainStart l s else s

/-- LINK: routes, hold time, link entries, transmit queues and receive bindings (R466). -/
def applyLink (b : List Byte) (s : State) : Res State :=
  let tx := leAt b 0 1
  let rx := leAt b 2 2
  if b.length < 256 + 4 * (tx + rx) then oc 44
  else
    let recs := entriesFrom 4 (tx + rx) (b.drop 256)
    let txq := (recs.take tx).map fun r => leAt r 0 2 % 1024
    let rxq := (recs.drop tx).map fun r => (leAt r 0 2 % 1024, leAt r 2 2)
    if txq.any (fun q => qCons s q != 3) || rxq.any (fun (e : Nat × Nat) => qProd s e.1 != 3) then oc 466
    else
      let s := { s with chain := { s.chain with txq := txq, rxq := rxq, turn := 0, seqs := [] } }
      let s := (List.range 16).foldl (fun s c => s.wrN (Reg.linkRoute c) (leAt b (8 + c) 1)) (s.wrN Reg.linkHold (leAt b 4 2))
      .next ((List.range 6).foldl (fun s l => applyLinkEntry (slice b (64 + 32 * l) 32) l s) s)

/-! ### SAFETY (R503 to R505) -/

def readPair (s : State) (b : List Byte) : Pair where
  a := leAt b 0 1
  b := (partEntry s (leAt b 0 1)).peer
  aQ := leAt b 2 2
  bQ := leAt b 4 2
  outQ := leAt b 6 2
  window := leAt b 8 4
  seedDeadline := leAt b 0xC 4
  aSig := BitVec.ofNat 32 (leAt b 0x10 4)
  bSig := BitVec.ofNat 32 (leAt b 0x14 4)
  timeTol := leAt b 0x18 4
  seedPasses := leAt b 0x1C 1

def readTol (b : List Byte) : Tol :=
  ⟨leAt b 0 2, leAt b 2 1 % 2 == 1, BitVec.ofNat 32 (leAt b 4 4), BitVec.ofNat 32 (leAt b 8 4), leAt b 0xC 4⟩

def readRule (b : List Byte) : Rule where
  type := leAt b 0 1
  action := leAt b 1 1
  pair := leAt b 2 1
  allowMissing := leAt b 3 1 % 2 == 1
  cls := leAt b 4 2
  index := leAt b 6 2
  cls2 := leAt b 8 2
  index2 := leAt b 0xA 2
  lo := BitVec.ofNat 32 (leAt b 0xC 4)
  hi := BitVec.ofNat 32 (leAt b 0x10 4)
  tol := BitVec.ofNat 32 (leAt b 0x14 4)

def readMonitor (b : List Byte) : Monitor :=
  ⟨leAt b 0 1, leAt b 1 1, leAt b 2 2, leAt b 4 2, leAt b 6 1, leAt b 8 4, leAt b 0xC 4⟩

def readShared (b : List Byte) : SharedRegion := ⟨leAt b 0 8, leAt b 8 8, leAt b 0x10 1, leAt b 0x11 1, leAt b 0x12 1 % 4⟩

/-- The frames of a seed image: 2-byte lengths, each followed by its frame; none when they do not fill it (R505). -/
def seedRecs : Nat → List Byte → Option (List (List Byte))
  | 0, b => if b.isEmpty then some [] else none
  | k + 1, b =>
    if b.isEmpty then some []
    else
      let n := leAt b 0 2
      if b.length < 2 + n ∨ 9212 < n then none
      else (seedRecs k (b.drop (2 + n))).map fun l => slice b 2 n :: l

/-- Bytes of the tables of a SAFETY body, in their order: pairs, tolerances, rules, monitors, windows, shared regions,
seed image. -/
def safetySizes (b : List Byte) : List Nat :=
  [64 * leAt b 0x1E 1, 16 * leAt b 0x22 2, 32 * leAt b 0x20 2, 16 * leAt b 0x1F 1, 8 * leAt b 0x24 1, 32 * leAt b 0x25 1,
   (leAt b 0x28 4 + 7) / 8 * 8]

/-- The counts of a SAFETY header exceed their ranges, or its tables overrun the body (R504). -/
def safetyOutside (b : List Byte) : Bool :=
  decide (4 < leAt b 0x1E 1 ∨ 64 < leAt b 0x1F 1 ∨ 256 < leAt b 0x20 2 ∨ 256 < leAt b 0x22 2 ∨ 16 < leAt b 0x24 1 ∨
    8 < leAt b 0x25 1 ∨ 262144 < leAt b 0x28 4 ∨ b.length < 128 + (safetySizes b).sum)

/-- The entries of table i of a SAFETY body. -/
def safetyTable (b : List Byte) (i size : Nat) : List (List Byte) :=
  let z := safetySizes b
  entriesFrom size (z.getD i 0 / size) (b.drop (128 + (z.take i).sum))

/-- The SAFETY section as data. -/
def readSafety (chip : Nat) (s : State) (b : List Byte) (seed : List (List Byte)) : Safety where
  chip := chip
  connId := BitVec.ofNat 32 (leAt b 0 4)
  periodUs := BitVec.ofNat 32 (leAt b 4 4)
  key := BitVec.ofNat 64 (leAt b 8 8)
  dstMac := slice b 0x10 6
  srcMac := slice b 0x16 6
  vlan := leAt b 0x1C 2
  seedTrigger := leAt b 0x26 2
  overrunWindows := leAt b 0x2C 1
  msix := leAt b 0x2D 1
  msixEn := leAt b 0x2E 1 % 2 == 1
  actions := (slice b 0x30 16).map BitVec.toNat
  freezeMask := BitVec.ofNat 64 (leAt b 0x40 8)
  chBudget := (List.range 8).map fun p => leAt b (0x48 + 2 * p) 2
  chainBudget := leAt b 0x58 2
  pairs := (safetyTable b 0 64).map (readPair s)
  tols := (safetyTable b 1 16).map readTol
  rules := (safetyTable b 2 32).map readRule
  dms := (safetyTable b 3 16).map readMonitor
  windows := (safetyTable b 4 8).map fun w => (leAt w 0 4, leAt w 4 1)
  shared := (safetyTable b 5 32).map readShared
  seedImage := seed

/-- A pair entry breaks R503. -/
def pairBad (s : State) (p : Pair) : Bool :=
  (partEntry s p.a).role != 1 || !ownsQueue s p.a p.aQ || !ownsQueue s p.b p.bQ || qCons s p.aQ != 3 || qCons s p.bQ != 3

/-- SAFETY replaces the section before: frames in judgement, pending starts and armed monitors go with it. -/
def applySafety (chip : Nat) (b : List Byte) (s : State) : Res State :=
  if b.length < 128 then oc 44
  else if safetyOutside b then oc 504
  else
    let n := leAt b 0x28 4
    match seedRecs n (slice b (128 + ((safetySizes b).take 6).sum) n) with
    | none => oc 505
    | some seed =>
      let f := readSafety chip s b seed
      if f.pairs.any (pairBad s) then oc 503
      else
        let ps := s.selv.pairs.map fun e => (e.1, { PairSt.idle with seq := e.2.seq })
        let s := { s with
          selv := { s.selv with
            safety := some f, imageSince := true, pairs := ps.filter fun e => e.2 ≠ PairSt.idle
            starts := [], alive := [], startDue := [], endDue := [], seedFrames := [], seedBusy := false, seedDue := false }
          intake := { s.intake with window := 0 } }
        let s := (List.range 64).foldl (fun s m => s.putF (Reg.selvDm m) 0 5 0) s
        .next (s.putB Reg.selvStatus 3 true)

/-! ### DATA, CODE and PORT (R113, R186, R220 to R222) -/

/-- Repeat an 8-byte pattern over `n` bytes. -/
def patternBytes (p : List Byte) (n : Nat) : List Byte := (List.range n).map fun i => p.getD (i % 8) 0

/-- A range lies in the on-die store regions of partition n (R186). -/
def inStores (s : State) (n a len : Nat) : Bool := inOnDie a && inRegions s n a len

/-- The records of a DATA body, at most `fuel` of them. -/
def dataRecs : Nat → Nat → List Byte → State → Res State
  | 0, _, _, s => .next s
  | k + 1, n, b, s =>
    if b.isEmpty then .next s
    else
      let dst := leAt b 0 8
      let len := leAt b 8 4
      let pat := leAt b 12 4 % 2 == 1
      let body := if pat then 8 else (len + 7) / 8 * 8
      if b.length < 16 + body then oc 44
      else if !inStores s n dst len then oc 186
      else
        let bs := if pat then patternBytes (slice b 16 8) len else slice b 16 len
        dataRecs k n (b.drop (16 + body)) (s.putBytes dst bs)

/-- Every local store a range touches belongs to a core of partition n, and it touches nothing else (R222). -/
def inLocals (s : State) (n a len : Nat) : Bool :=
  len == 0 || (decide (onDieBase ≤ a ∧ a + len ≤ sharedBase)
    && (List.range ((a + len - 1 - onDieBase) / localSize + 1)).all fun k =>
      decide (k < (a - onDieBase) / localSize) || ownsCore s n k)

/-- The records of a CODE body, at most `fuel` of them. -/
def codeRecs : Nat → Nat → List Byte → State → Res State
  | 0, _, _, s => .next s
  | j + 1, n, b, s =>
    if b.isEmpty then .next s
    else
      let t := leAt b 0 2
      let k := leAt b 2 1
      let len := leAt b 4 4
      let dst := leAt b 8 8
      if b.length < 16 + len then oc 44
      else if t = 1 then
        if !inLocals s n dst len then oc 222
        else
          let s := s.putBytes dst (slice b 16 len)
          codeRecs j n (b.drop (16 + len)) { s with warp := { s.warp with code := s.warp.code ++ [(dst, len)] } }
      else if t = 2 ∧ 32 ≤ len then
        if !ownsCore s n k then oc 47
        else
          let s := (s.wrQ (Reg.coreEntry k) 2 (leAt b 16 8)).wrQ (Reg.coreExcHandler k) 2 (leAt b 24 8)
          codeRecs j n (b.drop (16 + len)) (s.wr (Reg.coreExcCfg k) (BitVec.ofNat 32 (leAt b 32 4) &&& 0xFF07#32))
      else oc 44

/-- CODE: it replaces every ENTRY of the partition (R221). -/
def applyCode (n : Nat) (b : List Byte) (s : State) : Res State :=
  codeRecs b.length n b ((partCores s n).foldl (fun s k => entryDefaults k s) s)

/-- One PORT entry. -/
def applyPortEntry (b : List Byte) (s : State) : Res State :=
  let p := leAt b 0 1
  let f := leAt b 1 1
  let rate := f / 2 % 2
  let fec := f / 4 % 4
  if fec = 3 ∨ (fec = 2 ∧ rate = 1) then oc 113
  else if 7 < p then .next s
  else
    let s := (s.wrN (Reg.ethPortCfg p) (rate + 2 * fec)).wrQ (Reg.ethMac p) 2 (leAt b 2 6)
    let tq := leAt b 8 2
    let s := s.wrN (Reg.ethTxQueue p) (if tq = 0xFFFF then 0 else tq % 1024 + 2 ^ 16)
    let s := s.wrN (Reg.ethPtpCfg p) (leAt b 0xC 1 % 4 + 2 ^ 16 * (leAt b 0xA 2 % 1024))
    let s := s.putF (Reg.ethPortStatus p) 0 2 0
    .next (if f % 2 = 1 then portStart p s else s)

/-! ### The loader (R39, R42, R50 to R54) -/

/-- Apply one section. -/
def applySection (chip : Nat) (x : Section) (s : State) : Res State :=
  match x.type with
  | 1 => applyChain chip x.body s
  | 2 => applyPartition x.body s
  | 3 => applyChannelMode x.body s
  | 4 => applyCoreGroup x.part x.body s
  | 5 => applyQueue x.part x.body s
  | 6 => applyEmb x.body s
  | 7 => applyEntries 1216 applyTemplate x.body s
  | 8 => applyTransform x.part x.body s
  | 9 => applyContext x.part x.body s
  | 10 => applyPos x.body s
  | 11 => applyLink x.body s
  | 12 => applySafety chip x.body s
  | 13 => dataRecs x.body.length x.part x.body s
  | 14 => applyCode x.part x.body s
  | _ => applyEntries 32 applyPortEntry x.body s

/-- The sections in the order of application: by type, and within a type as in the image (R39). -/
def inOrder (l : List Section) : List Section := (List.range 16).flatMap fun t => l.filter fun x => x.type = t

/-- GLOBAL_WARP_LEN. -/
def warpLen (s : State) : Nat := (s.rd Reg.globalWarpLen).toNat
/-- The staged image. -/
def warpImage (s : State) : List Byte := s.bytes (warpBase s) (warpLen s)

/-- An apply command ends with a result: done is set and vector 0 is raised (R50, R517). -/
def warpEnd (result : Nat) (s : State) : State :=
  let s := ((s.putB Reg.globalWarpCtrl 0 false).putF Reg.globalWarpStatus 2 4 result).putB Reg.globalWarpStatus 6 true
  ({ s with loader := .idle }).raise 0

/-- An apply command ends and nothing has been applied: the state and the stage are as before. -/
def warpNothing (result : Nat) (s : State) : State :=
  let s := s.putF Reg.globalWarpStatus 0 2 (if warpPartial s then 2 else 0)
  warpEnd result (s.setStage (if warpPartial s then 4 else if result = 1 then 5 else 2))

/-- The cause decided from registers alone that refuses an apply command, if one holds (R50). -/
def warpRefused (s : State) (part : Bool) : Option Nat :=
  let st := s.fld Reg.globalWarpStatus 0 2
  let len := warpLen s
  if s.bit Reg.globalBistStatus 1 then some 5
  else if !part ∧ st = 2 then some 2
  else if part ∧ st = 0 then some 3
  else if len % 8 ≠ 0 ∨ len < 88 ∨ (if part then s.warp.rewarpMib * 2 ^ 20 else 96 * 2 ^ 20) < len then some 6
  else none

/-- WARP_APPLY (R12, R50, R53): a write of GLOBAL_WARP_CTRL with apply set. -/
def execWarpApply (partialBit : Bool) : State → Res State :=
  hostWrite .held fun s =>
    if s.inHold then oc 538
    else if s.loader ≠ .idle then (if partialBit = warpPartial s then .next s else oc 53)
    else
      let s := s.putB Reg.globalWarpCtrl 1 partialBit
      match warpRefused s partialBit with
      | some r => .next (warpEnd r s)
      | none =>
        let s := (s.putB Reg.globalWarpCtrl 0 true).putF Reg.globalWarpStatus 0 2 1
        .next ({ s with loader := .checking }.setStage 3)

/-- The CRC of the image matches its trailer (R41). -/
def crcOk (img : List Byte) : Bool := crc32 (img.take (img.length - 4)) == leAt img (img.length - 4) 4

/-- WARP_CRC_CHECK_DONE (R42, R50, R64): the check of the staged image ends. -/
def execWarpCrcCheckDone (s : State) : Res State :=
  onlyIf (s.cclk && s.loader == .checking) (fun s =>
    let img := warpImage s
    let n := leAt img 0x0F 1
    if !crcOk img then warpNothing 1 s
    else if warpPartial s && (decide (7 < n) || ptState s n != 0) then warpNothing 4 s
    else { s with loader := .applying }) s

/-- Apply the sections of an image whose CRC matched. -/
def applyImage (img : List Byte) (part : Bool) (s : State) : Res State :=
  if headerOutside img part then oc 43
  else match readSections (leAt img 8 2) (img.drop 64) with
    | .outside r => oc r
    | .ok l =>
      let n := leAt img 0x0F 1
      if (if part then partialOutside n l else fullOutside l) then oc 48
      else
        let chip := leAt img 0x0E 1
        let s := if part then s else
          let s := s.loseComp
          { s with warp := { s.warp with image := true, rewarpMib := leAt img 0x10 2 } }
        andThen (foldRes (applySection chip) (inOrder l) s) fun s => if groupsBad s then oc 184 else .next s

/-- What the end of a full application adds: events armed, image_id, and the partitions with start = 1 (R54, R98, R499, R593). -/
def fullDone (img : List Byte) (s : State) : Res State :=
  let s := { s with contract := s.contract.afterImage }.wrQ Reg.globalWarpId 2 (leAt img 0x18 8)
  let s := s.warp.pos.arm.foldl (fun s v => if v < 80 then evArm v s else s) s
  let s := { s with selv := { s.selv with everImage := true } }
  andThen (foldRes ptStart ((List.range 8).filter fun n => (partEntry s n).used && (partEntry s n).start) s) fun s => .next (selvSync s)

/-- What a full image outside contract does in the selvedge (R49): the one SAFETY section that it holds is applied, if the section
itself keeps to R44 and R503 to R505; of none or several, none is, and telegrams go on with state SAFE. The same holds of an image
that is outside contract by another rule than R48, of which the spec does not speak (log entry 27, DESIGN CHOICE). -/
def safetyKept (s : State) : State :=
  let img := warpImage s
  if s.loader ≠ .applying || warpPartial s then s
  else match readSections (leAt img 8 2) (img.drop 64) with
    | .outside _ => s
    | .ok l =>
      let parts := match l.find? fun x => x.type = 2 with
        | some y => (entriesFrom 64 8 y.body).map readPart
        | none => s.warp.parts
      let s := match l.filter fun x => x.type = 12 with
        | [x] =>
          match applySafety (leAt img 0x0E 1) x.body { s with warp := { s.warp with parts := parts } } with
          | .next t => t
          | _ => s
        | _ => s
      selvSync { s with selv := { s.selv with everImage := true } }

/-- WARP_APPLY_DONE (R51, R54, R63): the image is applied, with result OK. -/
def execWarpApplyDone (s : State) : Res State :=
  onlyIfR (s.cclk && s.loader == .applying) (fun s =>
    let img := warpImage s
    let part := warpPartial s
    andThen (applyImage img part s) fun s =>
      let s := s.wrN Reg.globalWarpCrc (leAt img (img.length - 4) 4)
      let s := (s.putF Reg.globalWarpStatus 0 2 2).setStage 4
      let s := if part then s.putB (Reg.globalPtStatus (leAt img 0x0F 1)) 3 true else s
      andThen (if part then .next s else fullDone img s) fun s => .next (warpEnd 0 s)) s

end Sys2Proof.Machine
end

