-- ==== Sys2Proof/Machine/Bar0.lean ====
section
/-! DEFINITION. Host accesses to BAR0: the access codes of R10, the blocks' own conditions on their registers, and the
shadows of quantities of several words (R8 to R14). A write that sets a bit with a command of its own carries out that
command. -/

namespace Sys2Proof.Machine

/-! ### Blocks -/

/-- Where the registers of a block work (R533, R596, R597). -/
def blkDom : Blk → Dom
  | .timeB => .time
  | .selvB => .selvedge
  | .globalB => .held
  | .posB => .held
  | .memB => .held
  | .hostB => .held
  | .mgmtB => .held
  | .ethB => .fabric
  | .intakeB => .fabric
  | .queueB => .fabric
  | .coreB => .fabric
  | .embB => .fabric
  | .linkB => .fabric
  | .traceB => .fabric

/-- The blocks whose registers work during a supply hold (R533). -/
def heldBlk (b : Blk) : Bool := blkDom b != .fabric

/-- The blocks whose registers can be read while SYSCLK is stopped: those of the held domain and the selvedge, without the
channels (R597). -/
def clockless (b : Blk) : Bool := heldBlk b && b != .memB

/-- An access lies at an aligned offset for its size (R8). -/
def aligned (a : Nat) : AccSize → Bool
  | .b32 => a % 4 == 0
  | .b64 => a % 8 == 0
  | .other => false

/-! ### Reads (R8, R9, R13) -/

/-- No quantity is captured. -/
def noShadow : Nat → Shadow := fun _ => ⟨[], []⟩

/-- Capture the higher words of a quantity of `n` words (R9). -/
def capture (a n : Nat) (s : State) : State :=
  let x : Shadow := ⟨(List.range (n - 1)).map fun i => regView s (a + 4 * (i + 1)), List.replicate (n - 1) false⟩
  { s with shadows := Tab.set noShadow s.shadows a x }

/-- A word of a shadow has been read; the shadow ends when each has been. -/
def markRead (a i : Nat) (s : State) : State :=
  let x := Tab.get noShadow s.shadows a
  let seen := x.seen.set (i - 1) true
  { s with shadows := Tab.set noShadow s.shadows a (if seen.all id then ⟨[], []⟩ else { x with seen := seen }) }

/-- The register a BAR0 offset names, where it has a shadow: its quantity has several words. -/
def shadowOf (a : Nat) : Option RegHit :=
  match regHit a with
  | none => none
  | some h => if h.row.words.length = 1 ∨ blkOf a = some .hostB then none else some h

/-- What a read of one word returns: the current value, or a higher word's from a valid shadow. -/
def readVal (s : State) (a : Nat) : W32 :=
  match shadowOf a with
  | none => regView s a
  | some h =>
    let x := Tab.get noShadow s.shadows h.start
    if h.idx = 0 ∨ x.words.isEmpty then regView s a else x.words.getD (h.idx - 1) 0

/-- What a read of one word does to the shadow of its quantity: the lowest word captures the others, a higher one counts as
read. -/
def readMark (a : Nat) (s : State) : State :=
  match shadowOf a with
  | none => s
  | some h =>
    if h.idx = 0 then capture a h.row.words.length s
    else if (Tab.get noShadow s.shadows h.start).words.isEmpty then s
    else markRead h.start h.idx s

/-- The word at `a` is the lowest of a quantity that the next word belongs to. -/
def samePair (a : Nat) : Bool :=
  match shadowOf a, shadowOf (a + 4) with
  | some h, some g => h.start == g.start && h.idx == 0
  | _, _ => false

/-- What an aligned read returns; a 64-bit read that includes the lowest word returns current values (R9). -/
def readBytes (s : State) (a : Nat) : AccSize → List Byte
  | .b64 => natLe 4 (readVal s a).toNat ++ natLe 4 (if samePair a then regView s (a + 4) else readVal s (a + 4)).toNat
  | _ => natLe 4 (readVal s a).toNat

/-- The state after an aligned read: both words of a 64-bit read are judged by the shadows from before it. -/
def readShadows (a : Nat) (sz : AccSize) (s : State) : State :=
  match sz with
  | .b64 => readMark (a + 4) (readMark a s)
  | _ => readMark a s

/-- Bytes of an access of a size. -/
def accSize : AccSize → Nat
  | .b64 => 8
  | _ => 4

/-- BAR0_MULTIWORD_READ (R8, R9, R533): a host read of BAR0. -/
def execBar0MultiwordRead (a : BitVec 26) (sz : AccSize) : State → Res State :=
  hostRead fun s =>
    if !aligned a.toNat sz then oc 8
    else match blkOf a.toNat with
      | none => .next (s.answer (.data (zeros (accSize sz))))
      | some b =>
        if s.inHold && !heldBlk b then .next (s.answer (.data (ffs (accSize sz))))
        else if s.clk != .running && !clockless b then .next (s.answer .unanswered)
        else .next ((readShadows a.toNat sz s).answer (.data (readBytes s a.toNat sz)))

/-! ### Writes: the access codes (R10, R13) -/

/-- The W1C bits of the word at a BAR0 offset (R10). -/
def w1cBits (a : Nat) : W32 :=
  match regHit a with
  | none => 0
  | some h => BitVec.ofNat 32 h.word.w1c

/-- The W1C bits written 1 are cleared. -/
def w1cClear (s : State) (e : Nat × W32) : State := s.wr e.1 (s.rd e.1 &&& ~~~(e.2 &&& w1cBits e.1))

/-- The RW bits take the value (R10). -/
def plainWrite (a : Nat) (v : W32) (s : State) : State := s.putRw a v

/-- Bits of a word that its table does not list (R13). -/
def reservedBits (h : RegHit) : W32 :=
  ~~~(BitVec.ofNat 32 ((h.word.rw.lor h.word.w1c).lor (h.word.act.lor h.word.ro)))

/-- A write that a condition discards. -/
def discardIf (b : Bool) (a : Nat) (v : W32) (s : State) : Res State := if b then .next s else .next (plainWrite a v s)

/-- Bit `i` of a written word asks for a command. -/
def doIf (v : W32) (i : Nat) (f : State → Res State) (s : State) : Res State := if v.toNat.testBit i then f s else .next s

/-! ### Writes: GLOBAL, TIME, POS -/

/-- A write to the GLOBAL block (R50, R53, R55). -/
def writeGlobal (a : Nat) (v : W32) (s : State) : Res State :=
  if a = Reg.globalWarpLen then (if s.loader ≠ .idle then oc 53 else .next (plainWrite a v s))
  else if a = Reg.globalWarpCtrl then
    if v.toNat.testBit 0 then execWarpApply (v.toNat.testBit 1) s
    else if s.loader ≠ .idle && v.toNat.testBit 1 != s.bit a 1 then oc 53
    else .next (plainWrite a v s)
  else if 0x200 ≤ a ∧ a < 0x280 ∧ a % 16 = 0 then
    let n := Fin.ofNat 8 ((a - 0x200) / 16)
    if v.toNat.testBit 1 then execPtDisable n s else doIf v 0 (execPtEnable n) s
  else .next (plainWrite a v s)

/-- A write of TIME_CTRL (R72 to R79): a set drops a step of the same write (R74); on a chain-bound part, set, step and
lock are discarded (R77). -/
def writeTimeCtrl (v : W32) (s : State) : Res State :=
  let bound := chainBound s
  let keep : W32 := s.rd Reg.timeCtrl &&& 2#32
  let w := if bound then (v &&& ~~~2#32) ||| keep else v
  let s := timeSync (s.putRw Reg.timeCtrl w)
  let r := if bound then .next s else if v.toNat.testBit 2 then execTimeSet s else doIf v 3 execTimeStep s
  andThen r (doIf v 4 execTimeSnap)

/-- A write to the TIME block. -/
def writeTime (a : Nat) (v : W32) (s : State) : Res State :=
  if a = Reg.timeCtrl then writeTimeCtrl v s
  else if a = Reg.timeTrim then execTimeTrimWrite v s
  else .next (plainWrite a v s)

/-- A write of POS_PKn_REF_CTRL (R93 to R96): ref_edge stays while armed; disarm wins over arm. -/
def writeRefCtrl (n : Fin 4) (v : W32) (s : State) : Res State :=
  let a := Reg.posPkRefCtrl n
  if pkChain s n then .next s
  else
    let keep : W32 := s.rd a &&& 0x3C#32
    let w := if s.bit a 1 then (v &&& ~~~0x3C#32) ||| keep else v
    andThen (doIf v 0 (execLoadNow n) (s.putRw a w)) fun s =>
      if v.toNat.testBit 7 then execRefDisarm n s else doIf v 1 (execRefArm n) s

/-- A write to the registers of counter n (R89, R93, R96). -/
def writePick (n : Fin 4) (a : Nat) (v : W32) (s : State) : Res State :=
  if a = Reg.posPkCfg n then execPosPkCfgWrite n v s
  else if a = Reg.posPkRefCtrl n then writeRefCtrl n v s
  else if a = Reg.posPkRef n ∨ a = Reg.posPkRef n + 4 then discardIf (pkChain s n || s.bit (Reg.posPkRefCtrl n) 1) a v s
  else .next (plainWrite a v s)

/-- A write to the registers of event x (R98, R108). -/
def writeEvent (x : Fin 80) (a : Nat) (v : W32) (s : State) : Res State :=
  if a = Reg.posEvCtrl x then (if v.toNat.testBit 1 then execPosEvDisarm x s else doIf v 0 (execPosEvArm x) s)
  else if a = Reg.posEvStatus x then .next (plainWrite a v s)
  else if s.bit (Reg.posEvStatus x) 0 then
    if a = Reg.posEvCfg x ∨ (Reg.posEvQueue x ≤ a ∧ a < Reg.posEvFires x) then .next (s.putB (Reg.posEvStatus x) 4 true) else .next s
  else if a = Reg.posEvCfg x then .next (trigSync x (plainWrite a v s))
  else .next (plainWrite a v s)

/-- A write to the POS block. -/
def writePos (a : Nat) (v : W32) (s : State) : Res State :=
  let o := a - 0x20000
  if o < 0x400 then
    if o % 0x40 = 8 then doIf v 0 (execPosEdgePop (Fin.ofNat 16 (o / 0x40))) s else .next (plainWrite a v s)
  else if o < 0x1000 then writePick (Fin.ofNat 4 ((o - 0x800) / 0x80)) a v s
  else writeEvent (Fin.ofNat 80 ((o - 0x1000) / 0x40)) a v s

/-! ### Writes: ETH, INTAKE, QUEUE -/

/-- A write of ETH_TXTS_STATUS (R82, R517): a port that holds stamps raises its vector when irq_en becomes 1. -/
def writeTxts (p : Nat) (v : W32) (s : State) : State :=
  let a := Reg.ethTxtsStatus p
  let was := s.bit a 5
  let s := plainWrite a v s
  if !was && s.bit a 5 && decide ((ethPort s p).tx ≠ []) then s.raise (16 + p) else s

/-- A write to the registers of port p (R55, R114). -/
def writeEth (a : Nat) (v : W32) (s : State) : Res State :=
  let p := Fin.ofNat 8 ((a - 0x30000) / 0x1000)
  if a = Reg.ethPortCtrl p then (if v.toNat.testBit 1 then execEthPortDisable p s else doIf v 0 (execEthPortEnable p) s)
  else if a = Reg.ethTxtsPop p then doIf v 0 (execEthTxtsPop p) s
  else if a = Reg.ethTxtsStatus p then .next (writeTxts p v s)
  else if a = Reg.ethPortCfg p ∨ a = Reg.ethMac p ∨ a = Reg.ethMac p + 4 ∨ a = Reg.ethTxQueue p then discardIf (portState s p == 1) a v s
  else .next (plainWrite a v s)

/-- A write to the INTAKE block (R134, R140). -/
def writeIntake (a : Nat) (v : W32) (s : State) : Res State :=
  let g := Fin.ofNat 64 ((a - 0x41000) / 0x40)
  if 0x41000 ≤ a ∧ a < 0x42000 ∧ a = Reg.intakeGridCtrl g then doIf v 0 (execIntakeGridFlip g) s else .next (plainWrite a v s)

/-- A value of QUEUE_CFG outside contract (R595). -/
def queueCfgBad (v : W32) : Bool :=
  let d := fieldN v.toNat 0 5
  let e := fieldN v.toNat 8 12
  decide (d < 1 ∨ 16 < d ∨ e < 1 ∨ 2048 < e) || fieldN v.toNat 20 2 == 0 || fieldN v.toNat 22 2 == 0

/-- A write to the registers of queue q (R55, R173, R175, R178, R189, R595). -/
def writeQueue (a : Nat) (v : W32) (s : State) : Res State :=
  let q := Fin.ofNat 1024 ((a - 0x80000) / 0x40)
  let off := qState s q == 0
  if a = Reg.queueCtrl q then
    andThen (if v.toNat.testBit 1 then execQueueDisable q s else doIf v 0 (execQueueEnable q) s) (doIf v 2 (execQueueFlush q))
  else if a = Reg.queueDoorbell q then execQueueDoorbell q (v.setWidth 17) s
  else if a = Reg.queueRelease q then execQueueRelease q (v.setWidth 17) s
  else if a = Reg.queueIrq q then execQueueIrqWrite q v s
  else if a = Reg.queueCfg q then (if queueCfgBad v then oc 595 else discardIf (!off) a v s)
  else if a = Reg.queueBase q ∨ a = Reg.queueBase q + 4 ∨ a = Reg.queueProdMask q then discardIf (!off) a v s
  else .next (plainWrite a v s)

/-! ### Writes: CORE, MEM, EMB, LINK -/

/-- The enabled windows of all cores: core, base and size of the transpose windows, and of the sparse window. -/
def twinsOn (s : State) : List (Nat × Nat × Nat) :=
  (List.range 64).filterMap fun i =>
    let b := Reg.coreTwin0Base (i / 2) + 0x10 * (i % 2)
    if s.bit (b + 12) 0 then some (i / 2, s.rdQ b 2, s.fld (b + 8) 0 24) else none
def sparseOn (s : State) : List (Nat × Nat) :=
  (List.range 32).filterMap fun k =>
    let b := Reg.sparseWinBase k
    if s.bit (b + 0xC) 0 then some (s.rdQ b 2, s.fld (b + 8) 0 24) else none

/-- The rule that the enabled windows break, if one (R271, R370): a transpose window leaves its core's local store or
meets another, or a sparse window meets one. -/
def windowsOutside (s : State) : Option Nat :=
  let l := twinsOn s
  if l.any (fun w => !decide (localBase w.1 ≤ w.2.1 ∧ w.2.1 + w.2.2 ≤ localBase w.1 + localSize))
      || !decide (l.Pairwise fun x y => rangesMeet x.2 y.2 = false) then some 271
  else if (sparseOn s).any (fun x => l.any fun w => rangesMeet x w.2) then some 370
  else none

/-- A word of the windows of a core. -/
def windowWord (b : Blk) (a : Nat) : Bool :=
  let o := (a - 0x1000000) % 0x80000
  b == .coreB && (decide (0x200 ≤ o ∧ o < 0x220) || decide (0x30000 ≤ o ∧ o < 0x30010))

/-- A write to the registers of core k (R55, R164, R188, R219, R248, R283, R316). -/
def writeCore (a : Nat) (v : W32) (s : State) : Res State :=
  let k := Fin.ofNat 32 ((a - 0x1000000) / 0x80000)
  let o := (a - 0x1000000) % 0x80000
  let st := coreState s k
  if o = 0 then
    andThen (if v.toNat.testBit 1 then execCoreDisable k s else doIf v 0 (execCoreEnable k) s) (doIf v 2 (execCoreWakeCmd k))
  else if [0x60, 0x64, 0x70, 0x74, 0x100, 0x120, 0x124].contains o then discardIf (st == 1) a v s
  else if [0x10000, 0x10010, 0x10020, 0x10030, 0x10100, 0x10300, 0x20000].contains o then discardIf (st != 0) a v s
  else .next (plainWrite a v s)

/-- A write to the registers of channel c (R381). -/
def writeMem (a : Nat) (v : W32) (s : State) : Res State :=
  let c := Fin.ofNat 48 ((a - 0x2000000) / 0x10000)
  if a = Reg.memCtrl c then (if v.toNat.testBit 0 then execMemToMemory c s else doIf v 1 (execMemToProcessor c) s)
  else .next (plainWrite a v s)

/-- A write to the EMB block (R416, R420, R422, R423, R428). -/
def writeEmb (a : Nat) (v : W32) (s : State) : Res State :=
  let o := a - 0x2400000
  if o = 0 then doIf v 0 execEmbFence s
  else if 0x10000 ≤ o ∧ o < 0x20000 ∧ o % 0x100 = 0 then
    execEmbTabCurWrite (Fin.ofNat 256 ((o - 0x10000) / 0x100)) (Fin.ofNat 4 v.toNat) s
  else if o = 0x20000 then andThen (doIf v 1 execClearRedirects s) (doIf v 0 execEmbMoveGo)
  else if 0x20008 ≤ o ∧ o < 0x20018 then discardIf (moveRuns s) a v s
  else .next (plainWrite a v s)

/-- A write to the LINK blocks (R55, R439, R444, R463). -/
def writeLink (a : Nat) (v : W32) (s : State) : Res State :=
  let l := Fin.ofNat 6 ((a - 0x2500000) / 0x10000)
  if a = Reg.linkCtrl l then
    andThen (if v.toNat.testBit 1 then execLinkDisable l s else doIf v 0 (execLinkEnable l) s) (doIf v 2 (execLinkRetrain l))
  else if a = Reg.linkCfg l then discardIf (linkState s l != 0) a v s
  else if 0x2508000 ≤ a ∧ a < 0x2508040 then .next (routeWritten (plainWrite a v s))
  else .next (plainWrite a v s)

/-! ### Writes: SELV, TRACE, HOST, MGMT -/

/-- A write to the SELV block (R500, R502). -/
def writeSelv (a : Nat) (v : W32) (s : State) : Res State :=
  if a = Reg.selvMbxCmd then
    if v = 1#32 then execGetChallenge s else if v = 2#32 then execClearSafe s else if v = 3#32 then execEnterSafe s else .next s
  else .next (plainWrite a v s)

/-- A write to the TRACE block (R546, R553 to R555). -/
def writeTrace (a : Nat) (v : W32) (s : State) : Res State :=
  if a = Reg.traceCtrl then traceCtrlWrite v s
  else if a = Reg.traceRd then .next (traceFull (plainWrite a v s))
  else if a = Reg.traceSrcEn ∨ a = Reg.traceSrcSys ∨ a = Reg.traceFilter ∨ a = Reg.traceSync then discardIf (s.bit Reg.traceCtrl 0) a v s
  else if a = Reg.traceMark + 4 then markWrite v s
  else if a = Reg.tracePmcCtrl then andThen (doIf v 2 execPmcSnap (plainWrite a v s)) (doIf v 1 execPmcClear)
  else .next (plainWrite a v s)

/-- A write to the MGMT block by the host (R528): what the table keeps for I2C is discarded. -/
def writeMgmt (a : Nat) (v : W32) (s : State) : Res State :=
  let o := a - Reg.mgmtId
  if 0x100 ≤ o ∧ o < 0x120 then discardIf (s.bit Reg.mgmtMbx 0) a v s
  else if 0x120 ≤ o ∧ o < 0x140 then .next s
  else if o = 0x140 then andThen (doIf v 8 execH2bPost s) (doIf v 11 execB2hAck)
  else .next (plainWrite a v s)

/-! ### Writes: the command (R8, R13, R53, R60, R533) -/

/-- The configuration registers a block takes only while it is OFF, as offsets within it: a write to one while the block is
DRAINING is discarded (R189, R248, R283, R316, R463). -/
def offOnly : Blk → List Nat
  | .queueB => [0x08, 0x0C, 0x10, 0x14]
  | .coreB => [0x10000, 0x10010, 0x10020, 0x10030, 0x10100, 0x10300, 0x20000]
  | .linkB => [0x08]
  | _ => []

/-- The switchable block a configuration register belongs to is DRAINING (R60). ETH_TXTS_STATUS, whose irq_en is no setting of
the port, and the registers of the chain in L0's block are not taken as configuration registers of the port and of the link (log
entry 73, DESIGN CHOICE). -/
def blkDraining (s : State) (b : Blk) (a : Nat) : Bool :=
  match b with
  | .coreB => coreState s ((a - 0x1000000) / 0x80000) == 2 && !(offOnly b).contains ((a - 0x1000000) % 0x80000)
  | .queueB => qState s ((a - 0x80000) / 0x40) == 2 && !(offOnly b).contains ((a - 0x80000) % 0x40)
  | .ethB => portState s ((a - 0x30000) / 0x1000) == 2 && a % 0x1000 != 0x810
  | .linkB => linkState s ((a - 0x2500000) / 0x10000) == 2 && decide (a % 0x10000 < 0x8000) && !(offOnly b).contains (a % 0x10000)
  | _ => false

/-- A write by the block's own rules. -/
def writeBlk (b : Blk) (a : Nat) (v : W32) : State → Res State :=
  match b with
  | .globalB => writeGlobal a v
  | .timeB => writeTime a v
  | .posB => writePos a v
  | .ethB => writeEth a v
  | .intakeB => writeIntake a v
  | .queueB => writeQueue a v
  | .coreB => writeCore a v
  | .memB => writeMem a v
  | .embB => writeEmb a v
  | .linkB => writeLink a v
  | .selvB => writeSelv a v
  | .traceB => writeTrace a v
  | .hostB => fun s => .next (plainWrite a v s)
  | .mgmtB => writeMgmt a v

/-- The rule that a write of one word of a block breaks, if one: it sets a reserved bit (R13), or reaches the configuration of a
DRAINING block (R60). -/
def wordOutside (s : State) (b : Blk) (e : Nat × W32) : Option Nat :=
  if e.1 = Reg.traceFreeze then none
  else match regHit e.1 with
    | none => none
    | some h =>
      if e.2 &&& reservedBits h ≠ 0 then some 13
      else if h.word.rw ≠ 0 ∧ blkDraining s b e.1 then some 60
      else none

/-- Write one word of a block: discarded where no table lists it (R13). -/
def writeWord (b : Blk) (e : Nat × W32) (s : State) : Res State :=
  if e.1 = Reg.traceFreeze then execTraceFreeze e.2 s
  else match regHit e.1 with
    | none => .next s
    | some _ => writeBlk b e.1 (e.2 &&& ~~~(w1cBits e.1)) s

/-- A word whose write starts an action. -/
def actsOnWrite (e : Nat × W32) : Bool :=
  match regHit e.1 with
  | none => false
  | some h => h.word.act != 0

/-- The words of an access in the order in which their effects follow within its one cycle: an action takes the other word as
the same access has written it. -/
def writeOrder (l : List (Nat × W32)) : List (Nat × W32) := l.filter (fun e => !actsOnWrite e) ++ l.filter actsOnWrite

/-- The words an aligned write addresses. -/
def writtenWords (a : Nat) (sz : AccSize) (d : W64) : List (Nat × W32) :=
  if sz = .b64 then [(a, d.setWidth 32), (a + 4, d.extractLsb' 32 32)] else [(a, d.setWidth 32)]

/-- The windows of the cores after a write: those it enables are to be placed as R271 and R370 have it. -/
def windowsJudged (b : Blk) (l : List (Nat × W32)) (s : State) : Res State :=
  if l.any fun e => windowWord b e.1 then
    match windowsOutside s with
    | some r => oc r
    | none => .next s
  else .next s

/-- Write the words of one access in one cycle (R8, R9, R11): W1C bits are cleared before anything that the write sets. -/
def writeWords (b : Blk) (l : List (Nat × W32)) (s : State) : Res State :=
  match l.findSome? (wordOutside s b) with
  | some r => oc r
  | none =>
    let r := (writeOrder l).foldl (fun r e => andThen r (writeWord b e)) (.next (l.foldl w1cClear s))
    andThen r (windowsJudged b l)

/-- BAR0_WRITE (R8 to R14, R515, R533). -/
def execBar0Write (a : BitVec 26) (sz : AccSize) (d : W64) (poisoned : Bool) (s : State) : Res State :=
  if poisoned then hostWrite .time (fun s => .next (poisonedWrite s)) s
  else if !aligned a.toNat sz then hostWrite .time (fun _ => oc 8) s
  else match blkOf a.toNat with
    | none => .next s
    | some b => hostWrite (blkDom b) (writeWords b (writtenWords a.toNat sz d)) s

end Sys2Proof.Machine
end

