-- ==== Sys2Proof/Machine/Contract.lean ====
section
/-! DEFINITION. What the part does once a case that the spec calls outside contract has arisen (R5, R49, R592, R593): the fabric
and everything it holds are free, the selvedge and its pins stay as they are and go on, and a reset and a new full image bring
the fabric back. -/

/-- What the fabric has become when nothing defines what it does any more (R5): any state, at every state from which it goes
on. -/
opaque Sys2Proof.Config.freeFabric : Sys2Proof.Machine.State → Sys2Proof.Machine.State

namespace Sys2Proof.Machine

/-- What a command answers. -/
abbrev Answer := Host.Outcome State Fault Refusal

/-- Every table of the state is in its one canonical form: the register file, device memory, the health of its words, the
cores, the channels and the reserved slots. -/
def State.wf (s : State) : Bool :=
  Tab.wf regReset s.regs && Memory.wf s.memGen s.mem && Tab.wf (fun _ => Health.good) s.health
    && Tab.wf (fun _ => CoreSt.start) s.cores && Tab.wf (fun _ => Chan.idle) s.chans
    && Tab.wf (fun _ => ([] : List Slot)) s.slots

/-- Something the safety port sends. -/
def Out.safety : Out → Bool
  | .telegram _ _ => true
  | _ => false

/-- What a fabric outside contract leaves as it is (R5): the commands that wait, the supplies and clocks, the levels at the inputs,
SAFE_N and SAFE_HB, the selvedge and its registers, a freeze, the TAP, and what has left the part; the fabric may send the selvedge
any events, and may put out anything but telegrams. -/
abbrev SelvedgeKept (s t : State) : Prop :=
  t.pending = s.pending ∧ t.powered = s.powered ∧ t.clk = s.clk ∧
  t.pins.coldN = s.pins.coldN ∧ t.pins.perstN = s.pins.perstN ∧ t.pins.pfN = s.pins.pfN ∧ t.pins.edge = s.pins.edge ∧
  t.pins.safeN = s.pins.safeN ∧ t.pins.safeHb = s.pins.safeHb ∧
  (∀ x, x < 0x100000 → t.rd (0x2600000 + x) = s.rd (0x2600000 + x)) ∧
  { t.selv with inbox := s.selv.inbox } = s.selv ∧ s.selv.inbox <+: t.selv.inbox ∧
  t.frz = s.frz ∧ t.tap = s.tap ∧ t.contract = s.contract ∧
  s.out <:+ t.out ∧ (t.out.take (t.out.length - s.out.length)).all (fun o => !o.safety) = true ∧
  s.freeCtr < t.freeCtr

/-- The next state of a part whose fabric is outside contract: any that leaves the selvedge as it is. -/
def State.corrupt (s : State) : State :=
  let t := Config.freeFabric s
  if SelvedgeKept s t ∧ t.wf = true then t else { s with freeCtr := s.freeCtr + 1 }

/-- A state whose fabric has left its contract is free; any other stands. -/
def State.settle (s : State) : State := if s.contract.broken then s.corrupt else s

/-- A command, or time that passes, as the contract of the fabric has it. Within contract the effect `f` is the command's. A case
outside contract (R591) ends in a next state with the fabric free (R5); so does everything after it until a reset, whatever the
command, with the selvedge judging what the fabric produces (R592, R593). `sel` is what a command outside contract still does
in the selvedge. -/
def inContractWith (sel : State → State) (f : State → Res State) (s : State) : Answer :=
  let s := s.settle
  match f s with
  | .next t => .next t.settle
  | .outside r => .next ((sel s).leave r).settle

/-- The same for a command that does nothing in the selvedge when it is outside contract. -/
def inContract (f : State → Res State) (s : State) : Answer := inContractWith id f s

end Sys2Proof.Machine
end

