-- ==== Sys2Proof/Machine/Branch.lean ====
section
/-! DEFINITION. The branch field (06_instruction_word.md, R197, R212; R162 to R164, R188, R216). -/

namespace Sys2Proof.Machine

/-- Every opcode the branch table lists. -/
def brListed (op : Nat) : Bool := op ≤ 0x0B || op == 0x10 || op == 0x11 || op == 0x12

/-- The branch field raises ILLEGAL (R212): an unlisted opcode, or ERET outside a handler. -/
def brIllegal (w : IWord) (s : State) (k : Nat) : Bool :=
  !brListed (brOp w) || (brOp w == 0x0B && !s.bit (Reg.coreExcStatus k) 1)

/-- The branch field holds a non-zero bit that its table marks 0 (R223). -/
def brReserved (w : IWord) : Bool := brOp w != 0 && brF w 42 22 != 0

/-- The signed offset in words of a relative branch. -/
def brOffset (w : IWord) : Int := if brF w 20 1 = 1 then signedN 48 (immBits w) else signedN 20 (brF w 21 20)

/-- The target of a relative branch: the word's address + offset × 64. -/
def brTarget (w : IWord) (pc : W64) : W64 := pc + BitVec.ofInt 64 (brOffset w * 64)

/-- A register target, bits [5:0] ignored. -/
def brReg (a : W64) : W64 := a &&& ~~~(0x3F#64)

/-- BEQ. -/
def condEq (a b : W64) : Bool := a == b
/-- BNE. -/
def condNe (a b : W64) : Bool := a != b
/-- BLT: signed. -/
def condLt (a b : W64) : Bool := decide (a.toInt < b.toInt)
/-- BGE: signed. -/
def condGe (a b : W64) : Bool := decide (b.toInt ≤ a.toInt)
/-- BLTU: unsigned. -/
def condLtu (a b : W64) : Bool := decide (a.toNat < b.toNat)
/-- BGEU: unsigned. -/
def condGeu (a b : W64) : Bool := decide (b.toNat ≤ a.toNat)

/-- The target of a taken branch, none when the next word follows. -/
def brTaken (w : IWord) (c : CoreSt) : Option W64 :=
  let a := c.sreg (brF w 5 5)
  let b := c.sreg (brF w 10 5)
  let rel (p : Bool) : Option W64 := if p then some (brTarget w c.pc) else none
  match brOp w with
  | 0x01 => rel true
  | 0x02 => rel (condEq a b)
  | 0x03 => rel (condNe a b)
  | 0x04 => rel (condLt a b)
  | 0x05 => rel (condGe a b)
  | 0x06 => rel (condLtu a b)
  | 0x07 => rel (condGeu a b)
  | 0x08 => rel true
  | 0x09 => some (brReg a)
  | 0x0A => some (brReg a)
  | 0x0B => some c.epc
  | _ => none

/-- The address of the word that follows. -/
def brNext (w : IWord) (c : CoreSt) : W64 := (brTaken w c).getD (c.pc + 64)

/-- The link register of BL and BLIR takes the word address + 64. -/
def brWrites (w : IWord) (c : CoreSt) : Writes :=
  if brOp w = 0x08 ∨ brOp w = 0x0A then .ofS (brF w 15 5) (c.pc + 64) else .none

/-- The state a SLEEP asks for, as a power code, none when it waits in the running state (R163). -/
def sleepCode (w : IWord) (pwr : W32) : Option Nat :=
  let doze := pwr.toNat.testBit 0
  if brF w 41 1 = 1 ∧ pwr.toNat.testBit 1 then some (if pwr.toNat.testBit 2 then 2 else 3)
  else if doze then some 1 else none

/-- CORE_PWR and CORE_WATCH take effect at a QWAIT or SLEEP (R188). -/
def takePwr (k : Nat) (s : State) : State :=
  setCore s k { core s k with
    pwr := s.rd (Reg.corePwr k)
    watch := (List.range 8).map fun i => s.rd (Reg.coreWatch0 k + 4 * i) }

/-- SLEEP: the core waits for a wake cause (R163, R164). -/
def brSleep (k : Nat) (w : IWord) (pc : W64) (refused : Option Nat) (s : State) : State :=
  let s := takePwr k s
  let c := core s k
  setCore s k { c with wait := .sleep pc refused, nap := match sleepCode w c.pwr with | none => .awake | some x => .wanted x }

/-- GBAR: complete at once on a core in no group, else wait for the group (R162). -/
def brGbar (k : Nat) (pc : W64) (refused : Option Nat) (s : State) : State :=
  match groupOf s k with
  | none => wordDone k pc refused s
  | some _ => gbarCheck k ((setCore s k { core s k with wait := .barrier pc refused }).putB (Reg.coreStatus k) 6 true)

end Sys2Proof.Machine
end

