-- ==== Sys2Proof/Machine/Scalar.lean ====
section
/-! DEFINITION. The scalar field: one operation for each opcode of the table of 06_instruction_word.md (R194, R202). -/

namespace Sys2Proof.Machine

/-- ADD. -/
def scaAdd (a b : W64) : W64 := a + b
/-- SUB. -/
def scaSub (a b : W64) : W64 := a - b
/-- AND. -/
def scaAnd (a b : W64) : W64 := a &&& b
/-- OR. -/
def scaOr (a b : W64) : W64 := a ||| b
/-- XOR. -/
def scaXor (a b : W64) : W64 := a ^^^ b
/-- SLL: a shifted left by b[5:0]. -/
def scaSll (a b : W64) : W64 := a <<< (b.toNat % 64)
/-- SRL. -/
def scaSrl (a b : W64) : W64 := a >>> (b.toNat % 64)
/-- SRA copies the sign bit. -/
def scaSra (a b : W64) : W64 := a.sshiftRight (b.toNat % 64)
/-- MUL: low 64 bits of the product. -/
def scaMul (a b : W64) : W64 := a * b
/-- MULHU: high 64 bits of the unsigned product. -/
def scaMulhu (a b : W64) : W64 := BitVec.ofNat 64 (a.toNat * b.toNat / 2 ^ 64)
/-- MULHS: high 64 bits of the signed product. -/
def scaMulhs (a b : W64) : W64 := BitVec.ofInt 64 (a.toInt * b.toInt / 2 ^ 64)
/-- SLT: signed. -/
def scaSlt (a b : W64) : W64 := if a.toInt < b.toInt then 1 else 0
/-- SLTU: unsigned. -/
def scaSltu (a b : W64) : W64 := if a.toNat < b.toNat then 1 else 0
/-- MIN: signed. -/
def scaMin (a b : W64) : W64 := if a.toInt < b.toInt then a else b
/-- MAX: signed. -/
def scaMax (a b : W64) : W64 := if a.toInt < b.toInt then b else a
/-- MINU: unsigned. -/
def scaMinu (a b : W64) : W64 := if a.toNat < b.toNat then a else b
/-- MAXU: unsigned. -/
def scaMaxu (a b : W64) : W64 := if a.toNat < b.toNat then b else a
/-- CLZ: leading zeros of a, 64 for 0. -/
def scaClz (a : W64) : W64 := BitVec.ofNat 64 (if a = 0 then 64 else 63 - a.toNat.log2)
/-- POPC: set bits of a. -/
def scaPopc (a : W64) : W64 := BitVec.ofNat 64 (bitsOf 64 a.toNat).length
/-- MOVHI: (a & 0xFFFF) | (IMM << 16), IMM not sign-extended. -/
def scaMovhi (a : W64) (imm : Nat) : W64 := (a &&& 0xFFFF#64) ||| BitVec.ofNat 64 (imm * 65536)

/-- The system register numbers SREAD reads. -/
def sysReadable (n : Nat) : Bool := n ≤ 6
/-- The system register numbers SWRITE may write: EPC and ESCRATCH. -/
def sysWritable (n : Nat) : Bool := n == 3 || n == 6

/-- A system register of core k (R202's table). -/
def sysReg (s : State) (k n : Nat) : W64 :=
  match n with
  | 0 => BitVec.ofNat 64 (core s k).cycle
  | 1 => BitVec.ofNat 64 k
  | 2 => BitVec.ofNat 64 ((corePart s k).getD 0)
  | 3 => (core s k).epc
  | 4 => BitVec.ofNat 64 (s.fld (Reg.coreExcStatus k) 3 4 + 2 ^ 32 * (s.rd (Reg.coreExcInfo k)).toNat)
  | 5 => (core s k).eaddr
  | _ => (core s k).escratch

/-- Operand b of the scalar field: IMM or S[sb]. -/
def scaB (w : IWord) (c : CoreSt) : W64 := if scaF w 23 1 = 1 then immS w else c.sreg (scaF w 18 5)

/-- Every opcode the scalar table lists. -/
def scaListed (op : Nat) : Bool :=
  op ≤ 0x11 || op == 0x13 || op == 0x14 || op == 0x20 || op == 0x21 || op == 0x30 || op == 0x31

/-- The scalar field raises ILLEGAL (R202). -/
def scaIllegal (w : IWord) (c : CoreSt) : Bool :=
  let n := (scaB w c).toNat % 256
  !scaListed (scaOp w) || (scaOp w == 0x30 && !sysReadable n) || (scaOp w == 0x31 && !sysWritable n)

/-- The result of the scalar field from operands a and b. -/
def scaResult (op : Nat) (a b : W64) (imm : Nat) (sys : Nat → W64) : W64 :=
  match op with
  | 0x01 => scaAdd a b
  | 0x02 => scaSub a b
  | 0x03 => scaAnd a b
  | 0x04 => scaOr a b
  | 0x05 => scaXor a b
  | 0x06 => scaSll a b
  | 0x07 => scaSrl a b
  | 0x08 => scaSra a b
  | 0x09 => scaMul a b
  | 0x0A => scaMulhu a b
  | 0x0B => scaMulhs a b
  | 0x0C => scaSlt a b
  | 0x0D => scaSltu a b
  | 0x0E => scaMin a b
  | 0x0F => scaMax a b
  | 0x10 => scaMinu a b
  | 0x11 => scaMaxu a b
  | 0x13 => scaClz a
  | 0x14 => scaPopc a
  | 0x20 => b
  | 0x21 => scaMovhi a imm
  | _ => sys (b.toNat % 256)

/-- The register result of the scalar field, from the word-entry state. -/
def scaWrites (k : Nat) (w : IWord) (s : State) : Writes :=
  let c := core s k
  if scaOp w = 0 ∨ scaOp w = 0x31 then .none
  else .ofS (scaF w 8 5) (scaResult (scaOp w) (c.sreg (scaF w 13 5)) (scaB w c) (immBits w) (sysReg s k))

/-- SWRITE: EPC or ESCRATCH takes operand a. -/
def scaSys (k : Nat) (w : IWord) (entry : CoreSt) (s : State) : State :=
  if scaOp w = 0x31 then
    let a := entry.sreg (scaF w 13 5)
    if (scaB w entry).toNat % 256 = 3 then setCore s k { core s k with epc := a }
    else setCore s k { core s k with escratch := a }
  else s

/-- The scalar field holds a non-zero bit that its table marks 0 (R223). -/
def scaReserved (w : IWord) : Bool := scaOp w != 0 && scaF w 24 40 != 0

end Sys2Proof.Machine
end

