-- ==== Sys2Proof/Machine/Sparse.lean ====
section
/-! DEFINITION. The matcher of the sparse unit: the occupancy hierarchy, nonzero maps, pair lists and count tables
(11_sparse_execution.md, R341 to R353, R363, R365 to R367). -/

namespace Sys2Proof.Machine

/-! ### What makes a job outside contract (R365 to R367) -/

/-- A range lies wholly within the local store of core k or the shared store (R365). -/
def jobReach (k : Nat) (r : Nat × Nat) : Bool :=
  r.2 == 0 || (inLocal k r.1 && inLocal k (r.1 + r.2 - 1)) || (decide (sharedBase ≤ r.1) && inOnDie (r.1 + r.2 - 1))

/-- A range lies wholly within the local store of core k. -/
def ownReach (k : Nat) (r : Nat × Nat) : Bool := r.2 == 0 || (inLocal k r.1 && inLocal k (r.1 + r.2 - 1))

/-- The grid buffer of the intake at an address, with whether it is OPEN. -/
def intakeGrid (s : State) (a : Nat) : Option (Grid × Bool) :=
  (s.intake.grids.map Prod.snd).findSome? fun g =>
    if g.buf0 = a then some (g, g.b0.st == .open) else if g.buf1 = a then some (g, g.b1.st == .open) else none

/-- A grid of the descriptor differs from the intake's own (R367), or is still OPEN (R366). -/
def gridOutside (s : State) (g : GridRef) : Option Nat :=
  match intakeGrid s g.base with
  | none => none
  | some (x, isOpen) =>
    if isOpen then some 366
    else if x.nb ≠ [g.nx, g.ny, g.nz] ∨ x.capBlocks ≠ g.cap then some 367 else none

/-- What makes a job outside contract (R365 to R367): its rule, if any. -/
def jobOutside (k : Nat) (d : List Byte) (s : State) : Option Nat :=
  let kind := jobKind d
  let gs := jobGrids d
  let offs := (List.range (jobOffs d)).map (jobOffset s d)
  let bad (c : Int) : Bool := c < -4 || 4 < c
  let res := leAt d 3 1 / 4 ≠ 0 ∨ leAt d 0x56 2 ≠ 0 ∨ leAt d 0x78 8 ≠ 0
  let tab := (leAt d 0x20 8, 4 * jobOffs d)
  if (jobStride d ≠ 1 ∧ jobStride d ≠ 2) ∨ jobOffs d = 0 ∨ 125 < jobOffs d ∨ res then some 367
  else match gs.findSome? (gridOutside s) with
    | some r => some r
    | none =>
      if gs.any (fun g => !jobReach k g.range || (g.brickRanges s).any fun r => !jobReach k r) then some 365
      else if kind = 3 then (if (jobMaps s d ++ jobRows s d).any fun r => !jobReach k r then some 365 else none)
      else if !jobReach k tab || !ownReach k (leAt d 0x28 8, 256 * leAt d 4 4) || !ownReach k (leAt d 0x30 8, 0x10 + 8 * jobOffs d) then some 365
      else if (leAt d 3 1).testBit 0 && (jobMaps s d).any fun r => !jobReach k r then some 365
      else if offs.any (fun o => bad o.1 || bad o.2.1 || bad o.2.2)
          || (List.range (jobOffs d)).any (fun q => s.leMem (leAt d 0x20 8 + 4 * q + 3) 1 ≠ 0) then some 367
      else none

/-! ### Matching (R349 to R352) -/

/-- The pairs of one offset in walk order: input index, and output index minus out_lo. -/
def matchSparse (s : State) (d : List Byte) (o : Int × Int × Int) : List (Nat × Nat) :=
  let lo := leAt d 0x38 4
  ((jobOut d).walk s).filterMap fun v =>
    match (jobIn d).find s (jobStride d * v.x + o.1) (jobStride d * v.y + o.2.1) (jobStride d * v.z + o.2.2) with
    | none => none
    | some i =>
      if ((leAt d 3 1).testBit 0 && !nonzero s d i) || v.key < lo || lo + leAt d 0x3C 4 ≤ v.key then none
      else some (i.key, v.key - lo)

/-- An output coordinate of MATCH_DENSE relative to its box, if it is an integer inside it. -/
def boxTerm (i d : Int) (st x0 w : Nat) : Option Nat :=
  if (i - d) % (st : Int) ≠ 0 then none
  else
    let t := (i - d) / (st : Int) - x0
    if t < 0 ∨ (w : Int) ≤ t then none else some t.toNat

/-- The pairs of one offset of MATCH_DENSE. -/
def matchDense (s : State) (d : List Byte) (o : Int × Int × Int) : List (Nat × Nat) :=
  let lo := leAt d 0x38 4
  let wx := leAt d 0x4C 2
  let wy := leAt d 0x4E 2
  let st := jobStride d
  ((jobIn d).walk s).filterMap fun v =>
    if (leAt d 3 1).testBit 0 && !nonzero s d v then none
    else
      let x := boxTerm v.x o.1 st (leAt d 0x40 4) wx
      let y := boxTerm v.y o.2.1 st (leAt d 0x44 4) wy
      let z := if (leAt d 3 1).testBit 1 then (if ((v.z : Int) - o.2.2) % (st : Int) = 0 then some 0 else none)
        else boxTerm v.z o.2.2 st (leAt d 0x48 4) (leAt d 0x50 2)
      match x, y, z with
      | some x, some y, some z =>
        let u := x + wx * (y + wy * z)
        if u < lo || lo + leAt d 0x3C 4 ≤ u then none else some (v.key, u - lo)
      | _, _, _ => none

/-- Groups that hold n pairs. -/
def groupsOf (n : Nat) : Nat := (n + 31) / 32

/-- The bytes of the groups of one offset, padded with null pairs (R350, R351). -/
def groupBytes (l : List (Nat × Nat)) : List Byte :=
  l.flatMap (fun p => natLe 4 p.1 ++ natLe 4 p.2) ++ ffs (8 * (32 * groupsOf l.length - l.length))

/-- Write the offsets' groups while they fit: what has been written, whether the capacity was hit, pairs and groups of
each offset (R352). -/
def writeGroups (base cap : Nat) : List (List (Nat × Nat)) → Nat → Bool → State → Nat × Bool × List (Nat × Nat) × State
  | [], g, hit, s => (g, hit, [], s)
  | l :: ls, g, hit, s =>
    let want := groupsOf l.length
    let n := if hit then 0 else min want (cap - g)
    let l' := l.take (32 * n)
    let s := putEngine (base + g * 256) (groupBytes l') s
    let (g', hit', cs, s) := writeGroups base cap ls (g + n) (hit || decide (n < want)) s
    (g', hit', (l'.length, n) :: cs, s)

/-- Add to the 64-bit count of pairs written. -/
def countPairs (k n : Nat) (s : State) : State :=
  pmcCount 0x0C k n (s.wrQ (Reg.sparsePairs k) 2 (s.rdQ (Reg.sparsePairs k) 2 + n))

/-- Run a matching job: the pair list is written, the count table waits for the job's end. -/
def runMatch (k : Nat) (d : List Byte) (f : State → List Byte → Int × Int × Int → List (Nat × Nat)) (s : State) :
    (Nat × Bool × Nat × List (Nat × Nat)) × State :=
  let offs := (List.range (jobOffs d)).map (jobOffset s d)
  let (g, hit, cs, s) := writeGroups (leAt d 0x28 8) (leAt d 4 4) (offs.map (f s d)) 0 false s
  let n := (cs.map Prod.fst).sum
  let s := countPairs k n s
  ((g, hit, n, cs), if hit then s.putB (Reg.sparseStatus k) 2 true else s)

/-! ### Nonzero maps (R348) -/

/-- An element is non-zero; with flt a lone sign bit is zero. -/
def elemNonzero (flt : Bool) (z v : Nat) : Bool := v != 0 && !(flt && v == 2 ^ (8 * z - 1))

/-- The feature row of a voxel has a non-zero element. -/
def rowNonzero (s : State) (d : List Byte) (v : GridVoxel) : Bool :=
  let z := max 1 (leAt d 0x54 1)
  let bs := s.bytes (leAt d 0x58 8 + v.key * leAt d 0x60 4) (leAt d 0x52 2)
  (List.range ((bs.length + z - 1) / z)).any fun i => elemNonzero ((leAt d 0x55 1).testBit 0) z (leAt bs (z * i) z)

/-- Write the map of one present brick. -/
def nzBrick (d : List Byte) (g : GridRef) (s0 : State) (s : State) (ij : Nat × Nat) : State :=
  let b := g.brickOf s0 ij.1 ij.2
  let bits := (mapBits s0 (g.brickAt b) 512).filter fun v => rowNonzero s0 d (g.voxel s0 ij.1 ij.2 v)
  putEngine (leAt d 0x18 8 + b * 64) (natLe 64 (bits.map fun v => 2 ^ v).sum) s

/-- Run an NZMAP job. -/
def runNzmap (d : List Byte) (s : State) : State :=
  let g := jobIn d
  ((mapBits s (g.base + 0x80) g.blocks).flatMap fun i => (mapBits s (g.block i) 512).map fun j => (i, j)).foldl (nzBrick d g s) s

/-! ### Commands -/

/-- The oldest sparse job of core k: its place among the transfers, and its descriptor. -/
def oldestJob (s : State) (k : Nat) : Option (Nat × Dma × List Byte) := firstJob (core s k)

/-- Mark job number i as run. -/
def markRan (k i : Nat) (x : Nat × Bool × Nat × List (Nat × Nat)) (s : State) : State :=
  setCore s k { core s k with dma := (core s k).dma.zipIdx.map fun (d, n) => if n = i then { d with ran := some x } else d }

/-- Run the oldest job when it is of kind `kind` and not yet run. -/
def runJob (kind : Nat) (k : CoreId) (f : List Byte → State → (Nat × Bool × Nat × List (Nat × Nat)) × State) (s : State) : Res State :=
  match oldestJob s k with
  | none => .next s
  | some (i, d, j) =>
    onlyIfR (s.cclk && coreState s k == 1 && jobKind j == kind && d.ran.isNone && !d.lost) (fun s =>
      match jobOutside k j s with
      | some r => oc r
      | none => let (x, s) := f j s; .next (markRan k i x s)) s

/-- MATCH_SPARSE (R349). -/
def execMatchSparse (k : CoreId) (s : State) : Res State := runJob 1 k (fun d s => runMatch k d matchSparse s) s

/-- MATCH_DENSE (R349). -/
def execMatchDense (k : CoreId) (s : State) : Res State := runJob 2 k (fun d s => runMatch k d matchDense s) s

/-- NZMAP (R348). -/
def execNzmap (k : CoreId) (s : State) : Res State := runJob 3 k (fun d s => ((0, false, 0, []), runNzmap d s)) s

/-- The count table of a matching job (R351, R352). -/
def countTable (x : Nat × Bool × Nat × List (Nat × Nat)) : List Byte :=
  natLe 4 x.1 ++ natLe 4 (if x.2.1 then 1 else 0) ++ natLe 4 x.2.2.1 ++ natLe 4 0
    ++ x.2.2.2.flatMap fun c => natLe 4 c.1 ++ natLe 4 c.2

/-- The end of job number i: count table, completion element, counts; an abandoned job writes no count table (R346, R347,
R353, R363). -/
def endJob (k : CoreId) (i : Nat) (d : Dma) (j : List Byte) (s : State) : State :=
  let kind := jobKind j
  let s := match d.ran with
    | some x => if (kind == 1 || kind == 2) && !d.lost then putEngine (leAt j 0x30 8) (countTable x) s else s
    | none => if d.lost then s else s.putB (Reg.sparseStatus k) 3 true
  let s := if d.lost then s else s.sat (Reg.sparseJobs k)
  let s := setCore s k { core s k with dma := (core s k).dma.eraseIdx i }
  dmaCommit d (s.putB (Reg.sparseStatus k) 0 ((core s k).dma.any fun x => x.job.isSome))

/-- SPARSE_JOB_COMPLETE (R353): the oldest job has run, is of no known kind, or was abandoned by a drain. -/
def execSparseJobComplete (k : CoreId) (s : State) : Res State :=
  match oldestJob s k with
  | none => .next s
  | some (i, d, j) =>
    let kind := jobKind j
    onlyIfR (s.cclk && (d.lost || d.ran.isSome || kind == 0 || 3 < kind))
      (fun s => engAccess s (commitRange s d.cmplQ) fun s => .next (endJob k i d j s)) s

end Sys2Proof.Machine
end

