-- ==== Sys2Proof/Machine/Tq.lean ====
section
/-! DEFINITION. The tile-queue field: core queue operations and tile reads (06_instruction_word.md R207 to R211;
05_cores_and_queues.md R164, R169 to R172, R177, R178). -/

namespace Sys2Proof.Machine

/-! ### Fields -/

/-- The queue named. -/
def tqQ (w : IWord) : Nat := tqF w 6 10
/-- Destination S register. -/
def tqRd (w : IWord) : Nat := tqF w 16 5
/-- Source S register. -/
def tqRs (w : IWord) : Nat := tqF w 21 5
/-- Count. -/
def tqN (w : IWord) : Nat := tqF w 26 4 + 1
/-- Non-blocking form. -/
def tqNb (w : IWord) : Bool := tqF w 30 1 == 1
/-- Array. -/
def tqArr (w : IWord) : Nat := tqF w 31 2
/-- Destination V register. -/
def tqVd (w : IWord) : Nat := tqF w 33 5

/-- Every tile-queue opcode the table lists. -/
def tqListed (op : Nat) : Bool := op ≤ 5 || (8 ≤ op && op ≤ 0xB)

/-- The tile-queue field raises ILLEGAL: an unlisted opcode, or QRES or QACQ with rd = 31 (R207). -/
def tqIllegal (w : IWord) : Bool := !tqListed (tqOp w) || ((tqOp w == 1 || tqOp w == 3) && tqRd w == 31)

/-- The tile-queue field holds a non-zero bit that its table marks 0 (R223). -/
def tqReserved (w : IWord) : Bool := tqOp w != 0 && tqF w 48 16 != 0

/-! ### Queue operations -/

/-- Core k may produce into queue q (R209). -/
def mayProduce (s : State) (k q : Nat) : Bool := qProd s q == 1 && s.bit (Reg.queueProdMask q) k
/-- Core k is the consuming core of queue q (R209). -/
def mayConsume (s : State) (k q : Nat) : Bool := qCons s q == 1 && s.fld (Reg.queueCfg q) 24 5 == k

/-- What a queue operation does: registers and state, refused, or not yet. -/
inductive QOut where
  | done (w : Writes) (s : State)
  | refused
  | blocks
  deriving DecidableEq, Repr

/-- The result registers of QRES and QACQ (R207); the two writes fall in order. With a status that is not OK S[rd] is 0, and
S[rd+1] still holds its other fields. -/
def qResult (w : IWord) (addr status rest : Nat) : Writes :=
  ⟨[(tqRd w, BitVec.ofNat 64 addr), (tqRd w + 1, BitVec.ofNat 64 (status * 2 ^ 60 + rest))], [], []⟩

/-- QUEUE packet of a queue operation: 0 QRES, 1 QCMT, 2 QACQ, 3 QREL (R541's table). -/
def qTrace (k op : Nat) (w : IWord) (ctr status : Nat) (s : State) : State :=
  traceFiltered k 1 0x7 (tqQ w + 2 ^ 10 * (ctr % 2 ^ 32) + 2 ^ 42 * op + 2 ^ 44 * (if tqNb w && status != 0 then 1 else 0)) s

/-- The operation that core k waits in has been answered CLOSED (R177, R178). -/
def waitClosed (s : State) (k : Nat) : Bool :=
  match (core s k).wait with
  | .queue _ closed => closed
  | _ => false

/-- A QRES that reserves nothing gives no slot counter: S[rd+1][31:0] is a free value (R207; log entry 75). -/
def noSlot (s : State) : Nat := (Config.freeWord s.freeCtr).toNat

/-- QRES (R169, R177, R207 to R209). -/
def tqQres (k : Nat) (w : IWord) (s : State) : QOut :=
  let q := tqQ w
  let n := tqN w
  if waitClosed s k then .done (qResult w 0 3 (noSlot s)) (qTrace k 0 w 0 3 s.tickFree)
  else if qState s q = 3 then .done (qResult w 0 3 (noSlot s)) (qTrace k 0 w 0 3 s.tickFree)
  else if !mayProduce s k q then .refused
  else if qState s q ≠ 1 then .done (qResult w 0 3 (noSlot s)) (qTrace k 0 w 0 3 (s.sat (Reg.queueRefused q)).tickFree)
  else if n ≤ qFree s q then
    let c := (qResv s q).toNat
    .done (qResult w (qSlot s q c) 0 c) (qTrace k 0 w c 0 (qReserve q n (.core k) s))
  else if tqNb w then .done (qResult w 0 1 (noSlot s)) (qTrace k 0 w 0 1 s.tickFree)
  else .blocks

/-- QACQ (R169, R177, R207 to R209). -/
def tqQacq (k : Nat) (w : IWord) (s : State) : QOut :=
  let q := tqQ w
  let c := (qHead s q).toNat
  let rest := qFill s q % 2 ^ 17 * 2 ^ 32 + c
  if waitClosed s k then .done (qResult w 0 3 rest) (qTrace k 2 w 0 3 s)
  else if qState s q = 3 then .done (qResult w 0 3 rest) (qTrace k 2 w 0 3 s)
  else if !mayConsume s k q then .refused
  else if qState s q = 0 then .done (qResult w 0 3 rest) (qTrace k 2 w 0 3 s)
  else if qFill s q ≠ 0 then .done (qResult w (qSlot s q c) 0 rest) (qTrace k 2 w c 0 s)
  else if tqNb w then .done (qResult w 0 2 rest) (qTrace k 2 w 0 2 s)
  else .blocks

/-- QCMT (R170, R172, R208, R209). -/
def tqQcmt (k : Nat) (w : IWord) (c : CoreSt) (s : State) : QOut :=
  let q := tqQ w
  let n := (c.sreg (tqRs w)).toNat
  if qState s q = 3 then .done .none (qTrace k 1 w n 3 s)
  else if !mayProduce s k q || !holdsSlot s k q n then .refused
  else .done .none (qTrace k 1 w n 0 (qCommit q n s))

/-- QREL (R172, R208, R209). -/
def tqQrel (k : Nat) (w : IWord) (c : CoreSt) (s : State) : QOut :=
  let q := tqQ w
  let n := if tqF w 46 1 = 1 then (c.sreg (tqRs w)).toNat else tqN w
  if qState s q = 3 then .done .none (qTrace k 3 w 0 3 s)
  else if !mayConsume s k q || n == 0 || decide (qFill s q < n) then .refused
  else .done .none (qTrace k 3 w (qHead s q).toNat 0 (qRel q n s))

/-- The branch field of a word links into S register `r`, so that what a lower field writes there does not remain (R195). -/
def brLinks (w : IWord) (r : Nat) : Bool := (brOp w == 0x08 || brOp w == 0x0A) && brF w 15 5 == r

/-- QWAIT (R164, R188, R195, R210): the result at once when a watched queue holds an element, else the core waits. -/
def tqQwait (k : Nat) (w : IWord) (pc : W64) (gbar : Bool) (s : State) : QOut :=
  let s := takePwr k s
  let c := core s k
  if (watched c).any fun x => qFill s x.2 != 0 then .done (.ofS (tqRd w) (qwaitResult s c)) s
  else .done .none (setCore s k { c with wait := .qwait pc (if brLinks w (tqRd w) then none else some (tqRd w)) gbar, nap := .awake })

/-! ### Tiles (R211, R238) -/

/-- The complete tile at the head of array a's queue. -/
def headTile (s : State) (k a : Nat) : Option Tile := ((tqOf s k a).head?).filter Tile.complete

/-- A row or column of a tile as a V register (R211). -/
def tileRead (w : IWord) (c : CoreSt) (s : State) (k : Nat) (t : Tile) : VReg :=
  let i := if tqF w 47 1 = 1 then (c.sreg (tqRs w)).toNat % 128 else tqF w 38 7
  vOfBytes (if tqF w 45 1 = 1 then tileCol t (i % presented s k (tqArr w) t.paired) else tileRow t (i % 32))

/-- Operations that produce what a TRDT reads (R201). -/
def viewPending (s : State) (k a : Nat) : Bool :=
  (feeding s k ++ (arrs s k).flight).any fun p => (p.hasAct || p.op == .aclr) && p.amask.testBit a

/-- The tile-queue field cannot issue yet: for want of a tile (R198, R201), or a commit while an earlier store of the core,
a submitted command, is not complete (R157, R387). -/
def tqWaits (k : Nat) (w : IWord) (s : State) : Bool :=
  match tqOp w with
  | 0x08 => (headTile s k (tqArr w)).isNone
  | 0x0A => (headTile s k (tqArr w)).isNone
  | 0x09 => viewPending s k (tqArr w)
  | 0x02 => portWaits s k
  | _ => false

/-- TRD. -/
def tqTrd (k : Nat) (w : IWord) (c : CoreSt) (s : State) : QOut :=
  match headTile s k (tqArr w) with
  | none => .blocks
  | some t => .done (.ofV (tqVd w) (tileRead w c s k t)) s
/-- TRDT. -/
def tqTrdt (k : Nat) (w : IWord) (c : CoreSt) (s : State) : QOut :=
  .done (.ofV (tqVd w) (tileRead w c s k (tileOf s k (tqArr w)))) s
/-- TPOP. -/
def tqTpop (k : Nat) (w : IWord) (s : State) : QOut :=
  let a := tqArr w
  let l := (tqOf s k a).drop 1
  .done .none ((setArr k { arrs s k with tq := Tab.set (fun _ => []) (arrs s k).tq a l } s).putF (Reg.arrayTq0 k + 0x10 * a) 0 3 l.length)
/-- TSTAT: visible tiles of A0 to A3 in bytes 0 to 3. -/
def tqTstat (k : Nat) (w : IWord) (s : State) : QOut :=
  .done (.ofS (tqRd w) (BitVec.ofNat 64 (((List.range 4).map fun a => ((tqOf s k a).filter Tile.complete).length * 256 ^ a).sum))) s

/-- The tile-queue field of a word at `pc`; `entry` is the core at word entry. -/
def tqEffect (k : Nat) (w : IWord) (entry : CoreSt) (gbar : Bool) (s : State) : QOut :=
  match tqOp w with
  | 0x01 => tqQres k w s
  | 0x02 => tqQcmt k w entry s
  | 0x03 => tqQacq k w s
  | 0x04 => tqQrel k w entry s
  | 0x05 => tqQwait k w entry.pc gbar s
  | 0x08 => tqTrd k w entry s
  | 0x09 => tqTrdt k w entry s
  | 0x0A => tqTpop k w s
  | 0x0B => tqTstat k w s
  | _ => .done .none s

/-- V registers the tile-queue field writes. -/
def tqWritesV (w : IWord) : List Nat := if tqOp w = 8 ∨ tqOp w = 9 then [tqVd w] else []

end Sys2Proof.Machine
end

