-- ==== Sys2Proof/Machine/Flags.lean ====
section
/-! DEFINITION. The flags of the vector engine, VEC_STATUS (09_vector_engine.md R289, R302, R314;
10_formats_and_functions.md R323). The scalar field has no flags: branches compare registers. -/

namespace Sys2Proof.Machine

/-- What one lane or operation sets in VEC_STATUS. -/
structure VecFlags where
  sat : Bool
  invalid : Bool
  overflow : Bool
  divZero : Bool
  deriving DecidableEq, Repr

/-- No flag. -/
def VecFlags.none : VecFlags := ⟨false, false, false, false⟩
/-- Flags of two lanes. -/
def VecFlags.join (a b : VecFlags) : VecFlags := ⟨a.sat || b.sat, a.invalid || b.invalid, a.overflow || b.overflow, a.divZero || b.divZero⟩
/-- Flags of a list of lanes. -/
def VecFlags.all (l : List VecFlags) : VecFlags := l.foldl VecFlags.join .none
/-- An integer clamp that changed a value (R289). -/
def VecFlags.ofSat (b : Bool) : VecFlags := ⟨b, false, false, false⟩

/-- The bits of VEC_STATUS. -/
def VecFlags.word (f : VecFlags) : W32 :=
  BitVec.ofNat 32 ((if f.sat then 1 else 0) + (if f.invalid then 2 else 0) + (if f.overflow then 4 else 0) + (if f.divZero then 8 else 0))

/-- Set flags in VEC_STATUS of core k; none is cleared. -/
def setVecFlags (k : Nat) (f : VecFlags) (s : State) : State := s.wr (Reg.vecStatus k) (s.rd (Reg.vecStatus k) ||| f.word)

/-- A lane of an integer result: wrapped, or clamped with the flag of a clamp (R289). -/
def intLane (i : IFmt) (sat : Bool) (x : Int) : Nat × VecFlags :=
  let (b, c) := i.put sat x
  (b, .ofSat c)

/-- A lane of a floating result: rounded once; invalid when it is NaN though no operand is, overflow by R323. -/
def fltLane (f : FFmt) (rnd : Nat) (sat : Bool) (x : FVal) (ops : List FVal) : Nat × VecFlags :=
  let (b, o) := f.round rnd sat x
  (b, ⟨false, x.isNan && !(ops.any FVal.isNan), o, false⟩)

end Sys2Proof.Machine
end

