-- ==== Sys2Proof/Machine/Vector.lean ====
section
/-! DEFINITION. The vector field: one operation for each opcode of the table of 06_instruction_word.md
(09_vector_engine.md, 10_formats_and_functions.md). -/

namespace Sys2Proof.Machine

/-- A lane's bits and the flags it sets. -/
abbrev Lane := Nat × VecFlags

/-! ### Fields and lanes (R284 to R286) -/

/-- Element type code. -/
def vFmt (w : IWord) : Nat := vecF w 10 4
/-- Destination register. -/
def vVd (w : IWord) : Nat := vecF w 14 5
/-- Operand registers. -/
def vVa (w : IWord) : Nat := vecF w 19 5
def vVb (w : IWord) : Nat := vecF w 24 5
def vVc (w : IWord) : Nat := vecF w 29 5
/-- Masking predicate. -/
def vPm (w : IWord) : Nat := vecF w 34 3
def vPmEn (w : IWord) : Bool := vecF w 37 1 == 1
def vPmZero (w : IWord) : Bool := vecF w 38 1 == 1
/-- Destination predicate. -/
def vPd (w : IWord) : Nat := vecF w 44 3
def vRnd (w : IWord) : Nat := vecF w 48 2
def vSat (w : IWord) : Bool := vecF w 50 1 == 1
def vCtl (w : IWord) : Nat := vecF w 51 13
/-- The scalar operand (R286). -/
def vScalar (w : IWord) (c : CoreSt) : W64 := if vecF w 47 1 = 1 then immS w else c.sreg (vecF w 39 5)

/-- The lanes of a register for elements of `b` bits. -/
def lanes (b : Nat) (v : VReg) : List Nat := (List.range (4096 / b)).map fun k => fieldN v.toNat (k * b) b
/-- A register of lanes of `b` bits. -/
def ofLanes (b : Nat) (l : List Nat) : VReg := BitVec.ofNat 4096 (l.foldr (fun x acc => x % 2 ^ b + 2 ^ b * acc) 0)
/-- Lane k is masked (R285). -/
def masked (w : IWord) (c : CoreSt) (b k : Nat) : Bool := vPmEn w && !(c.preg (vPm w)).getLsbD (k * b / 8)

/-- A result lane by lane: masked lanes are zero or keep their old value and set no flag (R285). -/
def byLane (w : IWord) (c : CoreSt) (b : Nat) (f : Nat → Lane) : Writes × VecFlags :=
  let old := lanes b (c.vreg (vVd w))
  let r := old.zipIdx.map fun (o, k) => if masked w c b k then (if vPmZero w then 0 else o, VecFlags.none) else f k
  (.ofV (vVd w) (ofLanes b (r.map Prod.fst)), .all (r.map Prod.snd))

/-- A result without a mask. -/
def allLanes (w : IWord) (b : Nat) (l : List Lane) : Writes × VecFlags :=
  (.ofV (vVd w) (ofLanes b (l.map Prod.fst)), .all (l.map Prod.snd))

/-- Bits of an element of the word's type. -/
def vBits (w : IWord) : Nat := elemBits (vFmt w)

/-- Lane by lane from the lanes of a, b and c. -/
def map3 (w : IWord) (c : CoreSt) (f : Nat → Nat → Nat → Lane) : Writes × VecFlags :=
  let b := vBits w
  let la := (lanes b (c.vreg (vVa w))).toArray
  let lb := (lanes b (c.vreg (vVb w))).toArray
  let lc := (lanes b (c.vreg (vVc w))).toArray
  byLane w c b fun k => f (la.getD k 0) (lb.getD k 0) (lc.getD k 0)

/-- The lane of an integer or floating function of up to three operands (R289, R290). -/
def numLane (w : IWord) (fi : IFmt → List Int → Int) (ff : List FVal → FVal) (ops : List Nat) : Lane :=
  match floatFmt (vFmt w) with
  | some f => let xs := ops.map f.decode; fltLane f (vRnd w) (vSat w) (ff xs) xs
  | none =>
    match intFmt (vFmt w) with
    | some i => intLane i (vSat w) (fi i (ops.map i.val))
    | none => (0, .none)

/-! ### Arithmetic (R289, R290) -/

/-- VADD. -/
def vecAdd (w : IWord) (c : CoreSt) : Writes × VecFlags :=
  map3 w c fun a b _ => numLane w (fun _ l => l.getD 0 0 + l.getD 1 0) (fun l => (l.getD 0 .nan).add (vRnd w) (l.getD 1 .nan)) [a, b]
/-- VSUB. -/
def vecSub (w : IWord) (c : CoreSt) : Writes × VecFlags :=
  map3 w c fun a b _ => numLane w (fun _ l => l.getD 0 0 - l.getD 1 0) (fun l => (l.getD 0 .nan).add (vRnd w) (l.getD 1 .nan).neg) [a, b]
/-- VMUL. -/
def vecMul (w : IWord) (c : CoreSt) : Writes × VecFlags :=
  map3 w c fun a b _ => numLane w (fun _ l => l.getD 0 0 * l.getD 1 0) (fun l => (l.getD 0 .nan).mul (l.getD 1 .nan)) [a, b]
/-- VMULH: the upper half of the exact product; sat is ignored. -/
def vecMulh (w : IWord) (c : CoreSt) : Writes × VecFlags :=
  map3 w c fun a b _ =>
    match intFmt (vFmt w) with
    | some i => (wrapN i.bits (i.val a * i.val b / (2 ^ i.bits : Nat)), .none)
    | none => (0, .none)
/-- VFMA: a × b + c rounded once. -/
def vecFma (w : IWord) (c : CoreSt) : Writes × VecFlags :=
  map3 w c fun a b x => numLane w (fun _ l => l.getD 0 0 * l.getD 1 0 + l.getD 2 0)
    (fun l => ((l.getD 0 .nan).mul (l.getD 1 .nan)).add (vRnd w) (l.getD 2 .nan)) [a, b, x]

/-- The lesser or greater of two elements as bits; NaN if either is NaN (R290). -/
def pickNum (fmt : Nat) (max : Bool) (a b : Nat) : Nat :=
  match floatFmt fmt with
  | some f =>
    let x := f.decode a
    let y := f.decode b
    if x.isNan || y.isNan then f.nanBits else if x.ltz y != max then a else b
  | none =>
    match intFmt fmt with
    | some i => if decide (i.val a < i.val b) != max then a else b
    | none => 0

/-- VMIN. -/
def vecMin (w : IWord) (c : CoreSt) : Writes × VecFlags := map3 w c fun a b _ => (pickNum (vFmt w) false a b, .none)
/-- VMAX. -/
def vecMax (w : IWord) (c : CoreSt) : Writes × VecFlags := map3 w c fun a b _ => (pickNum (vFmt w) true a b, .none)
/-- VABS: on floating types only the sign bit changes. -/
def vecAbs (w : IWord) (c : CoreSt) : Writes × VecFlags :=
  map3 w c fun a _ _ =>
    match intFmt (vFmt w) with
    | some i => intLane i (vSat w) (i.val a).natAbs
    | none => (a % 2 ^ (vBits w - 1), .none)
/-- VNEG. -/
def vecNeg (w : IWord) (c : CoreSt) : Writes × VecFlags :=
  map3 w c fun a _ _ =>
    match intFmt (vFmt w) with
    | some i => intLane i (vSat w) (-(i.val a))
    | none => (a.xor (2 ^ (vBits w - 1)), .none)

/-! ### Bitwise, shifts, moves (R291) -/

/-- VAND. -/
def vecAnd (w : IWord) (c : CoreSt) : Writes × VecFlags := map3 w c fun a b _ => (a.land b, .none)
/-- VOR. -/
def vecOr (w : IWord) (c : CoreSt) : Writes × VecFlags := map3 w c fun a b _ => (a.lor b, .none)
/-- VXOR. -/
def vecXor (w : IWord) (c : CoreSt) : Writes × VecFlags := map3 w c fun a b _ => (a.xor b, .none)
/-- VNOT. -/
def vecNot (w : IWord) (c : CoreSt) : Writes × VecFlags := map3 w c fun a _ _ => (2 ^ vBits w - 1 - a, .none)

/-- The shift count; every count of 128 or more acts alike. -/
def vCount (w : IWord) (c : CoreSt) : Nat := min (vScalar w c).toNat 128
/-- A lane of an integer shift. -/
def shiftLane (w : IWord) (f : IFmt → Nat → Lane) (a : Nat) : Lane :=
  match intFmt (vFmt w) with
  | some i => f i a
  | none => (0, .none)
/-- VSHL: a × 2^c. -/
def vecShl (w : IWord) (c : CoreSt) : Writes × VecFlags :=
  map3 w c fun a _ _ => shiftLane w (fun i a => intLane i (vSat w) (i.val a * (2 ^ vCount w c : Nat))) a
/-- VSHR: logical. -/
def vecShr (w : IWord) (c : CoreSt) : Writes × VecFlags := map3 w c fun a _ _ => (a / 2 ^ vCount w c, .none)
/-- VSHRA: arithmetic. -/
def vecShra (w : IWord) (c : CoreSt) : Writes × VecFlags :=
  map3 w c fun a _ _ => shiftLane w (fun i a => (wrapN i.bits (i.val a / (2 ^ vCount w c : Nat)), .none)) a
/-- An exact quotient x / 2^c rounded to an integer. -/
def roundQuot (rnd c : Nat) (x : Int) : Int := FVal.toInt rnd ((FVal.ofInt x).scale (-(c : Int)))
/-- VSHRR: rounded in the mode. -/
def vecShrr (w : IWord) (c : CoreSt) : Writes × VecFlags :=
  map3 w c fun a _ _ => shiftLane w (fun i a => (wrapN i.bits (roundQuot (vRnd w) (vCount w c) (i.val a)), .none)) a
/-- VBCAST: the scalar operand in every lane. -/
def vecBcast (w : IWord) (c : CoreSt) : Writes × VecFlags := map3 w c fun _ _ _ => ((vScalar w c).toNat % 2 ^ vBits w, .none)
/-- VMOV. -/
def vecMov (w : IWord) (c : CoreSt) : Writes × VecFlags := map3 w c fun a _ _ => (a, .none)

/-! ### Conversions (R300, R302, R326 to R329) -/

/-- One element converted from type code src to dst; a NaN from an operand that is not NaN is invalid (R323). -/
def convert (src dst rnd : Nat) (sat : Bool) (a : Nat) : Lane :=
  match floatFmt src, floatFmt dst with
  | some f, some g =>
    let x := f.decode a
    let (b, o) := g.round rnd sat x
    (b, ⟨false, !x.isNan && (g.decode b).isNan, o, false⟩)
  | some f, none =>
    match intFmt dst with
    | some i => let (b, inv) := toIntType i rnd (f.decode a); (b, ⟨false, inv, false, false⟩)
    | none => (0, .none)
  | none, some g =>
    match intFmt src with
    | some i => let (b, o) := g.round rnd sat (FVal.ofInt (i.val a)); (b, ⟨false, (g.decode b).isNan, o, false⟩)
    | none => (0, .none)
  | none, none =>
    match intFmt src, intFmt dst with
    | some i, some j => intLane j sat (i.val a)
    | _, _ => (0, .none)

/-- The pairs of VCVT. -/
def cvtPair (src dst : Nat) : Bool :=
  [(2, 9), (9, 2), (0xD, 9), (2, 0xD), (0xD, 2), (1, 7), (7, 1), (1, 8), (8, 1), (7, 8), (8, 7), (1, 0xC), (0xC, 1), (0, 5), (5, 0), (0, 6), (6, 0),
    (5, 6), (6, 5), (0, 0xB), (0xB, 0)].contains (src, dst)
/-- The pairs of VPACK. -/
def packPair (src dst : Nat) : Bool :=
  [(3, 2), (2, 1), (2, 0xC), (1, 0), (1, 0xB), (0, 4), (9, 7), (9, 8), (7, 5), (7, 6), (8, 5), (8, 6), (7, 0xA)].contains (src, dst)
/-- The pairs of VUNPKL and VUNPKH. -/
def unpackPair (src dst : Nat) : Bool :=
  [(2, 3), (1, 2), (0xC, 2), (0, 1), (0xB, 1), (4, 0), (7, 9), (8, 9), (5, 7), (5, 8), (6, 7), (6, 8), (0xA, 7)].contains (src, dst)

/-- Source type of a conversion. -/
def vSrc (w : IWord) : Nat := vCtl w % 16
/-- VCVT. -/
def vecCvt (w : IWord) (c : CoreSt) : Writes × VecFlags := map3 w c fun a _ _ => convert (vSrc w) (vFmt w) (vRnd w) (vSat w) a

/-- One element narrowed: an integer quotient rounded and clamped, or a floating conversion (R302). -/
def narrow (w : IWord) (c : CoreSt) (a : Nat) : Lane :=
  match intFmt (vSrc w), intFmt (vFmt w) with
  | some i, some j => intLane j (vSat w) (roundQuot (vRnd w) (vCount w c) (i.val a))
  | _, _ => convert (vSrc w) (vFmt w) (vRnd w) (vSat w) a

/-- The floor of the binary logarithm of the largest magnitude of a block, and whether the block is zero. -/
def blockMax (l : List FVal) : FVal := l.foldl (fun m x => if m.lt x.abs then x.abs else m) (.fin false 0 0)

/-- One BS8 block of 32 values: exponent and elements with their flags (R331). -/
def bs8Block (rnd : Nat) (l : List FVal) : Nat × List Lane :=
  if l.any fun x => x.isNan || x.isInf then (255, l.map fun _ => (0, ⟨false, true, false, false⟩))
  else
    let m := blockMax l
    if m.isZero then (0, l.map fun _ => (0, .none))
    else
      let x := m.log2 + 121
      (x.toNat, l.map fun v =>
        let q := (v.scale (127 - x)).toInt rnd
        let r := if q < -127 then -127 else if 127 < q then 127 else q
        (wrapN 8 r, .ofSat (r != q)))

/-- Cut a list into blocks of n. -/
def chunks {α : Type} (n : Nat) : Nat → List α → List (List α)
  | 0, _ => []
  | m + 1, l => l.take n :: chunks n m (l.drop n)

/-- VPACK (R301 to R303, R331). -/
def vecPack (w : IWord) (c : CoreSt) : Writes × VecFlags :=
  let e := elemBits (vSrc w)
  let src := lanes e (c.vreg (vVa w)) ++ lanes e (c.vreg (vVb w))
  if vFmt w = 0xA then
    let bl := (chunks 32 16 (src.map fp16.decode)).map (bs8Block (vRnd w))
    let r := allLanes w 8 (bl.flatMap Prod.snd)
    (⟨[], r.1.v ++ [(vVc w, ofLanes 8 (bl.map Prod.fst))], []⟩, r.2)
  else allLanes w (vBits w) (src.map (narrow w c))

/-- One element widened (R302, R332). -/
def widen (w : IWord) (exps : List Nat) (i a : Nat) : Lane :=
  if vSrc w = 0xA then
    let x := exps.getD (i / 32) 0
    let v := if x = 255 then FVal.nan else (FVal.ofInt (signedN 8 a)).scale ((x : Int) - 127)
    let (b, o) := fp16.round (vRnd w) (vSat w) v
    (b, ⟨false, false, o, false⟩)
  else convert (vSrc w) (vFmt w) 0 false a

/-- VUNPKL and VUNPKH: the low or the high half. -/
def unpack (w : IWord) (c : CoreSt) (h : Nat) : Writes × VecFlags :=
  let m := 4096 / vBits w
  let src := ((lanes (elemBits (vSrc w)) (c.vreg (vVa w))).drop (h * m)).take m
  let exps := (lanes 8 (c.vreg (vVb w))).take 16
  allLanes w (vBits w) (src.zipIdx.map fun (a, i) => widen w exps (h * m + i) a)
/-- VUNPKL. -/
def vecUnpkl (w : IWord) (c : CoreSt) : Writes × VecFlags := unpack w c 0
/-- VUNPKH. -/
def vecUnpkh (w : IWord) (c : CoreSt) : Writes × VecFlags := unpack w c 1

/-! ### Compares and predicates (R292, R293) -/

/-- A compare: each lane's bytes of P[pd]. -/
def compare (w : IWord) (c : CoreSt) (fi : Int → Int → Bool) (ff : FVal → FVal → Bool) : Writes × VecFlags :=
  let b := vBits w
  let la := (lanes b (c.vreg (vVa w))).toArray
  let lb := (lanes b (c.vreg (vVb w))).toArray
  let old := c.preg (vPd w)
  let r (k : Nat) : Bool :=
    let x := la.getD k 0
    let y := lb.getD k 0
    match floatFmt (vFmt w), intFmt (vFmt w) with
    | some f, _ => ff (f.decode x) (f.decode y)
    | none, some i => fi (i.val x) (i.val y)
    | none, none => false
  let bitAt (j : Nat) : Bool := let k := 8 * j / b; if masked w c b k then !vPmZero w && old.getLsbD j else r k
  (.ofP (vPd w) (BitVec.ofNat 512 ((List.range 512).foldr (fun j acc => (if bitAt j then 1 else 0) + 2 * acc) 0)), .none)

/-- VCMPEQ. -/
def vecCmpeq (w : IWord) (c : CoreSt) : Writes × VecFlags := compare w c (fun a b => a == b) (fun a b => a.eqv b)
/-- VCMPNE: true with a NaN operand. -/
def vecCmpne (w : IWord) (c : CoreSt) : Writes × VecFlags := compare w c (fun a b => a != b) (fun a b => !a.eqv b)
/-- VCMPLT. -/
def vecCmplt (w : IWord) (c : CoreSt) : Writes × VecFlags := compare w c (fun a b => decide (a < b)) (fun a b => a.lt b)
/-- VCMPLE. -/
def vecCmple (w : IWord) (c : CoreSt) : Writes × VecFlags := compare w c (fun a b => decide (a ≤ b)) (fun a b => a.lt b || a.eqv b)
/-- VCMPGT. -/
def vecCmpgt (w : IWord) (c : CoreSt) : Writes × VecFlags := compare w c (fun a b => decide (b < a)) (fun a b => b.lt a)
/-- VCMPGE. -/
def vecCmpge (w : IWord) (c : CoreSt) : Writes × VecFlags := compare w c (fun a b => decide (b ≤ a)) (fun a b => b.lt a || a.eqv b)
/-- VSEL: lane of a where the bit of P[pm] is 1, of b otherwise. -/
def vecSel (w : IWord) (c : CoreSt) : Writes × VecFlags :=
  let b := vBits w
  allLanes w b (((lanes b (c.vreg (vVa w))).zip (lanes b (c.vreg (vVb w)))).zipIdx.map fun (x, k) =>
    (if (c.preg (vPm w)).getLsbD (k * b / 8) then x.1 else x.2, .none))
/-- PAND. -/
def vecPand (w : IWord) (c : CoreSt) : Writes × VecFlags := (.ofP (vPd w) (c.preg (vVa w % 8) &&& c.preg (vVb w % 8)), .none)
/-- POR. -/
def vecPor (w : IWord) (c : CoreSt) : Writes × VecFlags := (.ofP (vPd w) (c.preg (vVa w % 8) ||| c.preg (vVb w % 8)), .none)
/-- PXOR. -/
def vecPxor (w : IWord) (c : CoreSt) : Writes × VecFlags := (.ofP (vPd w) (c.preg (vVa w % 8) ^^^ c.preg (vVb w % 8)), .none)
/-- PNOT. -/
def vecPnot (w : IWord) (c : CoreSt) : Writes × VecFlags := (.ofP (vPd w) (~~~(c.preg (vVa w % 8))), .none)
/-- PCNT: set bits. -/
def vecPcnt (w : IWord) (c : CoreSt) : Writes × VecFlags :=
  (.ofS (vVd w) (BitVec.ofNat 64 (bitsOf 512 (c.preg (vVa w % 8)).toNat).length), .none)
/-- PFIRST: the lowest set bit, 512 if none. -/
def vecPfirst (w : IWord) (c : CoreSt) : Writes × VecFlags :=
  (.ofS (vVd w) (BitVec.ofNat 64 ((bitsOf 512 (c.preg (vVa w % 8)).toNat).headD 512)), .none)

/-! ### Reductions and selection (R294 to R298) -/

/-- Combine neighbours. -/
def pairUp {α : Type} (f : α → α → α) : List α → List α
  | a :: b :: l => f a b :: pairUp f l
  | l => l
/-- The fixed tree, up to 2^n lanes. -/
def tree {α : Type} (f : α → α → α) : Nat → List α → List α
  | 0, l => l
  | n + 1, l => tree f n (pairUp f l)

/-- The lanes of a with masked lanes replaced. -/
def unmaskedOr (w : IWord) (c : CoreSt) (d : Nat) : List Nat :=
  let b := vBits w
  (lanes b (c.vreg (vVa w))).zipIdx.map fun (x, k) => if masked w c b k then d else x

/-- One floating addition of VRSUM in FP32. -/
def sumStep (rnd : Nat) (sat : Bool) (x y : Lane) : Lane :=
  let a := fp32.decode x.1
  let b := fp32.decode y.1
  let r := fltLane fp32 rnd sat (a.add rnd b) [a, b]
  (r.1, (x.2.join y.2).join r.2)

/-- VRSUM. -/
def vecRsum (w : IWord) (c : CoreSt) : Writes × VecFlags :=
  let l := unmaskedOr w c 0
  match floatFmt (vFmt w), intFmt (vFmt w) with
  | some f, _ =>
    let xs : List Lane := l.map fun a => ((fp32.round 0 false (f.decode a)).1, .none)
    let r := (tree (sumStep (vRnd w) (vSat w)) 10 xs).headD (0, .none)
    (.ofV (vVd w) (BitVec.ofNat 4096 r.1), r.2)
  | none, some i =>
    let r := intLane (if i.bits = 64 then ⟨64, true⟩ else ⟨32, true⟩) (vSat w) (l.map i.val).sum
    (.ofV (vVd w) (BitVec.ofNat 4096 r.1), r.2)
  | none, none => (.none, .none)

/-- The identity of a maximum or minimum. -/
def extreme (fmt : Nat) (max : Bool) : Nat :=
  match floatFmt fmt, intFmt fmt with
  | some f, _ => f.signBit max + f.infBits
  | none, some i => wrapN i.bits (if max then i.lo else i.hi)
  | none, none => 0

/-- A lone NaN lane gives the canonical NaN. -/
def canonNan (fmt a : Nat) : Nat :=
  match floatFmt fmt with
  | some f => if (f.decode a).isNan then f.nanBits else a
  | none => a

/-- VRMAX and VRMIN. -/
def reducePick (w : IWord) (c : CoreSt) (max : Bool) : Writes × VecFlags :=
  let l := unmaskedOr w c (extreme (vFmt w) max)
  (.ofV (vVd w) (BitVec.ofNat 4096 (canonNan (vFmt w) ((tree (pickNum (vFmt w) max) 10 l).headD 0))), .none)
/-- VRMAX. -/
def vecRmax (w : IWord) (c : CoreSt) : Writes × VecFlags := reducePick w c true
/-- VRMIN. -/
def vecRmin (w : IWord) (c : CoreSt) : Writes × VecFlags := reducePick w c false

/-- Strictly less in the selection order (R295). -/
def selLt (fmt a b : Nat) : Bool :=
  match floatFmt fmt, intFmt fmt with
  | some f, _ =>
    let x := f.decode a
    let y := f.decode b
    if x.isNan then !y.isNan else x.ltz y
  | none, some i => decide (i.val a < i.val b)
  | none, none => false

/-- VRARGMAX: the lowest index of the greatest unmasked lane. -/
def vecRargmax (w : IWord) (c : CoreSt) : Writes × VecFlags :=
  let b := vBits w
  let l := (lanes b (c.vreg (vVa w))).zipIdx.filter fun x => !masked w c b x.2
  let best := l.foldl (fun m x => match m with | none => some x | some y => if selLt (vFmt w) y.1 x.1 then some x else m) (none : Option (Nat × Nat))
  (.ofS (vVd w) (match best with | none => BitVec.allOnes 64 | some x => BitVec.ofNat 64 x.2), .none)

/-- VCMPX: lesser to V[vd], greater to V[vc], P[pd] where b is less than a. -/
def vecCmpx (w : IWord) (c : CoreSt) : Writes × VecFlags :=
  let b := vBits w
  let l := (lanes b (c.vreg (vVa w))).zip (lanes b (c.vreg (vVb w)))
  let sw := l.map fun x => selLt (vFmt w) x.2 x.1
  let lo := (l.zip sw).map fun (x, t) => if t then x.2 else x.1
  let hi := (l.zip sw).map fun (x, t) => if t then x.1 else x.2
  (⟨[], [(vVd w, ofLanes b lo), (vVc w, ofLanes b hi)], [(vPd w, BitVec.ofNat 512 (ofLanes (b / 8) (sw.map fun t => if t then 2 ^ (b / 8) - 1 else 0)).toNat)]⟩, .none)

/-- The merge of VTOPK: keys and map words, from places i and j. -/
def topk (fmt k : Nat) (a b : List Nat) : Nat → Nat → Nat → Nat → List (Nat × Nat)
  | 0, _, _, _ => []
  | n + 1, o, i, j =>
    if k ≤ o then (extreme fmt true, 0x100) :: topk fmt k a b n (o + 1) i j
    else if 128 ≤ j ∨ (i < 128 ∧ !selLt fmt (a.getD i 0) (b.getD j 0)) then (a.getD i 0, i) :: topk fmt k a b n (o + 1) (i + 1) j
    else (b.getD j 0, 0x80 + j) :: topk fmt k a b n (o + 1) i (j + 1)

/-- VTOPK. -/
def vecTopk (w : IWord) (c : CoreSt) : Writes × VecFlags :=
  let l := topk (vFmt w) (vCtl w % 256) (lanes 32 (c.vreg (vVa w))) (lanes 32 (c.vreg (vVb w))) 128 0 0 0
  (⟨[], [(vVd w, ofLanes 32 (l.map Prod.fst)), (vVc w, ofLanes 32 (l.map Prod.snd))], []⟩, .none)

/-! ### Permute, rotate, shuffle, deal (R299) -/

/-- VPERMB. -/
def vecPermb (w : IWord) (c : CoreSt) : Writes × VecFlags :=
  let a := (lanes 8 (c.vreg (vVa w))).toArray
  allLanes w 8 ((lanes 8 (c.vreg (vVb w))).zipIdx.map fun (x, j) =>
    (if 128 ≤ x then 0 else a.getD (j / 128 * 128 + x % 128) 0, .none))
/-- VPERMW. -/
def vecPermw (w : IWord) (c : CoreSt) : Writes × VecFlags :=
  let a := (lanes 32 (c.vreg (vVa w))).toArray
  let d := (lanes 32 (c.vreg (vVc w))).toArray
  allLanes w 32 ((lanes 32 (c.vreg (vVb w))).map fun x =>
    (if x.testBit 8 then 0 else if x.testBit 7 then d.getD (x % 128) 0 else a.getD (x % 128) 0, .none))
/-- VROT. -/
def vecRot (w : IWord) (c : CoreSt) : Writes × VecFlags :=
  let r := (vScalar w c).toNat % 512
  let a := lanes 8 (c.vreg (vVa w))
  allLanes w 8 ((a.drop r ++ a.take r).map fun x => (x, .none))
/-- Element size in bits of VSHUF and VDEAL. -/
def shufBits (w : IWord) : Nat := 8 * 2 ^ (vCtl w % 16)
/-- Which half. -/
def shufH (w : IWord) : Nat := vCtl w / 16 % 2
/-- VSHUF: interleave. -/
def vecShuf (w : IWord) (c : CoreSt) : Writes × VecFlags :=
  let e := shufBits w
  let n := 4096 / e / 2
  let half (v : VReg) : List Nat := ((lanes e v).drop (shufH w * n)).take n
  allLanes w e (((half (c.vreg (vVa w))).zip (half (c.vreg (vVb w)))).flatMap fun x => [(x.1, .none), (x.2, .none)])
/-- VDEAL: de-interleave. -/
def vecDeal (w : IWord) (c : CoreSt) : Writes × VecFlags :=
  let e := shufBits w
  let ev (v : VReg) : List Lane := ((lanes e v).zipIdx.filter fun x => x.2 % 2 == shufH w).map fun x => (x.1, .none)
  allLanes w e (ev (c.vreg (vVa w)) ++ ev (c.vreg (vVb w)))

/-! ### Special functions and softmax (R304, R333 to R339) -/

/-- A special function lane by lane. -/
def special (w : IWord) (c : CoreSt) (fn : Nat) (g : FFmt → (Nat → Nat) → Nat → FnRes) : Writes × VecFlags :=
  map3 w c fun a _ _ =>
    match floatFmt (vFmt w) with
    | none => (0, .none)
    | some f => let r := g f (Config.fnCand fn (vFmt w)) a; (r.bits, ⟨false, r.invalid, r.overflow, r.divZero⟩)

/-- VEXP. -/
def vecExp (w : IWord) (c : CoreSt) : Writes × VecFlags := special w c 0 fun f n a => fnVexp f (vSat w) n a
/-- VRCP. -/
def vecRcp (w : IWord) (c : CoreSt) : Writes × VecFlags := special w c 1 fun f n a => fnRcp f (vSat w) n a
/-- VRSQRT. -/
def vecRsqrt (w : IWord) (c : CoreSt) : Writes × VecFlags := special w c 2 fnRsqrt

/-- VSMMAX (R336): lane 0 of V[vb] with every taking-part lane. -/
def vecSmmax (w : IWord) (c : CoreSt) : Writes × VecFlags :=
  let xs := ((lanes 32 (c.vreg (vVa w))).zipIdx.filter fun x => !masked w c 32 x.2).map Prod.fst
  let m := canonNan 9 (xs.foldl (pickNum 9 true) ((lanes 32 (c.vreg (vVb w))).headD 0))
  (.ofV (vVd w) (ofLanes 32 (List.replicate 128 m)), .none)

/-- One lane of VSMEXP (R337). -/
def smexpLane (x m : Nat) : Nat :=
  let s := fp32.decode x
  match fp32.decode m with
  | .nan => fp32.nanBits
  | .inf true => if s.isNan then fp32.nanBits else 0
  | .inf false => if s.isNan then fp32.nanBits else if s.isInf && !s.sign then 0x3F800000 else 0
  | .fin a b e => (fnSmexp fp32 (Config.fnCand 3 x m) (s.add 0 (FVal.fin a b e).neg)).bits

/-- VSMEXP (R337). -/
def vecSmexp (w : IWord) (c : CoreSt) : Writes × VecFlags :=
  allLanes w 32 (((lanes 32 (c.vreg (vVa w))).zip (lanes 32 (c.vreg (vVb w)))).zipIdx.map fun (x, k) =>
    (if masked w c 32 k then 0 else smexpLane x.1 x.2, .none))

/-- VSMNORM (R338). -/
def vecSmnorm (w : IWord) (c : CoreSt) : Writes × VecFlags :=
  let s := fp32.decode ((lanes 32 (c.vreg (vVb w))).headD 0)
  let lane (x k : Nat) : Nat :=
    if s.isNan then fp32.nanBits
    else if s.isZero || masked w c 32 k then 0
    else (fp32.round 0 false ((fp32.decode x).div s)).1
  let v := ofLanes 32 ((lanes 32 (c.vreg (vVa w))).zipIdx.map fun (x, k) => lane x k)
  (⟨[], [(vVd w, v)], [(vPd w, if s.isZero then BitVec.allOnes 512 else 0)]⟩, .none)

/-! ### Legality (R205, R285, R287, R288) -/

def isInt (f : Nat) : Bool := f ≤ 3 || (0xB ≤ f && f ≤ 0xD)
def isSInt (f : Nat) : Bool := f ≤ 3
def isFlt (f : Nat) : Bool := 7 ≤ f && f ≤ 9
def isAny (f : Nat) : Bool := f ≤ 0xD

/-- The table of permitted combinations: whether opcode, fmt and ctl are listed, and whether a mask is allowed. -/
def vecPermitted (w : IWord) : Bool × Bool :=
  let f := vFmt w
  let ctl := vCtl w
  let op := vecOp w
  let c0 := ctl == 0
  if [0x010, 0x011, 0x012, 0x014, 0x015, 0x016].contains op then ((isInt f || isFlt f) && c0, true)
  else if op = 0x013 then (isInt f && c0, true)
  else if op = 0x017 ∨ op = 0x018 then ((isSInt f || isFlt f) && c0, true)
  else if op = 0x01F then (isSInt f && c0, true)
  else if op = 0x01D ∨ op = 0x01E ∨ op = 0x020 then (isInt f && c0, true)
  else if (0x019 ≤ op && op ≤ 0x01C) || op == 0x022 || op == 0x023 then (isAny f && c0, true)
  else if op = 0x021 then (cvtPair (ctl % 16) f && ctl < 16, true)
  else if 0x030 ≤ op ∧ op ≤ 0x035 then ((isInt f || isFlt f) && c0, true)
  else if op = 0x036 then (isAny f && c0, false)
  else if 0x040 ≤ op ∧ op ≤ 0x045 then (f == 0 && c0, false)
  else if 0x050 ≤ op ∧ op ≤ 0x053 then ((isInt f || isFlt f) && c0, true)
  else if op = 0x060 ∨ op = 0x067 then (f == 0 && c0, false)
  else if op = 0x061 then (f == 2 && c0, false)
  else if op = 0x062 ∨ op = 0x063 then (f == 0 && ctl % 16 ≤ 8 && ctl < 32, false)
  else if op = 0x064 then (packPair (ctl % 16) f && ctl < 16, false)
  else if op = 0x065 ∨ op = 0x066 then (unpackPair (ctl % 16) f && ctl < 16, false)
  else if op = 0x070 then ((isInt f || isFlt f) && c0, false)
  else if op = 0x071 then ((f == 2 || f == 0xD || f == 9) && 1 ≤ ctl && ctl ≤ 128, false)
  else if 0x080 ≤ op ∧ op ≤ 0x082 then (isFlt f && c0, true)
  else if 0x083 ≤ op ∧ op ≤ 0x085 then (f == 9 && c0, true)
  else if op = 0x090 ∨ op = 0x091 then (isAny f && f != 4 && f != 0xA && ctl < 2, true)
  else (false, false)

/-- The operation writes V[vc] too (R287). -/
def writesVc (w : IWord) : Bool := vecOp w == 0x070 || vecOp w == 0x071 || (vecOp w == 0x064 && vFmt w == 0xA)

/-- The vector field raises ILLEGAL (R205, R285, R287). -/
def vecIllegal (w : IWord) : Bool :=
  let (ok, mk) := vecPermitted w
  vecOp w != 0 && (!ok || (vPmEn w && !mk) || (writesVc w && vVc w == vVd w))

/-- The vector field holds a non-zero bit that its table marks 0 (R223). -/
def vecReserved (w : IWord) : Bool := vecOp w != 0 && vecF w 64 32 != 0

/-- The operation writes no V register. -/
def vecNoV (w : IWord) : Bool := (0x030 ≤ vecOp w && vecOp w ≤ 0x035) || (0x040 ≤ vecOp w && vecOp w ≤ 0x045) || vecOp w == 0x053 || vecOp w == 0x091

/-- V registers the vector field writes. -/
def vecWritesV (w : IWord) : List Nat :=
  if vecOp w = 0 ∨ vecNoV w then [] else if writesVc w then [vVd w, vVc w] else [vVd w]

/-- V registers the vector field may read. -/
def vecReadsV (w : IWord) : List Nat := if vecOp w = 0 then [] else [vVa w, vVb w, vVc w, vVd w]

/-! ### Gather and scatter (R305 to R308, R317) -/

/-- The unmasked lanes that take part, with their addresses. -/
def gatherLanes (w : IWord) (c : CoreSt) : List (Nat × Nat) :=
  let b := vBits w
  let base := vScalar w c
  let f := if vCtl w % 2 = 1 then b / 8 else 1
  ((lanes 32 (c.vreg (vVa w))).zipIdx.filter fun x => decide (x.2 < 4096 / b) && !masked w c b x.2).map fun (x, k) =>
    (k, (base + BitVec.ofNat 64 (x * f)).toNat)

/-- The operation is a gather or a scatter. -/
def isGather (w : IWord) : Bool := vecOp w == 0x090 || vecOp w == 0x091

/-- The lowest misaligned lane address (R306). -/
def gatherMisaligned (w : IWord) (c : CoreSt) : Option Nat :=
  if isGather w then ((gatherLanes w c).find? fun x => x.2 % (vBits w / 8) != 0).map Prod.snd else none

/-- A lane address lies outside the core's own local store (R317), or a scatter writes what R158 or R182 protects. -/
def gatherOutside (k : CoreId) (w : IWord) (c : CoreSt) (s : State) : Option Nat :=
  let e := vBits w / 8
  let l := gatherLanes w c
  if !isGather w then none
  else if l.any fun x => !(inLocal k x.2 && inLocal k (x.2 + e - 1)) then some 317
  else if vecOp w = 0x091 then l.findSome? fun x => writeOutside s (.core k) x.2 e
  else none

/-- CCLK beyond the first that the busiest bank needs: the banks are served side by side, as the chapter's example counts
them (R308). -/
def gatherWait (w : IWord) (c : CoreSt) : Nat :=
  let gs := ((gatherLanes w c).map fun x => x.2 / 64).dedup
  ((List.range 32).map fun b => (gs.filter fun g => g % 32 == b).length - 1).foldl max 0

/-- VGATH. -/
def vecGath (w : IWord) (c : CoreSt) (s : State) : Writes × VecFlags :=
  let b := vBits w
  let l := gatherLanes w c
  let old := lanes b (c.vreg (vVd w))
  let r := old.zipIdx.map fun (o, k) =>
    match l.find? (fun x => x.1 == k) with
    | some x => leNat (s.bytes x.2 (b / 8))
    | none => if vPmEn w && vPmZero w then 0 else if 128 ≤ k && vPmZero w then 0 else o
  (.ofV (vVd w) (ofLanes b r), .none)

/-- VSCAT: lanes in ascending order (R307). -/
def vecScat (w : IWord) (c : CoreSt) (s : State) : State :=
  let b := vBits w
  let d := (lanes b (c.vreg (vVb w))).toArray
  (gatherLanes w c).foldl (fun s x => s.putBytes x.2 (natLe (b / 8) (d.getD x.1 0))) s

/-! ### Residue codes (R313) -/

/-- The vector field is an integer operation that carries residues. -/
def residueOp (w : IWord) : Bool :=
  let i := (intFmt (vFmt w)).isSome
  ([0x010, 0x011, 0x012, 0x013, 0x014, 0x018, 0x01D, 0x050].contains (vecOp w) && i)
    || ([0x064, 0x065, 0x066].contains (vecOp w) && i && (intFmt (vSrc w)).isSome)

/-- The unmasked lanes of the vector field, as bits: VPACK has the lanes of its results. -/
def residueLanes (w : IWord) (c : CoreSt) : Nat :=
  let b := vBits w
  if vPmEn w then ((List.range (4096 / b)).foldr (fun k acc => (if masked w c b k then 0 else 1) + 2 * acc) 0) else 2 ^ (4096 / b) - 1

/-- Results whose residue event may still be on its way: as many as words issue in 6 SCLK and the latency of a vector
operation (R313, R314). -/
def residueDepth : Nat := 48

/-- A checked operation takes its place among the latest ones of its core, when residues are enabled (R313). -/
def noteResidue (k : CoreId) (w : IWord) (c : CoreSt) (s : State) : State :=
  if residueOp w && s.bit (Reg.vecCfg k) 0 then
    setCore s k { core s k with checked := ((vecOp w, residueLanes w c) :: (core s k).checked).take residueDepth }
  else s

/-! ### The field in a word -/

/-- The register results and flags of the vector field from the word-entry state; a gather reads the memory of `s`. -/
def vecResult (w : IWord) (c : CoreSt) (s : State) : Writes × VecFlags :=
  match vecOp w with
  | 0x010 => vecAdd w c
  | 0x011 => vecSub w c
  | 0x012 => vecMul w c
  | 0x013 => vecMulh w c
  | 0x014 => vecFma w c
  | 0x015 => vecMin w c
  | 0x016 => vecMax w c
  | 0x017 => vecAbs w c
  | 0x018 => vecNeg w c
  | 0x019 => vecAnd w c
  | 0x01A => vecOr w c
  | 0x01B => vecXor w c
  | 0x01C => vecNot w c
  | 0x01D => vecShl w c
  | 0x01E => vecShr w c
  | 0x01F => vecShra w c
  | 0x020 => vecShrr w c
  | 0x021 => vecCvt w c
  | 0x022 => vecBcast w c
  | 0x023 => vecMov w c
  | 0x030 => vecCmpeq w c
  | 0x031 => vecCmpne w c
  | 0x032 => vecCmplt w c
  | 0x033 => vecCmple w c
  | 0x034 => vecCmpgt w c
  | 0x035 => vecCmpge w c
  | 0x036 => vecSel w c
  | 0x040 => vecPand w c
  | 0x041 => vecPor w c
  | 0x042 => vecPxor w c
  | 0x043 => vecPnot w c
  | 0x044 => vecPcnt w c
  | 0x045 => vecPfirst w c
  | 0x050 => vecRsum w c
  | 0x051 => vecRmax w c
  | 0x052 => vecRmin w c
  | 0x053 => vecRargmax w c
  | 0x060 => vecPermb w c
  | 0x061 => vecPermw w c
  | 0x062 => vecShuf w c
  | 0x063 => vecDeal w c
  | 0x064 => vecPack w c
  | 0x065 => vecUnpkl w c
  | 0x066 => vecUnpkh w c
  | 0x067 => vecRot w c
  | 0x070 => vecCmpx w c
  | 0x071 => vecTopk w c
  | 0x080 => vecExp w c
  | 0x081 => vecRcp w c
  | 0x082 => vecRsqrt w c
  | 0x083 => vecSmmax w c
  | 0x084 => vecSmexp w c
  | 0x085 => vecSmnorm w c
  | 0x090 => vecGath w c s
  | _ => (.none, .none)

/-- The vector field: register results, flags, and what a gather or scatter does to memory and to VEC_GATH_WAIT. -/
def vecEffect (k : CoreId) (w : IWord) (entry : CoreSt) (s : State) : Writes × State :=
  if vecOp w = 0 then (.none, s)
  else
    let (r, f) := vecResult w entry s
    let s := noteResidue k w entry (pmcCount 0x09 k 1 (setVecFlags k f s))
    let s := if isGather w then s.satAdd (Reg.vecGathWait k) (gatherWait w entry) else s
    (r, if vecOp w = 0x091 then vecScat w entry s else s)

end Sys2Proof.Machine
end

