-- ==== Sys2Proof/Machine/Issue.lean ====
section
/-! DEFINITION. The issue of one 512-bit word: its exceptions, what it waits for, and its effects in field order
(06_instruction_word.md R190 to R201, R215 to R219, R223). -/

namespace Sys2Proof.Machine

/-! ### What a word raises (R206, R212, R215) -/

/-- A word with a non-zero bit that the chapter marks 0 (R223). -/
def wordReserved (w : IWord) : Bool :=
  wctl w 5 11 != 0 || scaReserved w || adrReserved w || vecReserved w || arrReserved w || tqReserved w || brReserved w

/-- The lowest field that raises ILLEGAL: 0 WCTL, 1 SCA, 2 ADR, 3 VEC, 4 ARR, 5 TQ, 6 BR. -/
def illegalField (w : IWord) (s : State) (k : Nat) : Option Nat :=
  if wctl w 0 4 ≠ 1 then some 0
  else if scaIllegal w (core s k) then some 1
  else if adrIllegal w then some 2
  else if vecIllegal w then some 3
  else if arrIllegal w s k then some 4
  else if tqIllegal w then some 5
  else if brIllegal w s k then some 6
  else none

/-- The field that raises MISALIGN, with the address (R204, R306). -/
def misalignField (w : IWord) (c : CoreSt) : Option (Nat × W64) :=
  if adrOp w != 0 && adrMisaligned w c then some (2, (adrEa w c).1)
  else (gatherMisaligned w c).map fun a => (3, BitVec.ofNat 64 a)

/-- The exception a word raises before it has any effect; the lowest cause number is reported (R215). -/
def wordException (w : IWord) (s : State) (k : Nat) : Option Exc :=
  let c := core s k
  match illegalField w s k with
  | some f => some ⟨1, f, 0, 0, c.pc, none⟩
  | none =>
    match misalignField w c with
    | some (f, a) => some ⟨2, f, 0, 0, c.pc, some a⟩
    | none =>
      if brOp w = 0x12 then some ⟨5, 6, 0, brF w 21 16, c.pc, none⟩
      else if wctl w 4 1 = 1 ∧ s.bit (Reg.coreExcCfg k) 1 then some ⟨6, 0, 0, 0, c.pc, none⟩
      else none

/-! ### What a word waits for (R198, R311, R545) -/

/-- Byte ranges a word's store or scatter writes. -/
def wordStores (w : IWord) (c : CoreSt) : List (Nat × Nat) :=
  (if adrStores (adrOp w) then [((adrEa w c).1.toNat, adrBytes (adrOp w))] else [])
    ++ (if vecOp w = 0x091 then (gatherLanes w c).map fun x => (x.2, vBits w / 8) else [])

/-- V registers a word writes. -/
def wordWritesV (w : IWord) : List Nat := vecWritesV w ++ tqWritesV w ++ (if adrOp w = 0x10 then [adrF w 6 5] else [])
/-- V registers a word reads. -/
def wordReadsV (w : IWord) : List Nat := vecReadsV w ++ (if adrOp w = 0x11 then [adrF w 16 5] else [])

/-- A shared drain has still to write V16 to V31 (R311). -/
def drainDue (s : State) (k : Nat) : Bool :=
  sharedReg s k && (feeding s k ++ (arrs s k).flight).any ArrOp.untransferred

/-- A word is held by what array operations have still to read or write (R198, R311). -/
def interlocked (w : IWord) (s : State) (k : Nat) : Bool :=
  let st := wordStores w (core s k)
  (feeding s k).any (fun p => p.feeds.any (fun r => st.any (rangesMeet r)) || p.feedsV.any fun v => (wordWritesV w).contains v)
    || (drainDue s k && (wordWritesV w ++ wordReadsV w).any fun v => 16 ≤ v)

/-- A V16 to V31 use that shared coupling does not list (R224, R312). -/
def sharedMisuse (w : IWord) (s : State) (k : Nat) : Bool :=
  sharedReg s k && ((writesVc w && 16 ≤ vVc w) || (tqOp w == 8 && 16 ≤ tqVd w))

/-- A word would generate a BRANCH or QUEUE packet and waits for room (R545). -/
def traceStall (w : IWord) (s : State) (k : Nat) : Bool :=
  s.bit Reg.traceFilter 8 && traced s k && fifoFull s k
    && ((s.bit Reg.traceFilter 0 && (brTaken w (core s k)).isSome) || (s.bit Reg.traceFilter 1 && 1 ≤ tqOp w && tqOp w ≤ 4))

/-- A packet of the core waits for room, or its SYNC of reason 3 would: its next word waits too (R545, R554). -/
def traceHeld (s : State) (k : Nat) : Bool := fifoOver s k || (s.trace.syncDue.getLsbD k && traced s k && fifoFull s k)

/-- SYNC with reason 3 before the first word after trace is enabled (R554). -/
def syncDue (k : Nat) (s : State) : State :=
  if s.trace.syncDue.getLsbD k then
    traceSync k 3 (core s k).pc.toNat { s with trace := { s.trace with syncDue := s.trace.syncDue &&& ~~~(BitVec.ofNat 32 (2 ^ k)) } }
  else s

/-! ### Effects (R194 to R197) -/

/-- The branch field: where the core goes on, by the word-entry state (R194, R197), and the packet of a taken branch. -/
def brEffect (k : Nat) (w : IWord) (entry : CoreSt) (s : State) : State :=
  let taken := brTaken w entry
  let s := if brOp w = 0x0B then returnFromException k s else s
  let s := setCore s k { core s k with pc := brNext w entry }
  match taken with
  | some t => pmcCount 0x04 k 1 (traceFiltered k 0 0x2 (codeAddr t.toNat 0) s)
  | none => s

/-- The end of a word that has issued: it waits in QWAIT, GBAR or SLEEP, where QWAIT and GBAR show the core as blocked, or is
complete. -/
def endWord (k : Nat) (w : IWord) (pc : W64) (refused : Option Nat) (s : State) : State :=
  let c := core s k
  match c.wait with
  | .qwait _ _ _ =>
    let s := s.putB (Reg.coreStatus k) 6 true
    if brOp w = 0x10 then gbarCheck k s
    else if brOp w = 0x11 then setCore s k { c with nap := match sleepCode w c.pwr with | none => .awake | some x => .wanted x }
    else s
  | _ =>
    if brOp w = 0x10 then brGbar k pc refused s
    else if brOp w = 0x11 then brSleep k w pc refused s
    else wordDone k pc refused s

/-- Core k waits in the queue engine no longer. -/
def unwait (k : Nat) (s : State) : State :=
  match (core s k).wait with
  | .queue _ _ => setCore s k { core s k with wait := .none }
  | _ => s

/-- Registers and branch of a word whose fields have taken effect. A refused queue operation raises QUEUE once the word is
complete, which a GBAR or SLEEP of its branch field puts off (R215). -/
def finishWord (k : Nat) (w : IWord) (entry : CoreSt) (ws : List Writes) (refused : Bool) (s : State) : State :=
  let s := unwait k s
  let s := setCore s k ((ws ++ [brWrites w entry]).foldl CoreSt.apply (core s k))
  let s := (brEffect k w entry s).putB (Reg.coreStatus k) 6 false
  endWord k w entry.pc (if refused then some (tqQ w) else none) (pmcCount 0x02 k 1 s)

/-- The effects of a word in field order: ADR, VEC, ARR, TQ; `stay` is the state in which it waits for its queue. -/
def wordEffect (k : CoreId) (w : IWord) (stay s : State) : Res State :=
  let entry := core s k
  let sw := scaWrites k w s
  match adrEffect k w entry (scaSys k w entry s) with
  | .outside r => .outside r
  | .next (aw, s1) =>
    match gatherOutside k w entry s1 with
    | some r => oc r
    | none =>
      let (vw, s2) := vecEffect k w entry s1
      match arrOutside w s2 k entry with
      | some r => oc r
      | none =>
        let s3 := arrEffect k w entry s2
        match tqEffect k w entry (brOp w == 0x10 && (groupOf s3 k).isSome) s3 with
        | .blocks => .next stay
        | .refused => .next (finishWord k w entry [sw, aw, vw] true s3)
        | .done tw s4 => .next (finishWord k w entry [sw, aw, vw, tw] false s4)

/-- The tile-queue field of a word would block on its queue (R169). -/
def queueBlocks (k : Nat) (w : IWord) (s : State) : Bool :=
  (tqOp w == 1 && tqQres k w s == .blocks) || (tqOp w == 3 && tqQacq k w s == .blocks)

/-- The queue operation of a word is refused (R172, R209). -/
def queueRefuses (k : Nat) (w : IWord) (s : State) : Bool :=
  match tqEffect k w (core s k) false s with
  | .refused => true
  | _ => false

/-- The gather or scatter of a word takes its addresses from a register that a shared drain has still to write (R198, R311). -/
def gatherHeld (w : IWord) (s : State) (k : Nat) : Bool :=
  (vecOp w == 0x090 || vecOp w == 0x091) && drainDue s k && (vecReadsV w).any fun v => 16 ≤ v

/-- The exception a word of core k takes now in place of its effects: its own, unless it also has a refused queue operation,
whose cause QUEUE is lower than TRAP and BREAK (R215). -/
def issueException (w : IWord) (s : State) (k : Nat) : Option Exc :=
  match wordException w s k with
  | none => none
  | some e => if 5 ≤ e.cause ∧ queueRefuses k w s then none else some e

/-- A word waits in the queue engine: it has not issued (R169, R198). -/
def waitQueue (k : Nat) (w : IWord) (s : State) : State :=
  pmcCount 0x0A k 1 ((setCore s k { core s k with wait := .queue w false }).putB (Reg.coreStatus k) 6 true)

/-- Issue a word whose core runs. A word that must wait for anything but its queue leaves `stay`; one that waits for its
queue is held by the queue engine. -/
def tryIssue (k : CoreId) (w : IWord) (stay s : State) : Res State :=
  let c := core s k
  if traceHeld s k then .next stay
  else if !inLocal k c.pc.toNat then .next (takeException k ⟨3, 0, 0, 0, c.pc, some c.pc⟩ (unwait k s))
  else if wordReserved w then oc 223
  else match issueException w s k with
    | some e => if e.cause ≠ 1 ∧ gatherHeld w s k then .next stay else .next (takeException k e (unwait k (syncDue k (depart (.word k) s))))
    | none =>
      let ea := (adrEa w c).1.toNat
      if sharedMisuse w s k then oc 224
      else if traceStall w s k then .next stay
      else if adrBytes (adrOp w) != 0 && meterWaits s (.core k) ea (adrBytes (adrOp w)) then
        .next (meterMark (.core k) ea (adrBytes (adrOp w)) stay)
      else if adrWaits k w s then
        .next (arrive (.word k) ea (adrBytes (adrOp w)) (if adrOp w = 0x20 then stay.putB (Reg.coreStatus k) 6 true else stay))
      else if arrWaits k w s || tqWaits k w s || interlocked w s k then .next stay
      else if queueBlocks k w s then .next (waitQueue k w s)
      else wordEffect k w stay (syncDue k (if adrBytes (adrOp w) = 0 then s else depart (.word k) s))

/-- Core k may issue a word now: CCLK runs, it is ENABLED, not stopped, awake and waits for nothing. -/
def mayIssue (s : State) (k : Nat) : Bool :=
  s.cclk && coreState s k == 1 && !coreStopped s k && (core s k).wait == .none && (core s k).nap == .awake

/-- The word the core is to issue next, at its pc: it issues, or waits (R194, R198). -/
def issueWord (k : CoreId) (w : IWord) (s : State) : Res State :=
  onlyIfR (mayIssue s k) (fun s => tryIssue k w s s) s

/-- A word held by the queue engine tries again (R169, R171). -/
def retryQueue (k : CoreId) (op : Nat) (s : State) : Res State :=
  match (core s k).wait with
  | .queue w _ =>
    if s.cclk && coreState s k == 1 && tqOp w == op && !queueBlocks k w s then tryIssue k w s s else .next s
  | _ => .next s

/-- QRES_UNBLOCK (R169, R177): enough slots are free, or the queue has left ENABLED. -/
def execQresUnblock (k : CoreId) (s : State) : Res State := retryQueue k 1 s

/-- QACQ_UNBLOCK (R169, R177, R178): the queue holds an element, or is OFF. -/
def execQacqUnblock (k : CoreId) (s : State) : Res State := retryQueue k 3 s

end Sys2Proof.Machine
end

