-- ==== Sys2Proof/Machine/Words.lean ====
section
/-! DEFINITION. The rows of the table that are operations of the instruction word: the core issues the word with the row's
opcode in its field (06_instruction_word.md). What the other fields of the word hold takes effect with it. -/

namespace Sys2Proof.Machine

/-- NOP (R191): a word with no operation in any field. -/
def execNop (k : CoreId) (w : IWord) (s : State) : Res State := issueWord k (withNone w) s

/-! ### Scalar words -/

/-- ADD (R194). Scalar add modulo 2^64. -/
def execAdd (k : CoreId) (w : IWord) (s : State) : Res State := issueWord k (withSca 0x01 w) s

/-- SUB (R194). Scalar subtract modulo 2^64. -/
def execSub (k : CoreId) (w : IWord) (s : State) : Res State := issueWord k (withSca 0x02 w) s

/-- AND (R194). Scalar bitwise AND. -/
def execAndS (k : CoreId) (w : IWord) (s : State) : Res State := issueWord k (withSca 0x03 w) s

/-- OR (R194). Scalar bitwise OR. -/
def execOrS (k : CoreId) (w : IWord) (s : State) : Res State := issueWord k (withSca 0x04 w) s

/-- XOR (R194). Scalar bitwise XOR. -/
def execXorS (k : CoreId) (w : IWord) (s : State) : Res State := issueWord k (withSca 0x05 w) s

/-- SLL (R194). Scalar shift left logical. -/
def execSll (k : CoreId) (w : IWord) (s : State) : Res State := issueWord k (withSca 0x06 w) s

/-- SRL (R194). Scalar shift right logical. -/
def execSrl (k : CoreId) (w : IWord) (s : State) : Res State := issueWord k (withSca 0x07 w) s

/-- SRA (R194). Scalar shift right arithmetic. -/
def execSra (k : CoreId) (w : IWord) (s : State) : Res State := issueWord k (withSca 0x08 w) s

/-- MUL (R194). Low 64 bits of the scalar product. -/
def execMul (k : CoreId) (w : IWord) (s : State) : Res State := issueWord k (withSca 0x09 w) s

/-- MULHU (R194). High 64 bits of the unsigned product. -/
def execMulhu (k : CoreId) (w : IWord) (s : State) : Res State := issueWord k (withSca 0x0A w) s

/-- MULHS (R194). High 64 bits of the signed product. -/
def execMulhs (k : CoreId) (w : IWord) (s : State) : Res State := issueWord k (withSca 0x0B w) s

/-- SLT (R194). Signed set-less-than. -/
def execSlt (k : CoreId) (w : IWord) (s : State) : Res State := issueWord k (withSca 0x0C w) s

/-- SLTU (R194). Unsigned set-less-than. -/
def execSltu (k : CoreId) (w : IWord) (s : State) : Res State := issueWord k (withSca 0x0D w) s

/-- MIN (R194). Signed scalar minimum. -/
def execMinS (k : CoreId) (w : IWord) (s : State) : Res State := issueWord k (withSca 0x0E w) s

/-- MAX (R194). Signed scalar maximum. -/
def execMaxS (k : CoreId) (w : IWord) (s : State) : Res State := issueWord k (withSca 0x0F w) s

/-- MINU (R194). Unsigned scalar minimum. -/
def execMinu (k : CoreId) (w : IWord) (s : State) : Res State := issueWord k (withSca 0x10 w) s

/-- MAXU (R194). Unsigned scalar maximum. -/
def execMaxu (k : CoreId) (w : IWord) (s : State) : Res State := issueWord k (withSca 0x11 w) s

/-- CLZ (R194). Count of leading zeros. -/
def execClz (k : CoreId) (w : IWord) (s : State) : Res State := issueWord k (withSca 0x13 w) s

/-- POPC (R194). Count of set bits. -/
def execPopc (k : CoreId) (w : IWord) (s : State) : Res State := issueWord k (withSca 0x14 w) s

/-- MOV (R194). Scalar move of operand b. -/
def execMov (k : CoreId) (w : IWord) (s : State) : Res State := issueWord k (withSca 0x20 w) s

/-- MOVHI (R192). Combines the low 16 bits of a with IMM shifted left by 16. -/
def execMovhi (k : CoreId) (w : IWord) (s : State) : Res State := issueWord k (withSca 0x21 w) s

/-- SREAD (R202). Reads a system register. -/
def execSread (k : CoreId) (w : IWord) (s : State) : Res State := issueWord k (withSca 0x30 w) s

/-- SWRITE (R202). Writes EPC or ESCRATCH. -/
def execSwrite (k : CoreId) (w : IWord) (s : State) : Res State := issueWord k (withSca 0x31 w) s

/-! ### Address words -/

/-- LD8 (R203). Zero-extending byte load. -/
def execLd8 (k : CoreId) (w : IWord) (s : State) : Res State := issueWord k (withAdr 0x01 w) s

/-- LD16 (R203). Zero-extending 16-bit load. -/
def execLd16 (k : CoreId) (w : IWord) (s : State) : Res State := issueWord k (withAdr 0x02 w) s

/-- LD32 (R203). Zero-extending 32-bit load. -/
def execLd32 (k : CoreId) (w : IWord) (s : State) : Res State := issueWord k (withAdr 0x03 w) s

/-- LD64 (R203). 64-bit load. -/
def execLd64 (k : CoreId) (w : IWord) (s : State) : Res State := issueWord k (withAdr 0x04 w) s

/-- LDS8 (R203). Sign-extending byte load. -/
def execLds8 (k : CoreId) (w : IWord) (s : State) : Res State := issueWord k (withAdr 0x05 w) s

/-- LDS16 (R203). Sign-extending 16-bit load. -/
def execLds16 (k : CoreId) (w : IWord) (s : State) : Res State := issueWord k (withAdr 0x06 w) s

/-- LDS32 (R203). Sign-extending 32-bit load. -/
def execLds32 (k : CoreId) (w : IWord) (s : State) : Res State := issueWord k (withAdr 0x07 w) s

/-- ST8 (R203). Byte store. -/
def execSt8 (k : CoreId) (w : IWord) (s : State) : Res State := issueWord k (withAdr 0x08 w) s

/-- ST16 (R203). 16-bit store. -/
def execSt16 (k : CoreId) (w : IWord) (s : State) : Res State := issueWord k (withAdr 0x09 w) s

/-- ST32 (R203). 32-bit store. -/
def execSt32 (k : CoreId) (w : IWord) (s : State) : Res State := issueWord k (withAdr 0x0A w) s

/-- ST64 (R203). 64-bit store. -/
def execSt64 (k : CoreId) (w : IWord) (s : State) : Res State := issueWord k (withAdr 0x0B w) s

/-- VLD (R203). Loads 512 bytes into a V register. -/
def execVld (k : CoreId) (w : IWord) (s : State) : Res State := issueWord k (withAdr 0x10 w) s

/-- VST (R203). Stores a V register, 512 bytes. -/
def execVst (k : CoreId) (w : IWord) (s : State) : Res State := issueWord k (withAdr 0x11 w) s

/-- PLD (R203). Loads 64 bytes into a P register. -/
def execPld (k : CoreId) (w : IWord) (s : State) : Res State := issueWord k (withAdr 0x14 w) s

/-- PST (R203). Stores a P register, 64 bytes. -/
def execPst (k : CoreId) (w : IWord) (s : State) : Res State := issueWord k (withAdr 0x15 w) s

/-- AUPD (R203). Address update with no access. -/
def execAupd (k : CoreId) (w : IWord) (s : State) : Res State := issueWord k (withAdr 0x18 w) s

/-- DMA (R159). Issues a DMA transfer, or a sparse job when src lies in the sparse window. -/
def execDma (k : CoreId) (w : IWord) (s : State) : Res State := issueWord k (withAdr 0x20 w) s

/-- FENCE (R157). Waits until every earlier store and DMA of the core is complete. -/
def execFence (k : CoreId) (w : IWord) (s : State) : Res State := issueWord k (withAdr 0x22 w) s

/-! ### Vector words -/

/-- VADD (R289). Vector add. -/
def execVadd (k : CoreId) (w : IWord) (s : State) : Res State := issueWord k (withVec 0x10 w) s

/-- VSUB (R289). Vector subtract. -/
def execVsub (k : CoreId) (w : IWord) (s : State) : Res State := issueWord k (withVec 0x11 w) s

/-- VMUL (R289). Vector multiply. -/
def execVmul (k : CoreId) (w : IWord) (s : State) : Res State := issueWord k (withVec 0x12 w) s

/-- VMULH (R289). Upper half of the double-width product. -/
def execVmulh (k : CoreId) (w : IWord) (s : State) : Res State := issueWord k (withVec 0x13 w) s

/-- VFMA (R289). Fused a × b + c. -/
def execVfma (k : CoreId) (w : IWord) (s : State) : Res State := issueWord k (withVec 0x14 w) s

/-- VMIN (R290). Lane minimum. -/
def execVmin (k : CoreId) (w : IWord) (s : State) : Res State := issueWord k (withVec 0x15 w) s

/-- VMAX (R290). Lane maximum. -/
def execVmax (k : CoreId) (w : IWord) (s : State) : Res State := issueWord k (withVec 0x16 w) s

/-- VABS (R289). Lane absolute value. -/
def execVabs (k : CoreId) (w : IWord) (s : State) : Res State := issueWord k (withVec 0x17 w) s

/-- VNEG (R289). Lane negation. -/
def execVneg (k : CoreId) (w : IWord) (s : State) : Res State := issueWord k (withVec 0x18 w) s

/-- VAND (R288). Bitwise AND of vectors. -/
def execVand (k : CoreId) (w : IWord) (s : State) : Res State := issueWord k (withVec 0x19 w) s

/-- VOR (R288). Bitwise OR of vectors. -/
def execVor (k : CoreId) (w : IWord) (s : State) : Res State := issueWord k (withVec 0x1A w) s

/-- VXOR (R288). Bitwise XOR of vectors. -/
def execVxor (k : CoreId) (w : IWord) (s : State) : Res State := issueWord k (withVec 0x1B w) s

/-- VNOT (R288). Bitwise NOT of a vector. -/
def execVnot (k : CoreId) (w : IWord) (s : State) : Res State := issueWord k (withVec 0x1C w) s

/-- VSHL (R291). Lane shift left. -/
def execVshl (k : CoreId) (w : IWord) (s : State) : Res State := issueWord k (withVec 0x1D w) s

/-- VSHR (R291). Lane logical shift right. -/
def execVshr (k : CoreId) (w : IWord) (s : State) : Res State := issueWord k (withVec 0x1E w) s

/-- VSHRA (R291). Lane arithmetic shift right. -/
def execVshra (k : CoreId) (w : IWord) (s : State) : Res State := issueWord k (withVec 0x1F w) s

/-- VSHRR (R291). Lane rounding shift right. -/
def execVshrr (k : CoreId) (w : IWord) (s : State) : Res State := issueWord k (withVec 0x20 w) s

/-- VCVT (R300). Lane conversion between a listed type pair. -/
def execVcvt (k : CoreId) (w : IWord) (s : State) : Res State := issueWord k (withVec 0x21 w) s

/-- VBCAST (R286). Scalar operand to every lane. -/
def execVbcast (k : CoreId) (w : IWord) (s : State) : Res State := issueWord k (withVec 0x22 w) s

/-- VMOV (R288). Vector copy. -/
def execVmov (k : CoreId) (w : IWord) (s : State) : Res State := issueWord k (withVec 0x23 w) s

/-- VCMPEQ (R292). Equal compare into a predicate. -/
def execVcmpeq (k : CoreId) (w : IWord) (s : State) : Res State := issueWord k (withVec 0x30 w) s

/-- VCMPNE (R292). Not-equal compare into a predicate. -/
def execVcmpne (k : CoreId) (w : IWord) (s : State) : Res State := issueWord k (withVec 0x31 w) s

/-- VCMPLT (R292). Less-than compare into a predicate. -/
def execVcmplt (k : CoreId) (w : IWord) (s : State) : Res State := issueWord k (withVec 0x32 w) s

/-- VCMPLE (R292). Less-or-equal compare into a predicate. -/
def execVcmple (k : CoreId) (w : IWord) (s : State) : Res State := issueWord k (withVec 0x33 w) s

/-- VCMPGT (R292). Greater-than compare into a predicate. -/
def execVcmpgt (k : CoreId) (w : IWord) (s : State) : Res State := issueWord k (withVec 0x34 w) s

/-- VCMPGE (R292). Greater-or-equal compare into a predicate. -/
def execVcmpge (k : CoreId) (w : IWord) (s : State) : Res State := issueWord k (withVec 0x35 w) s

/-- VSEL (R292). Lane select by predicate. -/
def execVsel (k : CoreId) (w : IWord) (s : State) : Res State := issueWord k (withVec 0x36 w) s

/-- PAND (R293). Predicate AND. -/
def execPand (k : CoreId) (w : IWord) (s : State) : Res State := issueWord k (withVec 0x40 w) s

/-- POR (R293). Predicate OR. -/
def execPor (k : CoreId) (w : IWord) (s : State) : Res State := issueWord k (withVec 0x41 w) s

/-- PXOR (R293). Predicate XOR. -/
def execPxor (k : CoreId) (w : IWord) (s : State) : Res State := issueWord k (withVec 0x42 w) s

/-- PNOT (R293). Predicate inversion. -/
def execPnot (k : CoreId) (w : IWord) (s : State) : Res State := issueWord k (withVec 0x43 w) s

/-- PCNT (R293). Predicate set-bit count into S. -/
def execPcnt (k : CoreId) (w : IWord) (s : State) : Res State := issueWord k (withVec 0x44 w) s

/-- PFIRST (R293). Index of the first set predicate bit into S. -/
def execPfirst (k : CoreId) (w : IWord) (s : State) : Res State := issueWord k (withVec 0x45 w) s

/-- VRSUM (R294). Sum reduction by the fixed tree. -/
def execVrsum (k : CoreId) (w : IWord) (s : State) : Res State := issueWord k (withVec 0x50 w) s

/-- VRMAX (R294). Maximum reduction. -/
def execVrmax (k : CoreId) (w : IWord) (s : State) : Res State := issueWord k (withVec 0x51 w) s

/-- VRMIN (R294). Minimum reduction. -/
def execVrmin (k : CoreId) (w : IWord) (s : State) : Res State := issueWord k (withVec 0x52 w) s

/-- VRARGMAX (R296). Index of the greatest unmasked lane into S. -/
def execVrargmax (k : CoreId) (w : IWord) (s : State) : Res State := issueWord k (withVec 0x53 w) s

/-- VPERMB (R299). Byte permute within 128-byte segments. -/
def execVpermb (k : CoreId) (w : IWord) (s : State) : Res State := issueWord k (withVec 0x60 w) s

/-- VPERMW (R299). 32-bit permute across two registers. -/
def execVpermw (k : CoreId) (w : IWord) (s : State) : Res State := issueWord k (withVec 0x61 w) s

/-- VSHUF (R299). Interleave of two registers. -/
def execVshuf (k : CoreId) (w : IWord) (s : State) : Res State := issueWord k (withVec 0x62 w) s

/-- VDEAL (R299). De-interleave of two registers. -/
def execVdeal (k : CoreId) (w : IWord) (s : State) : Res State := issueWord k (withVec 0x63 w) s

/-- VPACK (R301). Narrowing pack of two registers, or BS8 encoding. -/
def execVpack (k : CoreId) (w : IWord) (s : State) : Res State := issueWord k (withVec 0x64 w) s

/-- VUNPKL (R301). Widen the low half. -/
def execVunpkl (k : CoreId) (w : IWord) (s : State) : Res State := issueWord k (withVec 0x65 w) s

/-- VUNPKH (R301). Widen the high half. -/
def execVunpkh (k : CoreId) (w : IWord) (s : State) : Res State := issueWord k (withVec 0x66 w) s

/-- VROT (R299). Byte rotation by the scalar operand. -/
def execVrot (k : CoreId) (w : IWord) (s : State) : Res State := issueWord k (withVec 0x67 w) s

/-- VCMPX (R297). Compare-exchange into two registers and a predicate. -/
def execVcmpx (k : CoreId) (w : IWord) (s : State) : Res State := issueWord k (withVec 0x70 w) s

/-- VTOPK (R298). Top-k merge step with payload map. -/
def execVtopk (k : CoreId) (w : IWord) (s : State) : Res State := issueWord k (withVec 0x71 w) s

/-- VEXP (R333). Lane exponential. -/
def execVexp (k : CoreId) (w : IWord) (s : State) : Res State := issueWord k (withVec 0x80 w) s

/-- VRCP (R333). Lane reciprocal. -/
def execVrcp (k : CoreId) (w : IWord) (s : State) : Res State := issueWord k (withVec 0x81 w) s

/-- VRSQRT (R333). Lane reciprocal square root. -/
def execVrsqrt (k : CoreId) (w : IWord) (s : State) : Res State := issueWord k (withVec 0x82 w) s

/-- VSMMAX (R336). Softmax running-maximum step. -/
def execVsmmax (k : CoreId) (w : IWord) (s : State) : Res State := issueWord k (withVec 0x83 w) s

/-- VSMEXP (R337). Softmax exponential step. -/
def execVsmexp (k : CoreId) (w : IWord) (s : State) : Res State := issueWord k (withVec 0x84 w) s

/-- VSMNORM (R338). Softmax normalisation step with row flag. -/
def execVsmnorm (k : CoreId) (w : IWord) (s : State) : Res State := issueWord k (withVec 0x85 w) s

/-- VGATH (R305). Gather of 128 lanes from the local store. -/
def execVgath (k : CoreId) (w : IWord) (s : State) : Res State := issueWord k (withVec 0x90 w) s

/-- VSCAT (R307). Scatter of 128 lanes to the local store. -/
def execVscat (k : CoreId) (w : IWord) (s : State) : Res State := issueWord k (withVec 0x91 w) s

/-! ### Array words -/

/-- AOUT (R232). Issues n steps of mode O, gather-fed when S[sa] lies in the sparse window. -/
def execAout (k : CoreId) (w : IWord) (s : State) : Res State := issueWord k (withArr 0x01 w) s

/-- AWLD (R234). Issues a stationary weight load for mode R. -/
def execAwld (k : CoreId) (w : IWord) (s : State) : Res State := issueWord k (withArr 0x02 w) s

/-- AROW (R235). Issues n steps of mode R. -/
def execArow (k : CoreId) (w : IWord) (s : State) : Res State := issueWord k (withArr 0x03 w) s

/-- ADRAIN (R237). Issues a drain of the tiles to tile queues, V16-V31 or a scatter. -/
def execAdrain (k : CoreId) (w : IWord) (s : State) : Res State := issueWord k (withArr 0x04 w) s

/-- ACLR (R254). Clears or fills the accumulators and may load K. -/
def execAclr (k : CoreId) (w : IWord) (s : State) : Res State := issueWord k (withArr 0x05 w) s

/-- WREAD (R266). ATRD pass 0 reads the stationary weights as a tile. -/
def execWread (k : CoreId) (w : IWord) (s : State) : Res State := issueWord k (setWf (withArr 0x06 w) 285 4 0) s

/-- TSTEP (R267). ATRD pass 1 runs n steps against the transposed weights. -/
def execTstep (k : CoreId) (w : IWord) (s : State) : Res State := issueWord k (setWf (withArr 0x06 w) 285 4 1) s

/-- ASYNC (R240). Completes when every earlier operation of the masked arrays is complete. -/
def execAsync (k : CoreId) (w : IWord) (s : State) : Res State := issueWord k (withArr 0x08 w) s

/-! ### Tile-queue words -/

/-- QRES (R207). Reserves slots of a queue, or returns FULL or CLOSED. -/
def execQres (k : CoreId) (w : IWord) (s : State) : Res State := issueWord k (withTq 0x01 w) s

/-- QCMT (R170). Commits a reserved slot; the tail advances over closed gaps. -/
def execQcmt (k : CoreId) (w : IWord) (s : State) : Res State := issueWord k (withTq 0x02 w) s

/-- QACQ (R207). Acquires the head of a queue, or returns EMPTY or CLOSED. -/
def execQacq (k : CoreId) (w : IWord) (s : State) : Res State := issueWord k (withTq 0x03 w) s

/-- QREL (R172). Releases elements of a queue. -/
def execQrel (k : CoreId) (w : IWord) (s : State) : Res State := issueWord k (withTq 0x04 w) s

/-- QWAIT (R210). Waits on the watch slots, possibly entering DOZE. -/
def execQwait (k : CoreId) (w : IWord) (s : State) : Res State := issueWord k (withTq 0x05 w) s

/-- TRD (R211). Reads a row or column of the head tile into a V register. -/
def execTrd (k : CoreId) (w : IWord) (s : State) : Res State := issueWord k (withTq 0x08 w) s

/-- TRDT (R211). Reads a row or column of a tile view without a drain. -/
def execTrdt (k : CoreId) (w : IWord) (s : State) : Res State := issueWord k (withTq 0x09 w) s

/-- TPOP (R238). Removes the head tile of an array's tile queue. -/
def execTpop (k : CoreId) (w : IWord) (s : State) : Res State := issueWord k (withTq 0x0A w) s

/-- TSTAT (R207). Returns the tile-queue fills of A0-A3. -/
def execTstat (k : CoreId) (w : IWord) (s : State) : Res State := issueWord k (withTq 0x0B w) s

/-! ### Branch words -/

/-- B (R197). Unconditional relative branch. -/
def execBranchB (k : CoreId) (w : IWord) (s : State) : Res State := issueWord k (withBr 0x01 w) s

/-- BEQ (R197). Branch if equal. -/
def execBeq (k : CoreId) (w : IWord) (s : State) : Res State := issueWord k (withBr 0x02 w) s

/-- BNE (R197). Branch if not equal. -/
def execBne (k : CoreId) (w : IWord) (s : State) : Res State := issueWord k (withBr 0x03 w) s

/-- BLT (R197). Branch if signed less. -/
def execBlt (k : CoreId) (w : IWord) (s : State) : Res State := issueWord k (withBr 0x04 w) s

/-- BGE (R197). Branch if signed greater or equal. -/
def execBge (k : CoreId) (w : IWord) (s : State) : Res State := issueWord k (withBr 0x05 w) s

/-- BLTU (R197). Branch if unsigned less. -/
def execBltu (k : CoreId) (w : IWord) (s : State) : Res State := issueWord k (withBr 0x06 w) s

/-- BGEU (R197). Branch if unsigned greater or equal. -/
def execBgeu (k : CoreId) (w : IWord) (s : State) : Res State := issueWord k (withBr 0x07 w) s

/-- BL (R197). Branch and link. -/
def execBl (k : CoreId) (w : IWord) (s : State) : Res State := issueWord k (withBr 0x08 w) s

/-- BIR (R197). Branch to a register. -/
def execBir (k : CoreId) (w : IWord) (s : State) : Res State := issueWord k (withBr 0x09 w) s

/-- BLIR (R197). Branch to a register and link. -/
def execBlir (k : CoreId) (w : IWord) (s : State) : Res State := issueWord k (withBr 0x0A w) s

/-- ERET (R216). Returns from the exception handler. -/
def execEret (k : CoreId) (w : IWord) (s : State) : Res State := issueWord k (withBr 0x0B w) s

/-- GBAR (R162). Group barrier; releases all members when the last arrives. -/
def execGbar (k : CoreId) (w : IWord) (s : State) : Res State := issueWord k (withBr 0x10 w) s

/-- SLEEP (R163). Waits for a wake cause in DOZE or NAP as allowed. -/
def execSleep (k : CoreId) (w : IWord) (s : State) : Res State := issueWord k (withBr 0x11 w) s

/-- TRAP (R215). Raises exception TRAP with a code. -/
def execTrap (k : CoreId) (w : IWord) (s : State) : Res State := issueWord k (withBr 0x12 w) s

end Sys2Proof.Machine
end

