-- ==== Sys2Proof/Machine/Commands.lean ====
section
/-! DEFINITION. Every command of the table as the part performs it: the meaning that its family gives it while the fabric keeps to
its contract, and what R5 leaves otherwise (`inContract`). -/

namespace Sys2Proof.Machine

/-- BAR0_WRITE (R10). -/
def cmdBar0Write (a : BitVec 26) (sz : AccSize) (d : W64) (poisoned : Bool) : State → Answer :=
  inContract (execBar0Write a sz d poisoned)
/-- BAR0_MULTIWORD_READ (R9). -/
def cmdBar0MultiwordRead (a : BitVec 26) (sz : AccSize) : State → Answer := inContract (execBar0MultiwordRead a sz)
/-- COLD_N_ASSERT (R32). -/
def cmdColdNAssert : State → Answer := inContract execColdNAssert
/-- COLD_N_RELEASE (R569). -/
def cmdColdNRelease : State → Answer := inContract execColdNRelease
/-- PERST_N_ASSERT (R32). -/
def cmdPerstNAssert : State → Answer := inContract execPerstNAssert
/-- PERST_N_RELEASE (R34). -/
def cmdPerstNRelease (strap : BitVec 3) : State → Answer := inContract (execPerstNRelease strap)
/-- I2C_TARGET_READY (R34). -/
def cmdI2cTargetReady : State → Answer := inContract execI2cTargetReady
/-- BIST_COMPLETE (R37). -/
def cmdBistComplete (r : BistResult) : State → Answer := inContract (execBistComplete r)
/-- WARP_APPLY (R50). -/
def cmdWarpApply (partialBit : Bool) : State → Answer := inContract (execWarpApply partialBit)
/-- WARP_CRC_CHECK_DONE (R42). -/
def cmdWarpCrcCheckDone : State → Answer := inContract execWarpCrcCheckDone
/-- WARP_APPLY_DONE (R51). -/
def cmdWarpApplyDone : State → Answer := inContractWith safetyKept execWarpApplyDone
/-- PT_ENABLE (R55). -/
def cmdPtEnable (n : Fin 8) : State → Answer := inContract (execPtEnable n)
/-- PT_DISABLE (R55). -/
def cmdPtDisable (n : Fin 8) : State → Answer := inContract (execPtDisable n)
/-- PT_DRAIN_COMPLETE (R56). -/
def cmdPtDrainComplete (n : Fin 8) : State → Answer := inContract (execPtDrainComplete n)
/-- CORE_ENABLE (R55). -/
def cmdCoreEnable (k : CoreId) : State → Answer := inContract (execCoreEnable k)
/-- CORE_DISABLE (R57). -/
def cmdCoreDisable (k : CoreId) : State → Answer := inContract (execCoreDisable k)
/-- CORE_WAKE_CMD (R164). -/
def cmdCoreWakeCmd (k : CoreId) : State → Answer := inContract (execCoreWakeCmd k)
/-- CORE_DRAIN_COMPLETE (R57). -/
def cmdCoreDrainComplete (k : CoreId) : State → Answer := inContract (execCoreDrainComplete k)
/-- QUEUE_ENABLE (R176). -/
def cmdQueueEnable (q : Fin 1024) : State → Answer := inContract (execQueueEnable q)
/-- QUEUE_DISABLE (R177). -/
def cmdQueueDisable (q : Fin 1024) : State → Answer := inContract (execQueueDisable q)
/-- QUEUE_FLUSH (R178). -/
def cmdQueueFlush (q : Fin 1024) : State → Answer := inContract (execQueueFlush q)
/-- QUEUE_DRAIN_COMPLETE (R57). -/
def cmdQueueDrainComplete (q : Fin 1024) : State → Answer := inContract (execQueueDrainComplete q)
/-- QUEUE_DOORBELL (R173). -/
def cmdQueueDoorbell (q : Fin 1024) (n : BitVec 17) : State → Answer := inContract (execQueueDoorbell q n)
/-- QUEUE_RELEASE (R173). -/
def cmdQueueRelease (q : Fin 1024) (n : BitVec 17) : State → Answer := inContract (execQueueRelease q n)
/-- QUEUE_IRQ_WRITE (R175). -/
def cmdQueueIrqWrite (q : Fin 1024) (v : W32) : State → Answer := inContract (execQueueIrqWrite q v)
/-- ETH_PORT_ENABLE (R115). -/
def cmdEthPortEnable (p : Fin 8) : State → Answer := inContract (execEthPortEnable p)
/-- ETH_PORT_DISABLE (R57). -/
def cmdEthPortDisable (p : Fin 8) : State → Answer := inContract (execEthPortDisable p)
/-- ETH_PORT_DRAIN_COMPLETE (R57). -/
def cmdEthPortDrainComplete (p : Fin 8) : State → Answer := inContract (execEthPortDrainComplete p)
/-- ETH_LINK_CHANGE (R111). -/
def cmdEthLinkChange (p : Fin 8) (up : Bool) : State → Answer := inContract (execEthLinkChange p up)
/-- SYSCLK_LOSS (R597). -/
def cmdSysclkLoss : State → Answer := inContract execSysclkLoss
/-- SYSCLK_RETURN (R597). -/
def cmdSysclkReturn : State → Answer := inContract execSysclkReturn
/-- PLL_RELOCK (R597). -/
def cmdPllRelock (lossOverMs : Bool) : State → Answer := inContract (execPllRelock lossOverMs)
/-- TIME_SET (R72). -/
def cmdTimeSet : State → Answer := inContract execTimeSet
/-- TIME_SET_DONE (R74). -/
def cmdTimeSetDone : State → Answer := inContract execTimeSetDone
/-- TIME_STEP (R73). -/
def cmdTimeStep : State → Answer := inContract execTimeStep
/-- TIME_STEP_DONE (R73). -/
def cmdTimeStepDone : State → Answer := inContract execTimeStepDone
/-- TIME_SNAP (R76). -/
def cmdTimeSnap : State → Answer := inContract execTimeSnap
/-- TIME_SNAP_DONE (R76). -/
def cmdTimeSnapDone : State → Answer := inContract execTimeSnapDone
/-- TIME_TRIM_WRITE (R71). -/
def cmdTimeTrimWrite (v : W32) : State → Answer := inContract (execTimeTrimWrite v)
/-- TIME_BASE_SECOND (R79). -/
def cmdTimeBaseSecond : State → Answer := inContract execTimeBaseSecond
/-- PPS_OUT_PULSE_END (R79). -/
def cmdPpsOutPulseEnd : State → Answer := inContract execPpsOutPulseEnd
/-- PPS_IN_EDGE (R78). -/
def cmdPpsInEdge (rising : Bool) (quarter : Fin 4) : State → Answer := inContract (execPpsInEdge rising quarter)
/-- PPS_LOST_TIMEOUT (R78). -/
def cmdPpsLostTimeout : State → Answer := inContract execPpsLostTimeout
/-- EDGE_INPUT_EDGE (R85). -/
def cmdEdgeInputEdge (es : List PinEdge) : State → Answer := inContract (execEdgeInputEdge es)
/-- POS_EDGE_POP (R87). -/
def cmdPosEdgePop (e : Fin 16) : State → Answer := inContract (execPosEdgePop e)
/-- PICK_STILL_TIMEOUT (R92). -/
def cmdPickStillTimeout (n : Fin 4) : State → Answer := inContract (execPickStillTimeout n)
/-- POS_PK_CFG_WRITE (R91). -/
def cmdPosPkCfgWrite (n : Fin 4) (v : W32) : State → Answer := inContract (execPosPkCfgWrite n v)
/-- LOAD_NOW (R94). -/
def cmdLoadNow (n : Fin 4) : State → Answer := inContract (execLoadNow n)
/-- REF_ARM (R95). -/
def cmdRefArm (n : Fin 4) : State → Answer := inContract (execRefArm n)
/-- REF_DISARM (R96). -/
def cmdRefDisarm (n : Fin 4) : State → Answer := inContract (execRefDisarm n)
/-- POS_EV_ARM (R99). -/
def cmdPosEvArm (v : Fin 80) : State → Answer := inContract (execPosEvArm v)
/-- POS_EV_DISARM (R103). -/
def cmdPosEvDisarm (v : Fin 80) : State → Answer := inContract (execPosEvDisarm v)
/-- EVENT_FIRE (R100). -/
def cmdEventFire (v : Fin 80) : State → Answer := inContract (execEventFire v)
/-- TRIG_PULSE_END (R104). -/
def cmdTrigPulseEnd (v : Fin 16) : State → Answer := inContract (execTrigPulseEnd v)
/-- POSITION_DOORBELL (R105). -/
def cmdPositionDoorbell (d : Fin 64) : State → Answer := inContract (execPositionDoorbell d)
/-- ETH_FRAME_RECEIVE (R116). -/
def cmdEthFrameReceive (p : Fin 8) (frame : List Byte) (fcsOk : Bool) (cut : Bool) (ago : Nat) : State → Answer :=
  inContract (execEthFrameReceive p frame fcsOk cut ago)
/-- POINT_INSERTION (R127). -/
def cmdPointInsertion : State → Answer := inContract execPointInsertion
/-- IMAGE_BLOCK_TIMEOUT (R142). -/
def cmdImageBlockTimeout (x : Fin 4096) : State → Answer := inContract (execImageBlockTimeout x)
/-- ETH_FRAME_TRANSMIT (R145). -/
def cmdEthFrameTransmit (p : Fin 8) (ago : Nat) : State → Answer := inContract (execEthFrameTransmit p ago)
/-- ETH_TXTS_POP (R83). -/
def cmdEthTxtsPop (p : Fin 8) : State → Answer := inContract (execEthTxtsPop p)
/-- INTAKE_GRID_FLIP (R135). -/
def cmdIntakeGridFlip (g : Fin 64) : State → Answer := inContract (execIntakeGridFlip g)
/-- GRID_BUFFER_CLOSED (R136). -/
def cmdGridBufferClosed (g : Fin 64) : State → Answer := inContract (execGridBufferClosed g)
/-- GRID_RELEASE (R138). -/
def cmdGridRelease (g : Fin 64) : State → Answer := inContract (execGridRelease g)
/-- GRID_CLEAR_DONE (R138). -/
def cmdGridClearDone (g : Fin 64) : State → Answer := inContract (execGridClearDone g)
/-- NOP (R191). -/
def cmdNop (k : CoreId) (w : IWord) : State → Answer := inContract (execNop k w)
/-- ADD (R194). -/
def cmdAdd (k : CoreId) (w : IWord) : State → Answer := inContract (execAdd k w)
/-- SUB (R194). -/
def cmdSub (k : CoreId) (w : IWord) : State → Answer := inContract (execSub k w)
/-- AND (R194). -/
def cmdAndS (k : CoreId) (w : IWord) : State → Answer := inContract (execAndS k w)
/-- OR (R194). -/
def cmdOrS (k : CoreId) (w : IWord) : State → Answer := inContract (execOrS k w)
/-- XOR (R194). -/
def cmdXorS (k : CoreId) (w : IWord) : State → Answer := inContract (execXorS k w)
/-- SLL (R194). -/
def cmdSll (k : CoreId) (w : IWord) : State → Answer := inContract (execSll k w)
/-- SRL (R194). -/
def cmdSrl (k : CoreId) (w : IWord) : State → Answer := inContract (execSrl k w)
/-- SRA (R194). -/
def cmdSra (k : CoreId) (w : IWord) : State → Answer := inContract (execSra k w)
/-- MUL (R194). -/
def cmdMul (k : CoreId) (w : IWord) : State → Answer := inContract (execMul k w)
/-- MULHU (R194). -/
def cmdMulhu (k : CoreId) (w : IWord) : State → Answer := inContract (execMulhu k w)
/-- MULHS (R194). -/
def cmdMulhs (k : CoreId) (w : IWord) : State → Answer := inContract (execMulhs k w)
/-- SLT (R194). -/
def cmdSlt (k : CoreId) (w : IWord) : State → Answer := inContract (execSlt k w)
/-- SLTU (R194). -/
def cmdSltu (k : CoreId) (w : IWord) : State → Answer := inContract (execSltu k w)
/-- MIN (R194). -/
def cmdMinS (k : CoreId) (w : IWord) : State → Answer := inContract (execMinS k w)
/-- MAX (R194). -/
def cmdMaxS (k : CoreId) (w : IWord) : State → Answer := inContract (execMaxS k w)
/-- MINU (R194). -/
def cmdMinu (k : CoreId) (w : IWord) : State → Answer := inContract (execMinu k w)
/-- MAXU (R194). -/
def cmdMaxu (k : CoreId) (w : IWord) : State → Answer := inContract (execMaxu k w)
/-- CLZ (R194). -/
def cmdClz (k : CoreId) (w : IWord) : State → Answer := inContract (execClz k w)
/-- POPC (R194). -/
def cmdPopc (k : CoreId) (w : IWord) : State → Answer := inContract (execPopc k w)
/-- MOV (R194). -/
def cmdMov (k : CoreId) (w : IWord) : State → Answer := inContract (execMov k w)
/-- MOVHI (R192). -/
def cmdMovhi (k : CoreId) (w : IWord) : State → Answer := inContract (execMovhi k w)
/-- SREAD (R202). -/
def cmdSread (k : CoreId) (w : IWord) : State → Answer := inContract (execSread k w)
/-- SWRITE (R202). -/
def cmdSwrite (k : CoreId) (w : IWord) : State → Answer := inContract (execSwrite k w)
/-- LD8 (R203). -/
def cmdLd8 (k : CoreId) (w : IWord) : State → Answer := inContract (execLd8 k w)
/-- LD16 (R203). -/
def cmdLd16 (k : CoreId) (w : IWord) : State → Answer := inContract (execLd16 k w)
/-- LD32 (R203). -/
def cmdLd32 (k : CoreId) (w : IWord) : State → Answer := inContract (execLd32 k w)
/-- LD64 (R203). -/
def cmdLd64 (k : CoreId) (w : IWord) : State → Answer := inContract (execLd64 k w)
/-- LDS8 (R203). -/
def cmdLds8 (k : CoreId) (w : IWord) : State → Answer := inContract (execLds8 k w)
/-- LDS16 (R203). -/
def cmdLds16 (k : CoreId) (w : IWord) : State → Answer := inContract (execLds16 k w)
/-- LDS32 (R203). -/
def cmdLds32 (k : CoreId) (w : IWord) : State → Answer := inContract (execLds32 k w)
/-- ST8 (R203). -/
def cmdSt8 (k : CoreId) (w : IWord) : State → Answer := inContract (execSt8 k w)
/-- ST16 (R203). -/
def cmdSt16 (k : CoreId) (w : IWord) : State → Answer := inContract (execSt16 k w)
/-- ST32 (R203). -/
def cmdSt32 (k : CoreId) (w : IWord) : State → Answer := inContract (execSt32 k w)
/-- ST64 (R203). -/
def cmdSt64 (k : CoreId) (w : IWord) : State → Answer := inContract (execSt64 k w)
/-- VLD (R203). -/
def cmdVld (k : CoreId) (w : IWord) : State → Answer := inContract (execVld k w)
/-- VST (R203). -/
def cmdVst (k : CoreId) (w : IWord) : State → Answer := inContract (execVst k w)
/-- PLD (R203). -/
def cmdPld (k : CoreId) (w : IWord) : State → Answer := inContract (execPld k w)
/-- PST (R203). -/
def cmdPst (k : CoreId) (w : IWord) : State → Answer := inContract (execPst k w)
/-- AUPD (R203). -/
def cmdAupd (k : CoreId) (w : IWord) : State → Answer := inContract (execAupd k w)
/-- DMA (R159). -/
def cmdDma (k : CoreId) (w : IWord) : State → Answer := inContract (execDma k w)
/-- DMA_COMPLETE (R159). -/
def cmdDmaComplete (k : CoreId) (i : Nat) : State → Answer := inContract (execDmaComplete k i)
/-- FENCE (R157). -/
def cmdFence (k : CoreId) (w : IWord) : State → Answer := inContract (execFence k w)
/-- VADD (R289). -/
def cmdVadd (k : CoreId) (w : IWord) : State → Answer := inContract (execVadd k w)
/-- VSUB (R289). -/
def cmdVsub (k : CoreId) (w : IWord) : State → Answer := inContract (execVsub k w)
/-- VMUL (R289). -/
def cmdVmul (k : CoreId) (w : IWord) : State → Answer := inContract (execVmul k w)
/-- VMULH (R289). -/
def cmdVmulh (k : CoreId) (w : IWord) : State → Answer := inContract (execVmulh k w)
/-- VFMA (R289). -/
def cmdVfma (k : CoreId) (w : IWord) : State → Answer := inContract (execVfma k w)
/-- VMIN (R290). -/
def cmdVmin (k : CoreId) (w : IWord) : State → Answer := inContract (execVmin k w)
/-- VMAX (R290). -/
def cmdVmax (k : CoreId) (w : IWord) : State → Answer := inContract (execVmax k w)
/-- VABS (R289). -/
def cmdVabs (k : CoreId) (w : IWord) : State → Answer := inContract (execVabs k w)
/-- VNEG (R289). -/
def cmdVneg (k : CoreId) (w : IWord) : State → Answer := inContract (execVneg k w)
/-- VAND (R288). -/
def cmdVand (k : CoreId) (w : IWord) : State → Answer := inContract (execVand k w)
/-- VOR (R288). -/
def cmdVor (k : CoreId) (w : IWord) : State → Answer := inContract (execVor k w)
/-- VXOR (R288). -/
def cmdVxor (k : CoreId) (w : IWord) : State → Answer := inContract (execVxor k w)
/-- VNOT (R288). -/
def cmdVnot (k : CoreId) (w : IWord) : State → Answer := inContract (execVnot k w)
/-- VSHL (R291). -/
def cmdVshl (k : CoreId) (w : IWord) : State → Answer := inContract (execVshl k w)
/-- VSHR (R291). -/
def cmdVshr (k : CoreId) (w : IWord) : State → Answer := inContract (execVshr k w)
/-- VSHRA (R291). -/
def cmdVshra (k : CoreId) (w : IWord) : State → Answer := inContract (execVshra k w)
/-- VSHRR (R291). -/
def cmdVshrr (k : CoreId) (w : IWord) : State → Answer := inContract (execVshrr k w)
/-- VCVT (R300). -/
def cmdVcvt (k : CoreId) (w : IWord) : State → Answer := inContract (execVcvt k w)
/-- VBCAST (R286). -/
def cmdVbcast (k : CoreId) (w : IWord) : State → Answer := inContract (execVbcast k w)
/-- VMOV (R288). -/
def cmdVmov (k : CoreId) (w : IWord) : State → Answer := inContract (execVmov k w)
/-- VCMPEQ (R292). -/
def cmdVcmpeq (k : CoreId) (w : IWord) : State → Answer := inContract (execVcmpeq k w)
/-- VCMPNE (R292). -/
def cmdVcmpne (k : CoreId) (w : IWord) : State → Answer := inContract (execVcmpne k w)
/-- VCMPLT (R292). -/
def cmdVcmplt (k : CoreId) (w : IWord) : State → Answer := inContract (execVcmplt k w)
/-- VCMPLE (R292). -/
def cmdVcmple (k : CoreId) (w : IWord) : State → Answer := inContract (execVcmple k w)
/-- VCMPGT (R292). -/
def cmdVcmpgt (k : CoreId) (w : IWord) : State → Answer := inContract (execVcmpgt k w)
/-- VCMPGE (R292). -/
def cmdVcmpge (k : CoreId) (w : IWord) : State → Answer := inContract (execVcmpge k w)
/-- VSEL (R292). -/
def cmdVsel (k : CoreId) (w : IWord) : State → Answer := inContract (execVsel k w)
/-- PAND (R293). -/
def cmdPand (k : CoreId) (w : IWord) : State → Answer := inContract (execPand k w)
/-- POR (R293). -/
def cmdPor (k : CoreId) (w : IWord) : State → Answer := inContract (execPor k w)
/-- PXOR (R293). -/
def cmdPxor (k : CoreId) (w : IWord) : State → Answer := inContract (execPxor k w)
/-- PNOT (R293). -/
def cmdPnot (k : CoreId) (w : IWord) : State → Answer := inContract (execPnot k w)
/-- PCNT (R293). -/
def cmdPcnt (k : CoreId) (w : IWord) : State → Answer := inContract (execPcnt k w)
/-- PFIRST (R293). -/
def cmdPfirst (k : CoreId) (w : IWord) : State → Answer := inContract (execPfirst k w)
/-- VRSUM (R294). -/
def cmdVrsum (k : CoreId) (w : IWord) : State → Answer := inContract (execVrsum k w)
/-- VRMAX (R294). -/
def cmdVrmax (k : CoreId) (w : IWord) : State → Answer := inContract (execVrmax k w)
/-- VRMIN (R294). -/
def cmdVrmin (k : CoreId) (w : IWord) : State → Answer := inContract (execVrmin k w)
/-- VRARGMAX (R296). -/
def cmdVrargmax (k : CoreId) (w : IWord) : State → Answer := inContract (execVrargmax k w)
/-- VPERMB (R299). -/
def cmdVpermb (k : CoreId) (w : IWord) : State → Answer := inContract (execVpermb k w)
/-- VPERMW (R299). -/
def cmdVpermw (k : CoreId) (w : IWord) : State → Answer := inContract (execVpermw k w)
/-- VSHUF (R299). -/
def cmdVshuf (k : CoreId) (w : IWord) : State → Answer := inContract (execVshuf k w)
/-- VDEAL (R299). -/
def cmdVdeal (k : CoreId) (w : IWord) : State → Answer := inContract (execVdeal k w)
/-- VPACK (R301). -/
def cmdVpack (k : CoreId) (w : IWord) : State → Answer := inContract (execVpack k w)
/-- VUNPKL (R301). -/
def cmdVunpkl (k : CoreId) (w : IWord) : State → Answer := inContract (execVunpkl k w)
/-- VUNPKH (R301). -/
def cmdVunpkh (k : CoreId) (w : IWord) : State → Answer := inContract (execVunpkh k w)
/-- VROT (R299). -/
def cmdVrot (k : CoreId) (w : IWord) : State → Answer := inContract (execVrot k w)
/-- VCMPX (R297). -/
def cmdVcmpx (k : CoreId) (w : IWord) : State → Answer := inContract (execVcmpx k w)
/-- VTOPK (R298). -/
def cmdVtopk (k : CoreId) (w : IWord) : State → Answer := inContract (execVtopk k w)
/-- VEXP (R333). -/
def cmdVexp (k : CoreId) (w : IWord) : State → Answer := inContract (execVexp k w)
/-- VRCP (R333). -/
def cmdVrcp (k : CoreId) (w : IWord) : State → Answer := inContract (execVrcp k w)
/-- VRSQRT (R333). -/
def cmdVrsqrt (k : CoreId) (w : IWord) : State → Answer := inContract (execVrsqrt k w)
/-- VSMMAX (R336). -/
def cmdVsmmax (k : CoreId) (w : IWord) : State → Answer := inContract (execVsmmax k w)
/-- VSMEXP (R337). -/
def cmdVsmexp (k : CoreId) (w : IWord) : State → Answer := inContract (execVsmexp k w)
/-- VSMNORM (R338). -/
def cmdVsmnorm (k : CoreId) (w : IWord) : State → Answer := inContract (execVsmnorm k w)
/-- VGATH (R305). -/
def cmdVgath (k : CoreId) (w : IWord) : State → Answer := inContract (execVgath k w)
/-- VSCAT (R307). -/
def cmdVscat (k : CoreId) (w : IWord) : State → Answer := inContract (execVscat k w)
/-- AOUT (R232). -/
def cmdAout (k : CoreId) (w : IWord) : State → Answer := inContract (execAout k w)
/-- AWLD (R234). -/
def cmdAwld (k : CoreId) (w : IWord) : State → Answer := inContract (execAwld k w)
/-- AROW (R235). -/
def cmdArow (k : CoreId) (w : IWord) : State → Answer := inContract (execArow k w)
/-- ADRAIN (R237). -/
def cmdAdrain (k : CoreId) (w : IWord) : State → Answer := inContract (execAdrain k w)
/-- ACLR (R254). -/
def cmdAclr (k : CoreId) (w : IWord) : State → Answer := inContract (execAclr k w)
/-- WREAD (R266). -/
def cmdWread (k : CoreId) (w : IWord) : State → Answer := inContract (execWread k w)
/-- TSTEP (R267). -/
def cmdTstep (k : CoreId) (w : IWord) : State → Answer := inContract (execTstep k w)
/-- ASYNC (R240). -/
def cmdAsync (k : CoreId) (w : IWord) : State → Answer := inContract (execAsync k w)
/-- ARRAY_OP_BEGIN (R229). -/
def cmdArrayOpBegin (k : CoreId) : State → Answer := inContract (execArrayOpBegin k)
/-- ARRAY_STEP (R233). -/
def cmdArrayStep (k : CoreId) : State → Answer := inContract (execArrayStep k)
/-- ARRAY_OP_COMPLETE (R229). -/
def cmdArrayOpComplete (k : CoreId) (i : Nat) : State → Answer := inContract (execArrayOpComplete k i)
/-- DRAIN_TRANSFER (R238). -/
def cmdDrainTransfer (k : CoreId) : State → Answer := inContract (execDrainTransfer k)
/-- TILE_COMPLETE (R237). -/
def cmdTileComplete (k : CoreId) (a : Fin 4) : State → Answer := inContract (execTileComplete k a)
/-- ARRAY_GAP_LIMIT_EXPIRY (R244). -/
def cmdArrayGapLimitExpiry (k : CoreId) : State → Answer := inContract (execArrayGapLimitExpiry k)
/-- SCATTER_ROW_ISSUE (R358). -/
def cmdScatterRowIssue (k : CoreId) : State → Answer := inContract (execScatterRowIssue k)
/-- BANK_ADDER_RETIRE (R357). -/
def cmdBankAdderRetire (k : CoreId) (b : Fin 32) : State → Answer := inContract (execBankAdderRetire k b)
/-- QRES (R207). -/
def cmdQres (k : CoreId) (w : IWord) : State → Answer := inContract (execQres k w)
/-- QRES_UNBLOCK (R169). -/
def cmdQresUnblock (k : CoreId) : State → Answer := inContract (execQresUnblock k)
/-- QCMT (R170). -/
def cmdQcmt (k : CoreId) (w : IWord) : State → Answer := inContract (execQcmt k w)
/-- QACQ (R207). -/
def cmdQacq (k : CoreId) (w : IWord) : State → Answer := inContract (execQacq k w)
/-- QACQ_UNBLOCK (R169). -/
def cmdQacqUnblock (k : CoreId) : State → Answer := inContract (execQacqUnblock k)
/-- QREL (R172). -/
def cmdQrel (k : CoreId) (w : IWord) : State → Answer := inContract (execQrel k w)
/-- QWAIT (R210). -/
def cmdQwait (k : CoreId) (w : IWord) : State → Answer := inContract (execQwait k w)
/-- TRD (R211). -/
def cmdTrd (k : CoreId) (w : IWord) : State → Answer := inContract (execTrd k w)
/-- TRDT (R211). -/
def cmdTrdt (k : CoreId) (w : IWord) : State → Answer := inContract (execTrdt k w)
/-- TPOP (R238). -/
def cmdTpop (k : CoreId) (w : IWord) : State → Answer := inContract (execTpop k w)
/-- TSTAT (R207). -/
def cmdTstat (k : CoreId) (w : IWord) : State → Answer := inContract (execTstat k w)
/-- B (R197). -/
def cmdBranchB (k : CoreId) (w : IWord) : State → Answer := inContract (execBranchB k w)
/-- BEQ (R197). -/
def cmdBeq (k : CoreId) (w : IWord) : State → Answer := inContract (execBeq k w)
/-- BNE (R197). -/
def cmdBne (k : CoreId) (w : IWord) : State → Answer := inContract (execBne k w)
/-- BLT (R197). -/
def cmdBlt (k : CoreId) (w : IWord) : State → Answer := inContract (execBlt k w)
/-- BGE (R197). -/
def cmdBge (k : CoreId) (w : IWord) : State → Answer := inContract (execBge k w)
/-- BLTU (R197). -/
def cmdBltu (k : CoreId) (w : IWord) : State → Answer := inContract (execBltu k w)
/-- BGEU (R197). -/
def cmdBgeu (k : CoreId) (w : IWord) : State → Answer := inContract (execBgeu k w)
/-- BL (R197). -/
def cmdBl (k : CoreId) (w : IWord) : State → Answer := inContract (execBl k w)
/-- BIR (R197). -/
def cmdBir (k : CoreId) (w : IWord) : State → Answer := inContract (execBir k w)
/-- BLIR (R197). -/
def cmdBlir (k : CoreId) (w : IWord) : State → Answer := inContract (execBlir k w)
/-- ERET (R216). -/
def cmdEret (k : CoreId) (w : IWord) : State → Answer := inContract (execEret k w)
/-- GBAR (R162). -/
def cmdGbar (k : CoreId) (w : IWord) : State → Answer := inContract (execGbar k w)
/-- SLEEP (R163). -/
def cmdSleep (k : CoreId) (w : IWord) : State → Answer := inContract (execSleep k w)
/-- TRAP (R215). -/
def cmdTrap (k : CoreId) (w : IWord) : State → Answer := inContract (execTrap k w)
/-- IDLE_DOZE_EXPIRY (R163). -/
def cmdIdleDozeExpiry (k : CoreId) : State → Answer := inContract (execIdleDozeExpiry k)
/-- LOW_POWER_ENTRY (R246). -/
def cmdLowPowerEntry (k : CoreId) : State → Answer := inContract (execLowPowerEntry k)
/-- LOW_POWER_EXIT_DONE (R165). -/
def cmdLowPowerExitDone (k : CoreId) : State → Answer := inContract (execLowPowerExitDone k)
/-- MATCH_SPARSE (R349). -/
def cmdMatchSparse (k : CoreId) : State → Answer := inContract (execMatchSparse k)
/-- MATCH_DENSE (R349). -/
def cmdMatchDense (k : CoreId) : State → Answer := inContract (execMatchDense k)
/-- NZMAP (R348). -/
def cmdNzmap (k : CoreId) : State → Answer := inContract (execNzmap k)
/-- SPARSE_JOB_COMPLETE (R353). -/
def cmdSparseJobComplete (k : CoreId) : State → Answer := inContract (execSparseJobComplete k)
/-- MEM_TO_MEMORY (R381). -/
def cmdMemToMemory (c : Fin 48) : State → Answer := inContract (execMemToMemory c)
/-- MEM_TO_PROCESSOR (R381). -/
def cmdMemToProcessor (c : Fin 48) : State → Answer := inContract (execMemToProcessor c)
/-- CHANNEL_DRAIN_COMPLETE (R382). -/
def cmdChannelDrainComplete (c : Fin 48) : State → Answer := inContract (execChannelDrainComplete c)
/-- MEMORY_ACCESS (R399). -/
def cmdMemoryAccess (ag : Agent) (a : W64) (acc : Access) : State → Answer := inContract (execMemoryAccess ag a acc)
/-- COMMAND_SUBMIT (R386). -/
def cmdCommandSubmit (c : Fin 48) (p : CoreId) (slot : Fin 64) (w3 : W64) : State → Answer :=
  inContract (execCommandSubmit c p slot w3)
/-- COMMAND_ACCEPT (R387). -/
def cmdCommandAccept (c : Fin 48) : State → Answer := inContract (execCommandAccept c)
/-- BANK_UNIT_ADD (R392). -/
def cmdBankUnitAdd (c : Fin 48) : State → Answer := inContract (execBankUnitAdd c)
/-- BANK_UNIT_SUB (R392). -/
def cmdBankUnitSub (c : Fin 48) : State → Answer := inContract (execBankUnitSub c)
/-- BANK_UNIT_MUL (R392). -/
def cmdBankUnitMul (c : Fin 48) : State → Answer := inContract (execBankUnitMul c)
/-- MADD (R392). -/
def cmdMadd (c : Fin 48) : State → Answer := inContract (execMadd c)
/-- RELU (R392). -/
def cmdRelu (c : Fin 48) : State → Answer := inContract (execRelu c)
/-- BANK_UNIT_CLAMP (R392). -/
def cmdBankUnitClamp (c : Fin 48) : State → Answer := inContract (execBankUnitClamp c)
/-- LUT (R392). -/
def cmdLut (c : Fin 48) : State → Answer := inContract (execLut c)
/-- BSADD (R395). -/
def cmdBsadd (c : Fin 48) : State → Answer := inContract (execBsadd c)
/-- BSMUL (R395). -/
def cmdBsmul (c : Fin 48) : State → Answer := inContract (execBsmul c)
/-- MOVE (R396). -/
def cmdMoveBu (c : Fin 48) : State → Answer := inContract (execMoveBu c)
/-- NOTIFY (R398). -/
def cmdNotify (c : Fin 48) : State → Answer := inContract (execNotify c)
/-- BANK_UNIT_COMPLETE (R396). -/
def cmdBankUnitComplete (c : Fin 48) (u : Fin 8) : State → Answer := inContract (execBankUnitComplete c u)
/-- MEM_TEMP_SAMPLE (R397). -/
def cmdMemTempSample (d : Fin 12) (t : BitVec 8) : State → Answer := inContract (execMemTempSample d t)
/-- EMB_LOOKUP (R411). -/
def cmdEmbLookup (i : Fin 8) : State → Answer := inContract (execEmbLookup i)
/-- EMB_GRAD (R425). -/
def cmdEmbGrad (i : Fin 8) : State → Answer := inContract (execEmbGrad i)
/-- EMB_REQUEST_COMPLETE (R412). -/
def cmdEmbRequestComplete (r : BitVec 16) : State → Answer := inContract (execEmbRequestComplete r)
/-- EMB_SUB (R414). -/
def cmdEmbSub (m : SubMsg) : State → Answer := inContract (execEmbSub m)
/-- EMB_PART (R414). -/
def cmdEmbPart (m : PartMsg) : State → Answer := inContract (execEmbPart m)
/-- EMB_REMOTE_TIMEOUT (R414). -/
def cmdEmbRemoteTimeout (r : BitVec 16) : State → Answer := inContract (execEmbRemoteTimeout r)
/-- EMB_TAB_CUR_WRITE (R416). -/
def cmdEmbTabCurWrite (t : Fin 256) (v : Fin 4) : State → Answer := inContract (execEmbTabCurWrite t v)
/-- EMB_LOAD_WINDOW_END (R418). -/
def cmdEmbLoadWindowEnd : State → Answer := inContract execEmbLoadWindowEnd
/-- EMB_FENCE (R422). -/
def cmdEmbFence : State → Answer := inContract execEmbFence
/-- EMB_MOVE_GO (R420). -/
def cmdEmbMoveGo : State → Answer := inContract execEmbMoveGo
/-- EMB_MOVE_MESSAGE (R420). -/
def cmdEmbMoveMessage (m : MoveMsg) : State → Answer := inContract (execEmbMoveMessage m)
/-- MOVE_ACK (R420). -/
def cmdMoveAck (dst : BitVec 4) (num : BitVec 32) (refused : Bool) : State → Answer := inContract (execMoveAck dst num refused)
/-- EMB_MOVE_TIMEOUT (R454). -/
def cmdEmbMoveTimeout : State → Answer := inContract execEmbMoveTimeout
/-- CLEAR_REDIRECTS (R423). -/
def cmdClearRedirects : State → Answer := inContract execClearRedirects
/-- LINK_ENABLE (R436). -/
def cmdLinkEnable (l : Fin 6) : State → Answer := inContract (execLinkEnable l)
/-- LINK_DISABLE (R461). -/
def cmdLinkDisable (l : Fin 6) : State → Answer := inContract (execLinkDisable l)
/-- LINK_RETRAIN (R439). -/
def cmdLinkRetrain (l : Fin 6) : State → Answer := inContract (execLinkRetrain l)
/-- LINK_DRAIN_COMPLETE (R461). -/
def cmdLinkDrainComplete (l : Fin 6) : State → Answer := inContract (execLinkDrainComplete l)
/-- LINK_TRAIN_PHASE_DONE (R436). -/
def cmdLinkTrainPhaseDone (l : Fin 6) (i : TrainInfo) : State → Answer := inContract (execLinkTrainPhaseDone l i)
/-- LINK_TRAIN_TIMEOUT (R437). -/
def cmdLinkTrainTimeout (l : Fin 6) : State → Answer := inContract (execLinkTrainTimeout l)
/-- LINK_TRAIN_RETRY (R437). -/
def cmdLinkTrainRetry (l : Fin 6) : State → Answer := inContract (execLinkTrainRetry l)
/-- PEER_RETRY (R438). -/
def cmdPeerRetry (l : Fin 6) (i : TrainInfo) : State → Answer := inContract (execPeerRetry l i)
/-- LINK_SIGNAL_LOSS (R439). -/
def cmdLinkSignalLoss (l : Fin 6) : State → Answer := inContract (execLinkSignalLoss l)
/-- LINK_IDLE_TIMEOUT (R439). -/
def cmdLinkIdleTimeout (l : Fin 6) : State → Answer := inContract (execLinkIdleTimeout l)
/-- FLIT_RECEIVE (R441). -/
def cmdFlitReceive (l : Fin 6) (f : Flit) : State → Answer := inContract (execFlitReceive l f)
/-- FLIT_TRANSMIT (R440). -/
def cmdFlitTransmit (l : Fin 6) (vc : Fin 4) : State → Answer := inContract (execFlitTransmit l vc)
/-- REPLAY_TIMEOUT (R441). -/
def cmdReplayTimeout (l : Fin 6) : State → Answer := inContract (execReplayTimeout l)
/-- BOLT_TRANSMIT (R445). -/
def cmdBoltTransmit : State → Answer := inContract execBoltTransmit
/-- BOLT_RECEIVE (R447). -/
def cmdBoltReceive (l : Fin 6) : State → Answer := inContract (execBoltReceive l)
/-- BOLT_HOLD_RELEASE (R448). -/
def cmdBoltHoldRelease (l : Fin 6) : State → Answer := inContract (execBoltHoldRelease l)
/-- BOLT_HOLD_TIMEOUT (R448). -/
def cmdBoltHoldTimeout (l : Fin 6) : State → Answer := inContract (execBoltHoldTimeout l)
/-- END (R461). -/
def cmdEndMsg (l : Fin 6) : State → Answer := inContract (execEndMsg l)
/-- SYNC_PERIOD (R455). -/
def cmdSyncPeriod : State → Answer := inContract execSyncPeriod
/-- SYNC (R457). -/
def cmdSync (l : Fin 6) (m : SyncMsg) : State → Answer := inContract (execSync l m)
/-- SYNC_LOSS_TIMEOUT (R457). -/
def cmdSyncLossTimeout : State → Answer := inContract execSyncLossTimeout
/-- DELAY_MEASURE_PERIOD (R456). -/
def cmdDelayMeasurePeriod (l : Fin 6) : State → Answer := inContract (execDelayMeasurePeriod l)
/-- DELAY_REQ (R456). -/
def cmdDelayReq (l : Fin 6) (t1 t2 : TStamp) : State → Answer := inContract (execDelayReq l t1 t2)
/-- DELAY_RESP (R456). -/
def cmdDelayResp (l : Fin 6) (t1 t2 t3 t4 : TStamp) : State → Answer := inContract (execDelayResp l t1 t2 t3 t4)
/-- PICK_SEND (R458). -/
def cmdPickSend (n : Fin 4) : State → Answer := inContract (execPickSend n)
/-- PICK (R459). -/
def cmdPick (l : Fin 6) (m : PickMsg) : State → Answer := inContract (execPick l m)
/-- PICK_APPLY (R459). -/
def cmdPickApply (n : Fin 4) : State → Answer := inContract (execPickApply n)
/-- BUDGET_WINDOW (R453). -/
def cmdBudgetWindow (l : Fin 6) : State → Answer := inContract (execBudgetWindow l)
/-- CHECKSUM_EVENT (R278). -/
def cmdChecksumEvent : State → Answer := inContract execChecksumEvent
/-- RESIDUE_EVENT (R314). -/
def cmdResidueEvent (k : CoreId) (opc : BitVec 10) (lane : BitVec 10) : State → Answer :=
  inContract (execResidueEvent k opc lane)
/-- MEMORY_EVENT (R379). -/
def cmdMemoryEvent : State → Answer := inContract execMemoryEvent
/-- E2E_EVENT (R449). -/
def cmdE2eEvent : State → Answer := inContract execE2eEvent
/-- REGION_EVENT (R490). -/
def cmdRegionEvent : State → Answer := inContract execRegionEvent
/-- LOCKSTEP (R468). -/
def cmdLockstep : State → Answer := inContract execLockstep
/-- SELV_ECC (R468). -/
def cmdSelvEcc (corrected : Bool) : State → Answer := inContract (execSelvEcc corrected)
/-- SAFE_CLK_FAULT (R468). -/
def cmdSafeClkFault : State → Answer := inContract execSafeClkFault
/-- DIE_TEMP_SAMPLE (R584). -/
def cmdDieTempSample (t : BitVec 8) : State → Answer := inContract (execDieTempSample t)
/-- SAFE_HB_TOGGLE (R470). -/
def cmdSafeHbToggle : State → Answer := inContract execSafeHbToggle
/-- RESULT (R481). -/
def cmdResult (i : Fin 4) (b : Bool) : State → Answer := inContract (execResult i b)
/-- FRAME_END (R481). -/
def cmdFrameEnd (i : Fin 4) (b : Bool) : State → Answer := inContract (execFrameEnd i b)
/-- PAIR_WINDOW_EXPIRY (R482). -/
def cmdPairWindowExpiry (i : Fin 4) : State → Answer := inContract (execPairWindowExpiry i)
/-- SEED_INJECTION (R487). -/
def cmdSeedInjection : State → Answer := inContract execSeedInjection
/-- SEED_FRAME (R146). -/
def cmdSeedFrame : State → Answer := inContract execSeedFrame
/-- SEED_DEADLINE (R488). -/
def cmdSeedDeadline (i : Fin 4) : State → Answer := inContract (execSeedDeadline i)
/-- DM_START (R494). -/
def cmdDmStart (m : Fin 64) : State → Answer := inContract (execDmStart m)
/-- DM_END (R494). -/
def cmdDmEnd (m : Fin 64) : State → Answer := inContract (execDmEnd m)
/-- DEADLINE (R495). -/
def cmdDeadline (m : Fin 64) : State → Answer := inContract (execDeadline m)
/-- SELFTEST_ROUND (R496). -/
def cmdSelftestRound : State → Answer := inContract execSelftestRound
/-- SELFTEST_SLOT (R497). -/
def cmdSelftestSlot (r : SlotResult) : State → Answer := inContract (execSelftestSlot r)
/-- BANDWIDTH_WINDOW (R491). -/
def cmdBandwidthWindow (c : Fin 48) : State → Answer := inContract (execBandwidthWindow c)
/-- INTAKE_WINDOW_SWITCH (R493). -/
def cmdIntakeWindowSwitch : State → Answer := inContract execIntakeWindowSwitch
/-- TELEGRAM_PERIOD (R499). -/
def cmdTelegramPeriod : State → Answer := inContract execTelegramPeriod
/-- GET_CHALLENGE (R500). -/
def cmdGetChallenge : State → Answer := inContract execGetChallenge
/-- CLEAR (R500). -/
def cmdClearSafe : State → Answer := inContract execClearSafe
/-- ENTER_SAFE (R502). -/
def cmdEnterSafe : State → Answer := inContract execEnterSafe
/-- CHALLENGE_EXPIRY (R500). -/
def cmdChallengeExpiry : State → Answer := inContract execChallengeExpiry
/-- PCIE_HOT_RESET (R508). -/
def cmdPcieHotReset : State → Answer := inContract execPcieHotReset
/-- BAR2_READ (R510). -/
def cmdBar2Read (o : BitVec 36) (n : Nat) : State → Answer := inContract (execBar2Read o n)
/-- BAR2_WRITE (R510). -/
def cmdBar2Write (o : BitVec 36) (bs : List Byte) (poisoned : Bool) : State → Answer := inContract (execBar2Write o bs poisoned)
/-- BAR2_READ_TIMEOUT (R514). -/
def cmdBar2ReadTimeout : State → Answer := inContract execBar2ReadTimeout
/-- BAR4_WRITE (R516). -/
def cmdBar4Write (o : BitVec 29) (bs : List Byte) (poisoned : Bool) : State → Answer := inContract (execBar4Write o bs poisoned)
/-- HOST_BAR2_PAGE_WRITE (R512). -/
def cmdHostBar2PageWrite (n : Fin 64) (v : W32) : State → Answer := inContract (execHostBar2PageWrite n v)
/-- MSIX_SEND (R518). -/
def cmdMsixSend (v : Fin 256) : State → Answer := inContract (execMsixSend v)
/-- I2C_START (R520). -/
def cmdI2cStart : State → Answer := inContract execI2cStart
/-- I2C_ADDRESS_BYTE (R519). -/
def cmdI2cAddressByte (b : Byte) : State → Answer := inContract (execI2cAddressByte b)
/-- I2C_WRITE_BYTE (R521). -/
def cmdI2cWriteByte (b : Byte) : State → Answer := inContract (execI2cWriteByte b)
/-- I2C_READ_BYTE (R520). -/
def cmdI2cReadByte (nack : Bool) : State → Answer := inContract (execI2cReadByte nack)
/-- I2C_REPEATED_START (R524). -/
def cmdI2cRepeatedStart : State → Answer := inContract execI2cRepeatedStart
/-- I2C_STOP (R522). -/
def cmdI2cStop (partialByte : Bool) : State → Answer := inContract (execI2cStop partialByte)
/-- I2C_SCL_TIMEOUT (R525). -/
def cmdI2cSclTimeout : State → Answer := inContract execI2cSclTimeout
/-- H2B_POST (R528). -/
def cmdH2bPost : State → Answer := inContract execH2bPost
/-- H2B_ACK (R528). -/
def cmdH2bAck : State → Answer := inContract execH2bAck
/-- B2H_POST (R528). -/
def cmdB2hPost : State → Answer := inContract execB2hPost
/-- B2H_ACK (R528). -/
def cmdB2hAck : State → Answer := inContract execB2hAck
/-- SUPPLY_HOLD_BEGIN (R532). -/
def cmdSupplyHoldBegin : State → Answer := inContractWith pfFall execSupplyHoldBegin
/-- HOLD_READY (R532). -/
def cmdHoldReady : State → Answer := inContract execHoldReady
/-- SUPPLY_HOLD_END (R534). -/
def cmdSupplyHoldEnd : State → Answer := inContract execSupplyHoldEnd
/-- HOLD_RESUME_DONE (R535). -/
def cmdHoldResumeDone (us : W32) : State → Answer := inContract (execHoldResumeDone us)
/-- TRACE_ENABLE (R554). -/
def cmdTraceEnable (v : W32) : State → Answer := inContract (execTraceEnable v)
/-- TRACE_CLEAR (R546). -/
def cmdTraceClear : State → Answer := inContract execTraceClear
/-- HOST_MARK (R541). -/
def cmdHostMark (v : W32) : State → Answer := inContract (execHostMark v)
/-- TRACE_SYNC_PERIOD (R550). -/
def cmdTraceSyncPeriod (k : CoreId) : State → Answer := inContract (execTraceSyncPeriod k)
/-- PMC_CLEAR (R553). -/
def cmdPmcClear : State → Answer := inContract execPmcClear
/-- PMC_SNAP (R553). -/
def cmdPmcSnap : State → Answer := inContract execPmcSnap
/-- TRACE_FREEZE (R555). -/
def cmdTraceFreeze (v : W32) : State → Answer := inContract (execTraceFreeze v)
/-- FREEZE_N (R555). -/
def cmdFreezeN : State → Answer := inContract execFreezeN
/-- FREEZE (R556). -/
def cmdFreeze : State → Answer := inContract execFreeze
/-- TAP_RESET (R559). -/
def cmdTapReset : State → Answer := inContract execTapReset
/-- EXTEST (R559). -/
def cmdExtest (drive : List Bool) : State → Answer := inContract (execExtest drive)
/-- IDCODE (R559). -/
def cmdIdcode : State → Answer := inContract execIdcode
/-- SAMPLE_PRELOAD (R559). -/
def cmdSamplePreload (load : List Bool) : State → Answer := inContract (execSamplePreload load)
/-- EXTEST_PULSE (R559). -/
def cmdExtestPulse : State → Answer := inContract execExtestPulse
/-- EXTEST_TRAIN (R559). -/
def cmdExtestTrain : State → Answer := inContract execExtestTrain
/-- HIGHZ (R559). -/
def cmdHighz : State → Answer := inContract execHighz
/-- CLAMP (R559). -/
def cmdClamp : State → Answer := inContract execClamp
/-- RO_SELECT (R559). -/
def cmdRoSelect (sel : BitVec 68) : State → Answer := inContract (execRoSelect sel)
/-- READOUT (R560). -/
def cmdReadout : State → Answer := inContract execReadout
/-- BYPASS (R559). -/
def cmdBypass : State → Answer := inContract execBypass
/-- LOW_POWER_ENTRY_DONE (R246). -/
def cmdLowPowerEntryDone (k : CoreId) : State → Answer := inContract (execLowPowerEntryDone k)
/-- PCIE_LINK_UP (R34). -/
def cmdPcieLinkUp (width : BitVec 5) (speed : BitVec 3) : State → Answer := inContract (execPcieLinkUp width speed)
/-- CONFIGURATION_REQUEST (R506). -/
def cmdConfigurationRequest (r : CfgReq) : State → Answer := inContract (execConfigurationRequest r)
/-- BAR4_READ (R533). -/
def cmdBar4Read (o : BitVec 29) (n : Nat) : State → Answer := inContract (execBar4Read o n)
/-- SUPPLY_LOSS (R26). -/
def cmdSupplyLoss (selvedge : Bool) : State → Answer := inContract (execSupplyLoss selvedge)

end Sys2Proof.Machine
end

