-- ==== Sys2Proof/Machine/Dispatch.lean ====
section
/-! DEFINITION. The dispatcher: one arm for each constructor of `Instr`, one direct call of its meaning. -/

namespace Sys2Proof.Machine

/-- The effect of a command on everything but the queue. -/
def exec (i : Instr) (s : State) : Host.Outcome State Fault Refusal :=
  match i with
  | .bar0Write a sz d poisoned => Sys2Proof.Machine.cmdBar0Write a sz d poisoned s
  | .bar0MultiwordRead a sz => Sys2Proof.Machine.cmdBar0MultiwordRead a sz s
  | .coldNAssert => Sys2Proof.Machine.cmdColdNAssert s
  | .coldNRelease => Sys2Proof.Machine.cmdColdNRelease s
  | .perstNAssert => Sys2Proof.Machine.cmdPerstNAssert s
  | .perstNRelease strap => Sys2Proof.Machine.cmdPerstNRelease strap s
  | .i2cTargetReady => Sys2Proof.Machine.cmdI2cTargetReady s
  | .bistComplete r => Sys2Proof.Machine.cmdBistComplete r s
  | .warpApply partialBit => Sys2Proof.Machine.cmdWarpApply partialBit s
  | .warpCrcCheckDone => Sys2Proof.Machine.cmdWarpCrcCheckDone s
  | .warpApplyDone => Sys2Proof.Machine.cmdWarpApplyDone s
  | .ptEnable n => Sys2Proof.Machine.cmdPtEnable n s
  | .ptDisable n => Sys2Proof.Machine.cmdPtDisable n s
  | .ptDrainComplete n => Sys2Proof.Machine.cmdPtDrainComplete n s
  | .coreEnable k => Sys2Proof.Machine.cmdCoreEnable k s
  | .coreDisable k => Sys2Proof.Machine.cmdCoreDisable k s
  | .coreWakeCmd k => Sys2Proof.Machine.cmdCoreWakeCmd k s
  | .coreDrainComplete k => Sys2Proof.Machine.cmdCoreDrainComplete k s
  | .queueEnable q => Sys2Proof.Machine.cmdQueueEnable q s
  | .queueDisable q => Sys2Proof.Machine.cmdQueueDisable q s
  | .queueFlush q => Sys2Proof.Machine.cmdQueueFlush q s
  | .queueDrainComplete q => Sys2Proof.Machine.cmdQueueDrainComplete q s
  | .queueDoorbell q n => Sys2Proof.Machine.cmdQueueDoorbell q n s
  | .queueRelease q n => Sys2Proof.Machine.cmdQueueRelease q n s
  | .queueIrqWrite q v => Sys2Proof.Machine.cmdQueueIrqWrite q v s
  | .ethPortEnable p => Sys2Proof.Machine.cmdEthPortEnable p s
  | .ethPortDisable p => Sys2Proof.Machine.cmdEthPortDisable p s
  | .ethPortDrainComplete p => Sys2Proof.Machine.cmdEthPortDrainComplete p s
  | .ethLinkChange p up => Sys2Proof.Machine.cmdEthLinkChange p up s
  | .sysclkLoss => Sys2Proof.Machine.cmdSysclkLoss s
  | .sysclkReturn => Sys2Proof.Machine.cmdSysclkReturn s
  | .pllRelock lossOverMs => Sys2Proof.Machine.cmdPllRelock lossOverMs s
  | .timeSet => Sys2Proof.Machine.cmdTimeSet s
  | .timeSetDone => Sys2Proof.Machine.cmdTimeSetDone s
  | .timeStep => Sys2Proof.Machine.cmdTimeStep s
  | .timeStepDone => Sys2Proof.Machine.cmdTimeStepDone s
  | .timeSnap => Sys2Proof.Machine.cmdTimeSnap s
  | .timeSnapDone => Sys2Proof.Machine.cmdTimeSnapDone s
  | .timeTrimWrite v => Sys2Proof.Machine.cmdTimeTrimWrite v s
  | .timeBaseSecond => Sys2Proof.Machine.cmdTimeBaseSecond s
  | .ppsOutPulseEnd => Sys2Proof.Machine.cmdPpsOutPulseEnd s
  | .ppsInEdge rising quarter => Sys2Proof.Machine.cmdPpsInEdge rising quarter s
  | .ppsLostTimeout => Sys2Proof.Machine.cmdPpsLostTimeout s
  | .edgeInputEdge es => Sys2Proof.Machine.cmdEdgeInputEdge es s
  | .posEdgePop e => Sys2Proof.Machine.cmdPosEdgePop e s
  | .pickStillTimeout n => Sys2Proof.Machine.cmdPickStillTimeout n s
  | .posPkCfgWrite n v => Sys2Proof.Machine.cmdPosPkCfgWrite n v s
  | .loadNow n => Sys2Proof.Machine.cmdLoadNow n s
  | .refArm n => Sys2Proof.Machine.cmdRefArm n s
  | .refDisarm n => Sys2Proof.Machine.cmdRefDisarm n s
  | .posEvArm v => Sys2Proof.Machine.cmdPosEvArm v s
  | .posEvDisarm v => Sys2Proof.Machine.cmdPosEvDisarm v s
  | .eventFire v => Sys2Proof.Machine.cmdEventFire v s
  | .trigPulseEnd v => Sys2Proof.Machine.cmdTrigPulseEnd v s
  | .positionDoorbell d => Sys2Proof.Machine.cmdPositionDoorbell d s
  | .ethFrameReceive p frame fcsOk cut ago => Sys2Proof.Machine.cmdEthFrameReceive p frame fcsOk cut ago s
  | .pointInsertion => Sys2Proof.Machine.cmdPointInsertion s
  | .imageBlockTimeout x => Sys2Proof.Machine.cmdImageBlockTimeout x s
  | .ethFrameTransmit p ago => Sys2Proof.Machine.cmdEthFrameTransmit p ago s
  | .ethTxtsPop p => Sys2Proof.Machine.cmdEthTxtsPop p s
  | .intakeGridFlip g => Sys2Proof.Machine.cmdIntakeGridFlip g s
  | .gridBufferClosed g => Sys2Proof.Machine.cmdGridBufferClosed g s
  | .gridRelease g => Sys2Proof.Machine.cmdGridRelease g s
  | .gridClearDone g => Sys2Proof.Machine.cmdGridClearDone g s
  | .nop k w => Sys2Proof.Machine.cmdNop k w s
  | .add k w => Sys2Proof.Machine.cmdAdd k w s
  | .sub k w => Sys2Proof.Machine.cmdSub k w s
  | .andS k w => Sys2Proof.Machine.cmdAndS k w s
  | .orS k w => Sys2Proof.Machine.cmdOrS k w s
  | .xorS k w => Sys2Proof.Machine.cmdXorS k w s
  | .sll k w => Sys2Proof.Machine.cmdSll k w s
  | .srl k w => Sys2Proof.Machine.cmdSrl k w s
  | .sra k w => Sys2Proof.Machine.cmdSra k w s
  | .mul k w => Sys2Proof.Machine.cmdMul k w s
  | .mulhu k w => Sys2Proof.Machine.cmdMulhu k w s
  | .mulhs k w => Sys2Proof.Machine.cmdMulhs k w s
  | .slt k w => Sys2Proof.Machine.cmdSlt k w s
  | .sltu k w => Sys2Proof.Machine.cmdSltu k w s
  | .minS k w => Sys2Proof.Machine.cmdMinS k w s
  | .maxS k w => Sys2Proof.Machine.cmdMaxS k w s
  | .minu k w => Sys2Proof.Machine.cmdMinu k w s
  | .maxu k w => Sys2Proof.Machine.cmdMaxu k w s
  | .clz k w => Sys2Proof.Machine.cmdClz k w s
  | .popc k w => Sys2Proof.Machine.cmdPopc k w s
  | .mov k w => Sys2Proof.Machine.cmdMov k w s
  | .movhi k w => Sys2Proof.Machine.cmdMovhi k w s
  | .sread k w => Sys2Proof.Machine.cmdSread k w s
  | .swrite k w => Sys2Proof.Machine.cmdSwrite k w s
  | .ld8 k w => Sys2Proof.Machine.cmdLd8 k w s
  | .ld16 k w => Sys2Proof.Machine.cmdLd16 k w s
  | .ld32 k w => Sys2Proof.Machine.cmdLd32 k w s
  | .ld64 k w => Sys2Proof.Machine.cmdLd64 k w s
  | .lds8 k w => Sys2Proof.Machine.cmdLds8 k w s
  | .lds16 k w => Sys2Proof.Machine.cmdLds16 k w s
  | .lds32 k w => Sys2Proof.Machine.cmdLds32 k w s
  | .st8 k w => Sys2Proof.Machine.cmdSt8 k w s
  | .st16 k w => Sys2Proof.Machine.cmdSt16 k w s
  | .st32 k w => Sys2Proof.Machine.cmdSt32 k w s
  | .st64 k w => Sys2Proof.Machine.cmdSt64 k w s
  | .vld k w => Sys2Proof.Machine.cmdVld k w s
  | .vst k w => Sys2Proof.Machine.cmdVst k w s
  | .pld k w => Sys2Proof.Machine.cmdPld k w s
  | .pst k w => Sys2Proof.Machine.cmdPst k w s
  | .aupd k w => Sys2Proof.Machine.cmdAupd k w s
  | .dma k w => Sys2Proof.Machine.cmdDma k w s
  | .dmaComplete k n1 => Sys2Proof.Machine.cmdDmaComplete k n1 s
  | .fence k w => Sys2Proof.Machine.cmdFence k w s
  | .vadd k w => Sys2Proof.Machine.cmdVadd k w s
  | .vsub k w => Sys2Proof.Machine.cmdVsub k w s
  | .vmul k w => Sys2Proof.Machine.cmdVmul k w s
  | .vmulh k w => Sys2Proof.Machine.cmdVmulh k w s
  | .vfma k w => Sys2Proof.Machine.cmdVfma k w s
  | .vmin k w => Sys2Proof.Machine.cmdVmin k w s
  | .vmax k w => Sys2Proof.Machine.cmdVmax k w s
  | .vabs k w => Sys2Proof.Machine.cmdVabs k w s
  | .vneg k w => Sys2Proof.Machine.cmdVneg k w s
  | .vand k w => Sys2Proof.Machine.cmdVand k w s
  | .vor k w => Sys2Proof.Machine.cmdVor k w s
  | .vxor k w => Sys2Proof.Machine.cmdVxor k w s
  | .vnot k w => Sys2Proof.Machine.cmdVnot k w s
  | .vshl k w => Sys2Proof.Machine.cmdVshl k w s
  | .vshr k w => Sys2Proof.Machine.cmdVshr k w s
  | .vshra k w => Sys2Proof.Machine.cmdVshra k w s
  | .vshrr k w => Sys2Proof.Machine.cmdVshrr k w s
  | .vcvt k w => Sys2Proof.Machine.cmdVcvt k w s
  | .vbcast k w => Sys2Proof.Machine.cmdVbcast k w s
  | .vmov k w => Sys2Proof.Machine.cmdVmov k w s
  | .vcmpeq k w => Sys2Proof.Machine.cmdVcmpeq k w s
  | .vcmpne k w => Sys2Proof.Machine.cmdVcmpne k w s
  | .vcmplt k w => Sys2Proof.Machine.cmdVcmplt k w s
  | .vcmple k w => Sys2Proof.Machine.cmdVcmple k w s
  | .vcmpgt k w => Sys2Proof.Machine.cmdVcmpgt k w s
  | .vcmpge k w => Sys2Proof.Machine.cmdVcmpge k w s
  | .vsel k w => Sys2Proof.Machine.cmdVsel k w s
  | .pand k w => Sys2Proof.Machine.cmdPand k w s
  | .por k w => Sys2Proof.Machine.cmdPor k w s
  | .pxor k w => Sys2Proof.Machine.cmdPxor k w s
  | .pnot k w => Sys2Proof.Machine.cmdPnot k w s
  | .pcnt k w => Sys2Proof.Machine.cmdPcnt k w s
  | .pfirst k w => Sys2Proof.Machine.cmdPfirst k w s
  | .vrsum k w => Sys2Proof.Machine.cmdVrsum k w s
  | .vrmax k w => Sys2Proof.Machine.cmdVrmax k w s
  | .vrmin k w => Sys2Proof.Machine.cmdVrmin k w s
  | .vrargmax k w => Sys2Proof.Machine.cmdVrargmax k w s
  | .vpermb k w => Sys2Proof.Machine.cmdVpermb k w s
  | .vpermw k w => Sys2Proof.Machine.cmdVpermw k w s
  | .vshuf k w => Sys2Proof.Machine.cmdVshuf k w s
  | .vdeal k w => Sys2Proof.Machine.cmdVdeal k w s
  | .vpack k w => Sys2Proof.Machine.cmdVpack k w s
  | .vunpkl k w => Sys2Proof.Machine.cmdVunpkl k w s
  | .vunpkh k w => Sys2Proof.Machine.cmdVunpkh k w s
  | .vrot k w => Sys2Proof.Machine.cmdVrot k w s
  | .vcmpx k w => Sys2Proof.Machine.cmdVcmpx k w s
  | .vtopk k w => Sys2Proof.Machine.cmdVtopk k w s
  | .vexp k w => Sys2Proof.Machine.cmdVexp k w s
  | .vrcp k w => Sys2Proof.Machine.cmdVrcp k w s
  | .vrsqrt k w => Sys2Proof.Machine.cmdVrsqrt k w s
  | .vsmmax k w => Sys2Proof.Machine.cmdVsmmax k w s
  | .vsmexp k w => Sys2Proof.Machine.cmdVsmexp k w s
  | .vsmnorm k w => Sys2Proof.Machine.cmdVsmnorm k w s
  | .vgath k w => Sys2Proof.Machine.cmdVgath k w s
  | .vscat k w => Sys2Proof.Machine.cmdVscat k w s
  | .aout k w => Sys2Proof.Machine.cmdAout k w s
  | .awld k w => Sys2Proof.Machine.cmdAwld k w s
  | .arow k w => Sys2Proof.Machine.cmdArow k w s
  | .adrain k w => Sys2Proof.Machine.cmdAdrain k w s
  | .aclr k w => Sys2Proof.Machine.cmdAclr k w s
  | .wread k w => Sys2Proof.Machine.cmdWread k w s
  | .tstep k w => Sys2Proof.Machine.cmdTstep k w s
  | .async k w => Sys2Proof.Machine.cmdAsync k w s
  | .arrayOpBegin k => Sys2Proof.Machine.cmdArrayOpBegin k s
  | .arrayStep k => Sys2Proof.Machine.cmdArrayStep k s
  | .arrayOpComplete k n1 => Sys2Proof.Machine.cmdArrayOpComplete k n1 s
  | .drainTransfer k => Sys2Proof.Machine.cmdDrainTransfer k s
  | .tileComplete k a => Sys2Proof.Machine.cmdTileComplete k a s
  | .arrayGapLimitExpiry k => Sys2Proof.Machine.cmdArrayGapLimitExpiry k s
  | .scatterRowIssue k => Sys2Proof.Machine.cmdScatterRowIssue k s
  | .bankAdderRetire k b => Sys2Proof.Machine.cmdBankAdderRetire k b s
  | .qres k w => Sys2Proof.Machine.cmdQres k w s
  | .qresUnblock k => Sys2Proof.Machine.cmdQresUnblock k s
  | .qcmt k w => Sys2Proof.Machine.cmdQcmt k w s
  | .qacq k w => Sys2Proof.Machine.cmdQacq k w s
  | .qacqUnblock k => Sys2Proof.Machine.cmdQacqUnblock k s
  | .qrel k w => Sys2Proof.Machine.cmdQrel k w s
  | .qwait k w => Sys2Proof.Machine.cmdQwait k w s
  | .trd k w => Sys2Proof.Machine.cmdTrd k w s
  | .trdt k w => Sys2Proof.Machine.cmdTrdt k w s
  | .tpop k w => Sys2Proof.Machine.cmdTpop k w s
  | .tstat k w => Sys2Proof.Machine.cmdTstat k w s
  | .branchB k w => Sys2Proof.Machine.cmdBranchB k w s
  | .beq k w => Sys2Proof.Machine.cmdBeq k w s
  | .bne k w => Sys2Proof.Machine.cmdBne k w s
  | .blt k w => Sys2Proof.Machine.cmdBlt k w s
  | .bge k w => Sys2Proof.Machine.cmdBge k w s
  | .bltu k w => Sys2Proof.Machine.cmdBltu k w s
  | .bgeu k w => Sys2Proof.Machine.cmdBgeu k w s
  | .bl k w => Sys2Proof.Machine.cmdBl k w s
  | .bir k w => Sys2Proof.Machine.cmdBir k w s
  | .blir k w => Sys2Proof.Machine.cmdBlir k w s
  | .eret k w => Sys2Proof.Machine.cmdEret k w s
  | .gbar k w => Sys2Proof.Machine.cmdGbar k w s
  | .sleep k w => Sys2Proof.Machine.cmdSleep k w s
  | .trap k w => Sys2Proof.Machine.cmdTrap k w s
  | .idleDozeExpiry k => Sys2Proof.Machine.cmdIdleDozeExpiry k s
  | .lowPowerEntry k => Sys2Proof.Machine.cmdLowPowerEntry k s
  | .lowPowerExitDone k => Sys2Proof.Machine.cmdLowPowerExitDone k s
  | .matchSparse k => Sys2Proof.Machine.cmdMatchSparse k s
  | .matchDense k => Sys2Proof.Machine.cmdMatchDense k s
  | .nzmap k => Sys2Proof.Machine.cmdNzmap k s
  | .sparseJobComplete k => Sys2Proof.Machine.cmdSparseJobComplete k s
  | .memToMemory c => Sys2Proof.Machine.cmdMemToMemory c s
  | .memToProcessor c => Sys2Proof.Machine.cmdMemToProcessor c s
  | .channelDrainComplete c => Sys2Proof.Machine.cmdChannelDrainComplete c s
  | .memoryAccess ag a acc => Sys2Proof.Machine.cmdMemoryAccess ag a acc s
  | .commandSubmit c p slot w3 => Sys2Proof.Machine.cmdCommandSubmit c p slot w3 s
  | .commandAccept c => Sys2Proof.Machine.cmdCommandAccept c s
  | .bankUnitAdd c => Sys2Proof.Machine.cmdBankUnitAdd c s
  | .bankUnitSub c => Sys2Proof.Machine.cmdBankUnitSub c s
  | .bankUnitMul c => Sys2Proof.Machine.cmdBankUnitMul c s
  | .madd c => Sys2Proof.Machine.cmdMadd c s
  | .relu c => Sys2Proof.Machine.cmdRelu c s
  | .bankUnitClamp c => Sys2Proof.Machine.cmdBankUnitClamp c s
  | .lut c => Sys2Proof.Machine.cmdLut c s
  | .bsadd c => Sys2Proof.Machine.cmdBsadd c s
  | .bsmul c => Sys2Proof.Machine.cmdBsmul c s
  | .moveBu c => Sys2Proof.Machine.cmdMoveBu c s
  | .notify c => Sys2Proof.Machine.cmdNotify c s
  | .bankUnitComplete c u => Sys2Proof.Machine.cmdBankUnitComplete c u s
  | .memTempSample d t => Sys2Proof.Machine.cmdMemTempSample d t s
  | .embLookup n1 => Sys2Proof.Machine.cmdEmbLookup n1 s
  | .embGrad n1 => Sys2Proof.Machine.cmdEmbGrad n1 s
  | .embRequestComplete r => Sys2Proof.Machine.cmdEmbRequestComplete r s
  | .embSub m => Sys2Proof.Machine.cmdEmbSub m s
  | .embPart m => Sys2Proof.Machine.cmdEmbPart m s
  | .embRemoteTimeout r => Sys2Proof.Machine.cmdEmbRemoteTimeout r s
  | .embTabCurWrite t v => Sys2Proof.Machine.cmdEmbTabCurWrite t v s
  | .embLoadWindowEnd => Sys2Proof.Machine.cmdEmbLoadWindowEnd s
  | .embFence => Sys2Proof.Machine.cmdEmbFence s
  | .embMoveGo => Sys2Proof.Machine.cmdEmbMoveGo s
  | .embMoveMessage m => Sys2Proof.Machine.cmdEmbMoveMessage m s
  | .moveAck dst num refused => Sys2Proof.Machine.cmdMoveAck dst num refused s
  | .embMoveTimeout => Sys2Proof.Machine.cmdEmbMoveTimeout s
  | .clearRedirects => Sys2Proof.Machine.cmdClearRedirects s
  | .linkEnable l => Sys2Proof.Machine.cmdLinkEnable l s
  | .linkDisable l => Sys2Proof.Machine.cmdLinkDisable l s
  | .linkRetrain l => Sys2Proof.Machine.cmdLinkRetrain l s
  | .linkDrainComplete l => Sys2Proof.Machine.cmdLinkDrainComplete l s
  | .linkTrainPhaseDone l n1 => Sys2Proof.Machine.cmdLinkTrainPhaseDone l n1 s
  | .linkTrainTimeout l => Sys2Proof.Machine.cmdLinkTrainTimeout l s
  | .linkTrainRetry l => Sys2Proof.Machine.cmdLinkTrainRetry l s
  | .peerRetry l n1 => Sys2Proof.Machine.cmdPeerRetry l n1 s
  | .linkSignalLoss l => Sys2Proof.Machine.cmdLinkSignalLoss l s
  | .linkIdleTimeout l => Sys2Proof.Machine.cmdLinkIdleTimeout l s
  | .flitReceive l f => Sys2Proof.Machine.cmdFlitReceive l f s
  | .flitTransmit l vc => Sys2Proof.Machine.cmdFlitTransmit l vc s
  | .replayTimeout l => Sys2Proof.Machine.cmdReplayTimeout l s
  | .boltTransmit => Sys2Proof.Machine.cmdBoltTransmit s
  | .boltReceive l => Sys2Proof.Machine.cmdBoltReceive l s
  | .boltHoldRelease l => Sys2Proof.Machine.cmdBoltHoldRelease l s
  | .boltHoldTimeout l => Sys2Proof.Machine.cmdBoltHoldTimeout l s
  | .endMsg l => Sys2Proof.Machine.cmdEndMsg l s
  | .syncPeriod => Sys2Proof.Machine.cmdSyncPeriod s
  | .sync l m => Sys2Proof.Machine.cmdSync l m s
  | .syncLossTimeout => Sys2Proof.Machine.cmdSyncLossTimeout s
  | .delayMeasurePeriod l => Sys2Proof.Machine.cmdDelayMeasurePeriod l s
  | .delayReq l t1 t2 => Sys2Proof.Machine.cmdDelayReq l t1 t2 s
  | .delayResp l t1 t2 t3 t4 => Sys2Proof.Machine.cmdDelayResp l t1 t2 t3 t4 s
  | .pickSend n => Sys2Proof.Machine.cmdPickSend n s
  | .pick l m => Sys2Proof.Machine.cmdPick l m s
  | .pickApply n => Sys2Proof.Machine.cmdPickApply n s
  | .budgetWindow l => Sys2Proof.Machine.cmdBudgetWindow l s
  | .checksumEvent => Sys2Proof.Machine.cmdChecksumEvent s
  | .residueEvent k opc lane => Sys2Proof.Machine.cmdResidueEvent k opc lane s
  | .memoryEvent => Sys2Proof.Machine.cmdMemoryEvent s
  | .e2eEvent => Sys2Proof.Machine.cmdE2eEvent s
  | .regionEvent => Sys2Proof.Machine.cmdRegionEvent s
  | .lockstep => Sys2Proof.Machine.cmdLockstep s
  | .selvEcc corrected => Sys2Proof.Machine.cmdSelvEcc corrected s
  | .safeClkFault => Sys2Proof.Machine.cmdSafeClkFault s
  | .dieTempSample t => Sys2Proof.Machine.cmdDieTempSample t s
  | .safeHbToggle => Sys2Proof.Machine.cmdSafeHbToggle s
  | .result n1 b => Sys2Proof.Machine.cmdResult n1 b s
  | .frameEnd n1 b => Sys2Proof.Machine.cmdFrameEnd n1 b s
  | .pairWindowExpiry n1 => Sys2Proof.Machine.cmdPairWindowExpiry n1 s
  | .seedInjection => Sys2Proof.Machine.cmdSeedInjection s
  | .seedFrame => Sys2Proof.Machine.cmdSeedFrame s
  | .seedDeadline n1 => Sys2Proof.Machine.cmdSeedDeadline n1 s
  | .dmStart m => Sys2Proof.Machine.cmdDmStart m s
  | .dmEnd m => Sys2Proof.Machine.cmdDmEnd m s
  | .deadline m => Sys2Proof.Machine.cmdDeadline m s
  | .selftestRound => Sys2Proof.Machine.cmdSelftestRound s
  | .selftestSlot r => Sys2Proof.Machine.cmdSelftestSlot r s
  | .bandwidthWindow c => Sys2Proof.Machine.cmdBandwidthWindow c s
  | .intakeWindowSwitch => Sys2Proof.Machine.cmdIntakeWindowSwitch s
  | .telegramPeriod => Sys2Proof.Machine.cmdTelegramPeriod s
  | .getChallenge => Sys2Proof.Machine.cmdGetChallenge s
  | .clearSafe => Sys2Proof.Machine.cmdClearSafe s
  | .enterSafe => Sys2Proof.Machine.cmdEnterSafe s
  | .challengeExpiry => Sys2Proof.Machine.cmdChallengeExpiry s
  | .pcieHotReset => Sys2Proof.Machine.cmdPcieHotReset s
  | .bar2Read o n => Sys2Proof.Machine.cmdBar2Read o n s
  | .bar2Write o bs poisoned => Sys2Proof.Machine.cmdBar2Write o bs poisoned s
  | .bar2ReadTimeout => Sys2Proof.Machine.cmdBar2ReadTimeout s
  | .bar4Write o bs poisoned => Sys2Proof.Machine.cmdBar4Write o bs poisoned s
  | .hostBar2PageWrite n v => Sys2Proof.Machine.cmdHostBar2PageWrite n v s
  | .msixSend v => Sys2Proof.Machine.cmdMsixSend v s
  | .i2cStart => Sys2Proof.Machine.cmdI2cStart s
  | .i2cAddressByte b => Sys2Proof.Machine.cmdI2cAddressByte b s
  | .i2cWriteByte b => Sys2Proof.Machine.cmdI2cWriteByte b s
  | .i2cReadByte nack => Sys2Proof.Machine.cmdI2cReadByte nack s
  | .i2cRepeatedStart => Sys2Proof.Machine.cmdI2cRepeatedStart s
  | .i2cStop partialByte => Sys2Proof.Machine.cmdI2cStop partialByte s
  | .i2cSclTimeout => Sys2Proof.Machine.cmdI2cSclTimeout s
  | .h2bPost => Sys2Proof.Machine.cmdH2bPost s
  | .h2bAck => Sys2Proof.Machine.cmdH2bAck s
  | .b2hPost => Sys2Proof.Machine.cmdB2hPost s
  | .b2hAck => Sys2Proof.Machine.cmdB2hAck s
  | .supplyHoldBegin => Sys2Proof.Machine.cmdSupplyHoldBegin s
  | .holdReady => Sys2Proof.Machine.cmdHoldReady s
  | .supplyHoldEnd => Sys2Proof.Machine.cmdSupplyHoldEnd s
  | .holdResumeDone us => Sys2Proof.Machine.cmdHoldResumeDone us s
  | .traceEnable v => Sys2Proof.Machine.cmdTraceEnable v s
  | .traceClear => Sys2Proof.Machine.cmdTraceClear s
  | .hostMark v => Sys2Proof.Machine.cmdHostMark v s
  | .traceSyncPeriod k => Sys2Proof.Machine.cmdTraceSyncPeriod k s
  | .pmcClear => Sys2Proof.Machine.cmdPmcClear s
  | .pmcSnap => Sys2Proof.Machine.cmdPmcSnap s
  | .traceFreeze v => Sys2Proof.Machine.cmdTraceFreeze v s
  | .freezeN => Sys2Proof.Machine.cmdFreezeN s
  | .freeze => Sys2Proof.Machine.cmdFreeze s
  | .tapReset => Sys2Proof.Machine.cmdTapReset s
  | .extest drive => Sys2Proof.Machine.cmdExtest drive s
  | .idcode => Sys2Proof.Machine.cmdIdcode s
  | .samplePreload load => Sys2Proof.Machine.cmdSamplePreload load s
  | .extestPulse => Sys2Proof.Machine.cmdExtestPulse s
  | .extestTrain => Sys2Proof.Machine.cmdExtestTrain s
  | .highz => Sys2Proof.Machine.cmdHighz s
  | .clamp => Sys2Proof.Machine.cmdClamp s
  | .roSelect sel => Sys2Proof.Machine.cmdRoSelect sel s
  | .readout => Sys2Proof.Machine.cmdReadout s
  | .bypass => Sys2Proof.Machine.cmdBypass s
  | .lowPowerEntryDone k => Sys2Proof.Machine.cmdLowPowerEntryDone k s
  | .pcieLinkUp width speed => Sys2Proof.Machine.cmdPcieLinkUp width speed s
  | .configurationRequest r => Sys2Proof.Machine.cmdConfigurationRequest r s
  | .bar4Read o n => Sys2Proof.Machine.cmdBar4Read o n s
  | .supplyLoss selvedge => Sys2Proof.Machine.cmdSupplyLoss selvedge s

end Sys2Proof.Machine
end

