-- ==== Sys2Proof/Machine/Tick.lean ====
section
/-! DEFINITION. What passes while no command waits (log entry 9, DESIGN CHOICE): 5 ns, which are 5 TCLK, 8 CCLK and 2 SCLK
(R3). The time base and the selvedge's clock count, and so does what the spec counts by the clock. -/

namespace Sys2Proof.Machine

/-! ### The selvedge (R478, R479) -/

/-- A timer of a record is paused for 1 µs. -/
def Record.pause (r : Record) : Record := { r with arrived := r.arrived + 1 }

/-- The timers of one pair are paused for 1 µs while PF_N is low (R478). -/
def pausePair (s : State) (i : Nat) : State :=
  let x := pairSt s i
  setPairSt s i { x with
    frames := x.frames.map fun f => { f with as := f.as.map Record.pause, bs := f.bs.map Record.pause, lostAt := f.lostAt.map (· + 1) }
    seedStarts := x.seedStarts.map fun t => t + 1 }

/-- 2 SCLK of the selvedge; 400 SCLK are 1 µs of SELV_TIME. -/
def selvTick (s : State) : State :=
  if !s.selvUp then s
  else if s.selv.sclk + 2 < 400 then { s with selv := { s.selv with sclk := s.selv.sclk + 2 } }
  else
    let s := { s with selv := { s.selv with sclk := s.selv.sclk + 2 - 400 } }.wrQ Reg.selvTime 2 (selvTime s + 1)
    if s.bit Reg.selvStatus 1 then (pairNums s).foldl pausePair s else s

/-! ### Time and position (R70, R87) -/

/-- 5 TCLK. -/
def timeTick (s : State) : State :=
  if s.tclk then tbAdvance { s with pos := { s.pos with now := s.pos.now + 20 } } 5 else s

/-! ### Cores (R210's CYCLE, R238, R241, R243, R553) -/

/-- 8 CCLK of core k. -/
def coreTick (s : State) (k : Nat) : State :=
  let st := coreState s k
  if st = 0 ∨ st = 3 then s
  else
    let s := setCore s k { core s k with cycle := (core s k).cycle + 8 }
    let pw := corePower s k
    let s := if st = 1 ∧ pw = 0 then pmcCount 0x03 k 8 (pmcCount 0x01 k 8 s)
      else if pw = 1 then pmcCount 0x05 k 8 s
      else if pw = 2 ∨ pw = 3 then pmcCount 0x06 k 8 s else s
    let s := if drainFrozen s k then pmcCount 0x08 k 8 ((s.satAdd (Reg.arrayFrzTq k) 8).putB (Reg.arrayStatus k) 7 true) else s
    if s.bit (Reg.arrayPwr k) 8 && arrLevel s k != 0 then s.satAdd (Reg.arrayDummy k) 8 else s

/-! ### Admission (R120) -/

/-- A token bucket fills for 5 ns, in millibits. -/
def addTokens (c : Ctx) : Ctx := { c with tokens := min (c.tokens + 5 * c.rate) (c.burst * 1024 * 8 * 1000) }

/-- Every context's bucket fills. -/
def bucketTick (s : State) : State :=
  { s with intake := { s.intake with ctxs := s.intake.ctxs.map fun e => (e.1, addTokens e.2) } }

/-- 8 CCLK of the compute domain: cores, buckets, a move that waits to begin, trace FIFOs, idle
flits (R420, R435, R544). -/
def cclkTick (s : State) : State :=
  let s := if s.warp.image then bucketTick ((List.range 32).foldl coreTick s) else s
  (List.range 6).foldl idleFlit (traceMove 16 (moveStart s))

/-- 5 ns without a command. -/
def tick (s : State) : State :=
  let s := timeTick (selvTick s)
  if s.cclk then cclkTick s else s

end Sys2Proof.Machine
end

