-- ==== Sys2Proof/Safety.lean ====
section
/-! DEFINITION. What a state of the machine keeps at every step, and the conditions statements are made under. -/

namespace Sys2Proof.Machine

/-! ### Which parts of the state a command may change -/

/-- The parts of the state besides the queue, by the field that holds them. -/
inductive Part where
  | powered | pins | clk | regs | shadows | mem | memGen | health | loader | warp | pos | slots | intake | cores | chans
  | emb | chain | selv | host | i2c | hold | trace | frz | tap | out | resp | freeCtr | contract
  deriving DecidableEq, Repr

/-- A part is the same in two states. -/
def Part.same (s t : State) : Part → Prop
  | .powered => t.powered = s.powered
  | .pins => t.pins = s.pins
  | .clk => t.clk = s.clk
  | .regs => t.regs = s.regs
  | .shadows => t.shadows = s.shadows
  | .mem => t.mem = s.mem
  | .memGen => t.memGen = s.memGen
  | .health => t.health = s.health
  | .loader => t.loader = s.loader
  | .warp => t.warp = s.warp
  | .pos => t.pos = s.pos
  | .slots => t.slots = s.slots
  | .intake => t.intake = s.intake
  | .cores => t.cores = s.cores
  | .chans => t.chans = s.chans
  | .emb => t.emb = s.emb
  | .chain => t.chain = s.chain
  | .selv => t.selv = s.selv
  | .host => t.host = s.host
  | .i2c => t.i2c = s.i2c
  | .hold => t.hold = s.hold
  | .trace => t.trace = s.trace
  | .frz => t.frz = s.frz
  | .tap => t.tap = s.tap
  | .out => t.out = s.out
  | .resp => t.resp = s.resp
  | .freeCtr => t.freeCtr = s.freeCtr
  | .contract => t.contract = s.contract

/-- The parts a command may change while the fabric stays within its contract; every other part is left as it is. -/
def touches : Instr → List Part
  | .safeHbToggle => [.pins]
  | .sysclkReturn => [.clk]
  | .ethPortEnable .. | .ethPortDrainComplete .. | .ethLinkChange .. | .timeSnap | .timeSnapDone | .timeTrimWrite ..
  | .ppsLostTimeout | .refArm .. | .refDisarm .. | .arrayGapLimitExpiry .. | .memTempSample .. | .embTabCurWrite ..
  | .hostBar2PageWrite .. | .h2bPost | .h2bAck | .b2hAck | .traceClear | .pmcClear | .pmcSnap => [.regs]
  | .intakeWindowSwitch => [.intake]
  | .idleDozeExpiry .. => [.cores]
  | .endMsg .. | .syncPeriod | .delayMeasurePeriod .. | .delayReq .. => [.chain]
  | .seedInjection | .selftestRound | .challengeExpiry => [.selv]
  | .i2cStart | .i2cRepeatedStart | .i2cSclTimeout => [.i2c]
  | .freezeN => [.frz]
  | .tapReset | .extestPulse | .extestTrain | .highz | .clamp | .roSelect .. | .bypass => [.tap]
  | .perstNRelease .. => [.pins, .regs]
  | .ppsOutPulseEnd | .trigPulseEnd .. => [.pins, .pos]
  | .timeSet | .timeStep | .ppsInEdge .. | .posEdgePop .. | .pickStillTimeout .. | .posPkCfgWrite .. => [.regs, .pos]
  | .queueEnable .. => [.regs, .slots]
  | .ethPortDisable .. => [.regs, .intake]
  | .queueDisable .. | .arrayOpBegin .. | .arrayOpComplete .. | .drainTransfer .. | .scatterRowIssue ..
  | .lowPowerEntryDone .. => [.regs, .cores]
  | .commandAccept .. | .bankUnitComplete .. => [.regs, .chans]
  | .embFence | .clearRedirects => [.regs, .emb]
  | .linkEnable .. | .linkDisable .. | .linkTrainTimeout .. | .linkTrainRetry .. | .boltHoldTimeout .. | .delayResp .. => [.regs, .chain]
  | .pickSend .. => [.pos, .chain]
  | .bistComplete .. | .pcieLinkUp .. => [.regs, .host]
  | .i2cTargetReady => [.regs, .i2c]
  | .holdReady => [.regs, .hold]
  | .traceEnable .. | .hostMark .. | .traceSyncPeriod .. => [.regs, .trace]
  | .traceFreeze .. => [.regs, .frz]
  | .queueRelease .. | .queueIrqWrite .. | .msixSend .. | .b2hPost => [.regs, .out]
  | .idcode | .readout => [.tap, .out]
  | .bar4Read .. => [.regs, .resp]
  | .bar0MultiwordRead .. => [.shadows, .resp]
  | .configurationRequest .. => [.host, .resp]
  | .i2cAddressByte .. | .i2cWriteByte .. | .i2cReadByte .. => [.i2c, .resp]
  | .channelDrainComplete .. => [.regs, .contract]
  | .queueFlush .. | .queueDrainComplete .. => [.regs, .slots, .cores]
  | .embLoadWindowEnd => [.regs, .pos, .emb]
  | .linkRetrain .. | .linkDrainComplete .. | .linkSignalLoss .. | .linkIdleTimeout .. | .syncLossTimeout => [.regs, .pos, .chain]
  | .embRemoteTimeout .. => [.regs, .emb, .chain]
  | .arrayStep .. => [.regs, .cores, .selv]
  | .bar4Write .. => [.regs, .mem, .host]
  | .lowPowerEntry .. => [.regs, .cores, .trace]
  | .warpApply .. | .warpCrcCheckDone => [.regs, .loader, .out]
  | .ethTxtsPop .. => [.regs, .intake, .out]
  | .linkTrainPhaseDone .. | .peerRetry .. | .flitTransmit .. => [.regs, .chain, .out]
  | .telegramPeriod => [.regs, .selv, .out]
  | .i2cStop .. => [.regs, .i2c, .out]
  | .getChallenge => [.regs, .selv, .freeCtr]
  | .extest .. | .samplePreload .. => [.tap, .out, .freeCtr]
  | .nzmap .. => [.mem, .cores, .contract]
  | .coldNRelease => [.powered, .pins, .regs, .selv]
  | .gridRelease .. => [.regs, .intake, .chans, .selv]
  | .boltTransmit => [.regs, .chans, .chain, .selv]
  | .timeBaseSecond => [.pins, .regs, .pos, .trace]
  | .coreEnable .. | .coreDrainComplete .. => [.regs, .slots, .cores, .trace]
  | .flitReceive .. | .replayTimeout .. => [.regs, .pos, .chain, .out]
  | .clearSafe => [.pins, .regs, .selv, .out]
  | .bar2ReadTimeout => [.regs, .chans, .host, .resp]
  | .embPart .. => [.regs, .emb, .chain, .freeCtr]
  | .tileComplete .. => [.regs, .cores, .selv, .freeCtr]
  | .pointInsertion | .intakeGridFlip .. | .gridBufferClosed .. | .gridClearDone .. => [.regs, .mem, .intake, .contract]
  | .bankAdderRetire .. | .matchSparse .. | .matchDense .. => [.regs, .mem, .cores, .contract]
  | .memToMemory .. | .memToProcessor .. | .notify .. => [.regs, .mem, .chans, .contract]
  | .pllRelock .. => [.clk, .mem, .memGen, .health, .pos]
  | .commandSubmit .. | .bankUnitAdd .. | .bankUnitSub .. | .bankUnitMul .. | .madd .. | .relu .. | .bankUnitClamp ..
  | .lut .. | .moveBu .. => [.regs, .mem, .health, .chans, .selv]
  | .ethFrameTransmit .. => [.regs, .intake, .chans, .selv, .out]
  | .checksumEvent | .residueEvent .. | .memoryEvent | .e2eEvent | .regionEvent | .lockstep | .selvEcc .. | .safeClkFault
  | .dieTempSample .. | .seedDeadline .. | .dmStart .. | .deadline .. | .selftestSlot .. | .bandwidthWindow .. | .enterSafe
    => [.pins, .regs, .selv, .frz, .out]
  | .coreWakeCmd .. => [.regs, .cores, .trace, .out, .freeCtr]
  | .supplyHoldEnd => [.pins, .regs, .chain, .selv, .hold, .out]
  | .sysclkLoss => [.pins, .clk, .regs, .selv, .frz, .out]
  | .budgetWindow .. | .dmEnd .. => [.pins, .regs, .chain, .selv, .frz, .out]
  | .bsadd .. | .bsmul .. => [.regs, .mem, .health, .chans, .selv, .freeCtr]
  | .freeze => [.pins, .regs, .i2c, .trace, .frz, .freeCtr]
  | .lowPowerExitDone .. => [.regs, .slots, .cores, .trace, .out, .freeCtr]
  | .coreDisable .. => [.regs, .cores, .chans, .trace, .out, .freeCtr]
  | .queueDoorbell .. => [.regs, .cores, .selv, .trace, .out, .freeCtr]
  | .loadNow .. | .posEvArm .. | .posEvDisarm .. | .eventFire .. | .pickApply .. => [.pins, .regs, .mem, .pos, .intake, .contract]
  | .memoryAccess .. | .bar2Read .. | .bar2Write .. => [.regs, .mem, .health, .chans, .selv, .host, .resp]
  | .pick .. => [.pins, .regs, .mem, .pos, .intake, .chain, .contract]
  | .edgeInputEdge .. => [.pins, .regs, .mem, .pos, .intake, .freeCtr, .contract]
  | .ptDisable .. => [.regs, .cores, .chans, .emb, .selv, .trace, .out, .freeCtr]
  | .embMoveGo => [.regs, .mem, .health, .chans, .emb, .chain, .selv, .contract]
  | .embMoveMessage .. => [.regs, .mem, .health, .chans, .chain, .selv, .freeCtr, .contract]
  | .timeSetDone | .timeStepDone => [.pins, .regs, .mem, .pos, .intake, .emb, .chain, .trace, .contract]
  | .ptEnable .. | .ptDrainComplete .. => [.regs, .mem, .slots, .intake, .cores, .chain, .selv, .trace, .contract]
  | .nop .. | .add .. | .sub .. | .andS .. | .orS .. | .xorS .. | .sll .. | .srl .. | .sra .. | .mul .. | .mulhu ..
  | .mulhs .. | .slt .. | .sltu .. | .minS .. | .maxS .. | .minu .. | .maxu .. | .clz .. | .popc .. | .mov .. | .movhi ..
  | .sread .. | .swrite .. | .ld8 .. | .ld16 .. | .ld32 .. | .ld64 .. | .lds8 .. | .lds16 .. | .lds32 .. | .st8 ..
  | .st16 .. | .st32 .. | .st64 .. | .vld .. | .vst .. | .pld .. | .pst .. | .aupd .. | .dma .. | .fence .. | .vadd ..
  | .vsub .. | .vmul .. | .vmulh .. | .vfma .. | .vmin .. | .vmax .. | .vabs .. | .vneg .. | .vand .. | .vor .. | .vxor ..
  | .vnot .. | .vshl .. | .vshr .. | .vshra .. | .vshrr .. | .vcvt .. | .vbcast .. | .vmov .. | .vcmpeq .. | .vcmpne ..
  | .vcmplt .. | .vcmple .. | .vcmpgt .. | .vcmpge .. | .vsel .. | .pand .. | .por .. | .pxor .. | .pnot .. | .pcnt ..
  | .pfirst .. | .vrsum .. | .vrmax .. | .vrmin .. | .vrargmax .. | .vpermb .. | .vpermw .. | .vshuf .. | .vdeal ..
  | .vpack .. | .vunpkl .. | .vunpkh .. | .vrot .. | .vcmpx .. | .vtopk .. | .vexp .. | .vrcp .. | .vrsqrt .. | .vsmmax ..
  | .vsmexp .. | .vsmnorm .. | .vgath .. | .vscat .. | .aout .. | .awld .. | .arow .. | .adrain .. | .aclr .. | .wread ..
  | .tstep .. | .async .. | .qres .. | .qresUnblock .. | .qcmt .. | .qacq .. | .qacqUnblock .. | .qrel .. | .qwait ..
  | .trd .. | .trdt .. | .tpop .. | .tstat .. | .branchB .. | .beq .. | .bne .. | .blt .. | .bge .. | .bltu .. | .bgeu ..
  | .bl .. | .bir .. | .blir .. | .eret .. | .gbar .. | .sleep .. | .trap ..
    => [.regs, .mem, .health, .slots, .cores, .chans, .selv, .trace, .out, .freeCtr]
  | .sync .. => [.pins, .regs, .mem, .pos, .intake, .emb, .chain, .trace, .freeCtr, .contract]
  | .dmaComplete .. | .sparseJobComplete .. => [.regs, .mem, .health, .slots, .cores, .chans, .selv, .trace, .out, .freeCtr, .contract]
  | .positionDoorbell .. => [.regs, .mem, .health, .pos, .slots, .cores, .chans, .selv, .trace, .out, .freeCtr, .contract]
  | .ethFrameReceive .. | .imageBlockTimeout .. | .seedFrame
    => [.regs, .mem, .health, .slots, .intake, .cores, .chans, .selv, .trace, .out, .freeCtr, .contract]
  | .embRequestComplete .. => [.regs, .mem, .health, .slots, .cores, .chans, .emb, .selv, .trace, .out, .freeCtr, .contract]
  | .boltReceive .. | .boltHoldRelease .. => [.regs, .mem, .health, .slots, .cores, .chans, .chain, .selv, .trace, .out, .freeCtr, .contract]
  | .embLookup .. | .embGrad .. | .embSub .. | .moveAck .. | .embMoveTimeout
    => [.regs, .mem, .health, .slots, .cores, .chans, .emb, .chain, .selv, .trace, .out, .freeCtr, .contract]
  | .result .. | .frameEnd .. | .pairWindowExpiry ..
    => [.pins, .regs, .mem, .health, .slots, .cores, .chans, .selv, .trace, .frz, .out, .freeCtr, .contract]
  | .holdResumeDone .. => [.regs, .mem, .health, .cores, .chans, .emb, .chain, .host, .hold, .trace, .out, .resp, .freeCtr, .contract]
  | .supplyHoldBegin => [.pins, .regs, .mem, .health, .cores, .chans, .emb, .selv, .host, .hold, .trace, .out, .resp, .freeCtr, .contract]
  | .warpApplyDone
    => [.pins, .regs, .mem, .memGen, .health, .loader, .warp, .pos, .slots, .intake, .cores, .emb, .chain, .selv, .trace, .out, .contract]
  | .bar0Write ..
    => [.pins, .regs, .mem, .health, .loader, .pos, .slots, .intake, .cores, .chans, .emb, .chain, .selv, .host, .trace, .frz, .out, .freeCtr, .contract]
  | .coldNAssert
    => [.pins, .regs, .shadows, .mem, .memGen, .health, .loader, .warp, .pos, .slots, .intake, .cores, .chans, .emb, .chain, .selv, .host, .i2c, .hold, .trace, .frz, .contract]
  | .perstNAssert | .pcieHotReset
    => [.pins, .regs, .shadows, .mem, .memGen, .health, .loader, .warp, .pos, .slots, .intake, .cores, .chans, .emb, .chain, .selv, .host, .i2c, .hold, .trace, .frz, .out, .contract]
  | .supplyLoss ..
    => [.powered, .pins, .regs, .shadows, .mem, .memGen, .health, .loader, .warp, .pos, .slots, .intake, .cores, .chans, .emb, .chain, .selv, .host, .i2c, .hold, .trace, .frz, .tap, .contract]

/-! ### Conditions on the host's accesses -/

/-- The fabric is within its contract (R5). -/
abbrev State.Kept (s : State) : Prop := s.contract.broken = false

/-- The part takes host accesses: supplied, out of reset, not frozen, BIST completed (R35), not in D3hot (R508). -/
def hostReach (s : State) : Bool := s.up && s.bistDone && !s.host.d3hot

/-- A write to a register that works in `d` is performed: no supply hold stops it (R533), the clock it needs runs (R597), and no
posted write waits before it (R174). -/
def hostTakes (d : Dom) (s : State) : Bool :=
  hostReach s && (!s.inHold || d != .fabric) && (s.clk == .running || d == .time || d == .selvedge) && !postedWaits s

/-- A write to a register of the fabric is performed. -/
def hostOpen (s : State) : Bool := hostTakes .fabric s

/-- A read of a block's registers is answered with their values (R533, R597). -/
def answered (b : Blk) (s : State) : Bool := hostReach s && (!s.inHold || heldBlk b) && (s.clk == .running || clockless b)

/-- The commands that are writes by the host. -/
def hostWrites : Instr → Bool
  | .bar0Write .. | .bar2Write .. | .bar4Write .. | .hostBar2PageWrite .. | .warpApply .. | .ptEnable .. | .ptDisable .. => true
  | .coreEnable .. | .coreDisable .. | .coreWakeCmd .. | .queueEnable .. | .queueDisable .. | .queueFlush .. => true
  | .queueDoorbell .. | .queueRelease .. | .queueIrqWrite .. | .ethPortEnable .. | .ethPortDisable .. | .ethTxtsPop .. => true
  | .timeSet | .timeStep | .timeSnap | .timeTrimWrite .. | .posEdgePop .. | .posPkCfgWrite .. | .loadNow .. | .refArm .. => true
  | .refDisarm .. | .posEvArm .. | .posEvDisarm .. | .intakeGridFlip .. | .memToMemory .. | .memToProcessor .. => true
  | .embTabCurWrite .. | .embFence | .embMoveGo | .clearRedirects | .linkEnable .. | .linkDisable .. | .linkRetrain .. => true
  | .getChallenge | .clearSafe | .enterSafe | .h2bPost | .b2hAck | .traceEnable .. | .traceClear | .hostMark .. => true
  | .pmcClear | .pmcSnap | .traceFreeze .. => true
  | _ => false

/-- The commands that are register writes which a supply hold discards and counts (R533). -/
def holdDiscards : Instr → Bool
  | .coreEnable .. | .coreDisable .. | .coreWakeCmd .. | .queueEnable .. | .queueDisable .. | .queueFlush .. => true
  | .queueDoorbell .. | .queueRelease .. | .queueIrqWrite .. | .ethPortEnable .. | .ethPortDisable .. | .ethTxtsPop .. => true
  | .intakeGridFlip .. | .embTabCurWrite .. | .embFence | .embMoveGo | .clearRedirects => true
  | .linkEnable .. | .linkDisable .. | .linkRetrain .. | .traceEnable .. | .traceClear | .hostMark .. => true
  | .pmcClear | .pmcSnap | .traceFreeze .. => true
  | _ => false

/-- The registers whose write starts no step and meets no condition of its block: the HOST block, the mailbox scratch
registers, the RW and W1C registers of the TIME block beside TIME_CTRL and TIME_TRIM, those of the edge inputs, the grids, the
channels and the selvedge beside their command registers. -/
def noStep (a : Nat) : Bool :=
  match blkOf a with
  | some .hostB => true
  | some .timeB => a != Reg.timeCtrl && a != Reg.timeTrim
  | some .posB => a < 0x20400 && a % 0x40 != 8
  | some .intakeB => !(0x41000 ≤ a && a < 0x42000 && a % 0x40 == 4)
  | some .memB => a % 0x10000 != 0
  | some .selvB => a != Reg.selvMbxCmd
  | some .mgmtB => Reg.mgmtId + 0x200 ≤ a && a < Reg.mgmtId + 0x210
  | _ => false

/-! ### Instruction words -/

/-- The opcodes of the six fields of a word that hold an operation: SCA, ADR, VEC, ARR, TQ, BR. -/
def wordOps (w : IWord) : List Nat := [scaOp w, adrOp w, vecOp w, arrOp w, tqOp w, brOp w]

/-- The word of core k at its pc issues now unless its queue holds it: the core runs, the word raises no exception (R202 to R206,
R212, R215), holds no non-zero reserved bit (R223), and waits for nothing else (R198, R224, R311, R491, R545), on a fabric within
its contract. -/
def ready (s : State) (k : CoreId) (w : IWord) : Bool :=
  let ea := (adrEa w (core s k)).1.toNat
  let n := adrBytes (adrOp w)
  !s.contract.broken && mayIssue s k && !traceHeld s k && inLocal k (core s k).pc.toNat && !wordReserved w && (wordException w s k).isNone
    && !sharedMisuse w s k && !traceStall w s k && !(n != 0 && meterWaits s (.core k) ea n) && !adrWaits k w s
    && !arrWaits k w s && !tqWaits k w s && !interlocked w s k

/-- The word of core k at its pc issues now: it is ready, and no queue holds it (R169). -/
def issues (s : State) (k : CoreId) (w : IWord) : Bool := ready s k w && !queueBlocks k w s

/-- The state once the word's access waits at no channel any more (R399). -/
def arrived (k : Nat) (w : IWord) (s : State) : State := if adrBytes (adrOp w) = 0 then s else depart (.word k) s

/-- The state in which a word that issues takes effect: the SYNC that was due has been written (R554). -/
def entryState (k : Nat) (w : IWord) (s : State) : State := syncDue k (arrived k w s)

/-- The core and the word of a row that is an operation of the word. -/
def wordOf : Instr → Option (CoreId × IWord)
  | .nop k w => some (k, withNone w)
  | .add k w => some (k, withSca 0x01 w)
  | .sub k w => some (k, withSca 0x02 w)
  | .andS k w => some (k, withSca 0x03 w)
  | .orS k w => some (k, withSca 0x04 w)
  | .xorS k w => some (k, withSca 0x05 w)
  | .sll k w => some (k, withSca 0x06 w)
  | .srl k w => some (k, withSca 0x07 w)
  | .sra k w => some (k, withSca 0x08 w)
  | .mul k w => some (k, withSca 0x09 w)
  | .mulhu k w => some (k, withSca 0x0A w)
  | .mulhs k w => some (k, withSca 0x0B w)
  | .slt k w => some (k, withSca 0x0C w)
  | .sltu k w => some (k, withSca 0x0D w)
  | .minS k w => some (k, withSca 0x0E w)
  | .maxS k w => some (k, withSca 0x0F w)
  | .minu k w => some (k, withSca 0x10 w)
  | .maxu k w => some (k, withSca 0x11 w)
  | .clz k w => some (k, withSca 0x13 w)
  | .popc k w => some (k, withSca 0x14 w)
  | .mov k w => some (k, withSca 0x20 w)
  | .movhi k w => some (k, withSca 0x21 w)
  | .sread k w => some (k, withSca 0x30 w)
  | .swrite k w => some (k, withSca 0x31 w)
  | .ld8 k w => some (k, withAdr 0x01 w)
  | .ld16 k w => some (k, withAdr 0x02 w)
  | .ld32 k w => some (k, withAdr 0x03 w)
  | .ld64 k w => some (k, withAdr 0x04 w)
  | .lds8 k w => some (k, withAdr 0x05 w)
  | .lds16 k w => some (k, withAdr 0x06 w)
  | .lds32 k w => some (k, withAdr 0x07 w)
  | .st8 k w => some (k, withAdr 0x08 w)
  | .st16 k w => some (k, withAdr 0x09 w)
  | .st32 k w => some (k, withAdr 0x0A w)
  | .st64 k w => some (k, withAdr 0x0B w)
  | .vld k w => some (k, withAdr 0x10 w)
  | .vst k w => some (k, withAdr 0x11 w)
  | .pld k w => some (k, withAdr 0x14 w)
  | .pst k w => some (k, withAdr 0x15 w)
  | .aupd k w => some (k, withAdr 0x18 w)
  | .dma k w => some (k, withAdr 0x20 w)
  | .fence k w => some (k, withAdr 0x22 w)
  | .vadd k w => some (k, withVec 0x10 w)
  | .vsub k w => some (k, withVec 0x11 w)
  | .vmul k w => some (k, withVec 0x12 w)
  | .vmulh k w => some (k, withVec 0x13 w)
  | .vfma k w => some (k, withVec 0x14 w)
  | .vmin k w => some (k, withVec 0x15 w)
  | .vmax k w => some (k, withVec 0x16 w)
  | .vabs k w => some (k, withVec 0x17 w)
  | .vneg k w => some (k, withVec 0x18 w)
  | .vand k w => some (k, withVec 0x19 w)
  | .vor k w => some (k, withVec 0x1A w)
  | .vxor k w => some (k, withVec 0x1B w)
  | .vnot k w => some (k, withVec 0x1C w)
  | .vshl k w => some (k, withVec 0x1D w)
  | .vshr k w => some (k, withVec 0x1E w)
  | .vshra k w => some (k, withVec 0x1F w)
  | .vshrr k w => some (k, withVec 0x20 w)
  | .vcvt k w => some (k, withVec 0x21 w)
  | .vbcast k w => some (k, withVec 0x22 w)
  | .vmov k w => some (k, withVec 0x23 w)
  | .vcmpeq k w => some (k, withVec 0x30 w)
  | .vcmpne k w => some (k, withVec 0x31 w)
  | .vcmplt k w => some (k, withVec 0x32 w)
  | .vcmple k w => some (k, withVec 0x33 w)
  | .vcmpgt k w => some (k, withVec 0x34 w)
  | .vcmpge k w => some (k, withVec 0x35 w)
  | .vsel k w => some (k, withVec 0x36 w)
  | .pand k w => some (k, withVec 0x40 w)
  | .por k w => some (k, withVec 0x41 w)
  | .pxor k w => some (k, withVec 0x42 w)
  | .pnot k w => some (k, withVec 0x43 w)
  | .pcnt k w => some (k, withVec 0x44 w)
  | .pfirst k w => some (k, withVec 0x45 w)
  | .vrsum k w => some (k, withVec 0x50 w)
  | .vrmax k w => some (k, withVec 0x51 w)
  | .vrmin k w => some (k, withVec 0x52 w)
  | .vrargmax k w => some (k, withVec 0x53 w)
  | .vpermb k w => some (k, withVec 0x60 w)
  | .vpermw k w => some (k, withVec 0x61 w)
  | .vshuf k w => some (k, withVec 0x62 w)
  | .vdeal k w => some (k, withVec 0x63 w)
  | .vpack k w => some (k, withVec 0x64 w)
  | .vunpkl k w => some (k, withVec 0x65 w)
  | .vunpkh k w => some (k, withVec 0x66 w)
  | .vrot k w => some (k, withVec 0x67 w)
  | .vcmpx k w => some (k, withVec 0x70 w)
  | .vtopk k w => some (k, withVec 0x71 w)
  | .vexp k w => some (k, withVec 0x80 w)
  | .vrcp k w => some (k, withVec 0x81 w)
  | .vrsqrt k w => some (k, withVec 0x82 w)
  | .vsmmax k w => some (k, withVec 0x83 w)
  | .vsmexp k w => some (k, withVec 0x84 w)
  | .vsmnorm k w => some (k, withVec 0x85 w)
  | .vgath k w => some (k, withVec 0x90 w)
  | .vscat k w => some (k, withVec 0x91 w)
  | .aout k w => some (k, withArr 0x01 w)
  | .awld k w => some (k, withArr 0x02 w)
  | .arow k w => some (k, withArr 0x03 w)
  | .adrain k w => some (k, withArr 0x04 w)
  | .aclr k w => some (k, withArr 0x05 w)
  | .wread k w => some (k, setWf (withArr 0x06 w) 285 4 0)
  | .tstep k w => some (k, setWf (withArr 0x06 w) 285 4 1)
  | .async k w => some (k, withArr 0x08 w)
  | .qres k w => some (k, withTq 0x01 w)
  | .qcmt k w => some (k, withTq 0x02 w)
  | .qacq k w => some (k, withTq 0x03 w)
  | .qrel k w => some (k, withTq 0x04 w)
  | .qwait k w => some (k, withTq 0x05 w)
  | .trd k w => some (k, withTq 0x08 w)
  | .trdt k w => some (k, withTq 0x09 w)
  | .tpop k w => some (k, withTq 0x0A w)
  | .tstat k w => some (k, withTq 0x0B w)
  | .branchB k w => some (k, withBr 0x01 w)
  | .beq k w => some (k, withBr 0x02 w)
  | .bne k w => some (k, withBr 0x03 w)
  | .blt k w => some (k, withBr 0x04 w)
  | .bge k w => some (k, withBr 0x05 w)
  | .bltu k w => some (k, withBr 0x06 w)
  | .bgeu k w => some (k, withBr 0x07 w)
  | .bl k w => some (k, withBr 0x08 w)
  | .bir k w => some (k, withBr 0x09 w)
  | .blir k w => some (k, withBr 0x0A w)
  | .eret k w => some (k, withBr 0x0B w)
  | .gbar k w => some (k, withBr 0x10 w)
  | .sleep k w => some (k, withBr 0x11 w)
  | .trap k w => some (k, withBr 0x12 w)
  | _ => none

/-- The registers that the issue of a word of core k may write besides those its operation names: CORE_PC and CORE_STATUS of
its core, the performance counters, TRACE_STATUS and TRACE_DROPS. -/
def issueRegs (k x : Nat) : Bool :=
  x == Reg.corePc k || x == Reg.corePc k + 4 || x == Reg.coreStatus k || x == Reg.traceStatus || x == Reg.traceDrops
    || (Reg.pmcSel 0 ≤ x && x < Reg.traceFreeze && (x % 0x20 == 8 || x % 0x20 == 12))

/-- Between two states nothing has changed but core k, which is now `c`, the registers a word's issue may write, the
registers `extra`, and the trace. -/
def OnlyCore (k : CoreId) (s t : State) (c : CoreSt) (extra : List Nat) : Prop :=
  core t k = c ∧ (∀ j : CoreId, j ≠ k → core t j = core s j) ∧ (∀ x, issueRegs k x = false → x ∉ extra → t.rd x = s.rd x) ∧
  ∀ p : Part, p ∉ [.regs, .cores, .trace] → p.same s t

/-- The same, and the word is complete: CORE_PC holds its address and the core is not blocked (R194). -/
def WordDone (k : CoreId) (s t : State) (c : CoreSt) (extra : List Nat) : Prop :=
  OnlyCore k s t c extra ∧ t.rdQ (Reg.corePc k) 2 = (core s k).pc.toNat ∧ t.bit (Reg.coreStatus k) 6 = false

/-- The core after its base register has been updated by the address field (R203). -/
def baseUpdated (w : IWord) (c : CoreSt) : CoreSt :=
  if adrF w 35 3 = 0 then c else c.setS (adrF w 11 5) (c.sreg (adrF w 11 5) + adrOffset w)

/-- An address range is plain memory of the core's own partition's on-die stores that it may access: neither companion
memory nor a command window. -/
def onDieOk (s : State) (k : CoreId) (wr : Bool) (a n : Nat) : Bool :=
  accessOk s (.core k) wr a n && !inComp a && !inWin a && decodedRange a n

/-! ### Switchable blocks (R55) -/

/-- A switchable block with its own enable and disable commands: its status register (state in bits [1:0], pending enable in
bit 2), its request register, and the two commands. -/
def IsSwitch (status ctrl : Nat) (en di : Instr) : Prop :=
  (∃ n : Fin 8, status = Reg.globalPtStatus n ∧ ctrl = Reg.globalPtCtrl n ∧ en = .ptEnable n ∧ di = .ptDisable n) ∨
  (∃ k : CoreId, status = Reg.coreStatus k ∧ ctrl = Reg.coreCtrl k ∧ en = .coreEnable k ∧ di = .coreDisable k) ∨
  (∃ q : Fin 1024, status = Reg.queueStatus q ∧ ctrl = Reg.queueCtrl q ∧ en = .queueEnable q ∧ di = .queueDisable q) ∨
  (∃ p : Fin 8, status = Reg.ethPortStatus p ∧ ctrl = Reg.ethPortCtrl p ∧ en = .ethPortEnable p ∧ di = .ethPortDisable p) ∨
  ∃ l : Fin 6, status = Reg.linkStatus l ∧ ctrl = Reg.linkCtrl l ∧ en = .linkEnable l ∧ di = .linkDisable l

/-- The enable of a core or a queue keeps to R61: its partition is ENABLED. The other blocks have no such condition. -/
def enableDefined (en : Instr) (s : State) : Bool :=
  match en with
  | .coreEnable k => !aloneOutside s 0 (corePart s k)
  | .queueEnable q => !aloneOutside s 0 (queuePart s q)
  | _ => true

end Sys2Proof.Machine
end

