-- ==== Sys2Proof/Certificates/Slice0/Obligations.lean ====
section
/-! DEFINITION. The statements about the machine. Each formalises what rules of the specification say that commands do; the
machine answers them from any state that meets the hypotheses, reached by a run or not. -/

open Sys2Proof hiding core
open Sys2Proof.Machine

/-! ### The machine -/

/-- A step carries out the command at the front of the queue, on the state with the queue's rest, and nothing else.

With no command waiting a step passes 5 ns (log entry 9, the model's choice): the queue stays empty; while TCLK runs the position
clock has moved by 20 quarter-ns, and while CCLK does not run memory and the cores stand. -/
def Obligations.StepRunsFrontCommand : Prop :=
  (∀ (c : Instr) (rest : List Instr) (s : State), s.pending = c :: rest → step s = exec c { s with pending := rest }) ∧
  (∀ s : State, s.pending = [] → s.Kept → ∃ t : State, step s = .next t.settle ∧ t.pending = [] ∧ t.host = s.host ∧
    (s.tclk = true → t.pos.now = s.pos.now + 20) ∧ (s.cclk = false → t.cores = s.cores ∧ t.mem = s.mem ∧ t.Kept))

/-- R5, R592, R593: a case outside contract ends no run. Every command and every step answers a next state. From such a case on, the
fabric is free at every step, but the selvedge, SAFE_N, SAFE_HB, the safety port and the levels at the inputs are as they were
(`SelvedgeKept`), and every table stays canonical; a command meets the state that the free fabric has become, so that what the
selvedge does next (here its telegram) follows from the selvedge as it stood. A reset is the first half of the way back, and a full
image the second.
How far the free fabric reaches, and that a reset and a full image end it, is log entry 27, the model's choice. -/
def Obligations.OutsideContract : Prop :=
  (∀ (c : Instr) (s : State), (∃ t, exec c s = .next t) ∧ ∃ t, step s = .next t) ∧
  (∀ s : State, SelvedgeKept s s.corrupt ∧ (s.wf = true → s.corrupt.wf = true)) ∧
  (∀ s : State, s.Kept → hostReach s = true → ∀ (a : BitVec 26) (sz : AccSize), aligned a.toNat sz = false → ∃ t,
    exec (.bar0MultiwordRead a sz) s = .next t ∧ t.contract = .left 8 ∧ SelvedgeKept { s with contract := .left 8 } t) ∧
  (∀ s : State, s.contract.broken = true →
    (s.pending = [] → ∃ t, step s = .next t ∧ t.contract = s.contract ∧ t.pending = [] ∧ t.pins.safeN = s.pins.safeN ∧ t.tap = s.tap) ∧
    (∃ u t, SelvedgeKept s u ∧ exec .telegramPeriod s = .next t ∧ SelvedgeKept (telegram false u) t) ∧
    (∀ r, s.contract = .left r → s.pins.coldN = true → ∃ t, exec .coldNAssert s = .next t ∧ t.contract = .leftReset r ∧ t.stage = 0 ∧
      t.cores = [] ∧ t.slots = [] ∧ t.warp = .empty)) ∧
  (∀ r, (Contract.leftReset r).afterImage = .kept ∧ (Contract.left r).afterImage = .left r ∧ (Contract.left r).afterReset = .leftReset r)

/-- What the machine is right after reset: supplied, out of both resets, BIST running (R34, R36), the selvedge in SAFE
with cause POWER_UP and SAFE_N asserted (R569), the registers at their values after power-up.

The state after reset has every table in its canonical form. -/
def Obligations.ResetState : Prop :=
  (State.reset.pending = [] ∧ State.reset.powered = true ∧ State.reset.pins.coldN = true ∧ State.reset.pins.perstN = true ∧
    State.reset.pins.safeN = .low ∧ State.reset.stage = 1 ∧ State.reset.host.bistDone = false ∧
    State.reset.rd Reg.globalId = 0x5CE03212#32 ∧ State.reset.rd Reg.timeCtrl = 0x6401#32 ∧
    (∀ a, State.reset.rd a = regReset a) ∧ (∀ a, State.reset.byte a = 0) ∧
    (∀ k : Fin 32, coreState State.reset k = 3) ∧ (∀ q : Fin 1024, qState State.reset q = 3) ∧ (∀ p : Fin 8, portState State.reset p = 3)) ∧
  (State.reset.wf = true)

/-- Every step keeps every table of the state in its canonical form, from every state that has it. -/
def Obligations.StepKeepsCanonical : Prop :=
 ∀ s t : State, s.wf = true → step s = .next t → t.wf = true

/-- No command changes the queue of waiting commands.

On a fabric within its contract, a command leaves every part of the state unchanged that is not among the parts it may change. -/
def Obligations.ExecChangesOnlyItsParts : Prop :=
  (∀ (c : Instr) (s t : State), exec c s = .next t → t.pending = s.pending) ∧
  (∀ (c : Instr) (s t : State) (p : Part), s.Kept → t.Kept → exec c s = .next t → p ∉ touches c → p.same s t)

/-! ### Host accesses -/

/-- R35: until BIST completes, reads end with Completer Abort and writes are discarded. -/
def Obligations.AccessesDuringBist : Prop :=
  ∀ s : State, s.Kept → s.up = true → s.bistDone = false →
    (∀ c, hostWrites c = true → exec c s = .next s) ∧
    (∀ a sz, exec (.bar0MultiwordRead a sz) s = .next (s.answer .completerAbort)) ∧
    (∀ o n, exec (.bar2Read o n) s = .next (s.answer .completerAbort)) ∧
    (∀ o n, exec (.bar4Read o n) s = .next (s.answer .completerAbort))

/-- Writes are lost, and reads stay unanswered, while the part is in reset, not supplied or frozen; in D3hot writes are
lost and reads are not supported requests (R32, R508, R556; the completion in D3hot is log entry 19's).

R533: during a hold, reads of the blocks that stand return all ones and writes to them are discarded; BAR2 and BAR4
reads end with Completer Abort and writes are discarded; each discarded or aborted access counts and sets hold_discard. -/
def Obligations.AccessesWhileDownOrHeld : Prop :=
  (∀ s : State, s.Kept →
      (hostReach s = false → ∀ c, hostWrites c = true → exec c s = .next s) ∧
      (s.up = false → ∀ a sz o n p m, exec (.bar0MultiwordRead a sz) s = .next (s.answer .unanswered) ∧
        exec (.bar2Read o n) s = .next (s.answer .unanswered) ∧ exec (.bar4Read p m) s = .next (s.answer .unanswered)) ∧
      (s.up = true → s.bistDone = true → s.host.d3hot = true → ∀ a sz o n p m,
        exec (.bar0MultiwordRead a sz) s = .next (s.answer .unsupported) ∧
        exec (.bar2Read o n) s = .next (s.answer .unsupported) ∧ exec (.bar4Read p m) s = .next (s.answer .unsupported))) ∧
  (∀ s : State, s.Kept → hostReach s = true → s.inHold = true → s.wf = true →
      (∀ (a : BitVec 26) (sz : AccSize) (b : Blk), aligned a.toNat sz = true → blkOf a.toNat = some b → heldBlk b = false →
        exec (.bar0MultiwordRead a sz) s = .next (s.answer (.data (ffs (accSize sz))))) ∧
      (∀ (a : BitVec 26) (sz : AccSize) (d : W64) (b : Blk), aligned a.toNat sz = true → blkOf a.toNat = some b → heldBlk b = false →
        exec (.bar0Write a sz d false) s = .next (holdDiscard s)) ∧
      (∀ c, holdDiscards c = true → exec c s = .next (holdDiscard s)) ∧
      (∀ o n, tlpFits o.toNat n = true → exec (.bar2Read o n) s = .next ((holdDiscard s).answer .completerAbort)) ∧
      (∀ o n, tlpFits o.toNat n = true → exec (.bar4Read o n) s = .next ((holdDiscard s).answer .completerAbort)) ∧
      (s.clk = .running →
        (∀ o bs, exec (.bar2Write o bs false) s = .next (holdDiscard s)) ∧
        (postedWaits s = false → ∀ o bs, exec (.bar4Write o bs false) s = .next (holdDiscard s))) ∧
      (holdDiscard s).rd Reg.hostHoldDiscards = BitVec.ofNat 32 (min ((s.rd Reg.hostHoldDiscards).toNat + 1) 0xFFFFFFFF) ∧
      (holdDiscard s).bit Reg.hostStatus 5 = true ∧ (∀ c : Fin 48, exec (.memToMemory c) s = .next s ∧ exec (.memToProcessor c) s = .next s))

/-- R10: a 32-bit write sets the RW bits of its register and clears the W1C bits written 1; every other bit of the register,
every other register and every other part of the state stays. For the registers whose write starts no step (`noStep`).

R13, R8: writes that set a reserved bit, and unaligned accesses, are outside contract; offsets in no block read 0 and
writes to them are discarded.

R515: a poisoned write has no effect but to be counted and reported as a Poisoned TLP Received. -/
def Obligations.RegisterWrites : Prop :=
  (∀ (s : State) (a : BitVec 26) (d : W64) (b : Blk) (h : RegHit), s.Kept → s.wf = true → hostTakes (blkDom b) s = true →
      aligned a.toNat .b32 = true → blkOf a.toNat = some b → regHit a.toNat = some h → d.setWidth 32 &&& reservedBits h = 0 →
      noStep a.toNat = true →
      ∃ t, exec (.bar0Write a .b32 d false) s = .next t ∧
        (∀ i, i < 32 → t.bit a.toNat i =
          if h.word.rw.testBit i then d.getLsbD i else if h.word.w1c.testBit i then s.bit a.toNat i && !d.getLsbD i else s.bit a.toNat i) ∧
        (∀ x, x ≠ a.toNat → t.rd x = s.rd x) ∧ ∀ p : Part, p ≠ .regs → p.same s t) ∧
  (∀ s : State, s.Kept →
      (∀ (a : BitVec 26) (sz : AccSize) (d : W64), aligned a.toNat sz = false →
        (hostTakes .time s = true → exec (.bar0Write a sz d false) s = .next (s.leave 8).settle) ∧
        (hostReach s = true → exec (.bar0MultiwordRead a sz) s = .next (s.leave 8).settle)) ∧
      (∀ (a : BitVec 26) (sz : AccSize) (d : W64), aligned a.toNat sz = true → blkOf a.toNat = none →
        exec (.bar0Write a sz d false) s = .next s ∧
        (hostReach s = true → exec (.bar0MultiwordRead a sz) s = .next (s.answer (.data (zeros (accSize sz)))))) ∧
      (∀ (a : BitVec 26) (d : W64) (b : Blk) (h : RegHit), aligned a.toNat .b32 = true → blkOf a.toNat = some b →
        hostTakes (blkDom b) s = true → a.toNat ≠ Reg.traceFreeze → regHit a.toNat = some h → d.setWidth 32 &&& reservedBits h ≠ 0 →
        exec (.bar0Write a .b32 d false) s = .next (s.leave 13).settle)) ∧
  (∀ s : State, s.Kept →
      (hostTakes .time s = true → ∀ a sz d, exec (.bar0Write a sz d true) s = .next (poisonedWrite s)) ∧
      (hostReach s = true → s.clk = .running → ∀ o bs, exec (.bar2Write o bs true) s = .next (poisonedWrite s)) ∧
      (hostReach s = true → s.clk = .running → postedWaits s = false → ∀ o bs, exec (.bar4Write o bs true) s = .next (poisonedWrite s)) ∧
      poisonedWrite s = { s with host := { s.host with aerPoison := true } }.sat Reg.hostPoisonWr)

/-- R9: a read of the lowest word of a quantity returns its current value and captures the higher words; a later read of a
higher word returns the word captured, whatever the register has become since. The HOST block is left out (log entry 20).

A single register is read as it stands, and reading it changes nothing but the answer; a 64-bit read of a quantity of two words
returns both as they stand.

The captured words stay in canonical form whatever a command does. -/
def Obligations.RegisterReads : Prop :=
  (∀ (s : State) (a : BitVec 26) (b : Blk) (h : RegHit), s.Kept → Tab.wf noShadow s.shadows = true → answered b s = true →
      blkOf a.toNat = some b → b ≠ .hostB → aligned a.toNat .b32 = true → regHit a.toNat = some h → h.idx = 0 → h.row.words.length = 2 →
      (∃ t, exec (.bar0MultiwordRead a .b32) s = .next t ∧ t.resp = .data (natLe 4 (regView s a.toNat).toNat) ∧ t.regs = s.regs ∧ t.mem = s.mem ∧
        ∀ u : State, u.Kept → u.shadows = t.shadows → answered b u = true →
          ∃ v, exec (.bar0MultiwordRead (a + 4#26) .b32) u = .next v ∧ v.resp = .data (natLe 4 (regView s (a.toNat + 4)).toNat) ∧
            v.regs = u.regs ∧ v.mem = u.mem) ∧
      (aligned a.toNat .b64 = true → ∃ t, exec (.bar0MultiwordRead a .b64) s = .next t ∧
        t.resp = .data (natLe 4 (regView s a.toNat).toNat ++ natLe 4 (regView s (a.toNat + 4)).toNat) ∧ t.regs = s.regs ∧ t.mem = s.mem)) ∧
  (∀ (s : State) (a : BitVec 26) (b : Blk), s.Kept → answered b s = true → blkOf a.toNat = some b → aligned a.toNat .b32 = true →
      (∀ h, regHit a.toNat = some h → h.row.words.length = 1) →
      exec (.bar0MultiwordRead a .b32) s = .next (s.answer (.data (natLe 4 (regView s a.toNat).toNat)))) ∧
  (∀ (c : Instr) (s t : State), s.Kept → t.Kept → Tab.wf noShadow s.shadows = true → exec c s = .next t → Tab.wf noShadow t.shadows = true)

/-! ### Resets, power-up and clocks -/

/-- COLD_N_ASSERT and SUPPLY_LOSS of the selvedge's supply: everything is as after power-up, the selvedge stops, and SAFE_N is
high-impedance (R31, R32, R469); memory loses its contents (R597).

COLD_N_RELEASE: the selvedge starts in SAFE with cause POWER_UP, and SAFE_N is driven low (R569); BIST starts once PERST_N
is high too (R34). -/
def Obligations.ColdReset : Prop :=
  ((∀ s : State, s.Kept → s.wf = true → s.pins.coldN = true →
      ∃ t, exec .coldNAssert s = .next t ∧ (∀ a, t.rd a = if a = Reg.globalPwrupStatus then 0 else regReset a) ∧ t.pins.coldN = false ∧
        t.pins.safeN = .hiZ ∧ t.pins.safeHb = false ∧ t.selv.running = false ∧ t.warp = .empty ∧ t.loader = .idle ∧ t.cores = [] ∧
        t.slots = [] ∧ t.chans = [] ∧ t.host.bistDone = false ∧ t.frz.frozen = false ∧ t.mem = [] ∧ t.memGen.comp = s.memGen.comp + 1 ∧
        t.memGen.die = s.memGen.die + 1 ∧ t.tap = s.tap ∧ t.powered = s.powered) ∧
    (∀ s : State, s.Kept → s.wf = true →
      ∃ t, exec (.supplyLoss true) s = .next t ∧ (∀ a, t.rd a = if a = Reg.globalPwrupStatus then 0 else regReset a) ∧
        t.powered = false ∧ t.pins.safeN = .hiZ ∧ t.pins.safeHb = false ∧ t.selv.running = false ∧ t.warp = .empty ∧ t.mem = [] ∧
        t.tap = State.reset.tap) ∧
    (∀ s : State, s.Kept → s.wf = true →
      ∃ t, exec (.supplyLoss false) s = .next t ∧ t.powered = false ∧ t.selv.running = s.selv.running ∧ t.stage = 0 ∧ t.warp = .empty ∧
        t.cores = [] ∧ t.mem = [] ∧ t.tap = State.reset.tap ∧
        ∀ a, ¬(0x2600000 ≤ a ∧ a < 0x2700000) → a ≠ Reg.mgmtHolds → a ≠ Reg.globalPwrupStatus → t.rd a = regReset a)) ∧
  (∀ s : State, s.Kept → s.pins.coldN = false →
      let s1 : State := { s with powered := true, selv := State.reset.selv, pins := { s.pins with coldN := true, safeN := .low } }
      (s.pins.perstN = false → exec .coldNRelease s = .next s1) ∧
      (s.pins.perstN = true → exec .coldNRelease s = .next (boot s1)) ∧
      (s.pins.perstN = true → s.wf = true → s.clk = .running → (boot s1).stage = 1 ∧ ∀ a, a ≠ Reg.globalPwrupStatus → (boot s1).rd a = s.rd a))

/-- PERST_N_ASSERT and PCIE_HOT_RESET reset everything but the selvedge, which decides FABRIC_RESET (R32, R472, R508).

PERST_N_RELEASE samples the straps and BIST starts (R34, R519).

What the power-up sequence reports: BIST's results and the stage, the I2C target, the link, and configuration requests, with
retry status until BIST has completed (R34 to R37, R506 to R508). -/
def Obligations.FabricResetsAndPowerUp : Prop :=
  ((∀ s : State, s.Kept → s.up = true →
      exec .perstNAssert s = .next (selvEvent 0x02 0 [] (fabricReset { s with pins := { s.pins with perstN := false } })) ∧
      exec .pcieHotReset s = .next (boot (selvEvent 0x02 0 [] (fabricReset s)))) ∧
    (∀ s : State, s.wf = true →
      (fabricReset s).stage = 0 ∧ (fabricReset s).cores = [] ∧ (fabricReset s).warp = .empty ∧ (fabricReset s).slots = [] ∧
      (fabricReset s).mem = [] ∧ (fabricReset s).loader = .idle ∧ (fabricReset s).selv.running = s.selv.running ∧
      (fabricReset s).rd Reg.selvSafeCount = s.rd Reg.selvSafeCount ∧
      ∀ a, ¬(0x2600000 ≤ a ∧ a < 0x2700000) → a ≠ Reg.mgmtHolds → a ≠ Reg.globalPwrupStatus → (fabricReset s).rd a = regReset a)) ∧
  (∀ (s : State) (strap : BitVec 3), s.Kept → s.wf = true → s.pins.perstN = false → s.powered = true → s.pins.coldN = true → s.frz.frozen = false →
      s.clk = .running →
      ∃ t, exec (.perstNRelease strap) s = .next t ∧ t.pins = { s.pins with perstN := true, addr := strap } ∧ t.stage = 1 ∧
        (∀ a, a ≠ Reg.globalPwrupStatus → t.rd a = s.rd a) ∧ ∀ p, p ≠ .regs → p ≠ .pins → Part.same s t p) ∧
  (∀ s : State, s.Kept → s.up = true →
      (∀ r : BistResult, s.wf = true → s.tclk = true → s.inHold = false → s.bistDone = false →
        ∃ t, exec (.bistComplete r) s = .next t ∧ t.bistDone = true ∧ t.stage = (if r.fatal then 8 else 2) ∧
          t.rd Reg.globalCoreAvail = ~~~(BitVec.ofNat 32 (failedCores r)) ∧ t.bit Reg.globalBistStatus 0 = true ∧
          t.bit Reg.globalBistStatus 1 = r.fatal ∧ t.rdQ Reg.globalChAvail 2 = (~~~r.chFail).toNat ∧ t.mem = s.mem ∧ t.pins = s.pins) ∧
      (exec .i2cTargetReady s = .next ({ s with i2c := { s.i2c with ready := true } }.putB Reg.globalPwrupStatus 4 true)) ∧
      (∀ width speed, exec (.pcieLinkUp width speed) s =
        .next ({ s with host := { s.host with linkUp := true } }.wrN Reg.hostLink (1 + 2 * width.toNat + 2 ^ 6 * speed.toNat))) ∧
      (s.bistDone = false → ∀ r, exec (.configurationRequest r) s = .next (s.answer .retry)) ∧
      (s.bistDone = true →
        exec (.configurationRequest .read) s = .next (s.answer .configDone) ∧
        (∀ b, exec (.configurationRequest (.busMaster b)) s = .next ({ s with host := { s.host with busMaster := b } }.answer .configDone)) ∧
        (∀ b, exec (.configurationRequest (.msixEnable b)) s = .next ({ s with host := { s.host with msixEn := b } }.answer .configDone)) ∧
        (∀ b, exec (.configurationRequest (.power b)) s = .next ({ s with host := { s.host with d3hot := b } }.answer .configDone)) ∧
        exec (.configurationRequest .aerClear) s = .next ({ s with host := { s.host with aerPoison := false } }.answer .configDone) ∧
        ∀ b, exec (.configurationRequest (.msixMask b)) s = .next ({ s with host := { s.host with fnMask := b } }.answer .configDone)))

/-- SYSCLK: its loss stops everything on it, unreferences the counters and is a fatal event of the selvedge; after its return
the PLLs relock, and the fabric continues from its held state (R67, R472, R596, R597).

A loss of memory contents: companion memory reads as free values, and the on-die stores keep theirs (R54, R597). -/
def Obligations.SysclkLossAndReturn : Prop :=
  (∀ s : State, s.Kept → s.frz.frozen = false →
      (s.clk ≠ .stopped → s.up = true →
        exec .sysclkLoss s = .next (selvEvent 0x03 0 [] (clockLost { s with clk := .stopped }))) ∧
      (s.clk = .stopped → exec .sysclkReturn s = .next { s with clk := .relocking }) ∧
      (s.clk = .relocking → ∀ ms, exec (.pllRelock ms) s =
        .next (let u : State := { s with clk := .running, pos := { s.pos with resumed := s.pos.now } }; if ms then u.loseComp else u)) ∧
      (s.wf = true → (clockLost s).bit Reg.timeStatus 6 = true ∧ (clockLost s).bit Reg.timeCtrl 1 = false ∧
        ∀ n : Fin 4, (clockLost s).bit (Reg.posPkStatus n) 2 = true)) ∧
  (∀ (s : State) (a : Nat), s.wf = true →
      (inComp a = true → s.loseComp.byte a = Config.freeMem (s.memGen.comp + 1) a) ∧ (inComp a = false → s.loseComp.byte a = s.byte a))

/-! ### Switchable blocks, warp images, partitions -/

/-- R55: what enable and disable requests do in each state of a switchable block; a write with both set acts as a disable.

R61: an enable of a core or a queue whose partition is not ENABLED is outside contract, whatever state the block itself is in
unless it is UNUSED. -/
def Obligations.SwitchableBlockRequests : Prop :=
  ∀ (status ctrl : Nat) (en di : Instr) (s : State), IsSwitch status ctrl en di → s.Kept → hostOpen s = true →
    let st := s.fld status 0 2
    let pend := s.bit status 2
    (st = 3 → exec en s = .next s ∧ exec di s = .next s) ∧
    (st = 0 → exec di s = .next s) ∧
    (st = 1 → enableDefined en s = true → exec en s = .next s) ∧
    (st = 2 → pend = false → (enableDefined en s = true → exec en s = .next (s.putB status 2 true)) ∧ exec di s = .next s) ∧
    (st = 2 → pend = true → (enableDefined en s = true → exec en s = .next s) ∧ exec di s = .next (s.putB status 2 false)) ∧
    (st ≠ 3 → enableDefined en s = false → exec en s = .next (s.leave 61).settle) ∧
    exec (.bar0Write (BitVec.ofNat 26 ctrl) .b32 3#64 false) s = exec di s

/-- An OFF queue, port or link becomes ENABLED, and an ENABLED one DRAINING (R55); a port whose configuration is refused stays
OFF with its refusal shown (R115).

R56: when a drain completes, a block with no pending enable becomes OFF; with one it becomes ENABLED and the pending bit
clears. Each with the condition its drain ends on (R57). -/
def Obligations.BlocksSwitchAndDrain : Prop :=
  (∀ s : State, s.Kept → s.wf = true → hostOpen s = true →
      (∀ (q : Fin 1024) (p : Nat), qState s q = 0 → queuePart s q = some p → ptEnabled s p = true → ringFault s q = none →
        exec (.queueEnable q) s = .next (qStart q s) ∧ qState (qStart q s) q = 1 ∧ qHead (qStart q s) q = 0 ∧ qTail (qStart q s) q = 0 ∧
          qResv (qStart q s) q = 0 ∧ (qStart q s).bit (Reg.queueStatus q) 3 = true ∧ (qStart q s).bit (Reg.queueStatus q) 7 = true) ∧
      (∀ q : Fin 1024, qState s q = 1 →
        ∃ t, exec (.queueDisable q) s = .next t ∧ qState t q = 2 ∧ (∀ a, a ≠ Reg.queueStatus q → a ≠ Reg.queueRefused q → t.rd a = s.rd a) ∧
          ∀ (k : CoreId) (w : IWord), (core s k).wait = .queue w false → tqOp w = 1 → fieldN w.toNat 342 10 = q →
            (core t k).wait = .queue w true) ∧
      (∀ p : Fin 8, portState s p = 0 → portCfgBad s p = false →
        ∃ t, exec (.ethPortEnable p) s = .next t ∧ portState t p = 1 ∧ ∀ a, a ≠ Reg.ethPortStatus p → t.rd a = s.rd a) ∧
      (∀ p : Fin 8, portState s p = 0 → portCfgBad s p = true →
        ∃ t, exec (.ethPortEnable p) s = .next t ∧ portState t p = 0 ∧ t.bit (Reg.ethPortStatus p) 5 = true ∧
          ∀ a, a ≠ Reg.ethPortStatus p → t.rd a = s.rd a) ∧
      (∀ p : Fin 8, portState s p = 1 →
        ∃ t, exec (.ethPortDisable p) s = .next t ∧ portState t p = 2 ∧ (ethPort t p).drain = some s.pos.now ∧ ∀ a, a ≠ Reg.ethPortStatus p → t.rd a = s.rd a) ∧
      (∀ l : Fin 6, linkState s l = 0 → ∃ t, exec (.linkEnable l) s = .next t ∧ linkState t l = 1 ∧
        t = setPhase l (if s.pins.pfN then .signal else .down) (s.putF (Reg.linkStatus l) 0 2 1)) ∧
      (∀ l : Fin 6, linkState s l = 1 → linkUp s l = true →
        exec (.linkDisable l) s = .next (endDue l (s.putF (Reg.linkStatus l) 0 2 2))) ∧
      (∀ l : Fin 6, linkState s l = 1 → linkUp s l = false →
        exec (.linkDisable l) s = .next (endDue l (setPhase l .down (s.putF (Reg.linkStatus l) 0 2 2))))) ∧
  (∀ s : State, s.Kept → s.wf = true → s.cclk = true →
      (∀ q : Fin 1024, qState s q = 2 → qHead s q = qTail s q → qTail s q = qResv s q →
        exec (.queueDrainComplete q) s = .next (qDrained q s) ∧
        (s.bit (Reg.queueStatus q) 2 = false → qState (qDrained q s) q = 0) ∧
        (s.bit (Reg.queueStatus q) 2 = true → qState (qDrained q s) q = 1 ∧ (qDrained q s).bit (Reg.queueStatus q) 2 = false)) ∧
      (∀ p : Fin 8, portState s p = 2 → portCfgBad s p = false →
        ∃ t, exec (.ethPortDrainComplete p) s = .next t ∧
          (s.bit (Reg.ethPortStatus p) 2 = false → portState t p = 0 ∧ portLink t p = false) ∧
          (s.bit (Reg.ethPortStatus p) 2 = true → portState t p = 1 ∧ t.bit (Reg.ethPortStatus p) 2 = false)) ∧
      (∀ k : CoreId, coreState s k = 2 → coreQuiet s k = true → (traced s k && fifoFull s k) = false →
        exec (.coreDrainComplete k) s = .next (coreDrainEnd k s) ∧
        (s.bit (Reg.coreStatus k) 2 = false → coreState (coreDrainEnd k s) k = 0) ∧
        (s.bit (Reg.coreStatus k) 2 = true → coreState (coreDrainEnd k s) k = 1 ∧ (coreDrainEnd k s).bit (Reg.coreStatus k) 2 = false)) ∧
      (∀ l : Fin 6, linkState s l = 2 → s.bit (Reg.linkStatus l) 2 = false →
        ∃ t, exec (.linkDrainComplete l) s = .next t ∧ linkState t l = 0) ∧
      (∀ n : Fin 8, ptState s n = 2 → ptQuiet s n = true → s.bit (Reg.globalPtStatus n) 2 = false → (∀ q ∈ partQueues s n, q < 1024) →
        ∃ t, exec (.ptDrainComplete n) s = .next t ∧ t = gridsShow n ((ptFlush n s).putF (Reg.globalPtStatus n) 0 2 0) ∧ ptState t n = 0 ∧
          ∀ q ∈ partQueues s n, qState s q = 2 → qState t q = 0) ∧
      (∀ n : Fin 8, ptState s n = 2 → ptQuiet s n = true → s.bit (Reg.globalPtStatus n) 2 = true → (∀ q ∈ partQueues s n, q < 1024 ∧ ringFault s q = none) →
        ∃ t, exec (.ptDrainComplete n) s = .next t.settle ∧ ptState t n = 1 ∧ t.bit (Reg.globalPtStatus n) 2 = false))

/-- WARP_APPLY: an accepted command starts the check and shows APPLYING; a refused one gives its result and done, and raises
vector 0 (R50).

The causes of a refusal, judged in the order of R50. -/
def Obligations.WarpApply : Prop :=
  (∀ (s : State) (part : Bool), s.Kept → s.wf = true → hostTakes .held s = true → s.inHold = false → s.loader = .idle →
      let s1 := s.putB Reg.globalWarpCtrl 1 part
      (warpRefused s1 part = none →
        ∃ t, exec (.warpApply part) s = .next t ∧ t.loader = .checking ∧ t.bit Reg.globalWarpCtrl 0 = true ∧
          t.bit Reg.globalWarpCtrl 1 = part ∧ t.fld Reg.globalWarpStatus 0 2 = 1 ∧ t.stage = 3 ∧ t.mem = s.mem ∧ t.cores = s.cores) ∧
      (∀ r, warpRefused s1 part = some r →
        ∃ t, exec (.warpApply part) s = .next t ∧ t.loader = .idle ∧ t.fld Reg.globalWarpStatus 2 4 = r ∧
          t.bit Reg.globalWarpStatus 6 = true ∧ t.bit Reg.globalWarpCtrl 0 = false ∧ t.fld Reg.globalWarpStatus 0 2 = s.fld Reg.globalWarpStatus 0 2 ∧
          t.stage = s.stage ∧ t.mem = s.mem ∧ t.cores = s.cores ∧ t.warp = s.warp)) ∧
  (∀ (s : State) (part : Bool),
      let len := (s.rd Reg.globalWarpLen).toNat
      let lim := if part then s.warp.rewarpMib * 2 ^ 20 else 96 * 2 ^ 20
      (s.bit Reg.globalBistStatus 1 = true → warpRefused s part = some 5) ∧
      (s.bit Reg.globalBistStatus 1 = false → part = false → s.fld Reg.globalWarpStatus 0 2 = 2 → warpRefused s part = some 2) ∧
      (s.bit Reg.globalBistStatus 1 = false → part = true → s.fld Reg.globalWarpStatus 0 2 = 0 → warpRefused s part = some 3) ∧
      (s.bit Reg.globalBistStatus 1 = false → s.fld Reg.globalWarpStatus 0 2 = (if part then 2 else 0) → len % 8 = 0 → 88 ≤ len → len ≤ lim →
        warpRefused s part = none) ∧
      (s.bit Reg.globalBistStatus 1 = false → s.fld Reg.globalWarpStatus 0 2 = (if part then 2 else 0) → (len % 8 ≠ 0 ∨ len < 88 ∨ lim < len) →
        warpRefused s part = some 6))

/-- The check of a staged image: a mismatch applies nothing and reports CRC_FAIL; a partial image for a partition that is not
OFF is refused; otherwise the application begins (R42, R50, R64). The application ends with its result, WARP_CRC, stage 4 and
done; a partial image whose sections are empty DATA sections changes no memory.

R49: an application that is outside contract leaves its contract and no more, the selvedge having taken the SAFETY section as
`safetyKept` says, and its latch, SAFE_N and heartbeat as they were. -/
def Obligations.WarpCheckAndApply : Prop :=
  ∀ s : State, s.Kept → s.cclk = true →
    (s.loader = .checking → crcOk (warpImage s) = false → exec .warpCrcCheckDone s = .next (warpNothing 1 s)) ∧
    (s.loader = .checking → crcOk (warpImage s) = true → warpPartial s = true →
      (7 < leAt (warpImage s) 0x0F 1 ∨ ptState s (leAt (warpImage s) 0x0F 1) ≠ 0) → exec .warpCrcCheckDone s = .next (warpNothing 4 s)) ∧
    (s.loader = .checking → crcOk (warpImage s) = true →
      (warpPartial s = true → leAt (warpImage s) 0x0F 1 ≤ 7 ∧ ptState s (leAt (warpImage s) 0x0F 1) = 0) →
      exec .warpCrcCheckDone s = .next { s with loader := .applying }) ∧
    (∀ l, s.wf = true → s.loader = .applying → warpPartial s = true → headerOutside (warpImage s) true = false →
      readSections (leAt (warpImage s) 8 2) ((warpImage s).drop 64) = .ok l → partialOutside (leAt (warpImage s) 0x0F 1) l = false →
      (∀ x ∈ l, x.type = 13 ∧ x.body = []) → groupsBad s = false → leAt (warpImage s) 0x0F 1 < 8 →
      ∃ t, exec .warpApplyDone s = .next t ∧ t.loader = .idle ∧ t.fld Reg.globalWarpStatus 0 2 = 2 ∧ t.fld Reg.globalWarpStatus 2 4 = 0 ∧
        t.bit Reg.globalWarpStatus 6 = true ∧ t.stage = 4 ∧ t.bit (Reg.globalPtStatus (leAt (warpImage s) 0x0F 1)) 3 = true ∧
        (t.rd Reg.globalWarpCrc).toNat = leAt (warpImage s) ((warpImage s).length - 4) 4 ∧ t.mem = s.mem ∧ t.warp = s.warp ∧ t.cores = s.cores) ∧
    (∀ s1, s.loader = .applying → warpPartial s = true → applyImage (warpImage s) true s = .next s1 →
      exec .warpApplyDone s = .next (warpEnd 0 ((((s1.wrN Reg.globalWarpCrc (leAt (warpImage s) ((warpImage s).length - 4) 4)).putF
        Reg.globalWarpStatus 0 2 2).setStage 4).putB (Reg.globalPtStatus (leAt (warpImage s) 0x0F 1)) 3 true)).settle) ∧
    (∀ l, s.loader = .applying → warpPartial s = false → headerOutside (warpImage s) false = false →
      readSections (leAt (warpImage s) 8 2) ((warpImage s).drop 64) = .ok l → fullOutside l = true →
      exec .warpApplyDone s = .next ((safetyKept s).leave 48).settle ∧
      ((l.filter fun x => x.type = 12).length ≠ 1 → (safetyKept s).selv.safety = s.selv.safety))

/-- PT_ENABLE, PT_DISABLE and the core commands: an OFF partition whose queues may start becomes ENABLED with its cores at
their entries; an ENABLED one drains; an OFF core of an ENABLED partition starts with its start contents; an ENABLED core
drains (R54 to R59, R61, R150).

A wake ends what a core waits for in SLEEP while it is awake: the cause is recorded, CORE_PC takes the word's address, and
the core may issue again (R164). -/
def Obligations.PartitionsAndCores : Prop :=
  (∀ s : State, s.Kept → hostOpen s = true →
      (∀ n : Fin 8, s.wf = true → ptState s n = 0 → (∀ q ∈ partQueues s n, q < 1024 ∧ (qState s q ≠ 0 ∨ ringFault s q = none)) →
        ∃ t, exec (.ptEnable n) s = .next t.settle ∧ ptState t n = 1 ∧ (∀ q ∈ partQueues s n, qState s q = 0 → qState t q = 1) ∧
          (∀ k ∈ partCores s n, coreState s k = 0 → coreState t k = 1 ∧ (core t k).pc = BitVec.ofNat 64 (s.rdQ (Reg.coreEntry k) 2)) ∧
          t.warp = s.warp ∧ t.pins = s.pins) ∧
      (∀ n : Fin 8, ptState s n = 0 → partQueues s n = [] → partCores s n = [] →
        let s1 := gridsStart n ((partCtxs s n).foldl (fun s x => fillBucket x s) (s.putF (Reg.globalPtStatus n) 0 2 1))
        exec (.ptEnable n) s = .next (pairEnter n { s1 with chain := { s1.chain with
          seqs := s1.chain.seqs.filter fun (e : Nat × Nat) => queuePart s1 e.1 ≠ some n } }).settle) ∧
      (∀ n : Fin 8, ptState s n = 1 → ∃ t, exec (.ptDisable n) s = .next t ∧ t = ptDrainBegin n s ∧
        (s.wf = true → (∀ q ∈ partQueues s n, q < 1024) → ptState t n = 2 ∧ (∀ q ∈ partQueues s n, qState s q = 1 → qState t q = 2) ∧
          ∀ k ∈ partCores s n, coreState s k = 1 → coreState t k = 2)) ∧
      (∀ (k : CoreId) (p : Nat), s.wf = true → coreState s k = 0 → corePart s k = some p → ptEnabled s p = true →
        ∃ t, exec (.coreEnable k) s = .next t ∧ coreState t k = 1 ∧ (core t k).pc = BitVec.ofNat 64 (s.rdQ (Reg.coreEntry k) 2) ∧
          (core t k).sreg 1 = BitVec.ofNat 64 k ∧ (core t k).sreg 2 = BitVec.ofNat 64 p ∧
          (core t k).sreg 3 = BitVec.ofNat 64 (s.rdQ (Reg.coreArg k) 2) ∧ (core t k).sreg 4 = 0 ∧ (∀ i, 4 < i → (core t k).sreg i = 0) ∧
          (∀ i, (core t k).vreg i = 0 ∧ (core t k).preg i = 0) ∧ t.mem = s.mem) ∧
      (∀ k : CoreId, coreState s k = 1 → ∃ t, exec (.coreDisable k) s = .next t ∧ t = coreDrainBegin k s ∧ (s.wf = true → coreState t k = 2 ∧
        (core t k).wait = .none ∧ (core t k).arr.cmdq = [] ∧ (core t k).arr.tq = [] ∧ t.mem = s.mem)) ∧
      (∀ k : CoreId, coreState s k = 1 → exec (.coreWakeCmd k) s = .next (wakeCore 2 0 k s))) ∧
  (∀ (s : State) (k : CoreId) (w : W64), s.Kept → s.wf = true → hostOpen s = true → coreState s k = 1 → (core s k).wait = .sleep w none →
      (core s k).nap = .awake →
      ∃ t, exec (.coreWakeCmd k) s = .next t ∧ core t k = { core s k with wait := .none, nap := .awake } ∧
        (t.rd (Reg.coreWakeCause k)).toNat = 2 ∧ t.rdQ (Reg.corePc k) 2 = w.toNat ∧ (∀ j : CoreId, j ≠ k → core t j = core s j) ∧ t.mem = s.mem)

/-! ### Queues, time and position -/

/-- Doorbells and releases by the host (R173, R177): a doorbell of n commits n slots, a release of n releases n elements, each
of the kind the queue is configured for; what does not fit the fill is refused and sets doorbell_err.

QUEUE_FLUSH discards every element and reservation of a DRAINING queue and acts on no other (R178); QUEUE_IRQ is written
and the queue rearmed, and an armed queue at its threshold raises its vector at once (R175).

The counters of a queue as its cores and engines move them (R167, R170, R172): a release moves head, a reservation resv, and
a commit marks its slot and lets tail pass every committed slot at the front. -/
def Obligations.HostQueueCommands : Prop :=
  (∀ (s : State) (q : Fin 1024) (n : BitVec 17), s.Kept → s.wf = true → hostOpen s = true →
      (0 < n.toNat → qState s q = 1 → qProd s q = 2 → qFill s q + n.toNat ≤ qDepth s q →
        ∃ t, exec (.queueDoorbell q n) s = .next t ∧ qTail t q = qTail s q + n.setWidth 32 ∧ qResv t q = qResv s q + n.setWidth 32 ∧ t.mem = s.mem) ∧
      (0 < n.toNat → qState s q = 1 → qProd s q = 2 → qDepth s q < qFill s q + n.toNat →
        exec (.queueDoorbell q n) s = .next (s.putB (Reg.queueStatus q) 5 true)) ∧
      (0 < n.toNat → qState s q = 0 ∨ qState s q = 2 → qProd s q = 2 → exec (.queueDoorbell q n) s = .next (s.sat (Reg.queueRefused q))) ∧
      (0 < n.toNat → qState s q = 3 ∨ qProd s q ≠ 2 → exec (.queueDoorbell q n) s = .next (s.putB (Reg.queueStatus q) 5 true)) ∧
      (exec (.queueDoorbell q 0) s = .next s ∧ exec (.queueRelease q 0) s = .next s) ∧
      (0 < n.toNat → qState s q ≠ 3 → qCons s q = 2 → n.toNat ≤ qFill s q →
        ∃ t, exec (.queueRelease q n) s = .next t ∧ qHead t q = qHead s q + n.setWidth 32 ∧ qTail t q = qTail s q ∧ t.mem = s.mem) ∧
      (0 < n.toNat → (qState s q = 3 ∨ qCons s q ≠ 2 ∨ qFill s q < n.toNat) →
        ∃ t, exec (.queueRelease q n) s = .next t ∧ qHead t q = qHead s q ∧ t.bit (Reg.queueStatus q) 5 = true)) ∧
  (∀ (s : State) (q : Fin 1024), s.Kept → s.wf = true → hostOpen s = true →
      (qState s q = 2 →
        ∃ t, exec (.queueFlush q) s = .next t ∧ qHead t q = 0 ∧ qTail t q = 0 ∧ qResv t q = 0 ∧ qSlots t q = [] ∧ qState t q = 2 ∧ t.mem = s.mem) ∧
      (qState s q ≠ 2 → exec (.queueFlush q) s = .next s) ∧
      (∀ v : W32, v &&& 0x0000FE00#32 = 0 → qState s q ≠ 2 →
        ∃ t, exec (.queueIrqWrite q v) s = .next t ∧ t.rd (Reg.queueIrq q) = v ∧
          (qCons s q = 2 → v.getLsbD 8 = true → max 1 (v.toNat / 2 ^ 16) ≤ qFill s q → t.bit (Reg.queueStatus q) 7 = false) ∧
          (qCons s q = 2 → v.getLsbD 8 = true → qFill s q < max 1 (v.toNat / 2 ^ 16) → t.bit (Reg.queueStatus q) 7 = true ∧ t.out = s.out))) ∧
  (∀ (s : State) (q : Fin 1024) (n : Nat), s.wf = true →
      (qHead (qRel q n s) q = qHead s q + BitVec.ofNat 32 n ∧ qTail (qRel q n s) q = qTail s q ∧ qResv (qRel q n s) q = qResv s q) ∧
      (∀ h, qResv (qReserve q n h s) q = qResv s q + BitVec.ofNat 32 n ∧ qTail (qReserve q n h s) q = qTail s q ∧
        qHead (qReserve q n h s) q = qHead s q ∧
        qSlots (qReserve q n h s) q = qSlots s q ++ (List.range n).map fun i => ⟨((qResv s q).toNat + i) % 2 ^ 32, some h, false⟩) ∧
      (∀ c, (qSlots s q).head? = some ⟨c, some .engine, false⟩ → (qSlots s q).length = 1 →
        qTail (qCommit q c s) q = qTail s q + 1 ∧ qSlots (qCommit q c s) q = []) ∧
      (∀ c x y, qSlots s q = [x, y] → x.committed = false → y.committed = false → x.ctr ≠ c → y.ctr = c →
        qTail (qCommit q c s) q = qTail s q ∧ qSlots (qCommit q c s) q = [x, { y with committed := true }]))

/-- TIME_SET and TIME_STEP (R72 to R74, R77): the values are taken when the write is made, and the request stays until it is
done; on a chain-bound part both are discarded.

The end of a set and of a step (R72 to R75, R418, R455): the time base takes the value, or moves by the signed step and not
below zero; the SC bit reads 0, a set clears locked, the load window ends, the step count advances, a TIME packet is due, and
time events are judged, after a step only if it was forward.

TIME_TRIM holds the value written, clamped to ±1,000 ppm, and a clamp is shown (R71). -/
def Obligations.TimeSetStepAndTrim : Prop :=
  (∀ s : State, s.Kept → s.wf = true → hostTakes .time s = true →
      (chainBound s = false → s.bit Reg.timeCtrl 2 = false →
        ∃ t, exec .timeSet s = .next t ∧ t.bit Reg.timeCtrl 2 = true ∧ t.pos.tb = s.pos.tb ∧
          t.pos.setReq = some ⟨BitVec.ofNat 64 (s.rdQ Reg.timeSetSec 2), BitVec.ofNat 30 (min (s.fld Reg.timeSetNs 0 30) 999999999),
            BitVec.ofNat 32 (s.fld Reg.timeSetFrac 0 16 * 2 ^ 16)⟩) ∧
      (chainBound s = false → s.bit Reg.timeCtrl 3 = false →
        ∃ t, exec .timeStep s = .next t ∧ t.bit Reg.timeCtrl 3 = true ∧ t.pos.tb = s.pos.tb ∧
          t.pos.stepReq = some (signedN 64 (s.rdQ Reg.timeStep 2), s.fld Reg.timeStepFrac 0 16)) ∧
      (chainBound s = true → exec .timeSet s = .next s ∧ exec .timeStep s = .next s ∧ ∀ v, exec (.timeTrimWrite v) s = .next s) ∧
      (s.bit Reg.timeCtrl 2 = true → exec .timeSet s = .next s) ∧ (s.bit Reg.timeCtrl 3 = true → exec .timeStep s = .next s) ∧
      (exec .timeSnap s = .next (s.putB Reg.timeCtrl 4 true))) ∧
  (∀ s : State, s.Kept → s.tclk = true →
      (∀ t0, s.pos.setReq = some t0 → exec .timeSetDone s = .next (judgeTimes (timeMoved (timeSync
        ((({ s with pos := { s.pos with tb := t0, setReq := none } } : State).putB Reg.timeCtrl 2 false).putB Reg.timeCtrl 1 false)))).settle) ∧
      (∀ (ns : Int) (fr : Nat), s.pos.stepReq = some (ns, fr) →
        let d : Int := ns * 2 ^ 32 + fr * 2 ^ 16
        let s1 := timeMoved (({ s with pos := { s.pos with tb := ofTb32 ((now32 s : Int) + d).toNat, stepReq := none } } : State).putB Reg.timeCtrl 3 false)
        (0 < d → exec .timeStepDone s = .next (judgeTimes s1).settle) ∧ (d ≤ 0 → exec .timeStepDone s = .next s1)) ∧
      (timeMoved s).chain.stepCount = (s.chain.stepCount + 1) % 65536 ∧ (timeMoved s).emb.load = [] ∧
      (∀ ns : Nat, now32 { s with pos := { s.pos with tb := ofTb32 (ns * 2 ^ 32) } } = ns % (2 ^ 64 * 1000000000) * 2 ^ 32)) ∧
  (∀ (s : State) (v : W32), s.Kept → s.wf = true → hostTakes .time s = true → chainBound s = false →
      ∃ t, exec (.timeTrimWrite v) s = .next t ∧
        ((t.rd Reg.timeTrim).toInt = if v.toInt < -0x418937 then -0x418937 else if 0x418937 < v.toInt then 0x418937 else v.toInt) ∧
        t.bit Reg.timeStatus 1 = (s.bit Reg.timeStatus 1 || decide (v.toInt < -0x418937 ∨ 0x418937 < v.toInt)) ∧
        ∀ a, a ≠ Reg.timeTrim → a ≠ Reg.timeStatus → t.rd a = s.rd a)

/-- TIME_SNAP_DONE: TIME_SNAP takes the stamp, and each TIME_SNAP_PKn the pick stamp, of one TCLK (R76).

PPS (R78, R79): a second raises PPS_OUT if the pulse is enabled, and its end lowers it; an input edge of the selected kind
is stamped and counted, and a lost input is shown. -/
def Obligations.SnapsAndPulses : Prop :=
  (∀ s : State, s.Kept → s.wf = true → s.tclk = true → s.bit Reg.timeCtrl 4 = true →
      ∃ t, exec .timeSnapDone s = .next t ∧ t.bit Reg.timeCtrl 4 = false ∧ t.rdQ Reg.timeSnap 4 = (nowStamp s).toNat ∧
        (∀ n : Fin 4, t.rdQ (Reg.timeSnapPk n) 2 = (pickStamp s n).toNat) ∧ t.pos = s.pos) ∧
  (∀ s : State, s.Kept → s.wf = true → s.tclk = true →
      (s.pos.secDue = true → s.bit Reg.timeCtrl 5 = true → s.pos.ppsPulse = false →
        ∃ t, exec .timeBaseSecond s = .next t ∧ t.pins.ppsOut = true ∧ t.pos.ppsPulse = true ∧ t.pos.secDue = false) ∧
      (s.pos.secDue = true → s.bit Reg.timeCtrl 5 = false ∨ s.pos.ppsPulse = true → ∃ t, exec .timeBaseSecond s = .next t ∧ t.pins = s.pins ∧ t.pos.secDue = false) ∧
      (s.pos.ppsPulse = true → ∃ t, exec .ppsOutPulseEnd s = .next t ∧ t.pins.ppsOut = false ∧ t.pos.ppsPulse = false ∧ t.regs = s.regs) ∧
      (∀ (rising : Bool) (quarter : Fin 4), rising = !s.bit Reg.timeCtrl 6 →
        ∃ t, exec (.ppsInEdge rising quarter) s = .next t ∧ t.rdQ Reg.timePpsStamp 4 = (stampAt s (edgeInstant s quarter 0)).toNat ∧
          t.rd Reg.timePpsCount = s.rd Reg.timePpsCount + 1 ∧ t.bit Reg.timeStatus 3 = true ∧ t.pos.ppsSeen = true) ∧
      (∀ (rising : Bool) (quarter : Fin 4), rising = s.bit Reg.timeCtrl 6 → exec (.ppsInEdge rising quarter) s = .next s) ∧
      (s.pos.ppsSeen = true → s.bit Reg.timeStatus 3 = true →
        ∃ t, exec .ppsLostTimeout s = .next t ∧ t.bit Reg.timeStatus 2 = true ∧ t.bit Reg.timeStatus 3 = false ∧ t.pos = s.pos))

/-- Edges at the inputs (R85 to R92, R598): the inputs take the levels whose filter length has passed; with no reference armed and
no event armed, each counter moves by the step its mode gives the edges of the TCLK, modulo 2^48, and its direction and last two
stamps follow. A qualifying edge of a stamping input is stamped with its own instant at the ball (R87), and one within 4 ns of the
edge before is an overrun and is not (R86). While TCLK is stopped only the levels change (R596).

The steps of a counter in each mode (R89, R90): in X4 every edge of A or B counts, in X2 every edge of A, in X1 and PULSE_DIR
the rising edges of A; forward when A leads B; both inputs changing at once is an error of the quadrature modes. -/
def Obligations.EdgesMoveTheCounters : Prop :=
  (∀ (s : State) (es : List PinEdge), s.Kept → s.wf = true →
      let now := es.filter (edgeFiltered s)
      let s1 := takeLevels now s
      (s.tclk = false → exec (.edgeInputEdge es) s = .next (takeLevels es s)) ∧
      (s.tclk = true → (∀ n : Fin 4, refArmed s n = false) → (∀ v : Fin 80, evArmed s v = false) →
        ∃ t, exec (.edgeInputEdge es) s = .next t ∧ t.pins = s1.pins ∧
          (∀ n : Fin 4,
            (∀ up x, (∀ f : Nat, pickDelta { s1 with freeCtr := f } n (now.filter (edgeKept s)) = .step up x) →
              pkCount t n = (pkCount s n + (if up then 1 else 2 ^ 48 - 1)) % 2 ^ 48 ∧ t.fld (Reg.posPkStatus n) 0 2 = (if up then 1 else 2) ∧
              t.rdQ (Reg.posPkLastT0 n) 4 = (edgeStampOf s x).toNat ∧ t.rdQ (Reg.posPkLastT1 n) 4 = s.rdQ (Reg.posPkLastT0 n) 4) ∧
            ((∀ f : Nat, pickDelta { s1 with freeCtr := f } n (now.filter (edgeKept s)) = .none) → pkCount t n = pkCount s n) ∧
            ((∀ f : Nat, pickDelta { s1 with freeCtr := f } n (now.filter (edgeKept s)) = .error) →
              pkCount t n = pkCount s n ∧ t.bit (Reg.posPkStatus n) 4 = true)) ∧
          ∀ x : PinEdge, es = [x] → edgeFiltered s x = true → edgeKept s x = true → qualifies s x = true → s.bit (Reg.posEdgeCfg x.input) 3 = true →
            (edgeIn s x.input).q.length < 16 →
            ((edgeIn s x.input).last = none → (edgeIn t x.input).q.map EdgeStamp.t = (edgeIn s x.input).q.map EdgeStamp.t ++ [edgeStampOf s x]) ∧
            (∀ l, (edgeIn s x.input).last = some l → edgeAt s x < l + 16 →
              (edgeIn t x.input).q = (edgeIn s x.input).q ∧ t.bit (Reg.posEdgeStatus x.input) 6 = true))) ∧
  (∀ (s : State) (n : Fin 4) (x y : PinEdge),
      let a := s.fld (Reg.posPkCfg n) 3 4
      let b := s.fld (Reg.posPkCfg n) 7 4
      x.input.val = a → y.input.val = b → a ≠ b → s.bit (Reg.posPkCfg n) 11 = false →
      (pkMode s n = 1 ∨ pkMode s n = 2 ∨ pkMode s n = 3 → pickDelta s n [x, y] = .error) ∧
      (pkMode s n = 3 ∨ pkMode s n = 2 → pickDelta s n [x] = .step (x.rising != s.pins.edge.toNat.testBit b) x) ∧
      (pkMode s n = 3 → pickDelta s n [y] = .step (s.pins.edge.toNat.testBit a == y.rising) y) ∧
      (pkMode s n = 1 → pickDelta s n [x] = if x.rising then .step (!s.pins.edge.toNat.testBit b) x else .none) ∧
      (pkMode s n = 2 ∨ pkMode s n = 1 ∨ pkMode s n = 4 → pickDelta s n [y] = .none) ∧
      (pkMode s n = 4 → x.rising = false → pickDelta s n [x] = .none) ∧
      (pkMode s n = 4 → x.rising = true → dirUnstable s b x none = false → pickDelta s n [x] = .step (!s.pins.edge.toNat.testBit b) x) ∧
      (pkMode s n = 0 → pickDelta s n [x, y] = .none))

/-- The counters' commands (R89, R92 to R97): a reference is armed and disarmed; LOAD_NOW records the reference and loads ref;
on a counter that follows the chain none of them acts; a change of mode between running modes is refused. -/
def Obligations.CounterCommands : Prop :=
  ∀ (s : State) (n : Fin 4), s.Kept → s.wf = true → hostTakes .held s = true →
    (pkChain s n = true → exec (.loadNow n) s = .next s ∧ exec (.refArm n) s = .next s ∧ exec (.refDisarm n) s = .next s) ∧
    (pkChain s n = false →
      (∃ t, exec (.refArm n) s = .next t ∧ t.bit (Reg.posPkRefCtrl n) 1 = true ∧ t.bit (Reg.posPkStatus n) 3 = true ∧ t.pos = s.pos) ∧
      (∃ t, exec (.refDisarm n) s = .next t ∧ t.bit (Reg.posPkRefCtrl n) 1 = false ∧ t.bit (Reg.posPkStatus n) 3 = false ∧ t.pos = s.pos) ∧
      ∃ t, exec (.loadNow n) s = .next t.settle ∧ t = refLoad n (refRecord n (nowStamp s) s) ∧ pkCount t n = pkRef s n ∧
        t.bit (Reg.posPkStatus n) 2 = false ∧ t.rdQ (Reg.posPkRefDelta n) 2 = (pkCount s n + 2 ^ 48 - pkRef s n) % 2 ^ 48 ∧
        t.rdQ (Reg.posPkRefT n) 4 = (nowStamp s).toNat) ∧
    (∀ v : W32, v &&& 0xFF00F000#32 = 0 → pkMode s n ≠ 0 → fieldN v.toNat 0 3 ≠ 0 → pkMode s n ≠ fieldN v.toNat 0 3 →
      exec (.posPkCfgWrite n v) s = .next (s.putB (Reg.posPkStatus n) 6 true)) ∧
    (∀ v : W32, v &&& 0xFF00F000#32 = 0 → pkMode s n = 0 → offMode s (fieldN v.toNat 0 3) = false →
      ∃ t, exec (.posPkCfgWrite n v) s = .next t ∧ t.rd (Reg.posPkCfg n) = v ∧ pkCount t n = 0 ∧ t.fld (Reg.posPkStatus n) 0 3 = 4) ∧
    (s.tclk = true → s.fld (Reg.posPkCfg n) 16 8 ≠ 0 → pkChain s n = false →
      ∃ t, exec (.pickStillTimeout n) s = .next t ∧ t.fld (Reg.posPkStatus n) 0 2 = 0 ∧ pkCount t n = pkCount s n) ∧
    (∀ e : Fin 16, exec (.posEdgePop e) s = .next (edgeShow e (setEdgeIn s e { edgeIn s e with q := (edgeIn s e).q.tail })))

/-- Scheduled events (R98 to R104): arming an armed event does nothing, a refused one shows it, an accepted one is armed with
its counters at 0; an event that is due fires: a TRIG event raises its pulse and counts it, and ONCE disarms; disarming, which a
firing of the same TCLK precedes, and the end of a pulse.

POSITION_DOORBELL: the oldest firing of a doorbell is written into its queue and committed, unless a lower doorbell that fired
in the same TCLK has still to write there; when the queue takes nothing the firing is lost and shown (R105 to R107). -/
def Obligations.ScheduledEvents : Prop :=
  (∀ s : State, s.Kept → s.wf = true →
      (∀ v : Fin 80, hostTakes .held s = true → evArmed s v = true → exec (.posEvArm v) s = .next s) ∧
      (∀ v : Fin 80, hostTakes .held s = true → evArmed s v = false → armRefused s v = true →
        exec (.posEvArm v) s = .next (s.putB (Reg.posEvStatus v) 5 true)) ∧
      (∀ v : Fin 80, hostTakes .held s = true → evArmed s v = false → armRefused s v = false → evPick s v = true → evRepeat s v = 2 →
        ∃ t, exec (.posEvArm v) s = .next t ∧ evArmed t v = true ∧ t.rd (Reg.posEvFires v) = 0 ∧ t.rd (Reg.posEvSkips v) = 0) ∧
      (∀ v : Fin 80, hostTakes .held s = true → evArmed s v = false → armRefused s v = false → evPick s v = false →
        let target : Int := (stamp16 (BitVec.ofNat 128 (s.rdQ (Reg.posEvTarget v) 4)) : Int) * 2 ^ 16
        (now32 s : Int) + 16 * 2 ^ 32 ≤ target →
        ∃ t, exec (.posEvArm v) s = .next t ∧ evArmed t v = true ∧ t.rd (Reg.posEvFires v) = 0 ∧ t.rd (Reg.posEvSkips v) = 0 ∧
          (eventOf t v).target = target ∧ t.pins = s.pins) ∧
      (∀ v : Fin 80, hostTakes .held s = true → exec (.posEvArm v) s = .next (evArm v s).settle) ∧
      (∀ v : Fin 80, s.tclk = true → evDue s v = true → exec (.eventFire v) s = .next (evGo v s).settle) ∧
      (∀ v : Fin 16, s.tclk = true → evDue s v = true → evRepeat s v = 0 →
        ∃ t, exec (.eventFire (Fin.castLE (by decide) v)) s = .next t ∧ t.rd (Reg.posEvFires v) = s.rd (Reg.posEvFires v) + 1 ∧
          evArmed t v = false ∧ t.bit (Reg.posEvStatus v) 1 = s.bit (Reg.posEvStatus v) 1 ∧ (eventOf t v).pulse = true ∧
          t.pins.trig.getLsbD v = !s.bit (Reg.posEvCfg v) 9) ∧
      (∀ v : Fin 80, hostTakes .held s = true → evArmed s v = true → evDue s v = false →
        ∃ t, exec (.posEvDisarm v) s = .next t ∧ evArmed t v = false ∧ t.pins = s.pins ∧ ∀ a, a ≠ Reg.posEvStatus v → t.rd a = s.rd a) ∧
      (∀ v : Fin 80, hostTakes .held s = true → evArmed s v = true → s.tclk = true → evDue s v = true →
        exec (.posEvDisarm v) s = .next (evDisarm v (evGo v s)).settle) ∧
      (∀ v : Fin 80, hostTakes .held s = true → evArmed s v = false → exec (.posEvDisarm v) s = .next s) ∧
      (∀ v : Fin 16, s.tclk = true → (eventOf s v).pulse = true →
        exec (.trigPulseEnd v) s = .next (trigSync v (setEvent s v { eventOf s v with pulse := false })))) ∧
  (∀ (s : State) (d : Fin 64) (f : Firing) (l : List Firing), s.Kept → s.cclk = true → (eventOf s (16 + d)).fired = f :: l →
      let rs := commitRange s (evQueue s (16 + d))
      let s0 := engGo rs s
      let s1 := setEvent s0 (16 + d) { eventOf s0 (16 + d) with fired := l }
      let r := engCommit (evQueue s1 (16 + d)) (dbElement d f) s1
      (dbBehind s (16 + d) f = true → exec (.positionDoorbell d) s = .next s) ∧
      (dbBehind s (16 + d) f = false → engWaits s rs = false →
        (r.1 = true → exec (.positionDoorbell d) s = .next r.2.settle) ∧
        (r.1 = false → exec (.positionDoorbell d) s = .next (setEvent (r.2.putB (Reg.posEvStatus (16 + d)) 6 true) (16 + d)
          { eventOf (r.2.putB (Reg.posEvStatus (16 + d)) 6 true) (16 + d) with
            skips := f.skips || (eventOf (r.2.putB (Reg.posEvStatus (16 + d)) 6 true) (16 + d)).skips })) ∧
        (r.1 = true ↔ qState s (evQueue s (16 + d)) = 1 ∧ qProd s (evQueue s (16 + d)) = 3 ∧ qFree s (evQueue s (16 + d)) ≠ 0)) ∧
      (dbElement d f).length = 32)

/-! ### Ethernet and intake -/

/-- Receive checks (R116): the first that fails decides the counter, one counter for one frame; a frame that fails none and
matches no context counts as unmatched; one that is steered counts as good and goes to the PTP queue; one that matches is
delivered to each context. Its stamp names its first octet, `ago` units of 2⁻¹⁶ ns before its end (R80).

A frame is received by an ENABLED port, and by a DRAINING one only if it was in reception when the drain began (R57, R116); while
PF_N is low a frame counts as lost (R27, R531).
A frame that ends before the resumption is complete, after PF_N has risen, is lost (log entry 70, the model's choice). -/
def Obligations.FramesReceived : Prop :=
  (∀ (s : State) (p : Fin 8) (f : List Byte) (fcsOk cut : Bool) (ago : Nat), s.Kept → s.cclk = true → portTakes s p ago = true →
      portLink s p = true → s.wf = true →
      (∀ r, rxFail s p f fcsOk cut = some r → exec (.ethFrameReceive p f fcsOk cut ago) s = .next (s.sat r)) ∧
      (rxFail s p f fcsOk cut = none → steeredL2 s p f = true ∨ steeredUdp s p f = true →
        let rs := commitRange s (s.fld (Reg.ethPtpCfg p) 16 10)
        engWaits s rs = false →
        exec (.ethFrameReceive p f fcsOk cut ago) s = .next (ptpSteer p (agoStamp s ago) f (rxGood p (f.length + 4) (engGo rs s))).settle) ∧
      (rxFail s p f fcsOk cut = none → steeredL2 s p f = false → steeredUdp s p f = false →
        let r : RxFrame := ⟨s.intake.nextId, p, f, f.length + 4, agoStamp s ago⟩
        (deliveries s r = [] → exec (.ethFrameReceive p f fcsOk cut ago) s = .next (s.sat (Reg.ethRxUnmatched p))) ∧
        (deliveries s r ≠ [] → engWaits s (deliverRanges s (deliveries s r)) = false →
          (∀ d ∈ deliveries s r, (ctxOf s d.2).kind = .image → d.2 < 4096 ∧ imageOutside s d.2 = false) →
          (deliveries s r).length = 1 ∨ (∀ d ∈ deliveries s r, (ctxOf s d.2).kind ≠ .image) →
          ∃ t : State, exec (.ethFrameReceive p f fcsOk cut ago) s = .next t.settle ∧ t.intake.nextId = s.intake.nextId + 1 ∧ t.pins = s.pins ∧
            t.pos = s.pos)) ∧
      (rxFail s p f fcsOk cut = none ↔ (s.pins.pfN = true ∧ cut = false ∧ fcsOk = true ∧ 64 ≤ f.length + 4 ∧ f.length + 4 ≤ 9216 ∧
        forUs s p f = true ∧ isPause f = false ∧ (steeredL2 s p f = true ∨ (isUdp f = true ∧ ipOk f = true)) ∧
        fifoHeld s p + (f.length + 4) ≤ fifoSize))) ∧
  (∀ (s : State) (p : Fin 8) (f : List Byte) (fcsOk cut : Bool) (ago : Nat), s.Kept →
      (portTakes s p ago = false → exec (.ethFrameReceive p f fcsOk cut ago) s = .next s) ∧
      (s.tclk = true → portTakes s p ago = true → portLink s p = true → s.pins.pfN = false →
        exec (.ethFrameReceive p f fcsOk cut ago) s = .next (s.sat (Reg.ethRxPfLost p))) ∧
      (s.inHold = true → s.pins.pfN = true → exec (.ethFrameReceive p f fcsOk cut ago) s = .next s)) ∧
  (∀ (s : State) (p : Fin 8) (ago : Nat),
      (portState s p = 1 → portTakes s p ago = true) ∧ (portState s p = 0 ∨ portState s p = 3 → portTakes s p ago = false) ∧
      (∀ d, portState s p = 2 → (ethPort s p).drain = some d → (portTakes s p ago = true ↔ s.pos.now * 2 ^ 14 ≤ d * 2 ^ 14 + ago)))

/-- What a port does besides receiving (R82, R83, R111, R145): a change of its link, the frame of the oldest element of its
transmit queue, padded and with its FCS, with its stamp if asked for, an element that is no frame, and the removal of the oldest
transmit stamp. The generator of the FCS is IEEE 802.3's (log entry 71, PRESUMED). -/
def Obligations.PortLinkAndTransmission : Prop :=
  ∀ (s : State) (p : Fin 8), s.Kept →
    (∀ up : Bool, s.wf = true → s.cclk = true → portState s p = 1 ∨ portState s p = 2 →
      ∃ t, exec (.ethLinkChange p up) s = .next t ∧ portLink t p = up ∧ portState t p = portState s p ∧ ∀ a, a ≠ Reg.ethPortStatus p → t.rd a = s.rd a) ∧
    (∀ (e : List Byte) (ago : Nat), s.cclk = true → portTakes s p ago = true → portLink s p = true → s.bit (Reg.ethTxQueue p) 16 = true →
      let q := s.fld (Reg.ethTxQueue p) 0 10
      qCons s q = 3 → qPeek s q = some e → engWaits s (takeRange s q) = false →
      let n := leAt e 0 2
      let f := slice e 16 n
      let s1 := qTake q (engGo (takeRange s q) s)
      let s2 := (s1.emit (.frame p (f ++ zeros (60 - f.length) ++ natLe 4 (crc32 (f ++ zeros (60 - f.length)))))).sat (Reg.ethTxFrames p)
      (n < 14 ∨ 9212 < n ∨ e.length < n + 16 → exec (.ethFrameTransmit p ago) s = .next (s1.sat (Reg.ethTxBad p))) ∧
      (14 ≤ n → n ≤ 9212 → n + 16 ≤ e.length → (leAt e 2 2).testBit 0 = false → exec (.ethFrameTransmit p ago) s = .next s2) ∧
      (14 ≤ n → n ≤ 9212 → n + 16 ≤ e.length → (leAt e 2 2).testBit 0 = true →
        exec (.ethFrameTransmit p ago) s = .next (txStamp p (leAt e 4 2) (agoStamp s2 ago) s2))) ∧
    (hostOpen s = true → exec (.ethTxtsPop p) s = .next (setTxStamps p (ethPort s p).tx.tail s))

/-- POINT_INSERTION takes the points of the oldest frame whose partition may insert, in packet order (R127, R133); the staged
rows of an image block are emitted when the block times out (R142).

The insertion of a point writes no byte outside the buffer it goes into, whether it is kept or lost (R130, R134, R341 to
R343), as long as the brick and key numbers in the buffer are below its capacities.

The buffers of a grid (R135 to R138): a flip closes the OPEN buffer of an ENABLED partition; a closed buffer is shown in its
header once its frames are inserted; the element of the release queue releases the buffer it names or shows a mismatch; a
released buffer is cleared and READY, and opens at once on a STALLED grid. -/
def Obligations.InsertionAndGrids : Prop :=
  (∀ s : State, s.Kept → s.cclk = true →
      (∀ f : PointFrame, s.intake.frames.find? (fun f => windowOpen s f.part) = some f →
        let t := templateOf s (ctxOf s f.ctx).sel
        templateOutside t = none →
        exec .pointInsertion s = .next ((packetPoints t).foldl (takePoint f t (ctxOf s f.ctx).mount)
          { s with intake := { s.intake with frames := s.intake.frames.erase f } }).settle) ∧
      (∀ x : Fin 4096, (ctxOf s x).img.isSome = true → imageOutside s x = false →
        engWaits s (ringRange s (ctxOf s x).queue) = false →
        exec (.imageBlockTimeout x) s = .next (endBlock x (engGo (ringRange s (ctxOf s x).queue) s)).settle) ∧
      (∀ x : Fin 4096, (ctxOf s x).img.isSome = true → imageOutside s x = true → exec (.imageBlockTimeout x) s = .next (s.leave 143).settle)) ∧
  (∀ (s : State) (g b ctx : Nat) (p : Voxel) (x : Grid), s.wf = true → gridOf s g = some x → b < 2 → p.rel.length = 3 →
      voxBlock x p.vox < x.nblocks →
      (∀ i, i < x.capBlocks → ∀ j, j < 512 → s.leMem (x.addr b + x.offBlocks + i * 1088 + 0x40 + 2 * j) 2 < x.capBricks) →
      (∀ i, i < x.capBricks → ∀ j, j < 512 → s.leMem (x.addr b + x.offBricks + i * 2112 + 0x40 + 4 * j) 4 < x.capKeys) →
      ∀ a, (a < x.addr b ∨ x.addr b + x.bufSize ≤ a) → (insertPoint g b ctx p s).byte a = s.byte a) ∧
  (∀ (s : State) (g : Fin 64) (x : Grid), s.Kept → gridOf s g = some x →
      (hostOpen s = true → exec (.intakeGridFlip g) s = .next (gridFlip g (nowStamp s) s).settle) ∧
      (x.find .open = none ∨ ptEnabled s x.part = false → ∀ t, gridFlip g t s = s) ∧
      (∀ b, s.cclk = true → x.find .closing = some b → bufPending s g b = false →
        let y := x.setBuf b { x.buf b with st := if (x.buf b).released then .clearing else .closed, flags := (x.buf b).flags ||| 1 }
        exec (.gridBufferClosed g) s = .next (setGrid g y (headerCounts y b s)).settle) ∧
      (∀ e, s.cclk = true → qCons s x.releaseQ = 3 → qPeek s x.releaseQ = some e → engWaits s (takeRange s x.releaseQ) = false →
        let v := leNat (e.take 8)
        let s1 := qTake x.releaseQ (engGo (takeRange s x.releaseQ) s)
        let gs := s1.intake.grids.filter fun e => e.2.releaseQ == x.releaseQ
        (∀ h, gs.find? (fun e => (e.2.releasable v).isSome) = some h →
          exec (.gridRelease g) s = .next (gridFree h.1 ((h.2.releasable v).getD 0) s1)) ∧
        (gs.find? (fun e => (e.2.releasable v).isSome) = none →
          exec (.gridRelease g) s = .next (gs.foldl (fun s e => s.putB (Reg.intakeGridStatus e.1) 4 true) s1))) ∧
      (∀ b, s.cclk = true → x.find .clearing = some b →
        let y := x.setBuf b .ready
        let s1 := setGrid g y (clearBuf x b s)
        exec (.gridClearDone g) s = .next (if y.find .open = none ∧ ptEnabled s1 x.part = true then gridOpen g b true (nowStamp s1) s1 else s1).settle))

/-! ### Instruction words -/

/-- R194 to R196, R215: a core that does not run a word leaves the state as it is; a word outside the local store, or one
that raises an exception, has no effect but that exception; a word that issues takes effect in field order, SCA, ADR, VEC,
ARR, TQ, BR, each field reading the registers as they were before the word, and the register results are written in the
same order. A word with a non-zero reserved bit, and one whose fields are outside contract, leave the contract (R223, R5). -/
def Obligations.WordsTakeEffectInFieldOrder : Prop :=
  ∀ (c : Instr) (k : CoreId) (w : IWord) (s : State), wordOf c = some (k, w) → s.Kept →
    (mayIssue s k = false ∨ traceHeld s k = true → exec c s = .next s) ∧
    (mayIssue s k = true → traceHeld s k = false →
      (inLocal k (core s k).pc.toNat = false → exec c s = .next (takeException k ⟨3, 0, 0, 0, (core s k).pc, some (core s k).pc⟩ s)) ∧
      (inLocal k (core s k).pc.toNat = true → wordReserved w = true → exec c s = .next (s.leave 223).settle) ∧
      (inLocal k (core s k).pc.toNat = true → wordReserved w = false → ∀ e, wordException w s k = some e →
        e.cause < 5 ∨ queueRefuses k w s = false → e.cause = 1 ∨ gatherHeld w s k = false →
        exec c s = .next (takeException k e (syncDue k (depart (.word k) s))))) ∧
    (issues s k w = true →
      (∀ r, adrEffect k w (core s k) (scaSys k w (core s k) (entryState k w s)) = .outside r → exec c s = .next (s.leave r).settle) ∧
      ∀ (aw : Writes) (s1 : State), adrEffect k w (core s k) (scaSys k w (core s k) (entryState k w s)) = .next (aw, s1) →
      (∀ r, gatherOutside k w (core s k) s1 = some r → exec c s = .next (s.leave r).settle) ∧
      (gatherOutside k w (core s k) s1 = none → ∀ (vw : Writes) (s2 : State), vecEffect k w (core s k) s1 = (vw, s2) →
        (∀ r, arrOutside w s2 k (core s k) = some r → exec c s = .next (s.leave r).settle) ∧
        (arrOutside w s2 k (core s k) = none → ∀ s3 : State, arrEffect k w (core s k) s2 = s3 →
          (∀ (tw : Writes) (s4 : State), tqEffect k w (core s k) (brOp w == 0x10 && (groupOf s3 k).isSome) s3 = .done tw s4 →
            exec c s = .next (finishWord k w (core s k) [scaWrites k w (entryState k w s), aw, vw, tw] false s4)) ∧
          (tqEffect k w (core s k) (brOp w == 0x10 && (groupOf s3 k).isSome) s3 = .refused →
            exec c s = .next (finishWord k w (core s k) [scaWrites k w (entryState k w s), aw, vw] true s3)))))

/-- R194, R202: what a scalar operation writes into its destination, by its row of the table; a word that holds nothing
else changes nothing else. NOP writes nothing. SREAD gives the system register its operand names; SWRITE writes EPC or
ESCRATCH. -/
def Obligations.ScalarOperations : Prop :=
  ∀ (k : CoreId) (w : IWord) (s : State), s.wf = true →
    (∀ row ∈ ([(Instr.add, 0x01, fun a b _ => a + b), (.sub, 0x02, fun a b _ => a - b), (.andS, 0x03, fun a b _ => a &&& b),
        (.orS, 0x04, fun a b _ => a ||| b), (.xorS, 0x05, fun a b _ => a ^^^ b),
        (.sll, 0x06, fun a b _ => BitVec.ofNat 64 (a.toNat * 2 ^ (b.toNat % 64))),
        (.srl, 0x07, fun a b _ => BitVec.ofNat 64 (a.toNat / 2 ^ (b.toNat % 64))),
        (.sra, 0x08, fun a b _ => BitVec.ofInt 64 (a.toInt / 2 ^ (b.toNat % 64))),
        (.mul, 0x09, fun a b _ => BitVec.ofNat 64 (a.toNat * b.toNat)),
        (.mulhu, 0x0A, fun a b _ => BitVec.ofNat 64 (a.toNat * b.toNat / 2 ^ 64)),
        (.mulhs, 0x0B, fun a b _ => BitVec.ofInt 64 (a.toInt * b.toInt / 2 ^ 64)),
        (.slt, 0x0C, fun a b _ => if a.toInt < b.toInt then 1 else 0), (.sltu, 0x0D, fun a b _ => if a.toNat < b.toNat then 1 else 0),
        (.minS, 0x0E, fun a b _ => if a.toInt ≤ b.toInt then a else b), (.maxS, 0x0F, fun a b _ => if a.toInt ≤ b.toInt then b else a),
        (.minu, 0x10, fun a b _ => if a.toNat ≤ b.toNat then a else b), (.maxu, 0x11, fun a b _ => if a.toNat ≤ b.toNat then b else a),
        (.clz, 0x13, fun a _ _ => BitVec.ofNat 64 ((List.range 64).takeWhile fun i => !a.getLsbD (63 - i)).length),
        (.popc, 0x14, fun a _ _ => BitVec.ofNat 64 ((List.range 64).countP fun i => a.getLsbD i)),
        (.mov, 0x20, fun _ b _ => b), (.movhi, 0x21, fun a _ imm => (a &&& 0xFFFF#64) ||| (imm <<< 16))] :
          List ((CoreId → IWord → Instr) × Nat × (W64 → W64 → W64 → W64))),
      let v := withSca row.2.1 w
      let c := core s k
      issues s k v = true → wordOps v = [row.2.1, 0, 0, 0, 0, 0] →
      ∃ t, exec (row.1 k w) s = .next t ∧
        WordDone k s t { c.setS (scaF v 8 5) (row.2.2 (c.sreg (scaF v 13 5)) (scaB v c) (BitVec.ofNat 64 (immBits v))) with pc := c.pc + 64 } []) ∧
    (issues s k (withNone w) = true → ∃ t, exec (.nop k w) s = .next t ∧ WordDone k s t { core s k with pc := (core s k).pc + 64 } []) ∧
    (let v := withSca 0x30 w
      let c := core s k
      issues s k v = true → wordOps v = [0x30, 0, 0, 0, 0, 0] →
      ∃ t x, exec (.sread k w) s = .next t ∧ WordDone k s t { c.setS (scaF v 8 5) x with pc := c.pc + 64 } [] ∧
        (scaB v c).toNat % 256 ≤ 6 ∧
        ((scaB v c).toNat % 256 = 0 → x = BitVec.ofNat 64 c.cycle) ∧ ((scaB v c).toNat % 256 = 1 → x = BitVec.ofNat 64 k.val) ∧
        ((scaB v c).toNat % 256 = 2 → ∀ p, corePart s k = some p → x = BitVec.ofNat 64 p) ∧ ((scaB v c).toNat % 256 = 3 → x = c.epc) ∧
        ((scaB v c).toNat % 256 = 4 → x = s.rd (Reg.coreExcInfo k) ++ BitVec.ofNat 32 (s.fld (Reg.coreExcStatus k) 3 4)) ∧
        ((scaB v c).toNat % 256 = 5 → x = c.eaddr) ∧ ((scaB v c).toNat % 256 = 6 → x = c.escratch)) ∧
    (let v := withSca 0x31 w
      let c := core s k
      issues s k v = true → wordOps v = [0x31, 0, 0, 0, 0, 0] →
      ((scaB v c).toNat % 256 = 3 ∨ (scaB v c).toNat % 256 = 6) ∧ ∃ t, exec (.swrite k w) s = .next t ∧
        ((scaB v c).toNat % 256 = 3 → WordDone k s t { c with epc := c.sreg (scaF v 13 5), pc := c.pc + 64 } []) ∧
        ((scaB v c).toNat % 256 = 6 → WordDone k s t { c with escratch := c.sreg (scaF v 13 5), pc := c.pc + 64 } []))

/-- R196, R203, R489, R490: a load updates its base register and then writes what it reads; it changes no memory. A load
that the region checker refuses reads all ones and is reported. AUPD updates the base alone; FENCE, once nothing of the
core is outstanding, changes nothing. -/
def Obligations.Loads : Prop :=
  ∀ (k : CoreId) (w : IWord) (s : State), s.wf = true →
    (∀ row ∈ ([(Instr.ld8, 0x01, 1, fun c i x => c.setS i (BitVec.ofNat 64 x)), (.ld16, 0x02, 2, fun c i x => c.setS i (BitVec.ofNat 64 x)),
        (.ld32, 0x03, 4, fun c i x => c.setS i (BitVec.ofNat 64 x)), (.ld64, 0x04, 8, fun c i x => c.setS i (BitVec.ofNat 64 x)),
        (.lds8, 0x05, 1, fun c i x => c.setS i ((BitVec.ofNat 8 x).signExtend 64)), (.lds16, 0x06, 2, fun c i x => c.setS i ((BitVec.ofNat 16 x).signExtend 64)),
        (.lds32, 0x07, 4, fun c i x => c.setS i ((BitVec.ofNat 32 x).signExtend 64)), (.vld, 0x10, 512, fun c i x => c.setV i (BitVec.ofNat 4096 x)),
        (.pld, 0x14, 64, fun c i x => c.setP (i % 8) (BitVec.ofNat 512 x))] :
          List ((CoreId → IWord → Instr) × Nat × Nat × (CoreSt → Nat → Nat → CoreSt))),
      let v := withAdr row.2.1 w
      let c := core s k
      let ea := (adrEa v c).1.toNat
      let n := row.2.2.1
      issues s k v = true → wordOps v = [0, row.2.1, 0, 0, 0, 0] →
      (onDieOk (entryState k v s) k false ea n = true → ∃ t, exec (row.1 k w) s = .next t ∧
        WordDone k (arrived k v s) t { row.2.2.2 (baseUpdated v c) (adrF v 6 5) (leNat (s.bytes ea n)) with pc := c.pc + 64 } []) ∧
      (decodedRange ea n = true → accessOk (entryState k v s) (.core k) false ea n = false → ∃ t, exec (row.1 k w) s = .next t ∧
        core t k = { row.2.2.2 (baseUpdated v c) (adrF v 6 5) (2 ^ (8 * n) - 1) with pc := c.pc + 64 } ∧
        t.selv = (regionEvent (.core k) ea false s).selv ∧ ∀ p : Part, p ∉ [.regs, .cores, .trace, .selv] → p.same (arrived k v s) t) ∧
      (decodedRange ea n = false → exec (row.1 k w) s = .next (s.leave 15).settle) ∧
      (∀ t : State, t.Kept → exec (row.1 k w) s = .next t → t.mem = s.mem)) ∧
    (let v := withAdr 0x18 w;
      issues s k v = true → wordOps v = [0, 0x18, 0, 0, 0, 0] →
      ∃ t, exec (.aupd k w) s = .next t ∧ WordDone k s t { baseUpdated v (core s k) with pc := (core s k).pc + 64 } []) ∧
    (let v := withAdr 0x22 w;
      issues s k v = true → wordOps v = [0, 0x22, 0, 0, 0, 0] →
      (core s k).dma = [] ∧ ∃ t, exec (.fence k w) s = .next t ∧ WordDone k s t { baseUpdated v (core s k) with pc := (core s k).pc + 64 } [])

/-- R196, R203, R489, R490: a store writes its bytes, least significant first, from its effective address, and no other
byte of memory; a store that the region checker refuses changes no memory and is reported. -/
def Obligations.Stores : Prop :=
  ∀ (k : CoreId) (w : IWord) (s : State), s.wf = true →
    ∀ row ∈ ([(Instr.st8, 0x08, 1, fun c i => natLe 1 (c.sreg i).toNat), (.st16, 0x09, 2, fun c i => natLe 2 (c.sreg i).toNat),
        (.st32, 0x0A, 4, fun c i => natLe 4 (c.sreg i).toNat), (.st64, 0x0B, 8, fun c i => natLe 8 (c.sreg i).toNat),
        (.vst, 0x11, 512, fun c i => natLe 512 (c.vreg i).toNat), (.pst, 0x15, 64, fun c i => natLe 64 (c.preg (i % 8)).toNat)] :
          List ((CoreId → IWord → Instr) × Nat × Nat × (CoreSt → Nat → List Byte))),
      let v := withAdr row.2.1 w
      let c := core s k
      let ea := (adrEa v c).1.toNat
      let n := row.2.2.1
      issues s k v = true → wordOps v = [0, row.2.1, 0, 0, 0, 0] →
      (writeOutside (entryState k v s) (.core k) ea n = none → onDieOk (entryState k v s) k true ea n = true → ∃ t, exec (row.1 k w) s = .next t ∧
        t.bytes ea n = row.2.2.2 c (adrF v 16 5) ∧ core t k = { baseUpdated v c with pc := c.pc + 64 } ∧
        (∀ j : CoreId, j ≠ k → core t j = core s j) ∧ (∀ x, issueRegs k x = false → t.rd x = s.rd x) ∧
        ∀ p : Part, p ∉ [.regs, .cores, .trace, .mem] → p.same (arrived k v s) t) ∧
      (writeOutside (entryState k v s) (.core k) ea n = none → decodedRange ea n = true → accessOk (entryState k v s) (.core k) true ea n = false →
        ∃ t, exec (row.1 k w) s = .next t ∧ core t k = { baseUpdated v c with pc := c.pc + 64 } ∧ t.mem = s.mem ∧
        t.selv = (regionEvent (.core k) ea true s).selv) ∧
      (decodedRange ea n = true → ∀ r, writeOutside (entryState k v s) (.core k) ea n = some r → exec (row.1 k w) s = .next (s.leave r).settle) ∧
      (∀ t : State, t.Kept → exec (row.1 k w) s = .next t → ∀ a, a < ea ∨ ea + n ≤ a → t.byte a = s.byte a)

/-- R197: where a branch goes, relative in words or to a register with its low six bits cleared, and the link it writes.
R216: ERET goes on at EPC and leaves the handler. -/
def Obligations.Branches : Prop :=
  ∀ (k : CoreId) (w : IWord) (s : State), s.wf = true →
    (∀ row ∈ ([(Instr.branchB, 0x01, fun _ _ => true), (.beq, 0x02, fun a b => a == b), (.bne, 0x03, fun a b => a != b),
        (.blt, 0x04, fun a b => a.slt b), (.bge, 0x05, fun a b => b.sle a), (.bltu, 0x06, fun a b => a.ult b),
        (.bgeu, 0x07, fun a b => b.ule a)] : List ((CoreId → IWord → Instr) × Nat × (W64 → W64 → Bool))),
      let v := withBr row.2.1 w
      let c := core s k
      issues s k v = true → wordOps v = [0, 0, 0, 0, 0, row.2.1] →
      let p : W64 := if row.2.2 (c.sreg (brF v 5 5)) (c.sreg (brF v 10 5)) then c.pc + BitVec.ofInt 64 (brOffset v) * 64 else c.pc + 64
      ∃ t, exec (row.1 k w) s = .next t ∧ WordDone k s t { c with pc := p } []) ∧
    (let v := withBr 0x08 w
      let c := core s k
      issues s k v = true → wordOps v = [0, 0, 0, 0, 0, 0x08] →
      ∃ t, exec (.bl k w) s = .next t ∧
        WordDone k s t { c.setS (brF v 15 5) (c.pc + 64) with pc := c.pc + BitVec.ofInt 64 (brOffset v) * 64 } []) ∧
    (let v := withBr 0x09 w
      let c := core s k
      issues s k v = true → wordOps v = [0, 0, 0, 0, 0, 0x09] →
      ∃ t, exec (.bir k w) s = .next t ∧ WordDone k s t { c with pc := BitVec.ofNat 64 ((c.sreg (brF v 5 5)).toNat / 64 * 64) } []) ∧
    (let v := withBr 0x0A w
      let c := core s k
      issues s k v = true → wordOps v = [0, 0, 0, 0, 0, 0x0A] →
      ∃ t, exec (.blir k w) s = .next t ∧
        WordDone k s t { c.setS (brF v 15 5) (c.pc + 64) with pc := BitVec.ofNat 64 ((c.sreg (brF v 5 5)).toNat / 64 * 64) } []) ∧
    (let v := withBr 0x0B w
      let c := core s k
      issues s k v = true → wordOps v = [0, 0, 0, 0, 0, 0x0B] →
      s.bit (Reg.coreExcStatus k) 1 = true ∧ ∃ t, exec (.eret k w) s = .next t ∧
        WordDone k s t { c with pc := c.epc } [Reg.coreExcStatus k] ∧ t.rd (Reg.coreExcStatus k) = s.rd (Reg.coreExcStatus k) &&& ~~~2#32)

/-- R215 to R217: taking an exception records its cause, its pc, its address where the cause has one and its information,
and counts it; the core goes on at its handler, or stops where the handler is not enabled or is running already; its
registers, the other cores and memory stay. TRAP raises cause 5 with its code; ERET leaves the handler and goes on at EPC,
which SWRITE may set.
The fields of CORE_EXC_INFO that a cause does not give read 0 (log entry 12, the model's choice). -/
def Obligations.Exceptions : Prop :=
  (∀ (k : CoreId) (e : Exc) (s : State), s.wf = true → e.cause < 16 →
    let t := takeException k e s
    let x := Reg.coreExcStatus k
    t.fld x 3 4 = e.cause ∧ t.fld x 16 16 = min (s.fld x 16 16 + 1) 65535 ∧ t.rdQ (Reg.coreExcPc k) 2 = e.epc.toNat ∧
    t.rd (Reg.coreExcInfo k) = BitVec.ofNat 32 (e.field + 8 * e.queue + 2 ^ 16 * e.code) ∧
    (∃ ea : W64, (∀ a, e.addr = some a → ea = a) ∧ t.rdQ (Reg.coreExcAddr k) 2 = ea.toNat ∧
      (s.bit (Reg.coreExcCfg k) 0 = true → s.bit x 1 = false →
        core t k = { core s k with epc := e.epc, eaddr := ea, pc := BitVec.ofNat 64 (s.rdQ (Reg.coreExcHandler k) 2) } ∧
        t.bit x 1 = true ∧ t.bit x 0 = s.bit x 0 ∧ t.bit x 2 = s.bit x 2) ∧
      (s.bit (Reg.coreExcCfg k) 0 = false ∨ s.bit x 1 = true →
        core t k = { core s k with epc := e.epc, eaddr := ea } ∧ t.bit x 0 = true ∧ t.bit x 1 = s.bit x 1 ∧
        t.bit x 2 = (s.bit x 1 || s.bit x 2) ∧
        (s.bit (Reg.coreExcCfg k) 2 = true → s.msixHeld (s.fld (Reg.coreExcCfg k) 8 8) = false →
          t.out = .msix (s.fld (Reg.coreExcCfg k) 8 8) (BitVec.ofNat 64 (s.rdQ (Reg.msixTable (s.fld (Reg.coreExcCfg k) 8 8)) 2))
            (s.rd (Reg.msixTable (s.fld (Reg.coreExcCfg k) 8 8) + 8)) :: s.out))) ∧
    (∀ j : CoreId, j ≠ k → core t j = core s j) ∧ (∀ p : Part, p ∉ [.regs, .cores, .trace, .out, .freeCtr] → p.same s t)) ∧
  (∀ (k : CoreId) (w : IWord) (s : State), s.Kept → s.wf = true →
    let v := withBr 0x12 w;
    mayIssue s k = true → traceHeld s k = false → inLocal k (core s k).pc.toNat = true → wordReserved v = false → illegalField v s k = none →
    misalignField v (core s k) = none → queueRefuses k v s = false → gatherHeld v s k = false →
    ∃ t, exec (.trap k w) s = .next t ∧ t.fld (Reg.coreExcStatus k) 3 4 = 5 ∧ t.rdQ (Reg.coreExcPc k) 2 = (core s k).pc.toNat ∧
      t.rd (Reg.coreExcInfo k) = BitVec.ofNat 32 (6 + 2 ^ 16 * brF v 21 16) ∧ t.mem = s.mem) ∧
  (∀ (k : CoreId) (w : IWord) (s : State), s.wf = true →
    (issues s k (withBr 0x0B w) = true → wordOps (withBr 0x0B w) = [0, 0, 0, 0, 0, 0x0B] → ∃ t, exec (.eret k w) s = .next t ∧
      t.bit (Reg.coreExcStatus k) 1 = false ∧ (core t k).pc = (core s k).epc) ∧
    (issues s k (withSca 0x31 w) = true → wordOps (withSca 0x31 w) = [0x31, 0, 0, 0, 0, 0] → (scaB (withSca 0x31 w) (core s k)).toNat % 256 = 3 →
      ∃ t, exec (.swrite k w) s = .next t ∧ (core t k).epc = (core s k).sreg (scaF (withSca 0x31 w) 13 5)))

/-! ### Vectors and arrays -/

/-- R284 to R304, R333 to R338: a vector operation writes the results and sets the flags that its lanes give (the operation
of its row, on the registers as they were before the word), and changes nothing else but, for an operation that carries residue
codes, the note of it (R313); flags are only ever set (R314). -/
def Obligations.VectorOperations : Prop :=
  ∀ (k : CoreId) (w : IWord) (s : State), s.wf = true →
    ∀ row ∈ ([(Instr.vadd, 0x10, vecAdd), (.vsub, 0x11, vecSub), (.vmul, 0x12, vecMul), (.vmulh, 0x13, vecMulh), (.vfma, 0x14, vecFma),
        (.vmin, 0x15, vecMin), (.vmax, 0x16, vecMax), (.vabs, 0x17, vecAbs), (.vneg, 0x18, vecNeg), (.vand, 0x19, vecAnd),
        (.vor, 0x1A, vecOr), (.vxor, 0x1B, vecXor), (.vnot, 0x1C, vecNot), (.vshl, 0x1D, vecShl), (.vshr, 0x1E, vecShr),
        (.vshra, 0x1F, vecShra), (.vshrr, 0x20, vecShrr), (.vcvt, 0x21, vecCvt), (.vbcast, 0x22, vecBcast), (.vmov, 0x23, vecMov),
        (.vcmpeq, 0x30, vecCmpeq), (.vcmpne, 0x31, vecCmpne), (.vcmplt, 0x32, vecCmplt), (.vcmple, 0x33, vecCmple),
        (.vcmpgt, 0x34, vecCmpgt), (.vcmpge, 0x35, vecCmpge), (.vsel, 0x36, vecSel), (.pand, 0x40, vecPand), (.por, 0x41, vecPor),
        (.pxor, 0x42, vecPxor), (.pnot, 0x43, vecPnot), (.pcnt, 0x44, vecPcnt), (.pfirst, 0x45, vecPfirst), (.vrsum, 0x50, vecRsum),
        (.vrmax, 0x51, vecRmax), (.vrmin, 0x52, vecRmin), (.vrargmax, 0x53, vecRargmax), (.vpermb, 0x60, vecPermb),
        (.vpermw, 0x61, vecPermw), (.vshuf, 0x62, vecShuf), (.vdeal, 0x63, vecDeal), (.vpack, 0x64, vecPack), (.vunpkl, 0x65, vecUnpkl),
        (.vunpkh, 0x66, vecUnpkh), (.vrot, 0x67, vecRot), (.vcmpx, 0x70, vecCmpx), (.vtopk, 0x71, vecTopk), (.vexp, 0x80, vecExp),
        (.vrcp, 0x81, vecRcp), (.vrsqrt, 0x82, vecRsqrt), (.vsmmax, 0x83, vecSmmax), (.vsmexp, 0x84, vecSmexp), (.vsmnorm, 0x85, vecSmnorm)] :
          List ((CoreId → IWord → Instr) × Nat × (IWord → CoreSt → Writes × VecFlags))),
      let v := withVec row.2.1 w
      let c := core s k
      let c1 := core (noteResidue k v c s) k
      issues s k v = true → wordOps v = [0, 0, row.2.1, 0, 0, 0] →
      ∃ t, exec (row.1 k w) s = .next t ∧ WordDone k s t { c1.apply (row.2.2 v c).1 with pc := c.pc + 64 } [Reg.vecStatus k] ∧
        (residueOp v = false → c1 = c) ∧
        t.rd (Reg.vecStatus k) = s.rd (Reg.vecStatus k) ||| (row.2.2 v c).2.word

/-- R305 to R308: a gather reads each unmasked lane from its address and changes no memory; a scatter writes each unmasked
lane at its address, a higher lane over a lower one, and no other byte. -/
def Obligations.GatherAndScatter : Prop :=
  ∀ (k : CoreId) (w : IWord) (s : State), s.wf = true →
    (let v := withVec 0x90 w
      let c := core s k
      issues s k v = true → wordOps v = [0, 0, 0x90, 0, 0, 0] → gatherOutside k v c (entryState k v s) = none →
      ∃ t, exec (.vgath k w) s = .next t ∧ WordDone k s t { c.apply (vecGath v c s).1 with pc := c.pc + 64 } [Reg.vecStatus k, Reg.vecGathWait k]) ∧
    (let v := withVec 0x91 w
      let c := core s k
      let e := vBits v / 8
      issues s k v = true → wordOps v = [0, 0, 0x91, 0, 0, 0] → gatherOutside k v c (entryState k v s) = none →
      ∃ t, exec (.vscat k w) s = .next t ∧ core t k = { c with pc := c.pc + 64 } ∧ (∀ j : CoreId, j ≠ k → core t j = core s j) ∧
        (∀ p : Part, p ∉ [.regs, .cores, .trace, .mem] → p.same s t) ∧
        (∀ a, (∀ x ∈ gatherLanes v c, a < x.2 ∨ x.2 + e ≤ a) → t.byte a = s.byte a) ∧
        ∀ x ∈ gatherLanes v c, (∀ y ∈ gatherLanes v c, x.1 < y.1 → y.2 + e ≤ x.2 ∨ x.2 + e ≤ y.2) →
          t.bytes x.2 e = natLe e ((lanes (vBits v) (c.vreg (vVb v))).getD x.1 0))

/-- R201, R206, R230, R240: an array word puts its operation at the end of the command queues and shows the arrays as busy;
a gather-fed AOUT takes its pair group with it (R354). ASYNC, once every earlier operation of its arrays is complete, does
nothing. -/
def Obligations.ArrayWordsQueueTheirOperation : Prop :=
  ∀ (k : CoreId) (w : IWord) (s : State), s.wf = true →
    (∀ row ∈ ([(Instr.aout, 0x01, withArr 0x01), (.awld, 0x02, withArr 0x02), (.arow, 0x03, withArr 0x03), (.adrain, 0x04, withArr 0x04),
        (.aclr, 0x05, withArr 0x05), (.wread, 0x06, fun w => setWf (withArr 0x06 w) 285 4 0), (.tstep, 0x06, fun w => setWf (withArr 0x06 w) 285 4 1)] :
          List ((CoreId → IWord → Instr) × Nat × (IWord → IWord))),
      let v := row.2.2 w
      let c := core s k
      let p := arrOpOf v c
      issues s k v = true → wordOps v = [0, 0, 0, row.2.1, 0, 0] → arrOutside v (entryState k v s) k c = none →
      ((p.op == .aout && !p.srcV && inSparseWin s k p.sa) = false → ∃ t, exec (row.1 k w) s = .next t ∧
        WordDone k s t { c with arr := { c.arr with cmdq := c.arr.cmdq ++ [p] }, pc := c.pc + 64 } [Reg.arrayStatus k] ∧
        t.bit (Reg.arrayStatus k) 5 = true) ∧
      ((p.op == .aout && !p.srcV && inSparseWin s k p.sa) = true → ∃ t, exec (row.1 k w) s = .next t ∧ t.mem = s.mem ∧
        core t k = { c with arr := { c.arr with cmdq := c.arr.cmdq ++ [{ p with gather := some (gatherAt k p.sa (entryState k v s)).1 }] }, pc := c.pc + 64 } ∧
        t.bit (Reg.arrayStatus k) 5 = true)) ∧
    (let v := withArr 0x08 w
      let c := core s k
      issues s k v = true → wordOps v = [0, 0, 0, 0x08, 0, 0] →
      arrPending s k (arrF v 6 4) = false ∧ ∃ t, exec (.async k w) s = .next t ∧ WordDone k s t { c with pc := c.pc + 64 } [])

/-- R229, R232 to R237, R244, R254: the oldest queued operation begins once the sequencer is free; a stepping operation
then steps, one step an event, until its last; a clear takes effect; a drain takes its tile with it; an operation completes before
an earlier one only if that takes longer. In a frozen CCLK no step enters and nothing is cleared (R241, R358). The level falls
after the gap limit (R244, R245).

R237, R238, R272 to R278, R309, R310, R356 to R359: a drain's tile is transferred once it is ready and there is room,
is checked when it completes, and a scatter's rows enter the conflict queues and retire, each writing only its own granule. Whether
a checker has failed is a free value; a tile whose checks all hold is counted and no more, and the first failing row or column of
each axis is recorded, counted and reported.
The free value of the checkers is log entry 76, the model's choice. -/
def Obligations.ArrayEvents : Prop :=
  (∀ (k : CoreId) (s : State), s.Kept → s.cclk = true → coreState s k = 1 →
      (∀ (p : ArrOp) (rest : List ArrOp), (arrs s k).cmdq = p :: rest → (arrs s k).cur = none →
        let s' := setArr k { arrs s k with cmdq := rest } s
        (p.op = .aout ∨ p.op = .awld ∨ p.op = .arow ∨ p.op = .tstep ∧ stepsInFlight s k p.amask = false →
          (accOutside s' k p = none → exec (.arrayOpBegin k) s = .next (setArr k { arrs s' k with cur := some p } s')) ∧
          (∀ r, accOutside s' k p = some r → exec (.arrayOpBegin k) s = .next (s.leave r).settle)) ∧
        (p.op = .aclr → stepsInFlight s k p.amask = false → arrFrozen s k = false →
          exec (.arrayOpBegin k) s = .next ((maskArrs p.amask).foldl (clearArr k p) s')) ∧
        (p.op = .wread → stepsInFlight s k p.amask = false →
          exec (.arrayOpBegin k) s = .next (setArr k { arrs s' k with flight := (arrs s' k).flight ++
            [{ p with snap := (maskArrs p.amask).map fun a => (a, weightTile s' k a p.fmt) }] } s')) ∧
        (p.op = .adrain →
          (∀ g, scatterOf s' k p = .next g → exec (.arrayOpBegin k) s = .next (setArr k { arrs s' k with flight := (arrs s' k).flight ++
            [{ p with snap := (maskArrs p.amask).map fun a => (a, tileOf s' k a), gather := g.map Prod.fst, fmt := (g.map Prod.snd).getD p.fmt }] } s')) ∧
          (∀ r, scatterOf s' k p = .outside r → exec (.arrayOpBegin k) s = .next (s.leave r).settle)) ∧
        (p.op = .aclr ∨ p.op = .wread ∨ p.op = .tstep → stepsInFlight s k p.amask = true → exec (.arrayOpBegin k) s = .next s) ∧
        (p.op = .aclr → arrFrozen s k = true → exec (.arrayOpBegin k) s = .next s)) ∧
      (∀ p, (arrs s k).cur = some p → arrFrozen s k = false → exec (.arrayStep k) s = .next (runStep k p s)) ∧
      (arrFrozen s k = true → exec (.arrayStep k) s = .next s) ∧
      (∀ i, mayComplete (arrs s k).flight i = true →
        exec (.arrayOpComplete k i) s = .next (setArr k { arrs s k with flight := (arrs s k).flight.eraseIdx i } s)) ∧
      (∀ i, mayComplete (arrs s k).flight i = false → exec (.arrayOpComplete k i) s = .next s) ∧
      (∀ (l : List ArrOp) (p : ArrOp), l[0]? = some p → p.steps = true → mayComplete l 0 = true) ∧
      (∀ (p q : ArrOp), p.op = .aout → q.op = .arow → mayComplete [q, p] 1 = true ∧ mayComplete [p, q] 1 = false) ∧
      (s.bit (Reg.arrayPwr k) 8 = true → s.wf = true → ∃ t, exec (.arrayGapLimitExpiry k) s = .next t ∧
        t.fld (Reg.arrayStatus k) 0 5 = (if s.bit (Reg.arrayPwr k) 9 then s.fld (Reg.arrayStatus k) 0 5 - 2 ^ s.fld (Reg.arrayPwr k) 10 2 else 0) ∧
        ∀ p : Part, p ≠ .regs → p.same s t)) ∧
  (∀ (k : CoreId) (s : State), s.Kept → s.cclk = true → coreState s k = 1 →
      (∀ i p, (dueDrains s k).find? (fun x => drainRoom s k x.2) = some (i, p) → exec (.drainTransfer k) s = .next (transfer k i p s)) ∧
      ((dueDrains s k).find? (fun x => drainRoom s k x.2) = none → exec (.drainTransfer k) s = .next s) ∧
      (∀ (a : Fin 4) (p : ArrOp) (t : Tile), (arrs s k).flight.find? (drained s k a) = some p →
        p.gather = none → sharedReg s k = false → p.snap.find? (fun x => x.1 == a.val) = some (a.val, t) →
        let s1 := (checkTile k a t (Config.freeUpset s.freeCtr) s).tickFree
        let s2 := setArr k { arrs s1 k with tq := Tab.set (fun _ => []) (arrs s1 k).tq a.val (markComplete (tqOf s1 k a.val)) } s1
        exec (.tileComplete k a) s = .next (finishDrain k a p (s2.putB (Reg.arrayTq0 k + 0x10 * a.val) 3 false))) ∧
      (∀ x rest, (arrs s k).rows = x :: rest →
        (rowBlocked s k x = true → s.wf = true → ∃ t, exec (.scatterRowIssue k) s = .next t ∧ t.cores = s.cores ∧
          t.bit (Reg.sparseStatus k) 1 = true ∧ (t.rd (Reg.sparseFrzCq k)).toNat = min ((s.rd (Reg.sparseFrzCq k)).toNat + 1) 0xFFFFFFFF) ∧
        (rowBlocked s k x = false → exec (.scatterRowIssue k) s =
          .next (freeScatter k x.amask ((setArr k { arrs (x.parts.foldl (enterUpdate k x) s) k with rows := rest }
            (x.parts.foldl (enterUpdate k x) s)).sat (Reg.sparseRows k))))) ∧
      (∀ (b : Fin 32) u rest, cqOf s k b = u :: rest → s.wf = true → ∃ t : State, exec (.bankAdderRetire k b) s = .next t.settle ∧
        t.mem = (retire u s).mem ∧ (∀ a, (∀ e ∈ u.elems, a < u.addr + 4 * e.1 ∨ u.addr + 4 * e.1 + 4 ≤ a) → t.byte a = s.byte a) ∧
        (∀ j : CoreId, j ≠ k → core t j = core s j)) ∧
      (∀ (u : Update) (e : Nat × W32), u.elems = [e] → u.flt = false → s.wf = true →
        (retire u s).bytes (u.addr + 4 * e.1) 4 = natLe 4 (scatterComb u.how false (BitVec.ofNat 32 (leNat (s.bytes (u.addr + 4 * e.1) 4))) e.2).toNat)) ∧
  (∀ (k a : Nat) (t : Tile) (up : Upset) (s : State),
      let w := presented s k a t.paired
      (t.rowCk = true → t.colCk = true → (∀ col, ∀ i ∈ ckLines t w col, lineSpecial t w up col i = false ∧ lineFails t w up col i = false) →
        checkTile k a t up s = s.sat (Reg.arrayCk0Checked k + 0x20 * a)) ∧
      (∀ i, ckFirst t w up false = some i → ckFirst t w up true = none →
        (checkTile k a t up s).selv.inbox = s.selv.inbox ++ [.checksum k a t.t false i t.duplicate]) ∧
      (t.rowCk = true → t.duplicate = false → t.flt = false → t.paired = false → ∀ c, c < w →
        (lineFails t w (fun _ => none) false c = true ↔
          ((List.range 32).map fun r => (t.at r c).setWidth 32).foldl (· + ·) 0 ≠ ((Tab.get elem0 t.ckRow c).w64.setWidth 32 : W32))))

/-- R285, R288, R289, R291 to R293: the lanes. Integer VADD, VSUB and VMUL without saturation wrap lane by lane; a masked
lane is zero or keeps its old value. VAND, VOR, VXOR, VNOT and VMOV without a mask are operations on the whole register. A
compare of signed lanes gives each lane's bytes of its predicate. The predicate operations are bitwise, PCNT counts and PFIRST
finds the lowest.

R228, R235, R254: the arithmetic of one accumulator element. On integers a product is added modulo 2^32; INT8 operands
are signed, UINT8 operands are not; the first term of an operation without accumulation replaces the element; the other
element operations are |a − b|, (a − b)², a + b, minimum and maximum, and the count of equals.

R392: the element arithmetic of the bank units on INT8: sums and differences wrap, or clamp with sat; RELU and CLAMP. -/
def Obligations.ElementArithmetic : Prop :=
  (∀ (k : CoreId) (w : IWord) (s : State), s.wf = true →
      (∀ row ∈ ([(Instr.vadd, 0x10, fun _ x y => x + y), (.vsub, 0x11, fun _ x y => x - y), (.vmul, 0x12, fun _ x y => x * y)] :
            List ((CoreId → IWord → Instr) × Nat × ((b : Nat) → BitVec b → BitVec b → BitVec b))),
        let v := withVec row.2.1 w
        let c := core s k
        let b := vBits v
        issues s k v = true → wordOps v = [0, 0, row.2.1, 0, 0, 0] → isInt (vFmt v) = true → vSat v = false →
        ∃ t x, exec (row.1 k w) s = .next t ∧
          WordDone k s t { (core (noteResidue k v c s) k).setV (vVd v) x with pc := c.pc + 64 } [] ∧
          ∀ i, i < 4096 / b → x.extractLsb' (i * b) b =
            if masked v c b i then (if vPmZero v then 0 else (c.vreg (vVd v)).extractLsb' (i * b) b)
            else row.2.2 b ((c.vreg (vVa v)).extractLsb' (i * b) b) ((c.vreg (vVb v)).extractLsb' (i * b) b)) ∧
      (∀ row ∈ ([(Instr.vand, 0x19, fun x y => x &&& y), (.vor, 0x1A, fun x y => x ||| y), (.vxor, 0x1B, fun x y => x ^^^ y),
            (.vnot, 0x1C, fun x _ => ~~~x), (.vmov, 0x23, fun x _ => x)] : List ((CoreId → IWord → Instr) × Nat × (VReg → VReg → VReg))),
        let v := withVec row.2.1 w
        let c := core s k
        issues s k v = true → wordOps v = [0, 0, row.2.1, 0, 0, 0] → vPmEn v = false →
        ∃ t, exec (row.1 k w) s = .next t ∧
          WordDone k s t { c.setV (vVd v) (row.2.2 (c.vreg (vVa v)) (c.vreg (vVb v))) with pc := c.pc + 64 } []) ∧
      (∀ row ∈ ([(Instr.vcmpeq, 0x30, fun x y => decide (x = y)), (.vcmpne, 0x31, fun x y => decide (x ≠ y)), (.vcmplt, 0x32, fun x y => decide (x < y)),
            (.vcmple, 0x33, fun x y => decide (x ≤ y)), (.vcmpgt, 0x34, fun x y => decide (y < x)), (.vcmpge, 0x35, fun x y => decide (y ≤ x))] :
            List ((CoreId → IWord → Instr) × Nat × (Int → Int → Bool))),
        let v := withVec row.2.1 w
        let c := core s k
        let b := vBits v
        issues s k v = true → wordOps v = [0, 0, row.2.1, 0, 0, 0] → isSInt (vFmt v) = true → vPmEn v = false →
        ∃ t x, exec (row.1 k w) s = .next t ∧ WordDone k s t { c.setP (vPd v) x with pc := c.pc + 64 } [] ∧
          ∀ j, j < 512 → x.getLsbD j =
            row.2.2 ((c.vreg (vVa v)).extractLsb' (8 * j / b * b) b).toInt ((c.vreg (vVb v)).extractLsb' (8 * j / b * b) b).toInt) ∧
      (∀ row ∈ ([(Instr.pand, 0x40, fun x y => x &&& y), (.por, 0x41, fun x y => x ||| y), (.pxor, 0x42, fun x y => x ^^^ y),
            (.pnot, 0x43, fun x _ => ~~~x)] : List ((CoreId → IWord → Instr) × Nat × (PReg → PReg → PReg))),
        let v := withVec row.2.1 w
        let c := core s k
        issues s k v = true → wordOps v = [0, 0, row.2.1, 0, 0, 0] →
        ∃ t, exec (row.1 k w) s = .next t ∧
          WordDone k s t { c.setP (vPd v) (row.2.2 (c.preg (vVa v % 8)) (c.preg (vVb v % 8))) with pc := c.pc + 64 } []) ∧
      (let v := withVec 0x44 w
        let c := core s k
        issues s k v = true → wordOps v = [0, 0, 0x44, 0, 0, 0] →
        ∃ t, exec (.pcnt k w) s = .next t ∧
          WordDone k s t { c.setS (vVd v) (BitVec.ofNat 64 ((List.range 512).countP fun i => (c.preg (vVa v % 8)).getLsbD i)) with pc := c.pc + 64 } []) ∧
      (let v := withVec 0x45 w
        let c := core s k
        issues s k v = true → wordOps v = [0, 0, 0x45, 0, 0, 0] →
        ∃ t n, exec (.pfirst k w) s = .next t ∧ WordDone k s t { c.setS (vVd v) (BitVec.ofNat 64 n) with pc := c.pc + 64 } [] ∧
          n ≤ 512 ∧ (∀ i, i < n → (c.preg (vVa v % 8)).getLsbD i = false) ∧ (n < 512 → (c.preg (vVa v % 8)).getLsbD n = true))) ∧
  (∀ (acc : W32) (a b : Byte) (ax bx : Nat),
      cell 0 0 false acc a.toNat ax b.toNat bx = acc + a.signExtend 32 * b.signExtend 32 ∧
      cell 0xB 0 false acc a.toNat ax b.toNat bx = acc + a.setWidth 32 * b.setWidth 32 ∧
      cell 0 0 true acc a.toNat ax b.toNat bx = a.signExtend 32 * b.signExtend 32 ∧
      cell 0 1 false acc a.toNat ax b.toNat bx = acc + BitVec.ofInt 32 |a.toInt - b.toInt| ∧
      cell 0 2 false acc a.toNat ax b.toNat bx = acc + BitVec.ofInt 32 ((a.toInt - b.toInt) ^ 2) ∧
      (cell 0 3 false acc a.toNat ax b.toNat bx).toInt = min acc.toInt (a.toInt + b.toInt) ∧
      (cell 0 4 false acc a.toNat ax b.toNat bx).toInt = max acc.toInt (a.toInt * b.toInt) ∧
      cell 0 5 false acc a.toNat ax b.toNat bx = (if a = b then acc + 1 else acc)) ∧
  (∀ (o : BuOp) (a b : BitVec 8), o.type = 0 →
      (o.op = 0x01 → o.sat = false → buElem o a.toNat b.toNat 0 = (a + b).toNat) ∧
      (o.op = 0x02 → o.sat = false → buElem o a.toNat b.toNat 0 = (a - b).toNat) ∧
      (o.op = 0x01 → o.sat = true → ((BitVec.ofNat 8 (buElem o a.toNat b.toNat 0)).toInt = max (-128) (min 127 (a.toInt + b.toInt)))) ∧
      (o.op = 0x08 → buElem o a.toNat b.toNat 0 = if a.toInt < 0 then 0 else a.toNat) ∧
      (o.op = 0x09 → (BitVec.ofNat 8 (buElem o a.toNat b.toNat 0)).toInt =
        min (max a.toInt (BitVec.ofNat 8 o.s).toInt) (BitVec.ofNat 8 o.aux).toInt))

/-! ### Queues, waits and transfers of the cores -/

/-- R167 to R172, R177, R207 to R209: the queue operations of a core. QRES reserves the slots behind those reserved, QACQ
shows the oldest element and changes no queue, QREL releases, QCMT commits a slot it holds; the results are OK, FULL, EMPTY
or CLOSED. The slot counter of a QRES that reserves nothing is any value `x` (log entry 75). A word that its queue holds back goes on when the queue engine frees it. -/
def Obligations.CoreQueueOperations : Prop :=
  ∀ (k : CoreId) (w : IWord) (s : State), s.Kept → s.wf = true →
    (let v := withTq 0x01 w
      let c := core s k
      let q := tqQ v
      let n := tqN v
      let got (addr rest : W64) : CoreSt := (c.setS (tqRd v) addr).setS (tqRd v + 1) rest
      issues s k v = true → wordOps v = [0, 0, 0, 0, 0x01, 0] →
      (qState s q = 1 → mayProduce s k q = true → n ≤ qFree s q → ∃ t, exec (.qres k w) s = .next t ∧
        core t k = { got (BitVec.ofNat 64 (qSlot s q (qResv s q).toNat)) ((qResv s q).setWidth 64) with pc := c.pc + 64 } ∧
        qResv t q = qResv s q + BitVec.ofNat 32 n ∧ qTail t q = qTail s q ∧ qHead t q = qHead s q ∧ t.mem = s.mem ∧
        qSlots t q = qSlots s q ++ (List.range n).map fun i => ⟨((qResv s q).toNat + i) % 2 ^ 32, some (.core k), false⟩) ∧
      (qState s q = 1 → mayProduce s k q = true → qFree s q < n → tqNb v = true → ∃ (t : State) (x : W32), exec (.qres k w) s = .next t ∧
        WordDone k { s with freeCtr := t.freeCtr } t { got 0 ((1#64 <<< 60) + x.setWidth 64) with pc := c.pc + 64 } []) ∧
      (qState s q = 3 → ∃ (t : State) (x : W32), exec (.qres k w) s = .next t ∧
        WordDone k { s with freeCtr := t.freeCtr } t { got 0 ((3#64 <<< 60) + x.setWidth 64) with pc := c.pc + 64 } []) ∧
      (qState s q ≠ 1 → qState s q ≠ 3 → mayProduce s k q = true → ∃ (t : State) (x : W32), exec (.qres k w) s = .next t ∧
        WordDone k { s with freeCtr := t.freeCtr } t { got 0 ((3#64 <<< 60) + x.setWidth 64) with pc := c.pc + 64 } [Reg.queueRefused q] ∧
        (t.rd (Reg.queueRefused q)).toNat = min ((s.rd (Reg.queueRefused q)).toNat + 1) 0xFFFFFFFF)) ∧
    (let v := withTq 0x03 w
      let c := core s k
      let q := tqQ v
      let got (addr rest : W64) : CoreSt := (c.setS (tqRd v) addr).setS (tqRd v + 1) rest
      issues s k v = true → wordOps v = [0, 0, 0, 0, 0x03, 0] →
      ((qState s q = 1 ∨ qState s q = 2) → mayConsume s k q = true → qFill s q ≠ 0 → ∃ t, exec (.qacq k w) s = .next t ∧
        WordDone k s t { got (BitVec.ofNat 64 (qSlot s q (qHead s q).toNat)) (BitVec.ofNat 64 (qFill s q % 2 ^ 17 * 2 ^ 32 + (qHead s q).toNat)) with
          pc := c.pc + 64 } []) ∧
      ((qState s q = 1 ∨ qState s q = 2) → mayConsume s k q = true → qFill s q = 0 → tqNb v = true → ∃ t, exec (.qacq k w) s = .next t ∧
        WordDone k s t { got 0 (BitVec.ofNat 64 (2 * 2 ^ 60 + (qHead s q).toNat)) with pc := c.pc + 64 } []) ∧
      (qState s q = 3 ∨ qState s q = 0 ∧ mayConsume s k q = true → ∃ t, exec (.qacq k w) s = .next t ∧
        WordDone k s t { got 0 (BitVec.ofNat 64 (3 * 2 ^ 60 + qFill s q % 2 ^ 17 * 2 ^ 32 + (qHead s q).toNat)) with pc := c.pc + 64 } [])) ∧
    (let v := withTq 0x04 w
      let c := core s k
      let q := tqQ v
      let n := if tqF v 46 1 = 1 then (c.sreg (tqRs v)).toNat else tqN v
      issues s k v = true → wordOps v = [0, 0, 0, 0, 0x04, 0] → qState s q ≠ 3 → mayConsume s k q = true → n ≠ 0 → n ≤ qFill s q →
      ∃ t, exec (.qrel k w) s = .next t ∧ core t k = { c with pc := c.pc + 64 } ∧ qHead t q = qHead s q + BitVec.ofNat 32 n ∧
        qTail t q = qTail s q ∧ qResv t q = qResv s q ∧ qSlots t q = qSlots s q ∧ t.mem = s.mem) ∧
    (let v := withTq 0x02 w
      let c := core s k
      let q := tqQ v
      let n := (c.sreg (tqRs v)).toNat
      issues s k v = true → wordOps v = [0, 0, 0, 0, 0x02, 0] → qState s q ≠ 3 → mayProduce s k q = true → holdsSlot s k q n = true →
      exec (.qcmt k w) s = .next (finishWord k v c [.none, .none, .none, .none] false (qTrace k 1 v n 0 (qCommit q n (entryState k v s)))) ∧
      qTail (qCommit q n s) q = qTail s q + BitVec.ofNat 32 (passSlots ((qSlots s q).map fun x => if x.ctr = n then { x with committed := true } else x)).1 ∧
      (qCommit q n s).mem = s.mem) ∧
    (∀ x : IWord, (core s k).wait = .queue x false → wordOps x = [0, 0, 0, 0, 0x01, 0] → issues (setCore s k { core s k with wait := .none }) k x = true →
      (qState s (tqQ x) = 3 ∨ mayProduce s k (tqQ x) = true) →
      ∃ t, exec (.qresUnblock k) s = .next t ∧ exec (.qres k x) (setCore s k { core s k with wait := .none }) = .next t) ∧
    (∀ x : IWord, (core s k).wait = .queue x false → wordOps x = [0, 0, 0, 0, 0x03, 0] → issues (setCore s k { core s k with wait := .none }) k x = true →
      (qState s (tqQ x) = 3 ∨ mayConsume s k (tqQ x) = true) →
      ∃ t, exec (.qacqUnblock k) s = .next t ∧ exec (.qacq k x) (setCore s k { core s k with wait := .none }) = .next t) ∧
    (∀ x : IWord, (core s k).wait = .queue x true → wordOps x = [0, 0, 0, 0, 0x03, 0] → ready (setCore s k { core s k with wait := .none }) k x = true →
      ∃ t, exec (.qacqUnblock k) s = .next t ∧ core t k =
        { ((core s k).setS (tqRd x) 0).setS (tqRd x + 1) (BitVec.ofNat 64 (3 * 2 ^ 60 + qFill s (tqQ x) % 2 ^ 17 * 2 ^ 32 + (qHead s (tqQ x)).toNat))
          with pc := (core s k).pc + 64, wait := .none })

/-- R211, R238: the tile reads. TRD reads the head tile, TRDT the tile as the arrays hold it, TPOP drops the head tile, TSTAT
counts the complete tiles. -/
def Obligations.TileReads : Prop :=
  ∀ (k : CoreId) (w : IWord) (s : State), s.wf = true →
    (let v := withTq 0x08 w
      let c := core s k
      issues s k v = true → wordOps v = [0, 0, 0, 0, 0x08, 0] →
      ∃ t x, headTile s k (tqArr v) = some x ∧ exec (.trd k w) s = .next t ∧ WordDone k s t { c.setV (tqVd v) (tileRead v c s k x) with pc := c.pc + 64 } []) ∧
    (let v := withTq 0x09 w
      let c := core s k
      issues s k v = true → wordOps v = [0, 0, 0, 0, 0x09, 0] → ∃ t, exec (.trdt k w) s = .next t ∧
        WordDone k s t { c.setV (tqVd v) (tileRead v c s k (tileOf s k (tqArr v))) with pc := c.pc + 64 } []) ∧
    (let v := withTq 0x0A w
      let c := core s k
      issues s k v = true → wordOps v = [0, 0, 0, 0, 0x0A, 0] → ∃ t, exec (.tpop k w) s = .next t ∧
        core t k = { c with arr := { c.arr with tq := Tab.set (fun _ => []) c.arr.tq (tqArr v) ((tqOf s k (tqArr v)).drop 1) }, pc := c.pc + 64 } ∧
        t.fld (Reg.arrayTq0 k + 0x10 * tqArr v) 0 3 = ((tqOf s k (tqArr v)).drop 1).length % 8 ∧ t.mem = s.mem) ∧
    (let v := withTq 0x0B w
      let c := core s k
      let n (a : Nat) : Nat := ((tqOf s k a).filter Tile.complete).length
      issues s k v = true → wordOps v = [0, 0, 0, 0, 0x0B, 0] → ∃ t, exec (.tstat k w) s = .next t ∧
        WordDone k s t { c.setS (tqRd v) (BitVec.ofNat 64 (n 0 + 2 ^ 8 * n 1 + 2 ^ 16 * n 2 + 2 ^ 24 * n 3)) with pc := c.pc + 64 } [])

/-- R162 to R165, R188, R210: a core waits in QWAIT, SLEEP or GBAR, with the power settings it takes then; a QWAIT that
finds an element ends at once with the lowest watch slot; a core in no group passes a GBAR. An idle core asks for DOZE; it
enters a low-power state once its arrays are idle, and runs on, or restarts, when it leaves it. -/
def Obligations.WaitsAndSleep : Prop :=
  ∀ (k : CoreId) (w : IWord) (s : State), s.Kept → s.wf = true →
    let watch := (List.range 8).map fun i => s.rd (Reg.coreWatch0 k + 4 * i)
    let c := { core s k with pwr := s.rd (Reg.corePwr k), watch := watch }
    (let v := withTq 0x05 w;
      issues s k v = true → wordOps v = [0, 0, 0, 0, 0x05, 0] →
      ((watched c).any (fun x => qFill s x.2 != 0) = true → ∃ t, exec (.qwait k w) s = .next t ∧
        WordDone k s t { c.setS (tqRd v) (qwaitResult s c) with pc := c.pc + 64 } []) ∧
      ((watched c).any (fun x => qFill s x.2 != 0) = false → ∃ t, exec (.qwait k w) s = .next t ∧
        OnlyCore k s t { c with wait := .qwait c.pc (some (tqRd v)) false, nap := .awake, pc := c.pc + 64 } [] ∧ t.bit (Reg.coreStatus k) 6 = true)) ∧
    (let v := withBr 0x11 w;
      issues s k v = true → wordOps v = [0, 0, 0, 0, 0, 0x11] → ∃ t, exec (.sleep k w) s = .next t ∧
        OnlyCore k s t { c with wait := .sleep c.pc none, nap := (match sleepCode v c.pwr with | none => .awake | some x => .wanted x), pc := c.pc + 64 } []) ∧
    (let v := withBr 0x10 w;
      issues s k v = true → wordOps v = [0, 0, 0, 0, 0, 0x10] →
      (groupOf s k = none → ∃ t, exec (.gbar k w) s = .next t ∧ WordDone k s t { core s k with pc := (core s k).pc + 64 } []) ∧
      (∀ g, groupOf s k = some g → (∃ j : CoreId, j ≠ k ∧ groupOf s j = some g ∧ coreState s j = 1 ∧ inGbar s j = false) →
        ∃ t, exec (.gbar k w) s = .next t ∧
          OnlyCore k s t { core s k with wait := .barrier (core s k).pc none, pc := (core s k).pc + 64 } [] ∧ t.bit (Reg.coreStatus k) 6 = true) ∧
      (∀ g, groupOf s k = some g → (∀ j : CoreId, j ≠ k → groupOf s j = some g → coreState s j = 1 → inGbar s j = true) →
        ∃ t, exec (.gbar k w) s = .next t ∧ t.mem = s.mem ∧
          ∀ j : CoreId, groupOf s j = some g → coreState s j = 1 → (∃ a r, (core s j).wait = .barrier a r) ∨ j = k → (core t j).wait = .none)) ∧
    (s.cclk = true → coreState s k = 1 →
      ((∃ a r g, (core s k).wait = .qwait a r g) → (core s k).nap = .awake → (core s k).pwr.toNat.testBit 0 = true →
        exec (.idleDozeExpiry k) s = .next (setCore s k { core s k with nap := .wanted 1 })) ∧
      (∀ n, (core s k).nap = .wanted n → arraysIdle s k = true → (traced s k && fifoFull s k) = false → ∃ t, exec (.lowPowerEntry k) s = .next t ∧
        core t k = { core s k with nap := .entering n } ∧ t.fld (Reg.arrayStatus k) 0 5 = 0) ∧
      (∀ n, n < 8 → (core s k).nap = .entering n → ∃ t, exec (.lowPowerEntryDone k) s = .next t ∧
        core t k = { core s k with nap := .asleep } ∧ t.fld (Reg.coreStatus k) 3 3 = n) ∧
      ((core s k).nap = .exiting → corePower s k = 3 → exec (.lowPowerExitDone k) s = .next (coreStart k 1 2 s)) ∧
      ((core s k).nap = .exiting → corePower s k ≠ 3 → exec (.lowPowerExitDone k) s =
        .next (endWait k ((s.putF (Reg.coreStatus k) 3 3 0).putF (Reg.arrayStatus k) 0 5 0))))

/-- R155 to R162: a DMA word puts the transfer its descriptor describes, or a sparse job, behind the core's others; when the
transfer completes its rows have been copied, nothing outside its destinations has changed, and it is no longer the core's. A
transfer into a command window is complete when its commands are accepted or refused (R387). -/
def Obligations.DmaTransfers : Prop :=
  ∀ (k : CoreId) (s : State), s.Kept → s.wf = true →
    (∀ w : IWord,
      let v := withAdr 0x20 w
      let c := core s k
      let ea := (adrEa v c).1.toNat
      let d := dmaOf (s.bytes ea 48)
      issues s k v = true → wordOps v = [0, 0x20, 0, 0, 0, 0] → onDieOk (entryState k v s) k false ea 48 = true →
      (c.dma.length < 16) ∧
      (inSparseWin s k d.src = false → dmaOutside (entryState k v s) k { d with transpose := (transposeAt s d.dst).map fun t => t.2.2 } = none →
        ∃ t, exec (.dma k w) s = .next t ∧ WordDone k (arrived k v s) t { baseUpdated v c with
          dma := c.dma ++ [{ d with transpose := (transposeAt s d.dst).map fun t => t.2.2 }], pc := c.pc + 64 } []) ∧
      (inSparseWin s k d.src = true → onDieOk (entryState k v s) k false d.src 128 = true → ∃ t, exec (.dma k w) s = .next t ∧
        WordDone k (arrived k v s) t { baseUpdated v c with dma := c.dma ++ [{ d with job := some (s.bytes d.src 128) }], pc := c.pc + 64 }
          [Reg.sparseStatus k] ∧
        t.bit (Reg.sparseStatus k) 0 = true)) ∧
    (∀ (i : Nat) (d : Dma), s.cclk = true → (core s k).dma[i]? = some d → d.job = none → d.written = false → inWin d.dst = false →
      (dmaSrcRows d ++ dmaDstRows d).any (fun r => meterWaits s (.core k) r.1 r.2 || portHolds s k r.1 r.2
        || chanWaits s (.dma k d.src d.dst) r.1 r.2) = false →
      dmaMeets s k d = false → (dmaWrites s k d).findSome? (fun r => writeOutside s (.core k) r.1 r.2) = none →
      (1024 ≤ d.cmplQ → ∃ t, exec (.dmaComplete k i) s = .next t ∧ t.mem = ((dmaDsts s k d).foldl (dmaCopy k d) s).mem ∧
        core t k = { core s k with dma := (core s k).dma.eraseIdx i } ∧ (∀ j : CoreId, j ≠ k → core t j = core s j) ∧ t.slots = s.slots ∧
        (d.transpose = none → ∀ a, (∀ x ∈ dmaDsts s k d, ∀ r, r < d.rows → a < x + r * d.dstStride ∨ x + r * d.dstStride + d.rowLen ≤ a) →
          t.byte a = s.byte a)) ∧
      (d.cmplQ < 1024 → engWaits s (commitRange s d.cmplQ) = false →
        let s0 := engGo (commitRange s d.cmplQ) s
        let s1 := depart (.dma k d.src d.dst) ((dmaDsts s0 k d).foldl (dmaCopy k d) s0)
        let s2 := pmcCount 0x0B k (d.rowLen * d.rows) s1
        exec (.dmaComplete k i) s = .next (engCommit d.cmplQ (natLe 8 (d.tag.toNat + if d.lost then 2 ^ 32 else 0))
          (setCore s2 k { core s2 k with dma := (core s2 k).dma.eraseIdx i })).2.settle)) ∧
    (∀ (i : Nat) (d : Dma), s.cclk = true → (core s k).dma[i]? = some d → d.job = none → d.written = true →
      (portWaits s k = true → exec (.dmaComplete k i) s = .next s) ∧
      (portWaits s k = false → 1024 ≤ d.cmplQ → ∃ t, exec (.dmaComplete k i) s = .next t ∧ t.mem = s.mem ∧
        core t k = { core s k with dma := (core s k).dma.eraseIdx i }))

/-- R346 to R353, R363: the oldest sparse job of a core runs and writes its pair list, and no other byte of memory; it
completes with its count table, and is counted; one that a drain abandoned writes no count table and is not counted. -/
def Obligations.SparseJobs : Prop :=
  ∀ (k : CoreId) (s : State) (i : Nat) (d : Dma) (j : List Byte), s.Kept → s.wf = true → s.cclk = true → oldestJob s k = some (i, d, j) →
    (coreState s k = 1 → d.ran = none → d.lost = false → jobOutside k j s = none →
      (∀ row ∈ ([(Instr.matchSparse k, 1, matchSparse), (.matchDense k, 2, matchDense)] :
            List (Instr × Nat × (State → List Byte → Int × Int × Int → List (Nat × Nat)))),
        jobKind j = row.2.1 →
        exec row.1 s = .next (markRan k i (runMatch k j row.2.2 s).1 (runMatch k j row.2.2 s).2).settle ∧
        (∀ a, a < leAt j 0x28 8 ∨ leAt j 0x28 8 + 256 * leAt j 4 4 ≤ a → (runMatch k j row.2.2 s).2.byte a = s.byte a)) ∧
      (jobKind j = 3 → exec (.nzmap k) s = .next (markRan k i (0, false, 0, []) (runNzmap j s)).settle)) ∧
    (coreState s k = 1 → d.ran = none → d.lost = false → ∀ r, jobOutside k j s = some r →
      ∀ row ∈ ([(Instr.matchSparse k, 1), (.matchDense k, 2), (.nzmap k, 3)] : List (Instr × Nat)), jobKind j = row.2 →
        exec row.1 s = .next (s.leave r).settle) ∧
    (∀ x, d.ran = some x → d.lost = false → 1024 ≤ d.cmplQ → ∃ t : State, exec (.sparseJobComplete k) s = .next t.settle ∧
      (core t k).dma = (core s k).dma.eraseIdx i ∧ (t.rd (Reg.sparseJobs k)).toNat = min ((s.rd (Reg.sparseJobs k)).toNat + 1) 0xFFFFFFFF ∧
      (jobKind j = 1 ∨ jobKind j = 2 → t.mem = (s.putBytes (leAt j 0x30 8) (natLe 4 x.1 ++ natLe 4 (if x.2.1 then 1 else 0) ++ natLe 4 x.2.2.1 ++
        zeros 4 ++ x.2.2.2.flatMap fun c => natLe 4 c.1 ++ natLe 4 c.2)).mem) ∧
      (jobKind j = 3 → t.mem = s.mem)) ∧
    (d.lost = true → 1024 ≤ d.cmplQ → ∃ t, exec (.sparseJobComplete k) s = .next t ∧ (core t k).dma = (core s k).dma.eraseIdx i ∧
      t.mem = s.mem ∧ t.rd (Reg.sparseJobs k) = s.rd (Reg.sparseJobs k)) ∧
    (d.ran = none → d.lost = false → 1 ≤ jobKind j → jobKind j ≤ 3 → exec (.sparseJobComplete k) s = .next s)

/-! ### Companion memory -/

/-- R381, R382: a request for the other mode makes a channel DRAINING toward it and discards the commands that have not
started; a request while it drains changes the target; the channel enters its target once nothing runs and no access that it
had accepted waits. A channel that is UNUSED, or already in the mode, is left as it is. A ring of an ENABLED queue in a channel that
enters processor mode is outside contract (R181). -/
def Obligations.ChannelModes : Prop :=
  ∀ (c : Fin 48) (s : State), s.Kept → s.wf = true →
    (hostOpen s = true → ∀ row ∈ ([(.memToMemory c, 0), (.memToProcessor c, 1)] : List (Instr × Nat)),
      (chanState s c = 3 ∨ chanState s c = row.2 → exec row.1 s = .next s) ∧
      (chanState s c = 2 → ∃ t, exec row.1 s = .next t ∧ t.fld (Reg.memStatus c) 2 1 = row.2 ∧ chanState t c = 2 ∧ ∀ p : Part, p ≠ .regs → p.same s t) ∧
      (chanState s c = 1 - row.2 → (∀ m ∈ (chan s c).accq, (buOp m.cmd).op = 0x1F → notifyOutside s m = false) → ∃ t : State, exec row.1 s = .next t.settle ∧
        chanState t c = 2 ∧ t.fld (Reg.memStatus c) 2 1 = row.2 ∧ (chan t c).accq = [] ∧ (chan t c).running = (chan s c).running ∧
        (t.rd (Reg.memCmdDropped c)).toNat = min ((s.rd (Reg.memCmdDropped c)).toNat + (chan s c).accq.length) 0xFFFFFFFF ∧
        ((∀ m ∈ (chan s c).accq, (buOp m.cmd).op = 0x1F → inComp (notifyAddr m) = false) → ∀ a, inComp a = true → t.byte a = s.byte a))) ∧
    (hostOpen s = true → exec (.bar0Write (BitVec.ofNat 26 (Reg.memCtrl c)) .b32 3#64 false) s = exec (.memToMemory c) s) ∧
    (s.cclk = true → chanState s c = 2 → (chan s c).running = [] → (chan s c).barriers = [] →
      (s.fld (Reg.memStatus c) 2 1 = 0 ∨ ringIn s c = false → ∃ t, exec (.channelDrainComplete c) s = .next t ∧
        chanState t c = s.fld (Reg.memStatus c) 2 1 ∧ ∀ p : Part, p ≠ .regs → p.same s t) ∧
      (s.fld (Reg.memStatus c) 2 1 = 1 → ringIn s c = true →
        exec (.channelDrainComplete c) s = .next ((s.leave 181).putF (Reg.memStatus c) 0 2 1).settle)) ∧
    (s.cclk = true → chanState s c = 2 → (chan s c).running ≠ [] ∨ (chan s c).barriers ≠ [] → exec (.channelDrainComplete c) s = .next s) ∧
    (∀ (d : Fin 12) (x : BitVec 8), s.tclk = true → s.bistDone = true → c.val / 4 = d.val → ∃ t, exec (.memTempSample d x) s = .next t ∧
      t.fld (Reg.memTemp c) 0 8 = x.toNat ∧
      t.bit (Reg.memStatus c) 3 = (if x.toInt > 85 then true else if x.toInt ≤ 83 then false else s.bit (Reg.memStatus c) 3) ∧
      ∀ p : Part, p ≠ .regs → p.same s t)

/-- R375 to R379, R399, R489, R490: an access that does not wait is performed: a read of good words gives their bytes and
changes no memory; a write puts its bytes there and changes no other byte; an access the region checker refuses changes no
memory and is reported. Of the host's accesses that wait at a channel the first is performed in its turn (R513). -/
def Obligations.MemoryAccesses : Prop :=
  ∀ (ag : Agent) (a : W64) (s : State) (n : Nat) (bs : List Byte), s.Kept → s.wf = true → s.cclk = true → n = bs.length → 0 < n →
    inComp a.toNat = true → inComp (a.toNat + n - 1) = true → meterWaits s ag a.toNat n = false →
    chanWaits s (requesterOf ag a.toNat) a.toNat n = false →
    let s0 := depart (requesterOf ag a.toNat) s
    (ag ≠ .host → ∃ t, exec (.memoryAccess ag a (.read n)) s = .next t ∧ t.mem = s.mem ∧ t.resp = .data (busRead ag a.toNat n s0).1 ∧
      (accessOk s0 ag false a.toNat n = true →
        (∀ w, a.toNat / 8 ≤ w → w < a.toNat / 8 + wordSpan a.toNat n → healthOf s w = .good ∧ chanAvail s (chanOf s (8 * w)).1 = true) →
        t.resp = .data (s.bytes a.toNat n)) ∧
      (accessOk s0 ag false a.toNat n = false → t = (regionEvent ag a.toNat false s0).answer (.data (ffs n)))) ∧
    (ag ≠ .host → writeOutside s0 ag a.toNat n = none → ∃ t, exec (.memoryAccess ag a (.write bs)) s = .next t ∧
      (∀ x, x < a.toNat ∨ a.toNat + n ≤ x → t.byte x = s.byte x) ∧
      (accessOk s0 ag true a.toNat n = true →
        (∀ w, a.toNat / 8 ≤ w → w < a.toNat / 8 + wordSpan a.toNat n → healthOf s w = .good ∧ chanAvail s (chanOf s (8 * w)).1 = true) →
        t.bytes a.toNat n = bs) ∧
      (accessOk s0 ag true a.toNat n = false → t = regionEvent ag a.toNat true s0)) ∧
    (ag ≠ .host → ∀ r, writeOutside s0 ag a.toNat n = some r → exec (.memoryAccess ag a (.write bs)) s = .next (s.leave r).settle) ∧
    (ag = .host → ∀ rest, s.host.waiting = (a.toNat, .read n) :: rest →
      ∃ t, exec (.memoryAccess ag a (.read n)) s = .next t ∧ t.host.waiting = rest ∧ t.mem = s.mem ∧
        ∃ d, t.resp = .data d) ∧
    (ag = .host → ∀ rest, s.host.waiting = (a.toNat, .write bs) :: rest →
      writeOutside (depart (.host a.toNat) { s with host := { s.host with waiting := rest } }) .host a.toNat n = none →
      ∃ t, exec (.memoryAccess ag a (.write bs)) s = .next t ∧ t.host.waiting = rest ∧
        ∀ x, x < a.toNat ∨ a.toNat + n ≤ x → t.byte x = s.byte x)

/-- R386 to R398: a command is submitted by the write of the last word of its slot, is accepted or refused, starts in order
once its units are idle, writes its destination and nothing else, and completes; a NOTIFY writes its tag once nothing before
it is left. -/
def Obligations.BankUnits : Prop :=
  ∀ (c : Fin 48) (s : State), s.Kept → s.wf = true → s.cclk = true →
    (∀ (p : CoreId) (slot : Fin 64) (w3 : W64), chanAvail s c = true →
      accessOk s (.core p) true (winBase + c * 0x100000 + p * 0x1000 + slot * 32 + 0x18) 8 = true →
      ∃ t, exec (.commandSubmit c p slot w3) s = .next t ∧ t.mem = s.mem ∧ (chan t c).accq = (chan s c).accq ∧
        (chanRefuses s c = false →
          (chan t c).waiting = (chan s c).waiting ++ [⟨BitVec.ofNat 256 (leNat (slotBytes (stageBytes (chan s c) (p * 0x1000 + slot * 32 + 0x18)
            (natLe 8 w3.toNat)) (p * 0x1000 + slot * 32))), p⟩]) ∧
        (chanRefuses s c = true → (chan t c).waiting = (chan s c).waiting ∧ t.bit (Reg.memStatus c) 5 = true ∧
          (t.rd (Reg.memCmdRefused c)).toNat = min ((s.rd (Reg.memCmdRefused c)).toNat + 1) 0xFFFFFFFF)) ∧
    (∀ m l, (chan s c).waiting = m :: l →
      (chanRefuses s c = true → ∃ t, exec (.commandAccept c) s = .next t ∧ (chan t c).waiting = l ∧ (chan t c).accq = (chan s c).accq ∧
        t.bit (Reg.memStatus c) 5 = true ∧ (t.rd (Reg.memCmdRefused c)).toNat = min ((s.rd (Reg.memCmdRefused c)).toNat + 1) 0xFFFFFFFF) ∧
      (chanRefuses s c = false → 64 ≤ (chan s c).accq.length → exec (.commandAccept c) s = .next s) ∧
      (chanRefuses s c = false → (chan s c).accq.length < 64 → ∃ t, exec (.commandAccept c) s = .next t ∧ (chan t c).waiting = l ∧
        (chan t c).accq = (if buBad m.cmd then (chan s c).accq else (chan s c).accq ++ [m]) ∧
        (t.rd (Reg.memCmdAccepted c)).toNat = min ((s.rd (Reg.memCmdAccepted c)).toNat + 1) 0xFFFFFFFF ∧
        (buBad m.cmd = true → (t.rd (Reg.memBadCmd c)).toNat = min ((s.rd (Reg.memBadCmd c)).toNat + 1) 0xFFFFFFFF))) ∧
    (chanRefuses s c = true ↔ chanState s c ≠ 1 ∨ s.pins.pfN = false) ∧
    (∀ m l, (chan s c).accq = m :: l → buIdle s c (buOp m.cmd) = true → noBarrier s c = true → buBad m.cmd = false →
      ∀ row ∈ ([(.bankUnitAdd c, 0x01, buWords c), (.bankUnitSub c, 0x02, buWords c), (.bankUnitMul c, 0x03, buWords c), (.madd c, 0x04, buWords c),
          (.relu c, 0x08, buWords c), (.bankUnitClamp c, 0x09, buWords c), (.lut c, 0x0A, buLut c), (.bsadd c, 0x10, buBits false c),
          (.bsmul c, 0x11, buBits true c), (.moveBu c, 0x18, buMove c)] : List (Instr × Nat × (BuOp → State → State))),
        ((buOp m.cmd).op = row.2.1 → ∃ t, exec row.1 s = .next t ∧ t = memSync c (row.2.2 (buOp m.cmd) (takeFront c [m] s)) ∧
          (chan t c).accq = l ∧ (chan t c).running = (chan s c).running ++ [m] ∧
          ∀ a, (∀ d ∈ buDest s c (buOp m.cmd), a < d ∨ d + 256 ≤ a) → t.byte a = s.byte a) ∧
        ((buOp m.cmd).op ≠ row.2.1 → exec row.1 s = .next s)) ∧
    (noBarrier s c = false → exec (.relu c) s = .next s ∧ exec (.notify c) s = .next s) ∧
    (∀ m l, (chan s c).accq = m :: l → (buOp m.cmd).op = 0x1F → (chan s c).running = [] → noBarrier s c = true → notifyOutside s m = false →
      ∃ t : State, exec (.notify c) s = .next t.settle ∧ (chan t c).accq = l ∧ t.mem = (s.putBytes (notifyAddr m) (natLe 8 (notifyTag m))).mem ∧
        (t.rd (Reg.memCmdDone c)).toNat = min ((s.rd (Reg.memCmdDone c)).toNat + 1) 0xFFFFFFFF) ∧
    (∀ (u : Fin 8) (m : BuCmd), (chan s c).running.find? (fun r => (buOp r.cmd).unit == u.val) = some m →
      ∃ t, exec (.bankUnitComplete c u) s = .next t ∧ (chan t c).running = (chan s c).running.erase m ∧ t.mem = s.mem ∧
        (t.rd (Reg.memCmdDone c)).toNat = min ((s.rd (Reg.memCmdDone c)).toNat + 1) 0xFFFFFFFF)

/-! ### The embedding engine -/

/-- R408 to R412, R430, R431: the request queue next in turn is taken, LOOKUP and GRAD alike; a request of a table or a partition
that is not the engine's, or of a malformed element, is refused and its element released; one that is in order becomes a
piece of work, its rows valued or asked of other chips. A ready request writes its result and commits its completion. A
request whose ranges lie outside the regions, or whose queue is not the engine's, is outside contract. -/
def Obligations.EmbeddingRequests : Prop :=
  ∀ (s : State), s.Kept → s.wf = true → s.cclk = true →
    (∀ (i : Fin 8) (q p : Nat) (e : List Byte) (grad : Bool), s.pins.pfN = true → nextReq s = some i.val → s.fld Reg.embStatus 8 8 ≠ 64 →
      s.emb.reqQ.getD i.val 0xFFFF = q →
      let c : Instr := if grad then .embGrad i else .embLookup i
      (qCons s q ≠ 3 ∨ qEsize s q < 72 → exec c s = .next (s.leave 430).settle) ∧
      (qCons s q = 3 → 72 ≤ qEsize s q → qPeek s q = some e → queuePart s q = some p → (leAt e 6 1 % 4 = 1 ↔ grad = true) →
        let rs := takeRange s q ++ requestRanges s q p e
        engWaits s rs = false →
        let s0 := qTake q { engGo rs s with emb := { (engGo rs s).emb with turn := (i.val + 1) % 8 } }
        let s1 := (takeNum s0).2
        (embTab s1 (leAt e 0 2) = none →
          exec c s = .next ((putJob { newJob s1 s0.emb.nextId p 0 0 e with refused := true } s1).putB Reg.embStatus 1 true).settle) ∧
        (∀ x, embTab s1 (leAt e 0 2) = some x →
          let j := newJob s1 s0.emb.nextId p (s1.fld (Reg.embTabCur (leAt e 0 2)) 0 2) x.dim e
          let bad := x.partMask.testBit p = false ∨ leAt e 2 2 = 0 ∨ 256 < leAt e 2 2 ∨ qEsize s1 q < 64 + 8 * leAt e 2 2 ∨ 2 ≤ leAt e 6 1 % 4
          (bad → exec c s = .next ((putJob { j with refused := true } s1).putB Reg.embStatus 1 true).settle) ∧
          (¬ bad → inOnDie (leAt e 8 8) = false ∨ inRegions s1 p (leAt e 8 8) (4 * x.dim) = false ∨
              (x.touch ≠ 0 ∧ inTabRegions s1 x x.touch ((x.rows + 7) / 8) = false) →
            exec c s = .next (s.leave 431).settle) ∧
          (¬ bad → inOnDie (leAt e 8 8) = true → inRegions s1 p (leAt e 8 8) (4 * x.dim) = true →
            (x.touch = 0 ∨ inTabRegions s1 x x.touch ((x.rows + 7) / 8) = true) →
            ∀ (g : Option (List W32)) (s2 : State) (acc : EmbAcc),
              (grad = true → s2 = (busRead j.agent (leAt e 8 8) (4 * x.dim) s1).2 ∧
                g = some ((List.range x.dim).map fun i => BitVec.ofNat 32 (leAt (busRead j.agent (leAt e 8 8) (4 * x.dim) s1).1 (4 * i) 4))) →
              (grad = false → s2 = s1 ∧ g = none) →
              (indexRecs e (leAt e 2 2)).foldl (takeIndex x ((leAt e 6 1).testBit 2)) ⟨{ j with grad := g }, [], false, s2⟩ = acc →
              (acc.outside = true → exec c s = .next (s.leave 431).settle) ∧
              (acc.outside = false →
                let r := (List.range 16).foldl (askChip acc.others) (acc.job, acc.s)
                exec c s = .next (putJob r.1.settle r.2).settle))))) ∧
    (∀ (r : BitVec 16) (j : EmbJob), s.emb.jobs.find? (fun j => j.id = r.toNat ∧ j.served = none) = some j → j.ready = true →
      let result := if j.refused || j.grad.isSome then [] else (pooled s.warp.chip j).flatMap fun w => natLe 4 w.toNat
      let rs := (j.agent, j.out, result.length) ::
        if j.replyQ ≠ 0xFFFF ∧ j.replyQ < 1024 ∧ (queuePart s j.replyQ).isSome = true then commitRange s j.replyQ else []
      engWaits s rs = false →
      let s1 := if result.isEmpty then engGo rs s else engWrite [] j.agent j.out result (engGo rs s)
      (j.replyQ = 0xFFFF → exec (.embRequestComplete r) s = .next (dropJob j s1).settle) ∧
      (j.replyQ < 1024 → (queuePart s j.replyQ).isSome = true → (engCommit j.replyQ (completion j) s1).1 = true →
        exec (.embRequestComplete r) s = .next (dropJob j (engCommit j.replyQ (completion j) s1).2).settle) ∧
      (completion j).length = 32 ∧ (completion j).take 8 = natLe 8 j.tag.toNat)

/-- R411, R414, R416, R418, R421 to R423, R443: sub-requests are served and answered, and returned partials taken, or sent
on when they are another chip's; a partial that does not come is flagged; a table's current slot changes only to a valid
one; a load window ends with its counts latched; a fence waits for the work there is; the redirects are cleared. -/
def Obligations.EmbeddingMessagesAndRegisters : Prop :=
  ∀ (s : State), s.Kept → s.wf = true →
    (∀ m : SubMsg, m.dst.toNat ≠ s.warp.chip → s.tclk = true →
      exec (.embSub m) s = .next (msgTakenAny 1 (forwardTo m.dst.toNat 1 (subSize m) (.sub m.dst.toNat m) s)).settle) ∧
    (∀ m : SubMsg, m.dst.toNat = s.warp.chip → s.cclk = true → embTab s m.table.toNat = none → exec (.embSub m) s = .next (s.leave 429).settle) ∧
    (∀ (m : SubMsg) (x : EmbTab), m.dst.toNat = s.warp.chip → s.cclk = true → embTab s m.table.toNat = some x →
      (m.dim ≠ x.dim → exec (.embSub m) s = .next (s.leave 429).settle) ∧
      (m.dim = x.dim → x.touch ≠ 0 → inTabRegions s x x.touch ((x.rows + 7) / 8) = false → exec (.embSub m) s = .next (s.leave 431).settle) ∧
      (m.dim = x.dim → (x.touch = 0 ∨ inTabRegions s x x.touch ((x.rows + 7) / 8) = true) →
        let rs := ((m.recs.flatMap (subRanges s x m)).map fun r => (Agent.chain, r.1, r.2)) ++ sampleRange s
        engWaits s rs = false →
        let s0 := engGo rs s
        let j : EmbJob := { newJob (takeNum s0).2 s0.emb.nextId 8 m.vslot x.dim [] with
          served := some (m.chip.toNat, m.req.toNat), table := m.table.toNat, hops := m.hops, grad := m.grad, supply := false }
        let r := m.recs.foldl (takeSubRec x) (j, (takeNum s0).2)
        exec (.embSub m) s = .next (msgTakenAny 1 (finishServed r.1 r.2)).settle)) ∧
    (∀ m : PartMsg, s.tclk = true →
      (m.dst.toNat ≠ s.warp.chip →
        exec (.embPart m) s = .next (msgTakenAny 2 (forwardTo m.dst.toNat 2 (32 + 4 * m.vals.length) (.part m.dst.toNat m) s))) ∧
      (m.dst.toNat = s.warp.chip → s.emb.jobs.findSome? (takePart m) = none → exec (.embPart m) s = .next (msgTakenAny 2 s)) ∧
      (∀ j, m.dst.toNat = s.warp.chip → s.emb.jobs.findSome? (takePart m) = some j →
        exec (.embPart m) s = .next (msgTakenAny 2 (finishServed j s)))) ∧
    (∀ (j : EmbJob), s.cclk = true → s.emb.jobs = [j] → j.served = none → j.waitFor ≠ [] → ∃ t, exec (.embRemoteTimeout (BitVec.ofNat 16 j.id)) s = .next t ∧
      (j.id < 65536 → t.bit Reg.embStatus 2 = true ∧ t.emb.jobs = [{ j with remoteFail := true }.giveUp])) ∧
    (∀ (j : EmbJob) (m : PartMsg), takePart m j.giveUp = none) ∧
    (∀ (t : Fin 256) (v : Fin 4), hostOpen s = true →
      (s.bit (Reg.embTabStatus t) v = true → ∃ u, exec (.embTabCurWrite t v) s = .next u ∧ u.rd (Reg.embTabCur t) = BitVec.ofNat 32 v.val ∧
        (∀ a, a ≠ Reg.embTabCur t → u.rd a = s.rd a) ∧ ∀ p : Part, p ≠ .regs → p.same s u) ∧
      (s.bit (Reg.embTabStatus t) v = false → ∃ u, exec (.embTabCurWrite t v) s = .next u ∧ u.bit Reg.embStatus 4 = true ∧
        (∀ a, a ≠ Reg.embStatus → u.rd a = s.rd a) ∧ ∀ p : Part, p ≠ .regs → p.same s u)) ∧
    (s.tclk = true → s.pos.msDue = true → ∃ t, exec .embLoadWindowEnd s = .next t ∧ t.rd Reg.embWindow = s.rd Reg.embWindow + 1 ∧
      t.emb = { s.emb with load := [], remote := [], sent := [] } ∧ t.pos = { s.pos with msDue := false } ∧
      ∀ p : Part, p ∉ [.regs, .pos, .emb] → p.same s t) ∧
    (s.tclk = true → s.pos.msDue = false → exec .embLoadWindowEnd s = .next s) ∧
    (hostOpen s = true → ∃ t, exec .embFence s = .next t ∧ t.emb = { s.emb with fence := s.emb.jobs.map fun j => j.id } ∧
      t.bit Reg.embStatus 0 = !s.emb.jobs.isEmpty ∧ ∀ p : Part, p ∉ [.regs, .emb] → p.same s t) ∧
    (hostOpen s = true → ∃ t, exec .clearRedirects s = .next t ∧ t.emb = { s.emb with redirects := [] } ∧ t.rd Reg.embRedirUsed = 0 ∧
      (∀ a, a ≠ Reg.embRedirUsed → t.rd a = s.rd a) ∧ ∀ p : Part, p ∉ [.regs, .emb] → p.same s t)

/-- R10, R420, R454: a move that may start sends the row, or copies it within the chip, and go reads 1 until it ends; one while
another is in progress is BUSY; the arriving row is stored and answered; the answer installs the redirect, or ends the move,
as does its timeout. -/
def Obligations.RowMoves : Prop :=
  ∀ (s : State), s.Kept → s.wf = true →
    (hostOpen s = true → moveRuns s = true → ∃ t, exec .embMoveGo s = .next t ∧ t.fld Reg.embMoveStatus 0 4 = 3 ∧ moveRuns t = true ∧
      (∀ a, a ≠ Reg.embMoveStatus → t.rd a = s.rd a) ∧ ∀ p : Part, p ≠ .regs → p.same s t) ∧
    (hostOpen s = true → moveRuns s = false → s.emb.move = none → ∀ (x : EmbTab) (d : DirEnt) (l : Nat),
      let s0 := s.putB Reg.embMoveCtrl 0 true
      let tn := s.fld Reg.embMoveTable 0 8
      let v := s.fld Reg.embMoveTable 8 2
      let row := (s.rd Reg.embMoveRow).toNat
      let dst := s.fld Reg.embMoveDst 0 4
      let mv : Move := ⟨tn, v, row, dst, (s.rd Reg.embMoveDstSlot).toNat, s.emb.moveNum + 1⟩
      let rs := moveRanges s0 x mv (dirRead .host x v row s0).1
      let s1 := (dirRead .host x v row (engGo rs s0)).2
      let body := busRead .host (x.row v d.tier d.slot) (x.stride d.tier) s1
      (embTab s tn = none → exec .embMoveGo s = .next (moveEnd 1 s0).settle) ∧
      (embTab s tn = some x → x.rows ≤ row → exec .embMoveGo s = .next (moveEnd 1 s0).settle) ∧
      (embTab s tn = some x → row < x.rows → engWaits s0 rs = true →
        exec .embMoveGo s = .next (engHold rs s0).settle) ∧
      (embTab s tn = some x → row < x.rows → engWaits s0 rs = false → (dirRead .host x v row (engGo rs s0)).1 = d →
        (d.tier = 3 ∨ d.chip ≠ s1.warp.chip → exec .embMoveGo s = .next (moveEnd 1 s1).settle) ∧
        (d.tier ≠ 3 → d.chip = s1.warp.chip → 1024 ≤ s1.emb.redirects.length → exec .embMoveGo s = .next (moveEnd 2 s1).settle) ∧
        (d.tier ≠ 3 → d.chip = s.warp.chip → s.emb.redirects.length < 1024 → dst ≠ s.warp.chip → routeOf s dst = some l → linkState s l = 1 →
          ∃ (t : State) (m : MoveMsg), exec .embMoveGo s = .next t.settle ∧ t.mem = s.mem ∧ moveRuns t = true ∧
            t.emb = { s.emb with moveNum := s.emb.moveNum + 1, move := some mv } ∧
            (link t l).tx = (link s l).tx ++ [⟨2, 32 + m.body.length, 0, none, .move dst m, none⟩] ∧ m.num = s.emb.moveNum + 1 ∧
            m.row.toNat = row ∧ m.body = body.1) ∧
        (d.tier ≠ 3 → d.chip = s.warp.chip → s.emb.redirects.length < 1024 → dst = s.warp.chip →
          ∃ t : State, exec .embMoveGo s = .next t.settle ∧
            t = moveInstall x mv (engWrite [] .host (x.row v d.tier mv.slot) body.1 { body.2 with emb := { body.2.emb with moveNum := mv.num } }) ∧
            moveRuns t = false ∧ t.emb.move = none ∧ t.fld Reg.embMoveStatus 0 4 = 0 ∧
            t.bit Reg.embMoveStatus 4 = true ∧
            t.emb.redirects = (s.emb.redirects.filter fun r => ¬ (r.table = tn ∧ r.vslot = v ∧ r.row = row)) ++ [⟨tn, v, row, dst, mv.slot⟩]))) ∧
    (∀ m : MoveMsg,
      (m.dst.toNat ≠ s.warp.chip → s.tclk = true → exec (.embMoveMessage m) s =
        .next (msgTakenAny 2 (forwardTo m.dst.toNat 2 (32 + m.body.length) (.move m.dst.toNat m) s)).settle) ∧
      (∀ x : EmbTab, m.dst.toNat = s.warp.chip → s.cclk = true → embTab s m.table.toNat = some x →
        let a := x.row m.vslot m.tier.toNat m.dstSlot.toNat
        let n := x.stride m.tier.toNat
        engWaits s [(.chain, a, n)] = false →
        let s0 := engGo [(.chain, a, n)] s
        (m.tier ≠ 3 → exec (.embMoveMessage m) s =
          .next (msgTakenAny 2 (sendTo m.src.toNat 2 32 (.moveAck m.src.toNat m.num (!accessOk s0 .chain true a n)) none
            (engWrite [] .chain a (fit n m.body) s0)).2).settle) ∧
        (m.tier = 3 → exec (.embMoveMessage m) s =
          .next (msgTakenAny 2 (sendTo m.src.toNat 2 32 (.moveAck m.src.toNat m.num true) none s0).2).settle)) ∧
      (m.dst.toNat = s.warp.chip → s.cclk = true → embTab s m.table.toNat = none → exec (.embMoveMessage m) s =
        .next (msgTakenAny 2 (sendTo m.src.toNat 2 32 (.moveAck m.src.toNat m.num true) none s).2).settle)) ∧
    (∀ (dst : BitVec 4) (num : W32) (refused : Bool),
      (dst.toNat ≠ s.warp.chip → s.tclk = true →
        exec (.moveAck dst num refused) s = .next (msgTakenAny 2 (forwardTo dst.toNat 2 32 (.moveAck dst.toNat num refused) s)).settle) ∧
      (∀ mv : Move, dst.toNat = s.warp.chip → s.cclk = true → s.emb.move = some mv →
        (mv.num ≠ num → exec (.moveAck dst num refused) s = .next (msgTakenAny 2 s).settle) ∧
        (mv.num = num → engWaits s (resumeRanges s mv (!refused)) = false →
          (refused = true → exec (.moveAck dst num refused) s =
            .next (msgTakenAny 2 (resumeWaiting mv false (moveEnd 4 (engGo (resumeRanges s mv false) s)))).settle) ∧
          (∀ x, refused = false → embTab s mv.table = some x → s.emb.jobs = [] → ∃ t : State,
            exec (.moveAck dst num refused) s = .next t.settle ∧ moveRuns t = false ∧ t.emb.move = none ∧
            t.fld Reg.embMoveStatus 0 4 = 0 ∧ t.bit Reg.embMoveStatus 4 = true ∧
            t.emb.redirects = (s.emb.redirects.filter fun r => ¬ (r.table = mv.table ∧ r.vslot = mv.vslot ∧ r.row = mv.row)) ++
              [⟨mv.table, mv.vslot, mv.row, mv.chip, mv.slot⟩])))) ∧
    (∀ mv : Move, s.tclk = true → s.emb.move = some mv → engWaits s (resumeRanges s mv false) = false →
      exec .embMoveTimeout s = .next (resumeWaiting mv false (moveEnd 4 (engGo (resumeRanges s mv false) s))).settle) ∧
    (s.emb.move = none → exec .embMoveTimeout s = .next s)

/-! ### The chain -/

/-- R436 to R439, R461: a link trains phase by phase, waits after a phase that fails or a width it may not take, retries, and
comes UP with the peer's buffers as credit; each end tells the other who it is and what its buffers hold; a mismatched peer is shown and asked again. A lost signal, a silence or a
request to retrain brings an UP link down, is counted, and an ENABLED link trains again, but not while PF_N is low; a drain ends OFF, or ENABLED again,
with its undelivered bolts counted.
When a link that fell while PF_N was low trains is log entry 61, the model's choice. -/
def Obligations.LinkTraining : Prop :=
  ∀ (l : Fin 6) (s : State), s.Kept → s.wf = true →
    (s.tclk = true → linkState s l = 1 → ∀ i : TrainInfo,
      ((link s l).phase = .signal → exec (.linkTrainPhaseDone l i) s = .next (setPhase l .align s)) ∧
      ((link s l).phase = .align → alignWidth s l i.lanes = none → exec (.linkTrainPhaseDone l i) s = .next (setPhase l .waiting s)) ∧
      (∀ w nar, (link s l).phase = .align → alignWidth s l i.lanes = some (w, nar) → ∃ t, exec (.linkTrainPhaseDone l i) s = .next t ∧
        t.fld (Reg.linkStatus l) 3 2 = 1 ∧ t.fld (Reg.linkStatus l) 5 2 = w ∧ t.bit (Reg.linkStatus l) 7 = nar ∧ t.bit (Reg.linkStatus l) 9 = i.laneRev ∧
        t.chain = (setLink s l { link s l with phase := .fec }).chain) ∧
      ((link s l).phase = .fec → exec (.linkTrainPhaseDone l i) s =
        .next ((setPhase l .peer s).emit (.peer l s.warp.chip s.warp.image))) ∧
      ((link s l).phase = .peer ∨ (link s l).phase = .mismatch →
        let c : Instr := if (link s l).phase = .peer then .linkTrainPhaseDone l i else .peerRetry l i
        let p := s.warp.peers.getD l (0xFF, 0xFF)
        ∃ t, exec c s = .next t ∧ t.rd (Reg.linkPeer l) = BitVec.ofNat 32 (i.peerChip.toNat + 16 * i.peerLink.toNat + 128) ∧
          (p = (i.peerChip.toNat, i.peerLink.toNat) → i.peerNoImage = false → t.chain = (setLink s l { link s l with phase := .credit }).chain ∧
            .grant l [128, 32, 64, 8] ∈ t.out ∧ ((link s l).phase = .mismatch → .peer l s.warp.chip s.warp.image ∈ t.out)) ∧
          (p ≠ (i.peerChip.toNat, i.peerLink.toNat) ∨ i.peerNoImage = true →
            t.chain = (setLink s l { link s l with phase := .mismatch }).chain ∧ t.bit (Reg.linkStatus l) 8 = true)) ∧
      ((link s l).phase = .credit → exec (.linkTrainPhaseDone l i) s = .next (linkCome l s)) ∧
      ((link s l).phase = .waiting → exec (.linkTrainRetry l) s = .next (setPhase l .signal s)) ∧
      ((link s l).phase ∈ [.signal, .align, .fec, .peer, .credit] → exec (.linkTrainTimeout l) s = .next (setPhase l .waiting s))) ∧
    (linkUp s l = true →
      (s.up = true → exec (.linkSignalLoss l) s = .next (linkFall l s)) ∧ (s.tclk = true → exec (.linkIdleTimeout l) s = .next (linkFall l s)) ∧
      (hostOpen s = true → exec (.linkRetrain l) s = .next (linkFall l s)) ∧
      (s.tclk = true → exec (.endMsg l) s = .next (msgTaken l 3 (setLink s l { link s l with peerEnd := true }))) ∧
      (linkFall l s).fld (Reg.linkStatus l) 16 16 = min (s.fld (Reg.linkStatus l) 16 16 + 1) 65535 ∧ (linkFall l s).bit (Reg.linkStatus l) 10 = true ∧
      (linkFall l s).fld (Reg.linkStatus l) 3 2 = (if linkState s l = 1 ∧ s.pins.pfN = true then 1 else 0)) ∧
    (linkUp s l = false → exec (.linkSignalLoss l) s = .next s ∧ exec (.linkIdleTimeout l) s = .next s ∧ exec (.endMsg l) s = .next s ∧
      (hostOpen s = true → exec (.linkRetrain l) s = .next s)) ∧
    (s.cclk = true → linkState s l = 2 →
      let n := ((link s l).tx.filter fun m => m.vc = 0).length
      ∃ t, exec (.linkDrainComplete l) s = .next t ∧ (t.rd (Reg.linkTxLost l)).toNat = min ((s.rd (Reg.linkTxLost l)).toNat + n) 0xFFFFFFFF ∧
        linkState t l = (if s.bit (Reg.linkStatus l) 2 then 1 else 0) ∧ 
        t.fld (Reg.linkStatus l) 3 2 = (if s.bit (Reg.linkStatus l) 2 = true ∧ s.pins.pfN = true then 1 else 0) ∧ t.mem = s.mem)

/-- R435, R440 to R442, R453, R462: a bad flit is counted and asked for again; a good one gives its acknowledgement and its
credits; a data flit in sequence is delivered and the next expected; one out of sequence is not. The next flit of the first
channel that may send goes out with its header, its bytes and its CRC and waits for its acknowledgement; a replay sends every unacknowledged flit again, and the
seventeenth in a row brings the link down. -/
def Obligations.Flits : Prop :=
  ∀ (l : Fin 6) (s : State), s.Kept → s.tclk = true → linkUp s l = true →
    (∀ f : Flit, f.bad = true →
      let s1 := s.sat (Reg.linkCrcErr l)
      exec (.flitReceive l f) s = .next (setLink s1 l { link s1 l with nak := true, ackDue := true })) ∧
    (∀ f : Flit, f.bad = false → f.nak = false →
      let s1 := if f.corrected then s.sat (Reg.linkFecCorr l) else s
      let s2 := acked l f.ackseq.toNat (setLink s1 l { link s1 l with credit := mapAt (link s1 l).credit f.cvc fun n => n + f.credits.toNat })
      (f.data = false → exec (.flitReceive l f) s = .next s2) ∧
      (f.data = true → (link s2 l).phase = .up → f.fseq.toNat ≠ (link s2 l).rxNext → exec (.flitReceive l f) s = .next (setLink s2 l { link s2 l with ackDue := true })) ∧
      (f.data = true → (link s2 l).phase = .up → f.fseq.toNat = (link s2 l).rxNext →
        let s3 := setLink s2 l { link s2 l with rxNext := ((link s2 l).rxNext + 1) % 4096, nak := false, ackDue := true }
        exec (.flitReceive l f) s = .next (if f.vc = 0 then takeBoltFlit f l s3 else bufferFlit l f.vc f.som f.eom s3))) ∧
    (∀ (vc : Fin 4) (i : Nat) (m : TxMsg), nextMsg s (link s l) vc = some i → (link s l).tx[i]? = some m →
      vcReady s (link s l) vc = true → vcFirst s (link s l) vc = true →
      ∃ t, exec (.flitTransmit l vc) s = .next t ∧ t = sendFlit l i m s ∧ t.mem = s.mem ∧
        (m.sent + 1 < m.flits →
          let f : SentFlit := ⟨(link s l).fseq, m.vc, m.msgnum.getD (link s l).nextMsg, m.sent == 0, false, flitBody s m m.sent⟩
          let h := flitHeader (link s l) f (creditReturn (link s l)).1 (creditReturn (link s l)).2.1
          t.out = .flit l (BitVec.ofNat 64 h) f.body (crc32 (natLe 8 h ++ f.body)) :: s.out)) ∧
    (∀ (x : Link) (f : SentFlit) (cvc n : Nat), f.vc < 4 → f.fseq < 4096 → f.msgnum < 2 ^ 24 → cvc < 4 → n < 256 →
      let h := flitHeader x f cvc n
      h < 2 ^ 64 ∧ fieldN h 0 1 = 1 ∧ fieldN h 1 2 = f.vc ∧ fieldN h 3 1 = f.som.toNat ∧ fieldN h 4 1 = f.eom.toNat ∧ fieldN h 5 12 = f.fseq ∧
      fieldN h 17 12 = ackSeq x ∧ fieldN h 29 1 = x.nak.toNat ∧ fieldN h 30 2 = cvc ∧ fieldN h 32 8 = n ∧
      fieldN h 40 24 = (if f.som then f.msgnum else 0)) ∧
    (∀ n ms vc, (link s l).rxWhole.getD vc [] = n :: ms → msgTaken l vc s =
      oweCredit l vc n (setLink s l { link s l with rxWhole := mapAt (link s l).rxWhole vc fun _ => ms })) ∧
    (∀ vc : Fin 4, vcReady s (link s l) vc = false ∨ vcFirst s (link s l) vc = false → exec (.flitTransmit l vc) s = .next s) ∧
    exec (.replayTimeout l) s = .next (replayAll l s) ∧
    ((link s l).replay = [] → replayAll l s = s) ∧ ((link s l).replay ≠ [] → 16 ≤ (link s l).resent → replayAll l s = linkFall l s) ∧
    (s.wf = true → (link s l).replay ≠ [] → (link s l).resent < 16 →
      (replayAll l s).chain = (setLink s l { link s l with resent := (link s l).resent + 1 }).chain ∧
      (replayAll l s).out.length = s.out.length + (link s l).replay.length ∧
      ((replayAll l s).rd (Reg.linkReplays l)).toNat = min ((s.rd (Reg.linkReplays l)).toNat + 1) 0xFFFFFFFF)

/-- R443, R445 to R451, R466: a bolt is taken from a transmit queue in turn, stamped with its source and sequence and queued for
its link, or dropped and counted; a received bolt goes on to its chip, is committed to its queue, is held while the queue
is full, or is dropped and counted for what makes it undeliverable; a held bolt goes on when its queue frees a slot, or is
dropped after its time. A queue that is not the chain engine's is outside contract. -/
def Obligations.Bolts : Prop :=
  ∀ (s : State), s.Kept → s.wf = true → s.cclk = true →
    (∀ (i q : Nat) (e : List Byte), s.pins.pfN = true →
      let n := s.chain.txq.length
      ((List.range n).map fun i => (s.chain.turn + i) % n).find? (fun i => txTakes s (s.chain.txq.getD i 0)) = some i → s.chain.txq.getD i 0 = q →
      (qCons s q ≠ 3 → exec .boltTransmit s = .next (s.leave 466).settle) ∧
      (qCons s q = 3 → qPeek s q = some e → engWaits s (takeRange s q) = false →
        let s0 := engGo (takeRange s q) s
        let s1 := qTake q { s0 with chain := { s0.chain with turn := (i + 1) % n } }
        (txBad s1 q e = true → exec .boltTransmit s = .next (s1.sat Reg.chainTxBad)) ∧
        (∀ l, txBad s1 q e = false → routeOf s1 (leAt e 1 1) = some l → linkState s1 l = 1 → ∃ t b, exec .boltTransmit s = .next t ∧ t.mem = s.mem ∧
          t.chain = { (setLink s l { link s l with tx := (link s l).tx ++ [⟨0, 80 + payloadLen e, 0, none, .bolt l b, queuePart s q⟩] }).chain with
            turn := (i + 1) % n, seqs := Tab.set (fun _ => 0) s.chain.seqs q ((Tab.get (fun _ => 0) s.chain.seqs q + 1) % 2 ^ 32) } ∧
          b.length = 80 + payloadLen e ∧ leAt b 8 4 = Tab.get (fun _ => 0) s.chain.seqs q % 2 ^ 32 ∧ leAt b 4 1 = s.warp.chip % 256 ∧
          leAt b 0x16 2 = q % 65536))) ∧
    (∀ (l : Fin 6) (b : RxBolt) (rest : List RxBolt), (link s l).rxBolts = b :: rest →
      let q := leAt b.bytes 2 2
      let room := engGo (commitRange s q) s
      (((link s l).held = false ∧ boltDup (link s l) b.msgnum = false ∧ leAt b.bytes 1 1 = s.warp.chip ∧ q < 1024 ∧ rxBound s q (leAt b.bytes 4 1) = true →
          let c := Instr.boltReceive l
          (qState s q = 3 → exec c s = .next (boltDone l false (s.sat (Reg.linkRxClosed l))).settle) ∧
          (qState s q ≠ 3 → qEsize s q < 80 + payloadLen b.bytes → exec c s = .next (boltDone l false (s.sat (Reg.linkRxTooLong l))).settle) ∧
          (qState s q = 0 ∨ qState s q = 2 → 80 + payloadLen b.bytes ≤ qEsize s q →
            exec c s = .next (boltDone l false ((s.sat (Reg.linkRxClosed l)).sat (Reg.queueRefused q))).settle) ∧
          (qState s q = 1 → 80 + payloadLen b.bytes ≤ qEsize s q → qProd s q ≠ 3 → exec c s = .next (s.leave 466).settle) ∧
          (qState s q = 1 → 80 + payloadLen b.bytes ≤ qEsize s q → qProd s q = 3 → qFree s q = 0 →
            exec c s = .next (setLink s l { link s l with held := true }).settle) ∧
          (qState s q = 1 → 80 + payloadLen b.bytes ≤ qEsize s q → qProd s q = 3 → qFree s q ≠ 0 → engWaits s (commitRange s q) = false →
            exec c s = .next (boltCommit l q b.bytes room).settle)) ∧
        ((link s l).held = false → boltDup (link s l) b.msgnum = true →
          exec (.boltReceive l) s = .next (boltDone l false (s.sat (Reg.linkRxDup l))).settle) ∧
        ((link s l).held = false → boltDup (link s l) b.msgnum = false → leAt b.bytes 1 1 = s.warp.chip → ¬(q < 1024 ∧ rxBound s q (leAt b.bytes 4 1) = true) →
          exec (.boltReceive l) s = .next (boltDone l false (s.sat (Reg.linkRxUnbound l))).settle) ∧
        (∀ k, (link s l).held = false → boltDup (link s l) b.msgnum = false → leAt b.bytes 1 1 ≠ s.warp.chip → leAt b.bytes 1 1 < 16 →
          routeOf s (leAt b.bytes 1 1) = some k → linkState s k = 1 → boltFree s k = true →
          let len := min (payloadLen b.bytes) (b.bytes.length - 80)
          exec (.boltReceive l) s = .next (boltDone l true (putTx k ⟨0, 80 + len, 0, none, .bolt k (b.bytes.take (80 + len)), none⟩ s)).settle) ∧
        ((link s l).held = false → boltDup (link s l) b.msgnum = false → leAt b.bytes 1 1 ≠ s.warp.chip → leAt b.bytes 1 1 < 16 →
          routeOf s (leAt b.bytes 1 1) = none → exec (.boltReceive l) s = .next (boltDone l false (s.sat Reg.chainTxNoroute)).settle) ∧
        ((link s l).held = true → exec (.boltReceive l) s = .next s) ∧
        ((link s l).held = true → qState s q = 1 → qProd s q = 3 → 80 + payloadLen b.bytes ≤ qEsize s q → qFree s q ≠ 0 →
          engWaits s (commitRange s q) = false → exec (.boltHoldRelease l) s = .next (boltCommit l q b.bytes room).settle) ∧
        ((link s l).held = true → qState s q = 1 → qFree s q = 0 → exec (.boltHoldRelease l) s = .next s) ∧
        ((link s l).held = true → exec (.boltHoldTimeout l) s = .next (boltDone l false (s.sat (Reg.linkRxHoldDrop l))))))

/-- R453, R455 to R460, R492: the budgets of a window; SYNC, DELAY_REQ and DELAY_RESP as they are sent and taken; picks
distributed and applied. The link delay is half the round trip and the asymmetry. -/
def Obligations.ChainTimeAndBudgets : Prop :=
  ∀ (l : Fin 6) (s : State), s.Kept →
    (s.cclk = true → ∃ t, exec (.budgetWindow l) s = .next t ∧ t.mem = s.mem ∧
      t = setLink ((List.range 8).foldl (windowOf l) s) l { link ((List.range 8).foldl (windowOf l) s) l with spent := [0, 0, 0, 0, 0, 0, 0, 0] }) ∧
    (s.tclk = true → isMaster s = true → exec .syncPeriod s = .next (sendSync (otherLinks s none) 0 s)) ∧
    (isMaster s = false → exec .syncPeriod s = .next s) ∧
    (s.tclk = true → linkUp s l = true →
      exec (.delayMeasurePeriod l) s = .next (putTx l (ctrlMsg (.delayReq l 0)) s) ∧
      (∀ t1 t2 : TStamp, exec (.delayReq l t1 t2) s = .next (putTx l (ctrlMsg (.delayResp l t1 t2 0)) (msgTaken l 3 s))) ∧
      (∀ t1 t2 t3 t4 : TStamp, exec (.delayResp l t1 t2 t3 t4) s = .next ((msgTaken l 3 s).wr (Reg.linkDelay l) (BitVec.ofInt 32
        (((stampPs t2 - stampPs t1) + (stampPs t4 - stampPs t3)) / 2 + (BitVec.ofNat 16 (s.fld (Reg.linkCfg l) 16 16)).toInt))))) ∧
    (s.wf = true → s.tclk = true → chainBound s = true → timeLink s = some l.val → linkUp s l = true → ∀ m : SyncMsg,
      let off := stampPs m.rx - (stampPs m.stamp + (s.rd (Reg.linkDelay l)).toInt)
      ∃ t : State, exec (.sync l m) s = .next t.settle ∧ t.chain.lastStep = some m.stepCount.toNat ∧ t.chain.lastLock = m.lock ∧
        (s.chain.lastStep = some m.stepCount.toNat ∨ s.chain.lastStep = none → off.natAbs < 1000000 →
          t.rd (Reg.linkOffset l) = BitVec.ofInt 32 (max (-(2 ^ 31)) (min (2 ^ 31 - 1) off)) ∧ t.pos.tb = s.pos.tb ∧ t.mem = s.mem)) ∧
    (s.tclk = true → chainBound s = true → exec .syncLossTimeout s = .next (chainUnsync s)) ∧
    (s.wf = true → s.bit Reg.timeStatus 5 = true → (chainUnsync s).bit Reg.timeStatus 5 = false ∧ (chainUnsync s).chain.syncGood = 0) ∧
    (∀ n : Fin 4, s.tclk = true → distributes s n = true → (pickOf s n).toSend = true →
      ((pickOf s n).sentAt = none ∨ ∃ x, (pickOf s n).sentAt = some x ∧ x + 128 ≤ s.pos.now) → ∃ t m, exec (.pickSend n) s = .next t ∧
        t = sendPick (otherLinks s none) m (setPick s n { pickOf s n with toSend := false, loadD := none, sentAt := some s.pos.now }) ∧
        m.counter = n ∧ m.count = BitVec.ofNat 48 (pkCount s n) ∧ m.stamp = (pickOf s n).changed ∧ m.load = (pickOf s n).loadD ∧ m.hops = 0) ∧
    (∀ m : PickMsg, s.tclk = true → linkUp s l = true →
      let s0 := msgTaken l 3 s
      let s1 := sendPick (otherLinks s0 (some l.val)) { m with hops := m.hops + 1 } s0
      (timeLink s0 ≠ some l.val → exec (.pick l m) s = .next s0.settle) ∧
      (timeLink s0 = some l.val →
        (pkChain s1 m.counter = false → exec (.pick l m) s = .next s1.settle) ∧
        (pkChain s1 m.counter = true → pickInstant s1 m < now32 s1 → exec (.pick l m) s = .next (pickTake m.counter m (s1.sat Reg.chainPickLate)).settle) ∧
        (pkChain s1 m.counter = true → now32 s1 ≤ pickInstant s1 m →
          exec (.pick l m) s = .next (setPick s1 m.counter { pickOf s1 m.counter with sched := (pickOf s1 m.counter).sched ++ [m] }).settle))) ∧
    (∀ (n : Fin 4) (m : PickMsg) (rest : List PickMsg), (pickOf s n).sched = m :: rest →
      (s.tclk = true → pkChain s n = true → pickInstant s m ≤ now32 s → exec (.pickApply n) s = .next (pickTake n m (setPick s n { pickOf s n with sched := rest })).settle) ∧
      (now32 s < pickInstant s m → exec (.pickApply n) s = .next s))

/-! ### The selvedge -/

/-- R468, R472 to R475, R502: an event whose action is SAFE latches the safe state with its cause, drives SAFE_N low, counts
and takes its time; while the safe state is latched a further event changes neither cause nor count, but is recorded. The
events of the selvedge itself, ENTER_SAFE, and the fabric's events whose action is SAFE; an event that is only counted
latches nothing. -/
def Obligations.EventsLatchTheSafeState : Prop :=
  ∀ (s : State), s.Kept → s.wf = true → s.selvUp = true →
    (∀ (temp : BitVec 8), 105 < temp.toInt →
      ∀ row ∈ ([(.lockstep, 0x20), (.selvEcc false, 0x21), (.safeClkFault, 0x22), (.dieTempSample temp, 0x04), (.enterSafe, 0x05), (.selftestSlot .wrong, 0x23)] : List (Instr × Nat)),
        (row.2 = 0x05 → hostTakes .selvedge s = true) → (row.2 = 0x23 → ∃ n, s.selv.slot = some n ∧ slotActive s n = true) →
        (isSafe s = false → ∃ t, exec row.1 s = .next t ∧ isSafe t = true ∧ t.pins.safeN = .low ∧ t.fld Reg.selvStatus 16 16 = row.2 ∧
          t.bit Reg.selvStatus 2 = fatalCause row.2 ∧ t.rd Reg.selvSafeCount = s.rd Reg.selvSafeCount + 1 ∧ t.rdQ Reg.selvDetectTime 2 = selvTime s ∧
          (t.rd (Reg.selvEvent row.2)).toNat = min ((s.rd (Reg.selvEvent row.2)).toNat + 1) 0xFFFFFFFF ∧ t.mem = s.mem) ∧
        (isSafe s = true → ∃ t, exec row.1 s = .next t ∧ isSafe t = true ∧ t.pins.safeN = s.pins.safeN ∧ t.fld Reg.selvStatus 16 16 = s.fld Reg.selvStatus 16 16 ∧
          t.rd Reg.selvSafeCount = s.rd Reg.selvSafeCount ∧
          (if row.2 < 32 then t.bit Reg.selvCausesSeen0 row.2 else t.bit Reg.selvCausesSeen1 (row.2 - 32)) = true)) ∧
    (∀ (i : Nat) (e : FabEvent), ∀ row ∈ ([(.checksumEvent, 0x17), (.memoryEvent, 0x19), (.e2eEvent, 0x1A), (.regionEvent, 0x1B)] : List (Instr × Nat)),
      s.selv.inbox.findIdx? (fun e => (fabCause s e).1 = row.2) = some i → s.selv.inbox[i]? = some e →
      exec row.1 s = .next (selvCause row.2 (fabCause s e).2 { s with selv := { s.selv with inbox := s.selv.inbox.eraseIdx i } }) ∧
      (causeAction s row.2 = 0 → isSafe s = false → ∃ t, exec row.1 s = .next t ∧ isSafe t = true ∧ t.pins.safeN = .low ∧
        t.fld Reg.selvStatus 16 16 = row.2) ∧
      (2 ≤ causeAction s row.2 → ∃ t, exec row.1 s = .next t ∧ isSafe t = isSafe s ∧ t.pins = s.pins ∧
        (t.rd (Reg.selvEvent row.2)).toNat = min ((s.rd (Reg.selvEvent row.2)).toNat + 1) 0xFFFFFFFF)) ∧
    (∀ (k : CoreId) (opc lane : BitVec 10), s.cclk = true → s.bit (Reg.vecCfg k) 0 = true →
      (∃ x ∈ (core s k).checked, x.1 = opc.toNat ∧ x.2.testBit lane.toNat = true) → ∃ t, exec (.residueEvent k opc lane) s = .next t ∧
      t.bit (Reg.vecStatus k) 4 = true ∧ (t.rd (Reg.vecResCount k)).toNat = min ((s.rd (Reg.vecResCount k)).toNat + 1) 0xFFFFFFFF ∧
      t.rd (Reg.vecResLast k) = BitVec.ofNat 32 (opc.toNat + 2 ^ 10 * lane.toNat) ∧ t.mem = s.mem) ∧
    (∀ (k : CoreId) (opc lane : BitVec 10), s.bit (Reg.vecCfg k) 0 = false ∨ (∀ x ∈ (core s k).checked, x.1 ≠ opc.toNat ∨ x.2.testBit lane.toNat = false) →
      exec (.residueEvent k opc lane) s = .next s) ∧
    (∃ t, exec (.selvEcc true) s = .next t ∧ (t.rd Reg.selvEccCe).toNat = min ((s.rd Reg.selvEccCe).toNat + 1) 0xFFFFFFFF ∧ t.pins = s.pins ∧ t.selv = s.selv) ∧
    (∀ temp : BitVec 8, temp.toInt ≤ 105 → ∃ t, exec (.dieTempSample temp) s = .next t ∧ t.selv = { s.selv with dieTemp := temp } ∧ t.pins = s.pins ∧
      (s.up = true → s.bistDone = true → t.fld Reg.mgmtTemp 0 8 = temp.toNat))

/-- R500, R501: GET_CHALLENGE gives a challenge that is not zero; CLEAR ends the safe state exactly when its conditions hold,
and releases SAFE_N; otherwise it reports the first that fails. The challenge is spent either way, and by its expiry.

R470, R477, R491 to R493, R496 to R499: the periodic telegram, with its sequence number and layout; the heartbeat; the
self-test's rounds and slots; the windows of the meters and of the intake.
The order of the self-test's slots, and that slots with nothing behind them are skipped, is log entry 78, the model's choice. -/
def Obligations.ClearingAndPeriods : Prop :=
  (∀ (s : State), s.Kept → s.wf = true → s.selvUp = true →
      (hostTakes .selvedge s = true → ∃ t w, exec .getChallenge s = .next t ∧ w ≠ 0 ∧ t.rd Reg.selvMbxRsp0 = w ∧
        t.selv = { s.selv with challenge := some w, newEvent := false } ∧ t.pins = s.pins ∧ t.mem = s.mem) ∧
      (hostTakes .selvedge s = true → clearResult s = 0 → ∃ t, exec .clearSafe s = .next t ∧ isSafe t = false ∧ t.pins.safeN = .released ∧
        t.fld Reg.selvStatus 16 16 = 0 ∧ t.rd Reg.selvCausesSeen0 = 0 ∧ t.rd Reg.selvCausesSeen1 = 0 ∧ t.fld Reg.selvMbxStatus 8 4 = 0 ∧
        t.selv.challenge = none ∧ t.mem = s.mem) ∧
      (hostTakes .selvedge s = true → clearResult s ≠ 0 → ∃ t, exec .clearSafe s = .next t ∧ isSafe t = isSafe s ∧ t.pins = s.pins ∧
        t.fld Reg.selvMbxStatus 8 4 = clearResult s ∧ t.rd Reg.selvStatus = s.rd Reg.selvStatus ∧ t.selv = { s.selv with challenge := none } ∧ t.mem = s.mem) ∧
      (clearResult s = 0 ↔ isSafe s = true ∧ s.bit Reg.selvStatus 2 = false ∧ s.selv.fatalSeen = false ∧ s.selv.challenge = some (s.rd Reg.selvMbxArg0) ∧
        (s.rd Reg.selvMbxArg1).toNat = s.fld Reg.selvStatus 16 16 ∧
        (s.fld Reg.selvStatus 16 16 = 1 ∨ s.fld Reg.selvStatus 16 16 = 2 → s.selv.imageSince = true) ∧
        s.bit Reg.selvStatus 1 = false ∧ s.clk = .running ∧ s.selv.dieTemp.toInt ≤ 100 ∧ s.selv.roundAfter = true ∧
        (∀ i p, (pairsOf s)[i]? = some p → (pairSt s i).restartedA = true ∧ (pairSt s i).restartedB = true ∧ ptEnabled s p.a = true ∧ ptEnabled s p.b = true) ∧
        (∀ i p, (pairsOf s)[i]? = some p → p.seedPasses ≤ (pairSt s i).seedRun) ∧ s.selv.newEvent = false) ∧
      exec .challengeExpiry s = .next { s with selv := { s.selv with challenge := none } }) ∧
  (∀ (s : State), s.Kept → s.wf = true → s.selvUp = true →
      (s.selv.tgDead = false → ∃ t, exec .telegramPeriod s = .next t ∧ t.out = .telegram false (telegramFrame s) :: s.out ∧
        t.selv = { s.selv with tgSeq := s.selv.tgSeq + 1 } ∧ t.rd Reg.selvTgSeq = s.selv.tgSeq ∧ t.pins = s.pins ∧ t.mem = s.mem) ∧
      (s.selv.tgDead = true → exec .telegramPeriod s = .next s) ∧
      (telegramBody s).length = 124 ∧ (telegramBody s).take 3 = natLe 2 1 ++ natLe 1 1 ∧ ((telegramBody s).drop 8).take 4 = natLe 4 s.selv.tgSeq.toNat ∧
      (s.selv.fatalSeen = false → s.pins.safeN ≠ .hiZ → exec .safeHbToggle s = .next { s with pins := { s.pins with safeHb := !s.pins.safeHb } }) ∧
      (s.selv.fatalSeen = true → exec .safeHbToggle s = .next s) ∧
      (s.selv.slot = none → exec .selftestRound s = .next { s with selv := { s.selv with slot := some 0, skips := 0, slotFailed := false, startedAfter := true } }) ∧
      (∀ (k : Fin 32) (a : Fin 4) (n : Nat), slotOf n = .array k a →
        ((slotFreeze n s).rd (Reg.arrayFrzTq k)).toNat =
          min ((s.rd (Reg.arrayFrzTq k)).toNat + if s.bit (Reg.arrayTq0 k + 0x10 * a) 3 then 2 else 0) 0xFFFFFFFF ∧ (slotFreeze n s).selv = s.selv) ∧
      (s.selv.slot ≠ none → exec .selftestRound s = .next s) ∧
      (∀ n, s.selv.slot = some n → n + 1 < 547 →
        (slotActive s n = true → exec (.selftestSlot .answered) s = .next { slotFreeze n s with selv := { s.selv with slot := some (n + 1) } }) ∧
        (slotActive s n = false → ∀ r, exec (.selftestSlot r) s = exec (.selftestSlot .skipped) s) ∧
        ∃ t, exec (.selftestSlot .skipped) s = .next t ∧ t.selv = { s.selv with skips := s.selv.skips + 1, slot := some (n + 1) } ∧
          (t.rd Reg.selvStSkipped).toNat = min ((s.rd Reg.selvStSkipped).toNat + 1) 0xFFFFFFFF) ∧
      (s.selv.slot = some 546 → linkUp s 5 = true → s.selv.slotFailed = true →
        exec (.selftestSlot .answered) s = .next { s with selv := { s.selv with slot := none, lastRoundFull := false } }) ∧
      (s.selv.slot = some 546 → linkUp s 5 = true → s.selv.slotFailed = false → ∃ t, exec (.selftestSlot .answered) s = .next t ∧
        t.selv = { s.selv with slot := none, lastRoundFull := s.selv.skips == 0, roundAfter := s.selv.roundAfter || s.selv.startedAfter } ∧
        t.fld Reg.selvRounds 0 16 = (s.fld Reg.selvRounds 0 16 + 1) % 65536) ∧
      (∀ c : Fin 48, exec (.bandwidthWindow c) s = .next ((List.range 9).foldl (meterWindow c) s)) ∧
      (∀ f, s.selv.safety = some f → s.up = true → f.windows ≠ [] →
        exec .intakeWindowSwitch s = .next { s with intake := { s.intake with window := (s.intake.window + 1) % f.windows.length } }))

/-- R480 to R488, R494, R495: the records of a pair as the selvedge acquires them, its comparison and its timers. An element
that is no record is an event; a record is compared; a seed record is judged by its signatures; a FRAME_END ends the
monitors of its queue; a pair or a seed frame that is not complete in time is judged so. A monitor records its starts and
ends, and raises DEADLINE when its time has passed.
That a frame left with no record to wait for is judged after the pair window is log entry 77, the model's choice. -/
def Obligations.PairsSeedsAndMonitors : Prop :=
  ∀ (s : State), s.Kept → s.selvUp = true →
    (∀ (i : Fin 4) (chB wantEnd : Bool) (p : Pair) (e : List Byte), s.cclk = true → (pairsOf s)[i.val]? = some p → qPeek s (p.inQ chB) = some e →
      (leAt e 0 1 = 2 ↔ wantEnd = true) →
      let rs : EngRanges := [(.host, qHeadAddr s (p.inQ chB), qEsize s (p.inQ chB))]
      engWaits s rs = false →
      let c : Instr := if wantEnd then .frameEnd i chB else .result i chB
      let s1 := qTake (p.inQ chB) (engGo rs s)
      let r := readRecord s1 e
      let ends := frameEnds (p.inQ chB) s1
      (recordBad e = true → exec c s = .next (selvCause 0x11 [i.val] s1).settle) ∧
      (recordBad e = false → r.flags % 2 = 1 → exec c s = .next (seedRecord i p chB r s1).settle) ∧
      (recordBad e = false → r.flags % 2 = 0 → wantEnd = false → exec c s = .next (compareRecord i p chB r [] s1).settle) ∧
      (recordBad e = false → r.flags % 2 = 0 → wantEnd = true → exec c s = .next (compareRecord i p chB r ends.2 ends.1).settle)) ∧
    (∀ (i : Fin 4) (p : Pair) (f : Frame), (pairsOf s)[i.val]? = some p →
      (pairSt s i).frames.find? (fun f => overdue s p f || stranded s p f) = some f → s.bit Reg.selvStatus 1 = false →
      (overdue s p f = true → exec (.pairWindowExpiry i) s =
        .next (decideFrame i p f.num (fun _ => true) [⟨0x11, causeAction s 0x11, [i.val]⟩] (putFrame i (f.barBy 0x11) s)).settle) ∧
      (overdue s p f = false → exec (.pairWindowExpiry i) s = .next (decideFrame i p f.num (fun _ => true) [] s).settle)) ∧
    (∀ (i : Fin 4) (p : Pair), (pairsOf s)[i.val]? = some p → (∀ f ∈ (pairSt s i).frames, overdue s p f = false ∧ stranded s p f = false) →
      exec (.pairWindowExpiry i) s = .next s) ∧
    (∀ e : SelvEv, e.cause < 64 → raiseAll [e] s = selvEvent e.cause e.act e.pairs s) ∧
    (∀ f, s.selv.safety = some f → s.cclk = true → s.selv.seedDue = true → pairsOf s = [] → exec .seedInjection s =
      .next { s with selv := { s.selv with seedDue := false, seedBusy := !f.seedImage.isEmpty, seedFrames := f.seedImage } }) ∧
    (∀ f, s.selv.safety = some f → s.cclk = true → s.selv.seedDue = true → ∃ t, exec .seedInjection s = .next t ∧ t.selv.seedDue = false ∧
      t.selv.seedFrames = f.seedImage ∧ t.mem = s.mem) ∧
    (∀ f rest, s.selv.seedFrames = f :: rest → s.cclk = true →
      let s1 := { s with selv := { s.selv with seedFrames := rest, seedBusy := !rest.isEmpty } }
      (fifoSize < fifoHeld s 8 + (f.length + 4) → exec .seedFrame s = .next s1.settle) ∧
      (fifoHeld s 8 + (f.length + 4) ≤ fifoSize → deliveries s ⟨s.intake.nextId, 8, f, f.length + 4, nowStamp s⟩ = [] →
        exec .seedFrame s = .next (nextFrame s1).settle)) ∧
    (∀ (i : Fin 4) (p : Pair) (t0 : Nat), (pairsOf s)[i.val]? = some p → (pairSt s i).seedStarts.head? = some t0 → s.bit Reg.selvStatus 1 = false →
      (p.seedDeadline < selvTime s - t0 → exec (.seedDeadline i) s = .next (seedJudged i false s)) ∧
      (selvTime s - t0 ≤ p.seedDeadline → exec (.seedDeadline i) s = .next s)) ∧
    (∀ (m : Fin 64) (d : Monitor), monitor s m = some d → mayArm s d = true →
      (∀ n, Tab.get (fun _ => 0) s.selv.startDue m = n + 1 → (startsOf s m).length < 15 → s.wf = true → ∃ t, exec (.dmStart m) s = .next t ∧
        t.bit (Reg.selvDm m) 0 = true ∧ t.fld (Reg.selvDm m) 1 4 = (startsOf s m).length + 1 ∧ t.pins = s.pins) ∧
      (∀ n, Tab.get (fun _ => 0) s.selv.endDue m = n + 1 →
        let s1 := { s with selv := { s.selv with endDue := Tab.set (fun _ => 0) s.selv.endDue m n } }
        (s.bit (Reg.selvDm m) 0 = false → exec (.dmEnd m) s = .next s1) ∧
        (s.bit (Reg.selvDm m) 0 = true → d.mode = 1 →
          (startsOf s m = [] → exec (.dmEnd m) s = .next (selvEvent 0x16 d.action (pairsOfPart s d.part) s1)) ∧
          (∀ t0 l, startsOf s m = t0 :: l →
            (d.minUs ≤ selvTime s - t0 → exec (.dmEnd m) s = .next (setStarts m l s1)) ∧
            (selvTime s - t0 < d.minUs → exec (.dmEnd m) s = .next (selvEvent 0x15 d.action (pairsOfPart s d.part) (setStarts m l s1)))))) ∧
      (∀ t0 l, d.mode = 1 → startsOf s m = t0 :: l →
        (d.maxUs < selvTime s - t0 → exec (.deadline m) s = .next (monitorMiss m d (setStarts m l s))) ∧
        (selvTime s - t0 ≤ d.maxUs → exec (.deadline m) s = .next s))) ∧
    (∀ (tol : Option Tol) (a b : W32),
      (valueOk none 0 a a = true) ∧ (valueOk none 1 a b = decide (a = b)) ∧
      (∀ t, tol = some t → valueOk tol 1 a b = decide ((a.toInt - b.toInt).natAbs ≤ t.int)))

/-! ### Host memory windows, management, holds and debug -/

/-- R53, R174, R399, R509 to R516, R518: BAR2 reaches companion memory through its pages and waits where its channel makes it wait; an
access to an unmapped page reads all ones, or is discarded, and counts; BAR4 reaches the on-die stores, a write changing its
own bytes alone. A poisoned write is discarded and counted. A read that has waited too long is withdrawn. A page register is written; a pending message is sent. -/
def Obligations.HostMemoryWindows : Prop :=
  ∀ s : State, s.Kept → s.wf = true → hostReach s = true → s.inHold = false →
    (s.loader ≠ .idle → ∀ (o : BitVec 36) (o4 : BitVec 29) (n : Nat) (bs : List Byte), tlpFits o.toNat n = true → tlpFits o.toNat bs.length = true →
      tlpFits o4.toNat n = true → tlpFits o4.toNat bs.length = true →
      exec (.bar2Read o n) s = .next (s.leave 53).settle ∧ exec (.bar4Read o4 n) s = .next (s.leave 53).settle ∧
      (s.clk = .running → exec (.bar2Write o bs false) s = .next (s.leave 53).settle) ∧
      (hostOpen s = true → exec (.bar4Write o4 bs false) s = .next (s.leave 53).settle)) ∧
    (∀ (o : BitVec 36) (n : Nat), s.loader = .idle → tlpFits o.toNat n = true →
      (192 ≤ s.fld (Reg.hostBar2Page (o.toNat / 2 ^ 30)) 0 8 → ∃ t, exec (.bar2Read o n) s = .next t ∧ t.resp = .data (ffs n) ∧
        (t.rd Reg.hostUnmapped).toNat = min ((s.rd Reg.hostUnmapped).toNat + 1) 0xFFFFFFFF ∧ t.bit Reg.hostStatus 4 = true ∧ t.mem = s.mem) ∧
      (∀ a, s.fld (Reg.hostBar2Page (o.toNat / 2 ^ 30)) 0 8 < 192 → a = s.fld (Reg.hostBar2Page (o.toNat / 2 ^ 30)) 0 8 * 2 ^ 30 + o.toNat % 2 ^ 30 →
        (s.clk = .running → chanWaits s (.host a) a n = false → s.host.waiting = [] → exec (.bar2Read o n) s =
          .next ((busRead .host a n (s.answer .none)).2.answer (.data (busRead .host a n (s.answer .none)).1))) ∧
        (s.clk ≠ .running ∨ chanWaits s (.host a) a n = true ∨ s.host.waiting ≠ [] → exec (.bar2Read o n) s =
          .next (arrive (.host a) a n { s with resp := .none, host := { s.host with waiting := s.host.waiting ++ [(a, .read n)] } })))) ∧
    (∀ (o : BitVec 36) (bs : List Byte), s.loader = .idle → s.clk = .running → tlpFits o.toNat bs.length = true →
      (192 ≤ s.fld (Reg.hostBar2Page (o.toNat / 2 ^ 30)) 0 8 → ∃ t, exec (.bar2Write o bs false) s = .next t ∧
        (t.rd Reg.hostUnmapped).toNat = min ((s.rd Reg.hostUnmapped).toNat + 1) 0xFFFFFFFF ∧ t.bit Reg.hostStatus 4 = true ∧ t.mem = s.mem) ∧
      (∀ a, s.fld (Reg.hostBar2Page (o.toNat / 2 ^ 30)) 0 8 < 192 → a = s.fld (Reg.hostBar2Page (o.toNat / 2 ^ 30)) 0 8 * 2 ^ 30 + o.toNat % 2 ^ 30 →
        (chanWaits s (.host a) a bs.length = false → postedWaits s = false →
          (writeOutside s .host a bs.length = none → exec (.bar2Write o bs false) s = .next (busWrite .host a bs s)) ∧
          (∀ r, writeOutside s .host a bs.length = some r → exec (.bar2Write o bs false) s = .next (s.leave r).settle)) ∧
        (chanWaits s (.host a) a bs.length = true ∨ postedWaits s = true → exec (.bar2Write o bs false) s =
          .next (arrive (.host a) a bs.length { s with host := { s.host with waiting := s.host.waiting ++ [(a, .write bs)] } })))) ∧
    (∀ (o : BitVec 29) (n : Nat), s.loader = .idle → tlpFits o.toNat n = true → s.clk = .running →
      exec (.bar4Read o n) s = .next (s.answer (.data (s.bytes (onDieBase + o.toNat) n)))) ∧
    (∀ (o : BitVec 29) (bs : List Byte), s.loader = .idle → hostOpen s = true → tlpFits o.toNat bs.length = true →
      (drainingStore s (onDieBase + o.toNat) bs.length = true → exec (.bar4Write o bs false) s = .next (s.leave 62).settle) ∧
      (∀ r, drainingStore s (onDieBase + o.toNat) bs.length = false → writeOutside s .host (onDieBase + o.toNat) bs.length = some r →
        exec (.bar4Write o bs false) s = .next (s.leave r).settle) ∧
      (drainingStore s (onDieBase + o.toNat) bs.length = false → writeOutside s .host (onDieBase + o.toNat) bs.length = none →
        ∃ t, exec (.bar4Write o bs false) s = .next t ∧
          t.bytes (onDieBase + o.toNat) bs.length = bs ∧ (∀ a, a < onDieBase + o.toNat ∨ onDieBase + o.toNat + bs.length ≤ a → t.byte a = s.byte a) ∧
          ∀ p : Part, p ≠ .mem → p.same s t)) ∧
    (∀ (o : BitVec 36) (o4 : BitVec 29) (bs : List Byte), hostOpen s = true → ∀ c ∈ [Instr.bar2Write o bs true, .bar4Write o4 bs true],
      ∃ t, exec c s = .next t ∧ (t.rd Reg.hostPoisonWr).toNat = min ((s.rd Reg.hostPoisonWr).toNat + 1) 0xFFFFFFFF ∧
        t.host = { s.host with aerPoison := true } ∧ t.mem = s.mem) ∧
    (∀ l1 l2 a n, s.host.waiting = l1 ++ (a, .read n) :: l2 → (∀ e ∈ l1, accWrites e.2 = true) → ∃ t, exec .bar2ReadTimeout s = .next t ∧
      t.host = { s.host with waiting := l1 ++ l2 } ∧ t.resp = .completerAbort ∧
      (t.rd Reg.hostCplAborts).toNat = min ((s.rd Reg.hostCplAborts).toNat + 1) 0xFFFFFFFF ∧ t.mem = s.mem) ∧
    (∀ (n : Fin 64) (v : W32), hostTakes .held s = true → 256 ≤ v.toNat → exec (.hostBar2PageWrite n v) s = .next (s.leave 13).settle) ∧
    (∀ (n : Fin 64) (v : W32), hostTakes .held s = true → v.toNat < 256 → ∃ t, exec (.hostBar2PageWrite n v) s = .next t ∧ bar2Gib t n = v.toNat ∧
      (∀ x, x ≠ Reg.hostBar2Page n → t.rd x = s.rd x) ∧ ∀ p : Part, p ≠ .regs → p.same s t) ∧
    (∀ v : Fin 256,
      (s.bit (Reg.msixPba (v / 32)) (v % 32) = true → s.msixHeld v = false → ∃ t, exec (.msixSend v) s = .next t ∧
        t.bit (Reg.msixPba (v / 32)) (v % 32) = false ∧ t.out = .msix v (BitVec.ofNat 64 (s.rdQ (Reg.msixTable v) 2)) (s.rd (Reg.msixTable v + 8)) :: s.out) ∧
      (s.bit (Reg.msixPba (v / 32)) (v % 32) = false ∨ s.msixHeld v = true → exec (.msixSend v) s = .next s) ∧
      (s.msixHeld v = true → (s.raise v).bit (Reg.msixPba (v / 32)) (v % 32) = true ∧ (s.raise v).out = s.out))

/-- R519 to R525, R528: the I2C target takes its address, a register pointer and up to 64 bytes, and sends its registers, each
whole as it was when its first byte was sent; at the STOP a register whose four bytes came is written and one in part is not;
a transaction that stands is abandoned. The mailbox flags are set and cleared by their own side. -/
def Obligations.I2cAndMailbox : Prop :=
  ∀ s : State, s.Kept → s.wf = true → s.up = true →
    (s.i2c.ready = true →
      (s.i2c.phase = .idle → exec .i2cStart s = .next { s with i2c := { s.i2c with phase := .address, buf := [], count := 0 } }) ∧
      (s.i2c.phase ≠ .idle → exec .i2cStart s = .next { s with i2c := { s.i2c with phase := .address } } ∧
        exec .i2cRepeatedStart s = .next { s with i2c := { s.i2c with phase := .address } } ∧
        exec .i2cSclTimeout s = .next { s with i2c := { s.i2c with phase := .idle, buf := [], count := 0 } }) ∧
      (s.i2c.phase = .address → ∀ b : Byte,
        (b.toNat = 2 * (0x58 + s.pins.addr.toNat) → exec (.i2cAddressByte b) s = .next { s with i2c := { s.i2c with phase := .pointer none }, resp := .i2cAck true }) ∧
        (b.toNat = 2 * (0x58 + s.pins.addr.toNat) + 1 → exec (.i2cAddressByte b) s =
          .next { s with i2c := { s.i2c with phase := .read, fresh := true }, resp := .i2cAck true }) ∧
        (b.toNat / 2 ≠ 0x58 + s.pins.addr.toNat → exec (.i2cAddressByte b) s = .next { s with i2c := { s.i2c with phase := .ignored }, resp := .i2cAck false })) ∧
      (∀ b : Byte,
        (s.i2c.phase = .pointer none → exec (.i2cWriteByte b) s = .next { s with i2c := { s.i2c with phase := .pointer (some b) }, resp := .i2cAck true }) ∧
        (∀ hi : Byte, s.i2c.phase = .pointer (some hi) → exec (.i2cWriteByte b) s =
          .next { s with i2c := { s.i2c with phase := .write, ptr := (256 * hi.toNat + b.toNat) / 4 * 4 }, resp := .i2cAck true }) ∧
        (s.i2c.phase = .write → s.i2c.count < 64 → ∃ t, exec (.i2cWriteByte b) s = .next t ∧ t.resp = .i2cAck true ∧ t.i2c.count = s.i2c.count + 1 ∧
          t.i2c.ptr = (s.i2c.ptr + 1) % 65536 ∧ t.i2c.buf = Tab.set (fun _ => none) s.i2c.buf s.i2c.ptr (some b) ∧ t.regs = s.regs) ∧
        (s.i2c.phase = .write → 64 ≤ s.i2c.count → exec (.i2cWriteByte b) s = .next (s.answer (.i2cAck false)))) ∧
      (s.i2c.phase = .read → ∀ nack : Bool, ∃ t, exec (.i2cReadByte nack) s = .next t ∧ t.i2c.ptr = (s.i2c.ptr + 1) % 65536 ∧
        t.i2c.phase = (if nack then .ignored else .read) ∧ t.regs = s.regs ∧
        (s.i2c.fresh = true ∨ s.i2c.ptr % 4 = 0 → t.i2c.capture = regView s (Reg.mgmtId + s.i2c.ptr / 4 * 4)) ∧
        (s.i2c.fresh = false → s.i2c.ptr % 4 ≠ 0 → t.i2c.capture = s.i2c.capture) ∧
        t.resp = .i2cByte (BitVec.ofNat 8 (t.i2c.capture.toNat / 2 ^ (8 * (s.i2c.ptr % 4))))) ∧
      (s.i2c.phase ≠ .idle → ∀ part : Bool,
        (∀ (n : Fin 4) (a b c d : Byte), s.i2c.buf = [(0x200 + 4 * n.val, some a), (0x201 + 4 * n.val, some b), (0x202 + 4 * n.val, some c), (0x203 + 4 * n.val, some d)] →
          ∃ t, exec (.i2cStop part) s = .next t ∧ t.rd (Reg.mgmtScratch n) = d ++ c ++ b ++ a ∧ (∀ x, x ≠ Reg.mgmtScratch n → t.rd x = s.rd x) ∧
            t.i2c = { s.i2c with phase := .idle, buf := [], count := 0 }) ∧
        (∀ (o : Nat) (a b c : Byte), o % 4 = 0 → s.i2c.buf = [(o, some a), (o + 1, some b), (o + 2, some c)] →
          exec (.i2cStop part) s = .next { s with i2c := { s.i2c with phase := .idle, buf := [], count := 0 } }) ∧
        ((i2cComplete s.i2c).any (fun e => mgmtReserved e.1 e.2) = true → exec (.i2cStop part) s = .next (s.leave 13).settle)) ∧
      exec .h2bAck s = .next (s.putB Reg.mgmtMbx 0 false) ∧
      (s.bit Reg.hostCfg 1 = false → exec .b2hPost s = .next (s.putB Reg.mgmtMbx 1 true)) ∧
      (s.bit Reg.hostCfg 1 = true → exec .b2hPost s = .next ((s.putB Reg.mgmtMbx 1 true).raise (s.fld Reg.hostCfg 16 8)))) ∧
    (s.i2c.ready = false → (∀ b, exec (.i2cAddressByte b) s = .next (s.answer (.i2cAck false))) ∧ exec .i2cStart s = .next s) ∧
    (hostTakes .held s = true → exec .h2bPost s = .next (s.putB Reg.mgmtMbx 0 true) ∧ exec .b2hAck s = .next (s.putB Reg.mgmtMbx 1 false))

/-- R478, R530 to R537: a hold begins with its stage, its status bits and its count, and the selvedge sees it; it is ready
once no command runs and every channel is in self-refresh; a hold that ends resumes from the stage it began in, and shows
its duration. A hold that falls while a warp image is applied is outside contract. -/
def Obligations.SupplyHolds : Prop :=
  ∀ s : State, s.Kept → s.wf = true → s.tclk = true →
    (s.hold.phase = .none → s.loader = .idle → (∀ c : Fin 48, (chan s c).accq = []) → ∃ t : State, exec .supplyHoldBegin s = .next t.settle ∧
      t.pins.pfN = false ∧ t.inHold = true ∧ t.stage = 6 ∧ t.hold.stage = s.stage ∧ t.bit Reg.hostStatus 0 = true ∧ t.bit Reg.hostStatus 2 = true ∧
      (t.rd Reg.mgmtHolds).toNat = min ((s.rd Reg.mgmtHolds).toNat + 1) 0xFFFFFFFF ∧ (s.selvUp = true → t.bit Reg.selvStatus 1 = true) ∧
      t.host.waiting = [] ∧ t.slots = s.slots ∧ t.intake = s.intake) ∧
    (s.hold.phase = .none → s.loader ≠ .idle → exec .supplyHoldBegin s = .next ((pfFall s).leave 538).settle) ∧
    (s.hold.phase = .entering → (∀ c : Fin 48, (chan s c).running = []) → ∃ t, exec .holdReady s = .next t ∧ t.bit Reg.hostStatus 1 = true ∧
      t.hold.phase = (if s.hold.ended then .resuming else .ready) ∧ (∀ c : Fin 48, chanState s c ≠ 3 → t.bit (Reg.memStatus c) 4 = true) ∧ t.mem = s.mem) ∧
    (s.hold.phase = .entering → ∀ c : Fin 48, (chan s c).running ≠ [] → exec .holdReady s = .next s) ∧
    ((∃ t, exec .supplyHoldEnd s = .next t ∧ t.pins.pfN = true ∧ (s.selvUp = true → t.bit Reg.selvStatus 1 = false) ∧ t.mem = s.mem ∧
      (s.hold.phase = .entering → t.hold = { s.hold with ended := true }) ∧ (s.hold.phase = .ready → t.hold = { s.hold with phase := .resuming }) ∧
      (s.hold.phase = .none ∨ s.hold.phase = .resuming → t.hold = s.hold))) ∧
    (∀ us : W32, s.hold.phase = .resuming → s.hold.again = false → s.hold.stage < 16 → ∃ t : State, exec (.holdResumeDone us) s = .next t.settle ∧ t.inHold = false ∧
      t.stage = s.hold.stage ∧ t.bit Reg.hostStatus 0 = false ∧ t.bit Reg.hostStatus 1 = false ∧ t.bit Reg.hostStatus 3 = true ∧
      t.rd Reg.hostLastHold = us ∧ (∀ k : CoreId, t.fld (Reg.arrayStatus k) 0 5 = 0) ∧ (∀ c : Fin 48, chanState s c ≠ 3 → t.bit (Reg.memStatus c) 4 = false) ∧
      t.cores = s.cores ∧ t.mem = s.mem) ∧
    (∀ us : W32, s.hold.phase ≠ .resuming → exec (.holdResumeDone us) s = .next s)

/-- R541, R546, R550, R553, R554: enabling and clearing trace, the host's mark as a packet in the ring, the periodic SYNC, and
the clearing and copying of the performance counters.

R555, R556: a freeze is asked for by its register, with its key, and by FREEZE_N; the requests that wait are taken as one:
the sources, the stage and the time are recorded, STATUS shows it, SAFE_N falls, and nothing more runs; memory and the
cores stay as they are. -/
def Obligations.TraceCountersAndFreezes : Prop :=
  (∀ s : State, s.Kept → s.wf = true →
      (hostOpen s = true →
        (∀ v : W32, v.toNat < 4 → s.bit Reg.traceCtrl 0 = false → ∃ t, exec (.traceEnable v) s = .next t ∧ t.bit Reg.traceCtrl 0 = v.getLsbD 0 ∧
          t.bit Reg.traceCtrl 1 = v.getLsbD 1 ∧ (v.getLsbD 0 = true → t.trace = { s.trace with syncDue := s.trace.syncDue ||| tracedCores s }) ∧
          (v.getLsbD 0 = false → t.trace = s.trace)) ∧
        (∀ v : W32, v.toNat < 8 → s.bit Reg.traceCtrl 0 = true → ∃ t, exec (.traceEnable v) s = .next t ∧ t.bit Reg.traceCtrl 0 = v.getLsbD 0 ∧
          t.bit Reg.traceCtrl 1 = s.bit Reg.traceCtrl 1 ∧ t.rd Reg.traceWr = s.rd Reg.traceWr ∧ t.rd Reg.traceRd = s.rd Reg.traceRd) ∧
        (∀ v : W32, 8 ≤ v.toNat → exec (.traceEnable v) s = .next (s.leave 13).settle) ∧
        (s.bit Reg.traceCtrl 0 = false → ∃ t, exec .traceClear s = .next t ∧ t.rd Reg.traceWr = 0 ∧ t.rd Reg.traceRd = 0 ∧ t.trace = s.trace) ∧
        (s.bit Reg.traceCtrl 0 = true → exec .traceClear s = .next s) ∧
        (∀ v : W32, v.toNat < 65536 → ∃ t, exec (.hostMark v) s = .next t ∧ t.rd (Reg.traceMark + 4) = v ∧
          (traced s 32 = false → t.trace = s.trace) ∧
          (traced s 32 = true → ringFull s = false → Tab.get (fun _ => 0) s.trace.lost 32 = 0 → t.rd Reg.traceWr = s.rd Reg.traceWr + 1 ∧
            t.trace.sram = Tab.set (fun _ => none) s.trace.sram ((s.rd Reg.traceWr).toNat % 32768)
              (some (packetBits s 32 0xD s.pos.tb ((s.rd Reg.traceMark).toNat + 2 ^ 32 * v.toNat))))) ∧
        (∀ v : W32, 65536 ≤ v.toNat → exec (.hostMark v) s = .next (s.leave 13).settle) ∧
        (∃ t, exec .pmcClear s = .next t ∧ (∀ n : Fin 16, t.rdQ (Reg.pmc n) 2 = 0) ∧ ∀ n : Fin 16, t.rdQ (Reg.pmcSnap n) 2 = s.rdQ (Reg.pmcSnap n) 2) ∧
        (∃ t, exec .pmcSnap s = .next t ∧ (∀ n : Fin 16, t.rdQ (Reg.pmcSnap n) 2 = s.rdQ (Reg.pmc n) 2) ∧ ∀ n : Fin 16, t.rdQ (Reg.pmc n) 2 = s.rdQ (Reg.pmc n) 2)) ∧
      (∀ k : CoreId, s.cclk = true → s.fld Reg.traceSync 0 5 ≠ 0 → coreState s k = 1 → corePower s k = 0 → coreStopped s k = false →
        exec (.traceSyncPeriod k) s = .next (traceSync k 0 (core s k).pc.toNat s) ∧
        (traced s k = true → Tab.get (fun _ => 0) s.trace.dropped k = 0 → (traceSync k 0 (core s k).pc.toNat s).trace.fifo = Tab.set (fun _ => []) s.trace.fifo k
          (fifoOf s k ++ [packetBits s k 1 s.pos.tb ((core s k).pc.toNat % 2 ^ 45)])))) ∧
  (∀ s : State, s.Kept → s.wf = true →
      (hostOpen s = true →
        exec (.traceFreeze 0x46520001#32) s = .next { s with frz := { s.frz with req := s.frz.req ||| 2#3 } } ∧
        (∀ v : W32, v.toNat / 65536 ≠ 0x4652 → exec (.traceFreeze v) s = .next s)) ∧
      (s.tclk = true → exec .freezeN s = .next { s with frz := { s.frz with req := s.frz.req ||| 1#3 } }) ∧
      (s.tclk = true → s.frz.req ≠ 0 → ∃ t, exec .freeze s = .next t ∧ t.frz.frozen = true ∧ t.frz.req = 0 ∧ t.frz.sources = s.frz.req ∧
        t.frz.stage = s.stage ∧ t.frz.t = nowStamp s ∧ t.frz.inHold = s.inHold ∧ t.stage = 7 ∧ t.i2c.phase = .idle ∧ t.trace.fifo = [] ∧
        (s.selv.running = true → t.pins.safeN = .low) ∧ (∀ c : Fin 48, chanState s c ≠ 3 → t.bit (Reg.memStatus c) 4 = true) ∧
        t.up = false ∧ t.selvUp = false ∧ t.cores = s.cores ∧ t.mem = s.mem) ∧
      (s.tclk = true → s.frz.req = 0 → exec .freeze s = .next s) ∧ (s.tclk = false → exec .freeze s = .next s ∧ exec .freezeN s = .next s))

/-- R559 to R563: the TAP's instructions, each with what it shifts out or drives; those that take the outputs from their
function are outside contract on a part that runs. The readout gives its header with its CRC, and on a frozen part the
selected segments. The captured boundary bits are free values. -/
def Obligations.TapInstructions : Prop :=
  ∀ s : State, s.Kept →
    exec .tapReset s = .next { s with tap := { ir := 0x01, sel := BitVec.allOnes 68, bsr := [], highz := false } } ∧
    exec .idcode s = .next { s with tap := { s.tap with ir := 0x01, highz := false }, out := .tdo 0x01 (natBits 32 0x13212B9D) :: s.out } ∧
    exec .bypass s = .next { s with tap := { s.tap with ir := 0xFF, highz := false } } ∧
    (∀ sel, exec (.roSelect sel) s = .next { s with tap := { s.tap with ir := 0x20, highz := false, sel := sel } }) ∧
    (∀ load, ∃ t bs, exec (.samplePreload load) s = .next t ∧ t.tap = { s.tap with ir := 0x02, highz := false, bsr := load } ∧
      t.out = .tdo 0x02 bs :: s.out ∧ bs.length = load.length ∧ t.pins = s.pins ∧ t.regs = s.regs ∧ t.mem = s.mem) ∧
    (s.pins.coldN = true → s.frz.frozen = false → (∀ d, exec (.extest d) s = .next (s.leave 563).settle) ∧ exec .extestPulse s = .next (s.leave 563).settle ∧ exec .extestTrain s = .next (s.leave 563).settle ∧
      exec .highz s = .next (s.leave 563).settle ∧ exec .clamp s = .next (s.leave 563).settle) ∧
    (s.pins.coldN = false ∨ s.frz.frozen = true →
      (∀ d, ∃ t bs, exec (.extest d) s = .next t ∧ t.tap = { s.tap with ir := 0x00, highz := false, bsr := d } ∧ t.out = .tdo 0x00 bs :: s.out ∧
        bs.length = d.length ∧ t.regs = s.regs ∧ t.mem = s.mem) ∧
      exec .extestPulse s = .next { s with tap := { s.tap with ir := 0x03, highz := false } } ∧
      exec .extestTrain s = .next { s with tap := { s.tap with ir := 0x04, highz := false } } ∧
      exec .highz s = .next { s with tap := { s.tap with ir := 0x05, highz := true } } ∧
      exec .clamp s = .next { s with tap := { s.tap with ir := 0x06, highz := false } }) ∧
    (∃ t bs, exec .readout s = .next t ∧ t.out = .tdo 0x21 bs :: s.out ∧ t.tap = { s.tap with ir := 0x21, highz := false } ∧
      bs.take 1056 = withCrc (natLe 128 (readoutHeader s)) ∧ bs.getD 0 false = s.frz.frozen ∧
      (s.frz.frozen = false → bs.length = 1056) ∧
      (s.frz.frozen = true → s.tap.sel = 2#68 → bs.drop 1056 = withCrc ((List.range 32768).flatMap fun i => natLe 16 (packetAt s i).toNat))) ∧
    (s.frz.frozen = true → readoutHeader s / 2 % 8 = s.frz.sources.toNat ∧ readoutHeader s / 16 % 16 = s.frz.stage % 16)
end

