-- ==== Sys2Proof/Laws/Contract.lean ====
section
/-! SUPPORT. What the contract layer around a meaning does (R5): a command of a fabric within its contract answers what its meaning
gives, and everything else keeps the selvedge and the canonical form. -/

namespace Sys2Proof.Machine

set_option Elab.async false

theorem SelvedgeKept.refl_freeCtr (s : State) : SelvedgeKept s { s with freeCtr := s.freeCtr + 1 } := by
  refine ⟨rfl, rfl, rfl, rfl, rfl, rfl, rfl, rfl, rfl, fun _ _ => rfl, rfl, List.prefix_rfl, rfl, rfl, rfl, List.suffix_rfl, ?_, ?_⟩
  · simp
  · exact Nat.lt_succ_self _

/-- A fabric outside contract leaves the selvedge as it is. -/
theorem State.corrupt_kept (s : State) : SelvedgeKept s s.corrupt := by
  unfold State.corrupt
  dsimp only
  split
  · next h => exact h.1
  · exact SelvedgeKept.refl_freeCtr s

theorem State.corrupt_wf {s : State} (w : s.wf = true) : s.corrupt.wf = true := by
  unfold State.corrupt
  dsimp only
  split
  · next h => exact h.2
  · exact w

theorem State.settle_of_kept {s : State} (h : s.contract.broken = false) : s.settle = s := by simp [State.settle, h]
theorem State.settle_of_broken {s : State} (h : s.contract.broken = true) : s.settle = s.corrupt := by simp [State.settle, h]

@[simp] theorem State.settle_contract (s : State) : s.settle.contract = s.contract := by
  unfold State.settle
  split
  · exact (State.corrupt_kept s).2.2.2.2.2.2.2.2.2.2.2.2.2.2.1
  · rfl

@[simp] theorem State.settle_pending (s : State) : s.settle.pending = s.pending := by
  unfold State.settle
  split
  · exact (State.corrupt_kept s).1
  · rfl

theorem State.settle_wf {s : State} (w : s.wf = true) : s.settle.wf = true := by
  unfold State.settle
  split
  · exact State.corrupt_wf w
  · exact w

theorem State.leave_broken (s : State) (r : Nat) : (s.leave r).contract.broken = true := by
  unfold State.leave
  split
  · assumption
  · rfl

/-- A meaning's next state is the command's, once the fabric it leaves is settled. -/
theorem inContractWith_next {sel : State → State} {f : State → Res State} {s t : State} (h : s.contract.broken = false)
    (e : f s = .next t) : inContractWith sel f s = .next t.settle := by
  simp [inContractWith, State.settle_of_kept h, e]

/-- A meaning's next state within contract is the command's. -/
theorem inContractWith_kept {sel : State → State} {f : State → Res State} {s t : State} (h : s.contract.broken = false)
    (ht : t.contract.broken = false) (e : f s = .next t) : inContractWith sel f s = .next t := by
  rw [inContractWith_next h e, State.settle_of_kept ht]

/-- A case outside contract leaves the fabric free. -/
theorem inContractWith_outside {sel : State → State} {f : State → Res State} {s : State} {r : Nat} (h : s.contract.broken = false)
    (e : f s = .outside r) : inContractWith sel f s = .next ((sel s).leave r).corrupt := by
  simp [inContractWith, State.settle_of_kept h, e, State.settle_of_broken (State.leave_broken _ _)]

theorem inContract_next {f : State → Res State} {s t : State} (h : s.contract.broken = false) (e : f s = .next t) :
    inContract f s = .next t.settle := inContractWith_next h e
theorem inContract_kept {f : State → Res State} {s t : State} (h : s.contract.broken = false) (ht : t.contract.broken = false)
    (e : f s = .next t) : inContract f s = .next t := inContractWith_kept h ht e
theorem inContract_outside {f : State → Res State} {s : State} {r : Nat} (h : s.contract.broken = false) (e : f s = .outside r) :
    inContract f s = .next (s.leave r).corrupt := inContractWith_outside h e

/-- What a command within contract answers within contract is what its meaning answers. -/
theorem inContractWith_inv {sel : State → State} {f : State → Res State} {s t : State} (h : s.contract.broken = false)
    (ht : t.contract.broken = false) (e : inContractWith sel f s = .next t) : f s = .next t := by
  unfold inContractWith at e
  rw [State.settle_of_kept h] at e
  dsimp only at e
  split at e
  · next u hu =>
    cases e
    rw [State.settle_contract] at ht
    rw [hu, State.settle_of_kept ht]
  · cases e
    rw [State.settle_contract, State.leave_broken] at ht
    cases ht

theorem inContract_inv {f : State → Res State} {s t : State} (h : s.contract.broken = false) (ht : t.contract.broken = false)
    (e : inContract f s = .next t) : f s = .next t := inContractWith_inv h ht e

/-- Every command answers a next state. -/
theorem inContractWith_answers (sel : State → State) (f : State → Res State) (s : State) : ∃ t, inContractWith sel f s = .next t := by
  unfold inContractWith
  dsimp only
  split <;> exact ⟨_, rfl⟩

end Sys2Proof.Machine
end

