-- ==== Sys2Proof/Laws/Exec.lean ====
section
/-! SUPPORT. The meaning of each command, one equation for each row of the table. -/

namespace Sys2Proof.Machine

set_option Elab.async false

theorem exec_bar0Write {s : State} {a sz d poisoned} : exec (.bar0Write a sz d poisoned) s = inContract (execBar0Write a sz d poisoned) s := rfl
theorem exec_bar0MultiwordRead {s : State} {a sz} : exec (.bar0MultiwordRead a sz) s = inContract (execBar0MultiwordRead a sz) s := rfl
theorem exec_coldNAssert {s : State} : exec .coldNAssert s = inContract execColdNAssert s := rfl
theorem exec_coldNRelease {s : State} : exec .coldNRelease s = inContract execColdNRelease s := rfl
theorem exec_perstNAssert {s : State} : exec .perstNAssert s = inContract execPerstNAssert s := rfl
theorem exec_perstNRelease {s : State} {strap} : exec (.perstNRelease strap) s = inContract (execPerstNRelease strap) s := rfl
theorem exec_i2cTargetReady {s : State} : exec .i2cTargetReady s = inContract execI2cTargetReady s := rfl
theorem exec_bistComplete {s : State} {r} : exec (.bistComplete r) s = inContract (execBistComplete r) s := rfl
theorem exec_warpApply {s : State} {partialBit} : exec (.warpApply partialBit) s = inContract (execWarpApply partialBit) s := rfl
theorem exec_warpCrcCheckDone {s : State} : exec .warpCrcCheckDone s = inContract execWarpCrcCheckDone s := rfl
theorem exec_warpApplyDone {s : State} : exec .warpApplyDone s = inContractWith safetyKept execWarpApplyDone s := rfl
theorem exec_ptEnable {s : State} {n} : exec (.ptEnable n) s = inContract (execPtEnable n) s := rfl
theorem exec_ptDisable {s : State} {n} : exec (.ptDisable n) s = inContract (execPtDisable n) s := rfl
theorem exec_ptDrainComplete {s : State} {n} : exec (.ptDrainComplete n) s = inContract (execPtDrainComplete n) s := rfl
theorem exec_coreEnable {s : State} {k} : exec (.coreEnable k) s = inContract (execCoreEnable k) s := rfl
theorem exec_coreDisable {s : State} {k} : exec (.coreDisable k) s = inContract (execCoreDisable k) s := rfl
theorem exec_coreWakeCmd {s : State} {k} : exec (.coreWakeCmd k) s = inContract (execCoreWakeCmd k) s := rfl
theorem exec_coreDrainComplete {s : State} {k} : exec (.coreDrainComplete k) s = inContract (execCoreDrainComplete k) s := rfl
theorem exec_queueEnable {s : State} {q} : exec (.queueEnable q) s = inContract (execQueueEnable q) s := rfl
theorem exec_queueDisable {s : State} {q} : exec (.queueDisable q) s = inContract (execQueueDisable q) s := rfl
theorem exec_queueFlush {s : State} {q} : exec (.queueFlush q) s = inContract (execQueueFlush q) s := rfl
theorem exec_queueDrainComplete {s : State} {q} : exec (.queueDrainComplete q) s = inContract (execQueueDrainComplete q) s := rfl
theorem exec_queueDoorbell {s : State} {q n} : exec (.queueDoorbell q n) s = inContract (execQueueDoorbell q n) s := rfl
theorem exec_queueRelease {s : State} {q n} : exec (.queueRelease q n) s = inContract (execQueueRelease q n) s := rfl
theorem exec_queueIrqWrite {s : State} {q v} : exec (.queueIrqWrite q v) s = inContract (execQueueIrqWrite q v) s := rfl
theorem exec_ethPortEnable {s : State} {p} : exec (.ethPortEnable p) s = inContract (execEthPortEnable p) s := rfl
theorem exec_ethPortDisable {s : State} {p} : exec (.ethPortDisable p) s = inContract (execEthPortDisable p) s := rfl
theorem exec_ethPortDrainComplete {s : State} {p} : exec (.ethPortDrainComplete p) s = inContract (execEthPortDrainComplete p) s := rfl
theorem exec_ethLinkChange {s : State} {p up} : exec (.ethLinkChange p up) s = inContract (execEthLinkChange p up) s := rfl
theorem exec_sysclkLoss {s : State} : exec .sysclkLoss s = inContract execSysclkLoss s := rfl
theorem exec_sysclkReturn {s : State} : exec .sysclkReturn s = inContract execSysclkReturn s := rfl
theorem exec_pllRelock {s : State} {lossOverMs} : exec (.pllRelock lossOverMs) s = inContract (execPllRelock lossOverMs) s := rfl
theorem exec_timeSet {s : State} : exec .timeSet s = inContract execTimeSet s := rfl
theorem exec_timeSetDone {s : State} : exec .timeSetDone s = inContract execTimeSetDone s := rfl
theorem exec_timeStep {s : State} : exec .timeStep s = inContract execTimeStep s := rfl
theorem exec_timeStepDone {s : State} : exec .timeStepDone s = inContract execTimeStepDone s := rfl
theorem exec_timeSnap {s : State} : exec .timeSnap s = inContract execTimeSnap s := rfl
theorem exec_timeSnapDone {s : State} : exec .timeSnapDone s = inContract execTimeSnapDone s := rfl
theorem exec_timeTrimWrite {s : State} {v} : exec (.timeTrimWrite v) s = inContract (execTimeTrimWrite v) s := rfl
theorem exec_timeBaseSecond {s : State} : exec .timeBaseSecond s = inContract execTimeBaseSecond s := rfl
theorem exec_ppsOutPulseEnd {s : State} : exec .ppsOutPulseEnd s = inContract execPpsOutPulseEnd s := rfl
theorem exec_ppsInEdge {s : State} {rising quarter} : exec (.ppsInEdge rising quarter) s = inContract (execPpsInEdge rising quarter) s := rfl
theorem exec_ppsLostTimeout {s : State} : exec .ppsLostTimeout s = inContract execPpsLostTimeout s := rfl
theorem exec_edgeInputEdge {s : State} {es} : exec (.edgeInputEdge es) s = inContract (execEdgeInputEdge es) s := rfl
theorem exec_posEdgePop {s : State} {e} : exec (.posEdgePop e) s = inContract (execPosEdgePop e) s := rfl
theorem exec_pickStillTimeout {s : State} {n} : exec (.pickStillTimeout n) s = inContract (execPickStillTimeout n) s := rfl
theorem exec_posPkCfgWrite {s : State} {n v} : exec (.posPkCfgWrite n v) s = inContract (execPosPkCfgWrite n v) s := rfl
theorem exec_loadNow {s : State} {n} : exec (.loadNow n) s = inContract (execLoadNow n) s := rfl
theorem exec_refArm {s : State} {n} : exec (.refArm n) s = inContract (execRefArm n) s := rfl
theorem exec_refDisarm {s : State} {n} : exec (.refDisarm n) s = inContract (execRefDisarm n) s := rfl
theorem exec_posEvArm {s : State} {v} : exec (.posEvArm v) s = inContract (execPosEvArm v) s := rfl
theorem exec_posEvDisarm {s : State} {v} : exec (.posEvDisarm v) s = inContract (execPosEvDisarm v) s := rfl
theorem exec_eventFire {s : State} {v} : exec (.eventFire v) s = inContract (execEventFire v) s := rfl
theorem exec_trigPulseEnd {s : State} {v} : exec (.trigPulseEnd v) s = inContract (execTrigPulseEnd v) s := rfl
theorem exec_positionDoorbell {s : State} {d} : exec (.positionDoorbell d) s = inContract (execPositionDoorbell d) s := rfl
theorem exec_ethFrameReceive {s : State} {p frame fcsOk cut ago} : exec (.ethFrameReceive p frame fcsOk cut ago) s = inContract (execEthFrameReceive p frame fcsOk cut ago) s := rfl
theorem exec_pointInsertion {s : State} : exec .pointInsertion s = inContract execPointInsertion s := rfl
theorem exec_imageBlockTimeout {s : State} {x} : exec (.imageBlockTimeout x) s = inContract (execImageBlockTimeout x) s := rfl
theorem exec_ethFrameTransmit {s : State} {p ago} : exec (.ethFrameTransmit p ago) s = inContract (execEthFrameTransmit p ago) s := rfl
theorem exec_ethTxtsPop {s : State} {p} : exec (.ethTxtsPop p) s = inContract (execEthTxtsPop p) s := rfl
theorem exec_intakeGridFlip {s : State} {g} : exec (.intakeGridFlip g) s = inContract (execIntakeGridFlip g) s := rfl
theorem exec_gridBufferClosed {s : State} {g} : exec (.gridBufferClosed g) s = inContract (execGridBufferClosed g) s := rfl
theorem exec_gridRelease {s : State} {g} : exec (.gridRelease g) s = inContract (execGridRelease g) s := rfl
theorem exec_gridClearDone {s : State} {g} : exec (.gridClearDone g) s = inContract (execGridClearDone g) s := rfl
theorem exec_nop {s : State} {k w} : exec (.nop k w) s = inContract (execNop k w) s := rfl
theorem exec_add {s : State} {k w} : exec (.add k w) s = inContract (execAdd k w) s := rfl
theorem exec_sub {s : State} {k w} : exec (.sub k w) s = inContract (execSub k w) s := rfl
theorem exec_andS {s : State} {k w} : exec (.andS k w) s = inContract (execAndS k w) s := rfl
theorem exec_orS {s : State} {k w} : exec (.orS k w) s = inContract (execOrS k w) s := rfl
theorem exec_xorS {s : State} {k w} : exec (.xorS k w) s = inContract (execXorS k w) s := rfl
theorem exec_sll {s : State} {k w} : exec (.sll k w) s = inContract (execSll k w) s := rfl
theorem exec_srl {s : State} {k w} : exec (.srl k w) s = inContract (execSrl k w) s := rfl
theorem exec_sra {s : State} {k w} : exec (.sra k w) s = inContract (execSra k w) s := rfl
theorem exec_mul {s : State} {k w} : exec (.mul k w) s = inContract (execMul k w) s := rfl
theorem exec_mulhu {s : State} {k w} : exec (.mulhu k w) s = inContract (execMulhu k w) s := rfl
theorem exec_mulhs {s : State} {k w} : exec (.mulhs k w) s = inContract (execMulhs k w) s := rfl
theorem exec_slt {s : State} {k w} : exec (.slt k w) s = inContract (execSlt k w) s := rfl
theorem exec_sltu {s : State} {k w} : exec (.sltu k w) s = inContract (execSltu k w) s := rfl
theorem exec_minS {s : State} {k w} : exec (.minS k w) s = inContract (execMinS k w) s := rfl
theorem exec_maxS {s : State} {k w} : exec (.maxS k w) s = inContract (execMaxS k w) s := rfl
theorem exec_minu {s : State} {k w} : exec (.minu k w) s = inContract (execMinu k w) s := rfl
theorem exec_maxu {s : State} {k w} : exec (.maxu k w) s = inContract (execMaxu k w) s := rfl
theorem exec_clz {s : State} {k w} : exec (.clz k w) s = inContract (execClz k w) s := rfl
theorem exec_popc {s : State} {k w} : exec (.popc k w) s = inContract (execPopc k w) s := rfl
theorem exec_mov {s : State} {k w} : exec (.mov k w) s = inContract (execMov k w) s := rfl
theorem exec_movhi {s : State} {k w} : exec (.movhi k w) s = inContract (execMovhi k w) s := rfl
theorem exec_sread {s : State} {k w} : exec (.sread k w) s = inContract (execSread k w) s := rfl
theorem exec_swrite {s : State} {k w} : exec (.swrite k w) s = inContract (execSwrite k w) s := rfl
theorem exec_ld8 {s : State} {k w} : exec (.ld8 k w) s = inContract (execLd8 k w) s := rfl
theorem exec_ld16 {s : State} {k w} : exec (.ld16 k w) s = inContract (execLd16 k w) s := rfl
theorem exec_ld32 {s : State} {k w} : exec (.ld32 k w) s = inContract (execLd32 k w) s := rfl
theorem exec_ld64 {s : State} {k w} : exec (.ld64 k w) s = inContract (execLd64 k w) s := rfl
theorem exec_lds8 {s : State} {k w} : exec (.lds8 k w) s = inContract (execLds8 k w) s := rfl
theorem exec_lds16 {s : State} {k w} : exec (.lds16 k w) s = inContract (execLds16 k w) s := rfl
theorem exec_lds32 {s : State} {k w} : exec (.lds32 k w) s = inContract (execLds32 k w) s := rfl
theorem exec_st8 {s : State} {k w} : exec (.st8 k w) s = inContract (execSt8 k w) s := rfl
theorem exec_st16 {s : State} {k w} : exec (.st16 k w) s = inContract (execSt16 k w) s := rfl
theorem exec_st32 {s : State} {k w} : exec (.st32 k w) s = inContract (execSt32 k w) s := rfl
theorem exec_st64 {s : State} {k w} : exec (.st64 k w) s = inContract (execSt64 k w) s := rfl
theorem exec_vld {s : State} {k w} : exec (.vld k w) s = inContract (execVld k w) s := rfl
theorem exec_vst {s : State} {k w} : exec (.vst k w) s = inContract (execVst k w) s := rfl
theorem exec_pld {s : State} {k w} : exec (.pld k w) s = inContract (execPld k w) s := rfl
theorem exec_pst {s : State} {k w} : exec (.pst k w) s = inContract (execPst k w) s := rfl
theorem exec_aupd {s : State} {k w} : exec (.aupd k w) s = inContract (execAupd k w) s := rfl
theorem exec_dma {s : State} {k w} : exec (.dma k w) s = inContract (execDma k w) s := rfl
theorem exec_dmaComplete {s : State} {k i} : exec (.dmaComplete k i) s = inContract (execDmaComplete k i) s := rfl
theorem exec_fence {s : State} {k w} : exec (.fence k w) s = inContract (execFence k w) s := rfl
theorem exec_vadd {s : State} {k w} : exec (.vadd k w) s = inContract (execVadd k w) s := rfl
theorem exec_vsub {s : State} {k w} : exec (.vsub k w) s = inContract (execVsub k w) s := rfl
theorem exec_vmul {s : State} {k w} : exec (.vmul k w) s = inContract (execVmul k w) s := rfl
theorem exec_vmulh {s : State} {k w} : exec (.vmulh k w) s = inContract (execVmulh k w) s := rfl
theorem exec_vfma {s : State} {k w} : exec (.vfma k w) s = inContract (execVfma k w) s := rfl
theorem exec_vmin {s : State} {k w} : exec (.vmin k w) s = inContract (execVmin k w) s := rfl
theorem exec_vmax {s : State} {k w} : exec (.vmax k w) s = inContract (execVmax k w) s := rfl
theorem exec_vabs {s : State} {k w} : exec (.vabs k w) s = inContract (execVabs k w) s := rfl
theorem exec_vneg {s : State} {k w} : exec (.vneg k w) s = inContract (execVneg k w) s := rfl
theorem exec_vand {s : State} {k w} : exec (.vand k w) s = inContract (execVand k w) s := rfl
theorem exec_vor {s : State} {k w} : exec (.vor k w) s = inContract (execVor k w) s := rfl
theorem exec_vxor {s : State} {k w} : exec (.vxor k w) s = inContract (execVxor k w) s := rfl
theorem exec_vnot {s : State} {k w} : exec (.vnot k w) s = inContract (execVnot k w) s := rfl
theorem exec_vshl {s : State} {k w} : exec (.vshl k w) s = inContract (execVshl k w) s := rfl
theorem exec_vshr {s : State} {k w} : exec (.vshr k w) s = inContract (execVshr k w) s := rfl
theorem exec_vshra {s : State} {k w} : exec (.vshra k w) s = inContract (execVshra k w) s := rfl
theorem exec_vshrr {s : State} {k w} : exec (.vshrr k w) s = inContract (execVshrr k w) s := rfl
theorem exec_vcvt {s : State} {k w} : exec (.vcvt k w) s = inContract (execVcvt k w) s := rfl
theorem exec_vbcast {s : State} {k w} : exec (.vbcast k w) s = inContract (execVbcast k w) s := rfl
theorem exec_vmov {s : State} {k w} : exec (.vmov k w) s = inContract (execVmov k w) s := rfl
theorem exec_vcmpeq {s : State} {k w} : exec (.vcmpeq k w) s = inContract (execVcmpeq k w) s := rfl
theorem exec_vcmpne {s : State} {k w} : exec (.vcmpne k w) s = inContract (execVcmpne k w) s := rfl
theorem exec_vcmplt {s : State} {k w} : exec (.vcmplt k w) s = inContract (execVcmplt k w) s := rfl
theorem exec_vcmple {s : State} {k w} : exec (.vcmple k w) s = inContract (execVcmple k w) s := rfl
theorem exec_vcmpgt {s : State} {k w} : exec (.vcmpgt k w) s = inContract (execVcmpgt k w) s := rfl
theorem exec_vcmpge {s : State} {k w} : exec (.vcmpge k w) s = inContract (execVcmpge k w) s := rfl
theorem exec_vsel {s : State} {k w} : exec (.vsel k w) s = inContract (execVsel k w) s := rfl
theorem exec_pand {s : State} {k w} : exec (.pand k w) s = inContract (execPand k w) s := rfl
theorem exec_por {s : State} {k w} : exec (.por k w) s = inContract (execPor k w) s := rfl
theorem exec_pxor {s : State} {k w} : exec (.pxor k w) s = inContract (execPxor k w) s := rfl
theorem exec_pnot {s : State} {k w} : exec (.pnot k w) s = inContract (execPnot k w) s := rfl
theorem exec_pcnt {s : State} {k w} : exec (.pcnt k w) s = inContract (execPcnt k w) s := rfl
theorem exec_pfirst {s : State} {k w} : exec (.pfirst k w) s = inContract (execPfirst k w) s := rfl
theorem exec_vrsum {s : State} {k w} : exec (.vrsum k w) s = inContract (execVrsum k w) s := rfl
theorem exec_vrmax {s : State} {k w} : exec (.vrmax k w) s = inContract (execVrmax k w) s := rfl
theorem exec_vrmin {s : State} {k w} : exec (.vrmin k w) s = inContract (execVrmin k w) s := rfl
theorem exec_vrargmax {s : State} {k w} : exec (.vrargmax k w) s = inContract (execVrargmax k w) s := rfl
theorem exec_vpermb {s : State} {k w} : exec (.vpermb k w) s = inContract (execVpermb k w) s := rfl
theorem exec_vpermw {s : State} {k w} : exec (.vpermw k w) s = inContract (execVpermw k w) s := rfl
theorem exec_vshuf {s : State} {k w} : exec (.vshuf k w) s = inContract (execVshuf k w) s := rfl
theorem exec_vdeal {s : State} {k w} : exec (.vdeal k w) s = inContract (execVdeal k w) s := rfl
theorem exec_vpack {s : State} {k w} : exec (.vpack k w) s = inContract (execVpack k w) s := rfl
theorem exec_vunpkl {s : State} {k w} : exec (.vunpkl k w) s = inContract (execVunpkl k w) s := rfl
theorem exec_vunpkh {s : State} {k w} : exec (.vunpkh k w) s = inContract (execVunpkh k w) s := rfl
theorem exec_vrot {s : State} {k w} : exec (.vrot k w) s = inContract (execVrot k w) s := rfl
theorem exec_vcmpx {s : State} {k w} : exec (.vcmpx k w) s = inContract (execVcmpx k w) s := rfl
theorem exec_vtopk {s : State} {k w} : exec (.vtopk k w) s = inContract (execVtopk k w) s := rfl
theorem exec_vexp {s : State} {k w} : exec (.vexp k w) s = inContract (execVexp k w) s := rfl
theorem exec_vrcp {s : State} {k w} : exec (.vrcp k w) s = inContract (execVrcp k w) s := rfl
theorem exec_vrsqrt {s : State} {k w} : exec (.vrsqrt k w) s = inContract (execVrsqrt k w) s := rfl
theorem exec_vsmmax {s : State} {k w} : exec (.vsmmax k w) s = inContract (execVsmmax k w) s := rfl
theorem exec_vsmexp {s : State} {k w} : exec (.vsmexp k w) s = inContract (execVsmexp k w) s := rfl
theorem exec_vsmnorm {s : State} {k w} : exec (.vsmnorm k w) s = inContract (execVsmnorm k w) s := rfl
theorem exec_vgath {s : State} {k w} : exec (.vgath k w) s = inContract (execVgath k w) s := rfl
theorem exec_vscat {s : State} {k w} : exec (.vscat k w) s = inContract (execVscat k w) s := rfl
theorem exec_aout {s : State} {k w} : exec (.aout k w) s = inContract (execAout k w) s := rfl
theorem exec_awld {s : State} {k w} : exec (.awld k w) s = inContract (execAwld k w) s := rfl
theorem exec_arow {s : State} {k w} : exec (.arow k w) s = inContract (execArow k w) s := rfl
theorem exec_adrain {s : State} {k w} : exec (.adrain k w) s = inContract (execAdrain k w) s := rfl
theorem exec_aclr {s : State} {k w} : exec (.aclr k w) s = inContract (execAclr k w) s := rfl
theorem exec_wread {s : State} {k w} : exec (.wread k w) s = inContract (execWread k w) s := rfl
theorem exec_tstep {s : State} {k w} : exec (.tstep k w) s = inContract (execTstep k w) s := rfl
theorem exec_async {s : State} {k w} : exec (.async k w) s = inContract (execAsync k w) s := rfl
theorem exec_arrayOpBegin {s : State} {k} : exec (.arrayOpBegin k) s = inContract (execArrayOpBegin k) s := rfl
theorem exec_arrayStep {s : State} {k} : exec (.arrayStep k) s = inContract (execArrayStep k) s := rfl
theorem exec_arrayOpComplete {s : State} {k i} : exec (.arrayOpComplete k i) s = inContract (execArrayOpComplete k i) s := rfl
theorem exec_drainTransfer {s : State} {k} : exec (.drainTransfer k) s = inContract (execDrainTransfer k) s := rfl
theorem exec_tileComplete {s : State} {k a} : exec (.tileComplete k a) s = inContract (execTileComplete k a) s := rfl
theorem exec_arrayGapLimitExpiry {s : State} {k} : exec (.arrayGapLimitExpiry k) s = inContract (execArrayGapLimitExpiry k) s := rfl
theorem exec_scatterRowIssue {s : State} {k} : exec (.scatterRowIssue k) s = inContract (execScatterRowIssue k) s := rfl
theorem exec_bankAdderRetire {s : State} {k b} : exec (.bankAdderRetire k b) s = inContract (execBankAdderRetire k b) s := rfl
theorem exec_qres {s : State} {k w} : exec (.qres k w) s = inContract (execQres k w) s := rfl
theorem exec_qresUnblock {s : State} {k} : exec (.qresUnblock k) s = inContract (execQresUnblock k) s := rfl
theorem exec_qcmt {s : State} {k w} : exec (.qcmt k w) s = inContract (execQcmt k w) s := rfl
theorem exec_qacq {s : State} {k w} : exec (.qacq k w) s = inContract (execQacq k w) s := rfl
theorem exec_qacqUnblock {s : State} {k} : exec (.qacqUnblock k) s = inContract (execQacqUnblock k) s := rfl
theorem exec_qrel {s : State} {k w} : exec (.qrel k w) s = inContract (execQrel k w) s := rfl
theorem exec_qwait {s : State} {k w} : exec (.qwait k w) s = inContract (execQwait k w) s := rfl
theorem exec_trd {s : State} {k w} : exec (.trd k w) s = inContract (execTrd k w) s := rfl
theorem exec_trdt {s : State} {k w} : exec (.trdt k w) s = inContract (execTrdt k w) s := rfl
theorem exec_tpop {s : State} {k w} : exec (.tpop k w) s = inContract (execTpop k w) s := rfl
theorem exec_tstat {s : State} {k w} : exec (.tstat k w) s = inContract (execTstat k w) s := rfl
theorem exec_branchB {s : State} {k w} : exec (.branchB k w) s = inContract (execBranchB k w) s := rfl
theorem exec_beq {s : State} {k w} : exec (.beq k w) s = inContract (execBeq k w) s := rfl
theorem exec_bne {s : State} {k w} : exec (.bne k w) s = inContract (execBne k w) s := rfl
theorem exec_blt {s : State} {k w} : exec (.blt k w) s = inContract (execBlt k w) s := rfl
theorem exec_bge {s : State} {k w} : exec (.bge k w) s = inContract (execBge k w) s := rfl
theorem exec_bltu {s : State} {k w} : exec (.bltu k w) s = inContract (execBltu k w) s := rfl
theorem exec_bgeu {s : State} {k w} : exec (.bgeu k w) s = inContract (execBgeu k w) s := rfl
theorem exec_bl {s : State} {k w} : exec (.bl k w) s = inContract (execBl k w) s := rfl
theorem exec_bir {s : State} {k w} : exec (.bir k w) s = inContract (execBir k w) s := rfl
theorem exec_blir {s : State} {k w} : exec (.blir k w) s = inContract (execBlir k w) s := rfl
theorem exec_eret {s : State} {k w} : exec (.eret k w) s = inContract (execEret k w) s := rfl
theorem exec_gbar {s : State} {k w} : exec (.gbar k w) s = inContract (execGbar k w) s := rfl
theorem exec_sleep {s : State} {k w} : exec (.sleep k w) s = inContract (execSleep k w) s := rfl
theorem exec_trap {s : State} {k w} : exec (.trap k w) s = inContract (execTrap k w) s := rfl
theorem exec_idleDozeExpiry {s : State} {k} : exec (.idleDozeExpiry k) s = inContract (execIdleDozeExpiry k) s := rfl
theorem exec_lowPowerEntry {s : State} {k} : exec (.lowPowerEntry k) s = inContract (execLowPowerEntry k) s := rfl
theorem exec_lowPowerExitDone {s : State} {k} : exec (.lowPowerExitDone k) s = inContract (execLowPowerExitDone k) s := rfl
theorem exec_matchSparse {s : State} {k} : exec (.matchSparse k) s = inContract (execMatchSparse k) s := rfl
theorem exec_matchDense {s : State} {k} : exec (.matchDense k) s = inContract (execMatchDense k) s := rfl
theorem exec_nzmap {s : State} {k} : exec (.nzmap k) s = inContract (execNzmap k) s := rfl
theorem exec_sparseJobComplete {s : State} {k} : exec (.sparseJobComplete k) s = inContract (execSparseJobComplete k) s := rfl
theorem exec_memToMemory {s : State} {c} : exec (.memToMemory c) s = inContract (execMemToMemory c) s := rfl
theorem exec_memToProcessor {s : State} {c} : exec (.memToProcessor c) s = inContract (execMemToProcessor c) s := rfl
theorem exec_channelDrainComplete {s : State} {c} : exec (.channelDrainComplete c) s = inContract (execChannelDrainComplete c) s := rfl
theorem exec_memoryAccess {s : State} {ag a acc} : exec (.memoryAccess ag a acc) s = inContract (execMemoryAccess ag a acc) s := rfl
theorem exec_commandSubmit {s : State} {c p slot w3} : exec (.commandSubmit c p slot w3) s = inContract (execCommandSubmit c p slot w3) s := rfl
theorem exec_commandAccept {s : State} {c} : exec (.commandAccept c) s = inContract (execCommandAccept c) s := rfl
theorem exec_bankUnitAdd {s : State} {c} : exec (.bankUnitAdd c) s = inContract (execBankUnitAdd c) s := rfl
theorem exec_bankUnitSub {s : State} {c} : exec (.bankUnitSub c) s = inContract (execBankUnitSub c) s := rfl
theorem exec_bankUnitMul {s : State} {c} : exec (.bankUnitMul c) s = inContract (execBankUnitMul c) s := rfl
theorem exec_madd {s : State} {c} : exec (.madd c) s = inContract (execMadd c) s := rfl
theorem exec_relu {s : State} {c} : exec (.relu c) s = inContract (execRelu c) s := rfl
theorem exec_bankUnitClamp {s : State} {c} : exec (.bankUnitClamp c) s = inContract (execBankUnitClamp c) s := rfl
theorem exec_lut {s : State} {c} : exec (.lut c) s = inContract (execLut c) s := rfl
theorem exec_bsadd {s : State} {c} : exec (.bsadd c) s = inContract (execBsadd c) s := rfl
theorem exec_bsmul {s : State} {c} : exec (.bsmul c) s = inContract (execBsmul c) s := rfl
theorem exec_moveBu {s : State} {c} : exec (.moveBu c) s = inContract (execMoveBu c) s := rfl
theorem exec_notify {s : State} {c} : exec (.notify c) s = inContract (execNotify c) s := rfl
theorem exec_bankUnitComplete {s : State} {c u} : exec (.bankUnitComplete c u) s = inContract (execBankUnitComplete c u) s := rfl
theorem exec_memTempSample {s : State} {d t} : exec (.memTempSample d t) s = inContract (execMemTempSample d t) s := rfl
theorem exec_embLookup {s : State} {i} : exec (.embLookup i) s = inContract (execEmbLookup i) s := rfl
theorem exec_embGrad {s : State} {i} : exec (.embGrad i) s = inContract (execEmbGrad i) s := rfl
theorem exec_embRequestComplete {s : State} {r} : exec (.embRequestComplete r) s = inContract (execEmbRequestComplete r) s := rfl
theorem exec_embSub {s : State} {m} : exec (.embSub m) s = inContract (execEmbSub m) s := rfl
theorem exec_embPart {s : State} {m} : exec (.embPart m) s = inContract (execEmbPart m) s := rfl
theorem exec_embRemoteTimeout {s : State} {r} : exec (.embRemoteTimeout r) s = inContract (execEmbRemoteTimeout r) s := rfl
theorem exec_embTabCurWrite {s : State} {t v} : exec (.embTabCurWrite t v) s = inContract (execEmbTabCurWrite t v) s := rfl
theorem exec_embLoadWindowEnd {s : State} : exec .embLoadWindowEnd s = inContract execEmbLoadWindowEnd s := rfl
theorem exec_embFence {s : State} : exec .embFence s = inContract execEmbFence s := rfl
theorem exec_embMoveGo {s : State} : exec .embMoveGo s = inContract execEmbMoveGo s := rfl
theorem exec_embMoveMessage {s : State} {m} : exec (.embMoveMessage m) s = inContract (execEmbMoveMessage m) s := rfl
theorem exec_moveAck {s : State} {dst num refused} : exec (.moveAck dst num refused) s = inContract (execMoveAck dst num refused) s := rfl
theorem exec_embMoveTimeout {s : State} : exec .embMoveTimeout s = inContract execEmbMoveTimeout s := rfl
theorem exec_clearRedirects {s : State} : exec .clearRedirects s = inContract execClearRedirects s := rfl
theorem exec_linkEnable {s : State} {l} : exec (.linkEnable l) s = inContract (execLinkEnable l) s := rfl
theorem exec_linkDisable {s : State} {l} : exec (.linkDisable l) s = inContract (execLinkDisable l) s := rfl
theorem exec_linkRetrain {s : State} {l} : exec (.linkRetrain l) s = inContract (execLinkRetrain l) s := rfl
theorem exec_linkDrainComplete {s : State} {l} : exec (.linkDrainComplete l) s = inContract (execLinkDrainComplete l) s := rfl
theorem exec_linkTrainPhaseDone {s : State} {l i} : exec (.linkTrainPhaseDone l i) s = inContract (execLinkTrainPhaseDone l i) s := rfl
theorem exec_linkTrainTimeout {s : State} {l} : exec (.linkTrainTimeout l) s = inContract (execLinkTrainTimeout l) s := rfl
theorem exec_linkTrainRetry {s : State} {l} : exec (.linkTrainRetry l) s = inContract (execLinkTrainRetry l) s := rfl
theorem exec_peerRetry {s : State} {l i} : exec (.peerRetry l i) s = inContract (execPeerRetry l i) s := rfl
theorem exec_linkSignalLoss {s : State} {l} : exec (.linkSignalLoss l) s = inContract (execLinkSignalLoss l) s := rfl
theorem exec_linkIdleTimeout {s : State} {l} : exec (.linkIdleTimeout l) s = inContract (execLinkIdleTimeout l) s := rfl
theorem exec_flitReceive {s : State} {l f} : exec (.flitReceive l f) s = inContract (execFlitReceive l f) s := rfl
theorem exec_flitTransmit {s : State} {l vc} : exec (.flitTransmit l vc) s = inContract (execFlitTransmit l vc) s := rfl
theorem exec_replayTimeout {s : State} {l} : exec (.replayTimeout l) s = inContract (execReplayTimeout l) s := rfl
theorem exec_boltTransmit {s : State} : exec .boltTransmit s = inContract execBoltTransmit s := rfl
theorem exec_boltReceive {s : State} {l} : exec (.boltReceive l) s = inContract (execBoltReceive l) s := rfl
theorem exec_boltHoldRelease {s : State} {l} : exec (.boltHoldRelease l) s = inContract (execBoltHoldRelease l) s := rfl
theorem exec_boltHoldTimeout {s : State} {l} : exec (.boltHoldTimeout l) s = inContract (execBoltHoldTimeout l) s := rfl
theorem exec_endMsg {s : State} {l} : exec (.endMsg l) s = inContract (execEndMsg l) s := rfl
theorem exec_syncPeriod {s : State} : exec .syncPeriod s = inContract execSyncPeriod s := rfl
theorem exec_sync {s : State} {l m} : exec (.sync l m) s = inContract (execSync l m) s := rfl
theorem exec_syncLossTimeout {s : State} : exec .syncLossTimeout s = inContract execSyncLossTimeout s := rfl
theorem exec_delayMeasurePeriod {s : State} {l} : exec (.delayMeasurePeriod l) s = inContract (execDelayMeasurePeriod l) s := rfl
theorem exec_delayReq {s : State} {l t1 t2} : exec (.delayReq l t1 t2) s = inContract (execDelayReq l t1 t2) s := rfl
theorem exec_delayResp {s : State} {l t1 t2 t3 t4} : exec (.delayResp l t1 t2 t3 t4) s = inContract (execDelayResp l t1 t2 t3 t4) s := rfl
theorem exec_pickSend {s : State} {n} : exec (.pickSend n) s = inContract (execPickSend n) s := rfl
theorem exec_pick {s : State} {l m} : exec (.pick l m) s = inContract (execPick l m) s := rfl
theorem exec_pickApply {s : State} {n} : exec (.pickApply n) s = inContract (execPickApply n) s := rfl
theorem exec_budgetWindow {s : State} {l} : exec (.budgetWindow l) s = inContract (execBudgetWindow l) s := rfl
theorem exec_checksumEvent {s : State} : exec .checksumEvent s = inContract execChecksumEvent s := rfl
theorem exec_residueEvent {s : State} {k opc lane} : exec (.residueEvent k opc lane) s = inContract (execResidueEvent k opc lane) s := rfl
theorem exec_memoryEvent {s : State} : exec .memoryEvent s = inContract execMemoryEvent s := rfl
theorem exec_e2eEvent {s : State} : exec .e2eEvent s = inContract execE2eEvent s := rfl
theorem exec_regionEvent {s : State} : exec .regionEvent s = inContract execRegionEvent s := rfl
theorem exec_lockstep {s : State} : exec .lockstep s = inContract execLockstep s := rfl
theorem exec_selvEcc {s : State} {corrected} : exec (.selvEcc corrected) s = inContract (execSelvEcc corrected) s := rfl
theorem exec_safeClkFault {s : State} : exec .safeClkFault s = inContract execSafeClkFault s := rfl
theorem exec_dieTempSample {s : State} {t} : exec (.dieTempSample t) s = inContract (execDieTempSample t) s := rfl
theorem exec_safeHbToggle {s : State} : exec .safeHbToggle s = inContract execSafeHbToggle s := rfl
theorem exec_result {s : State} {i b} : exec (.result i b) s = inContract (execResult i b) s := rfl
theorem exec_frameEnd {s : State} {i b} : exec (.frameEnd i b) s = inContract (execFrameEnd i b) s := rfl
theorem exec_pairWindowExpiry {s : State} {i} : exec (.pairWindowExpiry i) s = inContract (execPairWindowExpiry i) s := rfl
theorem exec_seedInjection {s : State} : exec .seedInjection s = inContract execSeedInjection s := rfl
theorem exec_seedFrame {s : State} : exec .seedFrame s = inContract execSeedFrame s := rfl
theorem exec_seedDeadline {s : State} {i} : exec (.seedDeadline i) s = inContract (execSeedDeadline i) s := rfl
theorem exec_dmStart {s : State} {m} : exec (.dmStart m) s = inContract (execDmStart m) s := rfl
theorem exec_dmEnd {s : State} {m} : exec (.dmEnd m) s = inContract (execDmEnd m) s := rfl
theorem exec_deadline {s : State} {m} : exec (.deadline m) s = inContract (execDeadline m) s := rfl
theorem exec_selftestRound {s : State} : exec .selftestRound s = inContract execSelftestRound s := rfl
theorem exec_selftestSlot {s : State} {r} : exec (.selftestSlot r) s = inContract (execSelftestSlot r) s := rfl
theorem exec_bandwidthWindow {s : State} {c} : exec (.bandwidthWindow c) s = inContract (execBandwidthWindow c) s := rfl
theorem exec_intakeWindowSwitch {s : State} : exec .intakeWindowSwitch s = inContract execIntakeWindowSwitch s := rfl
theorem exec_telegramPeriod {s : State} : exec .telegramPeriod s = inContract execTelegramPeriod s := rfl
theorem exec_getChallenge {s : State} : exec .getChallenge s = inContract execGetChallenge s := rfl
theorem exec_clearSafe {s : State} : exec .clearSafe s = inContract execClearSafe s := rfl
theorem exec_enterSafe {s : State} : exec .enterSafe s = inContract execEnterSafe s := rfl
theorem exec_challengeExpiry {s : State} : exec .challengeExpiry s = inContract execChallengeExpiry s := rfl
theorem exec_pcieHotReset {s : State} : exec .pcieHotReset s = inContract execPcieHotReset s := rfl
theorem exec_bar2Read {s : State} {o n} : exec (.bar2Read o n) s = inContract (execBar2Read o n) s := rfl
theorem exec_bar2Write {s : State} {o bs poisoned} : exec (.bar2Write o bs poisoned) s = inContract (execBar2Write o bs poisoned) s := rfl
theorem exec_bar2ReadTimeout {s : State} : exec .bar2ReadTimeout s = inContract execBar2ReadTimeout s := rfl
theorem exec_bar4Write {s : State} {o bs poisoned} : exec (.bar4Write o bs poisoned) s = inContract (execBar4Write o bs poisoned) s := rfl
theorem exec_hostBar2PageWrite {s : State} {n v} : exec (.hostBar2PageWrite n v) s = inContract (execHostBar2PageWrite n v) s := rfl
theorem exec_msixSend {s : State} {v} : exec (.msixSend v) s = inContract (execMsixSend v) s := rfl
theorem exec_i2cStart {s : State} : exec .i2cStart s = inContract execI2cStart s := rfl
theorem exec_i2cAddressByte {s : State} {b} : exec (.i2cAddressByte b) s = inContract (execI2cAddressByte b) s := rfl
theorem exec_i2cWriteByte {s : State} {b} : exec (.i2cWriteByte b) s = inContract (execI2cWriteByte b) s := rfl
theorem exec_i2cReadByte {s : State} {nack} : exec (.i2cReadByte nack) s = inContract (execI2cReadByte nack) s := rfl
theorem exec_i2cRepeatedStart {s : State} : exec .i2cRepeatedStart s = inContract execI2cRepeatedStart s := rfl
theorem exec_i2cStop {s : State} {partialByte} : exec (.i2cStop partialByte) s = inContract (execI2cStop partialByte) s := rfl
theorem exec_i2cSclTimeout {s : State} : exec .i2cSclTimeout s = inContract execI2cSclTimeout s := rfl
theorem exec_h2bPost {s : State} : exec .h2bPost s = inContract execH2bPost s := rfl
theorem exec_h2bAck {s : State} : exec .h2bAck s = inContract execH2bAck s := rfl
theorem exec_b2hPost {s : State} : exec .b2hPost s = inContract execB2hPost s := rfl
theorem exec_b2hAck {s : State} : exec .b2hAck s = inContract execB2hAck s := rfl
theorem exec_supplyHoldBegin {s : State} : exec .supplyHoldBegin s = inContractWith pfFall execSupplyHoldBegin s := rfl
theorem exec_holdReady {s : State} : exec .holdReady s = inContract execHoldReady s := rfl
theorem exec_supplyHoldEnd {s : State} : exec .supplyHoldEnd s = inContract execSupplyHoldEnd s := rfl
theorem exec_holdResumeDone {s : State} {us} : exec (.holdResumeDone us) s = inContract (execHoldResumeDone us) s := rfl
theorem exec_traceEnable {s : State} {v} : exec (.traceEnable v) s = inContract (execTraceEnable v) s := rfl
theorem exec_traceClear {s : State} : exec .traceClear s = inContract execTraceClear s := rfl
theorem exec_hostMark {s : State} {v} : exec (.hostMark v) s = inContract (execHostMark v) s := rfl
theorem exec_traceSyncPeriod {s : State} {k} : exec (.traceSyncPeriod k) s = inContract (execTraceSyncPeriod k) s := rfl
theorem exec_pmcClear {s : State} : exec .pmcClear s = inContract execPmcClear s := rfl
theorem exec_pmcSnap {s : State} : exec .pmcSnap s = inContract execPmcSnap s := rfl
theorem exec_traceFreeze {s : State} {v} : exec (.traceFreeze v) s = inContract (execTraceFreeze v) s := rfl
theorem exec_freezeN {s : State} : exec .freezeN s = inContract execFreezeN s := rfl
theorem exec_freeze {s : State} : exec .freeze s = inContract execFreeze s := rfl
theorem exec_tapReset {s : State} : exec .tapReset s = inContract execTapReset s := rfl
theorem exec_extest {s : State} {drive} : exec (.extest drive) s = inContract (execExtest drive) s := rfl
theorem exec_idcode {s : State} : exec .idcode s = inContract execIdcode s := rfl
theorem exec_samplePreload {s : State} {load} : exec (.samplePreload load) s = inContract (execSamplePreload load) s := rfl
theorem exec_extestPulse {s : State} : exec .extestPulse s = inContract execExtestPulse s := rfl
theorem exec_extestTrain {s : State} : exec .extestTrain s = inContract execExtestTrain s := rfl
theorem exec_highz {s : State} : exec .highz s = inContract execHighz s := rfl
theorem exec_clamp {s : State} : exec .clamp s = inContract execClamp s := rfl
theorem exec_roSelect {s : State} {sel} : exec (.roSelect sel) s = inContract (execRoSelect sel) s := rfl
theorem exec_readout {s : State} : exec .readout s = inContract execReadout s := rfl
theorem exec_bypass {s : State} : exec .bypass s = inContract execBypass s := rfl
theorem exec_lowPowerEntryDone {s : State} {k} : exec (.lowPowerEntryDone k) s = inContract (execLowPowerEntryDone k) s := rfl
theorem exec_pcieLinkUp {s : State} {width speed} : exec (.pcieLinkUp width speed) s = inContract (execPcieLinkUp width speed) s := rfl
theorem exec_configurationRequest {s : State} {r} : exec (.configurationRequest r) s = inContract (execConfigurationRequest r) s := rfl
theorem exec_bar4Read {s : State} {o n} : exec (.bar4Read o n) s = inContract (execBar4Read o n) s := rfl
theorem exec_supplyLoss {s : State} {selvedge} : exec (.supplyLoss selvedge) s = inContract (execSupplyLoss selvedge) s := rfl

/-- Every command is a meaning under the contract of the fabric. -/
theorem exec_inContract (c : Instr) : ∃ sel f, ∀ s, exec c s = inContractWith sel f s := by
  cases c with
  | bar0Write a sz d poisoned => exact ⟨id, (execBar0Write a sz d poisoned), fun _ => rfl⟩
  | bar0MultiwordRead a sz => exact ⟨id, (execBar0MultiwordRead a sz), fun _ => rfl⟩
  | coldNAssert => exact ⟨id, execColdNAssert, fun _ => rfl⟩
  | coldNRelease => exact ⟨id, execColdNRelease, fun _ => rfl⟩
  | perstNAssert => exact ⟨id, execPerstNAssert, fun _ => rfl⟩
  | perstNRelease strap => exact ⟨id, (execPerstNRelease strap), fun _ => rfl⟩
  | i2cTargetReady => exact ⟨id, execI2cTargetReady, fun _ => rfl⟩
  | bistComplete r => exact ⟨id, (execBistComplete r), fun _ => rfl⟩
  | warpApply partialBit => exact ⟨id, (execWarpApply partialBit), fun _ => rfl⟩
  | warpCrcCheckDone => exact ⟨id, execWarpCrcCheckDone, fun _ => rfl⟩
  | warpApplyDone => exact ⟨safetyKept, execWarpApplyDone, fun _ => rfl⟩
  | ptEnable n => exact ⟨id, (execPtEnable n), fun _ => rfl⟩
  | ptDisable n => exact ⟨id, (execPtDisable n), fun _ => rfl⟩
  | ptDrainComplete n => exact ⟨id, (execPtDrainComplete n), fun _ => rfl⟩
  | coreEnable k => exact ⟨id, (execCoreEnable k), fun _ => rfl⟩
  | coreDisable k => exact ⟨id, (execCoreDisable k), fun _ => rfl⟩
  | coreWakeCmd k => exact ⟨id, (execCoreWakeCmd k), fun _ => rfl⟩
  | coreDrainComplete k => exact ⟨id, (execCoreDrainComplete k), fun _ => rfl⟩
  | queueEnable q => exact ⟨id, (execQueueEnable q), fun _ => rfl⟩
  | queueDisable q => exact ⟨id, (execQueueDisable q), fun _ => rfl⟩
  | queueFlush q => exact ⟨id, (execQueueFlush q), fun _ => rfl⟩
  | queueDrainComplete q => exact ⟨id, (execQueueDrainComplete q), fun _ => rfl⟩
  | queueDoorbell q n => exact ⟨id, (execQueueDoorbell q n), fun _ => rfl⟩
  | queueRelease q n => exact ⟨id, (execQueueRelease q n), fun _ => rfl⟩
  | queueIrqWrite q v => exact ⟨id, (execQueueIrqWrite q v), fun _ => rfl⟩
  | ethPortEnable p => exact ⟨id, (execEthPortEnable p), fun _ => rfl⟩
  | ethPortDisable p => exact ⟨id, (execEthPortDisable p), fun _ => rfl⟩
  | ethPortDrainComplete p => exact ⟨id, (execEthPortDrainComplete p), fun _ => rfl⟩
  | ethLinkChange p up => exact ⟨id, (execEthLinkChange p up), fun _ => rfl⟩
  | sysclkLoss => exact ⟨id, execSysclkLoss, fun _ => rfl⟩
  | sysclkReturn => exact ⟨id, execSysclkReturn, fun _ => rfl⟩
  | pllRelock lossOverMs => exact ⟨id, (execPllRelock lossOverMs), fun _ => rfl⟩
  | timeSet => exact ⟨id, execTimeSet, fun _ => rfl⟩
  | timeSetDone => exact ⟨id, execTimeSetDone, fun _ => rfl⟩
  | timeStep => exact ⟨id, execTimeStep, fun _ => rfl⟩
  | timeStepDone => exact ⟨id, execTimeStepDone, fun _ => rfl⟩
  | timeSnap => exact ⟨id, execTimeSnap, fun _ => rfl⟩
  | timeSnapDone => exact ⟨id, execTimeSnapDone, fun _ => rfl⟩
  | timeTrimWrite v => exact ⟨id, (execTimeTrimWrite v), fun _ => rfl⟩
  | timeBaseSecond => exact ⟨id, execTimeBaseSecond, fun _ => rfl⟩
  | ppsOutPulseEnd => exact ⟨id, execPpsOutPulseEnd, fun _ => rfl⟩
  | ppsInEdge rising quarter => exact ⟨id, (execPpsInEdge rising quarter), fun _ => rfl⟩
  | ppsLostTimeout => exact ⟨id, execPpsLostTimeout, fun _ => rfl⟩
  | edgeInputEdge es => exact ⟨id, (execEdgeInputEdge es), fun _ => rfl⟩
  | posEdgePop e => exact ⟨id, (execPosEdgePop e), fun _ => rfl⟩
  | pickStillTimeout n => exact ⟨id, (execPickStillTimeout n), fun _ => rfl⟩
  | posPkCfgWrite n v => exact ⟨id, (execPosPkCfgWrite n v), fun _ => rfl⟩
  | loadNow n => exact ⟨id, (execLoadNow n), fun _ => rfl⟩
  | refArm n => exact ⟨id, (execRefArm n), fun _ => rfl⟩
  | refDisarm n => exact ⟨id, (execRefDisarm n), fun _ => rfl⟩
  | posEvArm v => exact ⟨id, (execPosEvArm v), fun _ => rfl⟩
  | posEvDisarm v => exact ⟨id, (execPosEvDisarm v), fun _ => rfl⟩
  | eventFire v => exact ⟨id, (execEventFire v), fun _ => rfl⟩
  | trigPulseEnd v => exact ⟨id, (execTrigPulseEnd v), fun _ => rfl⟩
  | positionDoorbell d => exact ⟨id, (execPositionDoorbell d), fun _ => rfl⟩
  | ethFrameReceive p frame fcsOk cut ago => exact ⟨id, (execEthFrameReceive p frame fcsOk cut ago), fun _ => rfl⟩
  | pointInsertion => exact ⟨id, execPointInsertion, fun _ => rfl⟩
  | imageBlockTimeout x => exact ⟨id, (execImageBlockTimeout x), fun _ => rfl⟩
  | ethFrameTransmit p ago => exact ⟨id, (execEthFrameTransmit p ago), fun _ => rfl⟩
  | ethTxtsPop p => exact ⟨id, (execEthTxtsPop p), fun _ => rfl⟩
  | intakeGridFlip g => exact ⟨id, (execIntakeGridFlip g), fun _ => rfl⟩
  | gridBufferClosed g => exact ⟨id, (execGridBufferClosed g), fun _ => rfl⟩
  | gridRelease g => exact ⟨id, (execGridRelease g), fun _ => rfl⟩
  | gridClearDone g => exact ⟨id, (execGridClearDone g), fun _ => rfl⟩
  | nop k w => exact ⟨id, (execNop k w), fun _ => rfl⟩
  | add k w => exact ⟨id, (execAdd k w), fun _ => rfl⟩
  | sub k w => exact ⟨id, (execSub k w), fun _ => rfl⟩
  | andS k w => exact ⟨id, (execAndS k w), fun _ => rfl⟩
  | orS k w => exact ⟨id, (execOrS k w), fun _ => rfl⟩
  | xorS k w => exact ⟨id, (execXorS k w), fun _ => rfl⟩
  | sll k w => exact ⟨id, (execSll k w), fun _ => rfl⟩
  | srl k w => exact ⟨id, (execSrl k w), fun _ => rfl⟩
  | sra k w => exact ⟨id, (execSra k w), fun _ => rfl⟩
  | mul k w => exact ⟨id, (execMul k w), fun _ => rfl⟩
  | mulhu k w => exact ⟨id, (execMulhu k w), fun _ => rfl⟩
  | mulhs k w => exact ⟨id, (execMulhs k w), fun _ => rfl⟩
  | slt k w => exact ⟨id, (execSlt k w), fun _ => rfl⟩
  | sltu k w => exact ⟨id, (execSltu k w), fun _ => rfl⟩
  | minS k w => exact ⟨id, (execMinS k w), fun _ => rfl⟩
  | maxS k w => exact ⟨id, (execMaxS k w), fun _ => rfl⟩
  | minu k w => exact ⟨id, (execMinu k w), fun _ => rfl⟩
  | maxu k w => exact ⟨id, (execMaxu k w), fun _ => rfl⟩
  | clz k w => exact ⟨id, (execClz k w), fun _ => rfl⟩
  | popc k w => exact ⟨id, (execPopc k w), fun _ => rfl⟩
  | mov k w => exact ⟨id, (execMov k w), fun _ => rfl⟩
  | movhi k w => exact ⟨id, (execMovhi k w), fun _ => rfl⟩
  | sread k w => exact ⟨id, (execSread k w), fun _ => rfl⟩
  | swrite k w => exact ⟨id, (execSwrite k w), fun _ => rfl⟩
  | ld8 k w => exact ⟨id, (execLd8 k w), fun _ => rfl⟩
  | ld16 k w => exact ⟨id, (execLd16 k w), fun _ => rfl⟩
  | ld32 k w => exact ⟨id, (execLd32 k w), fun _ => rfl⟩
  | ld64 k w => exact ⟨id, (execLd64 k w), fun _ => rfl⟩
  | lds8 k w => exact ⟨id, (execLds8 k w), fun _ => rfl⟩
  | lds16 k w => exact ⟨id, (execLds16 k w), fun _ => rfl⟩
  | lds32 k w => exact ⟨id, (execLds32 k w), fun _ => rfl⟩
  | st8 k w => exact ⟨id, (execSt8 k w), fun _ => rfl⟩
  | st16 k w => exact ⟨id, (execSt16 k w), fun _ => rfl⟩
  | st32 k w => exact ⟨id, (execSt32 k w), fun _ => rfl⟩
  | st64 k w => exact ⟨id, (execSt64 k w), fun _ => rfl⟩
  | vld k w => exact ⟨id, (execVld k w), fun _ => rfl⟩
  | vst k w => exact ⟨id, (execVst k w), fun _ => rfl⟩
  | pld k w => exact ⟨id, (execPld k w), fun _ => rfl⟩
  | pst k w => exact ⟨id, (execPst k w), fun _ => rfl⟩
  | aupd k w => exact ⟨id, (execAupd k w), fun _ => rfl⟩
  | dma k w => exact ⟨id, (execDma k w), fun _ => rfl⟩
  | dmaComplete k i => exact ⟨id, (execDmaComplete k i), fun _ => rfl⟩
  | fence k w => exact ⟨id, (execFence k w), fun _ => rfl⟩
  | vadd k w => exact ⟨id, (execVadd k w), fun _ => rfl⟩
  | vsub k w => exact ⟨id, (execVsub k w), fun _ => rfl⟩
  | vmul k w => exact ⟨id, (execVmul k w), fun _ => rfl⟩
  | vmulh k w => exact ⟨id, (execVmulh k w), fun _ => rfl⟩
  | vfma k w => exact ⟨id, (execVfma k w), fun _ => rfl⟩
  | vmin k w => exact ⟨id, (execVmin k w), fun _ => rfl⟩
  | vmax k w => exact ⟨id, (execVmax k w), fun _ => rfl⟩
  | vabs k w => exact ⟨id, (execVabs k w), fun _ => rfl⟩
  | vneg k w => exact ⟨id, (execVneg k w), fun _ => rfl⟩
  | vand k w => exact ⟨id, (execVand k w), fun _ => rfl⟩
  | vor k w => exact ⟨id, (execVor k w), fun _ => rfl⟩
  | vxor k w => exact ⟨id, (execVxor k w), fun _ => rfl⟩
  | vnot k w => exact ⟨id, (execVnot k w), fun _ => rfl⟩
  | vshl k w => exact ⟨id, (execVshl k w), fun _ => rfl⟩
  | vshr k w => exact ⟨id, (execVshr k w), fun _ => rfl⟩
  | vshra k w => exact ⟨id, (execVshra k w), fun _ => rfl⟩
  | vshrr k w => exact ⟨id, (execVshrr k w), fun _ => rfl⟩
  | vcvt k w => exact ⟨id, (execVcvt k w), fun _ => rfl⟩
  | vbcast k w => exact ⟨id, (execVbcast k w), fun _ => rfl⟩
  | vmov k w => exact ⟨id, (execVmov k w), fun _ => rfl⟩
  | vcmpeq k w => exact ⟨id, (execVcmpeq k w), fun _ => rfl⟩
  | vcmpne k w => exact ⟨id, (execVcmpne k w), fun _ => rfl⟩
  | vcmplt k w => exact ⟨id, (execVcmplt k w), fun _ => rfl⟩
  | vcmple k w => exact ⟨id, (execVcmple k w), fun _ => rfl⟩
  | vcmpgt k w => exact ⟨id, (execVcmpgt k w), fun _ => rfl⟩
  | vcmpge k w => exact ⟨id, (execVcmpge k w), fun _ => rfl⟩
  | vsel k w => exact ⟨id, (execVsel k w), fun _ => rfl⟩
  | pand k w => exact ⟨id, (execPand k w), fun _ => rfl⟩
  | por k w => exact ⟨id, (execPor k w), fun _ => rfl⟩
  | pxor k w => exact ⟨id, (execPxor k w), fun _ => rfl⟩
  | pnot k w => exact ⟨id, (execPnot k w), fun _ => rfl⟩
  | pcnt k w => exact ⟨id, (execPcnt k w), fun _ => rfl⟩
  | pfirst k w => exact ⟨id, (execPfirst k w), fun _ => rfl⟩
  | vrsum k w => exact ⟨id, (execVrsum k w), fun _ => rfl⟩
  | vrmax k w => exact ⟨id, (execVrmax k w), fun _ => rfl⟩
  | vrmin k w => exact ⟨id, (execVrmin k w), fun _ => rfl⟩
  | vrargmax k w => exact ⟨id, (execVrargmax k w), fun _ => rfl⟩
  | vpermb k w => exact ⟨id, (execVpermb k w), fun _ => rfl⟩
  | vpermw k w => exact ⟨id, (execVpermw k w), fun _ => rfl⟩
  | vshuf k w => exact ⟨id, (execVshuf k w), fun _ => rfl⟩
  | vdeal k w => exact ⟨id, (execVdeal k w), fun _ => rfl⟩
  | vpack k w => exact ⟨id, (execVpack k w), fun _ => rfl⟩
  | vunpkl k w => exact ⟨id, (execVunpkl k w), fun _ => rfl⟩
  | vunpkh k w => exact ⟨id, (execVunpkh k w), fun _ => rfl⟩
  | vrot k w => exact ⟨id, (execVrot k w), fun _ => rfl⟩
  | vcmpx k w => exact ⟨id, (execVcmpx k w), fun _ => rfl⟩
  | vtopk k w => exact ⟨id, (execVtopk k w), fun _ => rfl⟩
  | vexp k w => exact ⟨id, (execVexp k w), fun _ => rfl⟩
  | vrcp k w => exact ⟨id, (execVrcp k w), fun _ => rfl⟩
  | vrsqrt k w => exact ⟨id, (execVrsqrt k w), fun _ => rfl⟩
  | vsmmax k w => exact ⟨id, (execVsmmax k w), fun _ => rfl⟩
  | vsmexp k w => exact ⟨id, (execVsmexp k w), fun _ => rfl⟩
  | vsmnorm k w => exact ⟨id, (execVsmnorm k w), fun _ => rfl⟩
  | vgath k w => exact ⟨id, (execVgath k w), fun _ => rfl⟩
  | vscat k w => exact ⟨id, (execVscat k w), fun _ => rfl⟩
  | aout k w => exact ⟨id, (execAout k w), fun _ => rfl⟩
  | awld k w => exact ⟨id, (execAwld k w), fun _ => rfl⟩
  | arow k w => exact ⟨id, (execArow k w), fun _ => rfl⟩
  | adrain k w => exact ⟨id, (execAdrain k w), fun _ => rfl⟩
  | aclr k w => exact ⟨id, (execAclr k w), fun _ => rfl⟩
  | wread k w => exact ⟨id, (execWread k w), fun _ => rfl⟩
  | tstep k w => exact ⟨id, (execTstep k w), fun _ => rfl⟩
  | async k w => exact ⟨id, (execAsync k w), fun _ => rfl⟩
  | arrayOpBegin k => exact ⟨id, (execArrayOpBegin k), fun _ => rfl⟩
  | arrayStep k => exact ⟨id, (execArrayStep k), fun _ => rfl⟩
  | arrayOpComplete k i => exact ⟨id, (execArrayOpComplete k i), fun _ => rfl⟩
  | drainTransfer k => exact ⟨id, (execDrainTransfer k), fun _ => rfl⟩
  | tileComplete k a => exact ⟨id, (execTileComplete k a), fun _ => rfl⟩
  | arrayGapLimitExpiry k => exact ⟨id, (execArrayGapLimitExpiry k), fun _ => rfl⟩
  | scatterRowIssue k => exact ⟨id, (execScatterRowIssue k), fun _ => rfl⟩
  | bankAdderRetire k b => exact ⟨id, (execBankAdderRetire k b), fun _ => rfl⟩
  | qres k w => exact ⟨id, (execQres k w), fun _ => rfl⟩
  | qresUnblock k => exact ⟨id, (execQresUnblock k), fun _ => rfl⟩
  | qcmt k w => exact ⟨id, (execQcmt k w), fun _ => rfl⟩
  | qacq k w => exact ⟨id, (execQacq k w), fun _ => rfl⟩
  | qacqUnblock k => exact ⟨id, (execQacqUnblock k), fun _ => rfl⟩
  | qrel k w => exact ⟨id, (execQrel k w), fun _ => rfl⟩
  | qwait k w => exact ⟨id, (execQwait k w), fun _ => rfl⟩
  | trd k w => exact ⟨id, (execTrd k w), fun _ => rfl⟩
  | trdt k w => exact ⟨id, (execTrdt k w), fun _ => rfl⟩
  | tpop k w => exact ⟨id, (execTpop k w), fun _ => rfl⟩
  | tstat k w => exact ⟨id, (execTstat k w), fun _ => rfl⟩
  | branchB k w => exact ⟨id, (execBranchB k w), fun _ => rfl⟩
  | beq k w => exact ⟨id, (execBeq k w), fun _ => rfl⟩
  | bne k w => exact ⟨id, (execBne k w), fun _ => rfl⟩
  | blt k w => exact ⟨id, (execBlt k w), fun _ => rfl⟩
  | bge k w => exact ⟨id, (execBge k w), fun _ => rfl⟩
  | bltu k w => exact ⟨id, (execBltu k w), fun _ => rfl⟩
  | bgeu k w => exact ⟨id, (execBgeu k w), fun _ => rfl⟩
  | bl k w => exact ⟨id, (execBl k w), fun _ => rfl⟩
  | bir k w => exact ⟨id, (execBir k w), fun _ => rfl⟩
  | blir k w => exact ⟨id, (execBlir k w), fun _ => rfl⟩
  | eret k w => exact ⟨id, (execEret k w), fun _ => rfl⟩
  | gbar k w => exact ⟨id, (execGbar k w), fun _ => rfl⟩
  | sleep k w => exact ⟨id, (execSleep k w), fun _ => rfl⟩
  | trap k w => exact ⟨id, (execTrap k w), fun _ => rfl⟩
  | idleDozeExpiry k => exact ⟨id, (execIdleDozeExpiry k), fun _ => rfl⟩
  | lowPowerEntry k => exact ⟨id, (execLowPowerEntry k), fun _ => rfl⟩
  | lowPowerExitDone k => exact ⟨id, (execLowPowerExitDone k), fun _ => rfl⟩
  | matchSparse k => exact ⟨id, (execMatchSparse k), fun _ => rfl⟩
  | matchDense k => exact ⟨id, (execMatchDense k), fun _ => rfl⟩
  | nzmap k => exact ⟨id, (execNzmap k), fun _ => rfl⟩
  | sparseJobComplete k => exact ⟨id, (execSparseJobComplete k), fun _ => rfl⟩
  | memToMemory c => exact ⟨id, (execMemToMemory c), fun _ => rfl⟩
  | memToProcessor c => exact ⟨id, (execMemToProcessor c), fun _ => rfl⟩
  | channelDrainComplete c => exact ⟨id, (execChannelDrainComplete c), fun _ => rfl⟩
  | memoryAccess ag a acc => exact ⟨id, (execMemoryAccess ag a acc), fun _ => rfl⟩
  | commandSubmit c p slot w3 => exact ⟨id, (execCommandSubmit c p slot w3), fun _ => rfl⟩
  | commandAccept c => exact ⟨id, (execCommandAccept c), fun _ => rfl⟩
  | bankUnitAdd c => exact ⟨id, (execBankUnitAdd c), fun _ => rfl⟩
  | bankUnitSub c => exact ⟨id, (execBankUnitSub c), fun _ => rfl⟩
  | bankUnitMul c => exact ⟨id, (execBankUnitMul c), fun _ => rfl⟩
  | madd c => exact ⟨id, (execMadd c), fun _ => rfl⟩
  | relu c => exact ⟨id, (execRelu c), fun _ => rfl⟩
  | bankUnitClamp c => exact ⟨id, (execBankUnitClamp c), fun _ => rfl⟩
  | lut c => exact ⟨id, (execLut c), fun _ => rfl⟩
  | bsadd c => exact ⟨id, (execBsadd c), fun _ => rfl⟩
  | bsmul c => exact ⟨id, (execBsmul c), fun _ => rfl⟩
  | moveBu c => exact ⟨id, (execMoveBu c), fun _ => rfl⟩
  | notify c => exact ⟨id, (execNotify c), fun _ => rfl⟩
  | bankUnitComplete c u => exact ⟨id, (execBankUnitComplete c u), fun _ => rfl⟩
  | memTempSample d t => exact ⟨id, (execMemTempSample d t), fun _ => rfl⟩
  | embLookup i => exact ⟨id, (execEmbLookup i), fun _ => rfl⟩
  | embGrad i => exact ⟨id, (execEmbGrad i), fun _ => rfl⟩
  | embRequestComplete r => exact ⟨id, (execEmbRequestComplete r), fun _ => rfl⟩
  | embSub m => exact ⟨id, (execEmbSub m), fun _ => rfl⟩
  | embPart m => exact ⟨id, (execEmbPart m), fun _ => rfl⟩
  | embRemoteTimeout r => exact ⟨id, (execEmbRemoteTimeout r), fun _ => rfl⟩
  | embTabCurWrite t v => exact ⟨id, (execEmbTabCurWrite t v), fun _ => rfl⟩
  | embLoadWindowEnd => exact ⟨id, execEmbLoadWindowEnd, fun _ => rfl⟩
  | embFence => exact ⟨id, execEmbFence, fun _ => rfl⟩
  | embMoveGo => exact ⟨id, execEmbMoveGo, fun _ => rfl⟩
  | embMoveMessage m => exact ⟨id, (execEmbMoveMessage m), fun _ => rfl⟩
  | moveAck dst num refused => exact ⟨id, (execMoveAck dst num refused), fun _ => rfl⟩
  | embMoveTimeout => exact ⟨id, execEmbMoveTimeout, fun _ => rfl⟩
  | clearRedirects => exact ⟨id, execClearRedirects, fun _ => rfl⟩
  | linkEnable l => exact ⟨id, (execLinkEnable l), fun _ => rfl⟩
  | linkDisable l => exact ⟨id, (execLinkDisable l), fun _ => rfl⟩
  | linkRetrain l => exact ⟨id, (execLinkRetrain l), fun _ => rfl⟩
  | linkDrainComplete l => exact ⟨id, (execLinkDrainComplete l), fun _ => rfl⟩
  | linkTrainPhaseDone l i => exact ⟨id, (execLinkTrainPhaseDone l i), fun _ => rfl⟩
  | linkTrainTimeout l => exact ⟨id, (execLinkTrainTimeout l), fun _ => rfl⟩
  | linkTrainRetry l => exact ⟨id, (execLinkTrainRetry l), fun _ => rfl⟩
  | peerRetry l i => exact ⟨id, (execPeerRetry l i), fun _ => rfl⟩
  | linkSignalLoss l => exact ⟨id, (execLinkSignalLoss l), fun _ => rfl⟩
  | linkIdleTimeout l => exact ⟨id, (execLinkIdleTimeout l), fun _ => rfl⟩
  | flitReceive l f => exact ⟨id, (execFlitReceive l f), fun _ => rfl⟩
  | flitTransmit l vc => exact ⟨id, (execFlitTransmit l vc), fun _ => rfl⟩
  | replayTimeout l => exact ⟨id, (execReplayTimeout l), fun _ => rfl⟩
  | boltTransmit => exact ⟨id, execBoltTransmit, fun _ => rfl⟩
  | boltReceive l => exact ⟨id, (execBoltReceive l), fun _ => rfl⟩
  | boltHoldRelease l => exact ⟨id, (execBoltHoldRelease l), fun _ => rfl⟩
  | boltHoldTimeout l => exact ⟨id, (execBoltHoldTimeout l), fun _ => rfl⟩
  | endMsg l => exact ⟨id, (execEndMsg l), fun _ => rfl⟩
  | syncPeriod => exact ⟨id, execSyncPeriod, fun _ => rfl⟩
  | sync l m => exact ⟨id, (execSync l m), fun _ => rfl⟩
  | syncLossTimeout => exact ⟨id, execSyncLossTimeout, fun _ => rfl⟩
  | delayMeasurePeriod l => exact ⟨id, (execDelayMeasurePeriod l), fun _ => rfl⟩
  | delayReq l t1 t2 => exact ⟨id, (execDelayReq l t1 t2), fun _ => rfl⟩
  | delayResp l t1 t2 t3 t4 => exact ⟨id, (execDelayResp l t1 t2 t3 t4), fun _ => rfl⟩
  | pickSend n => exact ⟨id, (execPickSend n), fun _ => rfl⟩
  | pick l m => exact ⟨id, (execPick l m), fun _ => rfl⟩
  | pickApply n => exact ⟨id, (execPickApply n), fun _ => rfl⟩
  | budgetWindow l => exact ⟨id, (execBudgetWindow l), fun _ => rfl⟩
  | checksumEvent => exact ⟨id, execChecksumEvent, fun _ => rfl⟩
  | residueEvent k opc lane => exact ⟨id, (execResidueEvent k opc lane), fun _ => rfl⟩
  | memoryEvent => exact ⟨id, execMemoryEvent, fun _ => rfl⟩
  | e2eEvent => exact ⟨id, execE2eEvent, fun _ => rfl⟩
  | regionEvent => exact ⟨id, execRegionEvent, fun _ => rfl⟩
  | lockstep => exact ⟨id, execLockstep, fun _ => rfl⟩
  | selvEcc corrected => exact ⟨id, (execSelvEcc corrected), fun _ => rfl⟩
  | safeClkFault => exact ⟨id, execSafeClkFault, fun _ => rfl⟩
  | dieTempSample t => exact ⟨id, (execDieTempSample t), fun _ => rfl⟩
  | safeHbToggle => exact ⟨id, execSafeHbToggle, fun _ => rfl⟩
  | result i b => exact ⟨id, (execResult i b), fun _ => rfl⟩
  | frameEnd i b => exact ⟨id, (execFrameEnd i b), fun _ => rfl⟩
  | pairWindowExpiry i => exact ⟨id, (execPairWindowExpiry i), fun _ => rfl⟩
  | seedInjection => exact ⟨id, execSeedInjection, fun _ => rfl⟩
  | seedFrame => exact ⟨id, execSeedFrame, fun _ => rfl⟩
  | seedDeadline i => exact ⟨id, (execSeedDeadline i), fun _ => rfl⟩
  | dmStart m => exact ⟨id, (execDmStart m), fun _ => rfl⟩
  | dmEnd m => exact ⟨id, (execDmEnd m), fun _ => rfl⟩
  | deadline m => exact ⟨id, (execDeadline m), fun _ => rfl⟩
  | selftestRound => exact ⟨id, execSelftestRound, fun _ => rfl⟩
  | selftestSlot r => exact ⟨id, (execSelftestSlot r), fun _ => rfl⟩
  | bandwidthWindow c => exact ⟨id, (execBandwidthWindow c), fun _ => rfl⟩
  | intakeWindowSwitch => exact ⟨id, execIntakeWindowSwitch, fun _ => rfl⟩
  | telegramPeriod => exact ⟨id, execTelegramPeriod, fun _ => rfl⟩
  | getChallenge => exact ⟨id, execGetChallenge, fun _ => rfl⟩
  | clearSafe => exact ⟨id, execClearSafe, fun _ => rfl⟩
  | enterSafe => exact ⟨id, execEnterSafe, fun _ => rfl⟩
  | challengeExpiry => exact ⟨id, execChallengeExpiry, fun _ => rfl⟩
  | pcieHotReset => exact ⟨id, execPcieHotReset, fun _ => rfl⟩
  | bar2Read o n => exact ⟨id, (execBar2Read o n), fun _ => rfl⟩
  | bar2Write o bs poisoned => exact ⟨id, (execBar2Write o bs poisoned), fun _ => rfl⟩
  | bar2ReadTimeout => exact ⟨id, execBar2ReadTimeout, fun _ => rfl⟩
  | bar4Write o bs poisoned => exact ⟨id, (execBar4Write o bs poisoned), fun _ => rfl⟩
  | hostBar2PageWrite n v => exact ⟨id, (execHostBar2PageWrite n v), fun _ => rfl⟩
  | msixSend v => exact ⟨id, (execMsixSend v), fun _ => rfl⟩
  | i2cStart => exact ⟨id, execI2cStart, fun _ => rfl⟩
  | i2cAddressByte b => exact ⟨id, (execI2cAddressByte b), fun _ => rfl⟩
  | i2cWriteByte b => exact ⟨id, (execI2cWriteByte b), fun _ => rfl⟩
  | i2cReadByte nack => exact ⟨id, (execI2cReadByte nack), fun _ => rfl⟩
  | i2cRepeatedStart => exact ⟨id, execI2cRepeatedStart, fun _ => rfl⟩
  | i2cStop partialByte => exact ⟨id, (execI2cStop partialByte), fun _ => rfl⟩
  | i2cSclTimeout => exact ⟨id, execI2cSclTimeout, fun _ => rfl⟩
  | h2bPost => exact ⟨id, execH2bPost, fun _ => rfl⟩
  | h2bAck => exact ⟨id, execH2bAck, fun _ => rfl⟩
  | b2hPost => exact ⟨id, execB2hPost, fun _ => rfl⟩
  | b2hAck => exact ⟨id, execB2hAck, fun _ => rfl⟩
  | supplyHoldBegin => exact ⟨pfFall, execSupplyHoldBegin, fun _ => rfl⟩
  | holdReady => exact ⟨id, execHoldReady, fun _ => rfl⟩
  | supplyHoldEnd => exact ⟨id, execSupplyHoldEnd, fun _ => rfl⟩
  | holdResumeDone us => exact ⟨id, (execHoldResumeDone us), fun _ => rfl⟩
  | traceEnable v => exact ⟨id, (execTraceEnable v), fun _ => rfl⟩
  | traceClear => exact ⟨id, execTraceClear, fun _ => rfl⟩
  | hostMark v => exact ⟨id, (execHostMark v), fun _ => rfl⟩
  | traceSyncPeriod k => exact ⟨id, (execTraceSyncPeriod k), fun _ => rfl⟩
  | pmcClear => exact ⟨id, execPmcClear, fun _ => rfl⟩
  | pmcSnap => exact ⟨id, execPmcSnap, fun _ => rfl⟩
  | traceFreeze v => exact ⟨id, (execTraceFreeze v), fun _ => rfl⟩
  | freezeN => exact ⟨id, execFreezeN, fun _ => rfl⟩
  | freeze => exact ⟨id, execFreeze, fun _ => rfl⟩
  | tapReset => exact ⟨id, execTapReset, fun _ => rfl⟩
  | extest drive => exact ⟨id, (execExtest drive), fun _ => rfl⟩
  | idcode => exact ⟨id, execIdcode, fun _ => rfl⟩
  | samplePreload load => exact ⟨id, (execSamplePreload load), fun _ => rfl⟩
  | extestPulse => exact ⟨id, execExtestPulse, fun _ => rfl⟩
  | extestTrain => exact ⟨id, execExtestTrain, fun _ => rfl⟩
  | highz => exact ⟨id, execHighz, fun _ => rfl⟩
  | clamp => exact ⟨id, execClamp, fun _ => rfl⟩
  | roSelect sel => exact ⟨id, (execRoSelect sel), fun _ => rfl⟩
  | readout => exact ⟨id, execReadout, fun _ => rfl⟩
  | bypass => exact ⟨id, execBypass, fun _ => rfl⟩
  | lowPowerEntryDone k => exact ⟨id, (execLowPowerEntryDone k), fun _ => rfl⟩
  | pcieLinkUp width speed => exact ⟨id, (execPcieLinkUp width speed), fun _ => rfl⟩
  | configurationRequest r => exact ⟨id, (execConfigurationRequest r), fun _ => rfl⟩
  | bar4Read o n => exact ⟨id, (execBar4Read o n), fun _ => rfl⟩
  | supplyLoss selvedge => exact ⟨id, (execSupplyLoss selvedge), fun _ => rfl⟩

end Sys2Proof.Machine
end

