-- ==== Sys2Proof/Laws/Tab.lean ====
section
/-! SUPPORT. The laws of canonical tables: reading after a write, and that every operation keeps the canonical form. -/

namespace Sys2Proof.Machine

set_option Elab.async false

variable {α : Type} [DecidableEq α] {d : Nat → α}

theorem Tab.wfFrom_mono {t : Tab α} {lo lo' : Nat} (h : lo' ≤ lo) (w : Tab.wfFrom d lo t = true) : Tab.wfFrom d lo' t = true := by
  cases t with
  | nil => rfl
  | cons e t =>
    obtain ⟨k, v⟩ := e
    simp only [Tab.wfFrom, Bool.and_eq_true, decide_eq_true_eq] at w ⊢
    exact ⟨⟨by omega, w.1.2⟩, w.2⟩

theorem Tab.wfFrom_cons {t : Tab α} {lo i : Nat} {v : α} (hi : lo ≤ i) (w : Tab.wfFrom d (i + 1) t = true) :
    Tab.wfFrom d lo (Tab.cons d i v t) = true := by
  unfold Tab.cons
  split
  · exact Tab.wfFrom_mono (by omega) w
  · simp only [Tab.wfFrom, Bool.and_eq_true, decide_eq_true_eq]
    exact ⟨⟨hi, by assumption⟩, w⟩

theorem Tab.wfFrom_set {t : Tab α} {lo i : Nat} {v : α} (hi : lo ≤ i) (w : Tab.wfFrom d lo t = true) :
    Tab.wfFrom d lo (Tab.set d t i v) = true := by
  induction t generalizing lo with
  | nil => exact Tab.wfFrom_cons hi rfl
  | cons e t ih =>
    obtain ⟨k, x⟩ := e
    have w' := w
    simp only [Tab.wfFrom, Bool.and_eq_true, decide_eq_true_eq] at w
    unfold Tab.set
    split
    · refine Tab.wfFrom_cons hi ?_
      simp only [Tab.wfFrom, Bool.and_eq_true, decide_eq_true_eq]
      exact ⟨⟨by omega, w.1.2⟩, w.2⟩
    · split
      · subst i
        exact Tab.wfFrom_cons hi w.2
      · simp only [Tab.wfFrom, Bool.and_eq_true, decide_eq_true_eq]
        exact ⟨w.1, ih (by omega) w.2⟩

/-- A write keeps the canonical form. -/
theorem Tab.wf_set {t : Tab α} (i : Nat) (v : α) (w : Tab.wf d t = true) : Tab.wf d (Tab.set d t i v) = true :=
  Tab.wfFrom_set (Nat.zero_le i) w

theorem Tab.wfFrom_filter {t : Tab α} {lo : Nat} (p : Nat × α → Bool) (w : Tab.wfFrom d lo t = true) :
    Tab.wfFrom d lo (t.filter p) = true := by
  induction t generalizing lo with
  | nil => rfl
  | cons e t ih =>
    obtain ⟨k, x⟩ := e
    simp only [Tab.wfFrom, Bool.and_eq_true, decide_eq_true_eq] at w
    rw [List.filter_cons]
    split
    · simp only [Tab.wfFrom, Bool.and_eq_true, decide_eq_true_eq]
      exact ⟨w.1, ih w.2⟩
    · exact Tab.wfFrom_mono (by omega) (ih w.2)

/-- Removing entries keeps the canonical form. -/
theorem Tab.wf_filter {t : Tab α} (p : Nat × α → Bool) (w : Tab.wf d t = true) : Tab.wf d (t.filter p) = true :=
  Tab.wfFrom_filter p w

/-- The entries from a key on. -/
theorem Tab.wfFrom_above {t : Tab α} {lo hi : Nat} (w : Tab.wfFrom d lo t = true) :
    Tab.wfFrom d hi (t.filter fun e => decide (hi ≤ e.1)) = true := by
  induction t generalizing lo with
  | nil => rfl
  | cons e t ih =>
    simp only [Tab.wfFrom, Bool.and_eq_true, decide_eq_true_eq] at w
    by_cases h : hi ≤ e.1
    · have hf := Tab.wfFrom_filter (fun e : Nat × α => decide (hi ≤ e.1)) w.2
      simp only [List.filter_cons, h, decide_true, if_true, Tab.wfFrom, Bool.and_eq_true, decide_eq_true_eq]
      exact ⟨⟨trivial, w.1.2⟩, hf⟩
    · simp only [List.filter_cons, h, decide_false, Bool.false_eq_true, if_false]
      exact ih w.2

/-- A change of a range keeps the canonical form of what lies above it. -/
theorem Tab.wfFrom_mapRange (g : Nat → α → α) : ∀ (n lo : Nat) (t : Tab α), Tab.wfFrom d lo t = true →
    Tab.wfFrom d lo (Tab.mapRange d g n lo t) = true
  | 0, _, _, w => by simpa [Tab.mapRange] using w
  | n + 1, lo, [], _ => Tab.wfFrom_cons (Nat.le_refl lo) (Tab.wfFrom_mapRange g n (lo + 1) [] rfl)
  | n + 1, lo, (k, v) :: t, w => by
    simp only [Tab.wfFrom, Bool.and_eq_true, decide_eq_true_eq] at w
    simp only [Tab.mapRange]
    split
    · rename_i e
      exact Tab.wfFrom_cons (Nat.le_refl lo) (Tab.wfFrom_mapRange g n (lo + 1) t (e ▸ w.2))
    · refine Tab.wfFrom_cons (Nat.le_refl lo) (Tab.wfFrom_mapRange g n (lo + 1) ((k, v) :: t) ?_)
      simp only [Tab.wfFrom, Bool.and_eq_true, decide_eq_true_eq]
      exact ⟨⟨by omega, w.1.2⟩, w.2⟩

/-- Tables of keys below and from a bound make one. -/
theorem Tab.wfFrom_append {a b : Tab α} {lo hi : Nat} (ha : Tab.wfFrom d lo a = true) (hk : ∀ e ∈ a, e.1 < hi) (hl : lo ≤ hi)
    (hb : Tab.wfFrom d hi b = true) : Tab.wfFrom d lo (a ++ b) = true := by
  induction a generalizing lo with
  | nil => exact Tab.wfFrom_mono hl hb
  | cons x a ih =>
    simp only [List.cons_append, Tab.wfFrom, Bool.and_eq_true, decide_eq_true_eq] at ha ⊢
    have hx := hk x (List.mem_cons_self ..)
    exact ⟨ha.1, ih ha.2 (fun e he => hk e (List.mem_cons_of_mem _ he)) (by omega)⟩

theorem Tab.wf_update {t : Tab α} (g : Nat → α → α) (lo n : Nat) (w : Tab.wf d t = true) : Tab.wf d (Tab.update d g lo n t) = true := by
  have h : Tab.wfFrom d lo (t.filter fun e => decide (lo ≤ e.1)) = true := Tab.wfFrom_above w
  exact Tab.wfFrom_append (Tab.wf_filter _ w) (fun e he => by simpa using (List.mem_filter.mp he).2) (Nat.zero_le _)
    (Tab.wfFrom_mapRange g n lo _ h)

/-- The form depends on what an unlisted key holds at the listed keys only. -/
theorem Tab.wfFrom_congr {d' : Nat → α} {t : Tab α} {lo : Nat} (h : ∀ e ∈ t, d e.1 = d' e.1) (w : Tab.wfFrom d lo t = true) :
    Tab.wfFrom d' lo t = true := by
  induction t generalizing lo with
  | nil => rfl
  | cons e t ih =>
    obtain ⟨k, x⟩ := e
    simp only [Tab.wfFrom, Bool.and_eq_true, decide_eq_true_eq] at w ⊢
    refine ⟨⟨w.1.1, ?_⟩, ih (fun e he => h e (List.mem_cons_of_mem _ he)) w.2⟩
    have := h (k, x) (List.mem_cons_self ..)
    simp only at this
    rw [← this]; exact w.1.2

/-- Changing values, none to what an unlisted key holds, keeps the canonical form. -/
theorem Tab.wfFrom_map {t : Tab α} {lo : Nat} (f : α → α) (hf : ∀ k v, v ≠ d k → f v ≠ d k) (w : Tab.wfFrom d lo t = true) :
    Tab.wfFrom d lo (t.map fun e => (e.1, f e.2)) = true := by
  induction t generalizing lo with
  | nil => rfl
  | cons e t ih =>
    obtain ⟨k, x⟩ := e
    simp only [Tab.wfFrom, Bool.and_eq_true, decide_eq_true_eq, List.map_cons] at w ⊢
    exact ⟨⟨w.1.1, hf k x w.1.2⟩, ih w.2⟩

theorem Tab.get_of_lt {t : Tab α} {lo i : Nat} (h : i < lo) (w : Tab.wfFrom d lo t = true) : Tab.get d t i = d i := by
  cases t with
  | nil => rfl
  | cons e t =>
    obtain ⟨k, x⟩ := e
    simp only [Tab.wfFrom, Bool.and_eq_true, decide_eq_true_eq] at w
    unfold Tab.get
    rw [if_pos (by omega)]

theorem Tab.get_cons_same {t : Tab α} {i : Nat} {v : α} (w : Tab.wfFrom d (i + 1) t = true) : Tab.get d (Tab.cons d i v t) i = v := by
  unfold Tab.cons
  split
  · rename_i h; rw [Tab.get_of_lt (Nat.lt_succ_self i) w, h]
  · simp [Tab.get]

theorem Tab.get_set_from {t : Tab α} {lo i : Nat} {v : α} (w : Tab.wfFrom d lo t = true) : Tab.get d (Tab.set d t i v) i = v := by
  induction t generalizing lo with
  | nil => exact Tab.get_cons_same rfl
  | cons e t ih =>
    obtain ⟨k, x⟩ := e
    have w' := w
    simp only [Tab.wfFrom, Bool.and_eq_true, decide_eq_true_eq] at w
    unfold Tab.set
    split
    · refine Tab.get_cons_same ?_
      simp only [Tab.wfFrom, Bool.and_eq_true, decide_eq_true_eq]
      exact ⟨⟨by omega, w.1.2⟩, w.2⟩
    · split
      · subst i; exact Tab.get_cons_same w.2
      · rename_i h1 h2
        rw [Tab.get, if_neg h1, if_neg h2, ih w.2]

/-- Reading the key just written gives the value written, in a canonical table. -/
theorem Tab.get_set_same {t : Tab α} (i : Nat) (v : α) (w : Tab.wf d t = true) : Tab.get d (Tab.set d t i v) i = v :=
  Tab.get_set_from w

theorem Tab.get_cons_ne {t : Tab α} {i j : Nat} {v : α} (h : j ≠ i) (w : Tab.wfFrom d (i + 1) t = true) :
    Tab.get d (Tab.cons d i v t) j = Tab.get d t j := by
  unfold Tab.cons
  split
  · rfl
  · rw [Tab.get]
    split
    · rw [Tab.get_of_lt (by omega) w]
    · rfl

theorem Tab.get_set_ne_from {t : Tab α} {lo i j : Nat} {v : α} (h : j ≠ i) (w : Tab.wfFrom d lo t = true) :
    Tab.get d (Tab.set d t i v) j = Tab.get d t j := by
  induction t generalizing lo with
  | nil => exact Tab.get_cons_ne h rfl
  | cons e t ih =>
    obtain ⟨k, x⟩ := e
    have w' := w
    simp only [Tab.wfFrom, Bool.and_eq_true, decide_eq_true_eq] at w
    unfold Tab.set
    split
    · refine Tab.get_cons_ne h ?_
      simp only [Tab.wfFrom, Bool.and_eq_true, decide_eq_true_eq]
      exact ⟨⟨by omega, w.1.2⟩, w.2⟩
    · split
      · subst i
        rw [Tab.get_cons_ne h w.2]
        conv_rhs => rw [Tab.get]
        split
        · rw [Tab.get_of_lt (by omega) w.2]
        · rfl
      · conv_rhs => rw [Tab.get]
        rw [Tab.get, ih w.2]

/-- Reading another key gives what it gave before, in a canonical table. -/
theorem Tab.get_set_ne {t : Tab α} {i j : Nat} (v : α) (h : j ≠ i) (w : Tab.wf d t = true) :
    Tab.get d (Tab.set d t i v) j = Tab.get d t j := Tab.get_set_ne_from h w

/-! ### Device memory -/

theorem Memory.wf_write {g : MemGen} {m : List Host.Cell} {a : Nat} {b : Byte} (w : Memory.wf g m = true) :
    Memory.wf g (Memory.write g m a b) = true := Tab.wf_set _ _ w

/-- A write of bytes keeps the canonical form. -/
theorem Memory.wf_writes {g : MemGen} {m : List Host.Cell} {a : Nat} {bs : List Byte} (w : Memory.wf g m = true) :
    Memory.wf g (Memory.writes g m a bs) = true := by
  induction bs generalizing m a with
  | nil => exact w
  | cons b bs ih => exact ih (Memory.wf_write w)

/-- Companion memory that loses its contents keeps the canonical form. -/
theorem Memory.wf_loseComp {g : MemGen} {m : List Host.Cell} {n : Nat} (w : Memory.wf g m = true) :
    Memory.wf ⟨n, g.die⟩ (m.filter fun e => !inComp e.1) = true := by
  refine Tab.wfFrom_congr (d := memUnlisted g) (fun e he => ?_) (Tab.wf_filter _ w)
  have h := (List.mem_filter.mp he).2
  simp only [Bool.not_eq_true'] at h
  simp [memUnlisted, h]

/-- On-die stores that lose their contents keep the canonical form. -/
theorem Memory.wf_loseOnDie {g : MemGen} {m : List Host.Cell} {n : Nat} (w : Memory.wf g m = true) :
    Memory.wf ⟨g.comp, n⟩ (m.filter fun e => inComp e.1) = true := by
  refine Tab.wfFrom_congr (d := memUnlisted g) (fun e he => ?_) (Tab.wf_filter _ w)
  have h := (List.mem_filter.mp he).2
  simp [memUnlisted, h]

end Sys2Proof.Machine
end

