-- ==== Sys2Proof/Laws/Within.lean ====
section
/-! SUPPORT. What a change of the state may touch: `Within M s t` says that t has the queue of s, that the tables of t are in
canonical form if those of s are, and that t differs from s at most in the fields whose bits M has. Bit i of a mask stands for
field number i + 1 of `State`: 0 powered, 1 pins, 2 clk, 3 regs, 4 shadows, 5 mem, 6 memGen, 7 health, 8 loader, 9 warp, 10 pos,
11 slots, 12 intake, 13 cores, 14 chans, 15 emb, 16 chain, 17 selv, 18 host, 19 i2c, 20 hold, 21 trace, 22 frz, 23 tap, 24 out,
25 resp, 26 freeCtr, 27 contract. -/

namespace Sys2Proof.Machine

set_option Elab.async false

/-- t comes from s by changes of the fields of M only, with the queue kept and the canonical forms kept. -/
structure Within (M : Nat) (s t : State) : Prop where
  pending : t.pending = s.pending
  wf : s.wf = true → t.wf = true
  powered : M.testBit 0 = false → t.powered = s.powered
  pins : M.testBit 1 = false → t.pins = s.pins
  clk : M.testBit 2 = false → t.clk = s.clk
  regs : M.testBit 3 = false → t.regs = s.regs
  shadows : M.testBit 4 = false → t.shadows = s.shadows
  mem : M.testBit 5 = false → t.mem = s.mem
  memGen : M.testBit 6 = false → t.memGen = s.memGen
  health : M.testBit 7 = false → t.health = s.health
  loader : M.testBit 8 = false → t.loader = s.loader
  warp : M.testBit 9 = false → t.warp = s.warp
  pos : M.testBit 10 = false → t.pos = s.pos
  slots : M.testBit 11 = false → t.slots = s.slots
  intake : M.testBit 12 = false → t.intake = s.intake
  cores : M.testBit 13 = false → t.cores = s.cores
  chans : M.testBit 14 = false → t.chans = s.chans
  emb : M.testBit 15 = false → t.emb = s.emb
  chain : M.testBit 16 = false → t.chain = s.chain
  selv : M.testBit 17 = false → t.selv = s.selv
  host : M.testBit 18 = false → t.host = s.host
  i2c : M.testBit 19 = false → t.i2c = s.i2c
  hold : M.testBit 20 = false → t.hold = s.hold
  trace : M.testBit 21 = false → t.trace = s.trace
  frz : M.testBit 22 = false → t.frz = s.frz
  tap : M.testBit 23 = false → t.tap = s.tap
  out : M.testBit 24 = false → t.out = s.out
  resp : M.testBit 25 = false → t.resp = s.resp
  freeCtr : M.testBit 26 = false → t.freeCtr = s.freeCtr
  contract : M.testBit 27 = false → t.contract = s.contract

theorem Within.refl (M : Nat) (s : State) : Within M s s where
  pending := rfl
  wf h := h
  powered _ := rfl
  pins _ := rfl
  clk _ := rfl
  regs _ := rfl
  shadows _ := rfl
  mem _ := rfl
  memGen _ := rfl
  health _ := rfl
  loader _ := rfl
  warp _ := rfl
  pos _ := rfl
  slots _ := rfl
  intake _ := rfl
  cores _ := rfl
  chans _ := rfl
  emb _ := rfl
  chain _ := rfl
  selv _ := rfl
  host _ := rfl
  i2c _ := rfl
  hold _ := rfl
  trace _ := rfl
  frz _ := rfl
  tap _ := rfl
  out _ := rfl
  resp _ := rfl
  freeCtr _ := rfl
  contract _ := rfl

theorem testBit_of_sub {N M i : Nat} (h : Nat.land N M = N) (hm : M.testBit i = false) : N.testBit i = false := by
  have e : (N &&& M).testBit i = N.testBit i := congrArg (fun x => Nat.testBit x i) h
  rw [Nat.testBit_and, hm, Bool.and_false] at e
  exact e.symm

theorem sub_trans {a b c : Nat} (h : Nat.land a b = a) (h' : Nat.land b c = b) : Nat.land a c = a := by
  have e : a &&& b = a := h
  have e' : b &&& c = b := h'
  calc a &&& c = (a &&& b) &&& c := by rw [e]
    _ = a &&& (b &&& c) := Nat.and_assoc ..
    _ = a := by rw [e', e]

/-- A change within N follows one within M, N a part of M. -/
theorem Within.step {N M : Nat} {s0 s t : State} (h : Within N s t) (hs : Nat.land N M = N) (h0 : Within M s0 s) : Within M s0 t where
  pending := h.pending.trans h0.pending
  wf w := h.wf (h0.wf w)
  powered b := (h.powered (testBit_of_sub hs b)).trans (h0.powered b)
  pins b := (h.pins (testBit_of_sub hs b)).trans (h0.pins b)
  clk b := (h.clk (testBit_of_sub hs b)).trans (h0.clk b)
  regs b := (h.regs (testBit_of_sub hs b)).trans (h0.regs b)
  shadows b := (h.shadows (testBit_of_sub hs b)).trans (h0.shadows b)
  mem b := (h.mem (testBit_of_sub hs b)).trans (h0.mem b)
  memGen b := (h.memGen (testBit_of_sub hs b)).trans (h0.memGen b)
  health b := (h.health (testBit_of_sub hs b)).trans (h0.health b)
  loader b := (h.loader (testBit_of_sub hs b)).trans (h0.loader b)
  warp b := (h.warp (testBit_of_sub hs b)).trans (h0.warp b)
  pos b := (h.pos (testBit_of_sub hs b)).trans (h0.pos b)
  slots b := (h.slots (testBit_of_sub hs b)).trans (h0.slots b)
  intake b := (h.intake (testBit_of_sub hs b)).trans (h0.intake b)
  cores b := (h.cores (testBit_of_sub hs b)).trans (h0.cores b)
  chans b := (h.chans (testBit_of_sub hs b)).trans (h0.chans b)
  emb b := (h.emb (testBit_of_sub hs b)).trans (h0.emb b)
  chain b := (h.chain (testBit_of_sub hs b)).trans (h0.chain b)
  selv b := (h.selv (testBit_of_sub hs b)).trans (h0.selv b)
  host b := (h.host (testBit_of_sub hs b)).trans (h0.host b)
  i2c b := (h.i2c (testBit_of_sub hs b)).trans (h0.i2c b)
  hold b := (h.hold (testBit_of_sub hs b)).trans (h0.hold b)
  trace b := (h.trace (testBit_of_sub hs b)).trans (h0.trace b)
  frz b := (h.frz (testBit_of_sub hs b)).trans (h0.frz b)
  tap b := (h.tap (testBit_of_sub hs b)).trans (h0.tap b)
  out b := (h.out (testBit_of_sub hs b)).trans (h0.out b)
  resp b := (h.resp (testBit_of_sub hs b)).trans (h0.resp b)
  freeCtr b := (h.freeCtr (testBit_of_sub hs b)).trans (h0.freeCtr b)
  contract b := (h.contract (testBit_of_sub hs b)).trans (h0.contract b)

theorem Within.ite {M : Nat} {c : Prop} [Decidable c] {s a b : State} (ha : Within M s a) (hb : Within M s b) :
    Within M s (if c then a else b) := by split <;> assumption

theorem Within.dite {M : Nat} {c : Prop} [Decidable c] {s : State} {a : c → State} {b : ¬c → State} (ha : ∀ h, Within M s (a h))
    (hb : ∀ h, Within M s (b h)) : Within M s (dite c a b) := by
  split
  · exact ha _
  · exact hb _

theorem Within.foldl {M : Nat} {α : Type} {f : State → α → State} {l : List α} {s0 s : State}
    (hf : ∀ s a, Within M s (f s a)) (h : Within M s0 s) : Within M s0 (l.foldl f s) := by
  induction l generalizing s with
  | nil => exact h
  | cons a l ih => exact ih (Within.step (hf s a) (Nat.and_self M) h)

/-- The same for a fold whose accumulator holds more than the state. -/
theorem Within.foldl_acc {M : Nat} {α β : Type} {f : β → α → β} (p : β → State) {l : List α} {s0 : State} {b : β}
    (hf : ∀ b a, Within M (p b) (p (f b a))) (h : Within M s0 (p b)) : Within M s0 (p (l.foldl f b)) := by
  induction l generalizing b with
  | nil => exact h
  | cons a l ih => exact ih (Within.step (hf b a) (Nat.and_self M) h)

/-- The same for a fold over pairs whose second member is the state. -/
theorem Within.foldl_pair {M : Nat} {α β : Type} {f : β × State → α → β × State} {l : List α} {s0 t : State} {b : β × State} {x : β}
    (hf : ∀ b a, Within M b.2 (f b a).2) (h : Within M s0 b.2) (e : l.foldl f b = (x, t)) : Within M s0 t := by
  have := Within.foldl_acc (Prod.snd) hf h (l := l)
  rw [e] at this
  exact this

theorem Within.foldl_snd {M : Nat} {α β : Type} {f : β × State → α → β × State} {l : List α} {s0 : State} {b : β × State}
    (hf : ∀ b a, Within M b.2 (f b a).2) (h : Within M s0 b.2) : Within M s0 (l.foldl f b).2 :=
  Within.foldl_acc (Prod.snd) hf h

theorem Within.foldl_fst {M : Nat} {α β : Type} {f : State × β → α → State × β} {l : List α} {s0 : State} {b : State × β}
    (hf : ∀ b a, Within M b.1 (f b a).1) (h : Within M s0 b.1) : Within M s0 (l.foldl f b).1 :=
  Within.foldl_acc (Prod.fst) hf h

theorem Within.of_pair1 {M : Nat} {α : Type} {s0 t : State} {p : State × α} {x : α} (e : p = (t, x)) (h : Within M s0 p.1) :
    Within M s0 t := by subst e; exact h

theorem Within.of_pair3 {M : Nat} {α β : Type} {s0 t : State} {p : α × β × State} {x : α} {y : β} (e : p = (x, y, t))
    (h : Within M s0 p.2.2) : Within M s0 t := by subst e; exact h

theorem Within.of_pair4 {M : Nat} {α β γ : Type} {s0 t : State} {p : α × β × γ × State} {x : α} {y : β} {z : γ} (e : p = (x, y, z, t))
    (h : Within M s0 p.2.2.2) : Within M s0 t := by subst e; exact h

theorem Within.of_pair {M : Nat} {α : Type} {s0 t : State} {p : α × State} {x : α} (e : p = (x, t)) (h : Within M s0 p.2) :
    Within M s0 t := by subst e; exact h

/-- A state written field by field. -/
theorem Within.lit {M : Nat} {s0 s : State}
    {pending powered pins clk regs shadows mem memGen health loader warp pos slots intake cores chans emb chain selv host i2c hold
      trace frz tap out resp freeCtr contract}
    (hp : pending = s.pending) (h : Within M s0 s)
    (h3 : regs = s.regs := by rfl) (h5 : mem = s.mem := by rfl) (h6 : memGen = s.memGen := by rfl) (h7 : health = s.health := by rfl)
    (h11 : slots = s.slots := by rfl) (h13 : cores = s.cores := by rfl) (h14 : chans = s.chans := by rfl)
    (h0 : powered = s.powered ∨ M.testBit 0 = true := by exact .inl rfl)
    (h1 : pins = s.pins ∨ M.testBit 1 = true := by exact .inl rfl)
    (h2 : clk = s.clk ∨ M.testBit 2 = true := by exact .inl rfl)
    (h4 : shadows = s.shadows ∨ M.testBit 4 = true := by exact .inl rfl)
    (h8 : loader = s.loader ∨ M.testBit 8 = true := by exact .inl rfl)
    (h9 : warp = s.warp ∨ M.testBit 9 = true := by exact .inl rfl)
    (h10 : pos = s.pos ∨ M.testBit 10 = true := by exact .inl rfl)
    (h12 : intake = s.intake ∨ M.testBit 12 = true := by exact .inl rfl)
    (h15 : emb = s.emb ∨ M.testBit 15 = true := by exact .inl rfl)
    (h16 : chain = s.chain ∨ M.testBit 16 = true := by exact .inl rfl)
    (h17 : selv = s.selv ∨ M.testBit 17 = true := by exact .inl rfl)
    (h18 : host = s.host ∨ M.testBit 18 = true := by exact .inl rfl)
    (h19 : i2c = s.i2c ∨ M.testBit 19 = true := by exact .inl rfl)
    (h20 : hold = s.hold ∨ M.testBit 20 = true := by exact .inl rfl)
    (h21 : trace = s.trace ∨ M.testBit 21 = true := by exact .inl rfl)
    (h22 : frz = s.frz ∨ M.testBit 22 = true := by exact .inl rfl)
    (h23 : tap = s.tap ∨ M.testBit 23 = true := by exact .inl rfl)
    (h24 : out = s.out ∨ M.testBit 24 = true := by exact .inl rfl)
    (h25 : resp = s.resp ∨ M.testBit 25 = true := by exact .inl rfl)
    (h26 : freeCtr = s.freeCtr ∨ M.testBit 26 = true := by exact .inl rfl)
    (h27 : contract = s.contract ∨ M.testBit 27 = true := by exact .inl rfl)
    :
    Within M s0 ⟨pending, powered, pins, clk, regs, shadows, mem, memGen, health, loader, warp, pos, slots, intake, cores, chans, emb,
      chain, selv, host, i2c, hold, trace, frz, tap, out, resp, freeCtr, contract⟩ := by
  subst hp h3 h5 h6 h7 h11 h13 h14
  refine Within.step (N := M) ?_ (Nat.and_self M) h
  exact ⟨rfl, fun w => w
    , fun b => h0.resolve_right (by rw [b]; decide)
    , fun b => h1.resolve_right (by rw [b]; decide)
    , fun b => h2.resolve_right (by rw [b]; decide)
    , fun _ => rfl
    , fun b => h4.resolve_right (by rw [b]; decide)
    , fun _ => rfl
    , fun _ => rfl
    , fun _ => rfl
    , fun b => h8.resolve_right (by rw [b]; decide)
    , fun b => h9.resolve_right (by rw [b]; decide)
    , fun b => h10.resolve_right (by rw [b]; decide)
    , fun _ => rfl
    , fun b => h12.resolve_right (by rw [b]; decide)
    , fun _ => rfl
    , fun _ => rfl
    , fun b => h15.resolve_right (by rw [b]; decide)
    , fun b => h16.resolve_right (by rw [b]; decide)
    , fun b => h17.resolve_right (by rw [b]; decide)
    , fun b => h18.resolve_right (by rw [b]; decide)
    , fun b => h19.resolve_right (by rw [b]; decide)
    , fun b => h20.resolve_right (by rw [b]; decide)
    , fun b => h21.resolve_right (by rw [b]; decide)
    , fun b => h22.resolve_right (by rw [b]; decide)
    , fun b => h23.resolve_right (by rw [b]; decide)
    , fun b => h24.resolve_right (by rw [b]; decide)
    , fun b => h25.resolve_right (by rw [b]; decide)
    , fun b => h26.resolve_right (by rw [b]; decide)
    , fun b => h27.resolve_right (by rw [b]; decide)
    ⟩

/-! ### Outcomes -/

/-- Every next state of an outcome is within M. -/
def WithinR (M : Nat) (s : State) (r : Res State) : Prop := ∀ t, r = .next t → Within M s t

theorem WithinR.next {M : Nat} {s t : State} (h : Within M s t) : WithinR M s (.next t) := by
  intro u e; cases e; exact h
theorem WithinR.outside {M : Nat} {s : State} {x : Nat} : WithinR M s (.outside x) := by intro u e; cases e
theorem WithinR.oc {M : Nat} {s : State} {r : Nat} : WithinR M s (oc r) := WithinR.outside
theorem WithinR.step {N M : Nat} {s0 s : State} {r : Res State} (h : WithinR N s r) (hs : Nat.land N M = N) (h0 : Within M s0 s) :
    WithinR M s0 r := fun t e => Within.step (h t e) hs h0
theorem WithinR.ite {M : Nat} {c : Prop} [Decidable c] {s : State} {a b : Res State} (ha : WithinR M s a) (hb : WithinR M s b) :
    WithinR M s (if c then a else b) := by split <;> assumption
theorem WithinR.andThen {M : Nat} {s0 : State} {r : Res State} {f : State → Res State} (hf : ∀ s, WithinR M s (f s))
    (hr : WithinR M s0 r) : WithinR M s0 (andThen r f) := by
  intro t e
  unfold Machine.andThen at e
  split at e
  · exact Within.step (hf _ t e) (Nat.and_self M) (hr _ rfl)
  · cases e
theorem WithinR.onlyIf {M : Nat} {b : Bool} {f : State → State} {s0 s : State} (hf : ∀ s, Within M s (f s)) (h : Within M s0 s) :
    WithinR M s0 (onlyIf b f s) := by
  unfold Machine.onlyIf
  split
  · exact WithinR.next (Within.step (hf s) (Nat.and_self M) h)
  · exact WithinR.next h
theorem WithinR.onlyIfR {M : Nat} {b : Bool} {f : State → Res State} {s0 s : State} (hf : ∀ s, WithinR M s (f s)) (h : Within M s0 s) :
    WithinR M s0 (onlyIfR b f s) := by
  unfold Machine.onlyIfR
  split
  · exact WithinR.step (hf s) (Nat.and_self M) h
  · exact WithinR.next h
theorem WithinR.foldl {M : Nat} {α : Type} {f : Res State → α → Res State} {l : List α} {s0 : State} {r : Res State}
    (hf : ∀ r a, WithinR M s0 r → WithinR M s0 (f r a)) (h : WithinR M s0 r) : WithinR M s0 (l.foldl f r) := by
  induction l generalizing r with
  | nil => exact h
  | cons a l ih => exact ih (hf r a h)
theorem WithinR.foldRes {M : Nat} {α : Type} {f : α → State → Res State} {l : List α} {s0 s : State} (hf : ∀ a s, WithinR M s (f a s))
    (h : Within M s0 s) : WithinR M s0 (foldRes f l s) := by
  induction l generalizing s0 s with
  | nil => exact WithinR.next h
  | cons a l ih => exact WithinR.andThen (fun s => ih (Within.refl M s)) (WithinR.step (hf a s) (Nat.and_self M) h)
theorem WithinR.hostWrite {M : Nat} {d : Dom} {f : State → Res State} {s : State} (hold : ∀ s, Within M s (holdDiscard s))
    (hf : ∀ s, WithinR M s (f s)) : WithinR M s (hostWrite d f s) := by
  have h : WithinR M s (.next s) := WithinR.next (Within.refl M s)
  exact WithinR.ite h (WithinR.ite (WithinR.next (hold s)) (WithinR.ite h (WithinR.ite h (hf s))))
theorem WithinR.get {M : Nat} {s0 t : State} {r : Res State} (h : WithinR M s0 r) (e : r = .next t) : Within M s0 t := h t e

/-- The same for an outcome that carries a value beside the state. -/
def WithinP {α : Type} (M : Nat) (s : State) (r : Res (α × State)) : Prop := ∀ x t, r = .next (x, t) → Within M s t

theorem WithinP.next {α : Type} {M : Nat} {s t : State} {x : α} (h : Within M s t) : WithinP M s (.next (x, t)) := by
  intro y u e; cases e; exact h
theorem WithinP.outside {α : Type} {M : Nat} {s : State} {x : Nat} : WithinP (α := α) M s (.outside x) := by intro u y e; cases e
theorem WithinP.get {α : Type} {M : Nat} {s0 t : State} {x : α} {r : Res (α × State)} (h : WithinP M s0 r) (e : r = .next (x, t)) :
    Within M s0 t := h x t e

/-- The same for a queue operation. -/
def WithinQ (M : Nat) (s : State) (r : QOut) : Prop := ∀ w t, r = .done w t → Within M s t

theorem WithinQ.done {M : Nat} {s t : State} {w : Writes} (h : Within M s t) : WithinQ M s (.done w t) := by
  intro w u e; cases e; exact h
theorem WithinQ.refused {M : Nat} {s : State} : WithinQ M s .refused := by intro w u e; cases e
theorem WithinQ.blocks {M : Nat} {s : State} : WithinQ M s .blocks := by intro w u e; cases e
theorem WithinQ.get {M : Nat} {s0 t : State} {w : Writes} {r : QOut} (h : WithinQ M s0 r) (e : r = .done w t) : Within M s0 t := h w t e
theorem WithinQ.step {N M : Nat} {s0 s : State} {r : QOut} (h : WithinQ N s r) (hs : Nat.land N M = N) (h0 : Within M s0 s) :
    WithinQ M s0 r := fun w t e => Within.step (h w t e) hs h0

end Sys2Proof.Machine
end

