-- ==== Sys2Proof/Laws/FrameBase.lean ====
section
/-! SUPPORT. Within which fields of the state each operation stays: the registers, memory, trace, selvedge events, queues and cores. A theorem `f_within` names the fields by its mask. -/

set_option linter.unreachableTactic false
set_option linter.unusedTactic false

namespace Sys2Proof.Machine

set_option Elab.async false

theorem State.leave_within {x0 s} : Within 134217728 s (State.leave x0 s) := by
  dsimp only [State.leave]
  with_reducible repeat' first
    | apply Within.refl
    | apply Within.ite
    | fail_if_no_progress refine Within.lit rfl ?_ (h27 := .inr (by decide))
    | split
    | dsimp only

theorem State.wr_within {s a v} : Within 8 s (State.wr s a v) := by
  refine { Within.refl 8 s with wf := fun w => ?_, regs := fun b => absurd b (by decide) }
  simp only [State.wf, Bool.and_eq_true] at w ⊢
  exact ⟨⟨⟨⟨⟨Tab.wf_set _ _ w.1.1.1.1.1, w.1.1.1.1.2⟩, w.1.1.1.2⟩, w.1.1.2⟩, w.1.2⟩, w.2⟩

theorem State.putF_within {s x1 x2 x3 x4} : Within 8 s (State.putF s x1 x2 x3 x4) := by
  dsimp only [State.putF]
  with_reducible repeat' first
    | apply Within.refl
    | apply Within.ite
    | (apply Within.step State.wr_within; decide)
    | dsimp only

theorem State.putB_within {s x1 x2 x3} : Within 8 s (State.putB s x1 x2 x3) := by
  dsimp only [State.putB]
  with_reducible repeat' first
    | apply Within.refl
    | apply Within.ite
    | (apply Within.step State.putF_within; decide)
    | split
    | dsimp only

theorem State.wrQ_within {s a n v} : Within 8 s (State.wrQ s a n v) := by
  induction n generalizing s a v with
  | zero => exact Within.refl _ _
  | succ n ih => exact Within.step ih (by decide) State.wr_within

theorem State.wrN_within {s x1 x2} : Within 8 s (State.wrN s x1 x2) := by
  dsimp only [State.wrN]
  with_reducible repeat' first
    | apply Within.refl
    | (apply Within.step State.wr_within; decide)
    | dsimp only

theorem State.satAdd_within {s x1 x2} : Within 8 s (State.satAdd s x1 x2) := by
  dsimp only [State.satAdd]
  with_reducible repeat' first
    | apply Within.refl
    | (apply Within.step State.wrN_within; decide)
    | dsimp only

theorem State.sat_within {s x1} : Within 8 s (State.sat s x1) := by
  dsimp only [State.sat]
  with_reducible repeat' first
    | apply Within.refl
    | (apply Within.step State.satAdd_within; decide)
    | dsimp only

theorem State.inc_within {s x1} : Within 8 s (State.inc s x1) := by
  dsimp only [State.inc]
  with_reducible repeat' first
    | apply Within.refl
    | (apply Within.step State.wr_within; decide)
    | dsimp only

theorem State.satF_within {s x1 x2 x3} : Within 8 s (State.satF s x1 x2 x3) := by
  dsimp only [State.satF]
  with_reducible repeat' first
    | apply Within.refl
    | (apply Within.step State.putF_within; decide)
    | dsimp only

theorem State.putRw_within {s x1 x2} : Within 8 s (State.putRw s x1 x2) := by
  dsimp only [State.putRw]
  with_reducible repeat' first
    | apply Within.refl
    | apply Within.ite
    | (apply Within.step State.wr_within; decide)
    | split
    | dsimp only

theorem State.resetRange_within {s lo hi} : Within 8 s (State.resetRange s lo hi) := by
  refine { Within.refl 8 s with wf := fun w => ?_, regs := fun b => absurd b (by decide) }
  simp only [State.wf, Bool.and_eq_true] at w ⊢
  exact ⟨⟨⟨⟨⟨Tab.wf_filter _ w.1.1.1.1.1, w.1.1.1.1.2⟩, w.1.1.1.2⟩, w.1.1.2⟩, w.1.2⟩, w.2⟩

theorem State.putBytes_within {s a bs} : Within 32 s (State.putBytes s a bs) := by
  refine { Within.refl 32 s with wf := fun w => ?_, mem := fun b => absurd b (by decide) }
  simp only [State.wf, Bool.and_eq_true] at w ⊢
  exact ⟨⟨⟨⟨⟨w.1.1.1.1.1, Memory.wf_writes w.1.1.1.1.2⟩, w.1.1.1.2⟩, w.1.1.2⟩, w.1.2⟩, w.2⟩

theorem State.loseComp_within {s} : Within 224 s (State.loseComp s) := by
  refine { Within.refl 224 s with
    wf := fun w => ?_, mem := fun b => absurd b (by decide), memGen := fun b => absurd b (by decide), health := fun b => absurd b (by decide) }
  simp only [State.wf, Bool.and_eq_true] at w ⊢
  exact ⟨⟨⟨⟨⟨w.1.1.1.1.1, Memory.wf_loseComp w.1.1.1.1.2⟩, rfl⟩, w.1.1.2⟩, w.1.2⟩, w.2⟩

theorem State.loseOnDie_within {s} : Within 96 s (State.loseOnDie s) := by
  refine { Within.refl 96 s with wf := fun w => ?_, mem := fun b => absurd b (by decide), memGen := fun b => absurd b (by decide) }
  simp only [State.wf, Bool.and_eq_true] at w ⊢
  exact ⟨⟨⟨⟨⟨w.1.1.1.1.1, Memory.wf_loseOnDie w.1.1.1.1.2⟩, w.1.1.1.2⟩, w.1.1.2⟩, w.1.2⟩, w.2⟩

theorem State.tickFree_within {s} : Within 67108864 s (State.tickFree s) := by
  dsimp only [State.tickFree]
  with_reducible repeat' first
    | apply Within.refl
    | fail_if_no_progress refine Within.lit rfl ?_ (h26 := .inr (by decide))
    | dsimp only

theorem State.emit_within {s x1} : Within 16777216 s (State.emit s x1) := by
  dsimp only [State.emit]
  with_reducible repeat' first
    | apply Within.refl
    | fail_if_no_progress refine Within.lit rfl ?_ (h24 := .inr (by decide))
    | dsimp only

theorem State.answer_within {s x1} : Within 33554432 s (State.answer s x1) := by
  dsimp only [State.answer]
  with_reducible repeat' first
    | apply Within.refl
    | fail_if_no_progress refine Within.lit rfl ?_ (h25 := .inr (by decide))
    | dsimp only

theorem State.setStage_within {s x1} : Within 8 s (State.setStage s x1) := by
  dsimp only [State.setStage]
  with_reducible repeat' first
    | apply Within.refl
    | (apply Within.step State.putF_within; decide)
    | dsimp only

theorem State.msixGo_within {s x1} : Within 16777224 s (State.msixGo s x1) := by
  dsimp only [State.msixGo]
  with_reducible repeat' first
    | apply Within.refl
    | (apply Within.step State.emit_within; decide)
    | (apply Within.step State.putB_within; decide)
    | dsimp only

theorem State.raise_within {s x1} : Within 16777224 s (State.raise s x1) := by
  dsimp only [State.raise]
  with_reducible repeat' first
    | apply Within.refl
    | apply Within.ite
    | (apply Within.step State.msixGo_within; decide)
    | (apply Within.step State.putB_within; decide)
    | split
    | dsimp only

theorem pmcAdd_within {x0 s x2} : Within 8 s (pmcAdd x0 s x2) := by
  dsimp only [pmcAdd]
  with_reducible repeat' first
    | apply Within.refl
    | (apply Within.step State.wrQ_within; decide)
    | dsimp only

theorem pmcCount_within {x0 x1 x2 s} : Within 8 s (pmcCount x0 x1 x2 s) := by
  dsimp only [pmcCount]
  with_reducible repeat' first
    | apply Within.refl
    | apply Within.ite
    | (apply Within.step pmcAdd_within; decide)
    | refine Within.foldl (fun s a => ?_) ?_
    | refine Within.foldl_snd (fun b a => ?_) ?_
    | refine Within.foldl_fst (fun b a => ?_) ?_
    | refine Within.foldl_pair (fun b a => ?_) ?_ (by assumption)
    | split
    | assumption
    | dsimp only

theorem traceSeq_within {s x1} : Within 2097152 s (traceSeq s x1) := by
  dsimp only [traceSeq]
  with_reducible repeat' first
    | apply Within.refl
    | fail_if_no_progress refine Within.lit rfl ?_ (h21 := .inr (by decide))
    | dsimp only

theorem traceFull_within {s} : Within 8 s (traceFull s) := by
  dsimp only [traceFull]
  with_reducible repeat' first
    | apply Within.refl
    | (apply Within.step State.putB_within; decide)
    | dsimp only

theorem ringPut_within {s x1} : Within 2097160 s (ringPut s x1) := by
  dsimp only [ringPut]
  with_reducible repeat' first
    | apply Within.refl
    | (apply Within.step traceFull_within; decide)
    | (apply Within.step State.inc_within; decide)
    | fail_if_no_progress refine Within.lit rfl ?_ (h21 := .inr (by decide))
    | dsimp only

theorem countLost_within {x0 s} : Within 8 s (countLost x0 s) := by
  dsimp only [countLost]
  with_reducible repeat' first
    | apply Within.refl
    | apply Within.ite
    | (apply Within.step pmcCount_within; decide)
    | (apply Within.step State.sat_within; decide)
    | (apply Within.step State.putB_within; decide)
    | split
    | dsimp only

theorem traceLose_within {x0 s} : Within 2097160 s (traceLose x0 s) := by
  dsimp only [traceLose]
  with_reducible repeat' first
    | apply Within.refl
    | (apply Within.step countLost_within; decide)
    | fail_if_no_progress refine Within.lit rfl ?_ (h21 := .inr (by decide))
    | dsimp only

theorem traceDrop_within {x0 s} : Within 2097160 s (traceDrop x0 s) := by
  dsimp only [traceDrop]
  with_reducible repeat' first
    | apply Within.refl
    | (apply Within.step countLost_within; decide)
    | fail_if_no_progress refine Within.lit rfl ?_ (h21 := .inr (by decide))
    | dsimp only

theorem lostPacket_within {x0 s} : Within 2097160 s (lostPacket x0 s) := by
  dsimp only [lostPacket]
  with_reducible repeat' first
    | apply Within.refl
    | apply Within.ite
    | (apply Within.step ringPut_within; decide)
    | (apply Within.step traceSeq_within; decide)
    | fail_if_no_progress refine Within.lit rfl ?_ (h21 := .inr (by decide))
    | split
    | dsimp only

theorem ringWrite_within {x0 x1 s} : Within 2097160 s (ringWrite x0 x1 s) := by
  dsimp only [ringWrite]
  with_reducible repeat' first
    | apply Within.refl
    | apply Within.ite
    | (apply Within.step lostPacket_within; decide)
    | (apply Within.step traceLose_within; decide)
    | (apply Within.step ringPut_within; decide)
    | split
    | dsimp only

theorem setFifo_within {s x1 x2} : Within 2097160 s (setFifo s x1 x2) := by
  dsimp only [setFifo]
  with_reducible repeat' first
    | apply Within.refl
    | (apply Within.step State.putB_within; decide)
    | fail_if_no_progress refine Within.lit rfl ?_ (h21 := .inr (by decide))
    | dsimp only

theorem traceSys_within {x0 x1 s} : Within 2097160 s (traceSys x0 x1 s) := by
  dsimp only [traceSys]
  with_reducible repeat' first
    | apply Within.refl
    | apply Within.ite
    | (apply Within.step ringWrite_within; decide)
    | (apply Within.step lostPacket_within; decide)
    | (apply Within.step traceSeq_within; decide)
    | split
    | dsimp only

theorem fifoPut_within {x0 x1 x2 s} : Within 2097160 s (fifoPut x0 x1 x2 s) := by
  dsimp only [fifoPut]
  with_reducible repeat' first
    | apply Within.refl
    | (apply Within.step setFifo_within; decide)
    | (apply Within.step traceSeq_within; decide)
    | dsimp only

theorem fifoLost_within {x0 s} : Within 2097160 s (fifoLost x0 s) := by
  dsimp only [fifoLost]
  with_reducible repeat' first
    | apply Within.refl
    | apply Within.ite
    | (apply Within.step fifoPut_within; decide)
    | fail_if_no_progress refine Within.lit rfl ?_ (h21 := .inr (by decide))
    | split
    | dsimp only

theorem traceCore_within {x0 x1 x2 s} : Within 2097160 s (traceCore x0 x1 x2 s) := by
  dsimp only [traceCore]
  with_reducible repeat' first
    | apply Within.refl
    | apply Within.ite
    | (apply Within.step fifoLost_within; decide)
    | (apply Within.step fifoPut_within; decide)
    | split
    | dsimp only

theorem traceFiltered_within {x0 x1 x2 x3 s} : Within 2097160 s (traceFiltered x0 x1 x2 x3 s) := by
  dsimp only [traceFiltered]
  with_reducible repeat' first
    | apply Within.refl
    | apply Within.ite
    | (apply Within.step traceCore_within; decide)
    | (apply Within.step traceDrop_within; decide)
    | (apply Within.step traceSeq_within; decide)
    | split
    | dsimp only

theorem traceMove_within {n s} : Within 2097160 s (traceMove n s) := by
  induction n generalizing s with
  | zero => exact Within.refl _ _
  | succ n ih =>
    unfold traceMove
    split
    · exact Within.refl _ _
    · exact Within.step ih (by decide) (Within.step ringWrite_within (by decide) (Within.step setFifo_within (by decide) (Within.refl _ _)))
    · exact Within.step ih (by decide) (Within.step setFifo_within (by decide) (Within.refl _ _))

theorem traceEmpty_within {s} : Within 2097160 s (traceEmpty s) := by
  dsimp only [traceEmpty]
  with_reducible repeat' first
    | apply Within.refl
    | (apply Within.step traceMove_within; decide)
    | dsimp only

theorem traceSync_within {x0 x1 x2 s} : Within 2097160 s (traceSync x0 x1 x2 s) := by
  dsimp only [traceSync]
  with_reducible repeat' first
    | apply Within.refl
    | (apply Within.step traceCore_within; decide)
    | dsimp only

theorem setPairSt_within {s x1 x2} : Within 131072 s (setPairSt s x1 x2) := by
  dsimp only [setPairSt]
  with_reducible repeat' first
    | apply Within.refl
    | fail_if_no_progress refine Within.lit rfl ?_ (h17 := .inr (by decide))
    | dsimp only

theorem telegram_within {x0 s} : Within 16908296 s (telegram x0 s) := by
  dsimp only [telegram]
  with_reducible repeat' first
    | apply Within.refl
    | apply Within.ite
    | (apply Within.step State.emit_within; decide)
    | (apply Within.step State.wr_within; decide)
    | fail_if_no_progress refine Within.lit rfl ?_ (h17 := .inr (by decide))
    | split
    | dsimp only

theorem selvSync_within {s} : Within 16908296 s (selvSync s) := by
  dsimp only [selvSync]
  with_reducible repeat' first
    | apply Within.refl
    | apply Within.ite
    | (apply Within.step telegram_within; decide)
    | (apply Within.step State.putF_within; decide)
    | split
    | dsimp only

theorem mapFrames_within {x0 s x2} : Within 131072 s (mapFrames x0 s x2) := by
  dsimp only [mapFrames]
  with_reducible repeat' first
    | apply Within.refl
    | (apply Within.step setPairSt_within; decide)
    | dsimp only

theorem latchSafe_within {x0 s} : Within 16908298 s (latchSafe x0 s) := by
  dsimp only [latchSafe]
  with_reducible repeat' first
    | apply Within.refl
    | apply Within.ite
    | (apply Within.step mapFrames_within; decide)
    | (apply Within.step setPairSt_within; decide)
    | (apply Within.step State.raise_within; decide)
    | (apply Within.step State.inc_within; decide)
    | (apply Within.step State.wrQ_within; decide)
    | (apply Within.step State.putB_within; decide)
    | (apply Within.step State.putF_within; decide)
    | refine Within.foldl (fun s a => ?_) ?_
    | refine Within.foldl_snd (fun b a => ?_) ?_
    | refine Within.foldl_fst (fun b a => ?_) ?_
    | refine Within.foldl_pair (fun b a => ?_) ?_ (by assumption)
    | fail_if_no_progress refine Within.lit rfl ?_ (h1 := .inr (by decide)) (h17 := .inr (by decide))
    | split
    | assumption
    | dsimp only

theorem seenCause_within {x0 s} : Within 8 s (seenCause x0 s) := by
  dsimp only [seenCause]
  with_reducible repeat' first
    | apply Within.refl
    | apply Within.ite
    | (apply Within.step State.putB_within; decide)
    | split
    | dsimp only

theorem eventSafe_within {x0 s} : Within 21102602 s (eventSafe x0 s) := by
  dsimp only [eventSafe]
  with_reducible repeat' first
    | apply Within.refl
    | apply Within.ite
    | (apply Within.step seenCause_within; decide)
    | (apply Within.step latchSafe_within; decide)
    | (apply Within.step selvSync_within; decide)
    | fail_if_no_progress refine Within.lit rfl ?_ (h17 := .inr (by decide)) (h22 := .inr (by decide))
    | split
    | dsimp only

theorem eventInvalidate_within {x0 x1 s} : Within 131080 s (eventInvalidate x0 x1 s) := by
  dsimp only [eventInvalidate]
  with_reducible repeat' first
    | apply Within.refl
    | apply Within.ite
    | (apply Within.step seenCause_within; decide)
    | (apply Within.step mapFrames_within; decide)
    | refine Within.foldl (fun s a => ?_) ?_
    | refine Within.foldl_snd (fun b a => ?_) ?_
    | refine Within.foldl_fst (fun b a => ?_) ?_
    | refine Within.foldl_pair (fun b a => ?_) ?_ (by assumption)
    | split
    | assumption
    | dsimp only

theorem selvEvent_within {x0 x1 x2 s} : Within 21102602 s (selvEvent x0 x1 x2 s) := by
  dsimp only [selvEvent]
  with_reducible repeat' first
    | apply Within.refl
    | apply Within.ite
    | (apply Within.step eventInvalidate_within; decide)
    | (apply Within.step eventSafe_within; decide)
    | (apply Within.step seenCause_within; decide)
    | (apply Within.step State.sat_within; decide)
    | split
    | dsimp only

theorem selvCause_within {x0 x1 s} : Within 21102602 s (selvCause x0 x1 s) := by
  dsimp only [selvCause]
  with_reducible repeat' first
    | apply Within.refl
    | (apply Within.step selvEvent_within; decide)
    | dsimp only

theorem raiseEv_within {s x1} : Within 21102602 s (raiseEv s x1) := by
  dsimp only [raiseEv]
  with_reducible repeat' first
    | apply Within.refl
    | (apply Within.step selvEvent_within; decide)
    | dsimp only

theorem raiseAll_within {x0 s} : Within 21102602 s (raiseAll x0 s) := by
  dsimp only [raiseAll]
  with_reducible repeat' first
    | apply Within.refl
    | (apply Within.step raiseEv_within; decide)
    | refine Within.foldl (fun s a => ?_) ?_
    | refine Within.foldl_snd (fun b a => ?_) ?_
    | refine Within.foldl_fst (fun b a => ?_) ?_
    | refine Within.foldl_pair (fun b a => ?_) ?_ (by assumption)
    | assumption
    | dsimp only

theorem setStarts_within {x0 x1 s} : Within 131080 s (setStarts x0 x1 s) := by
  dsimp only [setStarts]
  with_reducible repeat' first
    | apply Within.refl
    | (apply Within.step State.putF_within; decide)
    | fail_if_no_progress refine Within.lit rfl ?_ (h17 := .inr (by decide))
    | dsimp only

theorem armMonitor_within {s x1} : Within 131080 s (armMonitor s x1) := by
  dsimp only [armMonitor]
  with_reducible repeat' first
    | apply Within.refl
    | apply Within.ite
    | (apply Within.step setStarts_within; decide)
    | (apply Within.step State.putB_within; decide)
    | fail_if_no_progress refine Within.lit rfl ?_ (h17 := .inr (by decide))
    | split
    | dsimp only

theorem armMonitors_within {s} : Within 131080 s (armMonitors s) := by
  dsimp only [armMonitors]
  with_reducible repeat' first
    | apply Within.refl
    | (apply Within.step armMonitor_within; decide)
    | refine Within.foldl (fun s a => ?_) ?_
    | refine Within.foldl_snd (fun b a => ?_) ?_
    | refine Within.foldl_fst (fun b a => ?_) ?_
    | refine Within.foldl_pair (fun b a => ?_) ?_ (by assumption)
    | assumption
    | dsimp only

theorem seedTrigger_within {x0 x1 s} : Within 131080 s (seedTrigger x0 x1 s) := by
  dsimp only [seedTrigger]
  with_reducible repeat' first
    | apply Within.refl
    | apply Within.ite
    | (apply Within.step State.satAdd_within; decide)
    | fail_if_no_progress refine Within.lit rfl ?_ (h17 := .inr (by decide))
    | split
    | dsimp only

theorem commitReport_within {x0 x1 s} : Within 131080 s (commitReport x0 x1 s) := by
  dsimp only [commitReport]
  with_reducible repeat' first
    | apply Within.refl
    | apply Within.ite
    | (apply Within.step seedTrigger_within; decide)
    | refine Within.foldl (fun s a => ?_) ?_
    | refine Within.foldl_snd (fun b a => ?_) ?_
    | refine Within.foldl_fst (fun b a => ?_) ?_
    | refine Within.foldl_pair (fun b a => ?_) ?_ (by assumption)
    | fail_if_no_progress refine Within.lit rfl ?_ (h17 := .inr (by decide))
    | split
    | assumption
    | dsimp only

theorem pairEnter_within {x0 s} : Within 131080 s (pairEnter x0 s) := by
  dsimp only [pairEnter]
  with_reducible repeat' first
    | apply Within.refl
    | apply Within.ite
    | (apply Within.step armMonitors_within; decide)
    | (apply Within.step setPairSt_within; decide)
    | refine Within.foldl (fun s a => ?_) ?_
    | refine Within.foldl_snd (fun b a => ?_) ?_
    | refine Within.foldl_fst (fun b a => ?_) ?_
    | refine Within.foldl_pair (fun b a => ?_) ?_ (by assumption)
    | split
    | assumption
    | dsimp only

theorem pairLeave_within {x0 s} : Within 131080 s (pairLeave x0 s) := by
  dsimp only [pairLeave]
  with_reducible repeat' first
    | apply Within.refl
    | (apply Within.step armMonitors_within; decide)
    | (apply Within.step mapFrames_within; decide)
    | refine Within.foldl (fun s a => ?_) ?_
    | refine Within.foldl_snd (fun b a => ?_) ?_
    | refine Within.foldl_fst (fun b a => ?_) ?_
    | refine Within.foldl_pair (fun b a => ?_) ?_ (by assumption)
    | assumption
    | dsimp only

theorem setChan_within {s c x} : Within 16384 s (setChan s c x) := by
  refine { Within.refl 16384 s with wf := fun w => ?_, chans := fun b => absurd b (by decide) }
  simp only [State.wf, Bool.and_eq_true] at w ⊢
  exact ⟨⟨⟨⟨⟨w.1.1.1.1.1, w.1.1.1.1.2⟩, w.1.1.1.2⟩, w.1.1.2⟩, Tab.wf_set _ _ w.1.2⟩, w.2⟩

theorem countUnavail_within {x0 x1 s} : Within 8 s (countUnavail x0 x1 s) := by
  dsimp only [countUnavail]
  with_reducible repeat' first
    | apply Within.refl
    | apply Within.ite
    | (apply Within.step State.sat_within; decide)
    | refine Within.foldl (fun s a => ?_) ?_
    | refine Within.foldl_snd (fun b a => ?_) ?_
    | refine Within.foldl_fst (fun b a => ?_) ?_
    | refine Within.foldl_pair (fun b a => ?_) ?_ (by assumption)
    | split
    | assumption
    | dsimp only

theorem setHealth_within {s w h} : Within 128 s (setHealth s w h) := by
  refine { Within.refl 128 s with wf := fun w => ?_, health := fun b => absurd b (by decide) }
  simp only [State.wf, Bool.and_eq_true] at w ⊢
  exact ⟨⟨⟨⟨⟨w.1.1.1.1.1, w.1.1.1.1.2⟩, Tab.wf_set _ _ w.1.1.1.2⟩, w.1.1.2⟩, w.1.2⟩, w.2⟩

theorem noteWord_within {x0 s} : Within 131080 s (noteWord x0 s) := by
  dsimp only [noteWord]
  with_reducible repeat' first
    | apply Within.refl
    | apply Within.ite
    | (apply Within.step State.sat_within; decide)
    | (apply Within.step State.wrQ_within; decide)
    | (apply Within.step State.putB_within; decide)
    | fail_if_no_progress refine Within.lit rfl ?_ (h17 := .inr (by decide))
    | split
    | dsimp only

theorem noteWords_within {w n s} : Within 131080 s (noteWords w n s) := by
  induction n generalizing w s with
  | zero => exact Within.refl _ _
  | succ n ih =>
    exact Within.step ih (by decide) (Within.ite (Within.step noteWord_within (by decide) (Within.refl _ _)) (Within.refl _ _))

theorem compRead_within {x0 x1 s} : Within 131080 s (compRead x0 x1 s).2 := by
  dsimp only [compRead]
  with_reducible repeat' first
    | apply Within.refl
    | (apply Within.step noteWords_within; decide)
    | (apply Within.step countUnavail_within; decide)
    | dsimp only

theorem compWriteWord_within {x0 x1 x2 s} : Within 131240 s (compWriteWord x0 x1 x2 s) := by
  dsimp only [compWriteWord]
  with_reducible repeat' first
    | apply Within.refl
    | apply Within.ite
    | (apply Within.step noteWord_within; decide)
    | (apply Within.step setHealth_within; decide)
    | (apply Within.step State.putBytes_within; decide)
    | split
    | dsimp only

theorem compWriteWords_within {n a bs s} : Within 131240 s (compWriteWords n a bs s) := by
  induction n generalizing a bs s with
  | zero => exact Within.refl _ _
  | succ n ih =>
    exact Within.step ih (by decide) (Within.ite (Within.refl _ _) (Within.step compWriteWord_within (by decide) (Within.refl _ _)))

theorem compWrite_within {x0 x1 s} : Within 131240 s (compWrite x0 x1 s) := by
  dsimp only [compWrite]
  with_reducible repeat' first
    | apply Within.refl
    | (apply Within.step compWriteWords_within; decide)
    | (apply Within.step countUnavail_within; decide)
    | dsimp only

theorem poisonRange_within {x0 x1 s} : Within 160 s (poisonRange x0 x1 s) := by
  dsimp only [poisonRange]
  with_reducible repeat' first
    | apply Within.refl
    | (apply Within.step setHealth_within; decide)
    | (apply Within.step State.putBytes_within; decide)
    | refine Within.foldl (fun s a => ?_) ?_
    | refine Within.foldl_snd (fun b a => ?_) ?_
    | refine Within.foldl_fst (fun b a => ?_) ?_
    | refine Within.foldl_pair (fun b a => ?_) ?_ (by assumption)
    | assumption
    | dsimp only

theorem meterAdd_within {x0 x1 x2 s} : Within 131072 s (meterAdd x0 x1 x2 s) := by
  dsimp only [meterAdd]
  with_reducible repeat' first
    | apply Within.refl
    | fail_if_no_progress refine Within.lit rfl ?_ (h17 := .inr (by decide))
    | dsimp only

theorem winRead_within {x0 x1 s} : Within 8 s (winRead x0 x1 s).2 := by
  dsimp only [winRead]
  with_reducible repeat' first
    | apply Within.refl
    | apply Within.ite
    | (apply Within.step State.sat_within; decide)
    | refine Within.foldl (fun s a => ?_) ?_
    | refine Within.foldl_snd (fun b a => ?_) ?_
    | refine Within.foldl_fst (fun b a => ?_) ?_
    | refine Within.foldl_pair (fun b a => ?_) ?_ (by assumption)
    | split
    | assumption
    | dsimp only

theorem refuseCmd_within {x0 x1 s} : Within 16392 s (refuseCmd x0 x1 s) := by
  dsimp only [refuseCmd]
  with_reducible repeat' first
    | apply Within.refl
    | (apply Within.step setChan_within; decide)
    | (apply Within.step State.sat_within; decide)
    | (apply Within.step State.putB_within; decide)
    | dsimp only

theorem submit_within {x0 x1 x2 s} : Within 147464 s (submit x0 x1 x2 s) := by
  dsimp only [submit]
  with_reducible repeat' first
    | apply Within.refl
    | apply Within.ite
    | (apply Within.step refuseCmd_within; decide)
    | (apply Within.step meterAdd_within; decide)
    | (apply Within.step setChan_within; decide)
    | split
    | dsimp only

theorem winWriteChan_within {x0 x1 x2 s} : Within 147464 s (winWriteChan x0 x1 x2 s) := by
  dsimp only [winWriteChan]
  with_reducible repeat' first
    | apply Within.refl
    | apply Within.ite
    | (apply Within.step submit_within; decide)
    | (apply Within.step setChan_within; decide)
    | (apply Within.step State.sat_within; decide)
    | refine Within.foldl (fun s a => ?_) ?_
    | refine Within.foldl_snd (fun b a => ?_) ?_
    | refine Within.foldl_fst (fun b a => ?_) ?_
    | refine Within.foldl_pair (fun b a => ?_) ?_ (by assumption)
    | split
    | assumption
    | dsimp only

theorem winWrite_within {x0 x1 s} : Within 147464 s (winWrite x0 x1 s) := by
  dsimp only [winWrite]
  with_reducible repeat' first
    | apply Within.refl
    | apply Within.ite
    | (apply Within.step winWriteChan_within; decide)
    | split
    | dsimp only

theorem devRead_within {x0 x1 s} : Within 131080 s (devRead x0 x1 s).2 := by
  dsimp only [devRead]
  with_reducible repeat' first
    | apply Within.refl
    | apply Within.ite
    | refine Within.step (Within.of_pair (by assumption) winRead_within) (by decide) ?_
    | (apply Within.step winRead_within; decide)
    | refine Within.step (Within.of_pair (by assumption) compRead_within) (by decide) ?_
    | (apply Within.step compRead_within; decide)
    | split
    | dsimp only

theorem devWrite_within {x0 x1 s} : Within 147624 s (devWrite x0 x1 s) := by
  dsimp only [devWrite]
  with_reducible repeat' first
    | apply Within.refl
    | apply Within.ite
    | (apply Within.step winWrite_within; decide)
    | (apply Within.step compWrite_within; decide)
    | (apply Within.step State.putBytes_within; decide)
    | split
    | dsimp only

theorem regionEvent_within {x0 x1 x2 s} : Within 131072 s (regionEvent x0 x1 x2 s) := by
  dsimp only [regionEvent]
  with_reducible repeat' first
    | apply Within.refl
    | apply Within.ite
    | fail_if_no_progress refine Within.lit rfl ?_ (h17 := .inr (by decide))
    | split
    | dsimp only

theorem meterMark_within {x0 x1 x2 s} : Within 131072 s (meterMark x0 x1 x2 s) := by
  dsimp only [meterMark]
  with_reducible repeat' first
    | apply Within.refl
    | apply Within.ite
    | refine Within.foldl (fun s a => ?_) ?_
    | refine Within.foldl_snd (fun b a => ?_) ?_
    | refine Within.foldl_fst (fun b a => ?_) ?_
    | refine Within.foldl_pair (fun b a => ?_) ?_ (by assumption)
    | fail_if_no_progress refine Within.lit rfl ?_ (h17 := .inr (by decide))
    | split
    | assumption
    | dsimp only

theorem meterCharge_within {x0 x1 x2 s} : Within 131072 s (meterCharge x0 x1 x2 s) := by
  dsimp only [meterCharge]
  with_reducible repeat' first
    | apply Within.refl
    | apply Within.ite
    | (apply Within.step meterAdd_within; decide)
    | refine Within.foldl (fun s a => ?_) ?_
    | refine Within.foldl_snd (fun b a => ?_) ?_
    | refine Within.foldl_fst (fun b a => ?_) ?_
    | refine Within.foldl_pair (fun b a => ?_) ?_ (by assumption)
    | split
    | assumption
    | dsimp only

theorem arrive_within {x0 x1 x2 s} : Within 16384 s (arrive x0 x1 x2 s) := by
  dsimp only [arrive]
  with_reducible repeat' first
    | apply Within.refl
    | apply Within.ite
    | (apply Within.step setChan_within; decide)
    | refine Within.foldl (fun s a => ?_) ?_
    | refine Within.foldl_snd (fun b a => ?_) ?_
    | refine Within.foldl_fst (fun b a => ?_) ?_
    | refine Within.foldl_pair (fun b a => ?_) ?_ (by assumption)
    | split
    | assumption
    | dsimp only

theorem depart_within {q s} : Within 16384 s (depart q s) := by
  unfold depart
  split
  · refine { Within.refl 16384 s with wf := fun w => ?_, chans := fun b => absurd b (by decide) }
    simp only [State.wf, Bool.and_eq_true] at w ⊢
    exact ⟨⟨⟨⟨⟨w.1.1.1.1.1, w.1.1.1.1.2⟩, w.1.1.1.2⟩, w.1.1.2⟩, Tab.wf_update _ _ _ w.1.2⟩, w.2⟩
  · exact Within.refl _ _

theorem busRead_within {x0 x1 x2 s} : Within 131080 s (busRead x0 x1 x2 s).2 := by
  dsimp only [busRead]
  with_reducible repeat' first
    | apply Within.refl
    | apply Within.ite
    | (apply Within.step meterCharge_within; decide)
    | (apply Within.step regionEvent_within; decide)
    | refine Within.step (Within.of_pair (by assumption) devRead_within) (by decide) ?_
    | (apply Within.step devRead_within; decide)
    | split
    | dsimp only

theorem busWrite_within {x0 x1 x2 s} : Within 147624 s (busWrite x0 x1 x2 s) := by
  dsimp only [busWrite]
  with_reducible repeat' first
    | apply Within.refl
    | apply Within.ite
    | (apply Within.step meterCharge_within; decide)
    | (apply Within.step regionEvent_within; decide)
    | (apply Within.step devWrite_within; decide)
    | split
    | dsimp only

theorem setSlots_within {s q l} : Within 2048 s (setSlots s q l) := by
  refine { Within.refl 2048 s with wf := fun w => ?_, slots := fun b => absurd b (by decide) }
  simp only [State.wf, Bool.and_eq_true] at w ⊢
  exact ⟨⟨⟨⟨⟨w.1.1.1.1.1, w.1.1.1.1.2⟩, w.1.1.1.2⟩, w.1.1.2⟩, w.1.2⟩, Tab.wf_set _ _ w.2⟩

theorem qSync_within {x0 s} : Within 8 s (qSync x0 s) := by
  dsimp only [qSync]
  with_reducible repeat' first
    | apply Within.refl
    | apply Within.ite
    | (apply Within.step State.putB_within; decide)
    | (apply Within.step State.putF_within; decide)
    | split
    | dsimp only

theorem setCore_within {s k c} : Within 8192 s (setCore s k c) := by
  refine { Within.refl 8192 s with wf := fun w => ?_, cores := fun b => absurd b (by decide) }
  simp only [State.wf, Bool.and_eq_true] at w ⊢
  exact ⟨⟨⟨⟨⟨w.1.1.1.1.1, w.1.1.1.1.2⟩, w.1.1.1.2⟩, Tab.wf_set _ _ w.1.1.2⟩, w.1.2⟩, w.2⟩

theorem takeException_within {x0 x1 s} : Within 85991432 s (takeException x0 x1 s) := by
  dsimp only [takeException]
  with_reducible repeat' first
    | apply Within.refl
    | apply Within.ite
    | (apply Within.step setCore_within; decide)
    | (apply Within.step traceCore_within; decide)
    | (apply Within.step State.raise_within; decide)
    | (apply Within.step State.tickFree_within; decide)
    | (apply Within.step State.satF_within; decide)
    | (apply Within.step State.wrN_within; decide)
    | (apply Within.step State.wrQ_within; decide)
    | (apply Within.step State.putB_within; decide)
    | (apply Within.step State.putF_within; decide)
    | split
    | dsimp only

theorem returnFromException_within {x0 s} : Within 8200 s (returnFromException x0 s) := by
  dsimp only [returnFromException]
  with_reducible repeat' first
    | apply Within.refl
    | (apply Within.step setCore_within; decide)
    | (apply Within.step State.putB_within; decide)
    | dsimp only

theorem wordDone_within {x0 x1 x2 s} : Within 85991432 s (wordDone x0 x1 x2 s) := by
  dsimp only [wordDone]
  with_reducible repeat' first
    | apply Within.refl
    | apply Within.ite
    | (apply Within.step takeException_within; decide)
    | (apply Within.step State.wrQ_within; decide)
    | split
    | dsimp only

theorem endWait_within {x0 s} : Within 85991432 s (endWait x0 s) := by
  dsimp only [endWait]
  with_reducible repeat' first
    | apply Within.refl
    | apply Within.ite
    | (apply Within.step wordDone_within; decide)
    | (apply Within.step setCore_within; decide)
    | (apply Within.step State.putB_within; decide)
    | split
    | dsimp only

theorem wakeCause_within {x0 x1 x2 s} : Within 8 s (wakeCause x0 x1 x2 s) := by
  dsimp only [wakeCause]
  with_reducible repeat' first
    | apply Within.refl
    | (apply Within.step State.wrN_within; decide)
    | dsimp only

theorem traceResume_within {x0 x1 x2 x3 s} : Within 2097160 s (traceResume x0 x1 x2 x3 s) := by
  dsimp only [traceResume]
  with_reducible repeat' first
    | apply Within.refl
    | apply Within.ite
    | (apply Within.step traceCore_within; decide)
    | split
    | dsimp only

theorem wakeCore_within {x0 x1 x2 s} : Within 85991432 s (wakeCore x0 x1 x2 s) := by
  dsimp only [wakeCore]
  with_reducible repeat' first
    | apply Within.refl
    | apply Within.ite
    | (apply Within.step traceResume_within; decide)
    | (apply Within.step wakeCause_within; decide)
    | (apply Within.step endWait_within; decide)
    | (apply Within.step setCore_within; decide)
    | split
    | dsimp only

theorem wakeWatchers_within {x0 s} : Within 85991432 s (wakeWatchers x0 s) := by
  dsimp only [wakeWatchers]
  with_reducible repeat' first
    | apply Within.refl
    | apply Within.ite
    | (apply Within.step wakeCore_within; decide)
    | refine Within.foldl (fun s a => ?_) ?_
    | refine Within.foldl_snd (fun b a => ?_) ?_
    | refine Within.foldl_fst (fun b a => ?_) ?_
    | refine Within.foldl_pair (fun b a => ?_) ?_ (by assumption)
    | split
    | assumption
    | dsimp only

theorem gbarFree_within {x0 s x2} : Within 85991432 s (gbarFree x0 s x2) := by
  dsimp only [gbarFree]
  with_reducible repeat' first
    | apply Within.refl
    | apply Within.ite
    | (apply Within.step wakeCore_within; decide)
    | (apply Within.step endWait_within; decide)
    | (apply Within.step setCore_within; decide)
    | split
    | dsimp only

theorem gbarCheck_within {x0 s} : Within 85991432 s (gbarCheck x0 s) := by
  dsimp only [gbarCheck]
  with_reducible repeat' first
    | apply Within.refl
    | apply Within.ite
    | (apply Within.step gbarFree_within; decide)
    | refine Within.foldl (fun s a => ?_) ?_
    | refine Within.foldl_snd (fun b a => ?_) ?_
    | refine Within.foldl_fst (fun b a => ?_) ?_
    | refine Within.foldl_pair (fun b a => ?_) ?_ (by assumption)
    | split
    | assumption
    | dsimp only

theorem qIrq_within {x0 s} : Within 16777224 s (qIrq x0 s) := by
  dsimp only [qIrq]
  with_reducible repeat' first
    | apply Within.refl
    | apply Within.ite
    | (apply Within.step State.raise_within; decide)
    | (apply Within.step State.putB_within; decide)
    | split
    | dsimp only

theorem qRearm_within {x0 s} : Within 16777224 s (qRearm x0 s) := by
  dsimp only [qRearm]
  with_reducible repeat' first
    | apply Within.refl
    | (apply Within.step qIrq_within; decide)
    | (apply Within.step State.putB_within; decide)
    | dsimp only

theorem qRel_within {x0 x1 s} : Within 8 s (qRel x0 x1 s) := by
  dsimp only [qRel]
  with_reducible repeat' first
    | apply Within.refl
    | (apply Within.step qSync_within; decide)
    | (apply Within.step State.wr_within; decide)
    | dsimp only

theorem seedTake_within {x0 x1 s} : Within 8 s (seedTake x0 x1 s) := by
  dsimp only [seedTake]
  with_reducible repeat' first
    | apply Within.refl
    | apply Within.ite
    | (apply Within.step qRel_within; decide)
    | split
    | dsimp only

theorem qCommitted_within {x0 x1 s} : Within 86122504 s (qCommitted x0 x1 s) := by
  dsimp only [qCommitted]
  with_reducible repeat' first
    | apply Within.refl
    | (apply Within.step seedTake_within; decide)
    | (apply Within.step qIrq_within; decide)
    | (apply Within.step wakeWatchers_within; decide)
    | (apply Within.step qSync_within; decide)
    | (apply Within.step commitReport_within; decide)
    | dsimp only

theorem qReserve_within {x0 x1 x2 s} : Within 2056 s (qReserve x0 x1 x2 s) := by
  dsimp only [qReserve]
  with_reducible repeat' first
    | apply Within.refl
    | (apply Within.step qSync_within; decide)
    | (apply Within.step setSlots_within; decide)
    | (apply Within.step State.wrN_within; decide)
    | dsimp only

theorem qCommit_within {x0 x1 s} : Within 86124552 s (qCommit x0 x1 s) := by
  dsimp only [qCommit]
  with_reducible repeat' first
    | apply Within.refl
    | apply Within.ite
    | (apply Within.step qCommitted_within; decide)
    | (apply Within.step setSlots_within; decide)
    | (apply Within.step State.wr_within; decide)
    | split
    | dsimp only

theorem closeWait_within {x0 x1 s x3} : Within 8200 s (closeWait x0 x1 s x3) := by
  dsimp only [closeWait]
  with_reducible repeat' first
    | apply Within.refl
    | apply Within.ite
    | (apply Within.step setCore_within; decide)
    | (apply Within.step State.sat_within; decide)
    | split
    | dsimp only

theorem closeWaits_within {x0 x1 s} : Within 8200 s (closeWaits x0 x1 s) := by
  dsimp only [closeWaits]
  with_reducible repeat' first
    | apply Within.refl
    | (apply Within.step closeWait_within; decide)
    | refine Within.foldl (fun s a => ?_) ?_
    | refine Within.foldl_snd (fun b a => ?_) ?_
    | refine Within.foldl_fst (fun b a => ?_) ?_
    | refine Within.foldl_pair (fun b a => ?_) ?_ (by assumption)
    | assumption
    | dsimp only

theorem qLeave_within {x0 s} : Within 8200 s (qLeave x0 s) := by
  dsimp only [qLeave]
  with_reducible repeat' first
    | apply Within.refl
    | (apply Within.step closeWaits_within; decide)
    | (apply Within.step State.putF_within; decide)
    | dsimp only

theorem qStart_within {x0 s} : Within 2056 s (qStart x0 s) := by
  dsimp only [qStart]
  with_reducible repeat' first
    | apply Within.refl
    | (apply Within.step qSync_within; decide)
    | (apply Within.step setSlots_within; decide)
    | (apply Within.step State.putB_within; decide)
    | (apply Within.step State.putF_within; decide)
    | (apply Within.step State.wr_within; decide)
    | dsimp only

theorem qFlush_within {x0 s} : Within 10248 s (qFlush x0 s) := by
  dsimp only [qFlush]
  with_reducible repeat' first
    | apply Within.refl
    | (apply Within.step closeWaits_within; decide)
    | (apply Within.step qSync_within; decide)
    | (apply Within.step setSlots_within; decide)
    | (apply Within.step State.wr_within; decide)
    | dsimp only

theorem qDrained_within {x0 s} : Within 10248 s (qDrained x0 s) := by
  dsimp only [qDrained]
  with_reducible repeat' first
    | apply Within.refl
    | apply Within.ite
    | (apply Within.step qStart_within; decide)
    | (apply Within.step closeWaits_within; decide)
    | (apply Within.step State.putB_within; decide)
    | (apply Within.step State.putF_within; decide)
    | split
    | dsimp only

theorem State.leaveIf_within {x0 s} : Within 134217728 s (State.leaveIf x0 s) := by
  dsimp only [State.leaveIf]
  with_reducible repeat' first
    | apply Within.refl
    | apply Within.ite
    | (apply Within.step State.leave_within; decide)
    | split
    | dsimp only

theorem engineGuard_within {x0 x1 x2 s} : Within 134217728 s (engineGuard x0 x1 x2 s) := by
  dsimp only [engineGuard]
  with_reducible repeat' first
    | apply Within.refl
    | apply Within.ite
    | (apply Within.step State.leaveIf_within; decide)
    | split
    | dsimp only

theorem putEngine_within {x0 x1 s} : Within 134217760 s (putEngine x0 x1 s) := by
  dsimp only [putEngine]
  with_reducible repeat' first
    | apply Within.refl
    | (apply Within.step engineGuard_within; decide)
    | (apply Within.step State.putBytes_within; decide)
    | dsimp only

theorem engWrite_within {x0 x1 x2 x3 s} : Within 134365352 s (engWrite x0 x1 x2 x3 s) := by
  dsimp only [engWrite]
  with_reducible repeat' first
    | apply Within.refl
    | apply Within.ite
    | (apply Within.step engineGuard_within; decide)
    | (apply Within.step busWrite_within; decide)
    | split
    | dsimp only

theorem engHold_within {x0 s} : Within 147456 s (engHold x0 s) := by
  dsimp only [engHold]
  with_reducible repeat' first
    | apply Within.refl
    | apply Within.ite
    | (apply Within.step arrive_within; decide)
    | (apply Within.step meterMark_within; decide)
    | refine Within.foldl (fun s a => ?_) ?_
    | refine Within.foldl_snd (fun b a => ?_) ?_
    | refine Within.foldl_fst (fun b a => ?_) ?_
    | refine Within.foldl_pair (fun b a => ?_) ?_ (by assumption)
    | split
    | assumption
    | dsimp only

theorem engGo_within {x0 s} : Within 16384 s (engGo x0 s) := by
  dsimp only [engGo]
  with_reducible repeat' first
    | apply Within.refl
    | (apply Within.step depart_within; decide)
    | refine Within.foldl (fun s a => ?_) ?_
    | refine Within.foldl_snd (fun b a => ?_) ?_
    | refine Within.foldl_fst (fun b a => ?_) ?_
    | refine Within.foldl_pair (fun b a => ?_) ?_ (by assumption)
    | assumption
    | dsimp only

theorem engAccess_within {M s0 s rs f} (hM : Nat.land 147456 M = 147456) (hf : ∀ s, WithinR M s (f s)) (h : Within M s0 s) :
    WithinR M s0 (engAccess s rs f) :=
  WithinR.ite (WithinR.next (Within.step engHold_within (sub_trans (by decide) hM) h))
    (WithinR.step (hf _) (Nat.and_self M) (Within.step engGo_within (sub_trans (by decide) hM) h))

theorem engCommitAs_within {x0 x1 x2 s} : Within 220358824 s (engCommitAs x0 x1 x2 s).2 := by
  dsimp only [engCommitAs]
  with_reducible repeat' first
    | apply Within.refl
    | apply Within.ite
    | (apply Within.step engWrite_within; decide)
    | (apply Within.step qCommit_within; decide)
    | (apply Within.step qReserve_within; decide)
    | (apply Within.step State.sat_within; decide)
    | split
    | dsimp only

theorem engCommit_within {x0 x1 s} : Within 220358824 s (engCommit x0 x1 s).2 := by
  dsimp only [engCommit]
  with_reducible repeat' first
    | apply Within.refl
    | refine Within.step (Within.of_pair (by assumption) engCommitAs_within) (by decide) ?_
    | (apply Within.step engCommitAs_within; decide)
    | dsimp only

theorem qTake_within {x0 s} : Within 131080 s (qTake x0 s) := by
  dsimp only [qTake]
  with_reducible repeat' first
    | apply Within.refl
    | (apply Within.step qRel_within; decide)
    | refine Within.step (Within.of_pair (by assumption) devRead_within) (by decide) ?_
    | (apply Within.step devRead_within; decide)
    | dsimp only

theorem holdDiscard_within {s} : Within 8 s (holdDiscard s) := by
  dsimp only [holdDiscard]
  with_reducible repeat' first
    | apply Within.refl
    | (apply Within.step State.sat_within; decide)
    | (apply Within.step State.putB_within; decide)
    | dsimp only

theorem clearCoreRegs_within {x0 s} : Within 8 s (clearCoreRegs x0 s) := by
  dsimp only [clearCoreRegs]
  with_reducible repeat' first
    | apply Within.refl
    | (apply Within.step State.resetRange_within; decide)
    | (apply Within.step State.wrN_within; decide)
    | (apply Within.step State.wr_within; decide)
    | refine Within.foldl (fun s a => ?_) ?_
    | refine Within.foldl_snd (fun b a => ?_) ?_
    | refine Within.foldl_fst (fun b a => ?_) ?_
    | refine Within.foldl_pair (fun b a => ?_) ?_ (by assumption)
    | assumption
    | dsimp only

theorem dropHolds_within {k s} : Within 2048 s (dropHolds k s) := by
  refine { Within.refl 2048 s with wf := fun w => ?_, slots := fun b => absurd b (by decide) }
  simp only [State.wf, Bool.and_eq_true] at w ⊢
  exact ⟨⟨⟨⟨⟨w.1.1.1.1.1, w.1.1.1.1.2⟩, w.1.1.1.2⟩, w.1.1.2⟩, w.1.2⟩,
    Tab.wfFrom_map (d := fun _ => []) _ (fun _ v hv h => hv (by simpa using h)) w.2⟩

theorem coreStart_within {x0 x1 x2 s} : Within 2107400 s (coreStart x0 x1 x2 s) := by
  dsimp only [coreStart]
  with_reducible repeat' first
    | apply Within.refl
    | (apply Within.step dropHolds_within; decide)
    | (apply Within.step clearCoreRegs_within; decide)
    | (apply Within.step setCore_within; decide)
    | (apply Within.step traceSync_within; decide)
    | (apply Within.step State.putB_within; decide)
    | (apply Within.step State.putF_within; decide)
    | dsimp only

theorem abandon_within {x0 x1 x2 s} : Within 8 s (abandon x0 x1 x2 s) := by
  dsimp only [abandon]
  with_reducible repeat' first
    | apply Within.refl
    | (apply Within.step State.wrN_within; decide)
    | (apply Within.step State.wrQ_within; decide)
    | (apply Within.step State.putB_within; decide)
    | dsimp only

theorem drainArrays_within {x0 s} : Within 8200 s (drainArrays x0 s) := by
  dsimp only [drainArrays]
  with_reducible repeat' first
    | apply Within.refl
    | apply Within.ite
    | (apply Within.step setCore_within; decide)
    | (apply Within.step State.putF_within; decide)
    | refine Within.foldl (fun s a => ?_) ?_
    | refine Within.foldl_snd (fun b a => ?_) ?_
    | refine Within.foldl_fst (fun b a => ?_) ?_
    | refine Within.foldl_pair (fun b a => ?_) ?_ (by assumption)
    | split
    | assumption
    | dsimp only

theorem coreDrainBegin_within {x0 s} : Within 86007816 s (coreDrainBegin x0 s) := by
  dsimp only [coreDrainBegin]
  with_reducible repeat' first
    | apply Within.refl
    | apply Within.ite
    | (apply Within.step drainArrays_within; decide)
    | (apply Within.step abandon_within; decide)
    | (apply Within.step gbarCheck_within; decide)
    | (apply Within.step traceResume_within; decide)
    | (apply Within.step wakeCause_within; decide)
    | (apply Within.step setCore_within; decide)
    | (apply Within.step depart_within; decide)
    | (apply Within.step State.putB_within; decide)
    | (apply Within.step State.putF_within; decide)
    | split
    | dsimp only

theorem markHoles_within {x0 s} : Within 2056 s (markHoles x0 s) := by
  dsimp only [markHoles]
  with_reducible repeat' first
    | apply Within.refl
    | (apply Within.step dropHolds_within; decide)
    | (apply Within.step State.putB_within; decide)
    | refine Within.foldl (fun s a => ?_) ?_
    | refine Within.foldl_snd (fun b a => ?_) ?_
    | refine Within.foldl_fst (fun b a => ?_) ?_
    | refine Within.foldl_pair (fun b a => ?_) ?_ (by assumption)
    | assumption
    | dsimp only

theorem coreDrainEnd_within {x0 s} : Within 2107400 s (coreDrainEnd x0 s) := by
  dsimp only [coreDrainEnd]
  with_reducible repeat' first
    | apply Within.refl
    | apply Within.ite
    | (apply Within.step markHoles_within; decide)
    | (apply Within.step coreStart_within; decide)
    | (apply Within.step traceCore_within; decide)
    | (apply Within.step State.putB_within; decide)
    | (apply Within.step State.putF_within; decide)
    | split
    | dsimp only

theorem execCoreEnable_within {x0 s} : WithinR 2107400 s (execCoreEnable x0 s) := by
  dsimp only [execCoreEnable]
  with_reducible repeat' first
    | apply WithinR.next
    | apply Within.refl
    | apply WithinR.outside
    | apply WithinR.oc
    | apply WithinR.ite
    | refine WithinR.hostWrite (fun s => Within.step holdDiscard_within (by decide) (Within.refl _ _)) (fun s => ?_)
    | apply Within.ite
    | (apply Within.step coreStart_within; decide)
    | (apply Within.step State.putB_within; decide)
    | split
    | dsimp only

theorem execCoreDisable_within {x0 s} : WithinR 86007816 s (execCoreDisable x0 s) := by
  dsimp only [execCoreDisable]
  with_reducible repeat' first
    | apply WithinR.next
    | apply Within.refl
    | apply WithinR.outside
    | apply WithinR.ite
    | refine WithinR.hostWrite (fun s => Within.step holdDiscard_within (by decide) (Within.refl _ _)) (fun s => ?_)
    | apply Within.ite
    | (apply Within.step coreDrainBegin_within; decide)
    | (apply Within.step State.putB_within; decide)
    | split
    | dsimp only

theorem execCoreWakeCmd_within {x0 s} : WithinR 85991432 s (execCoreWakeCmd x0 s) := by
  dsimp only [execCoreWakeCmd]
  with_reducible repeat' first
    | apply WithinR.next
    | apply Within.refl
    | refine WithinR.onlyIf (fun s => ?_) ?_
    | refine WithinR.hostWrite (fun s => Within.step holdDiscard_within (by decide) (Within.refl _ _)) (fun s => ?_)
    | (apply Within.step wakeCore_within; decide)
    | dsimp only

theorem execCoreDrainComplete_within {x0 s} : WithinR 2107400 s (execCoreDrainComplete x0 s) := by
  dsimp only [execCoreDrainComplete]
  with_reducible repeat' first
    | apply WithinR.next
    | apply Within.refl
    | refine WithinR.onlyIf (fun s => ?_) ?_
    | (apply Within.step coreDrainEnd_within; decide)
    | dsimp only

theorem execQueueEnable_within {x0 s} : WithinR 2056 s (execQueueEnable x0 s) := by
  dsimp only [execQueueEnable]
  with_reducible repeat' first
    | apply WithinR.next
    | apply Within.refl
    | apply WithinR.outside
    | apply WithinR.oc
    | apply WithinR.ite
    | refine WithinR.hostWrite (fun s => Within.step holdDiscard_within (by decide) (Within.refl _ _)) (fun s => ?_)
    | apply Within.ite
    | (apply Within.step qStart_within; decide)
    | (apply Within.step State.putB_within; decide)
    | split
    | dsimp only

theorem execQueueDisable_within {x0 s} : WithinR 8200 s (execQueueDisable x0 s) := by
  dsimp only [execQueueDisable]
  with_reducible repeat' first
    | apply WithinR.next
    | apply Within.refl
    | apply WithinR.outside
    | apply WithinR.ite
    | refine WithinR.hostWrite (fun s => Within.step holdDiscard_within (by decide) (Within.refl _ _)) (fun s => ?_)
    | apply Within.ite
    | (apply Within.step qLeave_within; decide)
    | (apply Within.step State.putB_within; decide)
    | split
    | dsimp only

theorem execQueueFlush_within {x0 s} : WithinR 10248 s (execQueueFlush x0 s) := by
  dsimp only [execQueueFlush]
  with_reducible repeat' first
    | apply WithinR.next
    | apply Within.refl
    | refine WithinR.onlyIf (fun s => ?_) ?_
    | refine WithinR.hostWrite (fun s => Within.step holdDiscard_within (by decide) (Within.refl _ _)) (fun s => ?_)
    | (apply Within.step qFlush_within; decide)
    | dsimp only

theorem execQueueDrainComplete_within {x0 s} : WithinR 10248 s (execQueueDrainComplete x0 s) := by
  dsimp only [execQueueDrainComplete]
  with_reducible repeat' first
    | apply WithinR.next
    | apply Within.refl
    | refine WithinR.onlyIf (fun s => ?_) ?_
    | (apply Within.step qDrained_within; decide)
    | dsimp only

theorem doorbellErr_within {x0 s} : Within 8 s (doorbellErr x0 s) := by
  dsimp only [doorbellErr]
  with_reducible repeat' first
    | apply Within.refl
    | (apply Within.step State.putB_within; decide)
    | dsimp only

theorem hostCommit_within {x0 x1 s} : Within 86122504 s (hostCommit x0 x1 s) := by
  dsimp only [hostCommit]
  with_reducible repeat' first
    | apply Within.refl
    | (apply Within.step qCommitted_within; decide)
    | (apply Within.step State.wr_within; decide)
    | dsimp only

theorem execQueueDoorbell_within {x0 x1 s} : WithinR 86122504 s (execQueueDoorbell x0 x1 s) := by
  dsimp only [execQueueDoorbell]
  with_reducible repeat' first
    | apply WithinR.next
    | apply Within.refl
    | apply WithinR.outside
    | apply WithinR.ite
    | refine WithinR.hostWrite (fun s => Within.step holdDiscard_within (by decide) (Within.refl _ _)) (fun s => ?_)
    | apply Within.ite
    | (apply Within.step hostCommit_within; decide)
    | (apply Within.step doorbellErr_within; decide)
    | (apply Within.step State.sat_within; decide)
    | split
    | dsimp only

theorem execQueueRelease_within {x0 x1 s} : WithinR 16777224 s (execQueueRelease x0 x1 s) := by
  dsimp only [execQueueRelease]
  with_reducible repeat' first
    | apply WithinR.next
    | apply Within.refl
    | apply WithinR.outside
    | apply WithinR.ite
    | refine WithinR.hostWrite (fun s => Within.step holdDiscard_within (by decide) (Within.refl _ _)) (fun s => ?_)
    | apply Within.ite
    | (apply Within.step doorbellErr_within; decide)
    | (apply Within.step qRel_within; decide)
    | (apply Within.step qRearm_within; decide)
    | split
    | dsimp only

theorem execQueueIrqWrite_within {x0 x1 s} : WithinR 16777224 s (execQueueIrqWrite x0 x1 s) := by
  dsimp only [execQueueIrqWrite]
  with_reducible repeat' first
    | apply WithinR.next
    | apply Within.refl
    | apply WithinR.outside
    | apply WithinR.oc
    | apply WithinR.ite
    | refine WithinR.hostWrite (fun s => Within.step holdDiscard_within (by decide) (Within.refl _ _)) (fun s => ?_)
    | apply Within.ite
    | (apply Within.step qRearm_within; decide)
    | (apply Within.step State.wr_within; decide)
    | split
    | dsimp only

theorem execIdleDozeExpiry_within {x0 s} : WithinR 8192 s (execIdleDozeExpiry x0 s) := by
  dsimp only [execIdleDozeExpiry]
  with_reducible repeat' first
    | apply WithinR.next
    | apply Within.refl
    | apply WithinR.outside
    | apply WithinR.ite
    | refine WithinR.onlyIf (fun s => ?_) ?_
    | apply Within.ite
    | (apply Within.step setCore_within; decide)
    | split
    | dsimp only

theorem execLowPowerEntry_within {x0 s} : WithinR 2105352 s (execLowPowerEntry x0 s) := by
  dsimp only [execLowPowerEntry]
  with_reducible repeat' first
    | apply WithinR.next
    | apply Within.refl
    | apply WithinR.outside
    | apply WithinR.ite
    | refine WithinR.onlyIf (fun s => ?_) ?_
    | apply Within.ite
    | (apply Within.step setCore_within; decide)
    | (apply Within.step traceCore_within; decide)
    | (apply Within.step State.putF_within; decide)
    | split
    | dsimp only

theorem execLowPowerEntryDone_within {x0 s} : WithinR 8200 s (execLowPowerEntryDone x0 s) := by
  dsimp only [execLowPowerEntryDone]
  with_reducible repeat' first
    | apply WithinR.next
    | apply Within.refl
    | apply WithinR.outside
    | apply WithinR.ite
    | refine WithinR.onlyIf (fun s => ?_) ?_
    | apply Within.ite
    | (apply Within.step setCore_within; decide)
    | (apply Within.step State.putF_within; decide)
    | split
    | dsimp only

theorem execLowPowerExitDone_within {x0 s} : WithinR 85993480 s (execLowPowerExitDone x0 s) := by
  dsimp only [execLowPowerExitDone]
  with_reducible repeat' first
    | apply WithinR.next
    | apply Within.refl
    | apply WithinR.outside
    | apply WithinR.ite
    | refine WithinR.onlyIf (fun s => ?_) ?_
    | apply Within.ite
    | (apply Within.step coreStart_within; decide)
    | (apply Within.step endWait_within; decide)
    | (apply Within.step State.putF_within; decide)
    | split
    | dsimp only

end Sys2Proof.Machine
end

