-- ==== Sys2Proof/Laws/FrameStores.lean ====
section
/-! SUPPORT. Within which fields of the state each operation stays: the address field, the arrays and the bank units. A theorem `f_within` names the fields by its mask. -/

set_option linter.unreachableTactic false
set_option linter.unusedTactic false

namespace Sys2Proof.Machine

set_option Elab.async false

theorem dmaIssue_within {x0 x1 s} : WithinR 139272 s (dmaIssue x0 x1 s) := by
  dsimp only [dmaIssue]
  with_reducible repeat' first
    | apply WithinR.next
    | apply Within.refl
    | apply WithinR.outside
    | apply WithinR.oc
    | apply WithinR.ite
    | apply Within.ite
    | (apply Within.step setCore_within; decide)
    | refine Within.step (Within.of_pair (by assumption) busRead_within) (by decide) ?_
    | (apply Within.step busRead_within; decide)
    | (apply Within.step State.putB_within; decide)
    | split
    | dsimp only

theorem dmaRow_within {x0 x1 x2 x3 s} : Within 147624 s (dmaRow x0 x1 x2 x3 s) := by
  dsimp only [dmaRow]
  with_reducible repeat' first
    | apply Within.refl
    | apply Within.ite
    | (apply Within.step busWrite_within; decide)
    | refine Within.step (Within.of_pair (by assumption) busRead_within) (by decide) ?_
    | (apply Within.step busRead_within; decide)
    | refine Within.foldl (fun s a => ?_) ?_
    | refine Within.foldl_snd (fun b a => ?_) ?_
    | refine Within.foldl_fst (fun b a => ?_) ?_
    | refine Within.foldl_pair (fun b a => ?_) ?_ (by assumption)
    | split
    | assumption
    | dsimp only

theorem dmaCopy_within {x0 x1 s x3} : Within 147624 s (dmaCopy x0 x1 s x3) := by
  dsimp only [dmaCopy]
  with_reducible repeat' first
    | apply Within.refl
    | (apply Within.step dmaRow_within; decide)
    | refine Within.foldl (fun s a => ?_) ?_
    | refine Within.foldl_snd (fun b a => ?_) ?_
    | refine Within.foldl_fst (fun b a => ?_) ?_
    | refine Within.foldl_pair (fun b a => ?_) ?_ (by assumption)
    | assumption
    | dsimp only

theorem dmaCommit_within {x0 s} : Within 220358824 s (dmaCommit x0 s) := by
  dsimp only [dmaCommit]
  with_reducible repeat' first
    | apply Within.refl
    | apply Within.ite
    | refine Within.step (Within.of_pair (by assumption) engCommit_within) (by decide) ?_
    | (apply Within.step engCommit_within; decide)
    | split
    | dsimp only

theorem dmaEnd_within {x0 x1 x2 s} : Within 220358824 s (dmaEnd x0 x1 x2 s) := by
  dsimp only [dmaEnd]
  with_reducible repeat' first
    | apply Within.refl
    | (apply Within.step dmaCommit_within; decide)
    | (apply Within.step setCore_within; decide)
    | dsimp only

theorem dmaWrite_within {x0 x1 x2 s} : Within 220358824 s (dmaWrite x0 x1 x2 s) := by
  dsimp only [dmaWrite]
  with_reducible repeat' first
    | apply Within.refl
    | apply Within.ite
    | (apply Within.step dmaEnd_within; decide)
    | (apply Within.step dmaCopy_within; decide)
    | (apply Within.step setCore_within; decide)
    | (apply Within.step depart_within; decide)
    | (apply Within.step pmcCount_within; decide)
    | refine Within.foldl (fun s a => ?_) ?_
    | refine Within.foldl_snd (fun b a => ?_) ?_
    | refine Within.foldl_fst (fun b a => ?_) ?_
    | refine Within.foldl_pair (fun b a => ?_) ?_ (by assumption)
    | split
    | assumption
    | dsimp only

theorem execDmaComplete_within {x0 x1 s} : WithinR 220358824 s (execDmaComplete x0 x1 s) := by
  dsimp only [execDmaComplete]
  with_reducible repeat' first
    | apply WithinR.next
    | apply Within.refl
    | apply WithinR.outside
    | apply WithinR.oc
    | apply WithinR.ite
    | apply Within.ite
    | refine engAccess_within (by decide) (fun s => ?_) ?_
    | (apply Within.step dmaWrite_within; decide)
    | (apply Within.step dmaEnd_within; decide)
    | (apply Within.step arrive_within; decide)
    | (apply Within.step meterMark_within; decide)
    | refine WithinR.foldl (fun r a h => ?_) ?_
    | refine Within.foldl (fun s a => ?_) ?_
    | refine Within.foldl_snd (fun b a => ?_) ?_
    | refine Within.foldl_fst (fun b a => ?_) ?_
    | refine Within.foldl_pair (fun b a => ?_) ?_ (by assumption)
    | split
    | assumption
    | dsimp only

theorem adrEffect_within {x0 x1 x2 s} : WithinP 155816 s (adrEffect x0 x1 x2 s) := by
  dsimp only [adrEffect]
  with_reducible repeat' first
    | apply Within.refl
    | apply WithinP.next
    | apply WithinP.fault
    | apply WithinP.refused
    | apply Within.ite
    | (apply WithinR.step dmaIssue_within; decide)
    | (refine Within.step (WithinR.get dmaIssue_within (by assumption)) (by decide) ?_)
    | (apply Within.step busWrite_within; decide)
    | refine Within.step (Within.of_pair (by assumption) busRead_within) (by decide) ?_
    | (apply Within.step busRead_within; decide)
    | (unfold adrEffect.oc15; apply WithinP.outside)
    | apply WithinP.outside
    | split
    | unfold adrEffect.oc15
    | dsimp only

theorem setArr_within {x0 x1 s} : Within 8200 s (setArr x0 x1 s) := by
  dsimp only [setArr]
  with_reducible repeat' first
    | apply Within.refl
    | (apply Within.step setCore_within; decide)
    | (apply Within.step State.putB_within; decide)
    | dsimp only

theorem gatherElem_within {x0 x1 x2 x3 x4 x5} : Within 131080 x4.2 (gatherElem x0 x1 x2 x3 x4 x5).2 := by
  dsimp only [gatherElem]
  with_reducible repeat' first
    | apply Within.refl
    | apply Within.ite
    | refine Within.step (Within.of_pair (by assumption) busRead_within) (by decide) ?_
    | (apply Within.step busRead_within; decide)
    | split
    | dsimp only

theorem actCol_within {x0 x1 x2 s} : Within 131080 s (actCol x0 x1 x2 s).2.2 := by
  dsimp only [actCol]
  with_reducible repeat' first
    | apply Within.refl
    | apply Within.ite
    | refine Within.step (Within.of_pair (by assumption) gatherElem_within) (by decide) ?_
    | (apply Within.step gatherElem_within; decide)
    | refine Within.foldl (fun s a => ?_) ?_
    | refine Within.foldl_snd (fun b a => ?_) ?_
    | refine Within.foldl_fst (fun b a => ?_) ?_
    | refine Within.foldl_pair (fun b a => ?_) ?_ (by assumption)
    | split
    | assumption
    | dsimp only

theorem mapAcc_within {x0 x1 x2 x3 x4 s} : Within 8200 s (mapAcc x0 x1 x2 x3 x4 s) := by
  dsimp only [mapAcc]
  with_reducible repeat' first
    | apply Within.refl
    | (apply Within.step setArr_within; decide)
    | dsimp only

theorem stepOut_within {x0 x1 x2 x3 x4 x5 x6 x7 s} : Within 8200 s (stepOut x0 x1 x2 x3 x4 x5 x6 x7 s) := by
  dsimp only [stepOut]
  with_reducible repeat' first
    | apply Within.refl
    | apply Within.ite
    | (apply Within.step mapAcc_within; decide)
    | split
    | dsimp only

theorem stepRow_within {x0 x1 x2 x3 x4 x5 x6 s} : Within 8200 s (stepRow x0 x1 x2 x3 x4 x5 x6 s) := by
  dsimp only [stepRow]
  with_reducible repeat' first
    | apply Within.refl
    | apply Within.ite
    | (apply Within.step mapAcc_within; decide)
    | refine Within.foldl (fun s a => ?_) ?_
    | refine Within.foldl_snd (fun b a => ?_) ?_
    | refine Within.foldl_fst (fun b a => ?_) ?_
    | refine Within.foldl_pair (fun b a => ?_) ?_ (by assumption)
    | split
    | assumption
    | dsimp only

theorem stepT_within {x0 x1 x2 x3 x4 s} : Within 8200 s (stepT x0 x1 x2 x3 x4 s) := by
  dsimp only [stepT]
  with_reducible repeat' first
    | apply Within.refl
    | apply Within.ite
    | (apply Within.step mapAcc_within; decide)
    | split
    | dsimp only

theorem stepLoad_within {x0 x1 x2 x3 x4 s} : Within 8200 s (stepLoad x0 x1 x2 x3 x4 s) := by
  dsimp only [stepLoad]
  with_reducible repeat' first
    | apply Within.refl
    | (apply Within.step setArr_within; decide)
    | dsimp only

theorem setCk_within {x0 x1 x2 s} : Within 8200 s (setCk x0 x1 x2 s) := by
  dsimp only [setCk]
  with_reducible repeat' first
    | apply Within.refl
    | (apply Within.step setArr_within; decide)
    | dsimp only

theorem ckWrite_within {x0 x1 x2 s} : Within 8200 s (ckWrite x0 x1 x2 s) := by
  dsimp only [ckWrite]
  with_reducible repeat' first
    | apply Within.refl
    | apply Within.ite
    | (apply Within.step setCk_within; decide)
    | split
    | dsimp only

theorem gatherAt_within {x0 x1 s} : Within 131080 s (gatherAt x0 x1 s).2 := by
  dsimp only [gatherAt]
  with_reducible repeat' first
    | apply Within.refl
    | refine Within.step (Within.of_pair (by assumption) busRead_within) (by decide) ?_
    | (apply Within.step busRead_within; decide)
    | dsimp only

theorem arrEffect_within {x0 x1 x2 s} : Within 139272 s (arrEffect x0 x1 x2 s) := by
  dsimp only [arrEffect]
  with_reducible repeat' first
    | apply Within.refl
    | apply Within.ite
    | refine Within.step (Within.of_pair (by assumption) gatherAt_within) (by decide) ?_
    | (apply Within.step gatherAt_within; decide)
    | (apply Within.step setArr_within; decide)
    | split
    | dsimp only

theorem riseLevel_within {x0 s} : Within 8 s (riseLevel x0 s) := by
  dsimp only [riseLevel]
  with_reducible repeat' first
    | apply Within.refl
    | apply Within.ite
    | (apply Within.step State.satAdd_within; decide)
    | (apply Within.step State.putF_within; decide)
    | split
    | dsimp only

theorem clearArr_within {x0 x1 s x3} : Within 8200 s (clearArr x0 x1 s x3) := by
  dsimp only [clearArr]
  with_reducible repeat' first
    | apply Within.refl
    | apply Within.ite
    | (apply Within.step setCk_within; decide)
    | (apply Within.step mapAcc_within; decide)
    | (apply Within.step State.putF_within; decide)
    | split
    | dsimp only

theorem beginOp_within {x0 x1 s} : WithinR 8200 s (beginOp x0 x1 s) := by
  dsimp only [beginOp]
  with_reducible repeat' first
    | apply WithinR.next
    | apply Within.refl
    | apply WithinR.outside
    | apply WithinR.oc
    | apply WithinR.ite
    | apply Within.ite
    | (apply Within.step clearArr_within; decide)
    | (apply Within.step setArr_within; decide)
    | refine WithinR.foldl (fun r a h => ?_) ?_
    | refine Within.foldl (fun s a => ?_) ?_
    | refine Within.foldl_snd (fun b a => ?_) ?_
    | refine Within.foldl_fst (fun b a => ?_) ?_
    | refine Within.foldl_pair (fun b a => ?_) ?_ (by assumption)
    | split
    | assumption
    | dsimp only

theorem execArrayOpBegin_within {x0 s} : WithinR 8200 s (execArrayOpBegin x0 s) := by
  dsimp only [execArrayOpBegin]
  with_reducible repeat' first
    | apply WithinR.next
    | apply Within.refl
    | apply WithinR.outside
    | apply WithinR.ite
    | refine WithinR.onlyIfR (fun s => ?_) ?_
    | apply Within.ite
    | (apply WithinR.step beginOp_within; decide)
    | (refine Within.step (WithinR.get beginOp_within (by assumption)) (by decide) ?_)
    | (apply Within.step setArr_within; decide)
    | split
    | dsimp only

theorem stepOne_within {x0 x1 x2 x3 s x5} : Within 8200 s (stepOne x0 x1 x2 x3 s x5) := by
  dsimp only [stepOne]
  with_reducible repeat' first
    | apply Within.refl
    | apply Within.ite
    | (apply Within.step ckWrite_within; decide)
    | (apply Within.step stepLoad_within; decide)
    | (apply Within.step stepT_within; decide)
    | (apply Within.step stepRow_within; decide)
    | (apply Within.step stepOut_within; decide)
    | split
    | dsimp only

theorem stepActs_within {x0 x1 s} : Within 131080 s (stepActs x0 x1 s).2.2 := by
  dsimp only [stepActs]
  with_reducible repeat' first
    | apply Within.refl
    | apply Within.ite
    | refine Within.step (Within.of_pair3 (by assumption) actCol_within) (by decide) ?_
    | (apply Within.step actCol_within; decide)
    | split
    | dsimp only

theorem countStep_within {x0 s} : Within 8 s (countStep x0 s) := by
  dsimp only [countStep]
  with_reducible repeat' first
    | apply Within.refl
    | (apply Within.step pmcCount_within; decide)
    | (apply Within.step State.wrQ_within; decide)
    | dsimp only

theorem runStep_within {x0 x1 s} : Within 139272 s (runStep x0 x1 s) := by
  dsimp only [runStep]
  with_reducible repeat' first
    | apply Within.refl
    | apply Within.ite
    | (apply Within.step countStep_within; decide)
    | refine Within.step (Within.of_pair3 (by assumption) stepActs_within) (by decide) ?_
    | (apply Within.step stepActs_within; decide)
    | (apply Within.step stepOne_within; decide)
    | (apply Within.step riseLevel_within; decide)
    | (apply Within.step setArr_within; decide)
    | (apply Within.step State.putB_within; decide)
    | refine Within.foldl (fun s a => ?_) ?_
    | refine Within.foldl_snd (fun b a => ?_) ?_
    | refine Within.foldl_fst (fun b a => ?_) ?_
    | refine Within.foldl_pair (fun b a => ?_) ?_ (by assumption)
    | split
    | assumption
    | dsimp only

theorem execArrayStep_within {x0 s} : WithinR 139272 s (execArrayStep x0 s) := by
  dsimp only [execArrayStep]
  with_reducible repeat' first
    | apply WithinR.next
    | apply Within.refl
    | apply WithinR.outside
    | apply WithinR.ite
    | refine WithinR.onlyIf (fun s => ?_) ?_
    | apply Within.ite
    | (apply Within.step runStep_within; decide)
    | split
    | dsimp only

theorem execArrayOpComplete_within {x0 x1 s} : WithinR 8200 s (execArrayOpComplete x0 x1 s) := by
  dsimp only [execArrayOpComplete]
  with_reducible repeat' first
    | apply WithinR.next
    | apply Within.refl
    | refine WithinR.onlyIf (fun s => ?_) ?_
    | (apply Within.step setArr_within; decide)
    | dsimp only

theorem transferOne_within {x0 x1 x2 s x4} : Within 8200 s (transferOne x0 x1 x2 s x4) := by
  dsimp only [transferOne]
  with_reducible repeat' first
    | apply Within.refl
    | apply Within.ite
    | (apply Within.step setArr_within; decide)
    | (apply Within.step State.satF_within; decide)
    | (apply Within.step State.putB_within; decide)
    | (apply Within.step State.putF_within; decide)
    | split
    | dsimp only

theorem sharedRows_within {x0 x1 x2 s x4} : Within 8192 s (sharedRows x0 x1 x2 s x4) := by
  dsimp only [sharedRows]
  with_reducible repeat' first
    | apply Within.refl
    | apply Within.ite
    | (apply Within.step setCore_within; decide)
    | refine Within.foldl (fun s a => ?_) ?_
    | refine Within.foldl_snd (fun b a => ?_) ?_
    | refine Within.foldl_fst (fun b a => ?_) ?_
    | refine Within.foldl_pair (fun b a => ?_) ?_ (by assumption)
    | split
    | assumption
    | dsimp only

theorem transfer_within {x0 x1 x2 s} : Within 8200 s (transfer x0 x1 x2 s) := by
  dsimp only [transfer]
  with_reducible repeat' first
    | apply Within.refl
    | apply Within.ite
    | (apply Within.step sharedRows_within; decide)
    | (apply Within.step transferOne_within; decide)
    | (apply Within.step setArr_within; decide)
    | (apply Within.step State.putB_within; decide)
    | refine Within.foldl (fun s a => ?_) ?_
    | refine Within.foldl_snd (fun b a => ?_) ?_
    | refine Within.foldl_fst (fun b a => ?_) ?_
    | refine Within.foldl_pair (fun b a => ?_) ?_ (by assumption)
    | split
    | assumption
    | dsimp only

theorem execDrainTransfer_within {x0 s} : WithinR 8200 s (execDrainTransfer x0 s) := by
  dsimp only [execDrainTransfer]
  with_reducible repeat' first
    | apply WithinR.next
    | apply Within.refl
    | apply WithinR.outside
    | apply WithinR.ite
    | refine WithinR.onlyIf (fun s => ?_) ?_
    | apply Within.ite
    | (apply Within.step transfer_within; decide)
    | split
    | dsimp only

theorem ckMismatch_within {x0 x1 x2 x3 x4 s} : Within 131080 s (ckMismatch x0 x1 x2 x3 x4 s) := by
  dsimp only [ckMismatch]
  with_reducible repeat' first
    | apply Within.refl
    | apply Within.ite
    | (apply Within.step State.sat_within; decide)
    | (apply Within.step State.wrN_within; decide)
    | (apply Within.step State.putB_within; decide)
    | fail_if_no_progress refine Within.lit rfl ?_ (h17 := .inr (by decide))
    | split
    | dsimp only

theorem checkAxis_within {x0 x1 x2 x3 s x5} : Within 131080 s (checkAxis x0 x1 x2 x3 s x5) := by
  dsimp only [checkAxis]
  with_reducible repeat' first
    | apply Within.refl
    | apply Within.ite
    | (apply Within.step ckMismatch_within; decide)
    | split
    | dsimp only

theorem checkTile_within {x0 x1 x2 x3 s} : Within 131080 s (checkTile x0 x1 x2 x3 s) := by
  dsimp only [checkTile]
  with_reducible repeat' first
    | apply Within.refl
    | apply Within.ite
    | (apply Within.step checkAxis_within; decide)
    | (apply Within.step State.sat_within; decide)
    | (apply Within.step State.putB_within; decide)
    | refine Within.foldl (fun s a => ?_) ?_
    | refine Within.foldl_snd (fun b a => ?_) ?_
    | refine Within.foldl_fst (fun b a => ?_) ?_
    | refine Within.foldl_pair (fun b a => ?_) ?_ (by assumption)
    | split
    | assumption
    | dsimp only

theorem finishDrain_within {x0 x1 x2 s} : Within 8200 s (finishDrain x0 x1 x2 s) := by
  dsimp only [finishDrain]
  with_reducible repeat' first
    | apply Within.refl
    | apply Within.ite
    | (apply Within.step setArr_within; decide)
    | split
    | dsimp only

theorem execTileComplete_within {x0 x1 s} : WithinR 67248136 s (execTileComplete x0 x1 s) := by
  dsimp only [execTileComplete]
  with_reducible repeat' first
    | apply WithinR.next
    | apply Within.refl
    | apply WithinR.outside
    | apply WithinR.ite
    | refine WithinR.onlyIf (fun s => ?_) ?_
    | apply Within.ite
    | (apply Within.step finishDrain_within; decide)
    | (apply Within.step checkTile_within; decide)
    | (apply Within.step setArr_within; decide)
    | (apply Within.step State.tickFree_within; decide)
    | (apply Within.step State.putB_within; decide)
    | split
    | dsimp only

theorem execArrayGapLimitExpiry_within {x0 s} : WithinR 8 s (execArrayGapLimitExpiry x0 s) := by
  dsimp only [execArrayGapLimitExpiry]
  with_reducible repeat' first
    | apply WithinR.next
    | apply Within.refl
    | apply WithinR.outside
    | apply WithinR.ite
    | refine WithinR.onlyIf (fun s => ?_) ?_
    | apply Within.ite
    | (apply Within.step State.putF_within; decide)
    | split
    | dsimp only

theorem setCq_within {x0 x1 x2 s} : Within 8200 s (setCq x0 x1 x2 s) := by
  dsimp only [setCq]
  with_reducible repeat' first
    | apply Within.refl
    | (apply Within.step setArr_within; decide)
    | dsimp only

theorem enterUpdate_within {x0 x1 s x3} : Within 8200 s (enterUpdate x0 x1 s x3) := by
  dsimp only [enterUpdate]
  with_reducible repeat' first
    | apply Within.refl
    | apply Within.ite
    | (apply Within.step setCq_within; decide)
    | (apply Within.step State.putF_within; decide)
    | split
    | dsimp only

theorem freeScatter_within {x0 x1 s} : Within 8 s (freeScatter x0 x1 s) := by
  dsimp only [freeScatter]
  with_reducible repeat' first
    | apply Within.refl
    | apply Within.ite
    | (apply Within.step State.putB_within; decide)
    | refine Within.foldl (fun s a => ?_) ?_
    | refine Within.foldl_snd (fun b a => ?_) ?_
    | refine Within.foldl_fst (fun b a => ?_) ?_
    | refine Within.foldl_pair (fun b a => ?_) ?_ (by assumption)
    | split
    | assumption
    | dsimp only

theorem execScatterRowIssue_within {x0 s} : WithinR 8200 s (execScatterRowIssue x0 s) := by
  dsimp only [execScatterRowIssue]
  with_reducible repeat' first
    | apply WithinR.next
    | apply Within.refl
    | apply WithinR.outside
    | apply WithinR.ite
    | refine WithinR.onlyIf (fun s => ?_) ?_
    | apply Within.ite
    | (apply Within.step freeScatter_within; decide)
    | (apply Within.step enterUpdate_within; decide)
    | (apply Within.step setArr_within; decide)
    | (apply Within.step pmcCount_within; decide)
    | (apply Within.step State.sat_within; decide)
    | (apply Within.step State.putB_within; decide)
    | refine WithinR.foldl (fun r a h => ?_) ?_
    | refine Within.foldl (fun s a => ?_) ?_
    | refine Within.foldl_snd (fun b a => ?_) ?_
    | refine Within.foldl_fst (fun b a => ?_) ?_
    | refine Within.foldl_pair (fun b a => ?_) ?_ (by assumption)
    | split
    | assumption
    | dsimp only

theorem retire_within {x0 s} : Within 134217760 s (retire x0 s) := by
  dsimp only [retire]
  with_reducible repeat' first
    | apply Within.refl
    | (apply Within.step State.leaveIf_within; decide)
    | (apply Within.step State.putBytes_within; decide)
    | refine Within.foldl (fun s a => ?_) ?_
    | refine Within.foldl_snd (fun b a => ?_) ?_
    | refine Within.foldl_fst (fun b a => ?_) ?_
    | refine Within.foldl_pair (fun b a => ?_) ?_ (by assumption)
    | assumption
    | dsimp only

theorem execBankAdderRetire_within {x0 x1 s} : WithinR 134225960 s (execBankAdderRetire x0 x1 s) := by
  dsimp only [execBankAdderRetire]
  with_reducible repeat' first
    | apply WithinR.next
    | apply Within.refl
    | apply WithinR.outside
    | apply WithinR.ite
    | refine WithinR.onlyIf (fun s => ?_) ?_
    | apply Within.ite
    | (apply Within.step retire_within; decide)
    | (apply Within.step setCq_within; decide)
    | split
    | dsimp only

theorem granRead_within {l s} : Within 131080 s (granRead s l).2.2 := by
  induction l generalizing s with
  | nil => exact Within.refl _ _
  | cons a l ih => exact Within.step ih (by decide) (Within.step devRead_within (by decide) (Within.refl _ _))

theorem granWrite_within {x0 x1 x2 s} : Within 131240 s (granWrite x0 x1 x2 s) := by
  dsimp only [granWrite]
  with_reducible repeat' first
    | apply Within.refl
    | apply Within.ite
    | (apply Within.step poisonRange_within; decide)
    | (apply Within.step compWrite_within; decide)
    | split
    | dsimp only

theorem memSync_within {x0 s} : Within 8 s (memSync x0 s) := by
  dsimp only [memSync]
  with_reducible repeat' first
    | apply Within.refl
    | apply Within.ite
    | (apply Within.step State.wrN_within; decide)
    | split
    | dsimp only

theorem buCount_within {x0 x1 s} : Within 16392 s (buCount x0 x1 s) := by
  dsimp only [buCount]
  with_reducible repeat' first
    | apply Within.refl
    | (apply Within.step setChan_within; decide)
    | (apply Within.step State.sat_within; decide)
    | dsimp only

theorem notifyWrite_within {x0 x1 s} : Within 134217760 s (notifyWrite x0 x1 s) := by
  dsimp only [notifyWrite]
  with_reducible repeat' first
    | apply Within.refl
    | apply Within.ite
    | (apply Within.step putEngine_within; decide)
    | split
    | dsimp only

theorem buDiscard_within {x0 s} : WithinR 134234152 s (buDiscard x0 s) := by
  dsimp only [buDiscard]
  with_reducible repeat' first
    | apply WithinR.next
    | apply Within.refl
    | apply WithinR.outside
    | apply WithinR.oc
    | apply WithinR.ite
    | refine WithinR.andThen (fun s => ?_) ?_
    | apply Within.ite
    | (apply Within.step notifyWrite_within; decide)
    | (apply Within.step buCount_within; decide)
    | (apply Within.step memSync_within; decide)
    | (apply Within.step setChan_within; decide)
    | (apply Within.step State.sat_within; decide)
    | refine WithinR.foldl (fun r a h => ?_) ?_
    | refine Within.foldl (fun s a => ?_) ?_
    | refine Within.foldl_snd (fun b a => ?_) ?_
    | refine Within.foldl_fst (fun b a => ?_) ?_
    | refine Within.foldl_pair (fun b a => ?_) ?_ (by assumption)
    | split
    | assumption
    | dsimp only

theorem buAbandon_within {x0 s} : Within 16552 s (buAbandon x0 s) := by
  dsimp only [buAbandon]
  with_reducible repeat' first
    | apply Within.refl
    | (apply Within.step buCount_within; decide)
    | (apply Within.step memSync_within; decide)
    | (apply Within.step poisonRange_within; decide)
    | (apply Within.step setChan_within; decide)
    | refine Within.foldl (fun s a => ?_) ?_
    | refine Within.foldl_snd (fun b a => ?_) ?_
    | refine Within.foldl_fst (fun b a => ?_) ?_
    | refine Within.foldl_pair (fun b a => ?_) ?_ (by assumption)
    | assumption
    | dsimp only

theorem modeRequest_within {x0 x1 s} : WithinR 134234152 s (modeRequest x0 x1 s) := by
  dsimp only [modeRequest]
  with_reducible repeat' first
    | apply WithinR.next
    | apply Within.refl
    | apply WithinR.outside
    | apply WithinR.ite
    | apply Within.ite
    | (apply WithinR.step buDiscard_within; decide)
    | (refine Within.step (WithinR.get buDiscard_within (by assumption)) (by decide) ?_)
    | (apply Within.step State.putF_within; decide)
    | split
    | dsimp only

theorem hostMode_within {x0 x1 s} : WithinR 134234152 s (hostMode x0 x1 s) := by
  dsimp only [hostMode]
  with_reducible repeat' first
    | apply WithinR.next
    | apply Within.refl
    | apply WithinR.outside
    | apply WithinR.ite
    | refine WithinR.hostWrite (fun s => Within.step holdDiscard_within (by decide) (Within.refl _ _)) (fun s => ?_)
    | apply Within.ite
    | (apply WithinR.step modeRequest_within; decide)
    | (refine Within.step (WithinR.get modeRequest_within (by assumption)) (by decide) ?_)
    | split
    | dsimp only

theorem execMemToMemory_within {x0 s} : WithinR 134234152 s (execMemToMemory x0 s) := by
  dsimp only [execMemToMemory]
  with_reducible repeat' first
    | apply WithinR.next
    | apply Within.refl
    | (apply WithinR.step hostMode_within; decide)
    | (refine Within.step (WithinR.get hostMode_within (by assumption)) (by decide) ?_)
    | dsimp only

theorem execMemToProcessor_within {x0 s} : WithinR 134234152 s (execMemToProcessor x0 s) := by
  dsimp only [execMemToProcessor]
  with_reducible repeat' first
    | apply WithinR.next
    | apply Within.refl
    | (apply WithinR.step hostMode_within; decide)
    | (refine Within.step (WithinR.get hostMode_within (by assumption)) (by decide) ?_)
    | dsimp only

theorem execChannelDrainComplete_within {x0 s} : WithinR 134217736 s (execChannelDrainComplete x0 s) := by
  dsimp only [execChannelDrainComplete]
  with_reducible repeat' first
    | apply WithinR.next
    | apply Within.refl
    | apply WithinR.outside
    | apply WithinR.ite
    | refine WithinR.onlyIf (fun s => ?_) ?_
    | apply Within.ite
    | (apply Within.step State.leaveIf_within; decide)
    | (apply Within.step State.putF_within; decide)
    | split
    | dsimp only

theorem accPerform_within {x0 x1 x2 s} : WithinR 33702056 s (accPerform x0 x1 x2 s) := by
  dsimp only [accPerform]
  with_reducible repeat' first
    | apply WithinR.next
    | apply Within.refl
    | apply WithinR.outside
    | apply WithinR.oc
    | apply WithinR.ite
    | apply Within.ite
    | (apply Within.step busWrite_within; decide)
    | refine Within.step (Within.of_pair (by assumption) busRead_within) (by decide) ?_
    | (apply Within.step busRead_within; decide)
    | (apply Within.step State.answer_within; decide)
    | split
    | dsimp only

theorem hostAccess_within {x0 x1 s} : WithinR 33964200 s (hostAccess x0 x1 s) := by
  dsimp only [hostAccess]
  with_reducible repeat' first
    | apply WithinR.next
    | apply Within.refl
    | apply WithinR.outside
    | apply WithinR.ite
    | apply Within.ite
    | (apply WithinR.step accPerform_within; decide)
    | (refine Within.step (WithinR.get accPerform_within (by assumption)) (by decide) ?_)
    | (apply Within.step depart_within; decide)
    | fail_if_no_progress refine Within.lit rfl ?_ (h18 := .inr (by decide))
    | split
    | dsimp only

theorem execMemoryAccess_within {x0 x1 x2 s} : WithinR 33964200 s (execMemoryAccess x0 x1 x2 s) := by
  dsimp only [execMemoryAccess]
  with_reducible repeat' first
    | apply WithinR.next
    | apply Within.refl
    | apply WithinR.outside
    | apply WithinR.ite
    | apply Within.ite
    | (apply WithinR.step hostAccess_within; decide)
    | (refine Within.step (WithinR.get hostAccess_within (by assumption)) (by decide) ?_)
    | (apply WithinR.step accPerform_within; decide)
    | (refine Within.step (WithinR.get accPerform_within (by assumption)) (by decide) ?_)
    | (apply Within.step depart_within; decide)
    | (apply Within.step arrive_within; decide)
    | (apply Within.step meterMark_within; decide)
    | split
    | dsimp only

theorem execCommandSubmit_within {x0 x1 x2 x3 s} : WithinR 147624 s (execCommandSubmit x0 x1 x2 x3 s) := by
  dsimp only [execCommandSubmit]
  with_reducible repeat' first
    | apply WithinR.next
    | apply Within.refl
    | refine WithinR.onlyIf (fun s => ?_) ?_
    | (apply Within.step busWrite_within; decide)
    | dsimp only

theorem execCommandAccept_within {x0 s} : WithinR 16392 s (execCommandAccept x0 s) := by
  dsimp only [execCommandAccept]
  with_reducible repeat' first
    | apply WithinR.next
    | apply Within.refl
    | apply WithinR.outside
    | apply WithinR.ite
    | apply Within.ite
    | (apply Within.step buCount_within; decide)
    | (apply Within.step memSync_within; decide)
    | (apply Within.step refuseCmd_within; decide)
    | (apply Within.step setChan_within; decide)
    | (apply Within.step State.sat_within; decide)
    | split
    | dsimp only

theorem takeFront_within {x0 x1 s} : Within 16384 s (takeFront x0 x1 s) := by
  dsimp only [takeFront]
  with_reducible repeat' first
    | apply Within.refl
    | (apply Within.step setChan_within; decide)
    | dsimp only

theorem buStart_within {M op c f s} (hM : Nat.land 16392 M = 16392) (hf : ∀ o s, Within M s (f o s)) : WithinR M s (buStart op c f s) := by
  unfold buStart
  split
  · exact WithinR.next (Within.refl _ _)
  · refine WithinR.onlyIf (fun s => ?_) (Within.refl _ _)
    exact Within.step memSync_within (sub_trans (by decide) hM) (Within.step (hf _ _) (Nat.and_self M) (Within.step setChan_within (sub_trans (by decide) hM) (Within.refl _ _)))

theorem buWords_within {x0 x1 s} : Within 131240 s (buWords x0 x1 s) := by
  dsimp only [buWords]
  with_reducible repeat' first
    | apply Within.refl
    | apply Within.ite
    | (apply Within.step granWrite_within; decide)
    | refine Within.step (Within.of_pair3 (by assumption) granRead_within) (by decide) ?_
    | (apply Within.step granRead_within; decide)
    | refine Within.foldl (fun s a => ?_) ?_
    | refine Within.foldl_snd (fun b a => ?_) ?_
    | refine Within.foldl_fst (fun b a => ?_) ?_
    | refine Within.foldl_pair (fun b a => ?_) ?_ (by assumption)
    | split
    | assumption
    | dsimp only

theorem buLut_within {x0 x1 s} : Within 131240 s (buLut x0 x1 s) := by
  dsimp only [buLut]
  with_reducible repeat' first
    | apply Within.refl
    | (apply Within.step granWrite_within; decide)
    | refine Within.step (Within.of_pair3 (by assumption) granRead_within) (by decide) ?_
    | (apply Within.step granRead_within; decide)
    | refine Within.foldl (fun s a => ?_) ?_
    | refine Within.foldl_snd (fun b a => ?_) ?_
    | refine Within.foldl_fst (fun b a => ?_) ?_
    | refine Within.foldl_pair (fun b a => ?_) ?_ (by assumption)
    | assumption
    | dsimp only

theorem buMove_within {x0 x1 s} : Within 131240 s (buMove x0 x1 s) := by
  dsimp only [buMove]
  with_reducible repeat' first
    | apply Within.refl
    | (apply Within.step granWrite_within; decide)
    | refine Within.step (Within.of_pair3 (by assumption) granRead_within) (by decide) ?_
    | (apply Within.step granRead_within; decide)
    | refine Within.foldl (fun s a => ?_) ?_
    | refine Within.foldl_snd (fun b a => ?_) ?_
    | refine Within.foldl_fst (fun b a => ?_) ?_
    | refine Within.foldl_pair (fun b a => ?_) ?_ (by assumption)
    | assumption
    | dsimp only

theorem buBits_within {x0 x1 x2 s} : Within 67240104 s (buBits x0 x1 x2 s) := by
  dsimp only [buBits]
  with_reducible repeat' first
    | apply Within.refl
    | apply Within.ite
    | (apply Within.step granWrite_within; decide)
    | refine Within.step (Within.of_pair3 (by assumption) granRead_within) (by decide) ?_
    | (apply Within.step granRead_within; decide)
    | (apply Within.step State.tickFree_within; decide)
    | refine Within.foldl (fun s a => ?_) ?_
    | refine Within.foldl_snd (fun b a => ?_) ?_
    | refine Within.foldl_fst (fun b a => ?_) ?_
    | refine Within.foldl_pair (fun b a => ?_) ?_ (by assumption)
    | split
    | assumption
    | dsimp only

theorem execBankUnitAdd_within {x0 s} : WithinR 147624 s (execBankUnitAdd x0 s) := by
  dsimp only [execBankUnitAdd]
  with_reducible repeat' first
    | apply WithinR.next
    | apply Within.refl
    | refine buStart_within (by decide) (fun b s => ?_)
    | (apply Within.step buWords_within; decide)
    | dsimp only

theorem execBankUnitSub_within {x0 s} : WithinR 147624 s (execBankUnitSub x0 s) := by
  dsimp only [execBankUnitSub]
  with_reducible repeat' first
    | apply WithinR.next
    | apply Within.refl
    | refine buStart_within (by decide) (fun b s => ?_)
    | (apply Within.step buWords_within; decide)
    | dsimp only

theorem execBankUnitMul_within {x0 s} : WithinR 147624 s (execBankUnitMul x0 s) := by
  dsimp only [execBankUnitMul]
  with_reducible repeat' first
    | apply WithinR.next
    | apply Within.refl
    | refine buStart_within (by decide) (fun b s => ?_)
    | (apply Within.step buWords_within; decide)
    | dsimp only

theorem execMadd_within {x0 s} : WithinR 147624 s (execMadd x0 s) := by
  dsimp only [execMadd]
  with_reducible repeat' first
    | apply WithinR.next
    | apply Within.refl
    | refine buStart_within (by decide) (fun b s => ?_)
    | (apply Within.step buWords_within; decide)
    | dsimp only

theorem execRelu_within {x0 s} : WithinR 147624 s (execRelu x0 s) := by
  dsimp only [execRelu]
  with_reducible repeat' first
    | apply WithinR.next
    | apply Within.refl
    | refine buStart_within (by decide) (fun b s => ?_)
    | (apply Within.step buWords_within; decide)
    | dsimp only

theorem execBankUnitClamp_within {x0 s} : WithinR 147624 s (execBankUnitClamp x0 s) := by
  dsimp only [execBankUnitClamp]
  with_reducible repeat' first
    | apply WithinR.next
    | apply Within.refl
    | refine buStart_within (by decide) (fun b s => ?_)
    | (apply Within.step buWords_within; decide)
    | dsimp only

theorem execLut_within {x0 s} : WithinR 147624 s (execLut x0 s) := by
  dsimp only [execLut]
  with_reducible repeat' first
    | apply WithinR.next
    | apply Within.refl
    | refine buStart_within (by decide) (fun b s => ?_)
    | (apply Within.step buLut_within; decide)
    | dsimp only

theorem execBsadd_within {x0 s} : WithinR 67256488 s (execBsadd x0 s) := by
  dsimp only [execBsadd]
  with_reducible repeat' first
    | apply WithinR.next
    | apply Within.refl
    | refine buStart_within (by decide) (fun b s => ?_)
    | (apply Within.step buBits_within; decide)
    | dsimp only

theorem execBsmul_within {x0 s} : WithinR 67256488 s (execBsmul x0 s) := by
  dsimp only [execBsmul]
  with_reducible repeat' first
    | apply WithinR.next
    | apply Within.refl
    | refine buStart_within (by decide) (fun b s => ?_)
    | (apply Within.step buBits_within; decide)
    | dsimp only

theorem execMoveBu_within {x0 s} : WithinR 147624 s (execMoveBu x0 s) := by
  dsimp only [execMoveBu]
  with_reducible repeat' first
    | apply WithinR.next
    | apply Within.refl
    | refine buStart_within (by decide) (fun b s => ?_)
    | (apply Within.step buMove_within; decide)
    | dsimp only

theorem execNotify_within {x0 s} : WithinR 134234152 s (execNotify x0 s) := by
  dsimp only [execNotify]
  with_reducible repeat' first
    | apply WithinR.next
    | apply Within.refl
    | apply WithinR.outside
    | apply WithinR.oc
    | apply WithinR.ite
    | apply Within.ite
    | (apply Within.step takeFront_within; decide)
    | (apply Within.step notifyWrite_within; decide)
    | (apply Within.step buCount_within; decide)
    | (apply Within.step memSync_within; decide)
    | split
    | dsimp only

theorem execBankUnitComplete_within {x0 x1 s} : WithinR 16392 s (execBankUnitComplete x0 x1 s) := by
  dsimp only [execBankUnitComplete]
  with_reducible repeat' first
    | apply WithinR.next
    | apply Within.refl
    | apply WithinR.outside
    | apply WithinR.ite
    | refine WithinR.onlyIf (fun s => ?_) ?_
    | apply Within.ite
    | (apply Within.step buCount_within; decide)
    | (apply Within.step memSync_within; decide)
    | (apply Within.step setChan_within; decide)
    | split
    | dsimp only

theorem memHottest_within {s} : Within 8 s (memHottest s) := by
  dsimp only [memHottest]
  with_reducible repeat' first
    | apply Within.refl
    | apply Within.ite
    | (apply Within.step State.putF_within; decide)
    | refine Within.foldl (fun s a => ?_) ?_
    | refine Within.foldl_snd (fun b a => ?_) ?_
    | refine Within.foldl_fst (fun b a => ?_) ?_
    | refine Within.foldl_pair (fun b a => ?_) ?_ (by assumption)
    | split
    | assumption
    | dsimp only

theorem execMemTempSample_within {x0 x1 s} : WithinR 8 s (execMemTempSample x0 x1 s) := by
  dsimp only [execMemTempSample]
  with_reducible repeat' first
    | apply WithinR.next
    | apply Within.refl
    | apply WithinR.outside
    | apply WithinR.ite
    | refine WithinR.onlyIf (fun s => ?_) ?_
    | apply Within.ite
    | (apply Within.step memHottest_within; decide)
    | (apply Within.step State.putB_within; decide)
    | (apply Within.step State.putF_within; decide)
    | refine WithinR.foldl (fun r a h => ?_) ?_
    | refine Within.foldl (fun s a => ?_) ?_
    | refine Within.foldl_snd (fun b a => ?_) ?_
    | refine Within.foldl_fst (fun b a => ?_) ?_
    | refine Within.foldl_pair (fun b a => ?_) ?_ (by assumption)
    | split
    | assumption
    | dsimp only

end Sys2Proof.Machine
end

