-- ==== Sys2Proof/Laws/FrameIntake.lean ====
section
/-! SUPPORT. Within which fields of the state each operation stays: time, position, the sweep intake and the Ethernet ports. A theorem `f_within` names the fields by its mask. -/

set_option linter.unreachableTactic false
set_option linter.unusedTactic false

namespace Sys2Proof.Machine

set_option Elab.async false

theorem setPkCount_within {s x1 x2} : Within 8 s (setPkCount s x1 x2) := by
  dsimp only [setPkCount]
  with_reducible repeat' first
    | apply Within.refl
    | (apply Within.step State.wrQ_within; decide)
    | dsimp only

theorem timeSync_within {s} : Within 8 s (timeSync s) := by
  dsimp only [timeSync]
  with_reducible repeat' first
    | apply Within.refl
    | apply Within.ite
    | (apply Within.step State.putB_within; decide)
    | split
    | dsimp only

theorem tbAdvance_within {s x1} : Within 1024 s (tbAdvance s x1) := by
  dsimp only [tbAdvance]
  with_reducible repeat' first
    | apply Within.refl
    | apply Within.ite
    | fail_if_no_progress refine Within.lit rfl ?_ (h10 := .inr (by decide))
    | split
    | dsimp only

theorem latchCount_within {x0 x1 s} : Within 8 s (latchCount x0 x1 s) := by
  dsimp only [latchCount]
  with_reducible repeat' first
    | apply Within.refl
    | (apply Within.step State.wrN_within; decide)
    | refine Within.foldl (fun s a => ?_) ?_
    | refine Within.foldl_snd (fun b a => ?_) ?_
    | refine Within.foldl_fst (fun b a => ?_) ?_
    | refine Within.foldl_pair (fun b a => ?_) ?_ (by assumption)
    | assumption
    | dsimp only

theorem loadWindowEnd_within {s} : Within 33800 s (loadWindowEnd s) := by
  dsimp only [loadWindowEnd]
  with_reducible repeat' first
    | apply Within.refl
    | (apply Within.step latchCount_within; decide)
    | (apply Within.step State.inc_within; decide)
    | fail_if_no_progress refine Within.lit rfl ?_ (h10 := .inr (by decide)) (h15 := .inr (by decide))
    | dsimp only

theorem execTimeSet_within {s} : WithinR 1032 s (execTimeSet s) := by
  dsimp only [execTimeSet]
  with_reducible repeat' first
    | apply WithinR.next
    | apply Within.refl
    | apply WithinR.outside
    | apply WithinR.ite
    | refine WithinR.hostWrite (fun s => Within.step holdDiscard_within (by decide) (Within.refl _ _)) (fun s => ?_)
    | apply Within.ite
    | (apply Within.step State.putB_within; decide)
    | fail_if_no_progress refine Within.lit rfl ?_ (h10 := .inr (by decide))
    | split
    | dsimp only

theorem execTimeStep_within {s} : WithinR 1032 s (execTimeStep s) := by
  dsimp only [execTimeStep]
  with_reducible repeat' first
    | apply WithinR.next
    | apply Within.refl
    | apply WithinR.outside
    | apply WithinR.ite
    | refine WithinR.hostWrite (fun s => Within.step holdDiscard_within (by decide) (Within.refl _ _)) (fun s => ?_)
    | apply Within.ite
    | (apply Within.step State.putB_within; decide)
    | fail_if_no_progress refine Within.lit rfl ?_ (h10 := .inr (by decide))
    | split
    | dsimp only

theorem execTimeSnap_within {s} : WithinR 8 s (execTimeSnap s) := by
  dsimp only [execTimeSnap]
  with_reducible repeat' first
    | apply WithinR.next
    | apply Within.refl
    | refine WithinR.hostWrite (fun s => Within.step holdDiscard_within (by decide) (Within.refl _ _)) (fun s => ?_)
    | (apply Within.step State.putB_within; decide)
    | dsimp only

theorem execTimeSnapDone_within {s} : WithinR 8 s (execTimeSnapDone s) := by
  dsimp only [execTimeSnapDone]
  with_reducible repeat' first
    | apply WithinR.next
    | apply Within.refl
    | refine WithinR.onlyIf (fun s => ?_) ?_
    | (apply Within.step State.wrQ_within; decide)
    | (apply Within.step State.putB_within; decide)
    | refine WithinR.foldl (fun r a h => ?_) ?_
    | refine Within.foldl (fun s a => ?_) ?_
    | refine Within.foldl_snd (fun b a => ?_) ?_
    | refine Within.foldl_fst (fun b a => ?_) ?_
    | refine Within.foldl_pair (fun b a => ?_) ?_ (by assumption)
    | assumption
    | dsimp only

theorem trimPut_within {x0 s} : Within 8 s (trimPut x0 s) := by
  dsimp only [trimPut]
  with_reducible repeat' first
    | apply Within.refl
    | apply Within.ite
    | (apply Within.step State.putB_within; decide)
    | (apply Within.step State.wr_within; decide)
    | split
    | dsimp only

theorem execTimeTrimWrite_within {x0 s} : WithinR 8 s (execTimeTrimWrite x0 s) := by
  dsimp only [execTimeTrimWrite]
  with_reducible repeat' first
    | apply WithinR.next
    | apply Within.refl
    | apply WithinR.outside
    | apply WithinR.ite
    | refine WithinR.hostWrite (fun s => Within.step holdDiscard_within (by decide) (Within.refl _ _)) (fun s => ?_)
    | apply Within.ite
    | (apply Within.step trimPut_within; decide)
    | split
    | dsimp only

theorem traceTime_within {s} : Within 2097160 s (traceTime s) := by
  dsimp only [traceTime]
  with_reducible repeat' first
    | apply Within.refl
    | (apply Within.step traceSys_within; decide)
    | dsimp only

theorem execTimeBaseSecond_within {s} : WithinR 2098186 s (execTimeBaseSecond s) := by
  dsimp only [execTimeBaseSecond]
  with_reducible repeat' first
    | apply WithinR.next
    | apply Within.refl
    | apply WithinR.outside
    | apply WithinR.ite
    | refine WithinR.onlyIf (fun s => ?_) ?_
    | apply Within.ite
    | (apply Within.step traceTime_within; decide)
    | fail_if_no_progress refine Within.lit rfl ?_ (h1 := .inr (by decide)) (h10 := .inr (by decide))
    | split
    | dsimp only

theorem execPpsOutPulseEnd_within {s} : WithinR 1026 s (execPpsOutPulseEnd s) := by
  dsimp only [execPpsOutPulseEnd]
  with_reducible repeat' first
    | apply WithinR.next
    | apply Within.refl
    | refine WithinR.onlyIf (fun s => ?_) ?_
    | fail_if_no_progress refine Within.lit rfl ?_ (h1 := .inr (by decide)) (h10 := .inr (by decide))
    | dsimp only

theorem execPpsInEdge_within {x0 x1 s} : WithinR 1032 s (execPpsInEdge x0 x1 s) := by
  dsimp only [execPpsInEdge]
  with_reducible repeat' first
    | apply WithinR.next
    | apply Within.refl
    | refine WithinR.onlyIf (fun s => ?_) ?_
    | (apply Within.step State.inc_within; decide)
    | (apply Within.step State.wrQ_within; decide)
    | (apply Within.step State.putB_within; decide)
    | fail_if_no_progress refine Within.lit rfl ?_ (h10 := .inr (by decide))
    | dsimp only

theorem execPpsLostTimeout_within {s} : WithinR 8 s (execPpsLostTimeout s) := by
  dsimp only [execPpsLostTimeout]
  with_reducible repeat' first
    | apply WithinR.next
    | apply Within.refl
    | refine WithinR.onlyIf (fun s => ?_) ?_
    | (apply Within.step State.putB_within; decide)
    | dsimp only

theorem unrefPick_within {s x1} : Within 8 s (unrefPick s x1) := by
  dsimp only [unrefPick]
  with_reducible repeat' first
    | apply Within.refl
    | (apply Within.step State.putB_within; decide)
    | dsimp only

theorem clockLost_within {s} : Within 8 s (clockLost s) := by
  dsimp only [clockLost]
  with_reducible repeat' first
    | apply Within.refl
    | (apply Within.step unrefPick_within; decide)
    | (apply Within.step timeSync_within; decide)
    | (apply Within.step State.putB_within; decide)
    | refine Within.foldl (fun s a => ?_) ?_
    | refine Within.foldl_snd (fun b a => ?_) ?_
    | refine Within.foldl_fst (fun b a => ?_) ?_
    | refine Within.foldl_pair (fun b a => ?_) ?_ (by assumption)
    | assumption
    | dsimp only

theorem execSysclkLoss_within {s} : WithinR 21102606 s (execSysclkLoss s) := by
  dsimp only [execSysclkLoss]
  with_reducible repeat' first
    | apply WithinR.next
    | apply Within.refl
    | apply WithinR.outside
    | apply WithinR.ite
    | refine WithinR.onlyIf (fun s => ?_) ?_
    | apply Within.ite
    | (apply Within.step clockLost_within; decide)
    | (apply Within.step selvEvent_within; decide)
    | fail_if_no_progress refine Within.lit rfl ?_ (h2 := .inr (by decide))
    | split
    | dsimp only

theorem execSysclkReturn_within {s} : WithinR 4 s (execSysclkReturn s) := by
  dsimp only [execSysclkReturn]
  with_reducible repeat' first
    | apply WithinR.next
    | apply Within.refl
    | refine WithinR.onlyIf (fun s => ?_) ?_
    | fail_if_no_progress refine Within.lit rfl ?_ (h2 := .inr (by decide))
    | dsimp only

theorem execPllRelock_within {x0 s} : WithinR 1252 s (execPllRelock x0 s) := by
  dsimp only [execPllRelock]
  with_reducible repeat' first
    | apply WithinR.next
    | apply Within.refl
    | apply WithinR.outside
    | apply WithinR.ite
    | refine WithinR.onlyIf (fun s => ?_) ?_
    | apply Within.ite
    | (apply Within.step State.loseComp_within; decide)
    | fail_if_no_progress refine Within.lit rfl ?_ (h2 := .inr (by decide)) (h10 := .inr (by decide))
    | split
    | dsimp only

theorem putGrid_within {s x1 x2} : Within 4096 s (putGrid s x1 x2) := by
  dsimp only [putGrid]
  with_reducible repeat' first
    | apply Within.refl
    | apply Within.ite
    | fail_if_no_progress refine Within.lit rfl ?_ (h12 := .inr (by decide))
    | split
    | dsimp only

theorem gridSync_within {x0 s} : Within 8 s (gridSync x0 s) := by
  dsimp only [gridSync]
  with_reducible repeat' first
    | apply Within.refl
    | apply Within.ite
    | (apply Within.step State.wrQ_within; decide)
    | (apply Within.step State.putB_within; decide)
    | (apply Within.step State.putF_within; decide)
    | split
    | dsimp only

theorem setGrid_within {x0 x1 s} : Within 4104 s (setGrid x0 x1 s) := by
  dsimp only [setGrid]
  with_reducible repeat' first
    | apply Within.refl
    | (apply Within.step gridSync_within; decide)
    | (apply Within.step putGrid_within; decide)
    | dsimp only

theorem headerCounts_within {x0 x1 s} : Within 134217760 s (headerCounts x0 x1 s) := by
  dsimp only [headerCounts]
  with_reducible repeat' first
    | apply Within.refl
    | (apply Within.step putEngine_within; decide)
    | dsimp only

theorem gridOpen_within {x0 x1 x2 x3 s} : Within 134221864 s (gridOpen x0 x1 x2 x3 s) := by
  dsimp only [gridOpen]
  with_reducible repeat' first
    | apply Within.refl
    | apply Within.ite
    | (apply Within.step headerCounts_within; decide)
    | (apply Within.step setGrid_within; decide)
    | (apply Within.step putEngine_within; decide)
    | split
    | dsimp only

theorem gridFlip_within {x0 x1 s} : Within 134221864 s (gridFlip x0 x1 s) := by
  dsimp only [gridFlip]
  with_reducible repeat' first
    | apply Within.refl
    | apply Within.ite
    | (apply Within.step gridOpen_within; decide)
    | (apply Within.step setGrid_within; decide)
    | (apply Within.step putEngine_within; decide)
    | split
    | dsimp only

theorem gridsFlip_within {x0 x1 s} : Within 134221864 s (gridsFlip x0 x1 s) := by
  dsimp only [gridsFlip]
  with_reducible repeat' first
    | apply Within.refl
    | apply Within.ite
    | (apply Within.step gridFlip_within; decide)
    | refine Within.foldl (fun s a => ?_) ?_
    | refine Within.foldl_snd (fun b a => ?_) ?_
    | refine Within.foldl_fst (fun b a => ?_) ?_
    | refine Within.foldl_pair (fun b a => ?_) ?_ (by assumption)
    | split
    | assumption
    | dsimp only

theorem gridRefLoad_within {x0 s} : Within 134221864 s (gridRefLoad x0 s) := by
  dsimp only [gridRefLoad]
  with_reducible repeat' first
    | apply Within.refl
    | apply Within.ite
    | (apply Within.step headerCounts_within; decide)
    | (apply Within.step setGrid_within; decide)
    | refine Within.foldl (fun s a => ?_) ?_
    | refine Within.foldl_snd (fun b a => ?_) ?_
    | refine Within.foldl_fst (fun b a => ?_) ?_
    | refine Within.foldl_pair (fun b a => ?_) ?_ (by assumption)
    | split
    | assumption
    | dsimp only

theorem clearBuf_within {x0 x1 s} : Within 134217760 s (clearBuf x0 x1 s) := by
  dsimp only [clearBuf]
  with_reducible repeat' first
    | apply Within.refl
    | (apply Within.step putEngine_within; decide)
    | dsimp only

theorem gridsStart_within {x0 s} : Within 134221864 s (gridsStart x0 s) := by
  dsimp only [gridsStart]
  with_reducible repeat' first
    | apply Within.refl
    | apply Within.ite
    | (apply Within.step clearBuf_within; decide)
    | (apply Within.step gridOpen_within; decide)
    | (apply Within.step putGrid_within; decide)
    | refine Within.foldl (fun s a => ?_) ?_
    | refine Within.foldl_snd (fun b a => ?_) ?_
    | refine Within.foldl_fst (fun b a => ?_) ?_
    | refine Within.foldl_pair (fun b a => ?_) ?_ (by assumption)
    | split
    | assumption
    | dsimp only

theorem gridsShow_within {x0 s} : Within 8 s (gridsShow x0 s) := by
  dsimp only [gridsShow]
  with_reducible repeat' first
    | apply Within.refl
    | apply Within.ite
    | (apply Within.step gridSync_within; decide)
    | refine Within.foldl (fun s a => ?_) ?_
    | refine Within.foldl_snd (fun b a => ?_) ?_
    | refine Within.foldl_fst (fun b a => ?_) ?_
    | refine Within.foldl_pair (fun b a => ?_) ?_ (by assumption)
    | split
    | assumption
    | dsimp only

theorem execIntakeGridFlip_within {x0 s} : WithinR 134221864 s (execIntakeGridFlip x0 s) := by
  dsimp only [execIntakeGridFlip]
  with_reducible repeat' first
    | apply WithinR.next
    | apply Within.refl
    | refine WithinR.hostWrite (fun s => Within.step holdDiscard_within (by decide) (Within.refl _ _)) (fun s => ?_)
    | (apply Within.step gridFlip_within; decide)
    | dsimp only

theorem execGridBufferClosed_within {x0 s} : WithinR 134221864 s (execGridBufferClosed x0 s) := by
  dsimp only [execGridBufferClosed]
  with_reducible repeat' first
    | apply WithinR.next
    | apply Within.refl
    | apply WithinR.outside
    | apply WithinR.ite
    | refine WithinR.onlyIf (fun s => ?_) ?_
    | apply Within.ite
    | (apply Within.step headerCounts_within; decide)
    | (apply Within.step setGrid_within; decide)
    | split
    | dsimp only

theorem gridFree_within {x0 x1 s} : Within 4104 s (gridFree x0 x1 s) := by
  dsimp only [gridFree]
  with_reducible repeat' first
    | apply Within.refl
    | apply Within.ite
    | (apply Within.step setGrid_within; decide)
    | split
    | dsimp only

theorem execGridRelease_within {x0 s} : WithinR 151560 s (execGridRelease x0 s) := by
  dsimp only [execGridRelease]
  with_reducible repeat' first
    | apply WithinR.next
    | apply Within.refl
    | apply WithinR.outside
    | apply WithinR.ite
    | apply Within.ite
    | refine engAccess_within (by decide) (fun s => ?_) ?_
    | (apply Within.step gridFree_within; decide)
    | (apply Within.step qTake_within; decide)
    | (apply Within.step State.putB_within; decide)
    | refine WithinR.foldl (fun r a h => ?_) ?_
    | refine Within.foldl (fun s a => ?_) ?_
    | refine Within.foldl_snd (fun b a => ?_) ?_
    | refine Within.foldl_fst (fun b a => ?_) ?_
    | refine Within.foldl_pair (fun b a => ?_) ?_ (by assumption)
    | split
    | assumption
    | dsimp only

theorem execGridClearDone_within {x0 s} : WithinR 134221864 s (execGridClearDone x0 s) := by
  dsimp only [execGridClearDone]
  with_reducible repeat' first
    | apply WithinR.next
    | apply Within.refl
    | apply WithinR.outside
    | apply WithinR.ite
    | refine WithinR.onlyIf (fun s => ?_) ?_
    | apply Within.ite
    | (apply Within.step clearBuf_within; decide)
    | (apply Within.step gridOpen_within; decide)
    | (apply Within.step setGrid_within; decide)
    | split
    | dsimp only

theorem setMemBit_within {x0 x1 s} : Within 134217760 s (setMemBit x0 x1 s) := by
  dsimp only [setMemBit]
  with_reducible repeat' first
    | apply Within.refl
    | apply Within.ite
    | (apply Within.step putEngine_within; decide)
    | dsimp only

theorem putNat_within {x0 x1 x2 s} : Within 134217760 s (putNat x0 x1 x2 s) := by
  dsimp only [putNat]
  with_reducible repeat' first
    | apply Within.refl
    | (apply Within.step putEngine_within; decide)
    | dsimp only

theorem insertPoint_within {x0 x1 x2 x3 s} : Within 134221864 s (insertPoint x0 x1 x2 x3 s) := by
  dsimp only [insertPoint]
  with_reducible repeat' first
    | apply Within.refl
    | apply Within.ite
    | (apply Within.step putNat_within; decide)
    | (apply Within.step setMemBit_within; decide)
    | (apply Within.step headerCounts_within; decide)
    | (apply Within.step setGrid_within; decide)
    | (apply Within.step putEngine_within; decide)
    | (apply Within.step State.sat_within; decide)
    | (apply Within.step State.putB_within; decide)
    | split
    | dsimp only

theorem takePoint_within {x0 x1 x2 s x4} : Within 134221864 s (takePoint x0 x1 x2 s x4) := by
  dsimp only [takePoint]
  with_reducible repeat' first
    | apply Within.refl
    | apply Within.ite
    | (apply Within.step insertPoint_within; decide)
    | (apply Within.step State.sat_within; decide)
    | split
    | dsimp only

theorem setCtx_within {s x1 x2} : Within 4096 s (setCtx s x1 x2) := by
  dsimp only [setCtx]
  with_reducible repeat' first
    | apply Within.refl
    | fail_if_no_progress refine Within.lit rfl ?_ (h12 := .inr (by decide))
    | dsimp only

theorem execPointInsertion_within {s} : WithinR 134221864 s (execPointInsertion s) := by
  dsimp only [execPointInsertion]
  with_reducible repeat' first
    | apply WithinR.next
    | apply Within.refl
    | apply WithinR.outside
    | apply WithinR.oc
    | apply WithinR.ite
    | apply Within.ite
    | (apply Within.step takePoint_within; decide)
    | refine WithinR.foldl (fun r a h => ?_) ?_
    | refine Within.foldl (fun s a => ?_) ?_
    | refine Within.foldl_snd (fun b a => ?_) ?_
    | refine Within.foldl_fst (fun b a => ?_) ?_
    | refine Within.foldl_pair (fun b a => ?_) ?_ (by assumption)
    | fail_if_no_progress refine Within.lit rfl ?_ (h12 := .inr (by decide))
    | split
    | assumption
    | dsimp only

theorem emitRow_within {x0 x1 s} : Within 220362920 s (emitRow x0 x1 s) := by
  dsimp only [emitRow]
  with_reducible repeat' first
    | apply Within.refl
    | apply Within.ite
    | (apply Within.step setCtx_within; decide)
    | refine Within.step (Within.of_pair (by assumption) engCommit_within) (by decide) ?_
    | (apply Within.step engCommit_within; decide)
    | (apply Within.step State.putB_within; decide)
    | refine Within.foldl (fun s a => ?_) ?_
    | refine Within.foldl_snd (fun b a => ?_) ?_
    | refine Within.foldl_fst (fun b a => ?_) ?_
    | refine Within.foldl_pair (fun b a => ?_) ?_ (by assumption)
    | split
    | assumption
    | dsimp only

theorem emitRows_within {x0 x1 s} : Within 220362920 s (emitRows x0 x1 s) := by
  dsimp only [emitRows]
  with_reducible repeat' first
    | apply Within.refl
    | apply Within.ite
    | (apply Within.step emitRow_within; decide)
    | refine Within.foldl (fun s a => ?_) ?_
    | refine Within.foldl_snd (fun b a => ?_) ?_
    | refine Within.foldl_fst (fun b a => ?_) ?_
    | refine Within.foldl_pair (fun b a => ?_) ?_ (by assumption)
    | split
    | assumption
    | dsimp only

theorem endBlock_within {x0 s} : Within 220362920 s (endBlock x0 s) := by
  dsimp only [endBlock]
  with_reducible repeat' first
    | apply Within.refl
    | (apply Within.step emitRows_within; decide)
    | (apply Within.step setCtx_within; decide)
    | dsimp only

theorem imgOther_within {x0 x1 s} : Within 8 s (imgOther x0 x1 s) := by
  dsimp only [imgOther]
  with_reducible repeat' first
    | apply Within.refl
    | apply Within.ite
    | (apply Within.step State.sat_within; decide)
    | (apply Within.step State.putB_within; decide)
    | split
    | dsimp only

theorem stageRow_within {x0 x1 x2 s x4} : Within 220362920 s (stageRow x0 x1 x2 s x4) := by
  dsimp only [stageRow]
  with_reducible repeat' first
    | apply Within.refl
    | apply Within.ite
    | (apply Within.step emitRow_within; decide)
    | (apply Within.step setCtx_within; decide)
    | (apply Within.step putEngine_within; decide)
    | refine Within.foldl (fun s a => ?_) ?_
    | refine Within.foldl_snd (fun b a => ?_) ?_
    | refine Within.foldl_fst (fun b a => ?_) ?_
    | refine Within.foldl_pair (fun b a => ?_) ?_ (by assumption)
    | split
    | assumption
    | dsimp only

theorem imageFrame_within {x0 x1 x2 s} : Within 220362920 s (imageFrame x0 x1 x2 s) := by
  dsimp only [imageFrame]
  with_reducible repeat' first
    | apply Within.refl
    | apply Within.ite
    | (apply Within.step stageRow_within; decide)
    | (apply Within.step imgOther_within; decide)
    | (apply Within.step endBlock_within; decide)
    | (apply Within.step emitRows_within; decide)
    | (apply Within.step setCtx_within; decide)
    | (apply Within.step State.putB_within; decide)
    | refine Within.foldl (fun s a => ?_) ?_
    | refine Within.foldl_snd (fun b a => ?_) ?_
    | refine Within.foldl_fst (fun b a => ?_) ?_
    | refine Within.foldl_pair (fun b a => ?_) ?_ (by assumption)
    | split
    | assumption
    | unfold imageFrame.imageLeader
    | dsimp only

theorem execImageBlockTimeout_within {x0 s} : WithinR 220362920 s (execImageBlockTimeout x0 s) := by
  dsimp only [execImageBlockTimeout]
  with_reducible repeat' first
    | apply WithinR.next
    | apply Within.refl
    | apply WithinR.outside
    | apply WithinR.oc
    | apply WithinR.ite
    | apply Within.ite
    | refine engAccess_within (by decide) (fun s => ?_) ?_
    | (apply Within.step endBlock_within; decide)
    | split
    | dsimp only

theorem setEdgeIn_within {s x1 x2} : Within 1024 s (setEdgeIn s x1 x2) := by
  dsimp only [setEdgeIn]
  with_reducible repeat' first
    | apply Within.refl
    | fail_if_no_progress refine Within.lit rfl ?_ (h10 := .inr (by decide))
    | dsimp only

theorem setPick_within {s x1 x2} : Within 1024 s (setPick s x1 x2) := by
  dsimp only [setPick]
  with_reducible repeat' first
    | apply Within.refl
    | fail_if_no_progress refine Within.lit rfl ?_ (h10 := .inr (by decide))
    | dsimp only

theorem setEvent_within {s x1 x2} : Within 1024 s (setEvent s x1 x2) := by
  dsimp only [setEvent]
  with_reducible repeat' first
    | apply Within.refl
    | fail_if_no_progress refine Within.lit rfl ?_ (h10 := .inr (by decide))
    | dsimp only

theorem noteChange_within {x0 x1 x2 s} : Within 1032 s (noteChange x0 x1 x2 s) := by
  dsimp only [noteChange]
  with_reducible repeat' first
    | apply Within.refl
    | apply Within.ite
    | (apply Within.step setPick_within; decide)
    | (apply Within.step State.sat_within; decide)
    | split
    | dsimp only

theorem trigSync_within {x0 s} : Within 2 s (trigSync x0 s) := by
  dsimp only [trigSync]
  with_reducible repeat' first
    | apply Within.refl
    | apply Within.ite
    | fail_if_no_progress refine Within.lit rfl ?_ (h1 := .inr (by decide))
    | split
    | dsimp only

theorem evSkips_within {x0 x1 s} : Within 1032 s (evSkips x0 x1 s) := by
  dsimp only [evSkips]
  with_reducible repeat' first
    | apply Within.refl
    | apply Within.ite
    | (apply Within.step setEvent_within; decide)
    | (apply Within.step State.putB_within; decide)
    | (apply Within.step State.wr_within; decide)
    | split
    | dsimp only

theorem evFire_within {x0 x1 x2 s} : Within 134222890 s (evFire x0 x1 x2 s) := by
  dsimp only [evFire]
  with_reducible repeat' first
    | apply Within.refl
    | apply Within.ite
    | (apply Within.step evSkips_within; decide)
    | (apply Within.step trigSync_within; decide)
    | (apply Within.step setEvent_within; decide)
    | (apply Within.step gridsFlip_within; decide)
    | (apply Within.step State.inc_within; decide)
    | (apply Within.step State.putB_within; decide)
    | split
    | dsimp only

theorem evDisarm_within {x0 s} : Within 1032 s (evDisarm x0 s) := by
  dsimp only [evDisarm]
  with_reducible repeat' first
    | apply Within.refl
    | (apply Within.step setEvent_within; decide)
    | (apply Within.step State.putB_within; decide)
    | dsimp only

theorem evAfter_within {x0 s} : Within 1032 s (evAfter x0 s) := by
  dsimp only [evAfter]
  with_reducible repeat' first
    | apply Within.refl
    | apply Within.ite
    | (apply Within.step evDisarm_within; decide)
    | (apply Within.step setEvent_within; decide)
    | split
    | dsimp only

theorem actPast_within {x0 x1 s} : Within 134222890 s (actPast x0 x1 s) := by
  dsimp only [actPast]
  with_reducible repeat' first
    | apply Within.refl
    | apply Within.ite
    | (apply Within.step evDisarm_within; decide)
    | (apply Within.step evFire_within; decide)
    | (apply Within.step evSkips_within; decide)
    | (apply Within.step setEvent_within; decide)
    | split
    | dsimp only

theorem judgeTime_within {x0 x1 s} : Within 134222890 s (judgeTime x0 x1 s) := by
  dsimp only [judgeTime]
  with_reducible repeat' first
    | apply Within.refl
    | (apply Within.step actPast_within; decide)
    | dsimp only

theorem judgePick_within {x0 s} : Within 134222890 s (judgePick x0 s) := by
  dsimp only [judgePick]
  with_reducible repeat' first
    | apply Within.refl
    | apply Within.ite
    | (apply Within.step actPast_within; decide)
    | split
    | dsimp only

theorem evMet_within {x0 s} : Within 1024 s (evMet x0 s) := by
  dsimp only [evMet]
  with_reducible repeat' first
    | apply Within.refl
    | (apply Within.step setEvent_within; decide)
    | dsimp only

theorem evCount_within {x0 x1 s} : Within 1032 s (evCount x0 x1 s) := by
  dsimp only [evCount]
  with_reducible repeat' first
    | apply Within.refl
    | apply Within.ite
    | (apply Within.step evMet_within; decide)
    | (apply Within.step evSkips_within; decide)
    | (apply Within.step setEvent_within; decide)
    | split
    | dsimp only

theorem evsChanged_within {x0 x1 s} : Within 1032 s (evsChanged x0 x1 s) := by
  dsimp only [evsChanged]
  with_reducible repeat' first
    | apply Within.refl
    | apply Within.ite
    | (apply Within.step evCount_within; decide)
    | (apply Within.step evMet_within; decide)
    | refine Within.foldl (fun s a => ?_) ?_
    | refine Within.foldl_snd (fun b a => ?_) ?_
    | refine Within.foldl_fst (fun b a => ?_) ?_
    | refine Within.foldl_pair (fun b a => ?_) ?_ (by assumption)
    | split
    | assumption
    | dsimp only

theorem evsLoaded_within {x0 x1 s} : Within 134222890 s (evsLoaded x0 x1 s) := by
  dsimp only [evsLoaded]
  with_reducible repeat' first
    | apply Within.refl
    | apply Within.ite
    | (apply Within.step evMet_within; decide)
    | (apply Within.step judgePick_within; decide)
    | (apply Within.step setEvent_within; decide)
    | refine Within.foldl (fun s a => ?_) ?_
    | refine Within.foldl_snd (fun b a => ?_) ?_
    | refine Within.foldl_fst (fun b a => ?_) ?_
    | refine Within.foldl_pair (fun b a => ?_) ?_ (by assumption)
    | split
    | assumption
    | dsimp only

theorem pickStep_within {x0 x1 x2 s} : Within 1032 s (pickStep x0 x1 x2 s) := by
  dsimp only [pickStep]
  with_reducible repeat' first
    | apply Within.refl
    | apply Within.ite
    | (apply Within.step noteChange_within; decide)
    | (apply Within.step setPick_within; decide)
    | (apply Within.step setPkCount_within; decide)
    | (apply Within.step State.wrQ_within; decide)
    | (apply Within.step State.putB_within; decide)
    | (apply Within.step State.putF_within; decide)
    | split
    | dsimp only

theorem setArmed_within {x0 x1 s} : Within 8 s (setArmed x0 x1 s) := by
  dsimp only [setArmed]
  with_reducible repeat' first
    | apply Within.refl
    | (apply Within.step State.putB_within; decide)
    | dsimp only

theorem refRecord_within {x0 x1 s} : Within 8 s (refRecord x0 x1 s) := by
  dsimp only [refRecord]
  with_reducible repeat' first
    | apply Within.refl
    | (apply Within.step State.wrQ_within; decide)
    | dsimp only

theorem refLoad_within {x0 s} : Within 134222890 s (refLoad x0 s) := by
  dsimp only [refLoad]
  with_reducible repeat' first
    | apply Within.refl
    | (apply Within.step evsLoaded_within; decide)
    | (apply Within.step noteChange_within; decide)
    | (apply Within.step setPick_within; decide)
    | (apply Within.step gridRefLoad_within; decide)
    | (apply Within.step setPkCount_within; decide)
    | (apply Within.step State.putB_within; decide)
    | dsimp only

theorem takeLevels_within {x0 s} : Within 2 s (takeLevels x0 s) := by
  dsimp only [takeLevels]
  with_reducible repeat' first
    | apply Within.refl
    | apply Within.ite
    | refine Within.foldl (fun s a => ?_) ?_
    | refine Within.foldl_snd (fun b a => ?_) ?_
    | refine Within.foldl_fst (fun b a => ?_) ?_
    | refine Within.foldl_pair (fun b a => ?_) ?_ (by assumption)
    | fail_if_no_progress refine Within.lit rfl ?_ (h1 := .inr (by decide))
    | split
    | assumption
    | dsimp only

theorem edgeShow_within {x0 s} : Within 8 s (edgeShow x0 s) := by
  dsimp only [edgeShow]
  with_reducible repeat' first
    | apply Within.refl
    | (apply Within.step State.wrQ_within; decide)
    | (apply Within.step State.putF_within; decide)
    | dsimp only

theorem edgeStamp_within {x0 x1 s} : Within 1032 s (edgeStamp x0 x1 s) := by
  dsimp only [edgeStamp]
  with_reducible repeat' first
    | apply Within.refl
    | apply Within.ite
    | (apply Within.step edgeShow_within; decide)
    | (apply Within.step setEdgeIn_within; decide)
    | (apply Within.step State.satF_within; decide)
    | (apply Within.step State.putB_within; decide)
    | split
    | dsimp only

theorem edgeSeen_within {x0 s} : Within 1032 s (edgeSeen x0 s) := by
  dsimp only [edgeSeen]
  with_reducible repeat' first
    | apply Within.refl
    | apply Within.ite
    | (apply Within.step edgeStamp_within; decide)
    | (apply Within.step setEdgeIn_within; decide)
    | (apply Within.step State.putB_within; decide)
    | split
    | dsimp only

theorem pickSeen_within {x0 x1 s} : Within 67109896 s (pickSeen x0 x1 s).1 := by
  dsimp only [pickSeen]
  with_reducible repeat' first
    | apply Within.refl
    | apply Within.ite
    | (apply Within.step pickStep_within; decide)
    | (apply Within.step State.tickFree_within; decide)
    | (apply Within.step State.satF_within; decide)
    | (apply Within.step State.putB_within; decide)
    | split
    | dsimp only

theorem pickFollow_within {x0 x1 x2 s} : Within 134222890 s (pickFollow x0 x1 x2 s) := by
  dsimp only [pickFollow]
  with_reducible repeat' first
    | apply Within.refl
    | apply Within.ite
    | (apply Within.step refLoad_within; decide)
    | (apply Within.step refRecord_within; decide)
    | (apply Within.step setArmed_within; decide)
    | (apply Within.step evsChanged_within; decide)
    | (apply Within.step evCount_within; decide)
    | refine Within.foldl (fun s a => ?_) ?_
    | refine Within.foldl_snd (fun b a => ?_) ?_
    | refine Within.foldl_fst (fun b a => ?_) ?_
    | refine Within.foldl_pair (fun b a => ?_) ?_ (by assumption)
    | split
    | assumption
    | dsimp only

theorem execEdgeInputEdge_within {x0 s} : WithinR 201331754 s (execEdgeInputEdge x0 s) := by
  dsimp only [execEdgeInputEdge]
  with_reducible repeat' first
    | apply WithinR.next
    | apply Within.refl
    | apply WithinR.outside
    | apply WithinR.ite
    | apply Within.ite
    | (apply Within.step pickFollow_within; decide)
    | refine Within.step (Within.of_pair1 (by assumption) pickSeen_within) (by decide) ?_
    | (apply Within.step pickSeen_within; decide)
    | (apply Within.step edgeSeen_within; decide)
    | (apply Within.step takeLevels_within; decide)
    | refine WithinR.foldl (fun r a h => ?_) ?_
    | refine Within.foldl (fun s a => ?_) ?_
    | refine Within.foldl_snd (fun b a => ?_) ?_
    | refine Within.foldl_fst (fun b a => ?_) ?_
    | refine Within.foldl_pair (fun b a => ?_) ?_ (by assumption)
    | split
    | assumption
    | dsimp only

theorem execPosEdgePop_within {x0 s} : WithinR 1032 s (execPosEdgePop x0 s) := by
  dsimp only [execPosEdgePop]
  with_reducible repeat' first
    | apply WithinR.next
    | apply Within.refl
    | refine WithinR.hostWrite (fun s => Within.step holdDiscard_within (by decide) (Within.refl _ _)) (fun s => ?_)
    | (apply Within.step edgeShow_within; decide)
    | (apply Within.step setEdgeIn_within; decide)
    | dsimp only

theorem execPickStillTimeout_within {x0 s} : WithinR 1032 s (execPickStillTimeout x0 s) := by
  dsimp only [execPickStillTimeout]
  with_reducible repeat' first
    | apply WithinR.next
    | apply Within.refl
    | apply WithinR.outside
    | apply WithinR.ite
    | refine WithinR.onlyIf (fun s => ?_) ?_
    | apply Within.ite
    | (apply Within.step noteChange_within; decide)
    | (apply Within.step State.putF_within; decide)
    | split
    | dsimp only

theorem pkCfgPut_within {x0 x1 s} : Within 1032 s (pkCfgPut x0 x1 s) := by
  dsimp only [pkCfgPut]
  with_reducible repeat' first
    | apply Within.refl
    | apply Within.ite
    | (apply Within.step noteChange_within; decide)
    | (apply Within.step setPick_within; decide)
    | (apply Within.step setPkCount_within; decide)
    | (apply Within.step State.putB_within; decide)
    | (apply Within.step State.putF_within; decide)
    | (apply Within.step State.wr_within; decide)
    | split
    | dsimp only

theorem execPosPkCfgWrite_within {x0 x1 s} : WithinR 1032 s (execPosPkCfgWrite x0 x1 s) := by
  dsimp only [execPosPkCfgWrite]
  with_reducible repeat' first
    | apply WithinR.next
    | apply Within.refl
    | apply WithinR.outside
    | apply WithinR.oc
    | apply WithinR.ite
    | refine WithinR.hostWrite (fun s => Within.step holdDiscard_within (by decide) (Within.refl _ _)) (fun s => ?_)
    | apply Within.ite
    | (apply Within.step pkCfgPut_within; decide)
    | split
    | dsimp only

theorem execLoadNow_within {x0 s} : WithinR 134222890 s (execLoadNow x0 s) := by
  dsimp only [execLoadNow]
  with_reducible repeat' first
    | apply WithinR.next
    | apply Within.refl
    | apply WithinR.outside
    | apply WithinR.ite
    | refine WithinR.hostWrite (fun s => Within.step holdDiscard_within (by decide) (Within.refl _ _)) (fun s => ?_)
    | apply Within.ite
    | (apply Within.step refLoad_within; decide)
    | (apply Within.step refRecord_within; decide)
    | split
    | dsimp only

theorem execRefArm_within {x0 s} : WithinR 8 s (execRefArm x0 s) := by
  dsimp only [execRefArm]
  with_reducible repeat' first
    | apply WithinR.next
    | apply Within.refl
    | apply WithinR.outside
    | apply WithinR.ite
    | refine WithinR.hostWrite (fun s => Within.step holdDiscard_within (by decide) (Within.refl _ _)) (fun s => ?_)
    | apply Within.ite
    | (apply Within.step setArmed_within; decide)
    | split
    | dsimp only

theorem execRefDisarm_within {x0 s} : WithinR 8 s (execRefDisarm x0 s) := by
  dsimp only [execRefDisarm]
  with_reducible repeat' first
    | apply WithinR.next
    | apply Within.refl
    | apply WithinR.outside
    | apply WithinR.ite
    | refine WithinR.hostWrite (fun s => Within.step holdDiscard_within (by decide) (Within.refl _ _)) (fun s => ?_)
    | apply Within.ite
    | (apply Within.step setArmed_within; decide)
    | split
    | dsimp only

theorem evArm_within {x0 s} : Within 134222890 s (evArm x0 s) := by
  dsimp only [evArm]
  with_reducible repeat' first
    | apply Within.refl
    | apply Within.ite
    | (apply Within.step judgePick_within; decide)
    | (apply Within.step judgeTime_within; decide)
    | (apply Within.step setEvent_within; decide)
    | (apply Within.step State.putB_within; decide)
    | (apply Within.step State.wr_within; decide)
    | split
    | dsimp only

theorem execPosEvArm_within {x0 s} : WithinR 134222890 s (execPosEvArm x0 s) := by
  dsimp only [execPosEvArm]
  with_reducible repeat' first
    | apply WithinR.next
    | apply Within.refl
    | refine WithinR.hostWrite (fun s => Within.step holdDiscard_within (by decide) (Within.refl _ _)) (fun s => ?_)
    | (apply Within.step evArm_within; decide)
    | dsimp only

theorem evGo_within {x0 s} : Within 134222890 s (evGo x0 s) := by
  dsimp only [evGo]
  with_reducible repeat' first
    | apply Within.refl
    | apply Within.ite
    | (apply Within.step evAfter_within; decide)
    | (apply Within.step evFire_within; decide)
    | (apply Within.step setEvent_within; decide)
    | split
    | dsimp only

theorem execEventFire_within {x0 s} : WithinR 134222890 s (execEventFire x0 s) := by
  dsimp only [execEventFire]
  with_reducible repeat' first
    | apply WithinR.next
    | apply Within.refl
    | refine WithinR.onlyIf (fun s => ?_) ?_
    | (apply Within.step evGo_within; decide)
    | dsimp only

theorem execPosEvDisarm_within {x0 s} : WithinR 134222890 s (execPosEvDisarm x0 s) := by
  dsimp only [execPosEvDisarm]
  with_reducible repeat' first
    | apply WithinR.next
    | apply Within.refl
    | apply WithinR.outside
    | apply WithinR.ite
    | refine WithinR.hostWrite (fun s => Within.step holdDiscard_within (by decide) (Within.refl _ _)) (fun s => ?_)
    | apply Within.ite
    | (apply Within.step evGo_within; decide)
    | (apply Within.step evDisarm_within; decide)
    | split
    | dsimp only

theorem execTrigPulseEnd_within {x0 s} : WithinR 1026 s (execTrigPulseEnd x0 s) := by
  dsimp only [execTrigPulseEnd]
  with_reducible repeat' first
    | apply WithinR.next
    | apply Within.refl
    | refine WithinR.onlyIf (fun s => ?_) ?_
    | (apply Within.step trigSync_within; decide)
    | (apply Within.step setEvent_within; decide)
    | dsimp only

theorem execPositionDoorbell_within {x0 s} : WithinR 220359848 s (execPositionDoorbell x0 s) := by
  dsimp only [execPositionDoorbell]
  with_reducible repeat' first
    | apply WithinR.next
    | apply Within.refl
    | apply WithinR.outside
    | apply WithinR.ite
    | refine WithinR.onlyIfR (fun s => ?_) ?_
    | apply Within.ite
    | refine engAccess_within (by decide) (fun s => ?_) ?_
    | (apply Within.step setEvent_within; decide)
    | refine Within.step (Within.of_pair (by assumption) engCommit_within) (by decide) ?_
    | (apply Within.step engCommit_within; decide)
    | (apply Within.step State.putB_within; decide)
    | split
    | dsimp only

theorem judgeTimes_within {s} : Within 134222890 s (judgeTimes s) := by
  dsimp only [judgeTimes]
  with_reducible repeat' first
    | apply Within.refl
    | apply Within.ite
    | (apply Within.step judgeTime_within; decide)
    | refine Within.foldl (fun s a => ?_) ?_
    | refine Within.foldl_snd (fun b a => ?_) ?_
    | refine Within.foldl_fst (fun b a => ?_) ?_
    | refine Within.foldl_pair (fun b a => ?_) ?_ (by assumption)
    | split
    | assumption
    | dsimp only

theorem timeMoved_within {s} : Within 2196488 s (timeMoved s) := by
  dsimp only [timeMoved]
  with_reducible repeat' first
    | apply Within.refl
    | (apply Within.step traceTime_within; decide)
    | (apply Within.step loadWindowEnd_within; decide)
    | fail_if_no_progress refine Within.lit rfl ?_ (h16 := .inr (by decide))
    | dsimp only

theorem execTimeSetDone_within {s} : WithinR 136418346 s (execTimeSetDone s) := by
  dsimp only [execTimeSetDone]
  with_reducible repeat' first
    | apply WithinR.next
    | apply Within.refl
    | apply WithinR.outside
    | apply WithinR.ite
    | refine WithinR.onlyIf (fun s => ?_) ?_
    | apply Within.ite
    | (apply Within.step timeMoved_within; decide)
    | (apply Within.step judgeTimes_within; decide)
    | (apply Within.step timeSync_within; decide)
    | (apply Within.step State.putB_within; decide)
    | fail_if_no_progress refine Within.lit rfl ?_ (h10 := .inr (by decide))
    | split
    | dsimp only

theorem execTimeStepDone_within {s} : WithinR 136418346 s (execTimeStepDone s) := by
  dsimp only [execTimeStepDone]
  with_reducible repeat' first
    | apply WithinR.next
    | apply Within.refl
    | apply WithinR.outside
    | apply WithinR.ite
    | refine WithinR.onlyIf (fun s => ?_) ?_
    | apply Within.ite
    | (apply Within.step timeMoved_within; decide)
    | (apply Within.step judgeTimes_within; decide)
    | (apply Within.step State.putB_within; decide)
    | fail_if_no_progress refine Within.lit rfl ?_ (h10 := .inr (by decide))
    | split
    | dsimp only

theorem setEthPort_within {s x1 x2} : Within 4096 s (setEthPort s x1 x2) := by
  dsimp only [setEthPort]
  with_reducible repeat' first
    | apply Within.refl
    | fail_if_no_progress refine Within.lit rfl ?_ (h12 := .inr (by decide))
    | dsimp only

theorem setPortLink_within {x0 x1 s} : Within 8 s (setPortLink x0 x1 s) := by
  dsimp only [setPortLink]
  with_reducible repeat' first
    | apply Within.refl
    | apply Within.ite
    | (apply Within.step State.satF_within; decide)
    | (apply Within.step State.putB_within; decide)
    | split
    | dsimp only

theorem portStart_within {x0 s} : Within 8 s (portStart x0 s) := by
  dsimp only [portStart]
  with_reducible repeat' first
    | apply Within.refl
    | apply Within.ite
    | (apply Within.step setPortLink_within; decide)
    | (apply Within.step State.putB_within; decide)
    | (apply Within.step State.putF_within; decide)
    | split
    | dsimp only

theorem execEthPortEnable_within {x0 s} : WithinR 8 s (execEthPortEnable x0 s) := by
  dsimp only [execEthPortEnable]
  with_reducible repeat' first
    | apply WithinR.next
    | apply Within.refl
    | apply WithinR.outside
    | apply WithinR.ite
    | refine WithinR.hostWrite (fun s => Within.step holdDiscard_within (by decide) (Within.refl _ _)) (fun s => ?_)
    | apply Within.ite
    | (apply Within.step portStart_within; decide)
    | (apply Within.step State.putB_within; decide)
    | split
    | dsimp only

theorem execEthPortDisable_within {x0 s} : WithinR 4104 s (execEthPortDisable x0 s) := by
  dsimp only [execEthPortDisable]
  with_reducible repeat' first
    | apply WithinR.next
    | apply Within.refl
    | apply WithinR.outside
    | apply WithinR.ite
    | refine WithinR.hostWrite (fun s => Within.step holdDiscard_within (by decide) (Within.refl _ _)) (fun s => ?_)
    | apply Within.ite
    | (apply Within.step setEthPort_within; decide)
    | (apply Within.step State.putB_within; decide)
    | (apply Within.step State.putF_within; decide)
    | split
    | dsimp only

theorem execEthPortDrainComplete_within {x0 s} : WithinR 8 s (execEthPortDrainComplete x0 s) := by
  dsimp only [execEthPortDrainComplete]
  with_reducible repeat' first
    | apply WithinR.next
    | apply Within.refl
    | apply WithinR.outside
    | apply WithinR.ite
    | refine WithinR.onlyIf (fun s => ?_) ?_
    | apply Within.ite
    | (apply Within.step portStart_within; decide)
    | (apply Within.step setPortLink_within; decide)
    | (apply Within.step State.putB_within; decide)
    | (apply Within.step State.putF_within; decide)
    | split
    | dsimp only

theorem execEthLinkChange_within {x0 x1 s} : WithinR 8 s (execEthLinkChange x0 x1 s) := by
  dsimp only [execEthLinkChange]
  with_reducible repeat' first
    | apply WithinR.next
    | apply Within.refl
    | apply WithinR.ite
    | refine WithinR.onlyIf (fun s => ?_) ?_
    | apply Within.ite
    | (apply Within.step setPortLink_within; decide)
    | dsimp only

theorem commitPoint_within {x0 x1 x2 s} : Within 4104 s (commitPoint x0 x1 x2 s) := by
  dsimp only [commitPoint]
  with_reducible repeat' first
    | apply Within.refl
    | apply Within.ite
    | (apply Within.step State.sat_within; decide)
    | (apply Within.step State.putB_within; decide)
    | fail_if_no_progress refine Within.lit rfl ?_ (h12 := .inr (by decide))
    | split
    | dsimp only

theorem commitRaw_within {x0 x1 s} : Within 220358824 s (commitRaw x0 x1 s) := by
  dsimp only [commitRaw]
  with_reducible repeat' first
    | apply Within.refl
    | apply Within.ite
    | refine Within.step (Within.of_pair (by assumption) engCommit_within) (by decide) ?_
    | (apply Within.step engCommit_within; decide)
    | (apply Within.step State.putB_within; decide)
    | split
    | dsimp only

theorem deliver_within {x0 x1 s} : WithinR 220362920 s (deliver x0 x1 s) := by
  dsimp only [deliver]
  with_reducible repeat' first
    | apply WithinR.next
    | apply Within.refl
    | apply WithinR.outside
    | apply WithinR.oc
    | apply WithinR.ite
    | apply Within.ite
    | (apply Within.step commitRaw_within; decide)
    | (apply Within.step commitPoint_within; decide)
    | (apply Within.step imageFrame_within; decide)
    | (apply Within.step setCtx_within; decide)
    | (apply Within.step State.sat_within; decide)
    | (apply Within.step State.putB_within; decide)
    | split
    | dsimp only

theorem deliverAll_within {r l s} : WithinR 220362920 s (deliverAll r l s) := by
  induction l generalizing s with
  | nil => exact WithinR.next (Within.refl _ _)
  | cons d l ih => exact WithinR.andThen (fun s => ih) (WithinR.step deliver_within (by decide) (Within.refl _ _))

theorem nextFrame_within {s} : Within 4096 s (nextFrame s) := by
  dsimp only [nextFrame]
  with_reducible repeat' first
    | apply Within.refl
    | fail_if_no_progress refine Within.lit rfl ?_ (h12 := .inr (by decide))
    | dsimp only

theorem rxGood_within {x0 x1 s} : Within 8 s (rxGood x0 x1 s) := by
  dsimp only [rxGood]
  with_reducible repeat' first
    | apply Within.refl
    | (apply Within.step State.sat_within; decide)
    | (apply Within.step State.wrQ_within; decide)
    | dsimp only

theorem ptpSteer_within {x0 x1 x2 s} : Within 220358824 s (ptpSteer x0 x1 x2 s) := by
  dsimp only [ptpSteer]
  with_reducible repeat' first
    | apply Within.refl
    | apply Within.ite
    | refine Within.step (Within.of_pair (by assumption) engCommit_within) (by decide) ?_
    | (apply Within.step engCommit_within; decide)
    | split
    | dsimp only

theorem execEthFrameReceive_within {x0 x1 x2 x3 x4 s} : WithinR 220362920 s (execEthFrameReceive x0 x1 x2 x3 x4 s) := by
  dsimp only [execEthFrameReceive]
  with_reducible repeat' first
    | apply WithinR.next
    | apply Within.refl
    | apply WithinR.outside
    | apply WithinR.ite
    | apply Within.ite
    | refine engAccess_within (by decide) (fun s => ?_) ?_
    | (apply Within.step ptpSteer_within; decide)
    | (apply Within.step rxGood_within; decide)
    | (apply Within.step nextFrame_within; decide)
    | (apply WithinR.step deliverAll_within; decide)
    | (refine Within.step (WithinR.get deliverAll_within (by assumption)) (by decide) ?_)
    | (apply Within.step State.sat_within; decide)
    | split
    | dsimp only

theorem setTxStamps_within {x0 x1 s} : Within 16781320 s (setTxStamps x0 x1 s) := by
  dsimp only [setTxStamps]
  with_reducible repeat' first
    | apply Within.refl
    | apply Within.ite
    | (apply Within.step setEthPort_within; decide)
    | (apply Within.step State.raise_within; decide)
    | (apply Within.step State.wrN_within; decide)
    | (apply Within.step State.wrQ_within; decide)
    | (apply Within.step State.putF_within; decide)
    | split
    | dsimp only

theorem txStamp_within {x0 x1 x2 s} : Within 16781320 s (txStamp x0 x1 x2 s) := by
  dsimp only [txStamp]
  with_reducible repeat' first
    | apply Within.refl
    | apply Within.ite
    | (apply Within.step setTxStamps_within; decide)
    | (apply Within.step State.sat_within; decide)
    | (apply Within.step State.putB_within; decide)
    | split
    | dsimp only

theorem execEthFrameTransmit_within {x0 x1 s} : WithinR 16928776 s (execEthFrameTransmit x0 x1 s) := by
  dsimp only [execEthFrameTransmit]
  with_reducible repeat' first
    | apply WithinR.next
    | apply Within.refl
    | apply WithinR.outside
    | apply WithinR.ite
    | apply Within.ite
    | refine engAccess_within (by decide) (fun s => ?_) ?_
    | (apply Within.step txStamp_within; decide)
    | (apply Within.step qTake_within; decide)
    | (apply Within.step State.emit_within; decide)
    | (apply Within.step State.sat_within; decide)
    | split
    | dsimp only

theorem execEthTxtsPop_within {x0 s} : WithinR 16781320 s (execEthTxtsPop x0 s) := by
  dsimp only [execEthTxtsPop]
  with_reducible repeat' first
    | apply WithinR.next
    | apply Within.refl
    | refine WithinR.hostWrite (fun s => Within.step holdDiscard_within (by decide) (Within.refl _ _)) (fun s => ?_)
    | (apply Within.step setTxStamps_within; decide)
    | dsimp only

end Sys2Proof.Machine
end

