-- ==== Sys2Proof/Laws/FrameHost.lean ====
section
/-! SUPPORT. Within which fields of the state each operation stays: trace control, freeze, TAP, messages, embedding tables, resets and the host. A theorem `f_within` names the fields by its mask. -/

set_option linter.unreachableTactic false
set_option linter.unusedTactic false

namespace Sys2Proof.Machine

set_option Elab.async false

theorem traceClear_within {s} : Within 8 s (traceClear s) := by
  dsimp only [traceClear]
  with_reducible repeat' first
    | apply Within.refl
    | apply Within.ite
    | (apply Within.step traceFull_within; decide)
    | (apply Within.step State.wr_within; decide)
    | split
    | dsimp only

theorem traceCtrlWrite_within {x0 s} : WithinR 2097160 s (traceCtrlWrite x0 s) := by
  dsimp only [traceCtrlWrite]
  with_reducible repeat' first
    | apply WithinR.next
    | apply Within.refl
    | apply WithinR.outside
    | apply WithinR.oc
    | apply WithinR.ite
    | apply Within.ite
    | (apply Within.step traceClear_within; decide)
    | (apply Within.step traceFull_within; decide)
    | (apply Within.step State.putB_within; decide)
    | fail_if_no_progress refine Within.lit rfl ?_ (h21 := .inr (by decide))
    | split
    | dsimp only

theorem execTraceEnable_within {x0 s} : WithinR 2097160 s (execTraceEnable x0 s) := by
  dsimp only [execTraceEnable]
  with_reducible repeat' first
    | apply WithinR.next
    | apply Within.refl
    | refine WithinR.hostWrite (fun s => Within.step holdDiscard_within (by decide) (Within.refl _ _)) (fun s => ?_)
    | (apply WithinR.step traceCtrlWrite_within; decide)
    | (refine Within.step (WithinR.get traceCtrlWrite_within (by assumption)) (by decide) ?_)
    | dsimp only

theorem execTraceClear_within {s} : WithinR 8 s (execTraceClear s) := by
  dsimp only [execTraceClear]
  with_reducible repeat' first
    | apply WithinR.next
    | apply Within.refl
    | refine WithinR.hostWrite (fun s => Within.step holdDiscard_within (by decide) (Within.refl _ _)) (fun s => ?_)
    | (apply Within.step traceClear_within; decide)
    | dsimp only

theorem markWrite_within {x0 s} : WithinR 2097160 s (markWrite x0 s) := by
  dsimp only [markWrite]
  with_reducible repeat' first
    | apply WithinR.next
    | apply Within.refl
    | apply WithinR.outside
    | apply WithinR.oc
    | apply WithinR.ite
    | apply Within.ite
    | (apply Within.step traceSys_within; decide)
    | (apply Within.step State.wr_within; decide)
    | split
    | dsimp only

theorem execHostMark_within {x0 s} : WithinR 2097160 s (execHostMark x0 s) := by
  dsimp only [execHostMark]
  with_reducible repeat' first
    | apply WithinR.next
    | apply Within.refl
    | refine WithinR.hostWrite (fun s => Within.step holdDiscard_within (by decide) (Within.refl _ _)) (fun s => ?_)
    | (apply WithinR.step markWrite_within; decide)
    | (refine Within.step (WithinR.get markWrite_within (by assumption)) (by decide) ?_)
    | dsimp only

theorem execTraceSyncPeriod_within {x0 s} : WithinR 2097160 s (execTraceSyncPeriod x0 s) := by
  dsimp only [execTraceSyncPeriod]
  with_reducible repeat' first
    | apply WithinR.next
    | apply Within.refl
    | refine WithinR.onlyIf (fun s => ?_) ?_
    | (apply Within.step traceSync_within; decide)
    | dsimp only

theorem execPmcClear_within {s} : WithinR 8 s (execPmcClear s) := by
  dsimp only [execPmcClear]
  with_reducible repeat' first
    | apply WithinR.next
    | apply Within.refl
    | refine WithinR.hostWrite (fun s => Within.step holdDiscard_within (by decide) (Within.refl _ _)) (fun s => ?_)
    | (apply Within.step State.wrQ_within; decide)
    | refine WithinR.foldl (fun r a h => ?_) ?_
    | refine Within.foldl (fun s a => ?_) ?_
    | refine Within.foldl_snd (fun b a => ?_) ?_
    | refine Within.foldl_fst (fun b a => ?_) ?_
    | refine Within.foldl_pair (fun b a => ?_) ?_ (by assumption)
    | assumption
    | dsimp only

theorem execPmcSnap_within {s} : WithinR 8 s (execPmcSnap s) := by
  dsimp only [execPmcSnap]
  with_reducible repeat' first
    | apply WithinR.next
    | apply Within.refl
    | refine WithinR.hostWrite (fun s => Within.step holdDiscard_within (by decide) (Within.refl _ _)) (fun s => ?_)
    | (apply Within.step State.wrQ_within; decide)
    | refine WithinR.foldl (fun r a h => ?_) ?_
    | refine Within.foldl (fun s a => ?_) ?_
    | refine Within.foldl_snd (fun b a => ?_) ?_
    | refine Within.foldl_fst (fun b a => ?_) ?_
    | refine Within.foldl_pair (fun b a => ?_) ?_ (by assumption)
    | assumption
    | dsimp only

theorem freezeAsk_within {x0 s} : Within 4194304 s (freezeAsk x0 s) := by
  dsimp only [freezeAsk]
  with_reducible repeat' first
    | apply Within.refl
    | apply Within.ite
    | fail_if_no_progress refine Within.lit rfl ?_ (h22 := .inr (by decide))
    | dsimp only

theorem execTraceFreeze_within {x0 s} : WithinR 4194312 s (execTraceFreeze x0 s) := by
  dsimp only [execTraceFreeze]
  with_reducible repeat' first
    | apply WithinR.next
    | apply Within.refl
    | apply WithinR.outside
    | apply WithinR.oc
    | apply WithinR.ite
    | refine WithinR.onlyIf (fun s => ?_) ?_
    | refine WithinR.hostWrite (fun s => Within.step holdDiscard_within (by decide) (Within.refl _ _)) (fun s => ?_)
    | apply Within.ite
    | (apply Within.step freezeAsk_within; decide)
    | split
    | dsimp only

theorem execFreezeN_within {s} : WithinR 4194304 s (execFreezeN s) := by
  dsimp only [execFreezeN]
  with_reducible repeat' first
    | apply WithinR.next
    | apply Within.refl
    | refine WithinR.onlyIf (fun s => ?_) ?_
    | (apply Within.step freezeAsk_within; decide)
    | dsimp only

theorem selfRefresh_within {x0 s} : Within 8 s (selfRefresh x0 s) := by
  dsimp only [selfRefresh]
  with_reducible repeat' first
    | apply Within.refl
    | apply Within.ite
    | (apply Within.step State.putB_within; decide)
    | refine Within.foldl (fun s a => ?_) ?_
    | refine Within.foldl_snd (fun b a => ?_) ?_
    | refine Within.foldl_fst (fun b a => ?_) ?_
    | refine Within.foldl_pair (fun b a => ?_) ?_ (by assumption)
    | split
    | assumption
    | dsimp only

theorem freezeTake_within {s} : Within 73924618 s (freezeTake s) := by
  dsimp only [freezeTake]
  with_reducible repeat' first
    | apply Within.refl
    | apply Within.ite
    | (apply Within.step selfRefresh_within; decide)
    | (apply Within.step traceEmpty_within; decide)
    | (apply Within.step traceSys_within; decide)
    | (apply Within.step State.setStage_within; decide)
    | fail_if_no_progress refine Within.lit rfl ?_ (h1 := .inr (by decide)) (h19 := .inr (by decide)) (h22 := .inr (by decide)) (h26 := .inr (by decide))
    | split
    | dsimp only

theorem execFreeze_within {s} : WithinR 73924618 s (execFreeze s) := by
  dsimp only [execFreeze]
  with_reducible repeat' first
    | apply WithinR.next
    | apply Within.refl
    | refine WithinR.onlyIf (fun s => ?_) ?_
    | (apply Within.step freezeTake_within; decide)
    | dsimp only

theorem tapIr_within {x0 s} : Within 8388608 s (tapIr x0 s) := by
  dsimp only [tapIr]
  with_reducible repeat' first
    | apply Within.refl
    | fail_if_no_progress refine Within.lit rfl ?_ (h23 := .inr (by decide))
    | dsimp only

theorem tapOut_within {x0 s} : Within 16777216 s (tapOut x0 s) := by
  dsimp only [tapOut]
  with_reducible repeat' first
    | apply Within.refl
    | (apply Within.step State.emit_within; decide)
    | dsimp only

theorem boundaryShift_within {x0 s} : Within 92274688 s (boundaryShift x0 s) := by
  dsimp only [boundaryShift]
  with_reducible repeat' first
    | apply Within.refl
    | (apply Within.step tapOut_within; decide)
    | fail_if_no_progress refine Within.lit rfl ?_ (h23 := .inr (by decide)) (h26 := .inr (by decide))
    | dsimp only

theorem tapDrives_within {M f s} (hf : ∀ s, Within M s (f s)) : WithinR M s (tapDrives f s) :=
  WithinR.ite WithinR.oc (WithinR.next (hf s))

theorem execTapReset_within {s} : WithinR 8388608 s (execTapReset s) := by
  dsimp only [execTapReset]
  with_reducible repeat' first
    | apply WithinR.next
    | apply Within.refl
    | fail_if_no_progress refine Within.lit rfl ?_ (h23 := .inr (by decide))
    | dsimp only

theorem execExtest_within {x0 s} : WithinR 92274688 s (execExtest x0 s) := by
  dsimp only [execExtest]
  with_reducible repeat' first
    | apply WithinR.next
    | apply Within.refl
    | refine tapDrives_within (fun s => ?_)
    | (apply Within.step boundaryShift_within; decide)
    | (apply Within.step tapIr_within; decide)
    | dsimp only

theorem execIdcode_within {s} : WithinR 25165824 s (execIdcode s) := by
  dsimp only [execIdcode]
  with_reducible repeat' first
    | apply WithinR.next
    | apply Within.refl
    | (apply Within.step tapOut_within; decide)
    | (apply Within.step tapIr_within; decide)
    | dsimp only

theorem execSamplePreload_within {x0 s} : WithinR 92274688 s (execSamplePreload x0 s) := by
  dsimp only [execSamplePreload]
  with_reducible repeat' first
    | apply WithinR.next
    | apply Within.refl
    | (apply Within.step boundaryShift_within; decide)
    | (apply Within.step tapIr_within; decide)
    | dsimp only

theorem execExtestPulse_within {s} : WithinR 8388608 s (execExtestPulse s) := by
  dsimp only [execExtestPulse]
  with_reducible repeat' first
    | apply WithinR.next
    | apply Within.refl
    | refine tapDrives_within (fun s => ?_)
    | (apply Within.step tapIr_within; decide)
    | dsimp only

theorem execExtestTrain_within {s} : WithinR 8388608 s (execExtestTrain s) := by
  dsimp only [execExtestTrain]
  with_reducible repeat' first
    | apply WithinR.next
    | apply Within.refl
    | refine tapDrives_within (fun s => ?_)
    | (apply Within.step tapIr_within; decide)
    | dsimp only

theorem execHighz_within {s} : WithinR 8388608 s (execHighz s) := by
  dsimp only [execHighz]
  with_reducible repeat' first
    | apply WithinR.next
    | apply Within.refl
    | refine tapDrives_within (fun s => ?_)
    | (apply Within.step tapIr_within; decide)
    | dsimp only

theorem execClamp_within {s} : WithinR 8388608 s (execClamp s) := by
  dsimp only [execClamp]
  with_reducible repeat' first
    | apply WithinR.next
    | apply Within.refl
    | refine tapDrives_within (fun s => ?_)
    | (apply Within.step tapIr_within; decide)
    | dsimp only

theorem execRoSelect_within {x0 s} : WithinR 8388608 s (execRoSelect x0 s) := by
  dsimp only [execRoSelect]
  with_reducible repeat' first
    | apply WithinR.next
    | apply Within.refl
    | (apply Within.step tapIr_within; decide)
    | fail_if_no_progress refine Within.lit rfl ?_ (h23 := .inr (by decide))
    | dsimp only

theorem execBypass_within {s} : WithinR 8388608 s (execBypass s) := by
  dsimp only [execBypass]
  with_reducible repeat' first
    | apply WithinR.next
    | apply Within.refl
    | (apply Within.step tapIr_within; decide)
    | dsimp only

theorem execReadout_within {s} : WithinR 25165824 s (execReadout s) := by
  dsimp only [execReadout]
  with_reducible repeat' first
    | apply WithinR.next
    | apply Within.refl
    | apply WithinR.outside
    | apply WithinR.ite
    | apply Within.ite
    | (apply Within.step tapOut_within; decide)
    | (apply Within.step tapIr_within; decide)
    | split
    | dsimp only

theorem setLink_within {s x1 x2} : Within 65536 s (setLink s x1 x2) := by
  dsimp only [setLink]
  with_reducible repeat' first
    | apply Within.refl
    | fail_if_no_progress refine Within.lit rfl ?_ (h16 := .inr (by decide))
    | dsimp only

theorem setPhase_within {x0 x1 s} : Within 65544 s (setPhase x0 x1 s) := by
  dsimp only [setPhase]
  with_reducible repeat' first
    | apply Within.refl
    | (apply Within.step setLink_within; decide)
    | (apply Within.step State.putF_within; decide)
    | dsimp only

theorem putTx_within {x0 x1 s} : Within 65536 s (putTx x0 x1 s) := by
  dsimp only [putTx]
  with_reducible repeat' first
    | apply Within.refl
    | apply Within.ite
    | (apply Within.step setLink_within; decide)
    | split
    | dsimp only

theorem emitFlit_within {x0 x1 x2 s} : Within 16777216 s (emitFlit x0 x1 x2 s) := by
  dsimp only [emitFlit]
  with_reducible repeat' first
    | apply Within.refl
    | (apply Within.step State.emit_within; decide)
    | dsimp only

theorem sendFlit_within {x0 x1 x2 s} : Within 16842760 s (sendFlit x0 x1 x2 s) := by
  dsimp only [sendFlit]
  with_reducible repeat' first
    | apply Within.refl
    | apply Within.ite
    | (apply Within.step emitFlit_within; decide)
    | (apply Within.step setLink_within; decide)
    | (apply Within.step State.emit_within; decide)
    | (apply Within.step State.sat_within; decide)
    | split
    | dsimp only

theorem idleFlit_within {s x1} : Within 16842752 s (idleFlit s x1) := by
  dsimp only [idleFlit]
  with_reducible repeat' first
    | apply Within.refl
    | apply Within.ite
    | (apply Within.step emitFlit_within; decide)
    | (apply Within.step setLink_within; decide)
    | split
    | dsimp only

theorem oweCredit_within {x0 x1 x2 s} : Within 65536 s (oweCredit x0 x1 x2 s) := by
  dsimp only [oweCredit]
  with_reducible repeat' first
    | apply Within.refl
    | (apply Within.step setLink_within; decide)
    | dsimp only

theorem bufferFlit_within {x0 x1 x2 x3 s} : Within 65536 s (bufferFlit x0 x1 x2 x3 s) := by
  dsimp only [bufferFlit]
  with_reducible repeat' first
    | apply Within.refl
    | apply Within.ite
    | (apply Within.step setLink_within; decide)
    | split
    | dsimp only

theorem msgTaken_within {x0 x1 s} : Within 65536 s (msgTaken x0 x1 s) := by
  dsimp only [msgTaken]
  with_reducible repeat' first
    | apply Within.refl
    | apply Within.ite
    | (apply Within.step oweCredit_within; decide)
    | (apply Within.step setLink_within; decide)
    | split
    | dsimp only

theorem msgTakenAny_within {x0 s} : Within 67174400 s (msgTakenAny x0 s) := by
  dsimp only [msgTakenAny]
  with_reducible repeat' first
    | apply Within.refl
    | apply Within.ite
    | (apply Within.step msgTaken_within; decide)
    | (apply Within.step State.tickFree_within; decide)
    | split
    | dsimp only

theorem chainLost_within {s} : Within 1032 s (chainLost s) := by
  dsimp only [chainLost]
  with_reducible repeat' first
    | apply Within.refl
    | apply Within.ite
    | (apply Within.step setPick_within; decide)
    | (apply Within.step unrefPick_within; decide)
    | refine Within.foldl (fun s a => ?_) ?_
    | refine Within.foldl_snd (fun b a => ?_) ?_
    | refine Within.foldl_fst (fun b a => ?_) ?_
    | refine Within.foldl_pair (fun b a => ?_) ?_ (by assumption)
    | split
    | assumption
    | dsimp only

theorem routeWritten_within {s} : Within 1032 s (routeWritten s) := by
  dsimp only [routeWritten]
  with_reducible repeat' first
    | apply Within.refl
    | apply Within.ite
    | (apply Within.step chainLost_within; decide)
    | split
    | dsimp only

theorem chainUnsync_within {s} : Within 66568 s (chainUnsync s) := by
  dsimp only [chainUnsync]
  with_reducible repeat' first
    | apply Within.refl
    | apply Within.ite
    | (apply Within.step chainLost_within; decide)
    | (apply Within.step timeSync_within; decide)
    | (apply Within.step State.putB_within; decide)
    | fail_if_no_progress refine Within.lit rfl ?_ (h16 := .inr (by decide))
    | split
    | dsimp only

theorem linkLeave_within {x0 x1 s} : Within 66568 s (linkLeave x0 x1 s) := by
  dsimp only [linkLeave]
  with_reducible repeat' first
    | apply Within.refl
    | apply Within.ite
    | (apply Within.step chainUnsync_within; decide)
    | (apply Within.step chainLost_within; decide)
    | (apply Within.step setLink_within; decide)
    | (apply Within.step State.putB_within; decide)
    | (apply Within.step State.putF_within; decide)
    | split
    | dsimp only

theorem linkFall_within {x0 s} : Within 66568 s (linkFall x0 s) := by
  dsimp only [linkFall]
  with_reducible repeat' first
    | apply Within.refl
    | apply Within.ite
    | (apply Within.step linkLeave_within; decide)
    | (apply Within.step State.satF_within; decide)
    | split
    | dsimp only

theorem linksTrain_within {s} : Within 65544 s (linksTrain s) := by
  dsimp only [linksTrain]
  with_reducible repeat' first
    | apply Within.refl
    | apply Within.ite
    | (apply Within.step setPhase_within; decide)
    | refine Within.foldl (fun s a => ?_) ?_
    | refine Within.foldl_snd (fun b a => ?_) ?_
    | refine Within.foldl_fst (fun b a => ?_) ?_
    | refine Within.foldl_pair (fun b a => ?_) ?_ (by assumption)
    | split
    | assumption
    | dsimp only

theorem replayAll_within {x0 s} : Within 16843784 s (replayAll x0 s) := by
  dsimp only [replayAll]
  with_reducible repeat' first
    | apply Within.refl
    | apply Within.ite
    | (apply Within.step linkFall_within; decide)
    | (apply Within.step emitFlit_within; decide)
    | (apply Within.step setLink_within; decide)
    | (apply Within.step State.sat_within; decide)
    | refine Within.foldl (fun s a => ?_) ?_
    | refine Within.foldl_snd (fun b a => ?_) ?_
    | refine Within.foldl_fst (fun b a => ?_) ?_
    | refine Within.foldl_pair (fun b a => ?_) ?_ (by assumption)
    | split
    | assumption
    | dsimp only

theorem endDue_within {x0 s} : Within 65536 s (endDue x0 s) := by
  dsimp only [endDue]
  with_reducible repeat' first
    | apply Within.refl
    | apply Within.ite
    | (apply Within.step setLink_within; decide)
    | split
    | dsimp only

theorem acked_within {x0 x1 s} : Within 65536 s (acked x0 x1 s) := by
  dsimp only [acked]
  with_reducible repeat' first
    | apply Within.refl
    | apply Within.ite
    | (apply Within.step endDue_within; decide)
    | (apply Within.step setLink_within; decide)
    | split
    | dsimp only

theorem sendTo_within {x0 x1 x2 x3 x4 s} : Within 65536 s (sendTo x0 x1 x2 x3 x4 s).2 := by
  dsimp only [sendTo]
  with_reducible repeat' first
    | apply Within.refl
    | apply Within.ite
    | (apply Within.step putTx_within; decide)
    | split
    | dsimp only

theorem forwardTo_within {x0 x1 x2 x3 s} : Within 65544 s (forwardTo x0 x1 x2 x3 s) := by
  dsimp only [forwardTo]
  with_reducible repeat' first
    | apply Within.refl
    | apply Within.ite
    | refine Within.step (Within.of_pair (by assumption) sendTo_within) (by decide) ?_
    | (apply Within.step sendTo_within; decide)
    | (apply Within.step State.sat_within; decide)
    | split
    | dsimp only

theorem dirRead_within {x0 x1 x2 x3 s} : Within 131080 s (dirRead x0 x1 x2 x3 s).2 := by
  dsimp only [dirRead]
  with_reducible repeat' first
    | apply Within.refl
    | apply Within.ite
    | refine Within.step (Within.of_pair (by assumption) busRead_within) (by decide) ?_
    | (apply Within.step busRead_within; decide)
    | split
    | dsimp only

theorem embSync_within {x0 x1 s} : Within 8 s (embSync x0 x1 s) := by
  dsimp only [embSync]
  with_reducible repeat' first
    | apply Within.refl
    | apply Within.ite
    | (apply Within.step State.wrN_within; decide)
    | (apply Within.step State.putF_within; decide)
    | split
    | dsimp only

theorem putJob_within {x0 s} : Within 32776 s (putJob x0 s) := by
  dsimp only [putJob]
  with_reducible repeat' first
    | apply Within.refl
    | apply Within.ite
    | (apply Within.step embSync_within; decide)
    | fail_if_no_progress refine Within.lit rfl ?_ (h15 := .inr (by decide))
    | split
    | dsimp only

theorem dropJob_within {x0 s} : Within 32776 s (dropJob x0 s) := by
  dsimp only [dropJob]
  with_reducible repeat' first
    | apply Within.refl
    | apply Within.ite
    | (apply Within.step embSync_within; decide)
    | (apply Within.step State.putB_within; decide)
    | fail_if_no_progress refine Within.lit rfl ?_ (h15 := .inr (by decide))
    | split
    | dsimp only

theorem sampleRow_within {x0 x1 x2 x3 s} : Within 220391592 s (sampleRow x0 x1 x2 x3 s) := by
  dsimp only [sampleRow]
  with_reducible repeat' first
    | apply Within.refl
    | apply Within.ite
    | refine Within.step (Within.of_pair (by assumption) engCommit_within) (by decide) ?_
    | (apply Within.step engCommit_within; decide)
    | (apply Within.step State.sat_within; decide)
    | (apply Within.step State.leave_within; decide)
    | fail_if_no_progress refine Within.lit rfl ?_ (h15 := .inr (by decide))
    | split
    | dsimp only

theorem countServed_within {x0 x1 x2 s} : Within 220391592 s (countServed x0 x1 x2 s) := by
  dsimp only [countServed]
  with_reducible repeat' first
    | apply Within.refl
    | apply Within.ite
    | (apply Within.step sampleRow_within; decide)
    | fail_if_no_progress refine Within.lit rfl ?_ (h15 := .inr (by decide))
    | split
    | dsimp only

theorem touchRow_within {x0 x1 x2 s} : Within 134365352 s (touchRow x0 x1 x2 s) := by
  dsimp only [touchRow]
  with_reducible repeat' first
    | apply Within.refl
    | apply Within.ite
    | (apply Within.step engWrite_within; decide)
    | refine Within.step (Within.of_pair (by assumption) busRead_within) (by decide) ?_
    | (apply Within.step busRead_within; decide)
    | split
    | dsimp only

theorem applyGrad_within {x0 x1 x2 x3 x4 x5 x6 s} : Within 134365352 s (applyGrad x0 x1 x2 x3 x4 x5 x6 s) := by
  dsimp only [applyGrad]
  with_reducible repeat' first
    | apply Within.refl
    | apply Within.ite
    | (apply Within.step engWrite_within; decide)
    | refine Within.step (Within.of_pair (by assumption) busRead_within) (by decide) ?_
    | (apply Within.step busRead_within; decide)
    | split
    | dsimp only

theorem serveRow_within {x0 x1 x2 s} : Within 220391592 s (serveRow x0 x1 x2 s).2.2 := by
  dsimp only [serveRow]
  with_reducible repeat' first
    | apply Within.refl
    | apply Within.ite
    | (apply Within.step applyGrad_within; decide)
    | (apply Within.step touchRow_within; decide)
    | (apply Within.step countServed_within; decide)
    | refine Within.step (Within.of_pair (by assumption) busRead_within) (by decide) ?_
    | (apply Within.step busRead_within; decide)
    | split
    | dsimp only

theorem sendSub_within {x0 x1 x2 x3 x4 s} : Within 98304 s (sendSub x0 x1 x2 x3 x4 s).2 := by
  dsimp only [sendSub]
  with_reducible repeat' first
    | apply Within.refl
    | apply Within.ite
    | refine Within.step (Within.of_pair (by assumption) sendTo_within) (by decide) ?_
    | (apply Within.step sendTo_within; decide)
    | fail_if_no_progress refine Within.lit rfl ?_ (h15 := .inr (by decide))
    | split
    | dsimp only

theorem takeNum_within {s} : Within 32768 s (takeNum s).2 := by
  dsimp only [takeNum]
  with_reducible repeat' first
    | apply Within.refl
    | fail_if_no_progress refine Within.lit rfl ?_ (h15 := .inr (by decide))
    | dsimp only

theorem forwardTerm_within {x0 x1 x2 x3 x4 x5 s} : Within 220457128 s (forwardTerm x0 x1 x2 x3 x4 x5 s).2.2 := by
  dsimp only [forwardTerm]
  with_reducible repeat' first
    | apply Within.refl
    | apply Within.ite
    | refine Within.step (Within.of_pair (by assumption) takeNum_within) (by decide) ?_
    | (apply Within.step takeNum_within; decide)
    | refine Within.step (Within.of_pair (by assumption) sendSub_within) (by decide) ?_
    | (apply Within.step sendSub_within; decide)
    | refine Within.step (Within.of_pair3 (by assumption) serveRow_within) (by decide) ?_
    | (apply Within.step serveRow_within; decide)
    | (apply Within.step State.sat_within; decide)
    | (apply Within.step State.putB_within; decide)
    | split
    | dsimp only

theorem finishServed_within {x0 s} : Within 98312 s (finishServed x0 s) := by
  dsimp only [finishServed]
  with_reducible repeat' first
    | apply Within.refl
    | apply Within.ite
    | (apply Within.step dropJob_within; decide)
    | (apply Within.step putJob_within; decide)
    | refine Within.step (Within.of_pair (by assumption) sendTo_within) (by decide) ?_
    | (apply Within.step sendTo_within; decide)
    | split
    | dsimp only

theorem execEmbRequestComplete_within {x0 s} : WithinR 220391592 s (execEmbRequestComplete x0 s) := by
  dsimp only [execEmbRequestComplete]
  with_reducible repeat' first
    | apply WithinR.next
    | apply Within.refl
    | apply WithinR.outside
    | apply WithinR.ite
    | apply Within.ite
    | refine engAccess_within (by decide) (fun s => ?_) ?_
    | (apply Within.step dropJob_within; decide)
    | refine Within.step (Within.of_pair (by assumption) engCommit_within) (by decide) ?_
    | (apply Within.step engCommit_within; decide)
    | (apply Within.step engWrite_within; decide)
    | (apply Within.step State.putB_within; decide)
    | split
    | dsimp only

theorem takeIndex_within {x0 x1 x2 x3} : Within 220391592 x2.s (takeIndex x0 x1 x2 x3).s := by
  dsimp only [takeIndex]
  with_reducible repeat' first
    | apply Within.refl
    | apply Within.ite
    | refine Within.step (Within.of_pair3 (by assumption) serveRow_within) (by decide) ?_
    | (apply Within.step serveRow_within; decide)
    | (apply Within.step countServed_within; decide)
    | refine Within.step (Within.of_pair (by assumption) dirRead_within) (by decide) ?_
    | (apply Within.step dirRead_within; decide)
    | refine Within.step (Within.of_pair (by assumption) busRead_within) (by decide) ?_
    | (apply Within.step busRead_within; decide)
    | (apply Within.step State.sat_within; decide)
    | split
    | dsimp only

theorem askChip_within {x0 x1 x2} : Within 98312 x1.2 (askChip x0 x1 x2).2 := by
  dsimp only [askChip]
  with_reducible repeat' first
    | apply Within.refl
    | apply Within.ite
    | refine Within.step (Within.of_pair (by assumption) sendSub_within) (by decide) ?_
    | (apply Within.step sendSub_within; decide)
    | (apply Within.step State.putB_within; decide)
    | split
    | dsimp only

theorem acceptRequest_within {x0 x1 x2 s} : WithinR 220457128 s (acceptRequest x0 x1 x2 s) := by
  dsimp only [acceptRequest]
  with_reducible repeat' first
    | apply WithinR.next
    | apply Within.refl
    | apply WithinR.outside
    | apply WithinR.oc
    | apply WithinR.ite
    | apply Within.ite
    | refine Within.step (Within.of_pair (by assumption) askChip_within) (by decide) ?_
    | (apply Within.step askChip_within; decide)
    | (apply Within.step takeIndex_within; decide)
    | refine Within.step (Within.of_pair (by assumption) takeNum_within) (by decide) ?_
    | (apply Within.step takeNum_within; decide)
    | (apply Within.step putJob_within; decide)
    | refine Within.step (Within.of_pair (by assumption) busRead_within) (by decide) ?_
    | (apply Within.step busRead_within; decide)
    | (apply Within.step State.putB_within; decide)
    | refine Within.foldl_acc EmbAcc.s (fun b a => Within.step takeIndex_within (by decide) (Within.refl _ _)) ?_
    | refine Within.foldl_pair (fun b a => Within.step askChip_within (by decide) (Within.refl _ _)) ?_ (by assumption)
    | refine Within.of_pair (by assumption) ?_
    | refine WithinR.foldl (fun r a h => ?_) ?_
    | refine Within.foldl (fun s a => ?_) ?_
    | refine Within.foldl_snd (fun b a => ?_) ?_
    | refine Within.foldl_fst (fun b a => ?_) ?_
    | refine Within.foldl_pair (fun b a => ?_) ?_ (by assumption)
    | split
    | assumption
    | dsimp only

theorem takeRequest_within {x0 x1 s} : WithinR 220457128 s (takeRequest x0 x1 s) := by
  dsimp only [takeRequest]
  with_reducible repeat' first
    | apply WithinR.next
    | apply Within.refl
    | apply WithinR.outside
    | apply WithinR.oc
    | apply WithinR.ite
    | apply Within.ite
    | refine engAccess_within (by decide) (fun s => ?_) ?_
    | (apply WithinR.step acceptRequest_within; decide)
    | (refine Within.step (WithinR.get acceptRequest_within (by assumption)) (by decide) ?_)
    | (apply Within.step qTake_within; decide)
    | fail_if_no_progress refine Within.lit rfl ?_ (h15 := .inr (by decide))
    | split
    | dsimp only

theorem execEmbLookup_within {x0 s} : WithinR 220457128 s (execEmbLookup x0 s) := by
  dsimp only [execEmbLookup]
  with_reducible repeat' first
    | apply WithinR.next
    | apply Within.refl
    | (apply WithinR.step takeRequest_within; decide)
    | (refine Within.step (WithinR.get takeRequest_within (by assumption)) (by decide) ?_)
    | dsimp only

theorem execEmbGrad_within {x0 s} : WithinR 220457128 s (execEmbGrad x0 s) := by
  dsimp only [execEmbGrad]
  with_reducible repeat' first
    | apply WithinR.next
    | apply Within.refl
    | (apply WithinR.step takeRequest_within; decide)
    | (refine Within.step (WithinR.get takeRequest_within (by assumption)) (by decide) ?_)
    | dsimp only

theorem takeSubRec_within {x0 x1 x2} : Within 220457128 x1.2 (takeSubRec x0 x1 x2).2 := by
  dsimp only [takeSubRec]
  with_reducible repeat' first
    | apply Within.refl
    | apply Within.ite
    | refine Within.step (Within.of_pair3 (by assumption) forwardTerm_within) (by decide) ?_
    | (apply Within.step forwardTerm_within; decide)
    | refine Within.step (Within.of_pair3 (by assumption) serveRow_within) (by decide) ?_
    | (apply Within.step serveRow_within; decide)
    | refine Within.step (Within.of_pair (by assumption) dirRead_within) (by decide) ?_
    | (apply Within.step dirRead_within; decide)
    | (apply Within.step State.sat_within; decide)
    | split
    | dsimp only

theorem execEmbSub_within {x0 s} : WithinR 220457128 s (execEmbSub x0 s) := by
  dsimp only [execEmbSub]
  with_reducible repeat' first
    | apply WithinR.next
    | apply Within.refl
    | apply WithinR.outside
    | apply WithinR.oc
    | apply WithinR.ite
    | refine WithinR.onlyIf (fun s => ?_) ?_
    | apply Within.ite
    | refine engAccess_within (by decide) (fun s => ?_) ?_
    | refine Within.step (Within.of_pair (by assumption) takeSubRec_within) (by decide) ?_
    | (apply Within.step takeSubRec_within; decide)
    | (apply Within.step finishServed_within; decide)
    | refine Within.step (Within.of_pair (by assumption) takeNum_within) (by decide) ?_
    | (apply Within.step takeNum_within; decide)
    | (apply Within.step forwardTo_within; decide)
    | (apply Within.step msgTakenAny_within; decide)
    | refine WithinR.foldl (fun r a h => ?_) ?_
    | refine Within.foldl (fun s a => ?_) ?_
    | refine Within.foldl_snd (fun b a => ?_) ?_
    | refine Within.foldl_fst (fun b a => ?_) ?_
    | refine Within.foldl_pair (fun b a => ?_) ?_ (by assumption)
    | split
    | assumption
    | dsimp only

theorem execEmbPart_within {x0 s} : WithinR 67207176 s (execEmbPart x0 s) := by
  dsimp only [execEmbPart]
  with_reducible repeat' first
    | apply WithinR.next
    | apply Within.refl
    | apply WithinR.outside
    | apply WithinR.ite
    | refine WithinR.onlyIf (fun s => ?_) ?_
    | apply Within.ite
    | (apply Within.step finishServed_within; decide)
    | (apply Within.step forwardTo_within; decide)
    | (apply Within.step msgTakenAny_within; decide)
    | split
    | dsimp only

theorem execEmbRemoteTimeout_within {x0 s} : WithinR 98312 s (execEmbRemoteTimeout x0 s) := by
  dsimp only [execEmbRemoteTimeout]
  with_reducible repeat' first
    | apply WithinR.next
    | apply Within.refl
    | apply WithinR.outside
    | apply WithinR.ite
    | refine WithinR.onlyIf (fun s => ?_) ?_
    | apply Within.ite
    | (apply Within.step finishServed_within; decide)
    | (apply Within.step State.putB_within; decide)
    | split
    | dsimp only

theorem execEmbTabCurWrite_within {x0 x1 s} : WithinR 8 s (execEmbTabCurWrite x0 x1 s) := by
  dsimp only [execEmbTabCurWrite]
  with_reducible repeat' first
    | apply WithinR.next
    | apply Within.refl
    | apply WithinR.outside
    | apply WithinR.ite
    | refine WithinR.hostWrite (fun s => Within.step holdDiscard_within (by decide) (Within.refl _ _)) (fun s => ?_)
    | apply Within.ite
    | (apply Within.step State.wrN_within; decide)
    | (apply Within.step State.putB_within; decide)
    | split
    | dsimp only

theorem execEmbLoadWindowEnd_within {s} : WithinR 33800 s (execEmbLoadWindowEnd s) := by
  dsimp only [execEmbLoadWindowEnd]
  with_reducible repeat' first
    | apply WithinR.next
    | apply Within.refl
    | refine WithinR.onlyIf (fun s => ?_) ?_
    | (apply Within.step loadWindowEnd_within; decide)
    | dsimp only

theorem execEmbFence_within {s} : WithinR 32776 s (execEmbFence s) := by
  dsimp only [execEmbFence]
  with_reducible repeat' first
    | apply WithinR.next
    | apply Within.refl
    | refine WithinR.hostWrite (fun s => Within.step holdDiscard_within (by decide) (Within.refl _ _)) (fun s => ?_)
    | (apply Within.step State.putB_within; decide)
    | fail_if_no_progress refine Within.lit rfl ?_ (h15 := .inr (by decide))
    | dsimp only

theorem execClearRedirects_within {s} : WithinR 32776 s (execClearRedirects s) := by
  dsimp only [execClearRedirects]
  with_reducible repeat' first
    | apply WithinR.next
    | apply Within.refl
    | refine WithinR.hostWrite (fun s => Within.step holdDiscard_within (by decide) (Within.refl _ _)) (fun s => ?_)
    | (apply Within.step State.wrN_within; decide)
    | fail_if_no_progress refine Within.lit rfl ?_ (h15 := .inr (by decide))
    | dsimp only

theorem moveEnd_within {x0 s} : Within 32776 s (moveEnd x0 s) := by
  dsimp only [moveEnd]
  with_reducible repeat' first
    | apply Within.refl
    | (apply Within.step State.putB_within; decide)
    | (apply Within.step State.putF_within; decide)
    | fail_if_no_progress refine Within.lit rfl ?_ (h15 := .inr (by decide))
    | dsimp only

theorem moveInstall_within {x0 x1 s} : Within 134398120 s (moveInstall x0 x1 s) := by
  dsimp only [moveInstall]
  with_reducible repeat' first
    | apply Within.refl
    | (apply Within.step moveEnd_within; decide)
    | (apply Within.step engWrite_within; decide)
    | refine Within.step (Within.of_pair (by assumption) busRead_within) (by decide) ?_
    | (apply Within.step busRead_within; decide)
    | (apply Within.step State.wrN_within; decide)
    | fail_if_no_progress refine Within.lit rfl ?_ (h15 := .inr (by decide))
    | dsimp only

theorem moveCopy_within {x0 x1 x2 s} : Within 134463656 s (moveCopy x0 x1 x2 s) := by
  dsimp only [moveCopy]
  with_reducible repeat' first
    | apply Within.refl
    | apply Within.ite
    | (apply Within.step moveInstall_within; decide)
    | (apply Within.step moveEnd_within; decide)
    | refine Within.step (Within.of_pair (by assumption) sendTo_within) (by decide) ?_
    | (apply Within.step sendTo_within; decide)
    | (apply Within.step engWrite_within; decide)
    | refine Within.step (Within.of_pair (by assumption) busRead_within) (by decide) ?_
    | (apply Within.step busRead_within; decide)
    | fail_if_no_progress refine Within.lit rfl ?_ (h15 := .inr (by decide))
    | split
    | dsimp only

theorem moveStart_within {s} : Within 134463656 s (moveStart s) := by
  dsimp only [moveStart]
  with_reducible repeat' first
    | apply Within.refl
    | apply Within.ite
    | (apply Within.step moveCopy_within; decide)
    | (apply Within.step moveEnd_within; decide)
    | refine Within.step (Within.of_pair (by assumption) dirRead_within) (by decide) ?_
    | (apply Within.step dirRead_within; decide)
    | (apply Within.step engGo_within; decide)
    | (apply Within.step engHold_within; decide)
    | split
    | dsimp only

theorem execEmbMoveGo_within {s} : WithinR 134463656 s (execEmbMoveGo s) := by
  dsimp only [execEmbMoveGo]
  with_reducible repeat' first
    | apply WithinR.next
    | apply Within.refl
    | apply WithinR.outside
    | apply WithinR.ite
    | refine WithinR.hostWrite (fun s => Within.step holdDiscard_within (by decide) (Within.refl _ _)) (fun s => ?_)
    | apply Within.ite
    | (apply Within.step moveStart_within; decide)
    | (apply Within.step State.putB_within; decide)
    | (apply Within.step State.putF_within; decide)
    | split
    | dsimp only

theorem resumeTerm_within {x0 x1 x2 x3 x4} : Within 220457128 x3.2 (resumeTerm x0 x1 x2 x3 x4).2 := by
  dsimp only [resumeTerm]
  with_reducible repeat' first
    | apply Within.refl
    | apply Within.ite
    | refine Within.step (Within.of_pair3 (by assumption) forwardTerm_within) (by decide) ?_
    | (apply Within.step forwardTerm_within; decide)
    | refine Within.step (Within.of_pair3 (by assumption) serveRow_within) (by decide) ?_
    | (apply Within.step serveRow_within; decide)
    | split
    | dsimp only

theorem resumeWaiting_within {x0 x1 s} : Within 220457128 s (resumeWaiting x0 x1 s) := by
  dsimp only [resumeWaiting]
  with_reducible repeat' first
    | apply Within.refl
    | apply Within.ite
    | refine Within.step (Within.of_pair (by assumption) resumeTerm_within) (by decide) ?_
    | (apply Within.step resumeTerm_within; decide)
    | (apply Within.step finishServed_within; decide)
    | refine Within.foldl (fun s a => ?_) ?_
    | refine Within.foldl_snd (fun b a => ?_) ?_
    | refine Within.foldl_fst (fun b a => ?_) ?_
    | refine Within.foldl_pair (fun b a => ?_) ?_ (by assumption)
    | split
    | assumption
    | dsimp only

theorem moveStore_within {x0 s} : Within 134365352 s (moveStore x0 s).2 := by
  dsimp only [moveStore]
  with_reducible repeat' first
    | apply Within.refl
    | apply Within.ite
    | (apply Within.step engWrite_within; decide)
    | split
    | dsimp only

theorem execEmbMoveMessage_within {x0 s} : WithinR 201539752 s (execEmbMoveMessage x0 s) := by
  dsimp only [execEmbMoveMessage]
  with_reducible repeat' first
    | apply WithinR.next
    | apply Within.refl
    | apply WithinR.outside
    | apply WithinR.ite
    | refine WithinR.onlyIf (fun s => ?_) ?_
    | apply Within.ite
    | refine engAccess_within (by decide) (fun s => ?_) ?_
    | refine Within.step (Within.of_pair (by assumption) moveStore_within) (by decide) ?_
    | (apply Within.step moveStore_within; decide)
    | (apply Within.step forwardTo_within; decide)
    | refine Within.step (Within.of_pair (by assumption) sendTo_within) (by decide) ?_
    | (apply Within.step sendTo_within; decide)
    | (apply Within.step msgTakenAny_within; decide)
    | split
    | dsimp only

theorem execMoveAck_within {x0 x1 x2 s} : WithinR 220457128 s (execMoveAck x0 x1 x2 s) := by
  dsimp only [execMoveAck]
  with_reducible repeat' first
    | apply WithinR.next
    | apply Within.refl
    | apply WithinR.outside
    | apply WithinR.ite
    | refine WithinR.onlyIf (fun s => ?_) ?_
    | apply Within.ite
    | refine engAccess_within (by decide) (fun s => ?_) ?_
    | (apply Within.step resumeWaiting_within; decide)
    | (apply Within.step moveInstall_within; decide)
    | (apply Within.step moveEnd_within; decide)
    | (apply Within.step forwardTo_within; decide)
    | (apply Within.step msgTakenAny_within; decide)
    | split
    | dsimp only

theorem execEmbMoveTimeout_within {s} : WithinR 220457128 s (execEmbMoveTimeout s) := by
  dsimp only [execEmbMoveTimeout]
  with_reducible repeat' first
    | apply WithinR.next
    | apply Within.refl
    | apply WithinR.outside
    | apply WithinR.ite
    | refine WithinR.onlyIfR (fun s => ?_) ?_
    | apply Within.ite
    | refine engAccess_within (by decide) (fun s => ?_) ?_
    | (apply Within.step resumeWaiting_within; decide)
    | (apply Within.step moveEnd_within; decide)
    | split
    | dsimp only

theorem embHold_within {s} : Within 32776 s (embHold s) := by
  dsimp only [embHold]
  with_reducible repeat' first
    | apply Within.refl
    | apply Within.ite
    | (apply Within.step dropJob_within; decide)
    | (apply Within.step putJob_within; decide)
    | refine Within.foldl (fun s a => ?_) ?_
    | refine Within.foldl_snd (fun b a => ?_) ?_
    | refine Within.foldl_fst (fun b a => ?_) ?_
    | refine Within.foldl_pair (fun b a => ?_) ?_ (by assumption)
    | split
    | assumption
    | dsimp only

theorem embDrain_within {x0 s} : Within 32776 s (embDrain x0 s) := by
  dsimp only [embDrain]
  with_reducible repeat' first
    | apply Within.refl
    | (apply Within.step dropJob_within; decide)
    | refine Within.foldl (fun s a => ?_) ?_
    | refine Within.foldl_snd (fun b a => ?_) ?_
    | refine Within.foldl_fst (fun b a => ?_) ?_
    | refine Within.foldl_pair (fun b a => ?_) ?_ (by assumption)
    | assumption
    | dsimp only

theorem fabricClear_within {s} : Within 142606330 s (fabricClear s) := by
  refine Within.step (N := 142606330) (s := s.loseComp.loseOnDie) ?_ (by decide)
    (Within.step State.loseOnDie_within (by decide) (Within.step State.loseComp_within (by decide) (Within.refl _ _)))
  refine { pending := rfl, powered := fun _ => rfl, clk := fun _ => rfl, memGen := fun _ => rfl, tap := fun _ => rfl, out := fun _ => rfl
           resp := fun _ => rfl, freeCtr := fun _ => rfl
           wf := fun w => ?_
           pins := ?_, regs := ?_, shadows := ?_, mem := ?_, health := ?_, loader := ?_, warp := ?_, pos := ?_, slots := ?_, intake := ?_
           cores := ?_, chans := ?_, emb := ?_, chain := ?_, selv := ?_, host := ?_, i2c := ?_, hold := ?_, trace := ?_, frz := ?_, contract := ?_ }
  · simp only [State.wf, Bool.and_eq_true] at w ⊢
    exact ⟨⟨⟨⟨⟨Tab.wf_filter _ w.1.1.1.1.1, rfl⟩, rfl⟩, rfl⟩, rfl⟩, rfl⟩
  all_goals intro b; exact absurd b (by decide)

theorem fabricReset_within {s} : Within 142606330 s (fabricReset s) := by
  dsimp only [fabricReset]
  with_reducible repeat' first
    | apply Within.refl
    | (apply Within.step fabricClear_within; decide)
    | (apply Within.step pairLeave_within; decide)
    | (apply Within.step State.setStage_within; decide)
    | refine Within.foldl (fun s a => ?_) ?_
    | refine Within.foldl_snd (fun b a => ?_) ?_
    | refine Within.foldl_fst (fun b a => ?_) ?_
    | refine Within.foldl_pair (fun b a => ?_) ?_ (by assumption)
    | assumption
    | dsimp only

theorem coldReset_within {s} : Within 142606330 s (coldReset s) := by
  dsimp only [coldReset]
  apply Within.step State.setStage_within (by decide)
  refine Within.step (N := 142606330) (s := fabricClear s) ?_ (by decide) (Within.step fabricClear_within (by decide) (Within.refl _ _))
  refine { Within.refl 142606330 (fabricClear s) with wf := fun w => ?_, regs := fun b => absurd b (by decide), selv := fun b => absurd b (by decide) }
  simp only [State.wf, Bool.and_eq_true] at w ⊢
  exact ⟨⟨⟨⟨⟨rfl, w.1.1.1.1.2⟩, w.1.1.1.2⟩, w.1.1.2⟩, w.1.2⟩, w.2⟩

theorem boot_within {s} : Within 8 s (boot s) := by
  dsimp only [boot]
  with_reducible repeat' first
    | apply Within.refl
    | apply Within.ite
    | (apply Within.step clockLost_within; decide)
    | (apply Within.step State.setStage_within; decide)
    | split
    | dsimp only

theorem execColdNAssert_within {s} : WithinR 142606330 s (execColdNAssert s) := by
  dsimp only [execColdNAssert]
  with_reducible repeat' first
    | apply WithinR.next
    | apply Within.refl
    | refine WithinR.onlyIf (fun s => ?_) ?_
    | (apply Within.step coldReset_within; decide)
    | fail_if_no_progress refine Within.lit rfl ?_ (h1 := .inr (by decide))
    | dsimp only

theorem execColdNRelease_within {s} : WithinR 131083 s (execColdNRelease s) := by
  dsimp only [execColdNRelease]
  with_reducible repeat' first
    | apply WithinR.next
    | apply Within.refl
    | apply WithinR.outside
    | apply WithinR.ite
    | refine WithinR.onlyIf (fun s => ?_) ?_
    | apply Within.ite
    | (apply Within.step boot_within; decide)
    | fail_if_no_progress refine Within.lit rfl ?_ (h0 := .inr (by decide)) (h1 := .inr (by decide)) (h17 := .inr (by decide))
    | split
    | dsimp only

theorem execPerstNAssert_within {s} : WithinR 159383546 s (execPerstNAssert s) := by
  dsimp only [execPerstNAssert]
  with_reducible repeat' first
    | apply WithinR.next
    | apply Within.refl
    | apply WithinR.outside
    | apply WithinR.ite
    | refine WithinR.onlyIf (fun s => ?_) ?_
    | apply Within.ite
    | (apply Within.step fabricReset_within; decide)
    | (apply Within.step selvEvent_within; decide)
    | fail_if_no_progress refine Within.lit rfl ?_ (h1 := .inr (by decide))
    | split
    | dsimp only

theorem execPerstNRelease_within {x0 s} : WithinR 10 s (execPerstNRelease x0 s) := by
  dsimp only [execPerstNRelease]
  with_reducible repeat' first
    | apply WithinR.next
    | apply Within.refl
    | apply WithinR.outside
    | apply WithinR.ite
    | refine WithinR.onlyIf (fun s => ?_) ?_
    | apply Within.ite
    | (apply Within.step boot_within; decide)
    | fail_if_no_progress refine Within.lit rfl ?_ (h1 := .inr (by decide))
    | split
    | dsimp only

theorem execPcieHotReset_within {s} : WithinR 159383546 s (execPcieHotReset s) := by
  dsimp only [execPcieHotReset]
  with_reducible repeat' first
    | apply WithinR.next
    | apply Within.refl
    | refine WithinR.onlyIf (fun s => ?_) ?_
    | (apply Within.step boot_within; decide)
    | (apply Within.step fabricReset_within; decide)
    | (apply Within.step selvEvent_within; decide)
    | dsimp only

theorem execSupplyLoss_within {x0 s} : WithinR 150994939 s (execSupplyLoss x0 s) := by
  dsimp only [execSupplyLoss]
  with_reducible repeat' first
    | apply WithinR.next
    | apply Within.refl
    | apply WithinR.outside
    | apply WithinR.ite
    | apply Within.ite
    | (apply Within.step coldReset_within; decide)
    | (apply Within.step fabricReset_within; decide)
    | fail_if_no_progress refine Within.lit rfl ?_ (h0 := .inr (by decide)) (h1 := .inr (by decide)) (h23 := .inr (by decide))
    | split
    | dsimp only

theorem execI2cTargetReady_within {s} : WithinR 524296 s (execI2cTargetReady s) := by
  dsimp only [execI2cTargetReady]
  with_reducible repeat' first
    | apply WithinR.next
    | apply Within.refl
    | refine WithinR.onlyIf (fun s => ?_) ?_
    | (apply Within.step State.putB_within; decide)
    | fail_if_no_progress refine Within.lit rfl ?_ (h19 := .inr (by decide))
    | dsimp only

theorem reportArray_within {x0 s} : Within 8 s (reportArray x0 s) := by
  dsimp only [reportArray]
  with_reducible repeat' first
    | apply Within.refl
    | apply Within.ite
    | (apply Within.step State.wrN_within; decide)
    | split
    | dsimp only

theorem wholeArrays_within {s} : Within 8 s (wholeArrays s) := by
  dsimp only [wholeArrays]
  with_reducible repeat' first
    | apply Within.refl
    | (apply Within.step State.wrN_within; decide)
    | refine Within.foldl (fun s a => ?_) ?_
    | refine Within.foldl_snd (fun b a => ?_) ?_
    | refine Within.foldl_fst (fun b a => ?_) ?_
    | refine Within.foldl_pair (fun b a => ?_) ?_ (by assumption)
    | assumption
    | dsimp only

theorem bistReport_within {x0 s} : Within 8 s (bistReport x0 s) := by
  dsimp only [bistReport]
  with_reducible repeat' first
    | apply Within.refl
    | apply Within.ite
    | (apply Within.step wholeArrays_within; decide)
    | (apply Within.step reportArray_within; decide)
    | (apply Within.step memHottest_within; decide)
    | (apply Within.step State.wrN_within; decide)
    | (apply Within.step State.wrQ_within; decide)
    | (apply Within.step State.putF_within; decide)
    | (apply Within.step State.wr_within; decide)
    | refine Within.foldl (fun s a => ?_) ?_
    | refine Within.foldl_snd (fun b a => ?_) ?_
    | refine Within.foldl_fst (fun b a => ?_) ?_
    | refine Within.foldl_pair (fun b a => ?_) ?_ (by assumption)
    | split
    | assumption
    | dsimp only

theorem execBistComplete_within {x0 s} : WithinR 262152 s (execBistComplete x0 s) := by
  dsimp only [execBistComplete]
  with_reducible repeat' first
    | apply WithinR.next
    | apply Within.refl
    | apply WithinR.outside
    | apply WithinR.ite
    | refine WithinR.onlyIf (fun s => ?_) ?_
    | apply Within.ite
    | (apply Within.step bistReport_within; decide)
    | (apply Within.step State.setStage_within; decide)
    | fail_if_no_progress refine Within.lit rfl ?_ (h18 := .inr (by decide))
    | split
    | dsimp only

theorem execPcieLinkUp_within {x0 x1 s} : WithinR 262152 s (execPcieLinkUp x0 x1 s) := by
  dsimp only [execPcieLinkUp]
  with_reducible repeat' first
    | apply WithinR.next
    | apply Within.refl
    | refine WithinR.onlyIf (fun s => ?_) ?_
    | (apply Within.step State.wrN_within; decide)
    | fail_if_no_progress refine Within.lit rfl ?_ (h18 := .inr (by decide))
    | dsimp only

theorem execConfigurationRequest_within {x0 s} : WithinR 33816576 s (execConfigurationRequest x0 s) := by
  dsimp only [execConfigurationRequest]
  with_reducible repeat' first
    | apply WithinR.next
    | apply Within.refl
    | apply WithinR.outside
    | apply WithinR.ite
    | apply Within.ite
    | (apply Within.step State.answer_within; decide)
    | fail_if_no_progress refine Within.lit rfl ?_ (h18 := .inr (by decide))
    | split
    | dsimp only

theorem selvFall_within {s} : Within 16908296 s (selvFall s) := by
  dsimp only [selvFall]
  with_reducible repeat' first
    | apply Within.refl
    | apply Within.ite
    | (apply Within.step armMonitors_within; decide)
    | (apply Within.step mapFrames_within; decide)
    | (apply Within.step telegram_within; decide)
    | (apply Within.step State.putB_within; decide)
    | refine Within.foldl (fun s a => ?_) ?_
    | refine Within.foldl_snd (fun b a => ?_) ?_
    | refine Within.foldl_fst (fun b a => ?_) ?_
    | refine Within.foldl_pair (fun b a => ?_) ?_ (by assumption)
    | split
    | assumption
    | dsimp only

theorem holdFrames_within {s x1} : Within 131072 s (holdFrames s x1) := by
  dsimp only [holdFrames]
  with_reducible repeat' first
    | apply Within.refl
    | apply Within.ite
    | (apply Within.step setPairSt_within; decide)
    | split
    | dsimp only

theorem selvRise_within {s} : Within 16908296 s (selvRise s) := by
  dsimp only [selvRise]
  with_reducible repeat' first
    | apply Within.refl
    | apply Within.ite
    | (apply Within.step holdFrames_within; decide)
    | (apply Within.step armMonitors_within; decide)
    | (apply Within.step telegram_within; decide)
    | (apply Within.step State.putB_within; decide)
    | refine Within.foldl (fun s a => ?_) ?_
    | refine Within.foldl_snd (fun b a => ?_) ?_
    | refine Within.foldl_fst (fun b a => ?_) ?_
    | refine Within.foldl_pair (fun b a => ?_) ?_ (by assumption)
    | split
    | assumption
    | dsimp only

theorem raisePf_within {s} : Within 16777224 s (raisePf s) := by
  dsimp only [raisePf]
  with_reducible repeat' first
    | apply Within.refl
    | apply Within.ite
    | (apply Within.step State.raise_within; decide)
    | split
    | dsimp only

theorem dropHostWaiting_within {s} : Within 33816584 s (dropHostWaiting s) := by
  dsimp only [dropHostWaiting]
  with_reducible repeat' first
    | apply Within.refl
    | (apply Within.step holdDiscard_within; decide)
    | (apply Within.step State.answer_within; decide)
    | (apply Within.step State.satAdd_within; decide)
    | refine Within.foldl (fun s a => ?_) ?_
    | refine Within.foldl_snd (fun b a => ?_) ?_
    | refine Within.foldl_fst (fun b a => ?_) ?_
    | refine Within.foldl_pair (fun b a => ?_) ?_ (by assumption)
    | fail_if_no_progress refine Within.lit rfl ?_ (h18 := .inr (by decide))
    | assumption
    | dsimp only

theorem dmaDrop_within {x0 x1 s} : Within 67117064 s (dmaDrop x0 x1 s) := by
  dsimp only [dmaDrop]
  with_reducible repeat' first
    | apply Within.refl
    | apply Within.ite
    | (apply Within.step setCore_within; decide)
    | (apply Within.step State.tickFree_within; decide)
    | (apply Within.step State.satAdd_within; decide)
    | split
    | dsimp only

theorem dmaDropAll_within {s} : Within 67117064 s (dmaDropAll s) := by
  dsimp only [dmaDropAll]
  with_reducible repeat' first
    | apply Within.refl
    | (apply Within.step dmaDrop_within; decide)
    | refine Within.foldl (fun s a => ?_) ?_
    | refine Within.foldl_snd (fun b a => ?_) ?_
    | refine Within.foldl_fst (fun b a => ?_) ?_
    | refine Within.foldl_pair (fun b a => ?_) ?_ (by assumption)
    | assumption
    | dsimp only

theorem holdBegin_within {s} : WithinR 255123624 s (holdBegin s) := by
  dsimp only [holdBegin]
  with_reducible repeat' first
    | apply WithinR.next
    | apply Within.refl
    | apply WithinR.outside
    | apply WithinR.ite
    | refine WithinR.andThen (fun s => ?_) ?_
    | refine WithinR.foldRes (fun a s => ?_) ?_
    | apply Within.ite
    | (apply Within.step dmaDropAll_within; decide)
    | (apply Within.step dropHostWaiting_within; decide)
    | (apply Within.step raisePf_within; decide)
    | (apply Within.step embHold_within; decide)
    | (apply Within.step buAbandon_within; decide)
    | (apply WithinR.step buDiscard_within; decide)
    | (refine Within.step (WithinR.get buDiscard_within (by assumption)) (by decide) ?_)
    | (apply Within.step traceEmpty_within; decide)
    | (apply Within.step traceSys_within; decide)
    | (apply Within.step State.setStage_within; decide)
    | (apply Within.step State.sat_within; decide)
    | (apply Within.step State.putB_within; decide)
    | refine WithinR.foldl (fun r a h => ?_) ?_
    | refine Within.foldl (fun s a => ?_) ?_
    | refine Within.foldl_snd (fun b a => ?_) ?_
    | refine Within.foldl_fst (fun b a => ?_) ?_
    | refine Within.foldl_pair (fun b a => ?_) ?_ (by assumption)
    | fail_if_no_progress refine Within.lit rfl ?_ (h20 := .inr (by decide))
    | split
    | assumption
    | dsimp only

theorem pfFall_within {s} : Within 16908298 s (pfFall s) := by
  dsimp only [pfFall]
  with_reducible repeat' first
    | apply Within.refl
    | apply Within.ite
    | (apply Within.step selvFall_within; decide)
    | fail_if_no_progress refine Within.lit rfl ?_ (h1 := .inr (by decide))
    | split
    | dsimp only

theorem execSupplyHoldBegin_within {s} : WithinR 255254698 s (execSupplyHoldBegin s) := by
  dsimp only [execSupplyHoldBegin]
  with_reducible repeat' first
    | apply WithinR.next
    | apply Within.refl
    | apply WithinR.outside
    | apply WithinR.oc
    | apply WithinR.ite
    | apply Within.ite
    | (apply Within.step pfFall_within; decide)
    | (apply WithinR.step holdBegin_within; decide)
    | (refine Within.step (WithinR.get holdBegin_within (by assumption)) (by decide) ?_)
    | fail_if_no_progress refine Within.lit rfl ?_ (h20 := .inr (by decide))
    | split
    | dsimp only

theorem execHoldReady_within {s} : WithinR 1048584 s (execHoldReady s) := by
  dsimp only [execHoldReady]
  with_reducible repeat' first
    | apply WithinR.next
    | apply Within.refl
    | apply WithinR.outside
    | apply WithinR.ite
    | refine WithinR.onlyIf (fun s => ?_) ?_
    | apply Within.ite
    | (apply Within.step selfRefresh_within; decide)
    | (apply Within.step State.putB_within; decide)
    | fail_if_no_progress refine Within.lit rfl ?_ (h20 := .inr (by decide))
    | split
    | dsimp only

theorem execSupplyHoldEnd_within {s} : WithinR 18022410 s (execSupplyHoldEnd s) := by
  dsimp only [execSupplyHoldEnd]
  with_reducible repeat' first
    | apply WithinR.next
    | apply Within.refl
    | apply WithinR.outside
    | apply WithinR.ite
    | apply Within.ite
    | (apply Within.step selvRise_within; decide)
    | (apply Within.step linksTrain_within; decide)
    | fail_if_no_progress refine Within.lit rfl ?_ (h1 := .inr (by decide)) (h20 := .inr (by decide))
    | split
    | dsimp only

theorem execHoldResumeDone_within {x0 s} : WithinR 255189160 s (execHoldResumeDone x0 s) := by
  dsimp only [execHoldResumeDone]
  with_reducible repeat' first
    | apply WithinR.next
    | apply Within.refl
    | apply WithinR.outside
    | apply WithinR.ite
    | apply Within.ite
    | (apply WithinR.step holdBegin_within; decide)
    | (refine Within.step (WithinR.get holdBegin_within (by assumption)) (by decide) ?_)
    | (apply Within.step raisePf_within; decide)
    | (apply Within.step linksTrain_within; decide)
    | (apply Within.step selfRefresh_within; decide)
    | (apply Within.step traceSys_within; decide)
    | (apply Within.step State.setStage_within; decide)
    | (apply Within.step State.putB_within; decide)
    | (apply Within.step State.putF_within; decide)
    | (apply Within.step State.wr_within; decide)
    | refine WithinR.foldl (fun r a h => ?_) ?_
    | refine Within.foldl (fun s a => ?_) ?_
    | refine Within.foldl_snd (fun b a => ?_) ?_
    | refine Within.foldl_fst (fun b a => ?_) ?_
    | refine Within.foldl_pair (fun b a => ?_) ?_ (by assumption)
    | fail_if_no_progress refine Within.lit rfl ?_ (h20 := .inr (by decide))
    | split
    | assumption
    | dsimp only

theorem hostRead_within {M f s} (hM : Nat.land 33554432 M = 33554432) (hf : ∀ s, WithinR M s (f s)) : WithinR M s (hostRead f s) := by
  have h (r : Resp) : WithinR M s (.next (s.answer r)) := WithinR.next (Within.step State.answer_within hM (Within.refl _ _))
  exact WithinR.ite (h _) (WithinR.ite (h _) (WithinR.ite (h _) (hf s)))

theorem poisonedWrite_within {s} : Within 262152 s (poisonedWrite s) := by
  dsimp only [poisonedWrite]
  with_reducible repeat' first
    | apply Within.refl
    | (apply Within.step State.sat_within; decide)
    | fail_if_no_progress refine Within.lit rfl ?_ (h18 := .inr (by decide))
    | dsimp only

theorem hostData_within {M p q f s} (hM : Nat.land 262152 M = 262152) (hf : ∀ s, WithinR M s (f s)) : WithinR M s (hostData p q f s) := by
  refine WithinR.ite (WithinR.next (Within.refl _ _)) (WithinR.ite (WithinR.next ?_) (WithinR.ite (WithinR.next ?_) (hf s)))
  · exact Within.step poisonedWrite_within (sub_trans (by decide) hM) (Within.refl _ _)
  · exact Within.step holdDiscard_within (sub_trans (by decide) hM) (Within.refl _ _)

theorem unmapped_within {s} : Within 8 s (unmapped s) := by
  dsimp only [unmapped]
  with_reducible repeat' first
    | apply Within.refl
    | (apply Within.step State.sat_within; decide)
    | (apply Within.step State.putB_within; decide)
    | dsimp only

theorem bar2Access_within {x0 x1 s} : WithinR 33964200 s (bar2Access x0 x1 s) := by
  dsimp only [bar2Access]
  with_reducible repeat' first
    | apply WithinR.next
    | apply Within.refl
    | apply WithinR.outside
    | apply WithinR.ite
    | apply Within.ite
    | (apply WithinR.step accPerform_within; decide)
    | (refine Within.step (WithinR.get accPerform_within (by assumption)) (by decide) ?_)
    | (apply Within.step arrive_within; decide)
    | fail_if_no_progress refine Within.lit rfl ?_ (h18 := .inr (by decide))
    | split
    | dsimp only

theorem execBar2Read_within {x0 x1 s} : WithinR 33964200 s (execBar2Read x0 x1 s) := by
  dsimp only [execBar2Read]
  with_reducible repeat' first
    | apply WithinR.next
    | apply Within.refl
    | apply WithinR.outside
    | apply WithinR.oc
    | apply WithinR.ite
    | apply Within.ite
    | refine hostRead_within (by decide) (fun s => ?_)
    | (apply WithinR.step bar2Access_within; decide)
    | (refine Within.step (WithinR.get bar2Access_within (by assumption)) (by decide) ?_)
    | (apply Within.step unmapped_within; decide)
    | (apply Within.step holdDiscard_within; decide)
    | (apply Within.step State.answer_within; decide)
    | split
    | dsimp only

theorem execBar2Write_within {x0 x1 x2 s} : WithinR 33964200 s (execBar2Write x0 x1 x2 s) := by
  dsimp only [execBar2Write]
  with_reducible repeat' first
    | apply WithinR.next
    | apply Within.refl
    | apply WithinR.outside
    | apply WithinR.oc
    | apply WithinR.ite
    | apply Within.ite
    | refine hostData_within (by decide) (fun s => ?_)
    | (apply WithinR.step bar2Access_within; decide)
    | (refine Within.step (WithinR.get bar2Access_within (by assumption)) (by decide) ?_)
    | (apply Within.step unmapped_within; decide)
    | split
    | dsimp only

theorem execBar2ReadTimeout_within {s} : WithinR 33832968 s (execBar2ReadTimeout s) := by
  dsimp only [execBar2ReadTimeout]
  with_reducible repeat' first
    | apply WithinR.next
    | apply Within.refl
    | apply WithinR.outside
    | apply WithinR.ite
    | refine WithinR.onlyIf (fun s => ?_) ?_
    | apply Within.ite
    | (apply Within.step depart_within; decide)
    | (apply Within.step State.answer_within; decide)
    | (apply Within.step State.sat_within; decide)
    | fail_if_no_progress refine Within.lit rfl ?_ (h18 := .inr (by decide))
    | split
    | dsimp only

theorem execHostBar2PageWrite_within {x0 x1 s} : WithinR 8 s (execHostBar2PageWrite x0 x1 s) := by
  dsimp only [execHostBar2PageWrite]
  with_reducible repeat' first
    | apply WithinR.next
    | apply Within.refl
    | apply WithinR.outside
    | apply WithinR.oc
    | apply WithinR.ite
    | refine WithinR.hostWrite (fun s => Within.step holdDiscard_within (by decide) (Within.refl _ _)) (fun s => ?_)
    | apply Within.ite
    | (apply Within.step State.wr_within; decide)
    | split
    | dsimp only

theorem execBar4Read_within {x0 x1 s} : WithinR 33554440 s (execBar4Read x0 x1 s) := by
  dsimp only [execBar4Read]
  with_reducible repeat' first
    | apply WithinR.next
    | apply Within.refl
    | apply WithinR.outside
    | apply WithinR.oc
    | apply WithinR.ite
    | apply Within.ite
    | refine hostRead_within (by decide) (fun s => ?_)
    | (apply Within.step holdDiscard_within; decide)
    | (apply Within.step State.answer_within; decide)
    | split
    | dsimp only

theorem execBar4Write_within {x0 x1 x2 s} : WithinR 262184 s (execBar4Write x0 x1 x2 s) := by
  dsimp only [execBar4Write]
  with_reducible repeat' first
    | apply WithinR.next
    | apply Within.refl
    | apply WithinR.outside
    | apply WithinR.oc
    | apply WithinR.ite
    | apply Within.ite
    | refine hostData_within (by decide) (fun s => ?_)
    | (apply Within.step State.putBytes_within; decide)
    | split
    | dsimp only

theorem execMsixSend_within {x0 s} : WithinR 16777224 s (execMsixSend x0 s) := by
  dsimp only [execMsixSend]
  with_reducible repeat' first
    | apply WithinR.next
    | apply Within.refl
    | refine WithinR.onlyIf (fun s => ?_) ?_
    | (apply Within.step State.msixGo_within; decide)
    | dsimp only

theorem raiseMbx_within {s} : Within 16777224 s (raiseMbx s) := by
  dsimp only [raiseMbx]
  with_reducible repeat' first
    | apply Within.refl
    | apply Within.ite
    | (apply Within.step State.raise_within; decide)
    | split
    | dsimp only

theorem b2hPost_within {s} : Within 16777224 s (b2hPost s) := by
  dsimp only [b2hPost]
  with_reducible repeat' first
    | apply Within.refl
    | (apply Within.step raiseMbx_within; decide)
    | (apply Within.step State.putB_within; decide)
    | dsimp only

theorem execH2bPost_within {s} : WithinR 8 s (execH2bPost s) := by
  dsimp only [execH2bPost]
  with_reducible repeat' first
    | apply WithinR.next
    | apply Within.refl
    | refine WithinR.hostWrite (fun s => Within.step holdDiscard_within (by decide) (Within.refl _ _)) (fun s => ?_)
    | (apply Within.step State.putB_within; decide)
    | dsimp only

theorem execB2hAck_within {s} : WithinR 8 s (execB2hAck s) := by
  dsimp only [execB2hAck]
  with_reducible repeat' first
    | apply WithinR.next
    | apply Within.refl
    | refine WithinR.hostWrite (fun s => Within.step holdDiscard_within (by decide) (Within.refl _ _)) (fun s => ?_)
    | (apply Within.step State.putB_within; decide)
    | dsimp only

theorem execH2bAck_within {s} : WithinR 8 s (execH2bAck s) := by
  dsimp only [execH2bAck]
  with_reducible repeat' first
    | apply WithinR.next
    | apply Within.refl
    | refine WithinR.onlyIf (fun s => ?_) ?_
    | (apply Within.step State.putB_within; decide)
    | dsimp only

theorem execB2hPost_within {s} : WithinR 16777224 s (execB2hPost s) := by
  dsimp only [execB2hPost]
  with_reducible repeat' first
    | apply WithinR.next
    | apply Within.refl
    | refine WithinR.onlyIf (fun s => ?_) ?_
    | (apply Within.step b2hPost_within; decide)
    | dsimp only

theorem setI2c_within {s x1} : Within 524288 s (setI2c s x1) := by
  dsimp only [setI2c]
  with_reducible repeat' first
    | apply Within.refl
    | fail_if_no_progress refine Within.lit rfl ?_ (h19 := .inr (by decide))
    | dsimp only

theorem execI2cStart_within {s} : WithinR 524288 s (execI2cStart s) := by
  dsimp only [execI2cStart]
  with_reducible repeat' first
    | apply WithinR.next
    | apply Within.refl
    | apply WithinR.outside
    | apply WithinR.ite
    | refine WithinR.onlyIf (fun s => ?_) ?_
    | apply Within.ite
    | (apply Within.step setI2c_within; decide)
    | split
    | dsimp only

theorem execI2cRepeatedStart_within {s} : WithinR 524288 s (execI2cRepeatedStart s) := by
  dsimp only [execI2cRepeatedStart]
  with_reducible repeat' first
    | apply WithinR.next
    | apply Within.refl
    | refine WithinR.onlyIf (fun s => ?_) ?_
    | (apply Within.step setI2c_within; decide)
    | dsimp only

theorem execI2cAddressByte_within {x0 s} : WithinR 34078720 s (execI2cAddressByte x0 s) := by
  dsimp only [execI2cAddressByte]
  with_reducible repeat' first
    | apply WithinR.next
    | apply Within.refl
    | apply WithinR.outside
    | apply WithinR.ite
    | apply Within.ite
    | (apply Within.step setI2c_within; decide)
    | (apply Within.step State.answer_within; decide)
    | split
    | dsimp only

theorem execI2cWriteByte_within {x0 s} : WithinR 34078720 s (execI2cWriteByte x0 s) := by
  dsimp only [execI2cWriteByte]
  with_reducible repeat' first
    | apply WithinR.next
    | apply Within.refl
    | apply WithinR.outside
    | apply WithinR.ite
    | apply Within.ite
    | (apply Within.step setI2c_within; decide)
    | (apply Within.step State.answer_within; decide)
    | split
    | dsimp only

theorem execI2cReadByte_within {x0 s} : WithinR 34078720 s (execI2cReadByte x0 s) := by
  dsimp only [execI2cReadByte]
  with_reducible repeat' first
    | apply WithinR.next
    | apply Within.refl
    | apply WithinR.outside
    | apply WithinR.ite
    | apply Within.ite
    | (apply Within.step setI2c_within; decide)
    | (apply Within.step State.answer_within; decide)
    | split
    | dsimp only

theorem i2cCommitOne_within {x0 s x2} : Within 16777224 s (i2cCommitOne x0 s x2) := by
  dsimp only [i2cCommitOne]
  with_reducible repeat' first
    | apply Within.refl
    | apply Within.ite
    | (apply Within.step b2hPost_within; decide)
    | (apply Within.step State.putB_within; decide)
    | (apply Within.step State.wr_within; decide)
    | split
    | dsimp only

theorem execI2cStop_within {x0 s} : WithinR 17301512 s (execI2cStop x0 s) := by
  dsimp only [execI2cStop]
  with_reducible repeat' first
    | apply WithinR.next
    | apply Within.refl
    | apply WithinR.outside
    | apply WithinR.oc
    | apply WithinR.ite
    | apply Within.ite
    | (apply Within.step i2cCommitOne_within; decide)
    | (apply Within.step setI2c_within; decide)
    | refine WithinR.foldl (fun r a h => ?_) ?_
    | refine Within.foldl (fun s a => ?_) ?_
    | refine Within.foldl_snd (fun b a => ?_) ?_
    | refine Within.foldl_fst (fun b a => ?_) ?_
    | refine Within.foldl_pair (fun b a => ?_) ?_ (by assumption)
    | split
    | assumption
    | dsimp only

theorem execI2cSclTimeout_within {s} : WithinR 524288 s (execI2cSclTimeout s) := by
  dsimp only [execI2cSclTimeout]
  with_reducible repeat' first
    | apply WithinR.next
    | apply Within.refl
    | refine WithinR.onlyIf (fun s => ?_) ?_
    | (apply Within.step setI2c_within; decide)
    | dsimp only

end Sys2Proof.Machine
end

