-- ==== Sys2Proof/Laws/FrameChip.lean ====
section
/-! SUPPORT. Within which fields of the state each operation stays: the selvedge, the links, warp images and BAR0. A theorem `f_within` names the fields by its mask. -/

set_option linter.unreachableTactic false
set_option linter.unusedTactic false

namespace Sys2Proof.Machine

set_option Elab.async false

theorem takeFab_within {x0 s} : WithinR 21102602 s (takeFab x0 s) := by
  dsimp only [takeFab]
  with_reducible repeat' first
    | apply WithinR.next
    | apply Within.refl
    | apply WithinR.outside
    | apply WithinR.ite
    | refine WithinR.onlyIf (fun s => ?_) ?_
    | apply Within.ite
    | (apply Within.step selvCause_within; decide)
    | fail_if_no_progress refine Within.lit rfl ?_ (h17 := .inr (by decide))
    | split
    | dsimp only

theorem execChecksumEvent_within {s} : WithinR 21102602 s (execChecksumEvent s) := by
  dsimp only [execChecksumEvent]
  with_reducible repeat' first
    | apply WithinR.next
    | apply Within.refl
    | (apply WithinR.step takeFab_within; decide)
    | (refine Within.step (WithinR.get takeFab_within (by assumption)) (by decide) ?_)
    | dsimp only

theorem execMemoryEvent_within {s} : WithinR 21102602 s (execMemoryEvent s) := by
  dsimp only [execMemoryEvent]
  with_reducible repeat' first
    | apply WithinR.next
    | apply Within.refl
    | (apply WithinR.step takeFab_within; decide)
    | (refine Within.step (WithinR.get takeFab_within (by assumption)) (by decide) ?_)
    | dsimp only

theorem execE2eEvent_within {s} : WithinR 21102602 s (execE2eEvent s) := by
  dsimp only [execE2eEvent]
  with_reducible repeat' first
    | apply WithinR.next
    | apply Within.refl
    | (apply WithinR.step takeFab_within; decide)
    | (refine Within.step (WithinR.get takeFab_within (by assumption)) (by decide) ?_)
    | dsimp only

theorem execRegionEvent_within {s} : WithinR 21102602 s (execRegionEvent s) := by
  dsimp only [execRegionEvent]
  with_reducible repeat' first
    | apply WithinR.next
    | apply Within.refl
    | (apply WithinR.step takeFab_within; decide)
    | (refine Within.step (WithinR.get takeFab_within (by assumption)) (by decide) ?_)
    | dsimp only

theorem execResidueEvent_within {x0 x1 x2 s} : WithinR 21102602 s (execResidueEvent x0 x1 x2 s) := by
  dsimp only [execResidueEvent]
  with_reducible repeat' first
    | apply WithinR.next
    | apply Within.refl
    | refine WithinR.onlyIf (fun s => ?_) ?_
    | (apply Within.step selvCause_within; decide)
    | (apply Within.step State.sat_within; decide)
    | (apply Within.step State.wrN_within; decide)
    | (apply Within.step State.putB_within; decide)
    | dsimp only

theorem execLockstep_within {s} : WithinR 21102602 s (execLockstep s) := by
  dsimp only [execLockstep]
  with_reducible repeat' first
    | apply WithinR.next
    | apply Within.refl
    | refine WithinR.onlyIf (fun s => ?_) ?_
    | (apply Within.step selvEvent_within; decide)
    | fail_if_no_progress refine Within.lit rfl ?_ (h17 := .inr (by decide))
    | dsimp only

theorem execSelvEcc_within {x0 s} : WithinR 21102602 s (execSelvEcc x0 s) := by
  dsimp only [execSelvEcc]
  with_reducible repeat' first
    | apply WithinR.next
    | apply Within.refl
    | apply WithinR.outside
    | apply WithinR.ite
    | refine WithinR.onlyIf (fun s => ?_) ?_
    | apply Within.ite
    | (apply Within.step selvEvent_within; decide)
    | (apply Within.step State.sat_within; decide)
    | fail_if_no_progress refine Within.lit rfl ?_ (h17 := .inr (by decide))
    | split
    | dsimp only

theorem execSafeClkFault_within {s} : WithinR 21102602 s (execSafeClkFault s) := by
  dsimp only [execSafeClkFault]
  with_reducible repeat' first
    | apply WithinR.next
    | apply Within.refl
    | refine WithinR.onlyIf (fun s => ?_) ?_
    | (apply Within.step selvEvent_within; decide)
    | dsimp only

theorem execDieTempSample_within {x0 s} : WithinR 21102602 s (execDieTempSample x0 s) := by
  dsimp only [execDieTempSample]
  with_reducible repeat' first
    | apply WithinR.next
    | apply Within.refl
    | apply WithinR.outside
    | apply WithinR.ite
    | refine WithinR.onlyIf (fun s => ?_) ?_
    | apply Within.ite
    | (apply Within.step selvEvent_within; decide)
    | (apply Within.step State.putF_within; decide)
    | fail_if_no_progress refine Within.lit rfl ?_ (h17 := .inr (by decide))
    | split
    | dsimp only

theorem execSafeHbToggle_within {s} : WithinR 2 s (execSafeHbToggle s) := by
  dsimp only [execSafeHbToggle]
  with_reducible repeat' first
    | apply WithinR.next
    | apply Within.refl
    | refine WithinR.onlyIf (fun s => ?_) ?_
    | fail_if_no_progress refine Within.lit rfl ?_ (h1 := .inr (by decide))
    | dsimp only

theorem countRule_within {s x1} : Within 8 s (countRule s x1) := by
  dsimp only [countRule]
  with_reducible repeat' first
    | apply Within.refl
    | (apply Within.step State.satAdd_within; decide)
    | dsimp only

theorem putDesc_within {x0 x1 x2 s} : Within 220358824 s (putDesc x0 x1 x2 s) := by
  dsimp only [putDesc]
  with_reducible repeat' first
    | apply Within.refl
    | apply Within.ite
    | refine Within.step (Within.of_pair (by assumption) engCommitAs_within) (by decide) ?_
    | (apply Within.step engCommitAs_within; decide)
    | (apply Within.step setPairSt_within; decide)
    | (apply Within.step State.sat_within; decide)
    | split
    | dsimp only

theorem emitFrame_within {x0 x1 x2 x3 s} : Within 220358824 s (emitFrame x0 x1 x2 x3 s) := by
  dsimp only [emitFrame]
  with_reducible repeat' first
    | apply Within.refl
    | apply Within.ite
    | (apply Within.step putDesc_within; decide)
    | (apply Within.step setPairSt_within; decide)
    | refine Within.foldl (fun s a => ?_) ?_
    | refine Within.foldl_snd (fun b a => ?_) ?_
    | refine Within.foldl_fst (fun b a => ?_) ?_
    | refine Within.foldl_pair (fun b a => ?_) ?_ (by assumption)
    | fail_if_no_progress refine Within.lit rfl ?_ (h17 := .inr (by decide))
    | split
    | assumption
    | dsimp only

theorem putFrame_within {x0 x1 s} : Within 131072 s (putFrame x0 x1 s) := by
  dsimp only [putFrame]
  with_reducible repeat' first
    | apply Within.refl
    | apply Within.ite
    | (apply Within.step setPairSt_within; decide)
    | split
    | dsimp only

theorem decideFrame_within {x0 x1 x2 x3 x4 s} : Within 224553130 s (decideFrame x0 x1 x2 x3 x4 s) := by
  dsimp only [decideFrame]
  with_reducible repeat' first
    | apply Within.refl
    | apply Within.ite
    | (apply Within.step emitFrame_within; decide)
    | (apply Within.step countRule_within; decide)
    | (apply Within.step raiseAll_within; decide)
    | (apply Within.step State.tickFree_within; decide)
    | refine Within.foldl (fun s a => ?_) ?_
    | refine Within.foldl_snd (fun b a => ?_) ?_
    | refine Within.foldl_fst (fun b a => ?_) ?_
    | refine Within.foldl_pair (fun b a => ?_) ?_ (by assumption)
    | split
    | assumption
    | dsimp only

theorem compareRecord_within {x0 x1 x2 x3 x4 s} : Within 224553130 s (compareRecord x0 x1 x2 x3 x4 s) := by
  dsimp only [compareRecord]
  with_reducible repeat' first
    | apply Within.refl
    | apply Within.ite
    | (apply Within.step decideFrame_within; decide)
    | (apply Within.step putFrame_within; decide)
    | (apply Within.step raiseAll_within; decide)
    | split
    | dsimp only

theorem seedJudged_within {x0 x1 s} : Within 21102602 s (seedJudged x0 x1 s) := by
  dsimp only [seedJudged]
  with_reducible repeat' first
    | apply Within.refl
    | apply Within.ite
    | (apply Within.step selvCause_within; decide)
    | (apply Within.step setPairSt_within; decide)
    | split
    | dsimp only

theorem seedRecord_within {x0 x1 x2 x3 s} : Within 21102602 s (seedRecord x0 x1 x2 x3 s) := by
  dsimp only [seedRecord]
  with_reducible repeat' first
    | apply Within.refl
    | apply Within.ite
    | (apply Within.step seedJudged_within; decide)
    | (apply Within.step setPairSt_within; decide)
    | split
    | dsimp only

theorem execSeedInjection_within {s} : WithinR 131072 s (execSeedInjection s) := by
  dsimp only [execSeedInjection]
  with_reducible repeat' first
    | apply WithinR.next
    | apply Within.refl
    | apply WithinR.outside
    | apply WithinR.ite
    | refine WithinR.onlyIf (fun s => ?_) ?_
    | apply Within.ite
    | (apply Within.step setPairSt_within; decide)
    | refine WithinR.foldl (fun r a h => ?_) ?_
    | refine Within.foldl (fun s a => ?_) ?_
    | refine Within.foldl_snd (fun b a => ?_) ?_
    | refine Within.foldl_fst (fun b a => ?_) ?_
    | refine Within.foldl_pair (fun b a => ?_) ?_ (by assumption)
    | fail_if_no_progress refine Within.lit rfl ?_ (h17 := .inr (by decide))
    | split
    | assumption
    | dsimp only

theorem execSeedFrame_within {s} : WithinR 220362920 s (execSeedFrame s) := by
  dsimp only [execSeedFrame]
  with_reducible repeat' first
    | apply WithinR.next
    | apply Within.refl
    | apply WithinR.outside
    | apply WithinR.ite
    | refine WithinR.onlyIfR (fun s => ?_) ?_
    | apply Within.ite
    | refine engAccess_within (by decide) (fun s => ?_) ?_
    | (apply Within.step nextFrame_within; decide)
    | (apply WithinR.step deliverAll_within; decide)
    | (refine Within.step (WithinR.get deliverAll_within (by assumption)) (by decide) ?_)
    | fail_if_no_progress refine Within.lit rfl ?_ (h17 := .inr (by decide))
    | split
    | dsimp only

theorem execSeedDeadline_within {x0 s} : WithinR 21102602 s (execSeedDeadline x0 s) := by
  dsimp only [execSeedDeadline]
  with_reducible repeat' first
    | apply WithinR.next
    | apply Within.refl
    | apply WithinR.outside
    | apply WithinR.ite
    | refine WithinR.onlyIf (fun s => ?_) ?_
    | apply Within.ite
    | (apply Within.step seedJudged_within; decide)
    | split
    | dsimp only

theorem monitorEvent_within {x0 x1 s} : Within 21102602 s (monitorEvent x0 x1 s) := by
  dsimp only [monitorEvent]
  with_reducible repeat' first
    | apply Within.refl
    | (apply Within.step selvEvent_within; decide)
    | dsimp only

theorem monitorMiss_within {x0 x1 s} : Within 21102602 s (monitorMiss x0 x1 s) := by
  dsimp only [monitorMiss]
  with_reducible repeat' first
    | apply Within.refl
    | (apply Within.step monitorEvent_within; decide)
    | (apply Within.step State.satF_within; decide)
    | dsimp only

theorem monitorStart_within {x0 x1 s} : Within 21102602 s (monitorStart x0 x1 s) := by
  dsimp only [monitorStart]
  with_reducible repeat' first
    | apply Within.refl
    | apply Within.ite
    | (apply Within.step monitorMiss_within; decide)
    | (apply Within.step setStarts_within; decide)
    | (apply Within.step State.putB_within; decide)
    | split
    | dsimp only

theorem monitorEnd_within {x0 s} : Within 131080 s (monitorEnd x0 s).1 := by
  dsimp only [monitorEnd]
  with_reducible repeat' first
    | apply Within.refl
    | apply Within.ite
    | (apply Within.step setStarts_within; decide)
    | fail_if_no_progress refine Within.lit rfl ?_ (h17 := .inr (by decide))
    | split
    | dsimp only

theorem execDmStart_within {x0 s} : WithinR 21102602 s (execDmStart x0 s) := by
  dsimp only [execDmStart]
  with_reducible repeat' first
    | apply WithinR.next
    | apply Within.refl
    | apply WithinR.outside
    | apply WithinR.ite
    | refine WithinR.onlyIf (fun s => ?_) ?_
    | apply Within.ite
    | (apply Within.step monitorStart_within; decide)
    | fail_if_no_progress refine Within.lit rfl ?_ (h17 := .inr (by decide))
    | split
    | dsimp only

theorem execDmEnd_within {x0 s} : WithinR 21168138 s (execDmEnd x0 s) := by
  dsimp only [execDmEnd]
  with_reducible repeat' first
    | apply WithinR.next
    | apply Within.refl
    | refine WithinR.onlyIf (fun s => ?_) ?_
    | refine Within.step (Within.of_pair1 (by assumption) monitorEnd_within) (by decide) ?_
    | (apply Within.step monitorEnd_within; decide)
    | (apply Within.step endDue_within; decide)
    | (apply Within.step raiseAll_within; decide)
    | fail_if_no_progress refine Within.lit rfl ?_ (h17 := .inr (by decide))
    | dsimp only

theorem execDeadline_within {x0 s} : WithinR 21102602 s (execDeadline x0 s) := by
  dsimp only [execDeadline]
  with_reducible repeat' first
    | apply WithinR.next
    | apply Within.refl
    | apply WithinR.outside
    | apply WithinR.ite
    | refine WithinR.onlyIf (fun s => ?_) ?_
    | apply Within.ite
    | (apply Within.step monitorMiss_within; decide)
    | (apply Within.step setStarts_within; decide)
    | fail_if_no_progress refine Within.lit rfl ?_ (h17 := .inr (by decide))
    | split
    | dsimp only

theorem frameEnds_within {x0 s} : Within 131080 s (frameEnds x0 s).1 := by
  dsimp only [frameEnds]
  with_reducible repeat' first
    | apply Within.refl
    | apply Within.ite
    | refine Within.step (Within.of_pair1 (by assumption) monitorEnd_within) (by decide) ?_
    | (apply Within.step monitorEnd_within; decide)
    | refine Within.foldl (fun s a => ?_) ?_
    | refine Within.foldl_snd (fun b a => ?_) ?_
    | refine Within.foldl_fst (fun b a => ?_) ?_
    | refine Within.foldl_pair (fun b a => ?_) ?_ (by assumption)
    | split
    | assumption
    | dsimp only

theorem acquire_within {x0 x1 x2 s} : WithinR 224553130 s (acquire x0 x1 x2 s) := by
  dsimp only [acquire]
  with_reducible repeat' first
    | apply WithinR.next
    | apply Within.refl
    | apply WithinR.outside
    | apply WithinR.ite
    | refine WithinR.onlyIfR (fun s => ?_) ?_
    | apply Within.ite
    | refine engAccess_within (by decide) (fun s => ?_) ?_
    | refine Within.step (Within.of_pair1 (by assumption) frameEnds_within) (by decide) ?_
    | (apply Within.step frameEnds_within; decide)
    | (apply Within.step seedRecord_within; decide)
    | (apply Within.step compareRecord_within; decide)
    | (apply Within.step qTake_within; decide)
    | (apply Within.step selvCause_within; decide)
    | split
    | dsimp only

theorem execResult_within {x0 x1 s} : WithinR 224553130 s (execResult x0 x1 s) := by
  dsimp only [execResult]
  with_reducible repeat' first
    | apply WithinR.next
    | apply Within.refl
    | (apply WithinR.step acquire_within; decide)
    | (refine Within.step (WithinR.get acquire_within (by assumption)) (by decide) ?_)
    | dsimp only

theorem execFrameEnd_within {x0 x1 s} : WithinR 224553130 s (execFrameEnd x0 x1 s) := by
  dsimp only [execFrameEnd]
  with_reducible repeat' first
    | apply WithinR.next
    | apply Within.refl
    | (apply WithinR.step acquire_within; decide)
    | (refine Within.step (WithinR.get acquire_within (by assumption)) (by decide) ?_)
    | dsimp only

theorem execPairWindowExpiry_within {x0 s} : WithinR 224553130 s (execPairWindowExpiry x0 s) := by
  dsimp only [execPairWindowExpiry]
  with_reducible repeat' first
    | apply WithinR.next
    | apply Within.refl
    | apply WithinR.outside
    | apply WithinR.ite
    | refine WithinR.onlyIf (fun s => ?_) ?_
    | apply Within.ite
    | (apply Within.step decideFrame_within; decide)
    | (apply Within.step putFrame_within; decide)
    | split
    | dsimp only

theorem slotFreeze_within {x0 s} : Within 8 s (slotFreeze x0 s) := by
  dsimp only [slotFreeze]
  with_reducible repeat' first
    | apply Within.refl
    | apply Within.ite
    | (apply Within.step State.satAdd_within; decide)
    | split
    | dsimp only

theorem execSelftestRound_within {s} : WithinR 131072 s (execSelftestRound s) := by
  dsimp only [execSelftestRound]
  with_reducible repeat' first
    | apply WithinR.next
    | apply Within.refl
    | refine WithinR.onlyIf (fun s => ?_) ?_
    | fail_if_no_progress refine Within.lit rfl ?_ (h17 := .inr (by decide))
    | dsimp only

theorem execSelftestSlot_within {x0 s} : WithinR 21102602 s (execSelftestSlot x0 s) := by
  dsimp only [execSelftestSlot]
  with_reducible repeat' first
    | apply WithinR.next
    | apply Within.refl
    | apply WithinR.outside
    | apply WithinR.ite
    | refine WithinR.onlyIf (fun s => ?_) ?_
    | apply Within.ite
    | (apply Within.step slotFreeze_within; decide)
    | (apply Within.step selvEvent_within; decide)
    | (apply Within.step State.sat_within; decide)
    | (apply Within.step State.putF_within; decide)
    | fail_if_no_progress refine Within.lit rfl ?_ (h17 := .inr (by decide))
    | split
    | dsimp only

theorem meterWindow_within {x0 s x2} : Within 21102602 s (meterWindow x0 s x2) := by
  dsimp only [meterWindow]
  with_reducible repeat' first
    | apply Within.refl
    | apply Within.ite
    | (apply Within.step selvCause_within; decide)
    | fail_if_no_progress refine Within.lit rfl ?_ (h17 := .inr (by decide))
    | split
    | dsimp only

theorem execBandwidthWindow_within {x0 s} : WithinR 21102602 s (execBandwidthWindow x0 s) := by
  dsimp only [execBandwidthWindow]
  with_reducible repeat' first
    | apply WithinR.next
    | apply Within.refl
    | refine WithinR.onlyIf (fun s => ?_) ?_
    | (apply Within.step meterWindow_within; decide)
    | refine WithinR.foldl (fun r a h => ?_) ?_
    | refine Within.foldl (fun s a => ?_) ?_
    | refine Within.foldl_snd (fun b a => ?_) ?_
    | refine Within.foldl_fst (fun b a => ?_) ?_
    | refine Within.foldl_pair (fun b a => ?_) ?_ (by assumption)
    | assumption
    | dsimp only

theorem execIntakeWindowSwitch_within {s} : WithinR 4096 s (execIntakeWindowSwitch s) := by
  dsimp only [execIntakeWindowSwitch]
  with_reducible repeat' first
    | apply WithinR.next
    | apply Within.refl
    | apply WithinR.outside
    | apply WithinR.ite
    | refine WithinR.onlyIf (fun s => ?_) ?_
    | apply Within.ite
    | fail_if_no_progress refine Within.lit rfl ?_ (h12 := .inr (by decide))
    | split
    | dsimp only

theorem execTelegramPeriod_within {s} : WithinR 16908296 s (execTelegramPeriod s) := by
  dsimp only [execTelegramPeriod]
  with_reducible repeat' first
    | apply WithinR.next
    | apply Within.refl
    | (apply Within.step telegram_within; decide)
    | dsimp only

theorem execGetChallenge_within {s} : WithinR 67239944 s (execGetChallenge s) := by
  dsimp only [execGetChallenge]
  with_reducible repeat' first
    | apply WithinR.next
    | apply Within.refl
    | apply WithinR.outside
    | apply WithinR.ite
    | refine WithinR.onlyIf (fun s => ?_) ?_
    | refine WithinR.hostWrite (fun s => Within.step holdDiscard_within (by decide) (Within.refl _ _)) (fun s => ?_)
    | apply Within.ite
    | (apply Within.step State.tickFree_within; decide)
    | (apply Within.step State.wr_within; decide)
    | fail_if_no_progress refine Within.lit rfl ?_ (h17 := .inr (by decide))
    | split
    | dsimp only

theorem execClearSafe_within {s} : WithinR 16908298 s (execClearSafe s) := by
  dsimp only [execClearSafe]
  with_reducible repeat' first
    | apply WithinR.next
    | apply Within.refl
    | apply WithinR.outside
    | apply WithinR.ite
    | refine WithinR.onlyIf (fun s => ?_) ?_
    | refine WithinR.hostWrite (fun s => Within.step holdDiscard_within (by decide) (Within.refl _ _)) (fun s => ?_)
    | apply Within.ite
    | (apply Within.step selvSync_within; decide)
    | (apply Within.step State.putB_within; decide)
    | (apply Within.step State.putF_within; decide)
    | (apply Within.step State.wr_within; decide)
    | fail_if_no_progress refine Within.lit rfl ?_ (h1 := .inr (by decide)) (h17 := .inr (by decide))
    | split
    | dsimp only

theorem execEnterSafe_within {s} : WithinR 21102602 s (execEnterSafe s) := by
  dsimp only [execEnterSafe]
  with_reducible repeat' first
    | apply WithinR.next
    | apply Within.refl
    | refine WithinR.onlyIf (fun s => ?_) ?_
    | refine WithinR.hostWrite (fun s => Within.step holdDiscard_within (by decide) (Within.refl _ _)) (fun s => ?_)
    | (apply Within.step selvEvent_within; decide)
    | dsimp only

theorem execChallengeExpiry_within {s} : WithinR 131072 s (execChallengeExpiry s) := by
  dsimp only [execChallengeExpiry]
  with_reducible repeat' first
    | apply WithinR.next
    | apply Within.refl
    | refine WithinR.onlyIf (fun s => ?_) ?_
    | fail_if_no_progress refine Within.lit rfl ?_ (h17 := .inr (by decide))
    | dsimp only

theorem trainStart_within {x0 s} : Within 65544 s (trainStart x0 s) := by
  dsimp only [trainStart]
  with_reducible repeat' first
    | apply Within.refl
    | (apply Within.step setPhase_within; decide)
    | (apply Within.step State.putF_within; decide)
    | dsimp only

theorem execLinkEnable_within {x0 s} : WithinR 65544 s (execLinkEnable x0 s) := by
  dsimp only [execLinkEnable]
  with_reducible repeat' first
    | apply WithinR.next
    | apply Within.refl
    | apply WithinR.outside
    | apply WithinR.ite
    | refine WithinR.hostWrite (fun s => Within.step holdDiscard_within (by decide) (Within.refl _ _)) (fun s => ?_)
    | apply Within.ite
    | (apply Within.step trainStart_within; decide)
    | (apply Within.step State.putB_within; decide)
    | split
    | dsimp only

theorem execLinkDisable_within {x0 s} : WithinR 65544 s (execLinkDisable x0 s) := by
  dsimp only [execLinkDisable]
  with_reducible repeat' first
    | apply WithinR.next
    | apply Within.refl
    | apply WithinR.outside
    | apply WithinR.ite
    | refine WithinR.hostWrite (fun s => Within.step holdDiscard_within (by decide) (Within.refl _ _)) (fun s => ?_)
    | apply Within.ite
    | (apply Within.step endDue_within; decide)
    | (apply Within.step setPhase_within; decide)
    | (apply Within.step State.putB_within; decide)
    | (apply Within.step State.putF_within; decide)
    | split
    | dsimp only

theorem execLinkRetrain_within {x0 s} : WithinR 66568 s (execLinkRetrain x0 s) := by
  dsimp only [execLinkRetrain]
  with_reducible repeat' first
    | apply WithinR.next
    | apply Within.refl
    | refine WithinR.onlyIf (fun s => ?_) ?_
    | refine WithinR.hostWrite (fun s => Within.step holdDiscard_within (by decide) (Within.refl _ _)) (fun s => ?_)
    | (apply Within.step linkFall_within; decide)
    | dsimp only

theorem execLinkDrainComplete_within {x0 s} : WithinR 66568 s (execLinkDrainComplete x0 s) := by
  dsimp only [execLinkDrainComplete]
  with_reducible repeat' first
    | apply WithinR.next
    | apply Within.refl
    | apply WithinR.outside
    | apply WithinR.ite
    | refine WithinR.onlyIf (fun s => ?_) ?_
    | apply Within.ite
    | (apply Within.step trainStart_within; decide)
    | (apply Within.step linkLeave_within; decide)
    | (apply Within.step setLink_within; decide)
    | (apply Within.step State.satAdd_within; decide)
    | (apply Within.step State.putB_within; decide)
    | (apply Within.step State.putF_within; decide)
    | split
    | dsimp only

theorem sendPeer_within {x0 s} : Within 16777216 s (sendPeer x0 s) := by
  dsimp only [sendPeer]
  with_reducible repeat' first
    | apply Within.refl
    | (apply Within.step State.emit_within; decide)
    | dsimp only

theorem comparePeer_within {x0 x1 s} : Within 16842760 s (comparePeer x0 x1 s) := by
  dsimp only [comparePeer]
  with_reducible repeat' first
    | apply Within.refl
    | apply Within.ite
    | (apply Within.step setPhase_within; decide)
    | (apply Within.step State.emit_within; decide)
    | (apply Within.step State.wrN_within; decide)
    | (apply Within.step State.putB_within; decide)
    | split
    | dsimp only

theorem linkCome_within {x0 s} : Within 65544 s (linkCome x0 s) := by
  dsimp only [linkCome]
  with_reducible repeat' first
    | apply Within.refl
    | (apply Within.step setPhase_within; decide)
    | (apply Within.step setLink_within; decide)
    | (apply Within.step State.putB_within; decide)
    | dsimp only

theorem execLinkTrainPhaseDone_within {x0 x1 s} : WithinR 16842760 s (execLinkTrainPhaseDone x0 x1 s) := by
  dsimp only [execLinkTrainPhaseDone]
  with_reducible repeat' first
    | apply WithinR.next
    | apply Within.refl
    | apply WithinR.outside
    | apply WithinR.ite
    | refine WithinR.onlyIf (fun s => ?_) ?_
    | apply Within.ite
    | (apply Within.step linkCome_within; decide)
    | (apply Within.step comparePeer_within; decide)
    | (apply Within.step sendPeer_within; decide)
    | (apply Within.step setPhase_within; decide)
    | (apply Within.step State.putB_within; decide)
    | (apply Within.step State.putF_within; decide)
    | split
    | dsimp only

theorem execLinkTrainTimeout_within {x0 s} : WithinR 65544 s (execLinkTrainTimeout x0 s) := by
  dsimp only [execLinkTrainTimeout]
  with_reducible repeat' first
    | apply WithinR.next
    | apply Within.refl
    | apply WithinR.outside
    | apply WithinR.ite
    | refine WithinR.onlyIf (fun s => ?_) ?_
    | apply Within.ite
    | (apply Within.step setPhase_within; decide)
    | split
    | dsimp only

theorem execLinkTrainRetry_within {x0 s} : WithinR 65544 s (execLinkTrainRetry x0 s) := by
  dsimp only [execLinkTrainRetry]
  with_reducible repeat' first
    | apply WithinR.next
    | apply Within.refl
    | refine WithinR.onlyIf (fun s => ?_) ?_
    | (apply Within.step setPhase_within; decide)
    | dsimp only

theorem execPeerRetry_within {x0 x1 s} : WithinR 16842760 s (execPeerRetry x0 x1 s) := by
  dsimp only [execPeerRetry]
  with_reducible repeat' first
    | apply WithinR.next
    | apply Within.refl
    | refine WithinR.onlyIf (fun s => ?_) ?_
    | (apply Within.step comparePeer_within; decide)
    | (apply Within.step sendPeer_within; decide)
    | dsimp only

theorem execLinkSignalLoss_within {x0 s} : WithinR 66568 s (execLinkSignalLoss x0 s) := by
  dsimp only [execLinkSignalLoss]
  with_reducible repeat' first
    | apply WithinR.next
    | apply Within.refl
    | refine WithinR.onlyIf (fun s => ?_) ?_
    | (apply Within.step linkFall_within; decide)
    | dsimp only

theorem execLinkIdleTimeout_within {x0 s} : WithinR 66568 s (execLinkIdleTimeout x0 s) := by
  dsimp only [execLinkIdleTimeout]
  with_reducible repeat' first
    | apply WithinR.next
    | apply Within.refl
    | refine WithinR.onlyIf (fun s => ?_) ?_
    | (apply Within.step linkFall_within; decide)
    | dsimp only

theorem execEndMsg_within {x0 s} : WithinR 65536 s (execEndMsg x0 s) := by
  dsimp only [execEndMsg]
  with_reducible repeat' first
    | apply WithinR.next
    | apply Within.refl
    | refine WithinR.onlyIf (fun s => ?_) ?_
    | (apply Within.step msgTaken_within; decide)
    | (apply Within.step setLink_within; decide)
    | dsimp only

theorem takeBoltFlit_within {x0 x1 s} : Within 65544 s (takeBoltFlit x0 x1 s) := by
  dsimp only [takeBoltFlit]
  with_reducible repeat' first
    | apply Within.refl
    | apply Within.ite
    | (apply Within.step setLink_within; decide)
    | (apply Within.step State.sat_within; decide)
    | split
    | dsimp only

theorem execFlitReceive_within {x0 x1 s} : WithinR 16843784 s (execFlitReceive x0 x1 s) := by
  dsimp only [execFlitReceive]
  with_reducible repeat' first
    | apply WithinR.next
    | apply Within.refl
    | apply WithinR.outside
    | apply WithinR.ite
    | refine WithinR.onlyIf (fun s => ?_) ?_
    | apply Within.ite
    | (apply Within.step takeBoltFlit_within; decide)
    | (apply Within.step acked_within; decide)
    | (apply Within.step replayAll_within; decide)
    | (apply Within.step bufferFlit_within; decide)
    | (apply Within.step setLink_within; decide)
    | (apply Within.step State.sat_within; decide)
    | split
    | dsimp only

theorem execFlitTransmit_within {x0 x1 s} : WithinR 16842760 s (execFlitTransmit x0 x1 s) := by
  dsimp only [execFlitTransmit]
  with_reducible repeat' first
    | apply WithinR.next
    | apply Within.refl
    | apply WithinR.outside
    | apply WithinR.ite
    | refine WithinR.onlyIf (fun s => ?_) ?_
    | apply Within.ite
    | (apply Within.step sendFlit_within; decide)
    | split
    | dsimp only

theorem execReplayTimeout_within {x0 s} : WithinR 16843784 s (execReplayTimeout x0 s) := by
  dsimp only [execReplayTimeout]
  with_reducible repeat' first
    | apply WithinR.next
    | apply Within.refl
    | refine WithinR.onlyIf (fun s => ?_) ?_
    | (apply Within.step replayAll_within; decide)
    | dsimp only

theorem execBoltTransmit_within {s} : WithinR 213000 s (execBoltTransmit s) := by
  dsimp only [execBoltTransmit]
  with_reducible repeat' first
    | apply WithinR.next
    | apply Within.refl
    | apply WithinR.outside
    | apply WithinR.oc
    | apply WithinR.ite
    | apply Within.ite
    | refine engAccess_within (by decide) (fun s => ?_) ?_
    | (apply Within.step putTx_within; decide)
    | (apply Within.step qTake_within; decide)
    | (apply Within.step State.sat_within; decide)
    | fail_if_no_progress refine Within.lit rfl ?_ (h16 := .inr (by decide))
    | split
    | dsimp only

theorem boltDone_within {x0 x1 s} : Within 65536 s (boltDone x0 x1 s) := by
  dsimp only [boltDone]
  with_reducible repeat' first
    | apply Within.refl
    | apply Within.ite
    | (apply Within.step oweCredit_within; decide)
    | (apply Within.step setLink_within; decide)
    | split
    | dsimp only

theorem boltCommit_within {x0 x1 x2 s} : Within 220424360 s (boltCommit x0 x1 x2 s) := by
  dsimp only [boltCommit]
  with_reducible repeat' first
    | apply Within.refl
    | apply Within.ite
    | (apply Within.step boltDone_within; decide)
    | refine Within.step (Within.of_pair (by assumption) engCommit_within) (by decide) ?_
    | (apply Within.step engCommit_within; decide)
    | (apply Within.step State.sat_within; decide)
    | fail_if_no_progress refine Within.lit rfl ?_ (h17 := .inr (by decide))
    | split
    | dsimp only

theorem boltPlace_within {x0 x1 x2 s} : WithinR 220424360 s (boltPlace x0 x1 x2 s) := by
  dsimp only [boltPlace]
  with_reducible repeat' first
    | apply WithinR.next
    | apply Within.refl
    | apply WithinR.outside
    | apply WithinR.oc
    | apply WithinR.ite
    | apply Within.ite
    | refine engAccess_within (by decide) (fun s => ?_) ?_
    | (apply Within.step boltCommit_within; decide)
    | (apply Within.step boltDone_within; decide)
    | (apply Within.step setLink_within; decide)
    | (apply Within.step State.sat_within; decide)
    | split
    | dsimp only

theorem execBoltReceive_within {x0 s} : WithinR 220424360 s (execBoltReceive x0 s) := by
  dsimp only [execBoltReceive]
  with_reducible repeat' first
    | apply WithinR.next
    | apply Within.refl
    | apply WithinR.outside
    | apply WithinR.ite
    | apply Within.ite
    | (apply WithinR.step boltPlace_within; decide)
    | (refine Within.step (WithinR.get boltPlace_within (by assumption)) (by decide) ?_)
    | (apply Within.step boltDone_within; decide)
    | (apply Within.step putTx_within; decide)
    | (apply Within.step State.sat_within; decide)
    | split
    | dsimp only

theorem execBoltHoldRelease_within {x0 s} : WithinR 220424360 s (execBoltHoldRelease x0 s) := by
  dsimp only [execBoltHoldRelease]
  with_reducible repeat' first
    | apply WithinR.next
    | apply Within.refl
    | apply WithinR.outside
    | apply WithinR.ite
    | apply Within.ite
    | (apply WithinR.step boltPlace_within; decide)
    | (refine Within.step (WithinR.get boltPlace_within (by assumption)) (by decide) ?_)
    | split
    | dsimp only

theorem execBoltHoldTimeout_within {x0 s} : WithinR 65544 s (execBoltHoldTimeout x0 s) := by
  dsimp only [execBoltHoldTimeout]
  with_reducible repeat' first
    | apply WithinR.next
    | apply Within.refl
    | refine WithinR.onlyIf (fun s => ?_) ?_
    | (apply Within.step boltDone_within; decide)
    | (apply Within.step State.sat_within; decide)
    | dsimp only

theorem windowOf_within {x0 s x2} : Within 21168138 s (windowOf x0 s x2) := by
  dsimp only [windowOf]
  with_reducible repeat' first
    | apply Within.refl
    | apply Within.ite
    | (apply Within.step setLink_within; decide)
    | (apply Within.step selvCause_within; decide)
    | (apply Within.step State.sat_within; decide)
    | split
    | dsimp only

theorem execBudgetWindow_within {x0 s} : WithinR 21168138 s (execBudgetWindow x0 s) := by
  dsimp only [execBudgetWindow]
  with_reducible repeat' first
    | apply WithinR.next
    | apply Within.refl
    | refine WithinR.onlyIf (fun s => ?_) ?_
    | (apply Within.step windowOf_within; decide)
    | (apply Within.step setLink_within; decide)
    | refine WithinR.foldl (fun r a h => ?_) ?_
    | refine Within.foldl (fun s a => ?_) ?_
    | refine Within.foldl_snd (fun b a => ?_) ?_
    | refine Within.foldl_fst (fun b a => ?_) ?_
    | refine Within.foldl_pair (fun b a => ?_) ?_ (by assumption)
    | assumption
    | dsimp only

theorem sendSync_within {x0 x1 s} : Within 65536 s (sendSync x0 x1 s) := by
  dsimp only [sendSync]
  with_reducible repeat' first
    | apply Within.refl
    | (apply Within.step putTx_within; decide)
    | refine Within.foldl (fun s a => ?_) ?_
    | refine Within.foldl_snd (fun b a => ?_) ?_
    | refine Within.foldl_fst (fun b a => ?_) ?_
    | refine Within.foldl_pair (fun b a => ?_) ?_ (by assumption)
    | assumption
    | dsimp only

theorem execSyncPeriod_within {s} : WithinR 65536 s (execSyncPeriod s) := by
  dsimp only [execSyncPeriod]
  with_reducible repeat' first
    | apply WithinR.next
    | apply Within.refl
    | refine WithinR.onlyIf (fun s => ?_) ?_
    | (apply Within.step sendSync_within; decide)
    | dsimp only

theorem chainTrim_within {s x1} : Within 67108872 s (chainTrim s x1) := by
  dsimp only [chainTrim]
  with_reducible repeat' first
    | apply Within.refl
    | apply Within.ite
    | (apply Within.step State.tickFree_within; decide)
    | (apply Within.step State.wr_within; decide)
    | split
    | dsimp only

theorem syncCorrect_within {x0 x1 s} : Within 203527210 s (syncCorrect x0 x1 s) := by
  dsimp only [syncCorrect]
  with_reducible repeat' first
    | apply Within.refl
    | apply Within.ite
    | (apply Within.step chainTrim_within; decide)
    | (apply Within.step chainUnsync_within; decide)
    | (apply Within.step timeMoved_within; decide)
    | (apply Within.step judgeTimes_within; decide)
    | (apply Within.step State.putB_within; decide)
    | fail_if_no_progress refine Within.lit rfl ?_ (h10 := .inr (by decide)) (h16 := .inr (by decide))
    | split
    | dsimp only

theorem execSync_within {x0 x1 s} : WithinR 203527210 s (execSync x0 x1 s) := by
  dsimp only [execSync]
  with_reducible repeat' first
    | apply WithinR.next
    | apply Within.refl
    | apply WithinR.outside
    | apply WithinR.ite
    | refine WithinR.onlyIf (fun s => ?_) ?_
    | apply Within.ite
    | (apply Within.step syncCorrect_within; decide)
    | (apply Within.step sendSync_within; decide)
    | (apply Within.step msgTaken_within; decide)
    | (apply Within.step timeSync_within; decide)
    | (apply Within.step State.wr_within; decide)
    | fail_if_no_progress refine Within.lit rfl ?_ (h16 := .inr (by decide))
    | split
    | unfold execSync.takeSync
    | dsimp only

theorem execSyncLossTimeout_within {s} : WithinR 66568 s (execSyncLossTimeout s) := by
  dsimp only [execSyncLossTimeout]
  with_reducible repeat' first
    | apply WithinR.next
    | apply Within.refl
    | refine WithinR.onlyIf (fun s => ?_) ?_
    | (apply Within.step chainUnsync_within; decide)
    | dsimp only

theorem execDelayMeasurePeriod_within {x0 s} : WithinR 65536 s (execDelayMeasurePeriod x0 s) := by
  dsimp only [execDelayMeasurePeriod]
  with_reducible repeat' first
    | apply WithinR.next
    | apply Within.refl
    | refine WithinR.onlyIf (fun s => ?_) ?_
    | (apply Within.step putTx_within; decide)
    | dsimp only

theorem execDelayReq_within {x0 x1 x2 s} : WithinR 65536 s (execDelayReq x0 x1 x2 s) := by
  dsimp only [execDelayReq]
  with_reducible repeat' first
    | apply WithinR.next
    | apply Within.refl
    | refine WithinR.onlyIf (fun s => ?_) ?_
    | (apply Within.step msgTaken_within; decide)
    | (apply Within.step putTx_within; decide)
    | dsimp only

theorem execDelayResp_within {x0 x1 x2 x3 x4 s} : WithinR 65544 s (execDelayResp x0 x1 x2 x3 x4 s) := by
  dsimp only [execDelayResp]
  with_reducible repeat' first
    | apply WithinR.next
    | apply Within.refl
    | refine WithinR.onlyIf (fun s => ?_) ?_
    | (apply Within.step msgTaken_within; decide)
    | (apply Within.step State.wr_within; decide)
    | dsimp only

theorem sendPick_within {x0 x1 s} : Within 65536 s (sendPick x0 x1 s) := by
  dsimp only [sendPick]
  with_reducible repeat' first
    | apply Within.refl
    | (apply Within.step putTx_within; decide)
    | refine Within.foldl (fun s a => ?_) ?_
    | refine Within.foldl_snd (fun b a => ?_) ?_
    | refine Within.foldl_fst (fun b a => ?_) ?_
    | refine Within.foldl_pair (fun b a => ?_) ?_ (by assumption)
    | assumption
    | dsimp only

theorem execPickSend_within {x0 s} : WithinR 66560 s (execPickSend x0 s) := by
  dsimp only [execPickSend]
  with_reducible repeat' first
    | apply WithinR.next
    | apply Within.refl
    | apply WithinR.outside
    | apply WithinR.ite
    | refine WithinR.onlyIf (fun s => ?_) ?_
    | apply Within.ite
    | (apply Within.step sendPick_within; decide)
    | (apply Within.step setPick_within; decide)
    | split
    | dsimp only

theorem evsJumped_within {x0 x1 s} : Within 134222890 s (evsJumped x0 x1 s) := by
  dsimp only [evsJumped]
  with_reducible repeat' first
    | apply Within.refl
    | apply Within.ite
    | (apply Within.step evCount_within; decide)
    | (apply Within.step evMet_within; decide)
    | (apply Within.step judgePick_within; decide)
    | refine Within.foldl (fun s a => ?_) ?_
    | refine Within.foldl_snd (fun b a => ?_) ?_
    | refine Within.foldl_fst (fun b a => ?_) ?_
    | refine Within.foldl_pair (fun b a => ?_) ?_ (by assumption)
    | split
    | assumption
    | dsimp only

theorem pickMove_within {x0 x1 x2 x3 s} : Within 1032 s (pickMove x0 x1 x2 x3 s) := by
  dsimp only [pickMove]
  with_reducible repeat' first
    | apply Within.refl
    | apply Within.ite
    | (apply Within.step setPick_within; decide)
    | (apply Within.step setPkCount_within; decide)
    | (apply Within.step State.wrQ_within; decide)
    | (apply Within.step State.putB_within; decide)
    | split
    | dsimp only

theorem pickTake_within {x0 x1 s} : Within 134222890 s (pickTake x0 x1 s) := by
  dsimp only [pickTake]
  with_reducible repeat' first
    | apply Within.refl
    | apply Within.ite
    | (apply Within.step pickMove_within; decide)
    | (apply Within.step evsJumped_within; decide)
    | (apply Within.step evsLoaded_within; decide)
    | (apply Within.step evsChanged_within; decide)
    | (apply Within.step evCount_within; decide)
    | (apply Within.step setPick_within; decide)
    | (apply Within.step gridRefLoad_within; decide)
    | (apply Within.step setPkCount_within; decide)
    | (apply Within.step State.putB_within; decide)
    | (apply Within.step State.putF_within; decide)
    | refine Within.foldl (fun s a => ?_) ?_
    | refine Within.foldl_snd (fun b a => ?_) ?_
    | refine Within.foldl_fst (fun b a => ?_) ?_
    | refine Within.foldl_pair (fun b a => ?_) ?_ (by assumption)
    | split
    | assumption
    | dsimp only

theorem execPick_within {x0 x1 s} : WithinR 134288426 s (execPick x0 x1 s) := by
  dsimp only [execPick]
  with_reducible repeat' first
    | apply WithinR.next
    | apply Within.refl
    | apply WithinR.outside
    | apply WithinR.ite
    | refine WithinR.onlyIf (fun s => ?_) ?_
    | apply Within.ite
    | (apply Within.step pickTake_within; decide)
    | (apply Within.step sendPick_within; decide)
    | (apply Within.step msgTaken_within; decide)
    | (apply Within.step setPick_within; decide)
    | (apply Within.step State.sat_within; decide)
    | split
    | unfold execPick.takePick
    | dsimp only

theorem execPickApply_within {x0 s} : WithinR 134222890 s (execPickApply x0 s) := by
  dsimp only [execPickApply]
  with_reducible repeat' first
    | apply WithinR.next
    | apply Within.refl
    | apply WithinR.outside
    | apply WithinR.ite
    | refine WithinR.onlyIf (fun s => ?_) ?_
    | apply Within.ite
    | (apply Within.step pickTake_within; decide)
    | (apply Within.step setPick_within; decide)
    | split
    | dsimp only

theorem startQueue_within {x0 s} : WithinR 2056 s (startQueue x0 s) := by
  dsimp only [startQueue]
  with_reducible repeat' first
    | apply WithinR.next
    | apply Within.refl
    | apply WithinR.outside
    | apply WithinR.oc
    | apply WithinR.ite
    | apply Within.ite
    | (apply Within.step qStart_within; decide)
    | split
    | dsimp only

theorem fillBucket_within {x0 s} : Within 4096 s (fillBucket x0 s) := by
  dsimp only [fillBucket]
  with_reducible repeat' first
    | apply Within.refl
    | apply Within.ite
    | (apply Within.step setCtx_within; decide)
    | split
    | dsimp only

theorem ptStart_within {x0 s} : WithinR 136525864 s (ptStart x0 s) := by
  dsimp only [ptStart]
  with_reducible repeat' first
    | apply WithinR.next
    | apply Within.refl
    | apply WithinR.outside
    | apply WithinR.ite
    | refine WithinR.andThen (fun s => ?_) ?_
    | refine WithinR.foldRes (fun a s => ?_) ?_
    | apply Within.ite
    | (apply Within.step fillBucket_within; decide)
    | (apply WithinR.step startQueue_within; decide)
    | (refine Within.step (WithinR.get startQueue_within (by assumption)) (by decide) ?_)
    | (apply Within.step gridsStart_within; decide)
    | (apply Within.step coreStart_within; decide)
    | (apply Within.step pairEnter_within; decide)
    | (apply Within.step State.putF_within; decide)
    | refine WithinR.foldl (fun r a h => ?_) ?_
    | refine Within.foldl (fun s a => ?_) ?_
    | refine Within.foldl_snd (fun b a => ?_) ?_
    | refine Within.foldl_fst (fun b a => ?_) ?_
    | refine Within.foldl_pair (fun b a => ?_) ?_ (by assumption)
    | fail_if_no_progress refine Within.lit rfl ?_ (h16 := .inr (by decide))
    | split
    | assumption
    | dsimp only

theorem ptDrainBegin_within {x0 s} : Within 86171656 s (ptDrainBegin x0 s) := by
  dsimp only [ptDrainBegin]
  with_reducible repeat' first
    | apply Within.refl
    | apply Within.ite
    | (apply Within.step embDrain_within; decide)
    | (apply Within.step gridsShow_within; decide)
    | (apply Within.step coreDrainBegin_within; decide)
    | (apply Within.step qLeave_within; decide)
    | (apply Within.step pairLeave_within; decide)
    | (apply Within.step State.putB_within; decide)
    | (apply Within.step State.putF_within; decide)
    | refine Within.foldl (fun s a => ?_) ?_
    | refine Within.foldl_snd (fun b a => ?_) ?_
    | refine Within.foldl_fst (fun b a => ?_) ?_
    | refine Within.foldl_pair (fun b a => ?_) ?_ (by assumption)
    | split
    | assumption
    | dsimp only

theorem execPtEnable_within {x0 s} : WithinR 136525864 s (execPtEnable x0 s) := by
  dsimp only [execPtEnable]
  with_reducible repeat' first
    | apply WithinR.next
    | apply Within.refl
    | apply WithinR.outside
    | apply WithinR.ite
    | refine WithinR.hostWrite (fun s => Within.step holdDiscard_within (by decide) (Within.refl _ _)) (fun s => ?_)
    | apply Within.ite
    | (apply WithinR.step ptStart_within; decide)
    | (refine Within.step (WithinR.get ptStart_within (by assumption)) (by decide) ?_)
    | (apply Within.step State.putB_within; decide)
    | split
    | dsimp only

theorem execPtDisable_within {x0 s} : WithinR 86171656 s (execPtDisable x0 s) := by
  dsimp only [execPtDisable]
  with_reducible repeat' first
    | apply WithinR.next
    | apply Within.refl
    | apply WithinR.outside
    | apply WithinR.ite
    | refine WithinR.hostWrite (fun s => Within.step holdDiscard_within (by decide) (Within.refl _ _)) (fun s => ?_)
    | apply Within.ite
    | (apply Within.step ptDrainBegin_within; decide)
    | (apply Within.step State.putB_within; decide)
    | split
    | dsimp only

theorem ptFlush_within {x0 s} : Within 10248 s (ptFlush x0 s) := by
  dsimp only [ptFlush]
  with_reducible repeat' first
    | apply Within.refl
    | apply Within.ite
    | (apply Within.step qFlush_within; decide)
    | (apply Within.step State.putF_within; decide)
    | refine Within.foldl (fun s a => ?_) ?_
    | refine Within.foldl_snd (fun b a => ?_) ?_
    | refine Within.foldl_fst (fun b a => ?_) ?_
    | refine Within.foldl_pair (fun b a => ?_) ?_ (by assumption)
    | split
    | assumption
    | dsimp only

theorem execPtDrainComplete_within {x0 s} : WithinR 136525864 s (execPtDrainComplete x0 s) := by
  dsimp only [execPtDrainComplete]
  with_reducible repeat' first
    | apply WithinR.next
    | apply Within.refl
    | apply WithinR.outside
    | apply WithinR.ite
    | refine WithinR.onlyIfR (fun s => ?_) ?_
    | apply Within.ite
    | (apply Within.step ptFlush_within; decide)
    | (apply WithinR.step ptStart_within; decide)
    | (refine Within.step (WithinR.get ptStart_within (by assumption)) (by decide) ?_)
    | (apply Within.step gridsShow_within; decide)
    | (apply Within.step State.putB_within; decide)
    | (apply Within.step State.putF_within; decide)
    | split
    | dsimp only

theorem applyEntries_within {M n f b s0 s} (hf : ∀ a s, WithinR M s (f a s)) (h : Within M s0 s) : WithinR M s0 (applyEntries n f b s) := by
  unfold applyEntries
  split
  · exact WithinR.oc
  · exact WithinR.foldRes hf h

theorem applyChain_within {x0 x1 s} : WithinR 520 s (applyChain x0 x1 s) := by
  dsimp only [applyChain]
  with_reducible repeat' first
    | apply WithinR.next
    | apply Within.refl
    | apply WithinR.outside
    | apply WithinR.oc
    | apply WithinR.ite
    | apply Within.ite
    | (apply Within.step State.putF_within; decide)
    | refine WithinR.foldl (fun r a h => ?_) ?_
    | refine Within.foldl (fun s a => ?_) ?_
    | refine Within.foldl_snd (fun b a => ?_) ?_
    | refine Within.foldl_fst (fun b a => ?_) ?_
    | refine Within.foldl_pair (fun b a => ?_) ?_ (by assumption)
    | fail_if_no_progress refine Within.lit rfl ?_ (h9 := .inr (by decide))
    | split
    | assumption
    | dsimp only

theorem coreDefaults_within {x0 s} : Within 520 s (coreDefaults x0 s) := by
  dsimp only [coreDefaults]
  with_reducible repeat' first
    | apply Within.refl
    | (apply Within.step State.wrQ_within; decide)
    | (apply Within.step State.wr_within; decide)
    | refine Within.foldl (fun s a => ?_) ?_
    | refine Within.foldl_snd (fun b a => ?_) ?_
    | refine Within.foldl_fst (fun b a => ?_) ?_
    | refine Within.foldl_pair (fun b a => ?_) ?_ (by assumption)
    | fail_if_no_progress refine Within.lit rfl ?_ (h9 := .inr (by decide))
    | assumption
    | dsimp only

theorem entryDefaults_within {x0 s} : Within 8 s (entryDefaults x0 s) := by
  dsimp only [entryDefaults]
  with_reducible repeat' first
    | apply Within.refl
    | (apply Within.step State.wrQ_within; decide)
    | (apply Within.step State.wr_within; decide)
    | dsimp only

theorem applyPartition_within {x0 s} : WithinR 520 s (applyPartition x0 s) := by
  dsimp only [applyPartition]
  with_reducible repeat' first
    | apply WithinR.next
    | apply Within.refl
    | apply WithinR.outside
    | apply WithinR.oc
    | apply WithinR.ite
    | apply Within.ite
    | (apply Within.step entryDefaults_within; decide)
    | (apply Within.step coreDefaults_within; decide)
    | (apply Within.step State.putF_within; decide)
    | refine WithinR.foldl (fun r a h => ?_) ?_
    | refine Within.foldl (fun s a => ?_) ?_
    | refine Within.foldl_snd (fun b a => ?_) ?_
    | refine Within.foldl_fst (fun b a => ?_) ?_
    | refine Within.foldl_pair (fun b a => ?_) ?_ (by assumption)
    | fail_if_no_progress refine Within.lit rfl ?_ (h9 := .inr (by decide))
    | split
    | assumption
    | dsimp only

theorem applyChannelMode_within {x0 s} : WithinR 520 s (applyChannelMode x0 s) := by
  dsimp only [applyChannelMode]
  with_reducible repeat' first
    | apply WithinR.next
    | apply Within.refl
    | apply WithinR.outside
    | apply WithinR.oc
    | apply WithinR.ite
    | apply Within.ite
    | (apply Within.step State.putF_within; decide)
    | refine WithinR.foldl (fun r a h => ?_) ?_
    | refine Within.foldl (fun s a => ?_) ?_
    | refine Within.foldl_snd (fun b a => ?_) ?_
    | refine Within.foldl_fst (fun b a => ?_) ?_
    | refine Within.foldl_pair (fun b a => ?_) ?_ (by assumption)
    | fail_if_no_progress refine Within.lit rfl ?_ (h9 := .inr (by decide))
    | split
    | assumption
    | dsimp only

theorem applyCoreEntry_within {x0 x1 s} : WithinR 520 s (applyCoreEntry x0 x1 s) := by
  dsimp only [applyCoreEntry]
  with_reducible repeat' first
    | apply WithinR.next
    | apply Within.refl
    | apply WithinR.outside
    | apply WithinR.oc
    | apply WithinR.ite
    | apply Within.ite
    | (apply Within.step State.wrN_within; decide)
    | (apply Within.step State.wrQ_within; decide)
    | (apply Within.step State.wr_within; decide)
    | refine WithinR.foldl (fun r a h => ?_) ?_
    | refine Within.foldl (fun s a => ?_) ?_
    | refine Within.foldl_snd (fun b a => ?_) ?_
    | refine Within.foldl_fst (fun b a => ?_) ?_
    | refine Within.foldl_pair (fun b a => ?_) ?_ (by assumption)
    | fail_if_no_progress refine Within.lit rfl ?_ (h9 := .inr (by decide))
    | split
    | assumption
    | dsimp only

theorem applyCoreGroup_within {x0 x1 s} : WithinR 520 s (applyCoreGroup x0 x1 s) := by
  dsimp only [applyCoreGroup]
  with_reducible repeat' first
    | apply WithinR.next
    | apply Within.refl
    | refine applyEntries_within (fun a s => ?_) ?_
    | (apply WithinR.step applyCoreEntry_within; decide)
    | (refine Within.step (WithinR.get applyCoreEntry_within (by assumption)) (by decide) ?_)
    | (apply Within.step coreDefaults_within; decide)
    | refine WithinR.foldl (fun r a h => ?_) ?_
    | refine Within.foldl (fun s a => ?_) ?_
    | refine Within.foldl_snd (fun b a => ?_) ?_
    | refine Within.foldl_fst (fun b a => ?_) ?_
    | refine Within.foldl_pair (fun b a => ?_) ?_ (by assumption)
    | assumption
    | dsimp only

theorem applyQueueEntry_within {x0 x1 s} : WithinR 8 s (applyQueueEntry x0 x1 s) := by
  dsimp only [applyQueueEntry]
  with_reducible repeat' first
    | apply WithinR.next
    | apply Within.refl
    | apply WithinR.outside
    | apply WithinR.oc
    | apply WithinR.ite
    | apply Within.ite
    | (apply Within.step State.wrN_within; decide)
    | (apply Within.step State.wrQ_within; decide)
    | (apply Within.step State.putF_within; decide)
    | split
    | dsimp only

theorem applyQueue_within {x0 x1 s} : WithinR 8 s (applyQueue x0 x1 s) := by
  dsimp only [applyQueue]
  with_reducible repeat' first
    | apply WithinR.next
    | apply Within.refl
    | refine applyEntries_within (fun a s => ?_) ?_
    | (apply WithinR.step applyQueueEntry_within; decide)
    | (refine Within.step (WithinR.get applyQueueEntry_within (by assumption)) (by decide) ?_)
    | (apply Within.step State.putF_within; decide)
    | refine WithinR.foldl (fun r a h => ?_) ?_
    | refine Within.foldl (fun s a => ?_) ?_
    | refine Within.foldl_snd (fun b a => ?_) ?_
    | refine Within.foldl_fst (fun b a => ?_) ?_
    | refine Within.foldl_pair (fun b a => ?_) ?_ (by assumption)
    | assumption
    | dsimp only

theorem applyTable_within {x0 s} : WithinR 32776 s (applyTable x0 s) := by
  dsimp only [applyTable]
  with_reducible repeat' first
    | apply WithinR.next
    | apply Within.refl
    | (apply Within.step State.wrN_within; decide)
    | fail_if_no_progress refine Within.lit rfl ?_ (h15 := .inr (by decide))
    | dsimp only

theorem applyEmb_within {x0 s} : WithinR 32776 s (applyEmb x0 s) := by
  dsimp only [applyEmb]
  with_reducible repeat' first
    | apply WithinR.next
    | apply Within.refl
    | apply WithinR.outside
    | apply WithinR.oc
    | apply WithinR.ite
    | refine WithinR.foldRes (fun a s => ?_) ?_
    | apply Within.ite
    | (apply WithinR.step applyTable_within; decide)
    | (refine Within.step (WithinR.get applyTable_within (by assumption)) (by decide) ?_)
    | fail_if_no_progress refine Within.lit rfl ?_ (h15 := .inr (by decide))
    | split
    | dsimp only

theorem applyTemplate_within {x0 s} : WithinR 512 s (applyTemplate x0 s) := by
  dsimp only [applyTemplate]
  with_reducible repeat' first
    | apply WithinR.next
    | apply Within.refl
    | apply WithinR.outside
    | apply WithinR.oc
    | apply WithinR.ite
    | apply Within.ite
    | fail_if_no_progress refine Within.lit rfl ?_ (h9 := .inr (by decide))
    | split
    | dsimp only

theorem applyMount_within {x0 x1 s} : Within 4096 s (applyMount x0 x1 s) := by
  dsimp only [applyMount]
  with_reducible repeat' first
    | apply Within.refl
    | apply Within.ite
    | (apply Within.step setCtx_within; decide)
    | split
    | dsimp only

theorem applyGrid_within {x0 x1 s} : WithinR 4104 s (applyGrid x0 x1 s) := by
  dsimp only [applyGrid]
  with_reducible repeat' first
    | apply WithinR.next
    | apply Within.refl
    | apply WithinR.outside
    | apply WithinR.oc
    | apply WithinR.ite
    | apply Within.ite
    | (apply Within.step gridSync_within; decide)
    | (apply Within.step State.wr_within; decide)
    | fail_if_no_progress refine Within.lit rfl ?_ (h12 := .inr (by decide))
    | split
    | dsimp only

theorem transformRecs_within {k n b s} : WithinR 4104 s (transformRecs k n b s) := by
  induction k generalizing b s with
  | zero => exact WithinR.next (Within.refl _ _)
  | succ k ih =>
    unfold transformRecs
    refine WithinR.ite (WithinR.next (Within.refl _ _)) (WithinR.ite ?_ (WithinR.ite ?_ WithinR.oc))
    · exact WithinR.step ih (by decide) (Within.step applyMount_within (by decide) (Within.refl _ _))
    · exact WithinR.andThen (fun s => ih) (WithinR.step applyGrid_within (by decide) (Within.refl _ _))

theorem applyTransform_within {x0 x1 s} : WithinR 4104 s (applyTransform x0 x1 s) := by
  dsimp only [applyTransform]
  with_reducible repeat' first
    | apply WithinR.next
    | apply Within.refl
    | (apply WithinR.step transformRecs_within; decide)
    | (refine Within.step (WithinR.get transformRecs_within (by assumption)) (by decide) ?_)
    | (apply Within.step setCtx_within; decide)
    | refine WithinR.foldl (fun r a h => ?_) ?_
    | refine Within.foldl (fun s a => ?_) ?_
    | refine Within.foldl_snd (fun b a => ?_) ?_
    | refine Within.foldl_fst (fun b a => ?_) ?_
    | refine Within.foldl_pair (fun b a => ?_) ?_ (by assumption)
    | fail_if_no_progress refine Within.lit rfl ?_ (h12 := .inr (by decide))
    | assumption
    | dsimp only

theorem applyCtxEntry_within {x0 x1 s} : WithinR 4096 s (applyCtxEntry x0 x1 s) := by
  dsimp only [applyCtxEntry]
  with_reducible repeat' first
    | apply WithinR.next
    | apply Within.refl
    | apply WithinR.outside
    | apply WithinR.oc
    | apply WithinR.ite
    | apply Within.ite
    | (apply Within.step setCtx_within; decide)
    | split
    | dsimp only

theorem applyContext_within {x0 x1 s} : WithinR 4096 s (applyContext x0 x1 s) := by
  dsimp only [applyContext]
  with_reducible repeat' first
    | apply WithinR.next
    | apply Within.refl
    | refine applyEntries_within (fun a s => ?_) ?_
    | (apply WithinR.step applyCtxEntry_within; decide)
    | (refine Within.step (WithinR.get applyCtxEntry_within (by assumption)) (by decide) ?_)
    | (apply Within.step setCtx_within; decide)
    | refine WithinR.foldl (fun r a h => ?_) ?_
    | refine Within.foldl (fun s a => ?_) ?_
    | refine Within.foldl_snd (fun b a => ?_) ?_
    | refine Within.foldl_fst (fun b a => ?_) ?_
    | refine Within.foldl_pair (fun b a => ?_) ?_ (by assumption)
    | assumption
    | dsimp only

theorem posReg_within {s x1} : Within 1034 s (posReg s x1) := by
  dsimp only [posReg]
  with_reducible repeat' first
    | apply Within.refl
    | apply Within.ite
    | (apply Within.step pkCfgPut_within; decide)
    | (apply Within.step trigSync_within; decide)
    | (apply Within.step trimPut_within; decide)
    | (apply Within.step State.putRw_within; decide)
    | refine Within.foldl (fun s a => ?_) ?_
    | refine Within.foldl_snd (fun b a => ?_) ?_
    | refine Within.foldl_fst (fun b a => ?_) ?_
    | refine Within.foldl_pair (fun b a => ?_) ?_ (by assumption)
    | split
    | assumption
    | dsimp only

theorem applyPos_within {x0 s} : WithinR 1546 s (applyPos x0 s) := by
  dsimp only [applyPos]
  with_reducible repeat' first
    | apply WithinR.next
    | apply Within.refl
    | (apply Within.step posReg_within; decide)
    | (apply Within.step timeSync_within; decide)
    | (apply Within.step State.putB_within; decide)
    | refine WithinR.foldl (fun r a h => ?_) ?_
    | refine Within.foldl (fun s a => ?_) ?_
    | refine Within.foldl_snd (fun b a => ?_) ?_
    | refine Within.foldl_fst (fun b a => ?_) ?_
    | refine Within.foldl_pair (fun b a => ?_) ?_ (by assumption)
    | fail_if_no_progress refine Within.lit rfl ?_ (h9 := .inr (by decide))
    | assumption
    | dsimp only

theorem applyLinkEntry_within {x0 x1 s} : Within 65544 s (applyLinkEntry x0 x1 s) := by
  dsimp only [applyLinkEntry]
  with_reducible repeat' first
    | apply Within.refl
    | apply Within.ite
    | (apply Within.step trainStart_within; decide)
    | (apply Within.step setLink_within; decide)
    | (apply Within.step State.wrN_within; decide)
    | split
    | dsimp only

theorem applyLink_within {x0 s} : WithinR 65544 s (applyLink x0 s) := by
  dsimp only [applyLink]
  with_reducible repeat' first
    | apply WithinR.next
    | apply Within.refl
    | apply WithinR.outside
    | apply WithinR.oc
    | apply WithinR.ite
    | apply Within.ite
    | (apply Within.step applyLinkEntry_within; decide)
    | (apply Within.step State.wrN_within; decide)
    | refine WithinR.foldl (fun r a h => ?_) ?_
    | refine Within.foldl (fun s a => ?_) ?_
    | refine Within.foldl_snd (fun b a => ?_) ?_
    | refine Within.foldl_fst (fun b a => ?_) ?_
    | refine Within.foldl_pair (fun b a => ?_) ?_ (by assumption)
    | fail_if_no_progress refine Within.lit rfl ?_ (h16 := .inr (by decide))
    | split
    | assumption
    | dsimp only

theorem applySafety_within {x0 x1 s} : WithinR 200712 s (applySafety x0 x1 s) := by
  dsimp only [applySafety]
  with_reducible repeat' first
    | apply WithinR.next
    | apply Within.refl
    | apply WithinR.outside
    | apply WithinR.oc
    | apply WithinR.ite
    | apply Within.ite
    | (apply Within.step endDue_within; decide)
    | (apply Within.step State.putB_within; decide)
    | (apply Within.step State.putF_within; decide)
    | refine WithinR.foldl (fun r a h => ?_) ?_
    | refine Within.foldl (fun s a => ?_) ?_
    | refine Within.foldl_snd (fun b a => ?_) ?_
    | refine Within.foldl_fst (fun b a => ?_) ?_
    | refine Within.foldl_pair (fun b a => ?_) ?_ (by assumption)
    | fail_if_no_progress refine Within.lit rfl ?_ (h12 := .inr (by decide)) (h17 := .inr (by decide))
    | split
    | assumption
    | dsimp only

theorem dataRecs_within {k n b s} : WithinR 32 s (dataRecs k n b s) := by
  induction k generalizing b s with
  | zero => exact WithinR.next (Within.refl _ _)
  | succ k ih =>
    unfold dataRecs
    refine WithinR.ite (WithinR.next (Within.refl _ _)) (WithinR.ite WithinR.oc (WithinR.ite WithinR.oc ?_))
    exact WithinR.step ih (by decide) (Within.step State.putBytes_within (by decide) (Within.refl _ _))

theorem codeRecs_within {k n b s} : WithinR 552 s (codeRecs k n b s) := by
  induction k generalizing b s with
  | zero => exact WithinR.next (Within.refl _ _)
  | succ k ih =>
    unfold codeRecs
    dsimp only
    with_reducible repeat' first
      | (apply WithinR.step ih; decide)
      | (apply Within.step State.putBytes_within; decide)
      | (apply Within.step State.wrQ_within; decide)
      | (apply Within.step State.wr_within; decide)
      | apply Within.refl
      | apply WithinR.oc
      | apply WithinR.ite
      | apply WithinR.next
      | fail_if_no_progress refine Within.lit rfl ?_ (h9 := .inr (by decide))
      | split

theorem applyCode_within {x0 x1 s} : WithinR 552 s (applyCode x0 x1 s) := by
  dsimp only [applyCode]
  with_reducible repeat' first
    | apply WithinR.next
    | apply Within.refl
    | (apply WithinR.step codeRecs_within; decide)
    | (refine Within.step (WithinR.get codeRecs_within (by assumption)) (by decide) ?_)
    | (apply Within.step entryDefaults_within; decide)
    | refine WithinR.foldl (fun r a h => ?_) ?_
    | refine Within.foldl (fun s a => ?_) ?_
    | refine Within.foldl_snd (fun b a => ?_) ?_
    | refine Within.foldl_fst (fun b a => ?_) ?_
    | refine Within.foldl_pair (fun b a => ?_) ?_ (by assumption)
    | assumption
    | dsimp only

theorem applyPortEntry_within {x0 s} : WithinR 8 s (applyPortEntry x0 s) := by
  dsimp only [applyPortEntry]
  with_reducible repeat' first
    | apply WithinR.next
    | apply Within.refl
    | apply WithinR.outside
    | apply WithinR.oc
    | apply WithinR.ite
    | apply Within.ite
    | (apply Within.step portStart_within; decide)
    | (apply Within.step State.wrN_within; decide)
    | (apply Within.step State.wrQ_within; decide)
    | (apply Within.step State.putF_within; decide)
    | split
    | dsimp only

theorem applySection_within {x0 x1 s} : WithinR 235050 s (applySection x0 x1 s) := by
  dsimp only [applySection]
  with_reducible repeat' first
    | apply WithinR.next
    | apply Within.refl
    | apply WithinR.outside
    | apply WithinR.ite
    | apply Within.ite
    | refine applyEntries_within (fun a s => ?_) ?_
    | (apply WithinR.step applyPortEntry_within; decide)
    | (refine Within.step (WithinR.get applyPortEntry_within (by assumption)) (by decide) ?_)
    | (apply WithinR.step applyCode_within; decide)
    | (refine Within.step (WithinR.get applyCode_within (by assumption)) (by decide) ?_)
    | (apply WithinR.step dataRecs_within; decide)
    | (refine Within.step (WithinR.get dataRecs_within (by assumption)) (by decide) ?_)
    | (apply WithinR.step applySafety_within; decide)
    | (refine Within.step (WithinR.get applySafety_within (by assumption)) (by decide) ?_)
    | (apply WithinR.step applyLink_within; decide)
    | (refine Within.step (WithinR.get applyLink_within (by assumption)) (by decide) ?_)
    | (apply WithinR.step applyPos_within; decide)
    | (refine Within.step (WithinR.get applyPos_within (by assumption)) (by decide) ?_)
    | (apply WithinR.step applyContext_within; decide)
    | (refine Within.step (WithinR.get applyContext_within (by assumption)) (by decide) ?_)
    | (apply WithinR.step applyTransform_within; decide)
    | (refine Within.step (WithinR.get applyTransform_within (by assumption)) (by decide) ?_)
    | (apply WithinR.step applyTemplate_within; decide)
    | (refine Within.step (WithinR.get applyTemplate_within (by assumption)) (by decide) ?_)
    | (apply WithinR.step applyEmb_within; decide)
    | (refine Within.step (WithinR.get applyEmb_within (by assumption)) (by decide) ?_)
    | (apply WithinR.step applyQueue_within; decide)
    | (refine Within.step (WithinR.get applyQueue_within (by assumption)) (by decide) ?_)
    | (apply WithinR.step applyCoreGroup_within; decide)
    | (refine Within.step (WithinR.get applyCoreGroup_within (by assumption)) (by decide) ?_)
    | (apply WithinR.step applyChannelMode_within; decide)
    | (refine Within.step (WithinR.get applyChannelMode_within (by assumption)) (by decide) ?_)
    | (apply WithinR.step applyPartition_within; decide)
    | (refine Within.step (WithinR.get applyPartition_within (by assumption)) (by decide) ?_)
    | (apply WithinR.step applyChain_within; decide)
    | (refine Within.step (WithinR.get applyChain_within (by assumption)) (by decide) ?_)
    | split
    | dsimp only

theorem warpEnd_within {x0 s} : Within 16777480 s (warpEnd x0 s) := by
  dsimp only [warpEnd]
  with_reducible repeat' first
    | apply Within.refl
    | (apply Within.step State.raise_within; decide)
    | (apply Within.step State.putB_within; decide)
    | (apply Within.step State.putF_within; decide)
    | fail_if_no_progress refine Within.lit rfl ?_ (h8 := .inr (by decide))
    | dsimp only

theorem warpNothing_within {x0 s} : Within 16777480 s (warpNothing x0 s) := by
  dsimp only [warpNothing]
  with_reducible repeat' first
    | apply Within.refl
    | apply Within.ite
    | (apply Within.step warpEnd_within; decide)
    | (apply Within.step State.setStage_within; decide)
    | (apply Within.step State.putF_within; decide)
    | split
    | dsimp only

theorem execWarpApply_within {x0 s} : WithinR 16777480 s (execWarpApply x0 s) := by
  dsimp only [execWarpApply]
  with_reducible repeat' first
    | apply WithinR.next
    | apply Within.refl
    | apply WithinR.outside
    | apply WithinR.oc
    | apply WithinR.ite
    | refine WithinR.hostWrite (fun s => Within.step holdDiscard_within (by decide) (Within.refl _ _)) (fun s => ?_)
    | apply Within.ite
    | (apply Within.step warpEnd_within; decide)
    | (apply Within.step State.setStage_within; decide)
    | (apply Within.step State.putB_within; decide)
    | (apply Within.step State.putF_within; decide)
    | fail_if_no_progress refine Within.lit rfl ?_ (h8 := .inr (by decide))
    | split
    | dsimp only

theorem execWarpCrcCheckDone_within {s} : WithinR 16777480 s (execWarpCrcCheckDone s) := by
  dsimp only [execWarpCrcCheckDone]
  with_reducible repeat' first
    | apply WithinR.next
    | apply Within.refl
    | apply WithinR.outside
    | apply WithinR.ite
    | refine WithinR.onlyIf (fun s => ?_) ?_
    | apply Within.ite
    | (apply Within.step warpNothing_within; decide)
    | fail_if_no_progress refine Within.lit rfl ?_ (h8 := .inr (by decide))
    | split
    | dsimp only

theorem applyImage_within {x0 x1 s} : WithinR 235242 s (applyImage x0 x1 s) := by
  dsimp only [applyImage]
  with_reducible repeat' first
    | apply WithinR.next
    | apply Within.refl
    | apply WithinR.outside
    | apply WithinR.oc
    | apply WithinR.ite
    | refine WithinR.andThen (fun s => ?_) ?_
    | refine WithinR.foldRes (fun a s => ?_) ?_
    | apply Within.ite
    | (apply WithinR.step applySection_within; decide)
    | (refine Within.step (WithinR.get applySection_within (by assumption)) (by decide) ?_)
    | (apply Within.step State.loseComp_within; decide)
    | fail_if_no_progress refine Within.lit rfl ?_ (h9 := .inr (by decide))
    | split
    | dsimp only

theorem fullDone_within {x0 s} : WithinR 153304106 s (fullDone x0 s) := by
  dsimp only [fullDone]
  with_reducible repeat' first
    | apply WithinR.next
    | apply Within.refl
    | apply WithinR.outside
    | apply WithinR.ite
    | refine WithinR.andThen (fun s => ?_) ?_
    | refine WithinR.foldRes (fun a s => ?_) ?_
    | apply Within.ite
    | (apply WithinR.step ptStart_within; decide)
    | (refine Within.step (WithinR.get ptStart_within (by assumption)) (by decide) ?_)
    | (apply Within.step evArm_within; decide)
    | (apply Within.step selvSync_within; decide)
    | (apply Within.step State.wrQ_within; decide)
    | refine WithinR.foldl (fun r a h => ?_) ?_
    | refine Within.foldl (fun s a => ?_) ?_
    | refine Within.foldl_snd (fun b a => ?_) ?_
    | refine Within.foldl_fst (fun b a => ?_) ?_
    | refine Within.foldl_pair (fun b a => ?_) ?_ (by assumption)
    | fail_if_no_progress refine Within.lit rfl ?_ (h17 := .inr (by decide)) (h27 := .inr (by decide))
    | split
    | assumption
    | dsimp only

theorem safetyKept_within {s} : Within 16978440 s (safetyKept s) := by
  dsimp only [safetyKept]
  with_reducible repeat' first
    | apply Within.refl
    | apply Within.ite
    | (apply WithinR.step applySafety_within; decide)
    | (refine Within.step (WithinR.get applySafety_within (by assumption)) (by decide) ?_)
    | (apply Within.step selvSync_within; decide)
    | fail_if_no_progress refine Within.lit rfl ?_ (h9 := .inr (by decide)) (h17 := .inr (by decide))
    | split
    | dsimp only

theorem execWarpApplyDone_within {s} : WithinR 153337834 s (execWarpApplyDone s) := by
  dsimp only [execWarpApplyDone]
  with_reducible repeat' first
    | apply WithinR.next
    | apply Within.refl
    | apply WithinR.outside
    | apply WithinR.ite
    | refine WithinR.onlyIfR (fun s => ?_) ?_
    | refine WithinR.andThen (fun s => ?_) ?_
    | apply Within.ite
    | (apply WithinR.step fullDone_within; decide)
    | (refine Within.step (WithinR.get fullDone_within (by assumption)) (by decide) ?_)
    | (apply WithinR.step applyImage_within; decide)
    | (refine Within.step (WithinR.get applyImage_within (by assumption)) (by decide) ?_)
    | (apply Within.step warpEnd_within; decide)
    | (apply Within.step State.setStage_within; decide)
    | (apply Within.step State.wrN_within; decide)
    | (apply Within.step State.putB_within; decide)
    | (apply Within.step State.putF_within; decide)
    | split
    | dsimp only

theorem capture_within {x0 x1 s} : Within 16 s (capture x0 x1 s) := by
  dsimp only [capture]
  with_reducible repeat' first
    | apply Within.refl
    | fail_if_no_progress refine Within.lit rfl ?_ (h4 := .inr (by decide))
    | dsimp only

theorem markRead_within {x0 x1 s} : Within 16 s (markRead x0 x1 s) := by
  dsimp only [markRead]
  with_reducible repeat' first
    | apply Within.refl
    | apply Within.ite
    | fail_if_no_progress refine Within.lit rfl ?_ (h4 := .inr (by decide))
    | split
    | dsimp only

theorem readMark_within {x0 s} : Within 16 s (readMark x0 s) := by
  dsimp only [readMark]
  with_reducible repeat' first
    | apply Within.refl
    | apply Within.ite
    | (apply Within.step markRead_within; decide)
    | (apply Within.step capture_within; decide)
    | split
    | dsimp only

theorem readShadows_within {x0 x1 s} : Within 16 s (readShadows x0 x1 s) := by
  dsimp only [readShadows]
  with_reducible repeat' first
    | apply Within.refl
    | apply Within.ite
    | (apply Within.step readMark_within; decide)
    | split
    | dsimp only

theorem execBar0MultiwordRead_within {x0 x1 s} : WithinR 33554448 s (execBar0MultiwordRead x0 x1 s) := by
  dsimp only [execBar0MultiwordRead]
  with_reducible repeat' first
    | apply WithinR.next
    | apply Within.refl
    | apply WithinR.outside
    | apply WithinR.oc
    | apply WithinR.ite
    | apply Within.ite
    | refine hostRead_within (by decide) (fun s => ?_)
    | (apply Within.step readShadows_within; decide)
    | (apply Within.step State.answer_within; decide)
    | split
    | dsimp only

theorem w1cClear_within {s x1} : Within 8 s (w1cClear s x1) := by
  dsimp only [w1cClear]
  with_reducible repeat' first
    | apply Within.refl
    | (apply Within.step State.wr_within; decide)
    | dsimp only

theorem plainWrite_within {x0 x1 s} : Within 8 s (plainWrite x0 x1 s) := by
  dsimp only [plainWrite]
  with_reducible repeat' first
    | apply Within.refl
    | (apply Within.step State.putRw_within; decide)
    | dsimp only

theorem discardIf_within {x0 x1 x2 s} : WithinR 8 s (discardIf x0 x1 x2 s) := by
  dsimp only [discardIf]
  with_reducible repeat' first
    | apply WithinR.next
    | apply Within.refl
    | apply WithinR.outside
    | apply WithinR.ite
    | apply Within.ite
    | (apply Within.step plainWrite_within; decide)
    | split
    | dsimp only

theorem doIf_within {M v i f s0 s} (hf : ∀ s, WithinR M s (f s)) (h : Within M s0 s) : WithinR M s0 (doIf v i f s) :=
  WithinR.ite (WithinR.step (hf s) (Nat.and_self M) h) (WithinR.next h)

theorem writeGlobal_within {x0 x1 s} : WithinR 220461352 s (writeGlobal x0 x1 s) := by
  dsimp only [writeGlobal]
  with_reducible repeat' first
    | apply WithinR.next
    | apply Within.refl
    | apply WithinR.outside
    | apply WithinR.oc
    | apply WithinR.ite
    | apply Within.ite
    | refine doIf_within (fun s => ?_) ?_
    | (apply Within.step plainWrite_within; decide)
    | (apply WithinR.step execWarpApply_within; decide)
    | (refine Within.step (WithinR.get execWarpApply_within (by assumption)) (by decide) ?_)
    | (apply WithinR.step execPtDisable_within; decide)
    | (refine Within.step (WithinR.get execPtDisable_within (by assumption)) (by decide) ?_)
    | (apply WithinR.step execPtEnable_within; decide)
    | (refine Within.step (WithinR.get execPtEnable_within (by assumption)) (by decide) ?_)
    | split
    | dsimp only

theorem writeTimeCtrl_within {x0 s} : WithinR 1032 s (writeTimeCtrl x0 s) := by
  dsimp only [writeTimeCtrl]
  with_reducible repeat' first
    | apply WithinR.next
    | apply Within.refl
    | apply WithinR.outside
    | apply WithinR.ite
    | refine WithinR.andThen (fun s => ?_) ?_
    | apply Within.ite
    | refine doIf_within (fun s => ?_) ?_
    | (apply WithinR.step execTimeSnap_within; decide)
    | (refine Within.step (WithinR.get execTimeSnap_within (by assumption)) (by decide) ?_)
    | (apply WithinR.step execTimeStep_within; decide)
    | (refine Within.step (WithinR.get execTimeStep_within (by assumption)) (by decide) ?_)
    | (apply WithinR.step execTimeSet_within; decide)
    | (refine Within.step (WithinR.get execTimeSet_within (by assumption)) (by decide) ?_)
    | (apply Within.step timeSync_within; decide)
    | (apply Within.step State.putRw_within; decide)
    | split
    | dsimp only

theorem writeTime_within {x0 x1 s} : WithinR 1032 s (writeTime x0 x1 s) := by
  dsimp only [writeTime]
  with_reducible repeat' first
    | apply WithinR.next
    | apply Within.refl
    | apply WithinR.outside
    | apply WithinR.ite
    | apply Within.ite
    | (apply WithinR.step writeTimeCtrl_within; decide)
    | (refine Within.step (WithinR.get writeTimeCtrl_within (by assumption)) (by decide) ?_)
    | (apply Within.step plainWrite_within; decide)
    | (apply WithinR.step execTimeTrimWrite_within; decide)
    | (refine Within.step (WithinR.get execTimeTrimWrite_within (by assumption)) (by decide) ?_)
    | split
    | dsimp only

theorem writeRefCtrl_within {x0 x1 s} : WithinR 134222890 s (writeRefCtrl x0 x1 s) := by
  dsimp only [writeRefCtrl]
  with_reducible repeat' first
    | apply WithinR.next
    | apply Within.refl
    | apply WithinR.outside
    | apply WithinR.ite
    | refine WithinR.andThen (fun s => ?_) ?_
    | apply Within.ite
    | refine doIf_within (fun s => ?_) ?_
    | (apply WithinR.step execRefDisarm_within; decide)
    | (refine Within.step (WithinR.get execRefDisarm_within (by assumption)) (by decide) ?_)
    | (apply WithinR.step execRefArm_within; decide)
    | (refine Within.step (WithinR.get execRefArm_within (by assumption)) (by decide) ?_)
    | (apply WithinR.step execLoadNow_within; decide)
    | (refine Within.step (WithinR.get execLoadNow_within (by assumption)) (by decide) ?_)
    | (apply Within.step State.putRw_within; decide)
    | split
    | dsimp only

theorem writePick_within {x0 x1 x2 s} : WithinR 134222890 s (writePick x0 x1 x2 s) := by
  dsimp only [writePick]
  with_reducible repeat' first
    | apply WithinR.next
    | apply Within.refl
    | apply WithinR.outside
    | apply WithinR.ite
    | apply Within.ite
    | (apply WithinR.step writeRefCtrl_within; decide)
    | (refine Within.step (WithinR.get writeRefCtrl_within (by assumption)) (by decide) ?_)
    | (apply WithinR.step discardIf_within; decide)
    | (refine Within.step (WithinR.get discardIf_within (by assumption)) (by decide) ?_)
    | (apply Within.step plainWrite_within; decide)
    | (apply WithinR.step execPosPkCfgWrite_within; decide)
    | (refine Within.step (WithinR.get execPosPkCfgWrite_within (by assumption)) (by decide) ?_)
    | split
    | dsimp only

theorem writeEvent_within {x0 x1 x2 s} : WithinR 134222890 s (writeEvent x0 x1 x2 s) := by
  dsimp only [writeEvent]
  with_reducible repeat' first
    | apply WithinR.next
    | apply Within.refl
    | apply WithinR.outside
    | apply WithinR.ite
    | apply Within.ite
    | refine doIf_within (fun s => ?_) ?_
    | (apply Within.step plainWrite_within; decide)
    | (apply WithinR.step execPosEvDisarm_within; decide)
    | (refine Within.step (WithinR.get execPosEvDisarm_within (by assumption)) (by decide) ?_)
    | (apply WithinR.step execPosEvArm_within; decide)
    | (refine Within.step (WithinR.get execPosEvArm_within (by assumption)) (by decide) ?_)
    | (apply Within.step trigSync_within; decide)
    | (apply Within.step State.putB_within; decide)
    | split
    | dsimp only

theorem writePos_within {x0 x1 s} : WithinR 134222890 s (writePos x0 x1 s) := by
  dsimp only [writePos]
  with_reducible repeat' first
    | apply WithinR.next
    | apply Within.refl
    | apply WithinR.outside
    | apply WithinR.ite
    | apply Within.ite
    | refine doIf_within (fun s => ?_) ?_
    | (apply WithinR.step writeEvent_within; decide)
    | (refine Within.step (WithinR.get writeEvent_within (by assumption)) (by decide) ?_)
    | (apply WithinR.step writePick_within; decide)
    | (refine Within.step (WithinR.get writePick_within (by assumption)) (by decide) ?_)
    | (apply Within.step plainWrite_within; decide)
    | (apply WithinR.step execPosEdgePop_within; decide)
    | (refine Within.step (WithinR.get execPosEdgePop_within (by assumption)) (by decide) ?_)
    | split
    | dsimp only

theorem writeTxts_within {x0 x1 s} : Within 16777224 s (writeTxts x0 x1 s) := by
  dsimp only [writeTxts]
  with_reducible repeat' first
    | apply Within.refl
    | apply Within.ite
    | (apply Within.step plainWrite_within; decide)
    | (apply Within.step State.raise_within; decide)
    | split
    | dsimp only

theorem writeEth_within {x0 x1 s} : WithinR 16781320 s (writeEth x0 x1 s) := by
  dsimp only [writeEth]
  with_reducible repeat' first
    | apply WithinR.next
    | apply Within.refl
    | apply WithinR.outside
    | apply WithinR.ite
    | apply Within.ite
    | refine doIf_within (fun s => ?_) ?_
    | (apply Within.step writeTxts_within; decide)
    | (apply WithinR.step discardIf_within; decide)
    | (refine Within.step (WithinR.get discardIf_within (by assumption)) (by decide) ?_)
    | (apply Within.step plainWrite_within; decide)
    | (apply WithinR.step execEthTxtsPop_within; decide)
    | (refine Within.step (WithinR.get execEthTxtsPop_within (by assumption)) (by decide) ?_)
    | (apply WithinR.step execEthPortDisable_within; decide)
    | (refine Within.step (WithinR.get execEthPortDisable_within (by assumption)) (by decide) ?_)
    | (apply WithinR.step execEthPortEnable_within; decide)
    | (refine Within.step (WithinR.get execEthPortEnable_within (by assumption)) (by decide) ?_)
    | split
    | dsimp only

theorem writeIntake_within {x0 x1 s} : WithinR 134221864 s (writeIntake x0 x1 s) := by
  dsimp only [writeIntake]
  with_reducible repeat' first
    | apply WithinR.next
    | apply Within.refl
    | apply WithinR.outside
    | apply WithinR.ite
    | apply Within.ite
    | refine doIf_within (fun s => ?_) ?_
    | (apply Within.step plainWrite_within; decide)
    | (apply WithinR.step execIntakeGridFlip_within; decide)
    | (refine Within.step (WithinR.get execIntakeGridFlip_within (by assumption)) (by decide) ?_)
    | split
    | dsimp only

theorem writeQueue_within {x0 x1 s} : WithinR 86124552 s (writeQueue x0 x1 s) := by
  dsimp only [writeQueue]
  with_reducible repeat' first
    | apply WithinR.next
    | apply Within.refl
    | apply WithinR.outside
    | apply WithinR.oc
    | apply WithinR.ite
    | refine WithinR.andThen (fun s => ?_) ?_
    | apply Within.ite
    | refine doIf_within (fun s => ?_) ?_
    | (apply WithinR.step discardIf_within; decide)
    | (refine Within.step (WithinR.get discardIf_within (by assumption)) (by decide) ?_)
    | (apply Within.step plainWrite_within; decide)
    | (apply WithinR.step execQueueIrqWrite_within; decide)
    | (refine Within.step (WithinR.get execQueueIrqWrite_within (by assumption)) (by decide) ?_)
    | (apply WithinR.step execQueueRelease_within; decide)
    | (refine Within.step (WithinR.get execQueueRelease_within (by assumption)) (by decide) ?_)
    | (apply WithinR.step execQueueDoorbell_within; decide)
    | (refine Within.step (WithinR.get execQueueDoorbell_within (by assumption)) (by decide) ?_)
    | (apply WithinR.step execQueueFlush_within; decide)
    | (refine Within.step (WithinR.get execQueueFlush_within (by assumption)) (by decide) ?_)
    | (apply WithinR.step execQueueDisable_within; decide)
    | (refine Within.step (WithinR.get execQueueDisable_within (by assumption)) (by decide) ?_)
    | (apply WithinR.step execQueueEnable_within; decide)
    | (refine Within.step (WithinR.get execQueueEnable_within (by assumption)) (by decide) ?_)
    | split
    | dsimp only

theorem writeCore_within {x0 x1 s} : WithinR 86009864 s (writeCore x0 x1 s) := by
  dsimp only [writeCore]
  with_reducible repeat' first
    | apply WithinR.next
    | apply Within.refl
    | apply WithinR.outside
    | apply WithinR.ite
    | refine WithinR.andThen (fun s => ?_) ?_
    | apply Within.ite
    | refine doIf_within (fun s => ?_) ?_
    | (apply WithinR.step discardIf_within; decide)
    | (refine Within.step (WithinR.get discardIf_within (by assumption)) (by decide) ?_)
    | (apply Within.step plainWrite_within; decide)
    | (apply WithinR.step execCoreWakeCmd_within; decide)
    | (refine Within.step (WithinR.get execCoreWakeCmd_within (by assumption)) (by decide) ?_)
    | (apply WithinR.step execCoreDisable_within; decide)
    | (refine Within.step (WithinR.get execCoreDisable_within (by assumption)) (by decide) ?_)
    | (apply WithinR.step execCoreEnable_within; decide)
    | (refine Within.step (WithinR.get execCoreEnable_within (by assumption)) (by decide) ?_)
    | split
    | dsimp only

theorem writeMem_within {x0 x1 s} : WithinR 134234152 s (writeMem x0 x1 s) := by
  dsimp only [writeMem]
  with_reducible repeat' first
    | apply WithinR.next
    | apply Within.refl
    | apply WithinR.outside
    | apply WithinR.ite
    | apply Within.ite
    | refine doIf_within (fun s => ?_) ?_
    | (apply Within.step plainWrite_within; decide)
    | (apply WithinR.step execMemToProcessor_within; decide)
    | (refine Within.step (WithinR.get execMemToProcessor_within (by assumption)) (by decide) ?_)
    | (apply WithinR.step execMemToMemory_within; decide)
    | (refine Within.step (WithinR.get execMemToMemory_within (by assumption)) (by decide) ?_)
    | split
    | dsimp only

theorem writeEmb_within {x0 x1 s} : WithinR 134463656 s (writeEmb x0 x1 s) := by
  dsimp only [writeEmb]
  with_reducible repeat' first
    | apply WithinR.next
    | apply Within.refl
    | apply WithinR.outside
    | apply WithinR.ite
    | refine WithinR.andThen (fun s => ?_) ?_
    | apply Within.ite
    | refine doIf_within (fun s => ?_) ?_
    | (apply WithinR.step discardIf_within; decide)
    | (refine Within.step (WithinR.get discardIf_within (by assumption)) (by decide) ?_)
    | (apply Within.step plainWrite_within; decide)
    | (apply WithinR.step execEmbMoveGo_within; decide)
    | (refine Within.step (WithinR.get execEmbMoveGo_within (by assumption)) (by decide) ?_)
    | (apply WithinR.step execClearRedirects_within; decide)
    | (refine Within.step (WithinR.get execClearRedirects_within (by assumption)) (by decide) ?_)
    | (apply WithinR.step execEmbFence_within; decide)
    | (refine Within.step (WithinR.get execEmbFence_within (by assumption)) (by decide) ?_)
    | (apply WithinR.step execEmbTabCurWrite_within; decide)
    | (refine Within.step (WithinR.get execEmbTabCurWrite_within (by assumption)) (by decide) ?_)
    | split
    | dsimp only

theorem writeLink_within {x0 x1 s} : WithinR 66568 s (writeLink x0 x1 s) := by
  dsimp only [writeLink]
  with_reducible repeat' first
    | apply WithinR.next
    | apply Within.refl
    | apply WithinR.outside
    | apply WithinR.ite
    | refine WithinR.andThen (fun s => ?_) ?_
    | apply Within.ite
    | refine doIf_within (fun s => ?_) ?_
    | (apply WithinR.step discardIf_within; decide)
    | (refine Within.step (WithinR.get discardIf_within (by assumption)) (by decide) ?_)
    | (apply Within.step plainWrite_within; decide)
    | (apply WithinR.step execLinkRetrain_within; decide)
    | (refine Within.step (WithinR.get execLinkRetrain_within (by assumption)) (by decide) ?_)
    | (apply WithinR.step execLinkDisable_within; decide)
    | (refine Within.step (WithinR.get execLinkDisable_within (by assumption)) (by decide) ?_)
    | (apply WithinR.step execLinkEnable_within; decide)
    | (refine Within.step (WithinR.get execLinkEnable_within (by assumption)) (by decide) ?_)
    | (apply Within.step routeWritten_within; decide)
    | split
    | dsimp only

theorem writeSelv_within {x0 x1 s} : WithinR 88211466 s (writeSelv x0 x1 s) := by
  dsimp only [writeSelv]
  with_reducible repeat' first
    | apply WithinR.next
    | apply Within.refl
    | apply WithinR.outside
    | apply WithinR.ite
    | apply Within.ite
    | (apply Within.step plainWrite_within; decide)
    | (apply WithinR.step execEnterSafe_within; decide)
    | (refine Within.step (WithinR.get execEnterSafe_within (by assumption)) (by decide) ?_)
    | (apply WithinR.step execClearSafe_within; decide)
    | (refine Within.step (WithinR.get execClearSafe_within (by assumption)) (by decide) ?_)
    | (apply WithinR.step execGetChallenge_within; decide)
    | (refine Within.step (WithinR.get execGetChallenge_within (by assumption)) (by decide) ?_)
    | split
    | dsimp only

theorem writeTrace_within {x0 x1 s} : WithinR 2097160 s (writeTrace x0 x1 s) := by
  dsimp only [writeTrace]
  with_reducible repeat' first
    | apply WithinR.next
    | apply Within.refl
    | apply WithinR.outside
    | apply WithinR.ite
    | refine WithinR.andThen (fun s => ?_) ?_
    | apply Within.ite
    | refine doIf_within (fun s => ?_) ?_
    | (apply WithinR.step discardIf_within; decide)
    | (refine Within.step (WithinR.get discardIf_within (by assumption)) (by decide) ?_)
    | (apply Within.step plainWrite_within; decide)
    | (apply WithinR.step execPmcSnap_within; decide)
    | (refine Within.step (WithinR.get execPmcSnap_within (by assumption)) (by decide) ?_)
    | (apply WithinR.step execPmcClear_within; decide)
    | (refine Within.step (WithinR.get execPmcClear_within (by assumption)) (by decide) ?_)
    | (apply WithinR.step markWrite_within; decide)
    | (refine Within.step (WithinR.get markWrite_within (by assumption)) (by decide) ?_)
    | (apply WithinR.step traceCtrlWrite_within; decide)
    | (refine Within.step (WithinR.get traceCtrlWrite_within (by assumption)) (by decide) ?_)
    | (apply Within.step traceFull_within; decide)
    | split
    | dsimp only

theorem writeMgmt_within {x0 x1 s} : WithinR 8 s (writeMgmt x0 x1 s) := by
  dsimp only [writeMgmt]
  with_reducible repeat' first
    | apply WithinR.next
    | apply Within.refl
    | apply WithinR.outside
    | apply WithinR.ite
    | refine WithinR.andThen (fun s => ?_) ?_
    | apply Within.ite
    | refine doIf_within (fun s => ?_) ?_
    | (apply WithinR.step discardIf_within; decide)
    | (refine Within.step (WithinR.get discardIf_within (by assumption)) (by decide) ?_)
    | (apply Within.step plainWrite_within; decide)
    | (apply WithinR.step execB2hAck_within; decide)
    | (refine Within.step (WithinR.get execB2hAck_within (by assumption)) (by decide) ?_)
    | (apply WithinR.step execH2bPost_within; decide)
    | (refine Within.step (WithinR.get execH2bPost_within (by assumption)) (by decide) ?_)
    | split
    | dsimp only

theorem writeBlk_within {x0 x1 x2 s} : WithinR 224656810 s (writeBlk x0 x1 x2 s) := by
  dsimp only [writeBlk]
  with_reducible repeat' first
    | apply WithinR.next
    | apply Within.refl
    | apply WithinR.outside
    | apply WithinR.ite
    | apply Within.ite
    | (apply WithinR.step writeMgmt_within; decide)
    | (refine Within.step (WithinR.get writeMgmt_within (by assumption)) (by decide) ?_)
    | (apply WithinR.step writeTrace_within; decide)
    | (refine Within.step (WithinR.get writeTrace_within (by assumption)) (by decide) ?_)
    | (apply WithinR.step writeSelv_within; decide)
    | (refine Within.step (WithinR.get writeSelv_within (by assumption)) (by decide) ?_)
    | (apply WithinR.step writeLink_within; decide)
    | (refine Within.step (WithinR.get writeLink_within (by assumption)) (by decide) ?_)
    | (apply WithinR.step writeEmb_within; decide)
    | (refine Within.step (WithinR.get writeEmb_within (by assumption)) (by decide) ?_)
    | (apply WithinR.step writeMem_within; decide)
    | (refine Within.step (WithinR.get writeMem_within (by assumption)) (by decide) ?_)
    | (apply WithinR.step writeCore_within; decide)
    | (refine Within.step (WithinR.get writeCore_within (by assumption)) (by decide) ?_)
    | (apply WithinR.step writeQueue_within; decide)
    | (refine Within.step (WithinR.get writeQueue_within (by assumption)) (by decide) ?_)
    | (apply WithinR.step writeIntake_within; decide)
    | (refine Within.step (WithinR.get writeIntake_within (by assumption)) (by decide) ?_)
    | (apply WithinR.step writeEth_within; decide)
    | (refine Within.step (WithinR.get writeEth_within (by assumption)) (by decide) ?_)
    | (apply WithinR.step writePos_within; decide)
    | (refine Within.step (WithinR.get writePos_within (by assumption)) (by decide) ?_)
    | (apply WithinR.step writeTime_within; decide)
    | (refine Within.step (WithinR.get writeTime_within (by assumption)) (by decide) ?_)
    | (apply WithinR.step writeGlobal_within; decide)
    | (refine Within.step (WithinR.get writeGlobal_within (by assumption)) (by decide) ?_)
    | (apply Within.step plainWrite_within; decide)
    | split
    | dsimp only

theorem writeWord_within {x0 x1 s} : WithinR 224656810 s (writeWord x0 x1 s) := by
  dsimp only [writeWord]
  with_reducible repeat' first
    | apply WithinR.next
    | apply Within.refl
    | apply WithinR.outside
    | apply WithinR.ite
    | apply Within.ite
    | (apply WithinR.step writeBlk_within; decide)
    | (refine Within.step (WithinR.get writeBlk_within (by assumption)) (by decide) ?_)
    | (apply WithinR.step execTraceFreeze_within; decide)
    | (refine Within.step (WithinR.get execTraceFreeze_within (by assumption)) (by decide) ?_)
    | split
    | dsimp only

theorem windowsJudged_within {x0 x1 s} : WithinR 0 s (windowsJudged x0 x1 s) := by
  dsimp only [windowsJudged]
  with_reducible repeat' first
    | apply WithinR.next
    | apply Within.refl
    | apply WithinR.outside
    | apply WithinR.oc
    | apply WithinR.ite
    | apply Within.ite
    | split
    | dsimp only

theorem writeWords_within {x0 x1 s} : WithinR 224656810 s (writeWords x0 x1 s) := by
  dsimp only [writeWords]
  with_reducible repeat' first
    | apply WithinR.next
    | apply Within.refl
    | apply WithinR.outside
    | apply WithinR.oc
    | apply WithinR.ite
    | refine WithinR.andThen (fun s => ?_) ?_
    | apply Within.ite
    | (apply WithinR.step windowsJudged_within; decide)
    | (refine Within.step (WithinR.get windowsJudged_within (by assumption)) (by decide) ?_)
    | (apply WithinR.step writeWord_within; decide)
    | (refine Within.step (WithinR.get writeWord_within (by assumption)) (by decide) ?_)
    | (apply Within.step w1cClear_within; decide)
    | refine WithinR.foldl (fun r a h => ?_) ?_
    | refine Within.foldl (fun s a => ?_) ?_
    | refine Within.foldl_snd (fun b a => ?_) ?_
    | refine Within.foldl_fst (fun b a => ?_) ?_
    | refine Within.foldl_pair (fun b a => ?_) ?_ (by assumption)
    | split
    | assumption
    | dsimp only

theorem execBar0Write_within {x0 x1 x2 x3 s} : WithinR 224918954 s (execBar0Write x0 x1 x2 x3 s) := by
  dsimp only [execBar0Write]
  with_reducible repeat' first
    | apply WithinR.next
    | apply Within.refl
    | apply WithinR.outside
    | apply WithinR.oc
    | apply WithinR.ite
    | refine WithinR.hostWrite (fun s => Within.step holdDiscard_within (by decide) (Within.refl _ _)) (fun s => ?_)
    | apply Within.ite
    | (apply WithinR.step writeWords_within; decide)
    | (refine Within.step (WithinR.get writeWords_within (by assumption)) (by decide) ?_)
    | (apply Within.step poisonedWrite_within; decide)
    | split
    | dsimp only

end Sys2Proof.Machine
end

