-- ==== Sys2Proof/Laws/FrameCore.lean ====
section
/-! SUPPORT. Within which fields of the state each operation stays: the fields of a word and its issue. A theorem `f_within` names the fields by its mask. -/

set_option linter.unreachableTactic false
set_option linter.unusedTactic false

namespace Sys2Proof.Machine

set_option Elab.async false

theorem takePwr_within {x0 s} : Within 8192 s (takePwr x0 s) := by
  dsimp only [takePwr]
  with_reducible repeat' first
    | apply Within.refl
    | (apply Within.step setCore_within; decide)
    | dsimp only

theorem brSleep_within {x0 x1 x2 x3 s} : Within 8192 s (brSleep x0 x1 x2 x3 s) := by
  dsimp only [brSleep]
  with_reducible repeat' first
    | apply Within.refl
    | apply Within.ite
    | (apply Within.step takePwr_within; decide)
    | (apply Within.step setCore_within; decide)
    | split
    | dsimp only

theorem brGbar_within {x0 x1 x2 s} : Within 85991432 s (brGbar x0 x1 x2 s) := by
  dsimp only [brGbar]
  with_reducible repeat' first
    | apply Within.refl
    | apply Within.ite
    | (apply Within.step gbarCheck_within; decide)
    | (apply Within.step wordDone_within; decide)
    | (apply Within.step setCore_within; decide)
    | (apply Within.step State.putB_within; decide)
    | split
    | dsimp only

theorem scaSys_within {x0 x1 x2 s} : Within 8192 s (scaSys x0 x1 x2 s) := by
  dsimp only [scaSys]
  with_reducible repeat' first
    | apply Within.refl
    | apply Within.ite
    | (apply Within.step setCore_within; decide)
    | split
    | dsimp only

theorem writeGroups_within {base cap ls g hit s} : Within 134217760 s (writeGroups base cap ls g hit s).2.2.2 := by
  induction ls generalizing g hit s with
  | nil => exact Within.refl _ _
  | cons l ls ih => exact Within.step ih (by decide) (Within.step putEngine_within (by decide) (Within.refl _ _))

theorem countPairs_within {x0 x1 s} : Within 8 s (countPairs x0 x1 s) := by
  dsimp only [countPairs]
  with_reducible repeat' first
    | apply Within.refl
    | (apply Within.step pmcCount_within; decide)
    | (apply Within.step State.wrQ_within; decide)
    | dsimp only

theorem runMatch_within {x0 x1 x2 s} : Within 134217768 s (runMatch x0 x1 x2 s).2 := by
  dsimp only [runMatch]
  with_reducible repeat' first
    | apply Within.refl
    | apply Within.ite
    | (apply Within.step countPairs_within; decide)
    | refine Within.step (Within.of_pair4 (by assumption) writeGroups_within) (by decide) ?_
    | (apply Within.step writeGroups_within; decide)
    | (apply Within.step State.putB_within; decide)
    | split
    | dsimp only

theorem nzBrick_within {x0 x1 x2 s x4} : Within 134217760 s (nzBrick x0 x1 x2 s x4) := by
  dsimp only [nzBrick]
  with_reducible repeat' first
    | apply Within.refl
    | (apply Within.step putEngine_within; decide)
    | dsimp only

theorem runNzmap_within {x0 s} : Within 134217760 s (runNzmap x0 s) := by
  dsimp only [runNzmap]
  with_reducible repeat' first
    | apply Within.refl
    | (apply Within.step nzBrick_within; decide)
    | refine Within.foldl (fun s a => ?_) ?_
    | refine Within.foldl_snd (fun b a => ?_) ?_
    | refine Within.foldl_fst (fun b a => ?_) ?_
    | refine Within.foldl_pair (fun b a => ?_) ?_ (by assumption)
    | assumption
    | dsimp only

theorem markRan_within {x0 x1 x2 s} : Within 8192 s (markRan x0 x1 x2 s) := by
  dsimp only [markRan]
  with_reducible repeat' first
    | apply Within.refl
    | apply Within.ite
    | (apply Within.step setCore_within; decide)
    | split
    | dsimp only

theorem runJob_within {M kind k f s} (hM : Nat.land 8192 M = 8192) (hf : ∀ d s, Within M s (f d s).2) : WithinR M s (runJob kind k f s) := by
  unfold runJob
  split
  · exact WithinR.next (Within.refl _ _)
  · refine WithinR.onlyIfR (fun s => ?_) (Within.refl _ _)
    split
    · exact WithinR.oc
    · exact WithinR.next (Within.step markRan_within hM (Within.step (hf _ _) (Nat.and_self M) (Within.refl _ _)))

theorem execMatchSparse_within {x0 s} : WithinR 134225960 s (execMatchSparse x0 s) := by
  dsimp only [execMatchSparse]
  with_reducible repeat' first
    | apply WithinR.next
    | apply Within.refl
    | refine runJob_within (by decide) (fun d s => ?_)
    | refine Within.step (Within.of_pair (by assumption) runMatch_within) (by decide) ?_
    | (apply Within.step runMatch_within; decide)
    | dsimp only

theorem execMatchDense_within {x0 s} : WithinR 134225960 s (execMatchDense x0 s) := by
  dsimp only [execMatchDense]
  with_reducible repeat' first
    | apply WithinR.next
    | apply Within.refl
    | refine runJob_within (by decide) (fun d s => ?_)
    | refine Within.step (Within.of_pair (by assumption) runMatch_within) (by decide) ?_
    | (apply Within.step runMatch_within; decide)
    | dsimp only

theorem execNzmap_within {x0 s} : WithinR 134225952 s (execNzmap x0 s) := by
  dsimp only [execNzmap]
  with_reducible repeat' first
    | apply WithinR.next
    | apply Within.refl
    | refine runJob_within (by decide) (fun d s => ?_)
    | (apply Within.step runNzmap_within; decide)
    | dsimp only

theorem endJob_within {x0 x1 x2 x3 s} : Within 220358824 s (endJob x0 x1 x2 x3 s) := by
  dsimp only [endJob]
  with_reducible repeat' first
    | apply Within.refl
    | apply Within.ite
    | (apply Within.step dmaCommit_within; decide)
    | (apply Within.step putEngine_within; decide)
    | (apply Within.step setCore_within; decide)
    | (apply Within.step State.sat_within; decide)
    | (apply Within.step State.putB_within; decide)
    | split
    | dsimp only

theorem execSparseJobComplete_within {x0 s} : WithinR 220358824 s (execSparseJobComplete x0 s) := by
  dsimp only [execSparseJobComplete]
  with_reducible repeat' first
    | apply WithinR.next
    | apply Within.refl
    | apply WithinR.outside
    | apply WithinR.ite
    | refine WithinR.onlyIfR (fun s => ?_) ?_
    | apply Within.ite
    | refine engAccess_within (by decide) (fun s => ?_) ?_
    | (apply Within.step endJob_within; decide)
    | split
    | dsimp only

theorem qTrace_within {x0 x1 x2 x3 x4 s} : Within 2097160 s (qTrace x0 x1 x2 x3 x4 s) := by
  dsimp only [qTrace]
  with_reducible repeat' first
    | apply Within.refl
    | apply Within.ite
    | (apply Within.step traceFiltered_within; decide)
    | split
    | dsimp only

theorem tqQres_within {x0 x1 s} : WithinQ 69208072 s (tqQres x0 x1 s) := by
  dsimp only [tqQres]
  with_reducible repeat' first
    | apply Within.refl
    | apply WithinQ.done
    | apply WithinQ.refused
    | apply WithinQ.blocks
    | apply Within.ite
    | (apply Within.step qTrace_within; decide)
    | (apply Within.step qReserve_within; decide)
    | (apply Within.step State.tickFree_within; decide)
    | (apply Within.step State.sat_within; decide)
    | split
    | dsimp only

theorem tqQacq_within {x0 x1 s} : WithinQ 2097160 s (tqQacq x0 x1 s) := by
  dsimp only [tqQacq]
  with_reducible repeat' first
    | apply Within.refl
    | apply WithinQ.done
    | apply WithinQ.refused
    | apply WithinQ.blocks
    | apply Within.ite
    | (apply Within.step qTrace_within; decide)
    | split
    | dsimp only

theorem tqQcmt_within {x0 x1 x2 s} : WithinQ 86124552 s (tqQcmt x0 x1 x2 s) := by
  dsimp only [tqQcmt]
  with_reducible repeat' first
    | apply Within.refl
    | apply WithinQ.done
    | apply WithinQ.refused
    | apply WithinQ.blocks
    | apply Within.ite
    | (apply Within.step qTrace_within; decide)
    | (apply Within.step qCommit_within; decide)
    | split
    | dsimp only

theorem tqQrel_within {x0 x1 x2 s} : WithinQ 2097160 s (tqQrel x0 x1 x2 s) := by
  dsimp only [tqQrel]
  with_reducible repeat' first
    | apply Within.refl
    | apply WithinQ.done
    | apply WithinQ.refused
    | apply WithinQ.blocks
    | apply Within.ite
    | (apply Within.step qTrace_within; decide)
    | (apply Within.step qRel_within; decide)
    | split
    | dsimp only

theorem tqQwait_within {x0 x1 x2 x3 s} : WithinQ 8192 s (tqQwait x0 x1 x2 x3 s) := by
  dsimp only [tqQwait]
  with_reducible repeat' first
    | apply Within.refl
    | apply WithinQ.done
    | apply WithinQ.refused
    | apply WithinQ.blocks
    | apply Within.ite
    | (apply Within.step takePwr_within; decide)
    | (apply Within.step setCore_within; decide)
    | split
    | dsimp only

theorem tqTrd_within {x0 x1 x2 s} : WithinQ 0 s (tqTrd x0 x1 x2 s) := by
  dsimp only [tqTrd]
  with_reducible repeat' first
    | apply Within.refl
    | apply WithinQ.done
    | apply WithinQ.refused
    | apply WithinQ.blocks
    | apply Within.ite
    | split
    | dsimp only

theorem tqTrdt_within {x0 x1 x2 s} : WithinQ 0 s (tqTrdt x0 x1 x2 s) := by
  dsimp only [tqTrdt]
  with_reducible repeat' first
    | apply Within.refl
    | apply WithinQ.done
    | apply WithinQ.refused
    | apply WithinQ.blocks
    | dsimp only

theorem tqTpop_within {x0 x1 s} : WithinQ 8200 s (tqTpop x0 x1 s) := by
  dsimp only [tqTpop]
  with_reducible repeat' first
    | apply Within.refl
    | apply WithinQ.done
    | apply WithinQ.refused
    | apply WithinQ.blocks
    | (apply Within.step setArr_within; decide)
    | (apply Within.step State.putF_within; decide)
    | dsimp only

theorem tqTstat_within {x0 x1 s} : WithinQ 0 s (tqTstat x0 x1 s) := by
  dsimp only [tqTstat]
  with_reducible repeat' first
    | apply Within.refl
    | apply WithinQ.done
    | apply WithinQ.refused
    | apply WithinQ.blocks
    | dsimp only

theorem tqEffect_within {x0 x1 x2 x3 s} : WithinQ 86124552 s (tqEffect x0 x1 x2 x3 s) := by
  dsimp only [tqEffect]
  with_reducible repeat' first
    | apply Within.refl
    | apply WithinQ.done
    | apply WithinQ.refused
    | apply WithinQ.blocks
    | apply Within.ite
    | refine Within.step (WithinQ.get tqTstat_within (by assumption)) (by decide) ?_
    | (apply WithinQ.step tqTstat_within; decide)
    | refine Within.step (WithinQ.get tqTpop_within (by assumption)) (by decide) ?_
    | (apply WithinQ.step tqTpop_within; decide)
    | refine Within.step (WithinQ.get tqTrdt_within (by assumption)) (by decide) ?_
    | (apply WithinQ.step tqTrdt_within; decide)
    | refine Within.step (WithinQ.get tqTrd_within (by assumption)) (by decide) ?_
    | (apply WithinQ.step tqTrd_within; decide)
    | refine Within.step (WithinQ.get tqQwait_within (by assumption)) (by decide) ?_
    | (apply WithinQ.step tqQwait_within; decide)
    | refine Within.step (WithinQ.get tqQrel_within (by assumption)) (by decide) ?_
    | (apply WithinQ.step tqQrel_within; decide)
    | refine Within.step (WithinQ.get tqQcmt_within (by assumption)) (by decide) ?_
    | (apply WithinQ.step tqQcmt_within; decide)
    | refine Within.step (WithinQ.get tqQacq_within (by assumption)) (by decide) ?_
    | (apply WithinQ.step tqQacq_within; decide)
    | refine Within.step (WithinQ.get tqQres_within (by assumption)) (by decide) ?_
    | (apply WithinQ.step tqQres_within; decide)
    | split
    | dsimp only

theorem setVecFlags_within {x0 x1 s} : Within 8 s (setVecFlags x0 x1 s) := by
  dsimp only [setVecFlags]
  with_reducible repeat' first
    | apply Within.refl
    | apply Within.ite
    | (apply Within.step State.wr_within; decide)
    | dsimp only

theorem vecScat_within {x0 x1 s} : Within 32 s (vecScat x0 x1 s) := by
  dsimp only [vecScat]
  with_reducible repeat' first
    | apply Within.refl
    | (apply Within.step State.putBytes_within; decide)
    | refine Within.foldl (fun s a => ?_) ?_
    | refine Within.foldl_snd (fun b a => ?_) ?_
    | refine Within.foldl_fst (fun b a => ?_) ?_
    | refine Within.foldl_pair (fun b a => ?_) ?_ (by assumption)
    | assumption
    | dsimp only

theorem noteResidue_within {x0 x1 x2 s} : Within 8192 s (noteResidue x0 x1 x2 s) := by
  dsimp only [noteResidue]
  with_reducible repeat' first
    | apply Within.refl
    | apply Within.ite
    | (apply Within.step setCore_within; decide)
    | split
    | dsimp only

theorem vecEffect_within {x0 x1 x2 s} : Within 8232 s (vecEffect x0 x1 x2 s).2 := by
  dsimp only [vecEffect]
  with_reducible repeat' first
    | apply Within.refl
    | apply Within.ite
    | (apply Within.step noteResidue_within; decide)
    | (apply Within.step vecScat_within; decide)
    | (apply Within.step setVecFlags_within; decide)
    | (apply Within.step pmcCount_within; decide)
    | (apply Within.step State.satAdd_within; decide)
    | split
    | dsimp only

theorem syncDue_within {x0 s} : Within 2097160 s (syncDue x0 s) := by
  dsimp only [syncDue]
  with_reducible repeat' first
    | apply Within.refl
    | apply Within.ite
    | (apply Within.step traceSync_within; decide)
    | fail_if_no_progress refine Within.lit rfl ?_ (h21 := .inr (by decide))
    | split
    | dsimp only

theorem brEffect_within {x0 x1 x2 s} : Within 2105352 s (brEffect x0 x1 x2 s) := by
  dsimp only [brEffect]
  with_reducible repeat' first
    | apply Within.refl
    | apply Within.ite
    | (apply Within.step returnFromException_within; decide)
    | (apply Within.step setCore_within; decide)
    | (apply Within.step traceFiltered_within; decide)
    | (apply Within.step pmcCount_within; decide)
    | split
    | dsimp only

theorem endWord_within {x0 x1 x2 x3 s} : Within 85991432 s (endWord x0 x1 x2 x3 s) := by
  dsimp only [endWord]
  with_reducible repeat' first
    | apply Within.refl
    | apply Within.ite
    | (apply Within.step brGbar_within; decide)
    | (apply Within.step brSleep_within; decide)
    | (apply Within.step gbarCheck_within; decide)
    | (apply Within.step wordDone_within; decide)
    | (apply Within.step setCore_within; decide)
    | (apply Within.step State.putB_within; decide)
    | split
    | dsimp only

theorem unwait_within {x0 s} : Within 8192 s (unwait x0 s) := by
  dsimp only [unwait]
  with_reducible repeat' first
    | apply Within.refl
    | apply Within.ite
    | (apply Within.step setCore_within; decide)
    | split
    | dsimp only

theorem finishWord_within {x0 x1 x2 x3 x4 s} : Within 85991432 s (finishWord x0 x1 x2 x3 x4 s) := by
  dsimp only [finishWord]
  with_reducible repeat' first
    | apply Within.refl
    | apply Within.ite
    | (apply Within.step unwait_within; decide)
    | (apply Within.step endWord_within; decide)
    | (apply Within.step brEffect_within; decide)
    | (apply Within.step setCore_within; decide)
    | (apply Within.step pmcCount_within; decide)
    | (apply Within.step State.putB_within; decide)
    | refine Within.foldl (fun s a => ?_) ?_
    | refine Within.foldl_snd (fun b a => ?_) ?_
    | refine Within.foldl_fst (fun b a => ?_) ?_
    | refine Within.foldl_pair (fun b a => ?_) ?_ (by assumption)
    | split
    | assumption
    | dsimp only

theorem wordEffect_within {M k w stay s s0} (hM : Nat.land 86141096 M = 86141096) (hs : Within M s0 stay) (h : Within M s0 s) :
    WithinR M s0 (wordEffect k w stay s) := by
  have hs1 : Within M s0 (scaSys k w (core s k) s) := Within.step scaSys_within (sub_trans (by decide) hM) h
  unfold wordEffect
  dsimp only
  split
  · exact WithinR.outside
  · rename_i aw s1 e
    have h1 : Within M s0 s1 := Within.step (WithinP.get adrEffect_within e) (sub_trans (by decide) hM) hs1
    split
    · exact WithinR.oc
    · have h2 : Within M s0 (vecEffect k w (core s k) s1).2 := Within.step vecEffect_within (sub_trans (by decide) hM) h1
      split
      · exact WithinR.oc
      · have h3 : Within M s0 (arrEffect k w (core s k) (vecEffect k w (core s k) s1).2) :=
          Within.step arrEffect_within (sub_trans (by decide) hM) h2
        split
        · exact WithinR.next hs
        · exact WithinR.next (Within.step finishWord_within (sub_trans (by decide) hM) h3)
        · rename_i e4
          exact WithinR.next (Within.step finishWord_within (sub_trans (by decide) hM)
            (Within.step (WithinQ.get tqEffect_within e4) (sub_trans (by decide) hM) h3))

theorem waitQueue_within {x0 x1 s} : Within 8200 s (waitQueue x0 x1 s) := by
  dsimp only [waitQueue]
  with_reducible repeat' first
    | apply Within.refl
    | (apply Within.step setCore_within; decide)
    | (apply Within.step pmcCount_within; decide)
    | (apply Within.step State.putB_within; decide)
    | dsimp only

theorem tryIssue_within {M k w stay s s0} (hM : Nat.land 86141096 M = 86141096) (hs : Within M s0 stay) (h : Within M s0 s) :
    WithinR M s0 (tryIssue k w stay s) := by
  have hd : Within M s0 (depart (.word k) s) := Within.step depart_within (sub_trans (by decide) hM) h
  have he : Within M s0 (syncDue k (depart (.word k) s)) := Within.step syncDue_within (sub_trans (by decide) hM) hd
  unfold tryIssue
  dsimp only
  refine WithinR.ite (WithinR.next hs) ?_
  refine WithinR.ite (WithinR.next (Within.step takeException_within (sub_trans (by decide) hM) (Within.step unwait_within (sub_trans (by decide) hM) h))) ?_
  refine WithinR.ite WithinR.oc ?_
  split
  · exact WithinR.ite (WithinR.next hs) (WithinR.next (Within.step takeException_within (sub_trans (by decide) hM) (Within.step unwait_within (sub_trans (by decide) hM) he)))
  · refine WithinR.ite WithinR.oc (WithinR.ite (WithinR.next hs) ?_)
    refine WithinR.ite (WithinR.next (Within.step meterMark_within (sub_trans (by decide) hM) hs)) ?_
    refine WithinR.ite (WithinR.next (Within.step arrive_within (sub_trans (by decide) hM)
      (Within.ite (Within.step State.putB_within (sub_trans (by decide) hM) hs) hs))) ?_
    refine WithinR.ite (WithinR.next hs) ?_
    refine WithinR.ite (WithinR.next (Within.step waitQueue_within (sub_trans (by decide) hM) h)) ?_
    exact wordEffect_within (sub_trans (by decide) hM) hs
      (Within.step syncDue_within (sub_trans (by decide) hM) (Within.ite h hd))

theorem issueWord_within {x0 x1 s} : WithinR 86141096 s (issueWord x0 x1 s) := by
  dsimp only [issueWord]
  with_reducible repeat' first
    | apply WithinR.next
    | apply Within.refl
    | refine WithinR.onlyIfR (fun s => ?_) ?_
    | refine tryIssue_within (by decide) ?_ ?_
    | dsimp only

theorem retryQueue_within {x0 x1 s} : WithinR 86141096 s (retryQueue x0 x1 s) := by
  dsimp only [retryQueue]
  with_reducible repeat' first
    | apply WithinR.next
    | apply Within.refl
    | apply WithinR.outside
    | apply WithinR.ite
    | apply Within.ite
    | refine tryIssue_within (by decide) ?_ ?_
    | split
    | dsimp only

theorem execQresUnblock_within {x0 s} : WithinR 86141096 s (execQresUnblock x0 s) := by
  dsimp only [execQresUnblock]
  with_reducible repeat' first
    | apply WithinR.next
    | apply Within.refl
    | (apply WithinR.step retryQueue_within; decide)
    | (refine Within.step (WithinR.get retryQueue_within (by assumption)) (by decide) ?_)
    | dsimp only

theorem execQacqUnblock_within {x0 s} : WithinR 86141096 s (execQacqUnblock x0 s) := by
  dsimp only [execQacqUnblock]
  with_reducible repeat' first
    | apply WithinR.next
    | apply Within.refl
    | (apply WithinR.step retryQueue_within; decide)
    | (refine Within.step (WithinR.get retryQueue_within (by assumption)) (by decide) ?_)
    | dsimp only

end Sys2Proof.Machine
end

