-- ==== Sys2Proof/Laws/Regs.lean ====
section
/-! SUPPORT. The laws of the register file: what a read of a register, a field or a bit gives after a write of another or of
the same one. -/

namespace Sys2Proof.Machine

set_option Elab.async false

/-- The register file is in canonical form. -/
def RegsOk (s : State) : Prop := Tab.wf regReset s.regs = true

theorem State.wf_regs {s : State} (w : s.wf = true) : RegsOk s := by
  simp only [State.wf, Bool.and_eq_true] at w
  exact w.1.1.1.1.1

theorem State.wf_mem {s : State} (w : s.wf = true) : Memory.wf s.memGen s.mem = true := by
  simp only [State.wf, Bool.and_eq_true] at w
  exact w.1.1.1.1.2

theorem State.wf_cores {s : State} (w : s.wf = true) : Tab.wf (fun _ => CoreSt.start) s.cores = true := by
  simp only [State.wf, Bool.and_eq_true] at w
  exact w.1.1.2

/-! ### Whole words -/

theorem regsOk_wr {s : State} {a : Nat} {v : W32} (w : RegsOk s) : RegsOk (s.wr a v) := Tab.wf_set _ _ w
theorem regsOk_putF {s : State} {a lo n v : Nat} (w : RegsOk s) : RegsOk (s.putF a lo n v) := regsOk_wr w
theorem regsOk_putB {s : State} {a i : Nat} {b : Bool} (w : RegsOk s) : RegsOk (s.putB a i b) := regsOk_wr w

theorem State.rd_wr_same {s : State} {a : Nat} {v : W32} (w : RegsOk s) : (s.wr a v).rd a = v := Tab.get_set_same a v w
theorem State.rd_wr_ne {s : State} {a b : Nat} {v : W32} (w : RegsOk s) (h : b ≠ a) : (s.wr a v).rd b = s.rd b :=
  Tab.get_set_ne v h w

/-! ### Fields -/

theorem fieldN_lt (v lo n : Nat) : fieldN v lo n < 2 ^ n := Nat.mod_lt _ (Nat.two_pow_pos n)

theorem testBit_fieldN (v lo n i : Nat) : (fieldN v lo n).testBit i = (decide (i < n) && v.testBit (lo + i)) := by
  simp [fieldN, Nat.testBit_mod_two_pow, Nat.testBit_div_two_pow, Nat.add_comm]

/-- The word that `putF` writes. -/
def putWord (x : W32) (lo n v : Nat) : W32 :=
  let m := BitVec.ofNat 32 ((2 ^ n - 1) * 2 ^ lo)
  (x &&& ~~~m) ||| (BitVec.ofNat 32 (v * 2 ^ lo) &&& m)

theorem State.putF_eq (s : State) (a lo n v : Nat) : s.putF a lo n v = s.wr a (putWord (s.rd a) lo n v) := rfl

theorem testBit_mask (n lo i : Nat) : ((2 ^ n - 1) * 2 ^ lo).testBit i = decide (lo ≤ i ∧ i < lo + n) := by
  rw [Nat.mul_comm, Nat.testBit_two_pow_mul, Nat.testBit_two_pow_sub_one]
  by_cases h : lo ≤ i <;> simp [h]
  omega

/-- The bits of the word that `putF` writes: the field takes the value, the other bits stay. -/
theorem testBit_putWord (x : W32) (lo n v i : Nat) :
    (putWord x lo n v).toNat.testBit i =
      (decide (i < 32) && if lo ≤ i ∧ i < lo + n then v.testBit (i - lo) else x.toNat.testBit i) := by
  have key : ∀ y : W32, y.toNat.testBit i = y.getLsbD i := fun y => rfl
  rw [key, key]
  unfold putWord
  by_cases hi : i < 32
  · simp only [BitVec.getLsbD_or, BitVec.getLsbD_and, BitVec.getLsbD_not, BitVec.getLsbD_ofNat, testBit_mask, hi, decide_true,
      Bool.true_and]
    have e : (v * 2 ^ lo).testBit i = (decide (lo ≤ i) && v.testBit (i - lo)) := by
      rw [Nat.mul_comm, Nat.testBit_two_pow_mul]
    rw [e]
    by_cases h : lo ≤ i ∧ i < lo + n
    · simp [h]
    · rw [if_neg h]; simp [h]
  · rw [BitVec.getLsbD_of_ge _ _ (by omega)]; simp [hi]

theorem fieldN_putWord_same (x : W32) {lo n v : Nat} (h : lo + n ≤ 32) : fieldN (putWord x lo n v).toNat lo n = v % 2 ^ n := by
  apply Nat.eq_of_testBit_eq
  intro i
  rw [testBit_fieldN, testBit_putWord, Nat.testBit_mod_two_pow]
  by_cases hi : i < n
  · have h1 : lo + i < 32 := by omega
    have h2 : lo ≤ lo + i ∧ lo + i < lo + n := by omega
    simp [hi, h1]
  · simp [hi]

theorem fieldN_putWord_ne (x : W32) {lo n v lo' n' : Nat} (h : lo' + n' ≤ lo ∨ lo + n ≤ lo') :
    fieldN (putWord x lo n v).toNat lo' n' = fieldN x.toNat lo' n' := by
  apply Nat.eq_of_testBit_eq
  intro i
  rw [testBit_fieldN, testBit_fieldN, testBit_putWord]
  by_cases hi : i < n'
  · have h2 : ¬(lo ≤ lo' + i ∧ lo' + i < lo + n) := by omega
    rw [if_neg h2]
    by_cases h3 : lo' + i < 32
    · simp [h3]
    · have : x.toNat.testBit (lo' + i) = false := BitVec.getLsbD_of_ge x _ (by omega)
      simp [this]
  · simp [hi]

theorem State.fld_putF_same {s : State} {a lo n v : Nat} (w : RegsOk s) (h : lo + n ≤ 32) : (s.putF a lo n v).fld a lo n = v % 2 ^ n := by
  rw [State.putF_eq, State.fld, State.rd_wr_same w, fieldN_putWord_same _ h]

theorem State.fld_putF_ne {s : State} {a lo n v lo' n' : Nat} (w : RegsOk s) (h : lo' + n' ≤ lo ∨ lo + n ≤ lo') :
    (s.putF a lo n v).fld a lo' n' = s.fld a lo' n' := by
  rw [State.putF_eq, State.fld, State.rd_wr_same w, fieldN_putWord_ne _ h]; rfl

theorem State.bit_putB_same {s : State} {a i : Nat} {b : Bool} (w : RegsOk s) (h : i < 32) : (s.putB a i b).bit a i = b := by
  rw [State.putB, State.putF_eq, State.bit, State.rd_wr_same w, testBit_putWord]
  cases b <;> simp [h]

theorem State.bit_putF_ne {s : State} {a lo n v i : Nat} (w : RegsOk s) (h : i < lo ∨ lo + n ≤ i) :
    (s.putF a lo n v).bit a i = s.bit a i := by
  rw [State.putF_eq, State.bit, State.rd_wr_same w, testBit_putWord]
  have h2 : ¬(lo ≤ i ∧ i < lo + n) := by omega
  rw [if_neg h2, State.bit]
  by_cases h3 : i < 32
  · simp [h3]
  · have : (s.rd a).toNat.testBit i = false := BitVec.getLsbD_of_ge (s.rd a) _ (by omega)
    simp [this]

theorem State.bit_putB_ne {s : State} {a i j : Nat} {b : Bool} (w : RegsOk s) (h : j ≠ i) : (s.putB a i b).bit a j = s.bit a j :=
  State.bit_putF_ne w (by omega)

theorem State.fld_putB_ne {s : State} {a i lo n : Nat} {b : Bool} (w : RegsOk s) (h : lo + n ≤ i ∨ i + 1 ≤ lo) :
    (s.putB a i b).fld a lo n = s.fld a lo n := State.fld_putF_ne w h

/-! ### Other registers -/

theorem State.rd_putF_ne {s : State} {a b lo n v : Nat} (w : RegsOk s) (h : b ≠ a) : (s.putF a lo n v).rd b = s.rd b := State.rd_wr_ne w h
theorem State.rd_putB_ne {s : State} {a b i : Nat} {x : Bool} (w : RegsOk s) (h : b ≠ a) : (s.putB a i x).rd b = s.rd b := State.rd_wr_ne w h
theorem State.fld_of_rd {s t : State} {a : Nat} (h : t.rd a = s.rd a) (lo n : Nat) : t.fld a lo n = s.fld a lo n := by
  rw [State.fld, h, State.fld]
theorem State.bit_of_rd {s t : State} {a : Nat} (h : t.rd a = s.rd a) (i : Nat) : t.bit a i = s.bit a i := by
  rw [State.bit, h, State.bit]
theorem State.rd_of_regs {s t : State} (h : t.regs = s.regs) (a : Nat) : t.rd a = s.rd a := by rw [State.rd, h, State.rd]

end Sys2Proof.Machine
end

