-- ==== Sys2Proof/Laws/State.lean ====
section
/-! SUPPORT. What each update of the state leaves and sets, field by field; no later proof unfolds a record update. -/

namespace Sys2Proof.Machine

set_option Elab.async false

@[simp] theorem State.wr_pending (s : State) (a : Nat) (v : W32) : (s.wr a v).pending = s.pending := rfl
@[simp] theorem State.wr_powered (s : State) (a : Nat) (v : W32) : (s.wr a v).powered = s.powered := rfl
@[simp] theorem State.wr_pins (s : State) (a : Nat) (v : W32) : (s.wr a v).pins = s.pins := rfl
@[simp] theorem State.wr_clk (s : State) (a : Nat) (v : W32) : (s.wr a v).clk = s.clk := rfl
@[simp] theorem State.wr_shadows (s : State) (a : Nat) (v : W32) : (s.wr a v).shadows = s.shadows := rfl
@[simp] theorem State.wr_mem (s : State) (a : Nat) (v : W32) : (s.wr a v).mem = s.mem := rfl
@[simp] theorem State.wr_memGen (s : State) (a : Nat) (v : W32) : (s.wr a v).memGen = s.memGen := rfl
@[simp] theorem State.wr_health (s : State) (a : Nat) (v : W32) : (s.wr a v).health = s.health := rfl
@[simp] theorem State.wr_loader (s : State) (a : Nat) (v : W32) : (s.wr a v).loader = s.loader := rfl
@[simp] theorem State.wr_warp (s : State) (a : Nat) (v : W32) : (s.wr a v).warp = s.warp := rfl
@[simp] theorem State.wr_pos (s : State) (a : Nat) (v : W32) : (s.wr a v).pos = s.pos := rfl
@[simp] theorem State.wr_slots (s : State) (a : Nat) (v : W32) : (s.wr a v).slots = s.slots := rfl
@[simp] theorem State.wr_intake (s : State) (a : Nat) (v : W32) : (s.wr a v).intake = s.intake := rfl
@[simp] theorem State.wr_cores (s : State) (a : Nat) (v : W32) : (s.wr a v).cores = s.cores := rfl
@[simp] theorem State.wr_chans (s : State) (a : Nat) (v : W32) : (s.wr a v).chans = s.chans := rfl
@[simp] theorem State.wr_emb (s : State) (a : Nat) (v : W32) : (s.wr a v).emb = s.emb := rfl
@[simp] theorem State.wr_chain (s : State) (a : Nat) (v : W32) : (s.wr a v).chain = s.chain := rfl
@[simp] theorem State.wr_selv (s : State) (a : Nat) (v : W32) : (s.wr a v).selv = s.selv := rfl
@[simp] theorem State.wr_host (s : State) (a : Nat) (v : W32) : (s.wr a v).host = s.host := rfl
@[simp] theorem State.wr_i2c (s : State) (a : Nat) (v : W32) : (s.wr a v).i2c = s.i2c := rfl
@[simp] theorem State.wr_hold (s : State) (a : Nat) (v : W32) : (s.wr a v).hold = s.hold := rfl
@[simp] theorem State.wr_trace (s : State) (a : Nat) (v : W32) : (s.wr a v).trace = s.trace := rfl
@[simp] theorem State.wr_frz (s : State) (a : Nat) (v : W32) : (s.wr a v).frz = s.frz := rfl
@[simp] theorem State.wr_tap (s : State) (a : Nat) (v : W32) : (s.wr a v).tap = s.tap := rfl
@[simp] theorem State.wr_out (s : State) (a : Nat) (v : W32) : (s.wr a v).out = s.out := rfl
@[simp] theorem State.wr_resp (s : State) (a : Nat) (v : W32) : (s.wr a v).resp = s.resp := rfl
@[simp] theorem State.wr_freeCtr (s : State) (a : Nat) (v : W32) : (s.wr a v).freeCtr = s.freeCtr := rfl
@[simp] theorem State.wr_contract (s : State) (a : Nat) (v : W32) : (s.wr a v).contract = s.contract := rfl
@[simp] theorem State.wr_regs (s : State) (a : Nat) (v : W32) : (s.wr a v).regs = Tab.set regReset s.regs a v := rfl
@[simp] theorem State.wr_byte (s : State) (a : Nat) (v : W32) (y : Nat) : (s.wr a v).byte y = s.byte y := rfl

@[simp] theorem State.putF_pending (s : State) (a lo n v : Nat) : (s.putF a lo n v).pending = s.pending := rfl
@[simp] theorem State.putF_powered (s : State) (a lo n v : Nat) : (s.putF a lo n v).powered = s.powered := rfl
@[simp] theorem State.putF_pins (s : State) (a lo n v : Nat) : (s.putF a lo n v).pins = s.pins := rfl
@[simp] theorem State.putF_clk (s : State) (a lo n v : Nat) : (s.putF a lo n v).clk = s.clk := rfl
@[simp] theorem State.putF_shadows (s : State) (a lo n v : Nat) : (s.putF a lo n v).shadows = s.shadows := rfl
@[simp] theorem State.putF_mem (s : State) (a lo n v : Nat) : (s.putF a lo n v).mem = s.mem := rfl
@[simp] theorem State.putF_memGen (s : State) (a lo n v : Nat) : (s.putF a lo n v).memGen = s.memGen := rfl
@[simp] theorem State.putF_health (s : State) (a lo n v : Nat) : (s.putF a lo n v).health = s.health := rfl
@[simp] theorem State.putF_loader (s : State) (a lo n v : Nat) : (s.putF a lo n v).loader = s.loader := rfl
@[simp] theorem State.putF_warp (s : State) (a lo n v : Nat) : (s.putF a lo n v).warp = s.warp := rfl
@[simp] theorem State.putF_pos (s : State) (a lo n v : Nat) : (s.putF a lo n v).pos = s.pos := rfl
@[simp] theorem State.putF_slots (s : State) (a lo n v : Nat) : (s.putF a lo n v).slots = s.slots := rfl
@[simp] theorem State.putF_intake (s : State) (a lo n v : Nat) : (s.putF a lo n v).intake = s.intake := rfl
@[simp] theorem State.putF_cores (s : State) (a lo n v : Nat) : (s.putF a lo n v).cores = s.cores := rfl
@[simp] theorem State.putF_chans (s : State) (a lo n v : Nat) : (s.putF a lo n v).chans = s.chans := rfl
@[simp] theorem State.putF_emb (s : State) (a lo n v : Nat) : (s.putF a lo n v).emb = s.emb := rfl
@[simp] theorem State.putF_chain (s : State) (a lo n v : Nat) : (s.putF a lo n v).chain = s.chain := rfl
@[simp] theorem State.putF_selv (s : State) (a lo n v : Nat) : (s.putF a lo n v).selv = s.selv := rfl
@[simp] theorem State.putF_host (s : State) (a lo n v : Nat) : (s.putF a lo n v).host = s.host := rfl
@[simp] theorem State.putF_i2c (s : State) (a lo n v : Nat) : (s.putF a lo n v).i2c = s.i2c := rfl
@[simp] theorem State.putF_hold (s : State) (a lo n v : Nat) : (s.putF a lo n v).hold = s.hold := rfl
@[simp] theorem State.putF_trace (s : State) (a lo n v : Nat) : (s.putF a lo n v).trace = s.trace := rfl
@[simp] theorem State.putF_frz (s : State) (a lo n v : Nat) : (s.putF a lo n v).frz = s.frz := rfl
@[simp] theorem State.putF_tap (s : State) (a lo n v : Nat) : (s.putF a lo n v).tap = s.tap := rfl
@[simp] theorem State.putF_out (s : State) (a lo n v : Nat) : (s.putF a lo n v).out = s.out := rfl
@[simp] theorem State.putF_resp (s : State) (a lo n v : Nat) : (s.putF a lo n v).resp = s.resp := rfl
@[simp] theorem State.putF_freeCtr (s : State) (a lo n v : Nat) : (s.putF a lo n v).freeCtr = s.freeCtr := rfl
@[simp] theorem State.putF_contract (s : State) (a lo n v : Nat) : (s.putF a lo n v).contract = s.contract := rfl
@[simp] theorem State.putF_byte (s : State) (a lo n v : Nat) (y : Nat) : (s.putF a lo n v).byte y = s.byte y := rfl

@[simp] theorem State.putB_pending (s : State) (a i : Nat) (b : Bool) : (s.putB a i b).pending = s.pending := rfl
@[simp] theorem State.putB_powered (s : State) (a i : Nat) (b : Bool) : (s.putB a i b).powered = s.powered := rfl
@[simp] theorem State.putB_pins (s : State) (a i : Nat) (b : Bool) : (s.putB a i b).pins = s.pins := rfl
@[simp] theorem State.putB_clk (s : State) (a i : Nat) (b : Bool) : (s.putB a i b).clk = s.clk := rfl
@[simp] theorem State.putB_shadows (s : State) (a i : Nat) (b : Bool) : (s.putB a i b).shadows = s.shadows := rfl
@[simp] theorem State.putB_mem (s : State) (a i : Nat) (b : Bool) : (s.putB a i b).mem = s.mem := rfl
@[simp] theorem State.putB_memGen (s : State) (a i : Nat) (b : Bool) : (s.putB a i b).memGen = s.memGen := rfl
@[simp] theorem State.putB_health (s : State) (a i : Nat) (b : Bool) : (s.putB a i b).health = s.health := rfl
@[simp] theorem State.putB_loader (s : State) (a i : Nat) (b : Bool) : (s.putB a i b).loader = s.loader := rfl
@[simp] theorem State.putB_warp (s : State) (a i : Nat) (b : Bool) : (s.putB a i b).warp = s.warp := rfl
@[simp] theorem State.putB_pos (s : State) (a i : Nat) (b : Bool) : (s.putB a i b).pos = s.pos := rfl
@[simp] theorem State.putB_slots (s : State) (a i : Nat) (b : Bool) : (s.putB a i b).slots = s.slots := rfl
@[simp] theorem State.putB_intake (s : State) (a i : Nat) (b : Bool) : (s.putB a i b).intake = s.intake := rfl
@[simp] theorem State.putB_cores (s : State) (a i : Nat) (b : Bool) : (s.putB a i b).cores = s.cores := rfl
@[simp] theorem State.putB_chans (s : State) (a i : Nat) (b : Bool) : (s.putB a i b).chans = s.chans := rfl
@[simp] theorem State.putB_emb (s : State) (a i : Nat) (b : Bool) : (s.putB a i b).emb = s.emb := rfl
@[simp] theorem State.putB_chain (s : State) (a i : Nat) (b : Bool) : (s.putB a i b).chain = s.chain := rfl
@[simp] theorem State.putB_selv (s : State) (a i : Nat) (b : Bool) : (s.putB a i b).selv = s.selv := rfl
@[simp] theorem State.putB_host (s : State) (a i : Nat) (b : Bool) : (s.putB a i b).host = s.host := rfl
@[simp] theorem State.putB_i2c (s : State) (a i : Nat) (b : Bool) : (s.putB a i b).i2c = s.i2c := rfl
@[simp] theorem State.putB_hold (s : State) (a i : Nat) (b : Bool) : (s.putB a i b).hold = s.hold := rfl
@[simp] theorem State.putB_trace (s : State) (a i : Nat) (b : Bool) : (s.putB a i b).trace = s.trace := rfl
@[simp] theorem State.putB_frz (s : State) (a i : Nat) (b : Bool) : (s.putB a i b).frz = s.frz := rfl
@[simp] theorem State.putB_tap (s : State) (a i : Nat) (b : Bool) : (s.putB a i b).tap = s.tap := rfl
@[simp] theorem State.putB_out (s : State) (a i : Nat) (b : Bool) : (s.putB a i b).out = s.out := rfl
@[simp] theorem State.putB_resp (s : State) (a i : Nat) (b : Bool) : (s.putB a i b).resp = s.resp := rfl
@[simp] theorem State.putB_freeCtr (s : State) (a i : Nat) (b : Bool) : (s.putB a i b).freeCtr = s.freeCtr := rfl
@[simp] theorem State.putB_contract (s : State) (a i : Nat) (b : Bool) : (s.putB a i b).contract = s.contract := rfl
@[simp] theorem State.putB_byte (s : State) (a i : Nat) (b : Bool) (y : Nat) : (s.putB a i b).byte y = s.byte y := rfl

@[simp] theorem State.wrN_pending (s : State) (a v : Nat) : (s.wrN a v).pending = s.pending := rfl
@[simp] theorem State.wrN_powered (s : State) (a v : Nat) : (s.wrN a v).powered = s.powered := rfl
@[simp] theorem State.wrN_pins (s : State) (a v : Nat) : (s.wrN a v).pins = s.pins := rfl
@[simp] theorem State.wrN_clk (s : State) (a v : Nat) : (s.wrN a v).clk = s.clk := rfl
@[simp] theorem State.wrN_shadows (s : State) (a v : Nat) : (s.wrN a v).shadows = s.shadows := rfl
@[simp] theorem State.wrN_mem (s : State) (a v : Nat) : (s.wrN a v).mem = s.mem := rfl
@[simp] theorem State.wrN_memGen (s : State) (a v : Nat) : (s.wrN a v).memGen = s.memGen := rfl
@[simp] theorem State.wrN_health (s : State) (a v : Nat) : (s.wrN a v).health = s.health := rfl
@[simp] theorem State.wrN_loader (s : State) (a v : Nat) : (s.wrN a v).loader = s.loader := rfl
@[simp] theorem State.wrN_warp (s : State) (a v : Nat) : (s.wrN a v).warp = s.warp := rfl
@[simp] theorem State.wrN_pos (s : State) (a v : Nat) : (s.wrN a v).pos = s.pos := rfl
@[simp] theorem State.wrN_slots (s : State) (a v : Nat) : (s.wrN a v).slots = s.slots := rfl
@[simp] theorem State.wrN_intake (s : State) (a v : Nat) : (s.wrN a v).intake = s.intake := rfl
@[simp] theorem State.wrN_cores (s : State) (a v : Nat) : (s.wrN a v).cores = s.cores := rfl
@[simp] theorem State.wrN_chans (s : State) (a v : Nat) : (s.wrN a v).chans = s.chans := rfl
@[simp] theorem State.wrN_emb (s : State) (a v : Nat) : (s.wrN a v).emb = s.emb := rfl
@[simp] theorem State.wrN_chain (s : State) (a v : Nat) : (s.wrN a v).chain = s.chain := rfl
@[simp] theorem State.wrN_selv (s : State) (a v : Nat) : (s.wrN a v).selv = s.selv := rfl
@[simp] theorem State.wrN_host (s : State) (a v : Nat) : (s.wrN a v).host = s.host := rfl
@[simp] theorem State.wrN_i2c (s : State) (a v : Nat) : (s.wrN a v).i2c = s.i2c := rfl
@[simp] theorem State.wrN_hold (s : State) (a v : Nat) : (s.wrN a v).hold = s.hold := rfl
@[simp] theorem State.wrN_trace (s : State) (a v : Nat) : (s.wrN a v).trace = s.trace := rfl
@[simp] theorem State.wrN_frz (s : State) (a v : Nat) : (s.wrN a v).frz = s.frz := rfl
@[simp] theorem State.wrN_tap (s : State) (a v : Nat) : (s.wrN a v).tap = s.tap := rfl
@[simp] theorem State.wrN_out (s : State) (a v : Nat) : (s.wrN a v).out = s.out := rfl
@[simp] theorem State.wrN_resp (s : State) (a v : Nat) : (s.wrN a v).resp = s.resp := rfl
@[simp] theorem State.wrN_freeCtr (s : State) (a v : Nat) : (s.wrN a v).freeCtr = s.freeCtr := rfl
@[simp] theorem State.wrN_contract (s : State) (a v : Nat) : (s.wrN a v).contract = s.contract := rfl
@[simp] theorem State.wrN_byte (s : State) (a v : Nat) (y : Nat) : (s.wrN a v).byte y = s.byte y := rfl

@[simp] theorem State.satAdd_pending (s : State) (a n : Nat) : (s.satAdd a n).pending = s.pending := rfl
@[simp] theorem State.satAdd_powered (s : State) (a n : Nat) : (s.satAdd a n).powered = s.powered := rfl
@[simp] theorem State.satAdd_pins (s : State) (a n : Nat) : (s.satAdd a n).pins = s.pins := rfl
@[simp] theorem State.satAdd_clk (s : State) (a n : Nat) : (s.satAdd a n).clk = s.clk := rfl
@[simp] theorem State.satAdd_shadows (s : State) (a n : Nat) : (s.satAdd a n).shadows = s.shadows := rfl
@[simp] theorem State.satAdd_mem (s : State) (a n : Nat) : (s.satAdd a n).mem = s.mem := rfl
@[simp] theorem State.satAdd_memGen (s : State) (a n : Nat) : (s.satAdd a n).memGen = s.memGen := rfl
@[simp] theorem State.satAdd_health (s : State) (a n : Nat) : (s.satAdd a n).health = s.health := rfl
@[simp] theorem State.satAdd_loader (s : State) (a n : Nat) : (s.satAdd a n).loader = s.loader := rfl
@[simp] theorem State.satAdd_warp (s : State) (a n : Nat) : (s.satAdd a n).warp = s.warp := rfl
@[simp] theorem State.satAdd_pos (s : State) (a n : Nat) : (s.satAdd a n).pos = s.pos := rfl
@[simp] theorem State.satAdd_slots (s : State) (a n : Nat) : (s.satAdd a n).slots = s.slots := rfl
@[simp] theorem State.satAdd_intake (s : State) (a n : Nat) : (s.satAdd a n).intake = s.intake := rfl
@[simp] theorem State.satAdd_cores (s : State) (a n : Nat) : (s.satAdd a n).cores = s.cores := rfl
@[simp] theorem State.satAdd_chans (s : State) (a n : Nat) : (s.satAdd a n).chans = s.chans := rfl
@[simp] theorem State.satAdd_emb (s : State) (a n : Nat) : (s.satAdd a n).emb = s.emb := rfl
@[simp] theorem State.satAdd_chain (s : State) (a n : Nat) : (s.satAdd a n).chain = s.chain := rfl
@[simp] theorem State.satAdd_selv (s : State) (a n : Nat) : (s.satAdd a n).selv = s.selv := rfl
@[simp] theorem State.satAdd_host (s : State) (a n : Nat) : (s.satAdd a n).host = s.host := rfl
@[simp] theorem State.satAdd_i2c (s : State) (a n : Nat) : (s.satAdd a n).i2c = s.i2c := rfl
@[simp] theorem State.satAdd_hold (s : State) (a n : Nat) : (s.satAdd a n).hold = s.hold := rfl
@[simp] theorem State.satAdd_trace (s : State) (a n : Nat) : (s.satAdd a n).trace = s.trace := rfl
@[simp] theorem State.satAdd_frz (s : State) (a n : Nat) : (s.satAdd a n).frz = s.frz := rfl
@[simp] theorem State.satAdd_tap (s : State) (a n : Nat) : (s.satAdd a n).tap = s.tap := rfl
@[simp] theorem State.satAdd_out (s : State) (a n : Nat) : (s.satAdd a n).out = s.out := rfl
@[simp] theorem State.satAdd_resp (s : State) (a n : Nat) : (s.satAdd a n).resp = s.resp := rfl
@[simp] theorem State.satAdd_freeCtr (s : State) (a n : Nat) : (s.satAdd a n).freeCtr = s.freeCtr := rfl
@[simp] theorem State.satAdd_contract (s : State) (a n : Nat) : (s.satAdd a n).contract = s.contract := rfl
@[simp] theorem State.satAdd_byte (s : State) (a n : Nat) (y : Nat) : (s.satAdd a n).byte y = s.byte y := rfl

@[simp] theorem State.sat_pending (s : State) (a : Nat) : (s.sat a).pending = s.pending := rfl
@[simp] theorem State.sat_powered (s : State) (a : Nat) : (s.sat a).powered = s.powered := rfl
@[simp] theorem State.sat_pins (s : State) (a : Nat) : (s.sat a).pins = s.pins := rfl
@[simp] theorem State.sat_clk (s : State) (a : Nat) : (s.sat a).clk = s.clk := rfl
@[simp] theorem State.sat_shadows (s : State) (a : Nat) : (s.sat a).shadows = s.shadows := rfl
@[simp] theorem State.sat_mem (s : State) (a : Nat) : (s.sat a).mem = s.mem := rfl
@[simp] theorem State.sat_memGen (s : State) (a : Nat) : (s.sat a).memGen = s.memGen := rfl
@[simp] theorem State.sat_health (s : State) (a : Nat) : (s.sat a).health = s.health := rfl
@[simp] theorem State.sat_loader (s : State) (a : Nat) : (s.sat a).loader = s.loader := rfl
@[simp] theorem State.sat_warp (s : State) (a : Nat) : (s.sat a).warp = s.warp := rfl
@[simp] theorem State.sat_pos (s : State) (a : Nat) : (s.sat a).pos = s.pos := rfl
@[simp] theorem State.sat_slots (s : State) (a : Nat) : (s.sat a).slots = s.slots := rfl
@[simp] theorem State.sat_intake (s : State) (a : Nat) : (s.sat a).intake = s.intake := rfl
@[simp] theorem State.sat_cores (s : State) (a : Nat) : (s.sat a).cores = s.cores := rfl
@[simp] theorem State.sat_chans (s : State) (a : Nat) : (s.sat a).chans = s.chans := rfl
@[simp] theorem State.sat_emb (s : State) (a : Nat) : (s.sat a).emb = s.emb := rfl
@[simp] theorem State.sat_chain (s : State) (a : Nat) : (s.sat a).chain = s.chain := rfl
@[simp] theorem State.sat_selv (s : State) (a : Nat) : (s.sat a).selv = s.selv := rfl
@[simp] theorem State.sat_host (s : State) (a : Nat) : (s.sat a).host = s.host := rfl
@[simp] theorem State.sat_i2c (s : State) (a : Nat) : (s.sat a).i2c = s.i2c := rfl
@[simp] theorem State.sat_hold (s : State) (a : Nat) : (s.sat a).hold = s.hold := rfl
@[simp] theorem State.sat_trace (s : State) (a : Nat) : (s.sat a).trace = s.trace := rfl
@[simp] theorem State.sat_frz (s : State) (a : Nat) : (s.sat a).frz = s.frz := rfl
@[simp] theorem State.sat_tap (s : State) (a : Nat) : (s.sat a).tap = s.tap := rfl
@[simp] theorem State.sat_out (s : State) (a : Nat) : (s.sat a).out = s.out := rfl
@[simp] theorem State.sat_resp (s : State) (a : Nat) : (s.sat a).resp = s.resp := rfl
@[simp] theorem State.sat_freeCtr (s : State) (a : Nat) : (s.sat a).freeCtr = s.freeCtr := rfl
@[simp] theorem State.sat_contract (s : State) (a : Nat) : (s.sat a).contract = s.contract := rfl
@[simp] theorem State.sat_byte (s : State) (a : Nat) (y : Nat) : (s.sat a).byte y = s.byte y := rfl

@[simp] theorem State.inc_pending (s : State) (a : Nat) : (s.inc a).pending = s.pending := rfl
@[simp] theorem State.inc_powered (s : State) (a : Nat) : (s.inc a).powered = s.powered := rfl
@[simp] theorem State.inc_pins (s : State) (a : Nat) : (s.inc a).pins = s.pins := rfl
@[simp] theorem State.inc_clk (s : State) (a : Nat) : (s.inc a).clk = s.clk := rfl
@[simp] theorem State.inc_shadows (s : State) (a : Nat) : (s.inc a).shadows = s.shadows := rfl
@[simp] theorem State.inc_mem (s : State) (a : Nat) : (s.inc a).mem = s.mem := rfl
@[simp] theorem State.inc_memGen (s : State) (a : Nat) : (s.inc a).memGen = s.memGen := rfl
@[simp] theorem State.inc_health (s : State) (a : Nat) : (s.inc a).health = s.health := rfl
@[simp] theorem State.inc_loader (s : State) (a : Nat) : (s.inc a).loader = s.loader := rfl
@[simp] theorem State.inc_warp (s : State) (a : Nat) : (s.inc a).warp = s.warp := rfl
@[simp] theorem State.inc_pos (s : State) (a : Nat) : (s.inc a).pos = s.pos := rfl
@[simp] theorem State.inc_slots (s : State) (a : Nat) : (s.inc a).slots = s.slots := rfl
@[simp] theorem State.inc_intake (s : State) (a : Nat) : (s.inc a).intake = s.intake := rfl
@[simp] theorem State.inc_cores (s : State) (a : Nat) : (s.inc a).cores = s.cores := rfl
@[simp] theorem State.inc_chans (s : State) (a : Nat) : (s.inc a).chans = s.chans := rfl
@[simp] theorem State.inc_emb (s : State) (a : Nat) : (s.inc a).emb = s.emb := rfl
@[simp] theorem State.inc_chain (s : State) (a : Nat) : (s.inc a).chain = s.chain := rfl
@[simp] theorem State.inc_selv (s : State) (a : Nat) : (s.inc a).selv = s.selv := rfl
@[simp] theorem State.inc_host (s : State) (a : Nat) : (s.inc a).host = s.host := rfl
@[simp] theorem State.inc_i2c (s : State) (a : Nat) : (s.inc a).i2c = s.i2c := rfl
@[simp] theorem State.inc_hold (s : State) (a : Nat) : (s.inc a).hold = s.hold := rfl
@[simp] theorem State.inc_trace (s : State) (a : Nat) : (s.inc a).trace = s.trace := rfl
@[simp] theorem State.inc_frz (s : State) (a : Nat) : (s.inc a).frz = s.frz := rfl
@[simp] theorem State.inc_tap (s : State) (a : Nat) : (s.inc a).tap = s.tap := rfl
@[simp] theorem State.inc_out (s : State) (a : Nat) : (s.inc a).out = s.out := rfl
@[simp] theorem State.inc_resp (s : State) (a : Nat) : (s.inc a).resp = s.resp := rfl
@[simp] theorem State.inc_freeCtr (s : State) (a : Nat) : (s.inc a).freeCtr = s.freeCtr := rfl
@[simp] theorem State.inc_contract (s : State) (a : Nat) : (s.inc a).contract = s.contract := rfl
@[simp] theorem State.inc_byte (s : State) (a : Nat) (y : Nat) : (s.inc a).byte y = s.byte y := rfl

@[simp] theorem State.satF_pending (s : State) (a lo n : Nat) : (s.satF a lo n).pending = s.pending := rfl
@[simp] theorem State.satF_powered (s : State) (a lo n : Nat) : (s.satF a lo n).powered = s.powered := rfl
@[simp] theorem State.satF_pins (s : State) (a lo n : Nat) : (s.satF a lo n).pins = s.pins := rfl
@[simp] theorem State.satF_clk (s : State) (a lo n : Nat) : (s.satF a lo n).clk = s.clk := rfl
@[simp] theorem State.satF_shadows (s : State) (a lo n : Nat) : (s.satF a lo n).shadows = s.shadows := rfl
@[simp] theorem State.satF_mem (s : State) (a lo n : Nat) : (s.satF a lo n).mem = s.mem := rfl
@[simp] theorem State.satF_memGen (s : State) (a lo n : Nat) : (s.satF a lo n).memGen = s.memGen := rfl
@[simp] theorem State.satF_health (s : State) (a lo n : Nat) : (s.satF a lo n).health = s.health := rfl
@[simp] theorem State.satF_loader (s : State) (a lo n : Nat) : (s.satF a lo n).loader = s.loader := rfl
@[simp] theorem State.satF_warp (s : State) (a lo n : Nat) : (s.satF a lo n).warp = s.warp := rfl
@[simp] theorem State.satF_pos (s : State) (a lo n : Nat) : (s.satF a lo n).pos = s.pos := rfl
@[simp] theorem State.satF_slots (s : State) (a lo n : Nat) : (s.satF a lo n).slots = s.slots := rfl
@[simp] theorem State.satF_intake (s : State) (a lo n : Nat) : (s.satF a lo n).intake = s.intake := rfl
@[simp] theorem State.satF_cores (s : State) (a lo n : Nat) : (s.satF a lo n).cores = s.cores := rfl
@[simp] theorem State.satF_chans (s : State) (a lo n : Nat) : (s.satF a lo n).chans = s.chans := rfl
@[simp] theorem State.satF_emb (s : State) (a lo n : Nat) : (s.satF a lo n).emb = s.emb := rfl
@[simp] theorem State.satF_chain (s : State) (a lo n : Nat) : (s.satF a lo n).chain = s.chain := rfl
@[simp] theorem State.satF_selv (s : State) (a lo n : Nat) : (s.satF a lo n).selv = s.selv := rfl
@[simp] theorem State.satF_host (s : State) (a lo n : Nat) : (s.satF a lo n).host = s.host := rfl
@[simp] theorem State.satF_i2c (s : State) (a lo n : Nat) : (s.satF a lo n).i2c = s.i2c := rfl
@[simp] theorem State.satF_hold (s : State) (a lo n : Nat) : (s.satF a lo n).hold = s.hold := rfl
@[simp] theorem State.satF_trace (s : State) (a lo n : Nat) : (s.satF a lo n).trace = s.trace := rfl
@[simp] theorem State.satF_frz (s : State) (a lo n : Nat) : (s.satF a lo n).frz = s.frz := rfl
@[simp] theorem State.satF_tap (s : State) (a lo n : Nat) : (s.satF a lo n).tap = s.tap := rfl
@[simp] theorem State.satF_out (s : State) (a lo n : Nat) : (s.satF a lo n).out = s.out := rfl
@[simp] theorem State.satF_resp (s : State) (a lo n : Nat) : (s.satF a lo n).resp = s.resp := rfl
@[simp] theorem State.satF_freeCtr (s : State) (a lo n : Nat) : (s.satF a lo n).freeCtr = s.freeCtr := rfl
@[simp] theorem State.satF_contract (s : State) (a lo n : Nat) : (s.satF a lo n).contract = s.contract := rfl
@[simp] theorem State.satF_byte (s : State) (a lo n : Nat) (y : Nat) : (s.satF a lo n).byte y = s.byte y := rfl

@[simp] theorem State.putBytes_pending (s : State) (a : Nat) (bs : List Byte) : (s.putBytes a bs).pending = s.pending := rfl
@[simp] theorem State.putBytes_powered (s : State) (a : Nat) (bs : List Byte) : (s.putBytes a bs).powered = s.powered := rfl
@[simp] theorem State.putBytes_pins (s : State) (a : Nat) (bs : List Byte) : (s.putBytes a bs).pins = s.pins := rfl
@[simp] theorem State.putBytes_clk (s : State) (a : Nat) (bs : List Byte) : (s.putBytes a bs).clk = s.clk := rfl
@[simp] theorem State.putBytes_regs (s : State) (a : Nat) (bs : List Byte) : (s.putBytes a bs).regs = s.regs := rfl
@[simp] theorem State.putBytes_shadows (s : State) (a : Nat) (bs : List Byte) : (s.putBytes a bs).shadows = s.shadows := rfl
@[simp] theorem State.putBytes_memGen (s : State) (a : Nat) (bs : List Byte) : (s.putBytes a bs).memGen = s.memGen := rfl
@[simp] theorem State.putBytes_health (s : State) (a : Nat) (bs : List Byte) : (s.putBytes a bs).health = s.health := rfl
@[simp] theorem State.putBytes_loader (s : State) (a : Nat) (bs : List Byte) : (s.putBytes a bs).loader = s.loader := rfl
@[simp] theorem State.putBytes_warp (s : State) (a : Nat) (bs : List Byte) : (s.putBytes a bs).warp = s.warp := rfl
@[simp] theorem State.putBytes_pos (s : State) (a : Nat) (bs : List Byte) : (s.putBytes a bs).pos = s.pos := rfl
@[simp] theorem State.putBytes_slots (s : State) (a : Nat) (bs : List Byte) : (s.putBytes a bs).slots = s.slots := rfl
@[simp] theorem State.putBytes_intake (s : State) (a : Nat) (bs : List Byte) : (s.putBytes a bs).intake = s.intake := rfl
@[simp] theorem State.putBytes_cores (s : State) (a : Nat) (bs : List Byte) : (s.putBytes a bs).cores = s.cores := rfl
@[simp] theorem State.putBytes_chans (s : State) (a : Nat) (bs : List Byte) : (s.putBytes a bs).chans = s.chans := rfl
@[simp] theorem State.putBytes_emb (s : State) (a : Nat) (bs : List Byte) : (s.putBytes a bs).emb = s.emb := rfl
@[simp] theorem State.putBytes_chain (s : State) (a : Nat) (bs : List Byte) : (s.putBytes a bs).chain = s.chain := rfl
@[simp] theorem State.putBytes_selv (s : State) (a : Nat) (bs : List Byte) : (s.putBytes a bs).selv = s.selv := rfl
@[simp] theorem State.putBytes_host (s : State) (a : Nat) (bs : List Byte) : (s.putBytes a bs).host = s.host := rfl
@[simp] theorem State.putBytes_i2c (s : State) (a : Nat) (bs : List Byte) : (s.putBytes a bs).i2c = s.i2c := rfl
@[simp] theorem State.putBytes_hold (s : State) (a : Nat) (bs : List Byte) : (s.putBytes a bs).hold = s.hold := rfl
@[simp] theorem State.putBytes_trace (s : State) (a : Nat) (bs : List Byte) : (s.putBytes a bs).trace = s.trace := rfl
@[simp] theorem State.putBytes_frz (s : State) (a : Nat) (bs : List Byte) : (s.putBytes a bs).frz = s.frz := rfl
@[simp] theorem State.putBytes_tap (s : State) (a : Nat) (bs : List Byte) : (s.putBytes a bs).tap = s.tap := rfl
@[simp] theorem State.putBytes_out (s : State) (a : Nat) (bs : List Byte) : (s.putBytes a bs).out = s.out := rfl
@[simp] theorem State.putBytes_resp (s : State) (a : Nat) (bs : List Byte) : (s.putBytes a bs).resp = s.resp := rfl
@[simp] theorem State.putBytes_freeCtr (s : State) (a : Nat) (bs : List Byte) : (s.putBytes a bs).freeCtr = s.freeCtr := rfl
@[simp] theorem State.putBytes_contract (s : State) (a : Nat) (bs : List Byte) : (s.putBytes a bs).contract = s.contract := rfl
@[simp] theorem State.putBytes_mem (s : State) (a : Nat) (bs : List Byte) : (s.putBytes a bs).mem = Memory.writes s.memGen s.mem a bs := rfl
@[simp] theorem State.putBytes_rd (s : State) (a : Nat) (bs : List Byte) (x : Nat) : (s.putBytes a bs).rd x = s.rd x := rfl
@[simp] theorem State.putBytes_fld (s : State) (a : Nat) (bs : List Byte) (y lo w : Nat) : (s.putBytes a bs).fld y lo w = s.fld y lo w := rfl
@[simp] theorem State.putBytes_bit (s : State) (a : Nat) (bs : List Byte) (y j : Nat) : (s.putBytes a bs).bit y j = s.bit y j := rfl

@[simp] theorem State.tickFree_pending (s : State) : (s.tickFree).pending = s.pending := rfl
@[simp] theorem State.tickFree_powered (s : State) : (s.tickFree).powered = s.powered := rfl
@[simp] theorem State.tickFree_pins (s : State) : (s.tickFree).pins = s.pins := rfl
@[simp] theorem State.tickFree_clk (s : State) : (s.tickFree).clk = s.clk := rfl
@[simp] theorem State.tickFree_regs (s : State) : (s.tickFree).regs = s.regs := rfl
@[simp] theorem State.tickFree_shadows (s : State) : (s.tickFree).shadows = s.shadows := rfl
@[simp] theorem State.tickFree_mem (s : State) : (s.tickFree).mem = s.mem := rfl
@[simp] theorem State.tickFree_memGen (s : State) : (s.tickFree).memGen = s.memGen := rfl
@[simp] theorem State.tickFree_health (s : State) : (s.tickFree).health = s.health := rfl
@[simp] theorem State.tickFree_loader (s : State) : (s.tickFree).loader = s.loader := rfl
@[simp] theorem State.tickFree_warp (s : State) : (s.tickFree).warp = s.warp := rfl
@[simp] theorem State.tickFree_pos (s : State) : (s.tickFree).pos = s.pos := rfl
@[simp] theorem State.tickFree_slots (s : State) : (s.tickFree).slots = s.slots := rfl
@[simp] theorem State.tickFree_intake (s : State) : (s.tickFree).intake = s.intake := rfl
@[simp] theorem State.tickFree_cores (s : State) : (s.tickFree).cores = s.cores := rfl
@[simp] theorem State.tickFree_chans (s : State) : (s.tickFree).chans = s.chans := rfl
@[simp] theorem State.tickFree_emb (s : State) : (s.tickFree).emb = s.emb := rfl
@[simp] theorem State.tickFree_chain (s : State) : (s.tickFree).chain = s.chain := rfl
@[simp] theorem State.tickFree_selv (s : State) : (s.tickFree).selv = s.selv := rfl
@[simp] theorem State.tickFree_host (s : State) : (s.tickFree).host = s.host := rfl
@[simp] theorem State.tickFree_i2c (s : State) : (s.tickFree).i2c = s.i2c := rfl
@[simp] theorem State.tickFree_hold (s : State) : (s.tickFree).hold = s.hold := rfl
@[simp] theorem State.tickFree_trace (s : State) : (s.tickFree).trace = s.trace := rfl
@[simp] theorem State.tickFree_frz (s : State) : (s.tickFree).frz = s.frz := rfl
@[simp] theorem State.tickFree_tap (s : State) : (s.tickFree).tap = s.tap := rfl
@[simp] theorem State.tickFree_out (s : State) : (s.tickFree).out = s.out := rfl
@[simp] theorem State.tickFree_resp (s : State) : (s.tickFree).resp = s.resp := rfl
@[simp] theorem State.tickFree_freeCtr (s : State) : (s.tickFree).freeCtr = s.freeCtr + 1 := rfl
@[simp] theorem State.tickFree_contract (s : State) : (s.tickFree).contract = s.contract := rfl
@[simp] theorem State.tickFree_rd (s : State) (x : Nat) : (s.tickFree).rd x = s.rd x := rfl
@[simp] theorem State.tickFree_fld (s : State) (y lo w : Nat) : (s.tickFree).fld y lo w = s.fld y lo w := rfl
@[simp] theorem State.tickFree_bit (s : State) (y j : Nat) : (s.tickFree).bit y j = s.bit y j := rfl
@[simp] theorem State.tickFree_byte (s : State) (y : Nat) : (s.tickFree).byte y = s.byte y := rfl

@[simp] theorem State.emit_pending (s : State) (o : Out) : (s.emit o).pending = s.pending := rfl
@[simp] theorem State.emit_powered (s : State) (o : Out) : (s.emit o).powered = s.powered := rfl
@[simp] theorem State.emit_pins (s : State) (o : Out) : (s.emit o).pins = s.pins := rfl
@[simp] theorem State.emit_clk (s : State) (o : Out) : (s.emit o).clk = s.clk := rfl
@[simp] theorem State.emit_regs (s : State) (o : Out) : (s.emit o).regs = s.regs := rfl
@[simp] theorem State.emit_shadows (s : State) (o : Out) : (s.emit o).shadows = s.shadows := rfl
@[simp] theorem State.emit_mem (s : State) (o : Out) : (s.emit o).mem = s.mem := rfl
@[simp] theorem State.emit_memGen (s : State) (o : Out) : (s.emit o).memGen = s.memGen := rfl
@[simp] theorem State.emit_health (s : State) (o : Out) : (s.emit o).health = s.health := rfl
@[simp] theorem State.emit_loader (s : State) (o : Out) : (s.emit o).loader = s.loader := rfl
@[simp] theorem State.emit_warp (s : State) (o : Out) : (s.emit o).warp = s.warp := rfl
@[simp] theorem State.emit_pos (s : State) (o : Out) : (s.emit o).pos = s.pos := rfl
@[simp] theorem State.emit_slots (s : State) (o : Out) : (s.emit o).slots = s.slots := rfl
@[simp] theorem State.emit_intake (s : State) (o : Out) : (s.emit o).intake = s.intake := rfl
@[simp] theorem State.emit_cores (s : State) (o : Out) : (s.emit o).cores = s.cores := rfl
@[simp] theorem State.emit_chans (s : State) (o : Out) : (s.emit o).chans = s.chans := rfl
@[simp] theorem State.emit_emb (s : State) (o : Out) : (s.emit o).emb = s.emb := rfl
@[simp] theorem State.emit_chain (s : State) (o : Out) : (s.emit o).chain = s.chain := rfl
@[simp] theorem State.emit_selv (s : State) (o : Out) : (s.emit o).selv = s.selv := rfl
@[simp] theorem State.emit_host (s : State) (o : Out) : (s.emit o).host = s.host := rfl
@[simp] theorem State.emit_i2c (s : State) (o : Out) : (s.emit o).i2c = s.i2c := rfl
@[simp] theorem State.emit_hold (s : State) (o : Out) : (s.emit o).hold = s.hold := rfl
@[simp] theorem State.emit_trace (s : State) (o : Out) : (s.emit o).trace = s.trace := rfl
@[simp] theorem State.emit_frz (s : State) (o : Out) : (s.emit o).frz = s.frz := rfl
@[simp] theorem State.emit_tap (s : State) (o : Out) : (s.emit o).tap = s.tap := rfl
@[simp] theorem State.emit_resp (s : State) (o : Out) : (s.emit o).resp = s.resp := rfl
@[simp] theorem State.emit_freeCtr (s : State) (o : Out) : (s.emit o).freeCtr = s.freeCtr := rfl
@[simp] theorem State.emit_contract (s : State) (o : Out) : (s.emit o).contract = s.contract := rfl
@[simp] theorem State.emit_out (s : State) (o : Out) : (s.emit o).out = o :: s.out := rfl
@[simp] theorem State.emit_rd (s : State) (o : Out) (x : Nat) : (s.emit o).rd x = s.rd x := rfl
@[simp] theorem State.emit_fld (s : State) (o : Out) (y lo w : Nat) : (s.emit o).fld y lo w = s.fld y lo w := rfl
@[simp] theorem State.emit_bit (s : State) (o : Out) (y j : Nat) : (s.emit o).bit y j = s.bit y j := rfl
@[simp] theorem State.emit_byte (s : State) (o : Out) (y : Nat) : (s.emit o).byte y = s.byte y := rfl

@[simp] theorem State.answer_pending (s : State) (r : Resp) : (s.answer r).pending = s.pending := rfl
@[simp] theorem State.answer_powered (s : State) (r : Resp) : (s.answer r).powered = s.powered := rfl
@[simp] theorem State.answer_pins (s : State) (r : Resp) : (s.answer r).pins = s.pins := rfl
@[simp] theorem State.answer_clk (s : State) (r : Resp) : (s.answer r).clk = s.clk := rfl
@[simp] theorem State.answer_regs (s : State) (r : Resp) : (s.answer r).regs = s.regs := rfl
@[simp] theorem State.answer_shadows (s : State) (r : Resp) : (s.answer r).shadows = s.shadows := rfl
@[simp] theorem State.answer_mem (s : State) (r : Resp) : (s.answer r).mem = s.mem := rfl
@[simp] theorem State.answer_memGen (s : State) (r : Resp) : (s.answer r).memGen = s.memGen := rfl
@[simp] theorem State.answer_health (s : State) (r : Resp) : (s.answer r).health = s.health := rfl
@[simp] theorem State.answer_loader (s : State) (r : Resp) : (s.answer r).loader = s.loader := rfl
@[simp] theorem State.answer_warp (s : State) (r : Resp) : (s.answer r).warp = s.warp := rfl
@[simp] theorem State.answer_pos (s : State) (r : Resp) : (s.answer r).pos = s.pos := rfl
@[simp] theorem State.answer_slots (s : State) (r : Resp) : (s.answer r).slots = s.slots := rfl
@[simp] theorem State.answer_intake (s : State) (r : Resp) : (s.answer r).intake = s.intake := rfl
@[simp] theorem State.answer_cores (s : State) (r : Resp) : (s.answer r).cores = s.cores := rfl
@[simp] theorem State.answer_chans (s : State) (r : Resp) : (s.answer r).chans = s.chans := rfl
@[simp] theorem State.answer_emb (s : State) (r : Resp) : (s.answer r).emb = s.emb := rfl
@[simp] theorem State.answer_chain (s : State) (r : Resp) : (s.answer r).chain = s.chain := rfl
@[simp] theorem State.answer_selv (s : State) (r : Resp) : (s.answer r).selv = s.selv := rfl
@[simp] theorem State.answer_host (s : State) (r : Resp) : (s.answer r).host = s.host := rfl
@[simp] theorem State.answer_i2c (s : State) (r : Resp) : (s.answer r).i2c = s.i2c := rfl
@[simp] theorem State.answer_hold (s : State) (r : Resp) : (s.answer r).hold = s.hold := rfl
@[simp] theorem State.answer_trace (s : State) (r : Resp) : (s.answer r).trace = s.trace := rfl
@[simp] theorem State.answer_frz (s : State) (r : Resp) : (s.answer r).frz = s.frz := rfl
@[simp] theorem State.answer_tap (s : State) (r : Resp) : (s.answer r).tap = s.tap := rfl
@[simp] theorem State.answer_out (s : State) (r : Resp) : (s.answer r).out = s.out := rfl
@[simp] theorem State.answer_freeCtr (s : State) (r : Resp) : (s.answer r).freeCtr = s.freeCtr := rfl
@[simp] theorem State.answer_contract (s : State) (r : Resp) : (s.answer r).contract = s.contract := rfl
@[simp] theorem State.answer_resp (s : State) (r : Resp) : (s.answer r).resp = r := rfl
@[simp] theorem State.answer_rd (s : State) (r : Resp) (x : Nat) : (s.answer r).rd x = s.rd x := rfl
@[simp] theorem State.answer_fld (s : State) (r : Resp) (y lo w : Nat) : (s.answer r).fld y lo w = s.fld y lo w := rfl
@[simp] theorem State.answer_bit (s : State) (r : Resp) (y j : Nat) : (s.answer r).bit y j = s.bit y j := rfl
@[simp] theorem State.answer_byte (s : State) (r : Resp) (y : Nat) : (s.answer r).byte y = s.byte y := rfl

@[simp] theorem setCore_pending (s : State) (k : Nat) (c : CoreSt) : (setCore s k c).pending = s.pending := rfl
@[simp] theorem setCore_powered (s : State) (k : Nat) (c : CoreSt) : (setCore s k c).powered = s.powered := rfl
@[simp] theorem setCore_pins (s : State) (k : Nat) (c : CoreSt) : (setCore s k c).pins = s.pins := rfl
@[simp] theorem setCore_clk (s : State) (k : Nat) (c : CoreSt) : (setCore s k c).clk = s.clk := rfl
@[simp] theorem setCore_regs (s : State) (k : Nat) (c : CoreSt) : (setCore s k c).regs = s.regs := rfl
@[simp] theorem setCore_shadows (s : State) (k : Nat) (c : CoreSt) : (setCore s k c).shadows = s.shadows := rfl
@[simp] theorem setCore_mem (s : State) (k : Nat) (c : CoreSt) : (setCore s k c).mem = s.mem := rfl
@[simp] theorem setCore_memGen (s : State) (k : Nat) (c : CoreSt) : (setCore s k c).memGen = s.memGen := rfl
@[simp] theorem setCore_health (s : State) (k : Nat) (c : CoreSt) : (setCore s k c).health = s.health := rfl
@[simp] theorem setCore_loader (s : State) (k : Nat) (c : CoreSt) : (setCore s k c).loader = s.loader := rfl
@[simp] theorem setCore_warp (s : State) (k : Nat) (c : CoreSt) : (setCore s k c).warp = s.warp := rfl
@[simp] theorem setCore_pos (s : State) (k : Nat) (c : CoreSt) : (setCore s k c).pos = s.pos := rfl
@[simp] theorem setCore_slots (s : State) (k : Nat) (c : CoreSt) : (setCore s k c).slots = s.slots := rfl
@[simp] theorem setCore_intake (s : State) (k : Nat) (c : CoreSt) : (setCore s k c).intake = s.intake := rfl
@[simp] theorem setCore_chans (s : State) (k : Nat) (c : CoreSt) : (setCore s k c).chans = s.chans := rfl
@[simp] theorem setCore_emb (s : State) (k : Nat) (c : CoreSt) : (setCore s k c).emb = s.emb := rfl
@[simp] theorem setCore_chain (s : State) (k : Nat) (c : CoreSt) : (setCore s k c).chain = s.chain := rfl
@[simp] theorem setCore_selv (s : State) (k : Nat) (c : CoreSt) : (setCore s k c).selv = s.selv := rfl
@[simp] theorem setCore_host (s : State) (k : Nat) (c : CoreSt) : (setCore s k c).host = s.host := rfl
@[simp] theorem setCore_i2c (s : State) (k : Nat) (c : CoreSt) : (setCore s k c).i2c = s.i2c := rfl
@[simp] theorem setCore_hold (s : State) (k : Nat) (c : CoreSt) : (setCore s k c).hold = s.hold := rfl
@[simp] theorem setCore_trace (s : State) (k : Nat) (c : CoreSt) : (setCore s k c).trace = s.trace := rfl
@[simp] theorem setCore_frz (s : State) (k : Nat) (c : CoreSt) : (setCore s k c).frz = s.frz := rfl
@[simp] theorem setCore_tap (s : State) (k : Nat) (c : CoreSt) : (setCore s k c).tap = s.tap := rfl
@[simp] theorem setCore_out (s : State) (k : Nat) (c : CoreSt) : (setCore s k c).out = s.out := rfl
@[simp] theorem setCore_resp (s : State) (k : Nat) (c : CoreSt) : (setCore s k c).resp = s.resp := rfl
@[simp] theorem setCore_freeCtr (s : State) (k : Nat) (c : CoreSt) : (setCore s k c).freeCtr = s.freeCtr := rfl
@[simp] theorem setCore_contract (s : State) (k : Nat) (c : CoreSt) : (setCore s k c).contract = s.contract := rfl
@[simp] theorem setCore_rd (s : State) (k : Nat) (c : CoreSt) (x : Nat) : (setCore s k c).rd x = s.rd x := rfl
@[simp] theorem setCore_fld (s : State) (k : Nat) (c : CoreSt) (y lo w : Nat) : (setCore s k c).fld y lo w = s.fld y lo w := rfl
@[simp] theorem setCore_bit (s : State) (k : Nat) (c : CoreSt) (y j : Nat) : (setCore s k c).bit y j = s.bit y j := rfl
@[simp] theorem setCore_byte (s : State) (k : Nat) (c : CoreSt) (y : Nat) : (setCore s k c).byte y = s.byte y := rfl

@[simp] theorem setLink_pending (s : State) (l : Nat) (x : Link) : (setLink s l x).pending = s.pending := rfl
@[simp] theorem setLink_powered (s : State) (l : Nat) (x : Link) : (setLink s l x).powered = s.powered := rfl
@[simp] theorem setLink_pins (s : State) (l : Nat) (x : Link) : (setLink s l x).pins = s.pins := rfl
@[simp] theorem setLink_clk (s : State) (l : Nat) (x : Link) : (setLink s l x).clk = s.clk := rfl
@[simp] theorem setLink_regs (s : State) (l : Nat) (x : Link) : (setLink s l x).regs = s.regs := rfl
@[simp] theorem setLink_shadows (s : State) (l : Nat) (x : Link) : (setLink s l x).shadows = s.shadows := rfl
@[simp] theorem setLink_mem (s : State) (l : Nat) (x : Link) : (setLink s l x).mem = s.mem := rfl
@[simp] theorem setLink_memGen (s : State) (l : Nat) (x : Link) : (setLink s l x).memGen = s.memGen := rfl
@[simp] theorem setLink_health (s : State) (l : Nat) (x : Link) : (setLink s l x).health = s.health := rfl
@[simp] theorem setLink_loader (s : State) (l : Nat) (x : Link) : (setLink s l x).loader = s.loader := rfl
@[simp] theorem setLink_warp (s : State) (l : Nat) (x : Link) : (setLink s l x).warp = s.warp := rfl
@[simp] theorem setLink_pos (s : State) (l : Nat) (x : Link) : (setLink s l x).pos = s.pos := rfl
@[simp] theorem setLink_slots (s : State) (l : Nat) (x : Link) : (setLink s l x).slots = s.slots := rfl
@[simp] theorem setLink_intake (s : State) (l : Nat) (x : Link) : (setLink s l x).intake = s.intake := rfl
@[simp] theorem setLink_cores (s : State) (l : Nat) (x : Link) : (setLink s l x).cores = s.cores := rfl
@[simp] theorem setLink_chans (s : State) (l : Nat) (x : Link) : (setLink s l x).chans = s.chans := rfl
@[simp] theorem setLink_emb (s : State) (l : Nat) (x : Link) : (setLink s l x).emb = s.emb := rfl
@[simp] theorem setLink_selv (s : State) (l : Nat) (x : Link) : (setLink s l x).selv = s.selv := rfl
@[simp] theorem setLink_host (s : State) (l : Nat) (x : Link) : (setLink s l x).host = s.host := rfl
@[simp] theorem setLink_i2c (s : State) (l : Nat) (x : Link) : (setLink s l x).i2c = s.i2c := rfl
@[simp] theorem setLink_hold (s : State) (l : Nat) (x : Link) : (setLink s l x).hold = s.hold := rfl
@[simp] theorem setLink_trace (s : State) (l : Nat) (x : Link) : (setLink s l x).trace = s.trace := rfl
@[simp] theorem setLink_frz (s : State) (l : Nat) (x : Link) : (setLink s l x).frz = s.frz := rfl
@[simp] theorem setLink_tap (s : State) (l : Nat) (x : Link) : (setLink s l x).tap = s.tap := rfl
@[simp] theorem setLink_out (s : State) (l : Nat) (x : Link) : (setLink s l x).out = s.out := rfl
@[simp] theorem setLink_resp (s : State) (l : Nat) (x : Link) : (setLink s l x).resp = s.resp := rfl
@[simp] theorem setLink_freeCtr (s : State) (l : Nat) (x : Link) : (setLink s l x).freeCtr = s.freeCtr := rfl
@[simp] theorem setLink_contract (s : State) (l : Nat) (x : Link) : (setLink s l x).contract = s.contract := rfl
@[simp] theorem setLink_rd (s : State) (l : Nat) (x : Link) (y : Nat) : (setLink s l x).rd y = s.rd y := rfl
@[simp] theorem setLink_fld (s : State) (l : Nat) (x : Link) (y lo w : Nat) : (setLink s l x).fld y lo w = s.fld y lo w := rfl
@[simp] theorem setLink_bit (s : State) (l : Nat) (x : Link) (y j : Nat) : (setLink s l x).bit y j = s.bit y j := rfl
@[simp] theorem setLink_byte (s : State) (l : Nat) (x : Link) (y : Nat) : (setLink s l x).byte y = s.byte y := rfl

@[simp] theorem setChan_pending (s : State) (c : Nat) (x : Chan) : (setChan s c x).pending = s.pending := rfl
@[simp] theorem setChan_powered (s : State) (c : Nat) (x : Chan) : (setChan s c x).powered = s.powered := rfl
@[simp] theorem setChan_pins (s : State) (c : Nat) (x : Chan) : (setChan s c x).pins = s.pins := rfl
@[simp] theorem setChan_clk (s : State) (c : Nat) (x : Chan) : (setChan s c x).clk = s.clk := rfl
@[simp] theorem setChan_regs (s : State) (c : Nat) (x : Chan) : (setChan s c x).regs = s.regs := rfl
@[simp] theorem setChan_shadows (s : State) (c : Nat) (x : Chan) : (setChan s c x).shadows = s.shadows := rfl
@[simp] theorem setChan_mem (s : State) (c : Nat) (x : Chan) : (setChan s c x).mem = s.mem := rfl
@[simp] theorem setChan_memGen (s : State) (c : Nat) (x : Chan) : (setChan s c x).memGen = s.memGen := rfl
@[simp] theorem setChan_health (s : State) (c : Nat) (x : Chan) : (setChan s c x).health = s.health := rfl
@[simp] theorem setChan_loader (s : State) (c : Nat) (x : Chan) : (setChan s c x).loader = s.loader := rfl
@[simp] theorem setChan_warp (s : State) (c : Nat) (x : Chan) : (setChan s c x).warp = s.warp := rfl
@[simp] theorem setChan_pos (s : State) (c : Nat) (x : Chan) : (setChan s c x).pos = s.pos := rfl
@[simp] theorem setChan_slots (s : State) (c : Nat) (x : Chan) : (setChan s c x).slots = s.slots := rfl
@[simp] theorem setChan_intake (s : State) (c : Nat) (x : Chan) : (setChan s c x).intake = s.intake := rfl
@[simp] theorem setChan_cores (s : State) (c : Nat) (x : Chan) : (setChan s c x).cores = s.cores := rfl
@[simp] theorem setChan_emb (s : State) (c : Nat) (x : Chan) : (setChan s c x).emb = s.emb := rfl
@[simp] theorem setChan_chain (s : State) (c : Nat) (x : Chan) : (setChan s c x).chain = s.chain := rfl
@[simp] theorem setChan_selv (s : State) (c : Nat) (x : Chan) : (setChan s c x).selv = s.selv := rfl
@[simp] theorem setChan_host (s : State) (c : Nat) (x : Chan) : (setChan s c x).host = s.host := rfl
@[simp] theorem setChan_i2c (s : State) (c : Nat) (x : Chan) : (setChan s c x).i2c = s.i2c := rfl
@[simp] theorem setChan_hold (s : State) (c : Nat) (x : Chan) : (setChan s c x).hold = s.hold := rfl
@[simp] theorem setChan_trace (s : State) (c : Nat) (x : Chan) : (setChan s c x).trace = s.trace := rfl
@[simp] theorem setChan_frz (s : State) (c : Nat) (x : Chan) : (setChan s c x).frz = s.frz := rfl
@[simp] theorem setChan_tap (s : State) (c : Nat) (x : Chan) : (setChan s c x).tap = s.tap := rfl
@[simp] theorem setChan_out (s : State) (c : Nat) (x : Chan) : (setChan s c x).out = s.out := rfl
@[simp] theorem setChan_resp (s : State) (c : Nat) (x : Chan) : (setChan s c x).resp = s.resp := rfl
@[simp] theorem setChan_freeCtr (s : State) (c : Nat) (x : Chan) : (setChan s c x).freeCtr = s.freeCtr := rfl
@[simp] theorem setChan_contract (s : State) (c : Nat) (x : Chan) : (setChan s c x).contract = s.contract := rfl
@[simp] theorem setChan_rd (s : State) (c : Nat) (x : Chan) (y : Nat) : (setChan s c x).rd y = s.rd y := rfl
@[simp] theorem setChan_fld (s : State) (c : Nat) (x : Chan) (y lo w : Nat) : (setChan s c x).fld y lo w = s.fld y lo w := rfl
@[simp] theorem setChan_bit (s : State) (c : Nat) (x : Chan) (y j : Nat) : (setChan s c x).bit y j = s.bit y j := rfl
@[simp] theorem setChan_byte (s : State) (c : Nat) (x : Chan) (y : Nat) : (setChan s c x).byte y = s.byte y := rfl

@[simp] theorem setPairSt_pending (s : State) (i : Nat) (p : PairSt) : (setPairSt s i p).pending = s.pending := rfl
@[simp] theorem setPairSt_powered (s : State) (i : Nat) (p : PairSt) : (setPairSt s i p).powered = s.powered := rfl
@[simp] theorem setPairSt_pins (s : State) (i : Nat) (p : PairSt) : (setPairSt s i p).pins = s.pins := rfl
@[simp] theorem setPairSt_clk (s : State) (i : Nat) (p : PairSt) : (setPairSt s i p).clk = s.clk := rfl
@[simp] theorem setPairSt_regs (s : State) (i : Nat) (p : PairSt) : (setPairSt s i p).regs = s.regs := rfl
@[simp] theorem setPairSt_shadows (s : State) (i : Nat) (p : PairSt) : (setPairSt s i p).shadows = s.shadows := rfl
@[simp] theorem setPairSt_mem (s : State) (i : Nat) (p : PairSt) : (setPairSt s i p).mem = s.mem := rfl
@[simp] theorem setPairSt_memGen (s : State) (i : Nat) (p : PairSt) : (setPairSt s i p).memGen = s.memGen := rfl
@[simp] theorem setPairSt_health (s : State) (i : Nat) (p : PairSt) : (setPairSt s i p).health = s.health := rfl
@[simp] theorem setPairSt_loader (s : State) (i : Nat) (p : PairSt) : (setPairSt s i p).loader = s.loader := rfl
@[simp] theorem setPairSt_warp (s : State) (i : Nat) (p : PairSt) : (setPairSt s i p).warp = s.warp := rfl
@[simp] theorem setPairSt_pos (s : State) (i : Nat) (p : PairSt) : (setPairSt s i p).pos = s.pos := rfl
@[simp] theorem setPairSt_slots (s : State) (i : Nat) (p : PairSt) : (setPairSt s i p).slots = s.slots := rfl
@[simp] theorem setPairSt_intake (s : State) (i : Nat) (p : PairSt) : (setPairSt s i p).intake = s.intake := rfl
@[simp] theorem setPairSt_cores (s : State) (i : Nat) (p : PairSt) : (setPairSt s i p).cores = s.cores := rfl
@[simp] theorem setPairSt_chans (s : State) (i : Nat) (p : PairSt) : (setPairSt s i p).chans = s.chans := rfl
@[simp] theorem setPairSt_emb (s : State) (i : Nat) (p : PairSt) : (setPairSt s i p).emb = s.emb := rfl
@[simp] theorem setPairSt_chain (s : State) (i : Nat) (p : PairSt) : (setPairSt s i p).chain = s.chain := rfl
@[simp] theorem setPairSt_host (s : State) (i : Nat) (p : PairSt) : (setPairSt s i p).host = s.host := rfl
@[simp] theorem setPairSt_i2c (s : State) (i : Nat) (p : PairSt) : (setPairSt s i p).i2c = s.i2c := rfl
@[simp] theorem setPairSt_hold (s : State) (i : Nat) (p : PairSt) : (setPairSt s i p).hold = s.hold := rfl
@[simp] theorem setPairSt_trace (s : State) (i : Nat) (p : PairSt) : (setPairSt s i p).trace = s.trace := rfl
@[simp] theorem setPairSt_frz (s : State) (i : Nat) (p : PairSt) : (setPairSt s i p).frz = s.frz := rfl
@[simp] theorem setPairSt_tap (s : State) (i : Nat) (p : PairSt) : (setPairSt s i p).tap = s.tap := rfl
@[simp] theorem setPairSt_out (s : State) (i : Nat) (p : PairSt) : (setPairSt s i p).out = s.out := rfl
@[simp] theorem setPairSt_resp (s : State) (i : Nat) (p : PairSt) : (setPairSt s i p).resp = s.resp := rfl
@[simp] theorem setPairSt_freeCtr (s : State) (i : Nat) (p : PairSt) : (setPairSt s i p).freeCtr = s.freeCtr := rfl
@[simp] theorem setPairSt_contract (s : State) (i : Nat) (p : PairSt) : (setPairSt s i p).contract = s.contract := rfl
@[simp] theorem setPairSt_rd (s : State) (i : Nat) (p : PairSt) (x : Nat) : (setPairSt s i p).rd x = s.rd x := rfl
@[simp] theorem setPairSt_fld (s : State) (i : Nat) (p : PairSt) (y lo w : Nat) : (setPairSt s i p).fld y lo w = s.fld y lo w := rfl
@[simp] theorem setPairSt_bit (s : State) (i : Nat) (p : PairSt) (y j : Nat) : (setPairSt s i p).bit y j = s.bit y j := rfl
@[simp] theorem setPairSt_byte (s : State) (i : Nat) (p : PairSt) (y : Nat) : (setPairSt s i p).byte y = s.byte y := rfl

@[simp] theorem State.leave_pending (r : Nat) (s : State) : (s.leave r).pending = s.pending := by unfold State.leave; split <;> rfl
@[simp] theorem State.leave_powered (r : Nat) (s : State) : (s.leave r).powered = s.powered := by unfold State.leave; split <;> rfl
@[simp] theorem State.leave_pins (r : Nat) (s : State) : (s.leave r).pins = s.pins := by unfold State.leave; split <;> rfl
@[simp] theorem State.leave_clk (r : Nat) (s : State) : (s.leave r).clk = s.clk := by unfold State.leave; split <;> rfl
@[simp] theorem State.leave_regs (r : Nat) (s : State) : (s.leave r).regs = s.regs := by unfold State.leave; split <;> rfl
@[simp] theorem State.leave_shadows (r : Nat) (s : State) : (s.leave r).shadows = s.shadows := by unfold State.leave; split <;> rfl
@[simp] theorem State.leave_mem (r : Nat) (s : State) : (s.leave r).mem = s.mem := by unfold State.leave; split <;> rfl
@[simp] theorem State.leave_memGen (r : Nat) (s : State) : (s.leave r).memGen = s.memGen := by unfold State.leave; split <;> rfl
@[simp] theorem State.leave_health (r : Nat) (s : State) : (s.leave r).health = s.health := by unfold State.leave; split <;> rfl
@[simp] theorem State.leave_loader (r : Nat) (s : State) : (s.leave r).loader = s.loader := by unfold State.leave; split <;> rfl
@[simp] theorem State.leave_warp (r : Nat) (s : State) : (s.leave r).warp = s.warp := by unfold State.leave; split <;> rfl
@[simp] theorem State.leave_pos (r : Nat) (s : State) : (s.leave r).pos = s.pos := by unfold State.leave; split <;> rfl
@[simp] theorem State.leave_slots (r : Nat) (s : State) : (s.leave r).slots = s.slots := by unfold State.leave; split <;> rfl
@[simp] theorem State.leave_intake (r : Nat) (s : State) : (s.leave r).intake = s.intake := by unfold State.leave; split <;> rfl
@[simp] theorem State.leave_cores (r : Nat) (s : State) : (s.leave r).cores = s.cores := by unfold State.leave; split <;> rfl
@[simp] theorem State.leave_chans (r : Nat) (s : State) : (s.leave r).chans = s.chans := by unfold State.leave; split <;> rfl
@[simp] theorem State.leave_emb (r : Nat) (s : State) : (s.leave r).emb = s.emb := by unfold State.leave; split <;> rfl
@[simp] theorem State.leave_chain (r : Nat) (s : State) : (s.leave r).chain = s.chain := by unfold State.leave; split <;> rfl
@[simp] theorem State.leave_selv (r : Nat) (s : State) : (s.leave r).selv = s.selv := by unfold State.leave; split <;> rfl
@[simp] theorem State.leave_host (r : Nat) (s : State) : (s.leave r).host = s.host := by unfold State.leave; split <;> rfl
@[simp] theorem State.leave_i2c (r : Nat) (s : State) : (s.leave r).i2c = s.i2c := by unfold State.leave; split <;> rfl
@[simp] theorem State.leave_hold (r : Nat) (s : State) : (s.leave r).hold = s.hold := by unfold State.leave; split <;> rfl
@[simp] theorem State.leave_trace (r : Nat) (s : State) : (s.leave r).trace = s.trace := by unfold State.leave; split <;> rfl
@[simp] theorem State.leave_frz (r : Nat) (s : State) : (s.leave r).frz = s.frz := by unfold State.leave; split <;> rfl
@[simp] theorem State.leave_tap (r : Nat) (s : State) : (s.leave r).tap = s.tap := by unfold State.leave; split <;> rfl
@[simp] theorem State.leave_out (r : Nat) (s : State) : (s.leave r).out = s.out := by unfold State.leave; split <;> rfl
@[simp] theorem State.leave_resp (r : Nat) (s : State) : (s.leave r).resp = s.resp := by unfold State.leave; split <;> rfl
@[simp] theorem State.leave_freeCtr (r : Nat) (s : State) : (s.leave r).freeCtr = s.freeCtr := by unfold State.leave; split <;> rfl

end Sys2Proof.Machine
end

