-- ==== Sys2Proof/WellFormed.lean ====
section
/-! DEFINITION. Well-formed commands: the operands a command of the outside world can have, beyond what the types of
`Instr` say. -/

namespace Sys2Proof

/-- A BAR0 access is an aligned access of 32 or 64 bits (R8). -/
def bar0Ok (a : BitVec 26) : AccSize → Bool
  | .b32 => a.toNat % 4 == 0
  | .b64 => a.toNat % 8 == 0
  | .other => false

/-- A memory request names at least one byte and lies in one 4 KiB block, as the PCIe Base Specification has it for memory requests (log entry 21, R507). -/
def requestOk (o n : Nat) : Bool := decide (0 < n) && decide (o % 4096 + n ≤ 4096)

/-- The results of BIST name each array once, and give a temperature for each of the twelve memory devices (R37, R528). -/
def BistResult.wf (r : BistResult) : Bool :=
  r.memTemp.length == 12 && decide ((r.arrays.map fun b => (b.core, b.arr)).Nodup)

/-- An access moves at least one byte. -/
def Access.wf : Access → Bool
  | .read n => decide (0 < n)
  | .write bs => !bs.isEmpty

/-- A flit carries at most 224 bytes of message data (R435). -/
def Flit.wf (f : Flit) : Bool := decide (f.body.length ≤ 224)

/-- A sub-request holds 1 to 256 records, and the gradient, if it carries one, has the table's dimension (R411, R425). -/
def SubMsg.wf (m : SubMsg) : Bool :=
  decide (1 ≤ m.recs.length ∧ m.recs.length ≤ 256) && (match m.grad with | none => true | some g => g.length == m.dim)

/-- A partial has at least one value (R414). -/
def PartMsg.wf (m : PartMsg) : Bool := !m.vals.isEmpty

/-- A command is well formed. -/
def Instr.wf : Instr → Bool
  | .bar0Write a sz _ _ | .bar0MultiwordRead a sz => bar0Ok a sz
  | .bistComplete r => r.wf
  | .ethFrameReceive _ f _ _ _ => !f.isEmpty
  | .edgeInputEdge es => decide ((es.map fun x => x.input).Nodup)
  | .dmaComplete _ i => decide (i < 16)
  | .memoryAccess _ _ acc => acc.wf
  | .embSub m => m.wf
  | .embPart m => m.wf
  | .flitReceive _ f => f.wf
  | .bar2Read o n => requestOk o.toNat n
  | .bar2Write o bs _ => requestOk o.toNat bs.length
  | .bar4Read o n => requestOk o.toNat n
  | .bar4Write o bs _ => requestOk o.toNat bs.length
  | .coldNAssert | .coldNRelease | .perstNAssert | .perstNRelease .. | .i2cTargetReady | .warpApply .. => true
  | .warpCrcCheckDone | .warpApplyDone | .ptEnable .. | .ptDisable .. | .ptDrainComplete .. | .coreEnable .. => true
  | .coreDisable .. | .coreWakeCmd .. | .coreDrainComplete .. | .queueEnable .. | .queueDisable .. | .queueFlush .. => true
  | .queueDrainComplete .. | .queueDoorbell .. | .queueRelease .. | .queueIrqWrite .. | .ethPortEnable .. => true
  | .ethPortDisable .. | .ethPortDrainComplete .. | .ethLinkChange .. | .sysclkLoss | .sysclkReturn | .pllRelock .. => true
  | .timeSet | .timeSetDone | .timeStep | .timeStepDone | .timeSnap | .timeSnapDone | .timeTrimWrite .. => true
  | .timeBaseSecond | .ppsOutPulseEnd | .ppsInEdge .. | .ppsLostTimeout | .posEdgePop .. => true
  | .pickStillTimeout .. | .posPkCfgWrite .. | .loadNow .. | .refArm .. | .refDisarm .. | .posEvArm .. | .posEvDisarm .. => true
  | .eventFire .. | .trigPulseEnd .. | .positionDoorbell .. | .pointInsertion | .imageBlockTimeout .. => true
  | .ethFrameTransmit .. | .ethTxtsPop .. | .intakeGridFlip .. | .gridBufferClosed .. | .gridRelease .. => true
  | .gridClearDone .. | .nop .. | .add .. | .sub .. | .andS .. | .orS .. | .xorS .. | .sll .. | .srl .. | .sra .. => true
  | .mul .. | .mulhu .. | .mulhs .. | .slt .. | .sltu .. | .minS .. | .maxS .. | .minu .. | .maxu .. | .clz .. => true
  | .popc .. | .mov .. | .movhi .. | .sread .. | .swrite .. | .ld8 .. | .ld16 .. | .ld32 .. | .ld64 .. | .lds8 .. => true
  | .lds16 .. | .lds32 .. | .st8 .. | .st16 .. | .st32 .. | .st64 .. | .vld .. | .vst .. | .pld .. | .pst .. | .aupd .. => true
  | .dma .. | .fence .. | .vadd .. | .vsub .. | .vmul .. | .vmulh .. | .vfma .. | .vmin .. | .vmax .. | .vabs .. => true
  | .vneg .. | .vand .. | .vor .. | .vxor .. | .vnot .. | .vshl .. | .vshr .. | .vshra .. | .vshrr .. | .vcvt .. => true
  | .vbcast .. | .vmov .. | .vcmpeq .. | .vcmpne .. | .vcmplt .. | .vcmple .. | .vcmpgt .. | .vcmpge .. | .vsel .. => true
  | .pand .. | .por .. | .pxor .. | .pnot .. | .pcnt .. | .pfirst .. | .vrsum .. | .vrmax .. | .vrmin .. | .vrargmax .. => true
  | .vpermb .. | .vpermw .. | .vshuf .. | .vdeal .. | .vpack .. | .vunpkl .. | .vunpkh .. | .vrot .. | .vcmpx .. => true
  | .vtopk .. | .vexp .. | .vrcp .. | .vrsqrt .. | .vsmmax .. | .vsmexp .. | .vsmnorm .. | .vgath .. | .vscat .. => true
  | .aout .. | .awld .. | .arow .. | .adrain .. | .aclr .. | .wread .. | .tstep .. | .async .. | .arrayOpBegin .. => true
  | .arrayStep .. | .arrayOpComplete .. | .drainTransfer .. | .tileComplete .. | .arrayGapLimitExpiry .. => true
  | .scatterRowIssue .. | .bankAdderRetire .. | .qres .. | .qresUnblock .. | .qcmt .. | .qacq .. | .qacqUnblock .. => true
  | .qrel .. | .qwait .. | .trd .. | .trdt .. | .tpop .. | .tstat .. | .branchB .. | .beq .. | .bne .. | .blt .. => true
  | .bge .. | .bltu .. | .bgeu .. | .bl .. | .bir .. | .blir .. | .eret .. | .gbar .. | .sleep .. | .trap .. => true
  | .idleDozeExpiry .. | .lowPowerEntry .. | .lowPowerExitDone .. | .matchSparse .. | .matchDense .. | .nzmap .. => true
  | .sparseJobComplete .. | .memToMemory .. | .memToProcessor .. | .channelDrainComplete .. | .commandSubmit .. => true
  | .commandAccept .. | .bankUnitAdd .. | .bankUnitSub .. | .bankUnitMul .. | .madd .. | .relu .. | .bankUnitClamp .. => true
  | .lut .. | .bsadd .. | .bsmul .. | .moveBu .. | .notify .. | .bankUnitComplete .. | .memTempSample .. | .embLookup .. => true
  | .embGrad .. | .embRequestComplete .. | .embRemoteTimeout .. | .embTabCurWrite .. | .embLoadWindowEnd | .embFence => true
  | .embMoveGo | .embMoveMessage .. | .moveAck .. | .embMoveTimeout | .clearRedirects | .linkEnable .. | .linkDisable .. => true
  | .linkRetrain .. | .linkDrainComplete .. | .linkTrainPhaseDone .. | .linkTrainTimeout .. | .linkTrainRetry .. => true
  | .peerRetry .. | .linkSignalLoss .. | .linkIdleTimeout .. | .flitTransmit .. | .replayTimeout .. | .boltTransmit => true
  | .boltReceive .. | .boltHoldRelease .. | .boltHoldTimeout .. | .endMsg .. | .syncPeriod | .sync .. | .syncLossTimeout => true
  | .delayMeasurePeriod .. | .delayReq .. | .delayResp .. | .pickSend .. | .pick .. | .pickApply .. | .budgetWindow .. => true
  | .checksumEvent | .residueEvent .. | .memoryEvent | .e2eEvent | .regionEvent | .lockstep | .selvEcc .. => true
  | .safeClkFault | .dieTempSample .. | .safeHbToggle | .result .. | .frameEnd .. | .pairWindowExpiry .. => true
  | .seedInjection | .seedFrame | .seedDeadline .. | .dmStart .. | .dmEnd .. | .deadline .. | .selftestRound => true
  | .selftestSlot .. | .bandwidthWindow .. | .intakeWindowSwitch | .telegramPeriod | .getChallenge | .clearSafe => true
  | .enterSafe | .challengeExpiry | .pcieHotReset | .bar2ReadTimeout | .hostBar2PageWrite .. | .msixSend .. | .i2cStart => true
  | .i2cAddressByte .. | .i2cWriteByte .. | .i2cReadByte .. | .i2cRepeatedStart | .i2cStop .. | .i2cSclTimeout => true
  | .h2bPost | .h2bAck | .b2hPost | .b2hAck | .supplyHoldBegin | .holdReady | .supplyHoldEnd | .holdResumeDone .. => true
  | .traceEnable .. | .traceClear | .hostMark .. | .traceSyncPeriod .. | .pmcClear | .pmcSnap | .traceFreeze .. => true
  | .freezeN | .freeze | .tapReset | .extest .. | .idcode | .samplePreload .. | .extestPulse | .extestTrain | .highz => true
  | .clamp | .roSelect .. | .readout | .bypass | .lowPowerEntryDone .. | .pcieLinkUp .. | .configurationRequest .. => true
  | .supplyLoss .. => true

end Sys2Proof
end

