-- ==== Sys2Proof/Tests/Slice0.lean ====
section
/-! SUPPORT. Tests of small steps, and for each statement of Certificates/Slice0/Obligations.lean states and operands that meet the
hypotheses of its clauses (`witness_…`). Expected results are worked by hand from the rules named. -/

namespace Sys2Proof.Machine.Tests

set_option Elab.async false

/-! ### Small states -/

/-- The part after BIST. -/
def base : State := { State.reset with host := { State.reset.host with bistDone := true } }

/-- A partition that owns every core, channel, queue and context. -/
def part0 : PartEntry := ⟨true, 0, 0xFF, true, 2 ^ 32 - 1, 2 ^ 48 - 1, 0, 1024, 0, 4096, 0, 0x3000000000, sharedBase, 0x8000000⟩

/-- The part with one ENABLED partition. -/
def run : State := ({ base with warp := { Warp.empty with image := true, parts := [part0] } } : State).putF (Reg.globalPtStatus 0) 0 2 1

/-- A queue ENABLED with 16 slots of `esize` × 8 bytes, the kinds of its producer and consumer, and its ring in the shared store. -/
def withQ (q esize prod cons : Nat) (s : State) : State :=
  ((s.putF (Reg.queueStatus q) 0 2 1).wrN (Reg.queueCfg q) (4 + 2 ^ 8 * esize + 2 ^ 20 * prod + 2 ^ 22 * cons)).wrQ (Reg.queueBase q) 2 sharedBase

/-- The queue with so many elements committed. -/
def filled (q n : Nat) (s : State) : State := (s.wrN (Reg.queueTail q) n).wrN (Reg.queueResv q) n

/-- Core k ENABLED at the first word of its local store. -/
def withCore (k : CoreId) (s : State) : State :=
  setCore ((s.putF (Reg.coreStatus k) 0 2 1).putF (Reg.coreStatus k) 3 3 0) k { CoreSt.start with pc := BitVec.ofNat 64 (localBase k) }

/-- A core of the partition, at its first word. -/
def core0 : State := withCore 0 run

/-- The outcome is a next state of which `f` holds. -/
def nextHas (r : Host.Outcome State Fault Refusal) (f : State → Bool) : Bool := match r with | .next t => f t | _ => false

/-- A word with one field written. -/
def word (l : List (Nat × Nat × Nat)) : IWord := l.foldl (fun w e => setWf w e.1 e.2.1 e.2.2) 0

/-! ### The machine -/

theorem witness_step : ({ base with pending := [Instr.freezeN] } : State).pending = .freezeN :: [] := by decide +kernel
theorem witness_idle : base.pending = [] ∧ base.Kept ∧ base.tclk = true ∧ State.cclk { base with clk := .stopped } = false := by decide +kernel
/-- The part whose fabric rule R8 has put outside its contract. -/
def broken : State := { base with contract := .left 8 }
theorem witness_contract : base.Kept ∧ base.wf = true ∧ hostReach base = true ∧ aligned (2 : BitVec 26).toNat .b32 = false ∧ broken.contract.broken = true ∧
    broken.pending = [] ∧ broken.contract = .left 8 ∧ broken.pins.coldN = true := by decide +kernel
theorem witness_canonical : base.wf = true ∧ nextHas (step { base with pending := [Instr.freezeN] }) (fun _ => true) = true := by decide +kernel
theorem witness_parts : base.Kept ∧ nextHas (exec .freezeN base) (fun t => t.pending == [] && !t.contract.broken) = true ∧ Part.pins ∉ touches .freezeN := by decide +kernel

/-! ### Host accesses -/

/-- A hold that has begun. -/
def held : State := { base with hold := { base.hold with phase := .entering } }

theorem witness_bist : State.reset.Kept ∧ State.reset.up = true ∧ State.reset.bistDone = false ∧ hostWrites .timeSet = true := by decide +kernel
theorem witness_down : hostReach State.reset = false ∧ hostWrites .timeSnap = true ∧
    (let s : State := { base with frz := { base.frz with frozen := true } }; s.Kept ∧ s.up = false) ∧
    (let s : State := { base with host := { base.host with d3hot := true } }
     s.Kept ∧ s.up = true ∧ s.bistDone = true ∧ s.host.d3hot = true) := by decide +kernel
theorem witness_hold : held.Kept ∧ held.clk = .running ∧ postedWaits held = false ∧ hostReach held = true ∧ held.inHold = true ∧ held.wf = true ∧ aligned (Reg.queueCfg 5) .b32 = true ∧
    blkOf (Reg.queueCfg 5) = some .queueB ∧ heldBlk .queueB = false ∧ holdDiscards (.queueFlush 5) = true ∧ tlpFits 0 4 = true ∧ tlpFits 4092 4 = true := by decide +kernel
theorem witness_write : base.Kept ∧ base.wf = true ∧ hostTakes (blkDom .hostB) base = true ∧ aligned Reg.hostCfg .b32 = true ∧
    blkOf Reg.hostCfg = some .hostB ∧ (match regHit Reg.hostCfg with | none => false | some h => 7#32 &&& reservedBits h == 0) = true ∧
    noStep Reg.hostCfg = true ∧ base.clk = .running ∧ postedWaits base = false := by decide +kernel
theorem witness_noTable : hostReach base = true ∧ hostTakes .time base = true ∧ hostTakes (blkDom .traceB) base = true ∧ aligned 2 .b32 = false ∧ aligned 0x3F00000 .b32 = true ∧ blkOf 0x3F00000 = none ∧
    aligned Reg.traceCtrl .b32 = true ∧ (match regHit Reg.traceCtrl with | none => false | some h => 8#32 &&& reservedBits h != 0) = true ∧
    blkOf Reg.traceCtrl = some .traceB ∧ Reg.traceCtrl ≠ Reg.traceFreeze := by decide +kernel
theorem witness_reads : base.Kept ∧ Tab.wf noShadow base.shadows = true ∧ answered .timeB base = true ∧ blkOf Reg.timeSetSec = some .timeB ∧
    aligned Reg.timeSetSec .b32 = true ∧ (match regHit Reg.timeSetSec with | none => false | some h => h.idx == 0 && h.row.words.length == 2) = true ∧
    aligned Reg.timeSetSec .b64 = true ∧ Blk.timeB ≠ .hostB ∧
    (match regHit Reg.timeCtrl with | none => false | some h => h.row.words.length == 1) = true ∧ blkOf Reg.timeCtrl = some .timeB ∧
    nextHas (exec .freezeN base) (fun t => !t.contract.broken) = true := by decide +kernel

/-! ### Resets, power-up and clocks -/

theorem witness_cold : base.Kept ∧ base.wf = true ∧ base.pins.coldN = true ∧
    (let s : State := { base with pins := { base.pins with coldN := false } }
     s.Kept ∧ s.pins.coldN = false ∧ s.pins.perstN = true ∧ s.wf = true ∧ s.clk = .running) ∧
    (let s : State := { base with pins := { base.pins with coldN := false, perstN := false } }
     s.Kept ∧ s.pins.coldN = false ∧ s.pins.perstN = false) := by decide +kernel
theorem witness_fabric : base.Kept ∧ base.up = true ∧ base.wf = true ∧
    (let s : State := { base with pins := { base.pins with perstN := false } }
     s.wf = true ∧ s.pins.perstN = false ∧ s.powered = true ∧ s.pins.coldN = true ∧ s.frz.frozen = false ∧ s.clk = .running) := by decide +kernel
theorem witness_powerUp : State.reset.Kept ∧ State.reset.up = true ∧ State.reset.wf = true ∧ State.reset.tclk = true ∧ State.reset.inHold = false ∧
    State.reset.bistDone = false ∧ base.up = true ∧ base.bistDone = true := by decide +kernel
theorem witness_clocks : base.Kept ∧ base.frz.frozen = false ∧ base.clk ≠ .stopped ∧ base.up = true ∧ base.wf = true ∧
    (let s : State := { base with clk := .stopped }
     s.frz.frozen = false ∧ s.clk = .stopped) ∧
    (let s : State := { base with clk := .relocking }
     s.frz.frozen = false ∧ s.clk = .relocking) ∧ inComp 0 = true ∧ inComp 0x2FFFFFFFFF = true ∧ inComp 0x3000000000 = false := by decide +kernel

/-! ### Switchable blocks, warp images, partitions -/

theorem witness_switch : IsSwitch (Reg.queueStatus 1023) (Reg.queueCtrl 1023) (.queueEnable 1023) (.queueDisable 1023) ∧ base.Kept ∧ hostOpen base = true ∧
    base.fld (Reg.queueStatus 1023) 0 2 = 3 ∧ (base.putF (Reg.queueStatus 1023) 0 2 0).fld (Reg.queueStatus 1023) 0 2 = 0 ∧
    hostOpen (base.putF (Reg.queueStatus 1023) 0 3 6) = true ∧ (base.putF (Reg.queueStatus 1023) 0 3 6).bit (Reg.queueStatus 1023) 2 = true ∧
    ([0, 1, 2, 6].all fun v => let s := run.putF (Reg.queueStatus 1023) 0 3 v
      hostOpen s && s.fld (Reg.queueStatus 1023) 0 2 == v % 4 && s.bit (Reg.queueStatus 1023) 2 == (v == 6) && enableDefined (.queueEnable 1023) s) = true ∧
    enableDefined (.queueEnable 1023) (base.putF (Reg.queueStatus 1023) 0 2 0) = false := by
  refine ⟨.inr (.inr (.inl ⟨1023, rfl, rfl, rfl, rfl⟩)), by decide +kernel⟩
theorem witness_switches : run.Kept ∧ run.wf = true ∧ hostOpen run = true ∧
    (let s := (withQ 5 1 1 1 run).putF (Reg.queueStatus 5) 0 2 0
     qState s 5 = 0 ∧ queuePart s 5 = some 0 ∧ ptEnabled s 0 = true ∧ ringFault s 5 = none ∧ s.wf = true ∧ hostOpen s = true) ∧
    (let w := withTq 1 (word [(0, 4, 1), (342, 10, 5)])
     let s := setCore (withCore 0 (withQ 5 1 1 1 run)) 0 { CoreSt.start with wait := .queue w false }
     qState s 5 = 1 ∧ tqOp w = 1 ∧ s.wf = true ∧ hostOpen s = true ∧ (core s 0).wait = .queue w false ∧ fieldN w.toNat 342 10 = 5) ∧
    (let s := run.putF (Reg.ethPortStatus 7) 0 2 0; portState s 7 = 0 ∧ portCfgBad s 7 = false) ∧
    (let s := (run.putF (Reg.ethPortStatus 7) 0 2 0).putF (Reg.ethPortCfg 7) 0 3 5; portState s 7 = 0 ∧ portCfgBad s 7 = true) ∧
    portState (run.putF (Reg.ethPortStatus 7) 0 2 1) 7 = 1 ∧ linkState (run.putF (Reg.linkStatus 5) 0 2 0) 5 = 0 ∧
    (let s := setPhase 5 .up (run.putF (Reg.linkStatus 5) 0 2 1); linkState s 5 = 1 ∧ linkUp s 5 = true ∧ hostOpen s = true ∧ s.wf = true) := by decide +kernel
theorem witness_drains : run.Kept ∧ run.cclk = true ∧
    (let s := (withQ 5 1 1 1 run).putF (Reg.queueStatus 5) 0 2 2
     s.wf = true ∧ s.cclk = true ∧ qState s 5 = 2 ∧ qHead s 5 = qTail s 5 ∧ qTail s 5 = qResv s 5 ∧ s.bit (Reg.queueStatus 5) 2 = false ∧
     (s.putB (Reg.queueStatus 5) 2 true).bit (Reg.queueStatus 5) 2 = true) ∧
    (let s := run.putF (Reg.ethPortStatus 7) 0 2 2; portState s 7 = 2 ∧ portCfgBad s 7 = false ∧ s.bit (Reg.ethPortStatus 7) 2 = false ∧
     (s.putB (Reg.ethPortStatus 7) 2 true).bit (Reg.ethPortStatus 7) 2 = true) ∧
    (let s := core0.putF (Reg.coreStatus 0) 0 2 2; coreState s 0 = 2 ∧ coreQuiet s 0 = true ∧ s.cclk = true ∧ (traced s 0 && fifoFull s 0) = false ∧
     s.bit (Reg.coreStatus 0) 2 = false ∧ (s.putB (Reg.coreStatus 0) 2 true).bit (Reg.coreStatus 0) 2 = true) ∧
    (let s := run.putF (Reg.linkStatus 5) 0 2 2; linkState s 5 = 2 ∧ s.bit (Reg.linkStatus 5) 2 = false) ∧
    (let s : State := ({ base with warp := { Warp.empty with parts := [{ part0 with queueFirst := 1020, queueCount := 4 }] } } : State).putF (Reg.globalPtStatus 0) 0 2 2
     ptState s 0 = 2 ∧ ptQuiet s 0 = true ∧ s.bit (Reg.globalPtStatus 0) 2 = false ∧ (∀ q ∈ partQueues s 0, q < 1024) ∧ partQueues s 0 = [1020, 1021, 1022, 1023] ∧
     qState (s.putF (Reg.queueStatus 1023) 0 2 2) 1023 = 2) ∧
    (let s : State := ({ base with warp := { Warp.empty with parts := [{ part0 with queueFirst := 1023, queueCount := 1 }] } } : State).putF (Reg.globalPtStatus 0) 0 3 6
     let s := (withQ 1023 1 1 1 s).putF (Reg.queueStatus 1023) 0 2 0
     s.wf = true ∧ s.cclk = true ∧ ptState s 0 = 2 ∧ ptQuiet s 0 = true ∧ s.bit (Reg.globalPtStatus 0) 2 = true ∧
     (∀ q ∈ partQueues s 0, q < 1024 ∧ ringFault s q = none)) := by decide +kernel

/-- A staged partial image for partition `n`: one empty DATA section. -/
def image (n : Nat) : List Byte :=
  let body := natLe 4 0x50524157 ++ natLe 2 0x0100 ++ natLe 2 64 ++ natLe 2 1 ++ natLe 2 1 ++ natLe 2 0x00B1 ++ natLe 1 0 ++ natLe 1 n ++ zeros 48
    ++ natLe 2 13 ++ zeros 6 ++ natLe 1 n ++ zeros 7 ++ zeros 4
  body ++ natLe 4 (crc32 body)
/-- The image staged on a part that runs a warp. -/
def staged (img : List Byte) (l : Loader) : State :=
  let s : State := { base with loader := l, warp := { Warp.empty with image := true, rewarpMib := 1, parts := [part0] } }
  ((((s.putF (Reg.globalPtStatus 0) 0 2 0).putF Reg.globalWarpStatus 0 2 (if l = .idle then 2 else 1)).putB Reg.globalWarpCtrl 1 true).wrN Reg.globalWarpLen img.length).putBytes
    (sharedBase + 0x7F00000) img

theorem witness_apply : base.Kept ∧ base.wf = true ∧ hostTakes .held base = true ∧ base.inHold = false ∧ base.loader = .idle ∧
    (let s := (base.putF (Reg.globalWarpStatus) 0 2 0).wrN Reg.globalWarpLen 88
     warpRefused (s.wrN Reg.globalWarpLen 100663296) false = none ∧ warpRefused (s.wrN Reg.globalWarpLen 100663304) false = some 6 ∧
     warpRefused (s.wrN Reg.globalWarpLen 80) false = some 6 ∧ warpRefused (s.wrN Reg.globalWarpLen 92) false = some 6 ∧ warpRefused (s.putB Reg.globalWarpCtrl 1 false) false = none ∧ s.wf = true ∧ s.bit Reg.globalBistStatus 1 = false ∧ s.fld Reg.globalWarpStatus 0 2 = 0) ∧
    warpRefused (base.putB Reg.globalWarpCtrl 1 true) true = some 3 ∧ warpRefused (base.putB Reg.globalWarpCtrl 1 false) false = some 6 ∧
    (base.putB Reg.globalBistStatus 1 true).bit Reg.globalBistStatus 1 = true ∧
    (base.putF Reg.globalWarpStatus 0 2 2).fld Reg.globalWarpStatus 0 2 = 2 := by decide +kernel
theorem witness_check : (staged (image 0) .checking).Kept ∧ (let s := staged (image 0) .checking
     s.cclk = true ∧ s.loader = .checking ∧ warpPartial s = true ∧ leAt (warpImage s) 0x0F 1 = 0 ∧ ptState s 0 = 0 ∧ crcOk (warpImage s) = true) ∧
    (let s := staged (zeros 84 ++ natLe 4 1) .checking; s.loader = .checking ∧ crcOk (warpImage s) = false) ∧
    (let s := (staged (image 0) .checking).putF (Reg.globalPtStatus 0) 0 2 1; crcOk (warpImage s) = true ∧ ptState s (leAt (warpImage s) 0x0F 1) ≠ 0) := by decide +kernel
theorem witness_applied : (let s := staged (image 0) .applying
     s.Kept ∧ s.cclk = true ∧ s.wf = true ∧ s.loader = .applying ∧ warpPartial s = true ∧ headerOutside (warpImage s) true = false ∧ groupsBad s = false ∧
     leAt (warpImage s) 0x0F 1 < 8 ∧ (match applyImage (warpImage s) true s with | .next _ => true | _ => false) = true ∧
     (match readSections (leAt (warpImage s) 8 2) ((warpImage s).drop 64) with
      | .ok l => !partialOutside 0 l && l.all fun x => x.type == 13 && x.body == []
      | .outside _ => false) = true) ∧
    (let s := (staged (zeros 64) .applying).putB Reg.globalWarpCtrl 1 false
     let body := natLe 4 0x50524157 ++ natLe 2 0x0100 ++ natLe 2 64 ++ natLe 2 1 ++ natLe 2 0 ++ natLe 2 0x00B1 ++ [0, 0xFF] ++ zeros 48
       ++ natLe 2 13 ++ zeros 6 ++ [0xFF] ++ zeros 11
     let s := s.wrN Reg.globalWarpLen 88
     let s := s.putBytes (warpBase s) (body ++ natLe 4 (crc32 body))
     s.Kept ∧ s.cclk = true ∧ s.loader = .applying ∧ warpPartial s = false ∧ headerOutside (warpImage s) false = false ∧
     (match readSections (leAt (warpImage s) 8 2) ((warpImage s).drop 64) with
      | .ok l => fullOutside l && (l.filter fun x => x.type = 12).length != 1
      | .outside _ => false) = true) := by decide +kernel
theorem witness_partitions : run.Kept ∧ hostOpen run = true ∧
    (let s := ({ base with warp := { Warp.empty with parts := [{ part0 with queueFirst := 1020, queueCount := 4 }] } } : State).putF (Reg.globalPtStatus 0) 0 2 0
     s.wf = true ∧ hostOpen s = true ∧ ptState s 0 = 0 ∧ (∀ q ∈ partQueues s 0, q < 1024 ∧ (qState s q ≠ 0 ∨ ringFault s q = none))) ∧
    (let s := ({ base with warp := { Warp.empty with parts := [{ part0 with queueCount := 0, coreMask := 0 }] } } : State).putF (Reg.globalPtStatus 0) 0 2 0
     ptState s 0 = 0 ∧ partQueues s 0 = [] ∧ partCores s 0 = []) ∧
    ptState run 0 = 1 ∧ coreState core0 0 = 1 ∧ hostOpen core0 = true ∧
    (let s := run.putF (Reg.coreStatus 31) 0 2 0; s.wf = true ∧ coreState s 31 = 0 ∧ corePart s 31 = some 0 ∧ ptEnabled s 0 = true) ∧
    (let s := setCore core0 0 { core core0 0 with wait := .sleep 64 none }
     s.wf = true ∧ hostOpen s = true ∧ coreState s 0 = 1 ∧ (core s 0).wait = .sleep 64 none ∧ (core s 0).nap = .awake) := by decide +kernel

/-! ### Queues, time and position -/

theorem witness_hostQueues : (withQ 5 1 2 2 run).Kept ∧ (let s := withQ 5 1 2 2 run
     s.wf = true ∧ hostOpen s = true ∧ qState s 5 = 1 ∧ qProd s 5 = 2 ∧ qCons s 5 = 2 ∧ qFill s 5 + 16 ≤ qDepth s 5 ∧ qDepth s 5 < qFill s 5 + 17) ∧
    (let s := (withQ 5 1 2 2 run).putF (Reg.queueStatus 5) 0 2 2; qState s 5 = 2 ∧ qProd s 5 = 2) ∧ qState run 5 = 3 ∧ qProd run 5 ≠ 2 ∧
    (let s := filled 5 16 (withQ 5 1 2 2 run); s.wf = true ∧ hostOpen s = true ∧ qState s 5 ≠ 3 ∧ qCons s 5 = 2 ∧ 0 < (16 : BitVec 17).toNat ∧ 16 ≤ qFill s 5 ∧ qFill s 5 < 17) := by decide +kernel
theorem witness_flush : (filled 5 3 (withQ 5 1 2 2 run)).Kept ∧ (let s := (withQ 5 1 2 2 run).putF (Reg.queueStatus 5) 0 2 2; s.wf = true ∧ hostOpen s = true ∧ qState s 5 = 2) ∧
    (let s := filled 5 3 (withQ 5 1 2 2 run)
     s.wf = true ∧ hostOpen s = true ∧ qState s 5 ≠ 2 ∧ qCons s 5 = 2 ∧ 0x00030100#32 &&& 0x0000FE00#32 = 0 ∧ (0x00030100#32).getLsbD 8 = true ∧
     max 1 ((0x00030100#32).toNat / 2 ^ 16) ≤ qFill s 5 ∧ qFill s 5 < max 1 ((0x00040100#32).toNat / 2 ^ 16)) := by decide +kernel
theorem witness_counters : (let s := setSlots run 5 [⟨7, some .engine, false⟩]
     s.wf = true ∧ (qSlots s 5).head? = some ⟨7, some .engine, false⟩ ∧ (qSlots s 5).length = 1) ∧
    (let s := setSlots run 5 [⟨7, none, false⟩, ⟨8, some (.core 3), false⟩]; s.wf = true ∧ qSlots s 5 = [⟨7, none, false⟩, ⟨8, some (.core 3), false⟩]) := by decide +kernel
theorem witness_time : base.Kept ∧ base.wf = true ∧ hostTakes .time base = true ∧ hostTakes .time (base.putB Reg.timeStatus 4 true) = true ∧ chainBound base = false ∧ base.bit Reg.timeCtrl 2 = false ∧ base.bit Reg.timeCtrl 3 = false ∧
    (base.putB Reg.timeStatus 4 true).wf = true ∧ chainBound (base.putB Reg.timeStatus 4 true) = true ∧
    (base.putB Reg.timeCtrl 2 true).bit Reg.timeCtrl 2 = true ∧ (base.putB Reg.timeCtrl 3 true).bit Reg.timeCtrl 3 = true := by decide +kernel
theorem witness_timeDone : base.Kept ∧ base.tclk = true ∧ State.tclk { base with pos := { base.pos with setReq := some ⟨1, 2, 3⟩ } } = true ∧
    State.tclk { base with pos := { base.pos with stepReq := some (-5, 1) } } = true ∧ ((-5 : Int) * 2 ^ 32 + 1 * 2 ^ 16 ≤ 0) ∧ 0 < (0 : Int) * 2 ^ 32 + 1 * 2 ^ 16 ∧
    (base.putB Reg.timeCtrl 4 true).bit Reg.timeCtrl 4 = true ∧ (base.putB Reg.timeCtrl 4 true).wf = true := by decide +kernel
theorem witness_pulses : base.Kept ∧ base.tclk = true ∧ base.wf = true ∧ true = !base.bit Reg.timeCtrl 6 ∧ false = base.bit Reg.timeCtrl 6 ∧ base.bit Reg.timeCtrl 5 = false ∧
    (let s : State := { base with pos := { base.pos with secDue := true } }
     s.pos.secDue = true ∧ (s.putB Reg.timeCtrl 5 true).bit Reg.timeCtrl 5 = true ∧ s.pos.ppsPulse = false) ∧
    ({ base.pos with ppsSeen := true, ppsPulse := true } : Position).ppsSeen = true ∧ (base.putB Reg.timeStatus 3 true).bit Reg.timeStatus 3 = true := by decide +kernel

/-- Counter n in a mode, on EDGE0 and EDGE1. -/
def counting (n : Fin 4) (mode : Nat) : State := base.wrN (Reg.posPkCfg n) (mode + 2 ^ 7)

/-- A rising or falling edge of input `i`, in the first quarter of a TCLK. -/
def edgeOf (i : Fin 16) (up : Bool) : PinEdge := ⟨i, up, 0, 0⟩

theorem witness_edges : base.Kept ∧ base.wf = true ∧ State.tclk { base with clk := .stopped } = false ∧ base.tclk = true ∧
    (∀ n : Fin 4, refArmed base n = false) ∧ (∀ v : Fin 80, evArmed base v = false) ∧
    (let s := counting 3 3
     s.tclk = true ∧ s.wf = true ∧ (∀ n : Fin 4, refArmed s n = false) ∧ (∀ v : Fin 80, evArmed s v = false) ∧
     ([edgeOf 0 true, edgeOf 1 true].filter (edgeFiltered s)).filter (edgeKept s) = [edgeOf 0 true, edgeOf 1 true] ∧
     pickDelta s 3 [edgeOf 0 true] = .step true (edgeOf 0 true) ∧ pickDelta s 3 [edgeOf 1 true] = .step false (edgeOf 1 true) ∧
     pickDelta s 3 [edgeOf 0 true, edgeOf 1 true] = .error) ∧ pickDelta (counting 3 1) 3 [edgeOf 0 false] = .none ∧
    (let s := base.wrN (Reg.posEdgeCfg 15) 9
     s.wf = true ∧ s.tclk = true ∧ edgeFiltered s (edgeOf 15 true) = true ∧ edgeKept s (edgeOf 15 true) = true ∧ qualifies s (edgeOf 15 true) = true ∧
     s.bit (Reg.posEdgeCfg (edgeOf 15 true).input) 3 = true ∧ (edgeIn s (edgeOf 15 true).input).q.length < 16 ∧ (edgeIn s (edgeOf 15 true).input).last = none) ∧
    (let s := setEdgeIn base 15 ⟨some 0, List.replicate 15 ⟨0, 0⟩⟩
     (edgeIn s (edgeOf 15 true).input).last = some 0 ∧ edgeAt s (edgeOf 15 true) < 0 + 16 ∧ (edgeIn s (edgeOf 15 true).input).q.length < 16) := by decide +kernel
theorem witness_modes : (let s := counting 2 2
     (edgeOf 0 true).input.val = s.fld (Reg.posPkCfg 2) 3 4 ∧ (edgeOf 1 true).input.val = s.fld (Reg.posPkCfg 2) 7 4 ∧ s.bit (Reg.posPkCfg 2) 11 = false ∧
     pkMode s 2 = 2) ∧ pkMode (counting 2 1) 2 = 1 ∧ pkMode (counting 2 3) 2 = 3 ∧ pkMode base 2 = 0 ∧
    (let s := counting 2 4; pkMode s 2 = 4 ∧ (edgeOf 0 true).rising = true ∧ (edgeOf 0 false).rising = false ∧ dirUnstable s 1 (edgeOf 0 true) none = false) := by
  decide +kernel
theorem witness_commands : base.Kept ∧ base.wf = true ∧ hostTakes .held base = true ∧ hostTakes .held (counting 1 5) = true ∧ pkChain base 1 = false ∧ pkChain (counting 1 5) 1 = true ∧ (counting 1 5).wf = true ∧
    (0x00000081#32) &&& 0xFF00F000#32 = 0 ∧ pkMode (counting 1 2) 1 ≠ 0 ∧ fieldN (0x81#32).toNat 0 3 ≠ 0 ∧ pkMode (counting 1 2) 1 ≠ fieldN (0x81#32).toNat 0 3 ∧
    pkMode base 1 = 0 ∧ offMode base (fieldN (0x81#32).toNat 0 3) = false ∧ base.tclk = true ∧
    (base.putF (Reg.posPkCfg 1) 16 8 1).fld (Reg.posPkCfg 1) 16 8 ≠ 0 ∧ pkChain (base.putF (Reg.posPkCfg 1) 16 8 1) 1 = false := by decide +kernel

/-- Event v armed and due; `repeats` as in POS_EVv_CFG. -/
def dueEvent (v : Nat) (repeats : Nat) : State := (base.wrN (Reg.posEvCfg v) (2 ^ 5 * repeats)).putB (Reg.posEvStatus v) 0 true

theorem witness_events : base.Kept ∧ base.wf = true ∧ hostTakes .held base = true ∧ evArmed base 15 = false ∧ evArmed (dueEvent 15 0) 15 = true ∧ (dueEvent 15 0).wf = true ∧
    (let s := base.putF (Reg.posEvCfg 15) 5 2 3; evArmed s 15 = false ∧ armRefused s 15 = true) ∧
    (let s := (base.wrN (Reg.posEvCfg 15) 65).wrQ (Reg.posEvInterval 15) 2 5; evArmed s 15 = false ∧ armRefused s 15 = false ∧ evPick s 15 = true ∧ evRepeat s 15 = 2 ∧ s.wf = true) ∧
    (dueEvent 15 0).tclk = true ∧ evDue (dueEvent 15 0) 15 = true ∧ evRepeat (dueEvent 15 0) 15 = 0 ∧
    (let s := (withQ 5 4 3 1 run).wrN (Reg.posEvQueue 79) 5
     let s := s.wrQ (Reg.posEvTarget 79) 4 (2 ^ 16 * 2 ^ 64)
     s.wf = true ∧ hostTakes .held s = true ∧ evArmed s 79 = false ∧ armRefused s 79 = false ∧ evPick s 79 = false ∧
     (now32 s : Int) + 16 * 2 ^ 32 ≤ (stamp16 (BitVec.ofNat 128 (s.rdQ (Reg.posEvTarget 79) 4)) : Int) * 2 ^ 16) ∧
    (let s := dueEvent 79 0; hostTakes .held s = true ∧ s.tclk = true ∧ evArmed s 79 = true ∧ evDue s 79 = true) ∧
    (let s := setEvent ((base.putB (Reg.posEvCfg 79) 0 true).putB (Reg.posEvStatus 79) 0 true) 79 { Event.idle with due := [0] }; evPick s 79 = true ∧ evDue s 79 = true) ∧
    (let s := (base.putB (Reg.posEvCfg 79) 0 true).putB (Reg.posEvStatus 79) 0 true; hostTakes .held s = true ∧ evArmed s 79 = true ∧ evDue s 79 = false) ∧
    (let s := setEvent base 15 { Event.idle with pulse := true }; s.tclk = true ∧ (eventOf s (15 : Fin 16)).pulse = true ∧ s.wf = true) := by decide +kernel
/-- The part with one firing of doorbell 63, which rings queue 5, and lower doorbells' firings in `l`. -/
def fired (l : List Firing) (s : State) : State :=
  setEvent (setEvent ((s.wrN (Reg.posEvCfg 79) (2 ^ 8)).wrN (Reg.posEvQueue 79) 5) 79 { Event.idle with fired := [⟨false, false, 0, 0, 0⟩] }) 16 { Event.idle with fired := l }
theorem witness_firings : (let s := fired [] (withQ 5 10 3 1 run)
     s.Kept ∧ s.cclk = true ∧ (eventOf s (16 + 63)).fired = ⟨false, false, 0, 0, 0⟩ :: [] ∧ evQueue s 79 = 5 ∧ dbBehind s 79 ⟨false, false, 0, 0, 0⟩ = false ∧
     engWaits s (commitRange s 5) = false ∧ qState s 5 = 1 ∧ qProd s 5 = 3 ∧ qFree s 5 ≠ 0 ∧
     (engCommit 5 (dbElement 63 ⟨false, false, 0, 0, 0⟩) (engGo (commitRange s 5) s)).1 = true) ∧
    (let s := fired [] run
     s.cclk = true ∧ dbBehind s 79 ⟨false, false, 0, 0, 0⟩ = false ∧ engWaits s (commitRange s 5) = false ∧
     (engCommit 5 (dbElement 63 ⟨false, false, 0, 0, 0⟩) (engGo (commitRange s 5) s)).1 = false) ∧
    dbBehind ((fired [⟨false, false, 0, 0, 0⟩] run).wrN (Reg.posEvQueue 16) 5) 79 ⟨false, false, 0, 0, 0⟩ = true := by decide +kernel

/-! ### Ethernet and intake -/

/-- A UDP frame of 64 octets with its FCS, from 10.0.0.1 port 1 to port 2. -/
def udpFrame : List Byte :=
  List.replicate 6 0xFF ++ [2, 0, 0, 0, 0, 1, 0x08, 0x00, 0x45, 0x00, 0x00, 0x2E, 0, 0, 0, 0, 0x40, 0x11, 0x66, 0xBD, 10, 0, 0, 1, 10, 0, 0, 2]
    ++ [0, 1, 0, 2, 0, 26, 0, 0] ++ zeros 18
/-- Port 7 ENABLED and linked, with one context, of kind `k`, in the partition. -/
def intake (k : CtxKind) : State :=
  let c := { Ctx.unused with kind := k, port := 7, srcIp := 0x0A000001, dstUdp := 2, queue := 5 }
  ({ base with
    warp := { Warp.empty with image := true, parts := [{ part0 with ctxCount := 1 }] }, intake := { base.intake with ctxs := [(0, c)] } } : State).putF
    (Reg.ethPortStatus 7) 0 4 9

theorem witness_frames : (let s := intake .raw
     s.Kept ∧ s.cclk = true ∧ portState s 7 = 1 ∧ portTakes s 7 0 = true ∧ s.pins.pfN = true ∧ portLink s 7 = true ∧ s.wf = true ∧ rxFail s 7 udpFrame true false = none ∧
     rxFail s 7 udpFrame false false = some (Reg.ethRxFcs 7) ∧ steeredL2 s 7 udpFrame = false ∧ steeredUdp s 7 udpFrame = false ∧
     (let r : RxFrame := ⟨s.intake.nextId, 7, udpFrame, udpFrame.length + 4, nowStamp s⟩
      deliveries s r = [(0, 0)] ∧ engWaits s (deliverRanges s (deliveries s r)) = false ∧ (∀ d ∈ deliveries s r, (ctxOf s d.2).kind ≠ .image) ∧ imageOutside (s.wrN (Reg.queueCfg 5) (4 + 2 ^ 8 * (8 + 512))) 0 = false)) ∧
    (let s := intake .unused; deliveries s ⟨s.intake.nextId, 7, udpFrame, udpFrame.length + 4, nowStamp s⟩ = []) ∧
    (let s := (intake .raw).putB (Reg.ethPtpCfg 7) 1 true; steeredUdp s 7 (udpFrame.set 36 1 |>.set 37 0x3F) = true ∧
     engWaits s (commitRange s (s.fld (Reg.ethPtpCfg 7) 16 10)) = false) ∧ portTakes base 7 0 = false ∧
    (let s := intake .raw
     let s : State := { s with pins := { s.pins with pfN := false } }
     s.tclk = true ∧ portTakes s 7 0 = true ∧ portLink s 7 = true) ∧
    (let s : State := { base with hold := { base.hold with phase := .resuming } }; s.inHold = true ∧ s.pins.pfN = true) ∧
    (let s := setEthPort ((intake .raw).putF (Reg.ethPortStatus 7) 0 2 2) 7 ⟨[], some 5⟩
     let s : State := { s with pos := { s.pos with now := 6 } }
     portState s 7 = 2 ∧ (ethPort s 7).drain = some 5 ∧ portTakes s 7 16383 = false ∧ portTakes s 7 16384 = true) := by decide +kernel

/-- A transmit queue of port 7 that holds one element: a descriptor of an `n`-byte frame with its request bit. -/
def sending (n req : Nat) : State :=
  (((filled 5 1 (withQ 5 10 1 3 run)).putF (Reg.ethPortStatus 7) 0 4 9).wrN (Reg.ethTxQueue 7) (5 + 2 ^ 16)).putBytes sharedBase (natLe 2 n ++ natLe 2 req)

theorem witness_transmit : (let s := sending 60 1
     s.Kept ∧ s.cclk = true ∧ portState s 7 = 1 ∧ portTakes s 7 0 = true ∧ engWaits s (takeRange s 5) = false ∧ portLink s 7 = true ∧ s.bit (Reg.ethTxQueue 7) 16 = true ∧ s.fld (Reg.ethTxQueue 7) 0 10 = 5 ∧ qCons s 5 = 3 ∧
     (qPeek s 5).map (fun e => (leAt e 0 2, e.length, (leAt e 2 2).testBit 0)) = some (60, 80, true) ∧ s.wf = true ∧ hostOpen s = true) ∧
    (qPeek (sending 13 0) 5).map (fun e => leAt e 0 2) = some 13 ∧ (qPeek (sending 14 0) 5).map (fun e => (leAt e 2 2).testBit 0) = some false := by decide +kernel

/-- A grid of 64-voxel blocks, one to an axis, with its buffers in the given states. -/
def grid (b0 b1 : BufState) : Grid :=
  ⟨0, 0, none, [], [], [], 0, [1, 1, 1], 5, sharedBase, sharedBase + 0x100000, 1, 1, 1, 1, { GridBuf.ready with st := b0 }, { GridBuf.ready with st := b1, seq := 9 }, 10⟩
/-- The part with that grid, number 63. -/
def withGrid (b0 b1 : BufState) : State := { run with intake := { run.intake with grids := [(63, grid b0 b1)] } }

theorem witness_insertion : (let s : State := { run with intake := { run.intake with frames := [⟨0, 7, 0, 0, 0, none, 0, [], 64, 0, 0, 0, 0, 0⟩], ctxs := [(0, Ctx.unused)] } }
     s.Kept ∧ s.cclk = true ∧ (s.intake.frames.find? fun f => windowOpen s f.part).isSome = true ∧ templateOutside (templateOf s (ctxOf s 0).sel) = none) ∧
    (let s := withGrid .open .ready
     s.wf = true ∧ gridOf s 63 = some (grid .open .ready) ∧ voxBlock (grid .open .ready) [63, 63, 63] < (grid .open .ready).nblocks ∧
     s.leMem ((grid .open .ready).addr 0 + (grid .open .ready).offBlocks + 0x40 + 2 * 511) 2 < (grid .open .ready).capBricks ∧
     s.leMem ((grid .open .ready).addr 0 + (grid .open .ready).offBricks + 0x40 + 4 * 511) 4 < (grid .open .ready).capKeys) ∧
    (let c := { Ctx.unused with kind := CtxKind.image, queue := 5, img := some ⟨1, false, 0, 0, 64, 64, [], [], false⟩ }
     let s : State := { run.wrN (Reg.queueCfg 5) (4 + 2 ^ 8 * (8 + 512)) with intake := { run.intake with ctxs := [(0, c)] } }
     s.cclk = true ∧ (ctxOf s 0).img.isSome = true ∧ imageOutside s 0 = false ∧ engWaits s (ringRange s (ctxOf s 0).queue) = false ∧
     imageOutside (s.wrN (Reg.queueCfg 5) 4) 0 = true ∧ (ctxOf (s.wrN (Reg.queueCfg 5) 4) 0).img.isSome = true) := by decide +kernel
theorem witness_grids : (withGrid .open .ready).Kept ∧ (let s := withGrid .open .ready; gridOf s 63 = some (grid .open .ready) ∧ hostOpen s = true) ∧
    (grid .closed .ready).find .open = none ∧
    (let s := withGrid .open .closing; s.cclk = true ∧ (grid .open .closing).find .closing = some 1 ∧ bufPending s 63 1 = false ∧ gridOf s 63 = some (grid .open .closing)) ∧
    (let s := (filled 5 1 (withQ 5 1 1 3 (withGrid .open .closed))).putBytes sharedBase [9]
     s.cclk = true ∧ gridOf s 63 = some (grid .open .closed) ∧ qCons s 5 = 3 ∧ (qPeek s 5).isSome = true ∧ engWaits s (takeRange s 5) = false ∧ ((grid .open .closed).releasable 9).isSome = true ∧
     (grid .open .closed).releasable 8 = none) ∧
    (let s := withGrid .open .clearing; s.cclk = true ∧ (grid .open .clearing).find .clearing = some 1) := by decide +kernel

/-! ### Instruction words -/

/-- The empty word. -/
def w0 : IWord := word [(0, 4, 1)]
/-- Core 0 with S1 at the start of its local store's second KiB. -/
def core1 : State := setCore core0 0 ((core core0 0).setS 1 (BitVec.ofNat 64 (localBase 0 + 1024)))
/-- A word that addresses S1, updating it by the immediate 64. -/
def wMem : IWord := word [(0, 4, 1), (91, 5, 1), (101, 1, 1), (115, 3, 1), (464, 48, 64)]

theorem witness_words : core0.Kept ∧ base.Kept ∧ wordOf (.add 0 w0) = some (0, withSca 1 w0) ∧ traceHeld core0 0 = false ∧ mayIssue base 0 = false ∧ mayIssue core0 0 = true ∧
    (let s := setCore core0 0 { core core0 0 with pc := 0 }; mayIssue s 0 = true ∧ inLocal 0 (core s 0).pc.toNat = false) ∧
    (let w := setWf (withSca 1 w0) 5 11 1; wordOf (.add 0 (setWf w0 5 11 1)) = some (0, w) ∧ wordReserved w = true) ∧
    (match wordException (withSca 1 0) core0 0 with | some e => decide (e.cause < 5) && (e.cause == 1 || !gatherHeld (withSca 1 0) core0 0) | none => false) = true ∧
    inLocal 0 (core core0 0).pc.toNat = true ∧ wordReserved (withSca 1 0) = false ∧ (wordException (withSca 1 0) core0 0).isSome = true ∧
    issues core0 0 (withSca 1 w0) = true ∧ gatherOutside 0 (withSca 1 w0) (core core0 0) core0 = none ∧ arrOutside (withSca 1 w0) core0 0 (core core0 0) = none ∧
    (match adrEffect 0 (withSca 1 w0) (core core0 0) core0 with | .next _ => true | _ => false) = true ∧
    (match tqEffect 0 (withSca 1 w0) (core core0 0) false core0 with | .done _ _ => true | _ => false) = true ∧
    (let s := setCore core0 0 ((core core0 0).setS 1 0xFFFF000000000000)
     let w := withAdr 1 (word [(0, 4, 1), (91, 5, 1)])
     issues s 0 w = true ∧ (match adrEffect 0 w (core s 0) s with | .outside n => n == 15 | _ => false) = true) ∧
    (let w := withVec 0x90 (word [(0, 4, 1), (154, 4, 2), (158, 5, 1)]); issues core0 0 w = true ∧ (gatherOutside 0 w (core core0 0) core0).isSome = true) ∧
    (let w := withArr 1 (word [(0, 4, 1), (246, 4, 1)]); issues core0 0 w = true ∧ (arrOutside w core0 0 (core core0 0)).isSome = true) ∧
    (let s := withQ 5 10 1 1 core0
     let w := withTq 1 (word [(0, 4, 1), (342, 10, 5)])
     issues s 0 w = true ∧ (match tqEffect 0 w (core s 0) false s with | .refused => true | _ => false) = true) ∧
    nextHas (exec (.add 0 w0) core0) (fun t => (core t 0).pc == (core core0 0).pc + 64) = true := by decide +kernel
theorem witness_scalar : core0.wf = true ∧ issues core0 0 (withSca 1 w0) = true ∧ wordOps (withSca 1 w0) = [1, 0, 0, 0, 0, 0] ∧
    issues core0 0 (withNone w0) = true ∧ issues core0 0 (withSca 0x21 w0) = true ∧ issues core0 0 (withSca 0x30 w0) = true ∧
    wordOps (withSca 0x30 w0) = [0x30, 0, 0, 0, 0, 0] ∧
    (let w := word [(0, 4, 1), (39, 1, 1), (464, 48, 3)]
     issues core0 0 (withSca 0x31 w) = true ∧ (scaB (withSca 0x31 w) (core core0 0)).toNat % 256 = 3) ∧
    (let w := word [(0, 4, 1), (39, 1, 1), (464, 48, 6)]
     issues core0 0 (withSca 0x31 w) = true ∧ issues core0 0 (withSca 0x30 w) = true ∧ (scaB (withSca 0x31 w) (core core0 0)).toNat % 256 = 6) := by decide +kernel
theorem witness_loads : core1.wf = true ∧ issues core1 0 (withAdr 1 wMem) = true ∧ wordOps (withAdr 1 wMem) = [0, 1, 0, 0, 0, 0] ∧
    (adrEa (withAdr 1 wMem) (core core1 0)).1.toNat = localBase 0 + 1024 ∧ onDieOk (syncDue 0 core1) 0 false (localBase 0 + 1024) 512 = true ∧
    issues core1 0 (withAdr 0x10 wMem) = true ∧ issues core1 0 (withAdr 0x14 wMem) = true ∧ issues core1 0 (withAdr 4 wMem) = true ∧
    issues core1 0 (withAdr 0x18 wMem) = true ∧ issues core1 0 (withAdr 0x22 wMem) = true ∧
    (let s := setCore core1 0 ((core core1 0).setS 1 0x2FFFFFFFF8)
     let s := { s with warp := { s.warp with parts := [{ part0 with memSize := 0 }] } }
     issues s 0 (withAdr 4 wMem) = true ∧ decodedRange 0x2FFFFFFFF8 8 = true ∧ accessOk (syncDue 0 s) (.core 0) false 0x2FFFFFFFF8 8 = false) ∧
    (core core1 0).dma = [] ∧ (let s := setCore core1 0 ((core core1 0).setS 1 0xFFFF000000000000)
     issues s 0 (withAdr 4 wMem) = true ∧ decodedRange 0xFFFF000000000000 8 = false) := by decide +kernel
theorem witness_stores : core1.wf = true ∧ issues core1 0 (withAdr 0x11 wMem) = true ∧ wordOps (withAdr 0x11 wMem) = [0, 0x11, 0, 0, 0, 0] ∧
    writeOutside (syncDue 0 core1) (.core 0) (localBase 0 + 1024) 512 = none ∧ onDieOk (syncDue 0 core1) 0 true (localBase 0 + 1024) 512 = true ∧
    (let s := setCore core1 0 ((core core1 0).setS 1 0x2FFFFFFFF8)
     let s := { s with warp := { s.warp with parts := [{ part0 with memSize := 0 }] } }
     issues s 0 (withAdr 0xB wMem) = true ∧ writeOutside (syncDue 0 s) (.core 0) 0x2FFFFFFFF8 8 = none ∧ decodedRange 0x2FFFFFFFF8 8 = true ∧
     accessOk (syncDue 0 s) (.core 0) true 0x2FFFFFFFF8 8 = false) ∧
    (let s := (filled 5 1 (withQ 5 1 1 2 core1)).wrQ (Reg.queueBase 5) 2 (localBase 0 + 1024)
     issues s 0 (withAdr 0xB wMem) = true ∧ decodedRange (localBase 0 + 1024) 8 = true ∧ (writeOutside (syncDue 0 s) (.core 0) (localBase 0 + 1024) 8).isSome = true) := by decide +kernel
theorem witness_branches : core0.wf = true ∧ issues core0 0 (withBr 1 w0) = true ∧ wordOps (withBr 1 w0) = [0, 0, 0, 0, 0, 1] ∧ issues core0 0 (withBr 7 w0) = true ∧
    issues core0 0 (withBr 8 w0) = true ∧ issues core0 0 (withBr 9 w0) = true ∧ issues core0 0 (withBr 0xA w0) = true ∧
    (let s := core0.putB (Reg.coreExcStatus 0) 1 true; s.wf = true ∧ issues s 0 (withBr 0xB w0) = true) := by decide +kernel
theorem witness_exceptions : core0.Kept ∧ core0.wf = true ∧ mayIssue core0 0 = true ∧ traceHeld core0 0 = false ∧ queueRefuses 0 (withBr 0x12 w0) core0 = false ∧
    gatherHeld (withBr 0x12 w0) core0 0 = false ∧ inLocal 0 (core core0 0).pc.toNat = true ∧ wordReserved (withBr 0x12 w0) = false ∧
    illegalField (withBr 0x12 w0) core0 0 = none ∧ misalignField (withBr 0x12 w0) (core core0 0) = none ∧
    (core0.putB (Reg.coreExcCfg 0) 0 true).bit (Reg.coreExcCfg 0) 0 = true ∧ core0.bit (Reg.coreExcCfg 0) 0 = false ∧
    core0.bit (Reg.coreExcStatus 0) 1 = false ∧ (core0.putB (Reg.coreExcCfg 0) 2 true).bit (Reg.coreExcCfg 0) 2 = true ∧
    State.msixHeld ({ core0 with host := { core0.host with busMaster := true, msixEn := true } }.putB (Reg.msixTable 0 + 12) 0 false) 0 = false := by decide +kernel

/-! ### Vectors and arrays -/

/-- A word whose vector field has element type f and destination V1. -/
def wVec (f : Nat) : IWord := word [(0, 4, 1), (154, 4, f), (158, 5, 1), (183, 5, 1)]

theorem witness_vector : core0.wf = true ∧ issues core0 0 (withVec 0x10 w0) = true ∧ wordOps (withVec 0x10 w0) = [0, 0, 0x10, 0, 0, 0] ∧
    issues core0 0 (withVec 0x36 w0) = true ∧ issues core0 0 (withVec 0x45 w0) = true ∧ issues core0 0 (withVec 0x84 (wVec 9)) = true := by decide +kernel
theorem witness_lanes : core0.wf = true ∧ ([0x10, 0x11, 0x12, 0x19, 0x1A, 0x1B, 0x1C, 0x23, 0x30, 0x31, 0x32, 0x33, 0x34, 0x35, 0x40, 0x41, 0x42, 0x43, 0x44, 0x45].all
      fun op => issues core0 0 (withVec op (wVec 0)) && wordOps (withVec op (wVec 0)) == [0, 0, op, 0, 0, 0]) = true ∧
    isInt (vFmt (withVec 0x10 (wVec 0))) = true ∧ isSInt (vFmt (withVec 0x30 (wVec 0))) = true ∧ vSat (withVec 0x10 (wVec 0)) = false ∧
    vPmEn (withVec 0x30 (wVec 0)) = false ∧ issues core0 0 (withVec 0x12 (wVec 0xD)) = true ∧ isInt (vFmt (withVec 0x12 (wVec 0xD))) = true := by decide +kernel
theorem witness_gather : core1.wf = true ∧ issues core1 0 (withVec 0x90 (wVec 2)) = true ∧ wordOps (withVec 0x90 (wVec 2)) = [0, 0, 0x90, 0, 0, 0] ∧
    gatherOutside 0 (withVec 0x90 (wVec 2)) (core core1 0) (syncDue 0 core1) = none ∧ issues core1 0 (withVec 0x91 (wVec 2)) = true ∧
    wordOps (withVec 0x91 (wVec 2)) = [0, 0, 0x91, 0, 0, 0] ∧ gatherOutside 0 (withVec 0x91 (wVec 2)) (core core1 0) (syncDue 0 core1) = none ∧
    (127, localBase 0 + 1024) ∈ gatherLanes (withVec 0x91 (wVec 2)) (core core1 0) ∧
    (gatherLanes (withVec 0x91 (wVec 2)) (core core1 0)).all (fun y => decide (y.1 ≤ 127)) = true := by decide +kernel

/-- A word whose array field names A0, with operands at S1. -/
def wArr : IWord := word [(0, 4, 1), (246, 4, 1), (257, 5, 1), (262, 5, 1)]
/-- Core 0 with A0 in mode R. -/
def rowCore : State := core1.putB (Reg.arrayCfg0 0) 0 true
/-- Core 0 whose sparse window covers the second KiB of its local store. -/
def sparseCore : State := ((core1.wrQ (Reg.sparseWinBase 0) 2 (localBase 0 + 1024)).putF (Reg.sparseWinBase 0 + 8) 0 24 1024).putB (Reg.sparseWinBase 0 + 12) 0 true

theorem witness_arrays : core1.wf = true ∧ rowCore.wf = true ∧ sparseCore.wf = true ∧
    ([(core1, 1, withArr 1 wArr), (rowCore, 2, withArr 2 wArr), (rowCore, 3, withArr 3 wArr), (core1, 4, withArr 4 wArr), (core1, 5, withArr 5 wArr),
      (rowCore, 6, setWf (withArr 6 wArr) 285 4 0), (rowCore, 6, setWf (withArr 6 wArr) 285 4 1)].all fun x =>
        issues x.1 0 x.2.2 && wordOps x.2.2 == [0, 0, 0, x.2.1, 0, 0] && arrOutside x.2.2 (syncDue 0 x.1) 0 (core x.1 0) == none) = true ∧
    inSparseWin core1 0 (arrOpOf (withArr 1 wArr) (core core1 0)).sa = false ∧
    (let s := (sparseCore.putBytes (localBase 0 + 1024 + 16) [4]); s.wf = true ∧ issues s 0 (withArr 1 wArr) = true ∧
      arrOutside (withArr 1 wArr) (syncDue 0 s) 0 (core s 0) = none ∧ inSparseWin s 0 (arrOpOf (withArr 1 wArr) (core s 0)).sa = true) ∧
    issues core1 0 (withArr 8 wArr) = true ∧ wordOps (withArr 8 wArr) = [0, 0, 0, 8, 0, 0] := by decide +kernel

/-- An array operation on A0 with operands at the second KiB of the local store. -/
def opA (op : AOp) (done : Nat) : ArrOp := ⟨op, 1, 0, 0, 0, 1, localBase 0 + 1024, localBase 0 + 1024, false, [], false, none, done, [], none⟩
/-- Core 0 with given queued, current and flying operations. -/
def arrsWith (q : List ArrOp) (cur : Option ArrOp) (fl : List ArrOp) : State := setArr 0 { Arrays.empty with cmdq := q, cur := cur, flight := fl } core0

theorem witness_arrayEvents : (let s := arrsWith [opA .aout 0] none []
     s.Kept ∧ s.cclk = true ∧ coreState s 0 = 1 ∧ (arrs s 0).cmdq = [opA .aout 0] ∧ (arrs s 0).cur = none ∧ accOutside s 0 (opA .aout 0) = none) ∧
    (let s := setArr 0 { Arrays.empty with ck := [(0, { CkState.clear with kinds := [(0, 0)], paired := true })] } core0
     accOutside s 0 { opA .aout 0 with acc := true } = some 263) ∧
    ([AOp.tstep, .aclr, .wread, .adrain].all fun o => !stepsInFlight (arrsWith [] none []) 0 (opA o 0).amask && accOutside (arrsWith [] none []) 0 (opA o 0) == none) = true ∧
    arrFrozen (arrsWith [opA .aclr 0] none []) 0 = false ∧
    (match scatterOf (arrsWith [] none []) 0 (opA .adrain 0) with | .next none => true | _ => false) = true ∧
    (let g : Gather := { (gatherAt 0 (localBase 0 + 1024) core0).1 with scatter := 1 }
     let s := setArr 0 { Arrays.empty with ck := [(0, { CkState.clear with gather := some (g, 3, 0) })] } core0
     (match scatterOf s 0 (opA .adrain 0) with | .outside n => n == 369 | _ => false) = true) ∧
    (let s := arrsWith [opA .aclr 0] none [opA .aout 1]; (arrs s 0).cmdq = [opA .aclr 0] ∧ stepsInFlight s 0 1 = true) ∧
    (let s := arrsWith [] (some (opA .aout 0)) []; (arrs s 0).cur = some (opA .aout 0) ∧ arrFrozen s 0 = false) ∧
    (let s := (arrsWith [opA .aclr 0] none [opA .adrain 0]).putB (Reg.arrayTq0 0) 3 true
     arrFrozen s 0 = true ∧ (arrs s 0).cmdq = [opA .aclr 0] ∧ dueDrains s 0 = [(0, opA .adrain 0)] ∧ (dueDrains s 0).find? (fun x => drainRoom s 0 x.2) = none) ∧
    (let s := arrsWith [] none [opA .adrain 0]; (dueDrains s 0).find? (fun x => drainRoom s 0 x.2) = some (0, opA .adrain 0)) ∧
    mayComplete [opA .arow 1, opA .aout 1] 0 = true ∧ mayComplete [opA .arow 1, opA .aout 1] 1 = true ∧ mayComplete [opA .aout 1, opA .arow 1] 1 = false ∧
    mayComplete [] 0 = false ∧ (opA .aout 1).steps = true ∧
    (let s := core0.putB (Reg.arrayPwr 0) 8 true; s.bit (Reg.arrayPwr 0) 8 = true ∧ s.wf = true) := by decide +kernel

/-- An update of element 0 of the granule at the second KiB. -/
def upd : Update := ⟨localBase 0 + 1024, [(0, 5)], 1, false, 1⟩
/-- A tile of zeros whose checks apply. -/
def zeroTile : Tile := { tileOf core0 0 0 with rowCk := true, colCk := true, duplicate := false }

theorem witness_tileDrains : (let t := tileOf core0 0 0
     let p := { opA .adrain 1 with snap := [(0, t)] }
     let s := arrsWith [] none [p]
     s.Kept ∧ s.cclk = true ∧ coreState s 0 = 1 ∧ (arrs s 0).flight.find? (drained s 0 0) = some p ∧
     p.gather = none ∧ sharedReg s 0 = false ∧ p.snap.find? (fun x => x.1 == 0) = some (0, t)) ∧
    (let row : ScatRow := ⟨[(localBase 0 + 1024, [(0, 5)])], 1, false, 1⟩
     let full := setArr 0 { Arrays.empty with rows := [row], cq := [(16, List.replicate 8 upd)] } core0
     let free := setArr 0 { Arrays.empty with rows := [row] } core0
     (arrs full 0).rows = [row] ∧ rowBlocked full 0 row = true ∧ full.wf = true ∧ (arrs free 0).rows = [row] ∧ rowBlocked free 0 row = false ∧
     cqOf full 0 16 = upd :: List.replicate 7 upd) ∧ upd.elems = [(0, 5)] ∧ upd.flt = false := by decide +kernel
theorem witness_checks : presented (core0.putF (Reg.arrayWidth0 0) 0 8 104) 0 0 zeroTile.paired = 104 ∧ zeroTile.rowCk = true ∧ zeroTile.colCk = true ∧ zeroTile.duplicate = false ∧ zeroTile.flt = false ∧ zeroTile.paired = false ∧
    ([false, true].all fun col => (ckLines zeroTile 104 col).all fun i => !lineSpecial zeroTile 104 (fun _ => none) col i && !lineFails zeroTile 104 (fun _ => none) col i) = true ∧
    ckFirst zeroTile 104 (fun i => if i = 3 then some 1 else none) false = some 3 ∧ ckFirst zeroTile 104 (fun i => if i = 3 then some 1 else none) true = none ∧
    lineFails zeroTile 104 (fun _ => none) false 3 = false := by decide +kernel

/-! ### Queues, waits and transfers of the cores -/

/-- A word whose tile-queue field names queue 5, rd S2 and rs S1, non-blocking or not. -/
def wTq (nb : Nat) : IWord := word [(0, 4, 1), (342, 10, 5), (352, 5, 2), (357, 5, 1), (366, 1, nb), (369, 5, 3)]
/-- Core 0 with queue 5 between cores: core 0 produces and consumes, n elements are committed. -/
def qCore (n : Nat) : State := filled 5 n ((withQ 5 10 1 1 core0).wr (Reg.queueProdMask 5) 1)
/-- The same with queue 5 in another state. -/
def qCoreIn (st : Nat) : State := (qCore 0).putF (Reg.queueStatus 5) 0 2 st

theorem witness_qres : (qCore 0).Kept ∧ (qCoreIn 3).Kept ∧ (qCore 0).wf = true ∧ issues (qCore 0) 0 (withTq 1 (wTq 0)) = true ∧ wordOps (withTq 1 (wTq 0)) = [0, 0, 0, 0, 1, 0] ∧
    tqQ (withTq 1 (wTq 0)) = 5 ∧ qState (qCore 0) 5 = 1 ∧ mayProduce (qCore 0) 0 5 = true ∧ tqN (withTq 1 (wTq 0)) ≤ qFree (qCore 0) 5 ∧
    (qCore 16).wf = true ∧ issues (qCore 16) 0 (withTq 1 (wTq 1)) = true ∧ qFree (qCore 16) 5 < 1 ∧ tqN (withTq 1 (wTq 1)) = 1 ∧ tqNb (withTq 1 (wTq 1)) = true ∧
    (qCoreIn 3).wf = true ∧ issues (qCoreIn 3) 0 (withTq 1 (wTq 0)) = true ∧ qState (qCoreIn 3) 5 = 3 ∧
    (qCoreIn 2).wf = true ∧ issues (qCoreIn 2) 0 (withTq 1 (wTq 0)) = true ∧ qState (qCoreIn 2) 5 = 2 ∧ mayProduce (qCoreIn 2) 0 5 = true := by decide +kernel
theorem witness_qacq : (qCore 3).wf = true ∧ issues (qCore 3) 0 (withTq 3 (wTq 0)) = true ∧ wordOps (withTq 3 (wTq 0)) = [0, 0, 0, 0, 3, 0] ∧
    mayConsume (qCore 3) 0 5 = true ∧ qFill (qCore 3) 5 = 3 ∧ issues (qCore 0) 0 (withTq 3 (wTq 1)) = true ∧ qFill (qCore 0) 5 = 0 ∧
    issues (qCoreIn 3) 0 (withTq 3 (wTq 0)) = true ∧ issues (qCoreIn 0) 0 (withTq 3 (wTq 0)) = true ∧ (qCoreIn 0).wf = true ∧ qState (qCoreIn 0) 5 = 0 ∧
    mayConsume (qCoreIn 0) 0 5 = true ∧
    issues (qCore 3) 0 (withTq 4 (wTq 0)) = true ∧ wordOps (withTq 4 (wTq 0)) = [0, 0, 0, 0, 4, 0] ∧ tqN (withTq 4 (wTq 0)) ≠ 0 ∧
    tqN (withTq 4 (wTq 0)) ≤ qFill (qCore 3) 5 := by decide +kernel
theorem witness_qcmt : (let s := setSlots (qCore 0) 5 [⟨0, some (.core 0), false⟩]
     s.wf = true ∧ issues s 0 (withTq 2 (wTq 0)) = true ∧ wordOps (withTq 2 (wTq 0)) = [0, 0, 0, 0, 2, 0] ∧ qState s 5 = 1 ∧ mayProduce s 0 5 = true ∧
     holdsSlot s 0 5 ((core s 0).sreg (tqRs (withTq 2 (wTq 0)))).toNat = true) ∧
    (let x := withTq 1 (wTq 0); let s := setCore (qCore 0) 0 { core (qCore 0) 0 with wait := .queue x false }
     s.wf = true ∧ (core s 0).wait = .queue x false ∧ wordOps x = [0, 0, 0, 0, 1, 0] ∧ issues (setCore s 0 { core s 0 with wait := .none }) 0 x = true ∧
     mayProduce s 0 (tqQ x) = true) ∧
    (let x := withTq 3 (wTq 0); let s := setCore (qCore 3) 0 { core (qCore 3) 0 with wait := .queue x false }
     s.wf = true ∧ (core s 0).wait = .queue x false ∧ wordOps x = [0, 0, 0, 0, 3, 0] ∧ issues (setCore s 0 { core s 0 with wait := .none }) 0 x = true ∧
     mayConsume s 0 (tqQ x) = true) ∧
    (let x := withTq 3 (wTq 0); let s := setCore (qCoreIn 2) 0 { core (qCoreIn 2) 0 with wait := .queue x true }
     s.wf = true ∧ (core s 0).wait = .queue x true ∧ ready (setCore s 0 { core s 0 with wait := .none }) 0 x = true) := by decide +kernel
/-- Core 0 with one complete tile at the head of A0's queue. -/
def tileCore : State := setArr 0 { Arrays.empty with tq := [(0, [{ tileOf core0 0 0 with complete := true }])] } core0
theorem witness_tiles : tileCore.wf = true ∧ ([8, 9, 0xA, 0xB].all fun o => issues tileCore 0 (withTq o w0) && wordOps (withTq o w0) == [0, 0, 0, 0, o, 0]) = true := by decide +kernel
theorem witness_waits : core0.Kept ∧ core0.wf = true ∧ issues core0 0 (withTq 5 w0) = true ∧ wordOps (withTq 5 w0) = [0, 0, 0, 0, 5, 0] ∧
    (let s := (qCore 1).wrN (Reg.coreWatch0 0) 0x8005
     let watch := (List.range 8).map fun i => s.rd (Reg.coreWatch0 0 + 4 * i)
     s.wf = true ∧ issues s 0 (withTq 5 w0) = true ∧ (watched { core s 0 with watch := watch }).any (fun x => qFill s x.2 != 0) = true) ∧
    issues core0 0 (withBr 0x11 w0) = true ∧ wordOps (withBr 0x11 w0) = [0, 0, 0, 0, 0, 0x11] ∧ issues core0 0 (withBr 0x10 w0) = true ∧
    wordOps (withBr 0x10 w0) = [0, 0, 0, 0, 0, 0x10] ∧ groupOf core0 0 = none ∧
    (let s := withCore 1 { core0 with warp := { core0.warp with cores := [(0, ⟨some 2, false⟩), (1, ⟨some 2, false⟩)] } }
     s.wf = true ∧ issues s 0 (withBr 0x10 w0) = true ∧ groupOf s 0 = some 2 ∧ groupOf s 1 = some 2 ∧ coreState s 1 = 1 ∧ inGbar s 1 = false ∧
     (let s := setCore s 1 { core s 1 with wait := .barrier 0 none }
      issues s 0 (withBr 0x10 w0) = true ∧ ∀ j : CoreId, j ≠ 0 → groupOf s j = some 2 → coreState s j = 1 → inGbar s j = true)) := by decide +kernel
theorem witness_lowPower : core0.Kept ∧ core0.cclk = true ∧ coreState core0 0 = 1 ∧
    (let s := setCore core0 0 { core core0 0 with wait := .qwait 0 none false, pwr := 1 }
     s.wf = true ∧ (core s 0).wait = .qwait 0 none false ∧ (core s 0).nap = .awake ∧ (core s 0).pwr.toNat.testBit 0 = true) ∧
    (let s := setCore core0 0 { core core0 0 with nap := .wanted 2 }
     s.wf = true ∧ (core s 0).nap = .wanted 2 ∧ arraysIdle s 0 = true ∧ (traced s 0 && fifoFull s 0) = false) ∧
    (let s := setCore core0 0 { core core0 0 with nap := .entering 3 }; s.wf = true ∧ coreState s 0 = 1 ∧ (core s 0).nap = .entering 3) ∧
    (let s := (setCore core0 0 { core core0 0 with nap := .exiting }).putF (Reg.coreStatus 0) 3 3 3; s.wf = true ∧ (core s 0).nap = .exiting ∧ corePower s 0 = 3) ∧
    corePower core0 0 ≠ 3 := by decide +kernel
/-- A descriptor of a transfer of one row of 64 bytes within the local store, or from `src`. -/
def dmaCore (src cq : Nat) (s : State) : State :=
  s.putBytes (localBase 0 + 1024) (natLe 8 src ++ natLe 8 (localBase 0 + 4096) ++ natLe 4 64 ++ natLe 4 1 ++ zeros 8 ++ natLe 2 cq ++ zeros 14)
/-- Core 0 with the transfer of that descriptor in flight. -/
def copying (cq : Nat) (written : Bool) (s : State) : State :=
  let s := dmaCore (localBase 0 + 2048) cq s
  setCore s 0 { core s 0 with dma := [{ dmaOf (s.bytes (localBase 0 + 1024) 48) with written := written }] }
theorem witness_dma : (let s := dmaCore (localBase 0 + 2048) 0xFFFF core1
     let v := withAdr 0x20 wMem
     let d := dmaOf (s.bytes (localBase 0 + 1024) 48)
     s.Kept ∧ s.wf = true ∧ issues s 0 v = true ∧ wordOps v = [0, 0x20, 0, 0, 0, 0] ∧ (adrEa v (core s 0)).1.toNat = localBase 0 + 1024 ∧
     onDieOk (entryState 0 v s) 0 false (localBase 0 + 1024) 48 = true ∧ inSparseWin s 0 d.src = false ∧ d.rows = 1 ∧
     dmaOutside (entryState 0 v s) 0 { d with transpose := (transposeAt s d.dst).map fun t => t.2.2 } = none) ∧
    ([copying 0xFFFF false core1, copying 5 false (withQ 5 10 3 1 core1)].all fun s =>
      match (core s 0).dma[0]? with
      | none => false
      | some d => s.wf && s.cclk && d.job.isNone && d.transpose.isNone && !d.written && !inWin d.dst && !(dmaSrcRows d ++ dmaDstRows d).any (fun r =>
          meterWaits s (.core 0) r.1 r.2 || portHolds s 0 r.1 r.2 || chanWaits s (.dma 0 d.src d.dst) r.1 r.2) && !dmaMeets s 0 d &&
        ((dmaWrites s 0 d).findSome? (fun r => writeOutside s (.core 0) r.1 r.2)).isNone && !engWaits s (commitRange s d.cmplQ)) = true ∧
    (let s := copying 0xFFFF true core1
     s.wf = true ∧ ((core s 0).dma[0]?).map (fun d => (d.job, d.written, decide (1024 ≤ d.cmplQ))) = some (none, true, true) ∧ portWaits s 0 = false ∧
     portWaits (setChan s 47 { Chan.idle with waiting := [⟨0, 0⟩] }) 0 = true) ∧
    (let s := dmaCore (localBase 0 + 1024) 0 sparseCore
     issues s 0 (withAdr 0x20 wMem) = true ∧ inSparseWin s 0 (dmaOf (s.bytes (localBase 0 + 1024) 48)).src = true ∧
     onDieOk (entryState 0 (withAdr 0x20 wMem) s) 0 false (localBase 0 + 1024) 128 = true) ∧
    (let s := dmaCore (localBase 0 + 2048) 5 (withQ 5 10 3 1 core1)
     let d := dmaOf (s.bytes (localBase 0 + 1024) 48)
     d.cmplQ = 5 ∧ qState s 5 = 1 ∧ qProd s 5 = 3 ∧ qFree s 5 ≠ 0) := by decide +kernel

/-! ### Sparse jobs and companion memory -/

/-- Core 0 with a sparse job of kind n, stride 1, one offset, an empty input grid and lists in its local store. -/
def jobBytes (n : Nat) : List Byte :=
  let g := localBase 0 + 0x4000
  natLe 4 (n + 256 + 65536) ++ natLe 4 1 ++ natLe 8 g ++ natLe 8 (g + 0x4000) ++ natLe 8 (g + 0x2000) ++ natLe 8 (g + 0x3000) ++ natLe 8 (g + 0x3100) ++ natLe 8 (g + 0x3300)
    ++ zeros 72
def jobCore (n : Nat) : State :=
  setCore core0 0 { core core0 0 with dma := [{ dmaOf (zeros 48) with job := some (jobBytes n), cmplQ := 0xFFFF }] }
theorem witness_jobs : (jobBytes 1).length = 128 ∧ (jobCore 1).Kept ∧ ([1, 2, 3].all fun n =>
      let s := jobCore n
      s.wf && s.cclk && ((oldestJob s 0).map fun x => (x.1, x.2.1.ran, x.2.1.lost, decide (1024 ≤ x.2.1.cmplQ), x.2.2)) == some (0, none, false, true, jobBytes n)
        && coreState s 0 == 1 && jobKind (jobBytes n) == n && (jobOutside 0 (jobBytes n) s).isNone) = true := by decide +kernel
/-- Core 0 with a job of kind 1 that has run, or that the drain of its core has abandoned. -/
def jobRan (lost : Bool) : State :=
  setCore core0 0 { core core0 0 with dma := [{ dmaOf (zeros 48) with job := some (jobBytes 1), cmplQ := 0xFFFF, lost := lost, ran := some (1, false, 1, [(1, 1)]) }] }
theorem witness_jobsRun : ([false, true].all fun l => (jobRan l).wf && (jobRan l).cclk &&
      ((oldestJob (jobRan l) 0).map fun x => (x.2.1.ran.isSome, x.2.1.lost)) == some (true, l)) = true ∧
    ([1, 2, 3].all fun n => (jobOutside 0 ((jobBytes n).set 1 3) (jobCore n)).isSome && jobKind ((jobBytes n).set 1 3) == n) = true := by decide +kernel

/-- The part of `run` with channel 0 available in state `st`, with commands waiting, accepted and running. -/
def chanIn (st : Nat) (w a r : List BuCmd) : State :=
  setChan ((run.wrQ Reg.globalChAvail 2 (2 ^ 48 - 1)).putF (Reg.memStatus 0) 0 2 st) 0 { Chan.idle with waiting := w, accq := a, running := r }
/-- A bank-unit command of opcode op on unit 0, INT8, one granule; operands in rows 0 to 2. -/
def buCmd (op : Nat) : BuCmd := ⟨BitVec.ofNat 256 op, 0⟩
/-- A NOTIFY to the local store of core 0. -/
def buNotify : BuCmd := ⟨BitVec.ofNat 256 (0x1F + 2 ^ 64 * (localBase 0 + 1024) + 2 ^ 128 * 7), 0⟩

theorem witness_channelModes : (chanIn 0 [] [] []).Kept ∧ hostOpen (chanIn 0 [] [] []) = true ∧ (chanIn 0 [] [] []).wf = true ∧ chanState (chanIn 0 [] [] []) 0 = 0 ∧
    chanState (chanIn 3 [] [] []) 0 = 3 ∧ chanState (chanIn 2 [] [] []) 0 = 2 ∧
    (let s := chanIn 1 [] [buNotify] [buCmd 1]
     s.wf = true ∧ s.cclk = true ∧ hostOpen s = true ∧ chanState s 0 = 1 ∧ (buOp buNotify.cmd).op = 0x1F ∧ notifyOutside s buNotify = false ∧ inComp (notifyAddr buNotify) = false) ∧
    (chan (chanIn 2 [] [] []) 0).running = [] ∧ (chan (chanIn 2 [] [] []) 0).barriers = [] ∧ (chanIn 2 [] [] []).fld (Reg.memStatus 0) 2 1 = 0 ∧
    (let s := ((withQ 5 1 2 2 (chanIn 2 [] [] [])).wrQ (Reg.queueBase 5) 2 0).putF (Reg.memStatus 0) 2 1 1
     s.wf = true ∧ chanState s 0 = 2 ∧ s.fld (Reg.memStatus 0) 2 1 = 1 ∧ ringIn s 0 = true) ∧ ringIn ((chanIn 2 [] [] []).putF (Reg.memStatus 0) 2 1 1) 0 = false ∧
    (chan (chanIn 2 [] [] [buCmd 1]) 0).running ≠ [] ∧
    (chan (setChan (chanIn 2 [] [] []) 0 { Chan.idle with barriers := [(.word 0, 0)] }) 0).barriers ≠ [] ∧
    run.tclk = true ∧ run.bistDone = true ∧ (47 : Fin 48).val / 4 = (11 : Fin 12).val := by decide +kernel
theorem witness_accesses : (let s := chanIn 0 [] [] []
     s.Kept ∧ s.wf = true ∧ s.cclk = true ∧ inComp 0 = true ∧ inComp 7 = true ∧ meterWaits s (.core 0) 0 8 = false ∧
     chanWaits s (requesterOf (.core 0) 0) 0 8 = false ∧ depart (requesterOf (.core 0) 0) s = s ∧
     accessOk s (.core 0) false 0 8 = true ∧ accessOk s (.core 0) true 0 8 = true ∧ writeOutside s (.core 0) 0 8 = none ∧
     (∀ w, 0 ≤ w → w < 0 + wordSpan 0 8 → healthOf s w = .good ∧ chanAvail s (chanOf s (8 * w)).1 = true) ∧
     (let s := { s with warp := { s.warp with parts := [{ part0 with memSize := 0 }] } }; accessOk s (.core 0) false 0 8 = false ∧ accessOk s (.core 0) true 0 8 = false) ∧
     (let s := (filled 5 1 (withQ 5 1 1 2 s)).wrQ (Reg.queueBase 5) 2 0
      chanWaits s (requesterOf (.core 0) 0) 0 8 = false ∧ (writeOutside (depart (requesterOf (.core 0) 0) s) (.core 0) 0 8).isSome = true)) ∧
    ([(.read 8 : Access), .write (zeros 8)].all fun x =>
      let s := { chanIn 0 [] [] [] with host := { base.host with waiting := [(0, x)] } }
      s.host.waiting == [(BitVec.toNat (0 : W64), x)] && !meterWaits s .host 0 8 && !chanWaits s (requesterOf .host 0) 0 8 &&
        (writeOutside (depart (.host 0) { s with host := { s.host with waiting := [] } }) .host 0 8).isNone) = true := by decide +kernel
theorem witness_units : (let s := chanIn 1 [buCmd 1] [] []
     s.Kept ∧ s.wf = true ∧ s.cclk = true ∧ chanRefuses s 0 = false ∧ chanAvail s 0 = true ∧ accessOk s (.core 0) true (winBase + 0x18) 8 = true ∧ (chan s 0).waiting = [buCmd 1] ∧ chanState s 0 = 1 ∧
     s.pins.pfN = true ∧ (chan s 0).accq.length < 64) ∧ chanRefuses (chanIn 0 [buCmd 1] [] []) 0 = true ∧ (chan (chanIn 0 [buCmd 1] [] []) 0).waiting = [buCmd 1] ∧
    (chan (chanIn 1 [buCmd 1] (List.replicate 64 (buCmd 1)) []) 0).accq.length = 64 ∧ (chanIn 1 [buCmd 1] (List.replicate 64 (buCmd 1)) []).wf = true ∧
    ([1, 2, 0x7003, 0x7004, 8, 9, 0xA, 0x10, 0x11, 0x18].all fun o => let s := chanIn 1 [] [buCmd o] []
      buIdle s 0 (buOp (buCmd o).cmd) && noBarrier s 0 && !buBad (buCmd o).cmd && (buOp (buCmd o).cmd).op == o % 256) = true ∧
    noBarrier (setChan (chanIn 1 [] [] []) 0 { Chan.idle with barriers := [(.word 0, 0)] }) 0 = false ∧
    buBad (buCmd 0x30).cmd = true ∧
    (let s := chanIn 1 [] [buNotify] []; s.wf = true ∧ (chan s 0).running = [] ∧ noBarrier s 0 = true ∧ (buOp buNotify.cmd).op = 0x1F ∧ notifyOutside s buNotify = false) ∧
    (chan (chanIn 1 [] [] [buCmd 1]) 0).running.find? (fun r => (buOp r.cmd).unit == 0) = some (buCmd 1) := by decide +kernel
theorem witness_buElements : (buOp (buCmd 1).cmd).type = 0 ∧ (buOp (buCmd 1).cmd).sat = false ∧ (buOp (buCmd 1).cmd).op = 1 ∧
    (buOp (BitVec.ofNat 256 (1 + 2 ^ 25))).sat = true ∧ (buOp (BitVec.ofNat 256 (1 + 2 ^ 25))).type = 0 ∧ (buOp (buCmd 9).cmd).op = 9 := by decide +kernel

/-! ### The embedding engine -/

/-- A table of 16 rows of dimension 64: directory at 0x1000, pools at 0x10000. -/
def embT : EmbTab := ⟨1, 64, 5, 1, 16, 128, 64, 36, 0, [[0x1000, 0x10000, 0x20000, 0x30000, 0x40000, 0, 0]]⟩
/-- A request element: table 0, n rows, flags, result in the local store. -/
def embReq (table n fl : Nat) : List Byte :=
  natLe 2 table ++ natLe 2 n ++ natLe 2 0xFFFF ++ natLe 1 fl ++ [0] ++ natLe 8 (localBase 0 + 0x4000) ++ zeros 64
/-- The part with table 0 and a request in queue 5 at the head of the request queues. -/
def embIn (e : List Byte) : State :=
  let s := ((filled 5 1 (withQ 5 10 2 3 run)).putBytes sharedBase e).wrQ Reg.globalChAvail 2 (2 ^ 48 - 1)
  { s with emb := { s.emb with tabs := [(0, embT)], reqQ := 5 :: List.replicate 7 0xFFFF } }

/-- What the engine has once it has taken the request of queue 5: the state, and what its one row gives for table `x`. -/
def taken (e : List Byte) : State :=
  let s := embIn e
  (takeNum (qTake 5 { engGo (takeRange s 5 ++ requestRanges s 5 0 (e ++ zeros 8 |>.take 80)) s with emb := { s.emb with turn := 1 } })).2
def takenAcc (x : EmbTab) (e : List Byte) (s : State) : EmbAcc :=
  (indexRecs e 1).foldl (takeIndex x false) ⟨{ newJob s 0 0 0 64 e with grad := none }, [], false, s⟩

theorem witness_requests : (embIn (embReq 0 1 0)).Kept ∧ ([embReq 0 1 0, embReq 0 1 1, embReq 9 1 0, embReq 0 0 0].all fun e =>
      let s := embIn e
      s.wf && s.cclk && s.pins.pfN && nextReq s == some 0 && s.fld Reg.embStatus 8 8 != 64 && s.emb.reqQ.getD 0 0xFFFF == 5 && qCons s 5 == 3 && decide (72 ≤ qEsize s 5)
        && qPeek s 5 == some (e ++ zeros 8 |>.take 80) && queuePart s 5 == some 0
        && !engWaits s (takeRange s 5 ++ requestRanges s 5 0 (e ++ zeros 8 |>.take 80)) && leAt e 6 1 % 4 == leAt e 6 1) = true ∧
    leAt (embReq 0 1 1) 6 1 = 1 ∧ leAt (embReq 0 1 0) 6 1 = 0 ∧
    (let s := (embIn (embReq 0 1 0)).wrN (Reg.queueCfg 5) (4 + 2 ^ 8 * 8 + 2 ^ 20 * 2 + 2 ^ 22 * 3); nextReq s = some 0 ∧ qEsize s 5 < 72) ∧
    embTab (taken (embReq 9 1 0)) 9 = none ∧ embTab (taken (embReq 0 1 0)) 0 = some embT := by decide +kernel
theorem witness_requestForms : embT.partMask.testBit 0 = true ∧ (let s := taken (embReq 0 1 0); let e := embReq 0 1 0
     64 + 8 * leAt e 2 2 ≤ qEsize s 5 ∧ inOnDie (leAt e 8 8) = true ∧ inRegions s 0 (leAt e 8 8) (4 * embT.dim) = true ∧ embT.touch = 0 ∧
     (takenAcc embT e s).outside = false ∧
     (takenAcc { embT with slots := [[0x1000, 0x10000, 0x20000, 0x30000, 0xFFFF00000000, 0, 0]] } e (s.putBytes 0x1000 [0x40])).outside = true ∧
     inTabRegions s { embT with touch := 0xFFFF00000000 } 0xFFFF00000000 ((embT.rows + 7) / 8) = false) ∧
    inOnDie (leAt ((embReq 0 1 0).take 8 ++ zeros 72) 8 8) = false ∧ leAt (embReq 0 0 0) 2 2 = 0 := by decide +kernel
/-- A request of this chip that waits for nothing, with its reply queue. -/
def embJob (q : Nat) : EmbJob := { newJob run 3 0 0 64 [] with replyQ := q, out := localBase 0 + 0x4000 }
theorem witness_requestDone : (let s := { run with emb := { run.emb with jobs := [embJob 0xFFFF] } }
     s.wf = true ∧ s.cclk = true ∧ s.emb.jobs.find? (fun j => j.id = 3 ∧ j.served = none) = some (embJob 0xFFFF) ∧ (embJob 0xFFFF).ready = true ∧
     engWaits s [((embJob 0xFFFF).agent, (embJob 0xFFFF).out, 256)] = false ∧ (embJob 0xFFFF).replyQ = 0xFFFF) ∧
    (let s := withQ 6 10 3 2 { run with emb := { run.emb with jobs := [{ embJob 6 with refused := true }] } }
     s.emb.jobs.find? (fun j => j.id = 3 ∧ j.served = none) = some { embJob 6 with refused := true } ∧ ({ embJob 6 with refused := true }).ready = true ∧
     (queuePart s 6).isSome = true ∧ engWaits s (((embJob 6).agent, (embJob 6).out, 0) :: commitRange s 6) = false ∧
     (engCommit 6 (completion { embJob 6 with refused := true }) (engGo (((embJob 6).agent, (embJob 6).out, 0) :: commitRange s 6) s)).1 = true) := by decide +kernel
/-- A sub-request of one row for chip d, and a partial for it. -/
def embSubMsg (d : BitVec 4) : SubMsg := ⟨d, 1, 7, 0, 0, 0, 64, none, [⟨0, 0, 0, 0x3F800000⟩]⟩
def embPartMsg (d : BitVec 4) : PartMsg := ⟨d, 0, 1, 3, 0, List.replicate 64 0⟩
theorem witness_messages : run.Kept ∧ (embIn []).Kept ∧ (embIn []).wf = true ∧ (embIn []).cclk = true ∧
    run.warp.chip = 0 ∧ (embSubMsg 1).dst.toNat ≠ run.warp.chip ∧ (embSubMsg 0).dst.toNat = run.warp.chip ∧ run.tclk = true ∧
    embTab (embIn []) (embSubMsg 0).table.toNat = some embT ∧ (embSubMsg 0).dim = embT.dim ∧ { embSubMsg 0 with dim := 65 }.dim ≠ embT.dim ∧ embT.touch = 0 ∧
    (let x : EmbTab := { embT with touch := 0xFFFF00000000 }; x.touch ≠ 0 ∧ inTabRegions (embIn []) x x.touch ((x.rows + 7) / 8) = false) ∧
    embTab run 0 = none ∧ run.cclk = true ∧
    engWaits (embIn []) ((((embSubMsg 0).recs.flatMap (subRanges (embIn []) embT (embSubMsg 0))).map fun r => (Agent.chain, r.1, r.2)) ++ sampleRange (embIn [])) = false ∧
    run.emb.jobs.findSome? (takePart (embPartMsg 0)) = none ∧
    (let s := { run with emb := { run.emb with jobs := [{ embJob 6 with waitFor := [(1, 1)] }] } }
     s.wf = true ∧ s.cclk = true ∧ s.emb.jobs = [{ embJob 6 with waitFor := [(1, 1)] }] ∧ (s.emb.jobs.findSome? (takePart (embPartMsg 0))).isSome = true ∧
     (embJob 6).served = none ∧ (embJob 6).id < 65536) ∧
    hostOpen run = true ∧ (run.putB (Reg.embTabStatus 0) 1 true).bit (Reg.embTabStatus 0) 1 = true ∧ run.bit (Reg.embTabStatus 0) 1 = false ∧
    (let s := { run with pos := { run.pos with msDue := true } }; s.wf = true ∧ s.tclk = true ∧ s.pos.msDue = true) ∧ run.pos.msDue = false := by decide +kernel
/-- A SAFETY section with one shared region, which the chain may use. -/
def safe0 : Safety := ⟨0, 1, 1000, 5, zeros 6, zeros 6, 0, 0xFF, 1, 0, false, List.replicate 64 1, 0, [], 0, [], [], [], [], [], [⟨0, 0x3000000000, 1, 1, 3⟩], []⟩
/-- The part with table 0, the move of its row 0 requested to chip d, and link 0 as the route to chip 1. -/
def moving (d : Nat) : State :=
  let s := embIn []
  ((s.putF Reg.embMoveDst 0 4 d).putF (Reg.linkRoute 1) 0 8 0)
/-- What a move's accesses meet: row 0 of table 0 as its directory names it. -/
def moveDir (s : State) : DirEnt := (dirRead .host embT 0 0 (s.putB Reg.embMoveCtrl 0 true)).1
theorem witness_moves : (moving 1).Kept ∧ hostOpen (moving 1) = true ∧ (moving 1).wf = true ∧ (moving 1).emb.move = none ∧ moveRuns (moving 1) = false ∧
    moveRuns ((moving 1).putB Reg.embMoveCtrl 0 true) = true ∧ embTab run 0 = none ∧ moveRuns run = false ∧ embTab (moving 1) 0 = some embT ∧
    (moving 1).fld Reg.embMoveTable 0 8 = 0 ∧ (moving 1).fld Reg.embMoveTable 8 2 = 0 ∧ (moving 1).rd Reg.embMoveRow = 0 ∧
    ([0, 1].all fun d => let s := moving d
      let s0 := s.putB Reg.embMoveCtrl 0 true
      let mv : Move := ⟨0, 0, 0, d, 0, s.emb.moveNum + 1⟩
      s.wf && !engWaits s0 (moveRanges s0 embT mv (moveDir s)) && moveDir (engGo (moveRanges s0 embT mv (moveDir s)) s0) == moveDir s &&
        (moveDir s).tier != 3 && (moveDir s).chip == s.warp.chip && decide (s.emb.redirects.length < 1024) && s.fld Reg.embMoveDst 0 4 == d) = true ∧
    (let s := chanIn 2 [] [] []
     let s : State := { s with emb := (moving 1).emb }
     engWaits (s.putB Reg.embMoveCtrl 0 true) (moveRanges (s.putB Reg.embMoveCtrl 0 true) { embT with slots := [[0, 0, 0, 0, 0, 0, 0]] } ⟨0, 0, 0, 1, 0, 1⟩ (moveDir s)) = true) ∧
    (moveDir ((moving 1).putBytes 0x1000 [3])).tier = 3 ∧ (moveDir ((moving 1).putBytes 0x1000 [4])).chip ≠ (moving 1).warp.chip ∧
    1024 ≤ { (moving 1).emb with redirects := List.replicate 1024 ⟨1, 0, 0, 0, 0⟩ }.redirects.length ∧
    routeOf (moving 1) 1 = some 0 ∧ linkState ((moving 1).putF (Reg.linkStatus 0) 0 2 1) 0 = 1 ∧
    0 < embT.rows ∧ embT.rows ≤ ((moving 1).wrN Reg.embMoveRow 16 |>.rd Reg.embMoveRow).toNat := by decide +kernel
theorem witness_moveAnswers : (let mv : Move := ⟨0, 0, 0, 1, 0, 5⟩
     let s := { moving 1 with emb := { (moving 1).emb with move := some mv } }
     s.wf = true ∧ s.emb.move = some mv ∧ s.cclk = true ∧ s.tclk = true ∧ mv.num = 5 ∧ s.emb.jobs = [] ∧ embTab s mv.table = some embT ∧
     engWaits s (resumeRanges s mv true) = false ∧ engWaits s (resumeRanges s mv false) = false) ∧ (1 : BitVec 4).toNat ≠ (moving 1).warp.chip ∧
    (let m : MoveMsg := ⟨0, 1, 0, 0, 0, 2, 0, 5, zeros 128⟩
     m.dst.toNat = (moving 1).warp.chip ∧ (moving 1).cclk = true ∧ embTab (moving 1) m.table.toNat = some embT ∧ m.tier ≠ 3 ∧
     engWaits (moving 1) [(.chain, embT.row m.vslot m.tier.toNat m.dstSlot.toNat, embT.stride m.tier.toNat)] = false ∧
     engWaits (moving 1) [(.chain, embT.row m.vslot 3 m.dstSlot.toNat, embT.stride 3)] = false ∧ embTab run m.table.toNat = none) := by decide +kernel

/-! ### The chain -/

/-- Link 0 in a state, with what it holds. -/
def linkIn (st : Nat) (x : Link) : State := setLink (run.putF (Reg.linkStatus 0) 0 2 st) 0 x
/-- Link 0 ENABLED in a training phase. -/
def training (p : Phase) : State := linkIn 1 { Link.down with phase := p }

theorem witness_training : (training .up).Kept ∧ ([Phase.signal, .align, .fec, .peer, .mismatch, .credit, .waiting].all fun p =>
      let s := training p; s.wf && s.tclk && linkState s 0 == 1 && (link s 0).phase == p) = true ∧
    alignWidth ((training .align).putF (Reg.linkCfg 0) 0 3 0) 0 .low = none ∧ alignWidth ((training .align).putF (Reg.linkCfg 0) 0 3 0) 0 .all = some (0, false) ∧
    alignWidth ((training .align).putF (Reg.linkCfg 0) 0 3 4) 0 .high = some (2, true) ∧
    linkUp (training .up) 0 = true ∧ (training .up).up = true ∧ hostOpen (training .up) = true ∧ linkUp (training .fec) 0 = false ∧
    (training .up).warp.peers.getD 0 (0xFF, 0xFF) ≠ ((3 : BitVec 4).toNat, (5 : BitVec 3).toNat) ∧
    ({ training .up with warp := { Warp.empty with peers := [(3, 5)] } } : State).warp.peers.getD 0 (0xFF, 0xFF) = ((3 : BitVec 4).toNat, (5 : BitVec 3).toNat) ∧
    (let s := linkIn 2 { Link.down with phase := .up }; s.wf = true ∧ s.cclk = true ∧ linkState s 0 = 2) := by decide +kernel

/-- A data flit with sequence number n. -/
def flit (n : Nat) (data bad : Bool) : Flit := ⟨data, 0, true, true, BitVec.ofNat 12 n, 0, false, 0, 1, 0, zeros 96, false, bad⟩
/-- A message of one flit. -/
def txm : TxMsg := ⟨3, 32, 0, none, .delayReq 0 0, none⟩
/-- A message of 37 flits. -/
def txLong : TxMsg := ⟨0, 8272, 0, none, .delayReq 0 0, none⟩
theorem witness_flits : (training .up).Kept ∧ (training .up).tclk = true ∧ linkUp (training .up) 0 = true ∧ (flit 0 true true).bad = true ∧ (flit 0 true false).bad = false ∧
    (flit 0 true false).nak = false ∧ (flit 0 false false).data = false ∧ (flit 0 true false).fseq.toNat = (link (training .up) 0).rxNext ∧
    (flit 5 true false).fseq.toNat ≠ (link (training .up) 0).rxNext ∧
    (let s := linkIn 1 { Link.down with phase := .up, tx := [txm], credit := [1, 1, 1, 1] }
     nextMsg s (link s 0) 3 = some 0 ∧ (link s 0).tx[0]? = some txm ∧ vcReady s (link s 0) 3 = true ∧ vcFirst s (link s 0) 3 = true ∧ vcReady s (link s 0) 0 = false) ∧
    (let s := linkIn 1 { Link.down with phase := .up, tx := [txLong], credit := [1, 1, 1, 1] }
     nextMsg s (link s 0) 0 = some 0 ∧ (link s 0).tx[0]? = some txLong ∧ vcReady s (link s 0) 0 = true ∧ vcFirst s (link s 0) 0 = true ∧ txLong.sent + 1 < txLong.flits) ∧
    (let s := linkIn 1 { Link.down with phase := .up, rxWhole := [[], [], [], [1]] }; (link s 0).rxWhole.getD 3 [] = 1 :: []) ∧
    (4095 : Nat) < 4096 ∧ (3 : Nat) < 4 ∧ 255 < 256 ∧
    (let s := linkIn 1 { Link.down with phase := .up, replay := [⟨0, 0, 0, true, true, []⟩] }; s.wf = true ∧ (link s 0).replay ≠ [] ∧ (link s 0).resent < 16) ∧
    (let s := linkIn 1 { Link.down with phase := .up, replay := [⟨0, 0, 0, true, true, []⟩], resent := 16 }; (link s 0).replay ≠ [] ∧ 16 ≤ (link s 0).resent) ∧
    (link (training .up) 0).replay = [] := by decide +kernel

/-- A transmit queue with one bolt element for chip d. -/
def txIn (d : Nat) : State :=
  let s := ((filled 5 1 (withQ 5 10 1 3 run)).putBytes sharedBase ([1, BitVec.ofNat 8 d] ++ zeros 78)).putF (Reg.linkStatus 0) 0 2 1
  { s.putF (Reg.linkRoute 1) 0 8 0 with chain := { s.chain with txq := [5] } }
/-- A received bolt for queue 6 of chip d from chip 1. -/
def bolt (d : Nat) : RxBolt := ⟨1, 1, [1, BitVec.ofNat 8 d, 6, 0, 1] ++ zeros 75⟩
/-- Link 0 with that bolt, held or not; queue 6 takes elements of 8 × e bytes and holds n. -/
def rxIn (d e st n : Nat) (held : Bool) : State :=
  let s := (filled 6 n (withQ 6 e 3 1 run)).putF (Reg.queueStatus 6) 0 2 st
  let s := { s with chain := { s.chain with rxq := [(6, 2)] } }
  setLink ((s.putF (Reg.linkRoute 1) 0 8 1).putF (Reg.linkStatus 1) 0 2 1) 0 { Link.down with phase := .up, rxBolts := [bolt d], held := held }

theorem witness_bolts : (txIn 1).Kept ∧ ([1, 0].all fun d =>
      let s := txIn d
      !engWaits s (takeRange s 5) && s.wf && s.cclk && s.pins.pfN && ((List.range s.chain.txq.length).map fun i => (s.chain.turn + i) % s.chain.txq.length).find? (fun i => txTakes s (s.chain.txq.getD i 0)) == some 0
        && qCons s 5 == 3 && (qPeek s 5).isSome) = true ∧
    txBad (txIn 0) 5 ([1, 0] ++ zeros 78) = true ∧ txBad (txIn 1) 5 ([1, 1] ++ zeros 78) = false ∧ qPeek (txIn 1) 5 = some ([1, 1] ++ zeros 78) ∧
    (let s := (txIn 1).wrN (Reg.queueCfg 5) (4 + 2 ^ 8 * 10 + 2 ^ 20 + 2 ^ 22 * 2); txTakes s 5 = true ∧ qCons s 5 ≠ 3) ∧
    routeOf (txIn 1) 1 = some 0 ∧ linkState (txIn 1) 0 = 1 := by decide +kernel
theorem witness_boltsReceived : (rxIn 0 10 1 3 false).Kept ∧ ([rxIn 0 10 3 0 false, rxIn 0 5 1 0 false, rxIn 0 10 2 0 false, rxIn 0 10 1 16 false, rxIn 0 10 1 3 false].all fun s =>
      s.wf && s.cclk && (link s 0).rxBolts == [bolt 0] && !(link s 0).held && !boltDup (link s 0) 1 && s.warp.chip == 0 && rxBound s 6 1 && (qState s 6 == 3 || qProd s 6 == 3)) = true ∧
    leAt (bolt 0).bytes 2 2 = 6 ∧ leAt (bolt 0).bytes 4 1 = 1 ∧ leAt (bolt 0).bytes 1 1 = 0 ∧ payloadLen (bolt 0).bytes = 0 ∧ qState (rxIn 0 10 3 0 false) 6 = 3 ∧
    qEsize (rxIn 0 5 1 0 false) 6 < 80 ∧ qState (rxIn 0 10 2 0 false) 6 = 2 ∧ qEsize (rxIn 0 10 2 0 false) 6 = 80 ∧ qFree (rxIn 0 10 1 16 false) 6 = 0 ∧
    qFree (rxIn 0 10 1 3 false) 6 ≠ 0 ∧ boltDup { Link.down with rxLast := some 1 } 1 = true ∧ rxBound run 6 1 = false ∧ engWaits (rxIn 0 10 1 3 false) (commitRange (rxIn 0 10 1 3 false) 6) = false ∧
    (let s := (rxIn 0 10 1 3 false).wrN (Reg.queueCfg 6) (4 + 2 ^ 8 * 10 + 2 ^ 20 + 2 ^ 22); qState s 6 = 1 ∧ qEsize s 6 = 80 ∧ qProd s 6 ≠ 3) ∧
    routeOf ((rxIn 1 10 1 0 false).putF (Reg.linkRoute 1) 0 8 0xFF) 1 = none ∧
    (let s := rxIn 1 10 1 0 false
     leAt (bolt 1).bytes 1 1 = 1 ∧ routeOf s 1 = some 1 ∧ linkState s 1 = 1 ∧ boltFree s 1 = true ∧ (link s 0).rxBolts = [bolt 1]) ∧
    (let s := rxIn 0 10 1 3 true; (link s 0).held = true ∧ qState s 6 = 1 ∧ qProd s 6 = 3 ∧ qFree s 6 ≠ 0) ∧ (link (rxIn 0 10 1 16 true) 0).held = true ∧ qFree (rxIn 0 10 1 16 true) 6 = 0 := by decide +kernel

/-- Seconds 9 on the time base, and no delay of picks. -/
def late (s : State) : State := { s with pos := { s.pos with tb := ⟨9, 0, 0⟩ }, warp := { s.warp with pos := { s.warp.pos with delay := 0 } } }
/-- The part as chip 0 with the master at chip m, its time base bound to the chain, link 0 UP towards chip 1, and counter 0 in the mode that follows the chain. -/
def timed (m : Nat) : State :=
  let s := ((training .up).putF (Reg.linkRoute 1) 0 8 0).putB Reg.timeStatus 4 true
  { s.putF (Reg.posPkCfg 0) 0 3 5 with warp := { s.warp with master := m, pos := { s.warp.pos with distribute := 1 } } }
theorem witness_chainTime : (timed 0).Kept ∧ (timed 1).Kept ∧ isMaster (timed 0) = true ∧ isMaster (timed 1) = false ∧ (timed 1).wf = true ∧ (timed 1).tclk = true ∧ (timed 1).cclk = true ∧
    linkUp (timed 1) 0 = true ∧ chainBound (timed 1) = true ∧ timeLink (timed 1) = some 0 ∧ timeLink (msgTaken 0 3 (timed 1)) = some 0 ∧ timeLink (msgTaken 0 3 (timed 0)) ≠ some 0 ∧
    (timed 1).chain.lastStep = none ∧ ((timed 1).putB Reg.timeStatus 5 true).bit Reg.timeStatus 5 = true ∧
    (let s := setPick (timed 0) 0 { pickOf (timed 0) 0 with toSend := true, sentAt := none }
     distributes s 0 = true ∧ (pickOf s 0).toSend = true ∧ (pickOf s 0).sentAt = none) ∧ (0 : Nat) + 128 ≤ 128 ∧
    (let m : PickMsg := ⟨0, 0, 0, false, 0, none, 0⟩
     let s := timed 1
     pkChain s 0 = true ∧ pkChain (timed 0) 0 = false ∧ (now32 s ≤ pickInstant s m) ∧
     pickInstant (late s) m < now32 (late s) ∧
     (let s := setPick s 0 { pickOf s 0 with sched := [m] }; (pickOf s 0).sched = [m] ∧ pickInstant s m ≤ now32 s)) := by decide +kernel

/-! ### The selvedge -/

/-- The part outside the safe state. -/
def calm : State := run.putB Reg.selvStatus 0 false
/-- With a SAFETY section of one action for every cause, and events waiting. -/
def withSafety (act : Nat) (l : List FabEvent) (s : State) : State :=
  { s with selv := { s.selv with safety := some { safe0 with actions := List.replicate 16 act }, inbox := l } }

theorem witness_selvEvents : calm.Kept ∧ run.Kept ∧ hostTakes .selvedge calm = true ∧ hostTakes .selvedge run = true ∧ calm.wf = true ∧ calm.selvUp = true ∧ isSafe calm = false ∧ run.wf = true ∧ run.selvUp = true ∧ isSafe run = true ∧
    hostReach calm = true ∧ hostReach run = true ∧ 105 < (106 : BitVec 8).toInt ∧ (105 : BitVec 8).toInt ≤ 105 ∧
    (let s := { calm with selv := { calm.selv with slot := some 0 } }; s.wf = true ∧ s.selvUp = true ∧ s.selv.slot = some 0 ∧ slotActive s 0 = true ∧ isSafe s = false) ∧
    (let s := { run with selv := { run.selv with slot := some 0 } }; s.wf = true ∧ slotActive s 0 = true ∧ isSafe s = true) ∧
    ([(0x17, FabEvent.checksum 0 0 0 false 0 false), (0x19, .memory 0 0 false), (0x1A, .e2e 0 0 5 0 5), (0x1B, .region 0 false 0 true)].all fun x =>
      let s := withSafety 0 [x.2] calm
      s.wf && s.selvUp && s.selv.inbox.findIdx? (fun e => (fabCause s e).1 = x.1) == some 0 && s.selv.inbox[0]? == some x.2 && causeAction s x.1 == 0 && !isSafe s
        && causeAction (withSafety 2 [x.2] calm) x.1 == 2) = true ∧
    (let s := setCore (run.putB (Reg.vecCfg 0) 0 true) 0 { CoreSt.start with checked := [(0x10, 2 ^ 511)] }
     s.wf = true ∧ s.cclk = true ∧ s.bit (Reg.vecCfg 0) 0 = true ∧ (∃ x ∈ (core s 0).checked, x.1 = (0x10 : BitVec 10).toNat ∧ x.2.testBit (511 : BitVec 10).toNat = true) ∧
     ∀ x ∈ (core s 0).checked, x.1 ≠ (0x10 : BitVec 10).toNat ∨ x.2.testBit (510 : BitVec 10).toNat = false) ∧ run.up = true ∧ run.bistDone = true := by decide +kernel

/-- A safe state whose conditions to end are met. -/
def clearable : State :=
  { run.wrN Reg.selvMbxArg1 (run.fld Reg.selvStatus 16 16) with selv := { run.selv with challenge := some (run.rd Reg.selvMbxArg0), imageSince := true, roundAfter := true, newEvent := false } }
theorem witness_clear : clearable.Kept ∧ calm.Kept ∧ hostTakes .selvedge clearable = true ∧ hostTakes .selvedge calm = true ∧ clearable.wf = true ∧ clearable.selvUp = true ∧ hostReach clearable = true ∧ clearResult clearable = 0 ∧ clearResult calm = 1 ∧
    hostReach calm = true := by decide +kernel
theorem witness_periods : run.Kept ∧ run.wf = true ∧ run.selvUp = true ∧ run.selv.tgDead = false ∧ run.selv.fatalSeen = false ∧ run.pins.safeN ≠ .hiZ ∧ run.selv.slot = none ∧
    (let s := { run with selv := { run.selv with tgDead := true, fatalSeen := true, slot := some 545 } }
     s.wf = true ∧ s.selvUp = true ∧ s.selv.tgDead = true ∧ s.selv.fatalSeen = true ∧ s.selv.slot = some 545 ∧ slotActive s 545 = false) ∧
    (let s := { run with selv := { run.selv with slot := some 0 } }; s.selv.slot = some 0 ∧ slotActive s 0 = true) ∧
    (match slotOf 460 with | .array k a => k == 31 && a == 3 | _ => false) = true ∧
    (let s := setLink (run.putF (Reg.linkStatus 5) 0 2 1) 5 { Link.down with phase := .up }
     let s := { s with selv := { s.selv with slot := some 546 } }
     s.wf = true ∧ s.selvUp = true ∧ s.selv.slot = some 546 ∧ linkUp s 5 = true ∧ s.selv.slotFailed = false ∧ { s.selv with slotFailed := true }.slotFailed = true) ∧
    (let s := { run with selv := { run.selv with safety := some { safe0 with windows := [(0, 64)] } } }; s.wf = true ∧ s.selvUp = true ∧ s.up = true) := by decide +kernel

/-- A pair of partitions 0 and 1 with its input queues 5 and 6, and a record for channel A. -/
def pair0 : Pair := ⟨0, 1, 5, 6, 7, 100, 100, 0, 0, 0, 0⟩
def paired (e : List Byte) : State :=
  let s := (filled 5 1 (withQ 5 8 1 3 run)).putBytes sharedBase e
  { s with selv := { s.selv with safety := some { safe0 with pairs := [pair0] } } }
/-- A record of kind k with flags f. -/
def recordOf (k f : Nat) : List Byte := natLe 1 k ++ natLe 1 f ++ zeros 62
theorem witness_records : (paired (recordOf 2 0)).Kept ∧ ([(3, 0), (1, 1), (1, 0), (2, 0)].all fun x =>
      let s := paired (recordOf x.1 x.2)
      !engWaits s [(.host, qHeadAddr s (pair0.inQ false), qEsize s (pair0.inQ false))] && s.selvUp && s.cclk && (pairsOf s)[0]? == some pair0 && qPeek s (pair0.inQ false) == some (recordOf x.1 x.2)) = true ∧
    recordBad (recordOf 3 0) = true ∧ recordBad (recordOf 1 1) = false ∧ recordBad (recordOf 2 0) = false ∧
    ([(1, 1), (2, 0)].all fun x =>
      let s := paired (recordOf x.1 x.2)
      (readRecord (qTake (pair0.inQ false) (engGo [(.host, qHeadAddr s (pair0.inQ false), qEsize s (pair0.inQ false))] s)) (recordOf x.1 x.2)).flags % 2 == x.2) = true := by decide +kernel
/-- A frame with one record that came at selvedge time 0, at selvedge time t. -/
def frameAt (t : Nat) : State :=
  let s := (paired (recordOf 1 0)).wrQ Reg.selvTime 2 t
  setPairSt s 0 { PairSt.idle with frames := [⟨0, [{ readRecord s (recordOf 1 0) with arrived := 0 }], [], [], none, 0, false, false, false, none⟩], seedStarts := [0] }
/-- A frame that waits only for a record lost at selvedge time 0, at selvedge time t. -/
def lostFrame : Frame := ⟨0, [], [], [], none, 0, false, false, false, some 0⟩
def lostAt (t : Nat) : State := setPairSt ((paired (recordOf 1 0)).wrQ Reg.selvTime 2 t) 0 { PairSt.idle with frames := [lostFrame] }
/-- Monitor 0 watches queues 5 and 6 of partition 0. -/
def monitored (t : Nat) : State :=
  let s := run.wrQ Reg.selvTime 2 t
  { s with selv := { s.selv with safety := some { safe0 with dms := [⟨1, 0, 5, 6, 0, 100, 0⟩] }, startDue := [(0, 1)], endDue := [(0, 1)], starts := [(0, [0])] } }.putB (Reg.selvDm 0) 0 true
theorem witness_timers : (let s := frameAt 101
     s.Kept ∧ s.selvUp = true ∧ ((pairSt s 0).frames.find? (fun f => overdue s pair0 f || stranded s pair0 f)).any (overdue s pair0) = true ∧
     s.bit Reg.selvStatus 1 = false ∧ (pairsOf s)[0]? = some pair0) ∧
    (let s := lostAt 101
     s.selvUp = true ∧ (pairsOf s)[0]? = some pair0 ∧ (pairSt s 0).frames.find? (fun f => overdue s pair0 f || stranded s pair0 f) = some lostFrame ∧
     overdue s pair0 lostFrame = false) ∧
    ([frameAt 100, lostAt 100].all fun s => (pairSt s 0).frames.all fun f => !overdue s pair0 f && !stranded s pair0 f) = true ∧
    (pairSt (frameAt 101) 0).seedStarts.head? = some 0 ∧ pair0.seedDeadline < selvTime (frameAt 101) - 0 ∧ selvTime (frameAt 100) - 0 ≤ pair0.seedDeadline ∧
    (⟨0x11, 0, []⟩ : SelvEv).cause < 64 ∧
    (let f := { safe0 with seedImage := [zeros 60] }
     let s := { run with selv := { run.selv with safety := some f, seedDue := true } }
     s.selvUp = true ∧ s.cclk = true ∧ s.selv.safety = some f ∧ s.selv.seedDue = true ∧ pairsOf s = []) ∧
    (let s := { run with selv := { run.selv with seedFrames := [zeros 60] } }
     s.cclk = true ∧ fifoHeld s 8 + ((zeros 60).length + 4) ≤ fifoSize ∧ deliveries s ⟨s.intake.nextId, 8, zeros 60, (zeros 60).length + 4, nowStamp s⟩ = []) ∧
    fifoSize < fifoHeld run 8 + ((zeros (fifoSize + 1)).length + 4) := by decide +kernel
theorem witness_monitors : (let s := monitored 101
     s.Kept ∧ s.selvUp = true ∧ monitor s 0 = some ⟨1, 0, 5, 6, 0, 100, 0⟩ ∧ mayArm s ⟨1, 0, 5, 6, 0, 100, 0⟩ = true ∧ Tab.get (fun _ => 0) s.selv.startDue 0 = 0 + 1 ∧
     Tab.get (fun _ => 0) s.selv.endDue 0 = 0 + 1 ∧ (startsOf s 0).length < 15 ∧ s.wf = true ∧ startsOf s 0 = [0] ∧ 100 < selvTime s - 0 ∧
     s.bit (Reg.selvDm 0) 0 = true ∧ (s.putB (Reg.selvDm 0) 0 false).bit (Reg.selvDm 0) 0 = false ∧ startsOf (setStarts 0 [] s) 0 = [] ∧
     (⟨1, 0, 5, 6, 0, 100, 0⟩ : Monitor).minUs ≤ selvTime s - 0 ∧ selvTime s - 0 < (⟨1, 0, 5, 6, 0, 200, 102⟩ : Monitor).minUs) ∧
    selvTime (monitored 100) - 0 ≤ 100 := by decide +kernel

/-! ### Host memory windows, management, holds and debug -/

theorem witness_windows : run.Kept ∧ run.wf = true ∧ hostReach run = true ∧ run.inHold = false ∧ hostOpen run = true ∧ hostTakes .held run = true ∧ run.loader = .idle ∧
    tlpFits 0 8 = true ∧ tlpFits 4088 8 = true ∧ run.clk = .running ∧ run.host.waiting = [] ∧
    (let s : State := { run with loader := .checking }; s.wf = true ∧ hostReach s = true ∧ hostOpen s = true ∧ s.loader ≠ .idle) ∧
    ([192, 255].all fun g => decide (192 ≤ (run.wrN (Reg.hostBar2Page 0) g).fld (Reg.hostBar2Page 0) 0 8) && (run.wrN (Reg.hostBar2Page 0) g).wf) = true ∧
    (run.wrN (Reg.hostBar2Page 0) 191).fld (Reg.hostBar2Page 0) 0 8 < 192 ∧ chanWaits (chanIn 0 [] [] []) (.host 0) 0 8 = false ∧ hostOpen (chanIn 0 [] [] []) = true ∧
    chanWaits (chanIn 1 [] [buCmd 1] []) (.host (256 * 48 * 191)) (256 * 48 * 191) 8 = false ∧ chanWaits (chanIn 2 [] [] []) (.host 0) 0 8 = true ∧
    hostReach (chanIn 2 [] [] []) = true ∧ postedWaits run = false ∧ (let s : State := { run with clk := .stopped }; hostReach s = true ∧ s.clk ≠ .running) := by decide +kernel
theorem witness_windowWrites : writeOutside run .host 0 8 = none ∧ drainingStore run (onDieBase + 0) 8 = false ∧ writeOutside run .host (onDieBase + 0) 8 = none ∧
    (let s := (filled 5 1 (withQ 5 1 1 1 run)).wrQ (Reg.queueBase 5) 2 0; hostOpen s = true ∧ (writeOutside s .host 0 8).isSome = true) ∧
    (let s := filled 5 1 (withQ 5 1 1 1 run); drainingStore s sharedBase 8 = false ∧ (writeOutside s .host sharedBase 8).isSome = true) ∧
    drainingStore (core0.putF (Reg.coreStatus 0) 0 2 2) (onDieBase + 0) 8 = true ∧
    (let s := { run with host := { run.host with waiting := [(8, .write [1])] } }; postedWaits s = true ∧ hostReach s = true) ∧
    (let s := { run with host := { run.host with waiting := [(8, .write [1]), (0, .read 8)] } }
     s.wf = true ∧ hostReach s = true ∧ s.host.waiting = [(8, .write [1])] ++ (0, .read 8) :: [] ∧ ∀ e ∈ [((8 : Nat), Access.write [1])], accWrites e.2 = true) ∧
    (256 : W32).toNat = 256 ∧ (255 : W32).toNat < 256 ∧
    (let s := ({ run with host := { run.host with busMaster := true, msixEn := true } } : State).putB (Reg.msixPba 0) 0 true
     s.wf = true ∧ s.bit (Reg.msixPba 0) 0 = true ∧ State.msixHeld (s.putB (Reg.msixTable 0 + 12) 0 false) 0 = false ∧ run.bit (Reg.msixPba 0) 0 = false ∧ run.msixHeld 0 = true) := by
  decide +kernel

/-- The I2C target in a phase, with n bytes taken. -/
def i2cAt (p : I2cPhase) (ptr : Nat) (buf : Tab (Option Byte)) (n : Nat) : State := { run with i2c := ⟨true, p, ptr, buf, n, 0, true⟩ }
theorem witness_i2c : run.Kept ∧ State.reset.Kept ∧ hostTakes .held run = true ∧ ([I2cPhase.idle, .address, .pointer none, .pointer (some 2), .write, .read, .ignored].all fun p =>
      let s := i2cAt p 0x200 [] 64; s.wf && s.up && s.i2c.ready && s.i2c.phase == p) = true ∧
    (let b := BitVec.ofNat 8 (2 * (0x58 + run.pins.addr.toNat)); b.toNat = 2 * (0x58 + run.pins.addr.toNat)) ∧
    (i2cAt .write 0x200 [] 63).i2c.count < 64 ∧ (i2cAt .read 0x201 [] 0).i2c.ptr % 4 ≠ 0 ∧ { (i2cAt .read 0x201 [] 0).i2c with fresh := false }.fresh = false ∧
    (i2cAt .write 0x204 [(0x200, some 1), (0x201, some 2), (0x202, some 3), (0x203, some 4)] 4).wf = true ∧
    (i2cAt .write 0x203 [(0x200, some 1), (0x201, some 2), (0x202, some 3)] 3).wf = true ∧
    (let s := i2cAt .write 0x144 [(0x140, some 0xFF), (0x141, some 0xFF), (0x142, some 0xFF), (0x143, some 0xFF)] 4
     s.wf = true ∧ (i2cComplete s.i2c).any (fun e => mgmtReserved e.1 e.2) = true) ∧
    run.bit Reg.hostCfg 1 = false ∧ ((run.putB Reg.hostCfg 1 true).bit Reg.hostCfg 1 = true ∧ (run.putB Reg.hostCfg 1 true).wf = true) ∧
    State.reset.i2c.ready = false ∧ State.reset.up = true ∧ State.reset.wf = true ∧ hostReach run = true := by decide +kernel

/-- The part in a hold that began at stage 3. -/
def holdIn (p : HoldPhase) (ended : Bool) : State := { run with hold := { run.hold with phase := p, stage := 3, ended := ended, again := false } }
theorem witness_holds : run.Kept ∧ (holdIn .ready false).Kept ∧ run.wf = true ∧ run.tclk = true ∧ run.hold.phase = .none ∧ run.loader = .idle ∧ (∀ c : Fin 48, (chan run c).accq = []) ∧
    ({ run with loader := .checking } : State).loader ≠ .idle ∧ (holdIn .entering false).hold.phase = .entering ∧ (holdIn .entering true).hold.ended = true ∧
    (∀ c : Fin 48, (chan (holdIn .entering false) c).running = []) ∧ (holdIn .entering false).wf = true ∧ (holdIn .entering false).tclk = true ∧
    (let s := setChan (holdIn .entering false) 0 { Chan.idle with running := [buCmd 1] }; s.wf = true ∧ s.hold.phase = .entering ∧ (chan s 0).running ≠ []) ∧
    (holdIn .ready false).hold.phase = .ready ∧ (holdIn .resuming false).hold.phase = .resuming ∧ (holdIn .resuming false).hold.again = false ∧
    (holdIn .resuming false).hold.stage < 16 ∧ (holdIn .resuming false).wf = true ∧ (holdIn .resuming false).tclk = true := by decide +kernel

theorem witness_trace : run.Kept ∧ core0.Kept ∧ run.wf = true ∧ hostOpen run = true ∧ run.bit Reg.traceCtrl 0 = false ∧ (3 : W32).toNat < 4 ∧ (8 : W32).toNat = 8 ∧
    (let s := run.putB Reg.traceCtrl 0 true; s.wf = true ∧ hostOpen s = true ∧ s.bit Reg.traceCtrl 0 = true) ∧ traced run 32 = false ∧
    (let s := (run.putB Reg.traceCtrl 0 true).putB Reg.traceSrcSys 0 true; s.wf = true ∧ hostOpen s = true ∧ traced s 32 = true ∧ ringFull s = false ∧ Tab.get (fun _ => 0) s.trace.lost 32 = 0) ∧
    (let s := ((core0.putB Reg.traceCtrl 0 true).putB Reg.traceSrcEn 0 true).putF Reg.traceSync 0 5 10
     s.wf = true ∧ s.cclk = true ∧ s.fld Reg.traceSync 0 5 ≠ 0 ∧ coreState s 0 = 1 ∧ corePower s 0 = 0 ∧ coreStopped s 0 = false ∧ traced s 0 = true ∧ Tab.get (fun _ => 0) s.trace.dropped 0 = 0) := by decide +kernel
theorem witness_freezes : run.Kept ∧ run.wf = true ∧ hostOpen run = true ∧ run.tclk = true ∧ run.frz.req = 0 ∧ (0x46530001 : W32).toNat / 65536 ≠ 0x4652 ∧
    (let s := { run with frz := { run.frz with req := 3 } }; s.wf = true ∧ s.tclk = true ∧ s.frz.req ≠ 0 ∧ s.selv.running = true) ∧
    ({ run with pins := { run.pins with coldN := false } } : State).tclk = false := by decide +kernel
theorem witness_tap : run.Kept ∧ run.pins.coldN = true ∧ run.frz.frozen = false ∧ ({ run with pins := { run.pins with coldN := false } } : State).pins.coldN = false ∧
    ({ run with frz := { run.frz with frozen := true }, tap := { run.tap with sel := 2 } } : State).tap.sel = 2#68 := by decide +kernel

/-! ### Well-formed commands: for each check a term it refuses, and one it lets pass -/

theorem smoke_bar0 : Instr.wf (.bar0Write 4 .b32 0 false) = true ∧ Instr.wf (.bar0Write 2 .b32 0 false) = false ∧
    Instr.wf (.bar0Write 4 .b64 0 false) = false ∧ Instr.wf (.bar0Write 4 .other 0 false) = false ∧ Instr.wf (.bar0MultiwordRead 8 .b64) = true ∧
    Instr.wf (.bar0MultiwordRead 4 .b64) = false ∧ Instr.wf (.bar0MultiwordRead 0 .other) = false := by decide +kernel
/-- A whole part. -/
def wholePart : BistResult := ⟨false, [], [], 0, 0, 25, List.replicate 12 25⟩
/-- Array A0 of core 0 with one failed column. -/
def oneColumn : BistArray := ⟨0, 0, 1, 0, false, false, false⟩
theorem smoke_bist : Instr.wf (.bistComplete wholePart) = true ∧ Instr.wf (.bistComplete { wholePart with memTemp := [25] }) = false ∧
    Instr.wf (.bistComplete { wholePart with arrays := [oneColumn, oneColumn] }) = false := by decide +kernel
theorem smoke_frames : Instr.wf (.ethFrameReceive 0 [] true false 0) = false ∧ Instr.wf (.ethFrameReceive 0 [1] true false 0) = true ∧
    Instr.wf (.edgeInputEdge [edgeOf 0 true, edgeOf 1 true]) = true ∧ Instr.wf (.edgeInputEdge [edgeOf 0 true, edgeOf 0 false]) = false ∧
    Instr.wf (.dmaComplete 0 15) = true ∧ Instr.wf (.dmaComplete 0 16) = false ∧ Instr.wf (.memoryAccess .chain 0 (.read 1)) = true ∧
    Instr.wf (.memoryAccess .chain 0 (.read 0)) = false ∧ Instr.wf (.memoryAccess .chain 0 (.write [])) = false := by decide +kernel
theorem smoke_messages : Instr.wf (.embSub (embSubMsg 0)) = true ∧ Instr.wf (.embSub { embSubMsg 0 with recs := [] }) = false ∧
    Instr.wf (.embSub { embSubMsg 0 with recs := List.replicate 257 ⟨0, 0, 0, 0⟩ }) = false ∧ Instr.wf (.embSub { embSubMsg 0 with grad := some [0] }) = false ∧
    Instr.wf (.embPart (embPartMsg 0)) = true ∧ Instr.wf (.embPart { embPartMsg 0 with vals := [] }) = false ∧
    Instr.wf (.flitReceive 0 (flit 0 true false)) = true ∧ Instr.wf (.flitReceive 0 { flit 0 true false with body := zeros 225 }) = false := by decide +kernel
theorem smoke_requests : Instr.wf (.bar2Read 0 0) = false ∧ Instr.wf (.bar2Read 4095 1) = true ∧ Instr.wf (.bar2Read 4095 2) = false ∧
    Instr.wf (.bar2Write 4095 [1, 2] false) = false ∧ Instr.wf (.bar2Write 0 [1] false) = true ∧ Instr.wf (.bar4Read 4095 2) = false ∧
    Instr.wf (.bar4Write 0 [] false) = false := by decide +kernel

/-! ### Results worked out in the specification's examples, or by hand from its rules -/

/-- R41's check value. -/
theorem test_crc32 : crc32 [0x31, 0x32, 0x33, 0x34, 0x35, 0x36, 0x37, 0x38, 0x39] = 0xCBF43926 := by decide +kernel
/-- 12's example: the channel and local address of 0x1234_5678, and back. -/
theorem test_interleave : chanOf base 0x12345678 = (27, 0x611778) ∧ chanInv base 27 0x611778 = 0x12345678 := by decide +kernel
/-- 12's example: bank 4 and bank 5 of CH40, row 98,304, in the linear region. -/
theorem test_linear : (let s := { base with warp := { Warp.empty with lin := [(0x2400000000, 0x40000000)] } }
     granAddr s 40 4 98304 0 = 0x2E00000400 ∧ granAddr s 40 5 98304 0 = 0x2E00000500 ∧ chanOf s 0x2E00000400 = (40, 0xC0000400)) := by decide +kernel
/-- 12's example: the fields of the MADD for U2. -/
theorem test_madd_fields : (let o := buOp (BitVec.ofNat 256 (0x0000A11F017F7204 + 2 ^ 64 * 0x0000000000118000 + 2 ^ 128 * 0x0001800000018000))
     o.op = 4 ∧ o.unit = 2 ∧ o.type = 7 ∧ o.n = 128 ∧ o.bs = true ∧ o.s = 0xA11F ∧ opRow o.a = 98304 ∧ opHalf o.a = 1 ∧ opRow o.d = 98304 ∧ opHalf o.d = 0 ∧
     opCol o.c = 0) ∧ buBad (BitVec.ofNat 256 (0x0000A11F017F7204 + 2 ^ 64 * 0x0000000000118000 + 2 ^ 128 * 0x0001800000018000)) = false := by decide +kernel
/-- 05's example: the address of slot 2,405 of Q8. -/
theorem test_slot : qSlot (((run.wrN (Reg.queueCfg 8) (4 + 2 ^ 8 * 4)).wrQ (Reg.queueBase 8) 2 0x100000BFF000)) 8 2405 = 0x100000BFF0A0 := by decide +kernel
/-- 06's example: word L. -/
def wordL : IWord := BitVec.ofNat 512 (1 + 2 ^ 16 * 0x0080C601 + 2 ^ 80 * 0x880025011 + 2 ^ 144 * 0x09088810 + 2 ^ 336 * 0x800200C00008 + 2 ^ 400 * 0x20C3 + 2 ^ 464)
theorem test_word : wordOps wordL = [1, 0x11, 0x10, 0, 8, 3] ∧ scaF wordL 8 5 = 6 ∧ scaF wordL 13 5 = 6 ∧ scaF wordL 23 1 = 1 ∧ immS wordL = 1 ∧
    vFmt wordL = 2 ∧ vVd wordL = 2 ∧ vVa wordL = 1 ∧ vVb wordL = 9 ∧ tqRs wordL = 6 ∧ tqArr wordL = 0 ∧ tqVd wordL = 1 ∧ tqF wordL 47 1 = 1 ∧
    brF wordL 5 5 = 6 ∧ brF wordL 10 5 = 8 ∧ brOffset wordL = 0 ∧ natLe 8 (wordL.toNat % 2 ^ 64) = [1, 0, 1, 0xC6, 0x80, 0, 0, 0] ∧
    (adrEa wordL { CoreSt.start with s := [(10, 4096)] }).1 = 4096 ∧ issues core1 0 (setWf wordL 80 64 0) = false := by decide +kernel
/-- 09's example: the VEC field of W1 packs two INT32 registers by a shift of 6. -/
def wordW1 : IWord := BitVec.ofNat 512 (1 + 2 ^ 144 * 0x14800003128464 + 2 ^ 464 * 6)
theorem test_pack : vecOp wordW1 = 0x64 ∧ vFmt wordW1 = 1 ∧ vVd wordW1 = 10 ∧
    (let c : CoreSt := { CoreSt.start with v := [(2, BitVec.ofNat 4096 (1000 * 2 ^ 224)), (3, BitVec.ofNat 4096 (1056 * 2 ^ 224))] }
     let d : CoreSt := { CoreSt.start with v := [(2, BitVec.ofNat 4096 (4294966176 * 2 ^ 224)), (3, BitVec.ofNat 4096 (200000 * 2 ^ 224))] }
     let two (x : CoreSt) : List Nat := (vecPack wordW1 x).1.v.flatMap fun e => [fieldN e.2.toNat 112 16, fieldN e.2.toNat (112 + 2048) 16]
     two c = [16, 16] ∧ two d = [65518, 3125] ∧ (vecPack wordW1 d).2.sat = false ∧
     (narrow (setWf (setWf (setWf wordW1 154 4 0) 195 4 1) 464 48 0) c 3125) = (127, ⟨true, false, false, false⟩) ∧
     (narrow (setWf (setWf (setWf wordW1 154 4 0) 195 4 1) 464 48 0) c 65518).1 = 0xEE) := by decide +kernel
/-- 09's example: a gather of FP32 lanes 64 bytes apart in K12's store needs 4 granules of each bank, 3 CCLK beyond the first. -/
theorem test_gather_wait : (let w := withVec 0x90 (word [(154, 4, 9), (163, 5, 1), (183, 5, 1), (195, 13, 1)])
     let ix : VReg := BitVec.ofNat 4096 (leNat ((List.range 128).flatMap fun k => natLe 4 (16 * k)))
     let c : CoreSt := { CoreSt.start with s := [(1, 0x100009100000)], v := [(1, ix)] }
     gatherLanes w c = (List.range 128).map (fun k => (k, 0x100009100000 + 64 * k)) ∧ gatherWait w c = 3) := by decide +kernel
/-- 17's example: the header word of K0's DOZE packet. -/
theorem test_trace_header : (let s := { run with trace := { run.trace with seqs := [(0, 41206)] } }
     let t : TimeBase := ⟨1846203117, 250500000, 0⟩
     (packetBits (s.putB Reg.timeStatus 0 true) 0 3 t 0x100000001C40).toNat % 2 ^ 32 = 0x0507B003 ∧
     (packetBits s 0 3 t 0x100000001C40).toNat / 2 ^ 80 = 0x100000001C40 ∧ (packetBits s 0 3 t 0).toNat / 2 ^ 62 % 2 ^ 18 = 185069) := by decide +kernel
/-- 13's example: the directory entry, and the terms and partials of element 0 in chip order. -/
theorem test_pooling :
    (let d := (dirRead .host embT 0 0 ((embIn []).putBytes 0x1000 (natLe 8 0x508705))).1; d.tier = 1 ∧ d.chip = 1 ∧ d.slot = 20615) ∧
    rowElem embT 0 (natLe 2 0x3E00) 0 = 0x3FC00000 ∧ rowElem embT 1 [0x3A] 0 = 0x3FA00000 ∧
    rowElem embT 2 (natLe 4 0x3E000000 ++ [0xD]) 0 = 0xBEC00000 ∧
    (pooled 2 { embJob 6 with dim := 1, terms := [⟨0, 0, 0, 0x3F000000, .val [0x3FC00000]⟩], partials := [(0, [0xBDC00000]), (1, [0x3EA00000])] }) = [0x3F780000] := by decide +kernel
/-- 08's example: the squared distance of (10, −4, 2) and (14, 1, 2) in INT8. -/
theorem test_distance : cell 0 2 false (cell 0 2 false (cell 0 2 true 7 10 0 14 0) 0xFC 0 1 0) 2 0 2 0 = 41 := by decide +kernel
/-- 15's example: class 3 with abs_tol 0.002: 5.2140 agrees with 5.2158 and not with 5.2210. -/
theorem test_tolerance : valueOk (some ⟨3, false, 0x3B03126F, 0, 0⟩) 0 0x40A6D917 0x40A6E7D5 = true ∧
    valueOk (some ⟨3, false, 0x3B03126F, 0, 0⟩) 0 0x40A6D917 0x40A7126F = false := by decide +kernel
/-- 14's example: the flits of a bolt of 8,272 bytes. -/
theorem test_flits : flitsOf 8272 = 37 := by decide +kernel
/-- 16's example: MGMT_SCRATCH0 over I2C. -/
theorem test_scratch : nextHas (exec (.i2cStop false) (i2cAt .write 0x204 [(0x200, some 0x78), (0x201, some 0x56), (0x202, some 0x34), (0x203, some 0x12)] 4))
    (fun t => t.rd (Reg.mgmtScratch 0) == 0x12345678) = true ∧
    nextHas (exec (.i2cStop true) (i2cAt .write 0x202 [(0x200, some 0x78), (0x201, some 0x56)] 2)) (fun t => t.rd (Reg.mgmtScratch 0) == 0) = true := by decide +kernel
/-- 03's example: PK0 reads 1,203,417 when it loads 0; an armed doorbell that follows the reference moves to target 383. -/
def atPost : State :=
  setEvent (((setPkCount (run.putF (Reg.posPkCfg 0) 0 3 3) 0 1203417).wrN (Reg.posEvCfg 16) (1 + 2 ^ 5 + 2 ^ 8)).putB (Reg.posEvStatus 16) 0 true) 16
    { Event.idle with target := 1203800 }
theorem test_reference : nextHas (exec (.loadNow 0) atPost) (fun t => pkCount t 0 == 0 && t.rdQ (Reg.posPkRefDelta 0) 2 == 1203417 &&
    (eventOf t 16).target == 383 && !t.bit (Reg.posPkStatus 0) 2) = true := by decide +kernel
/-- 04's example: the point at q = (0, −0.750, 0.018), t = r − 7,500 ns, of the buffer opened at count 1,159. -/
def grid0 : Grid :=
  ⟨0, 0, some 0, [0x3CA3D70A, 0x3CA3D70A, 0x3CA3D70A], [0xBF23D70A, 0xC023D70A, 0xBF800000], [0x3F800000, 0, 0], 0x3B28D21C, [3, 4, 1], 0xFFFF, sharedBase, sharedBase + 0x1000000,
    12, 2048, 131072, 196608, { GridBuf.ready with st := .open, popen := 1159, origin := [0xBF23D70A, 0xC023D70A, 0xBF800000], pickLen := 0x3B28D21C }, GridBuf.ready, 0⟩
/-- The stamp of `n` ns in second 10. -/
def stamp10 (n : Nat) : TStamp := BitVec.ofNat 128 (2 ^ 32 * n + 2 ^ 64 * 10)
def frame04 : PointFrame := ⟨0, 0, 0, 0, 0, some 0, stamp10 500000, [], 0, 1512, 1, stamp10 470000, stamp10 412000, 2⟩
def template04 : Template := ⟨zeros 0x18 ++ natLe 4 20000 ++ zeros (1216 - 28)⟩
theorem test_point : ((placePoint grid0 0 frame04 template04 ⟨0, 0xBF400000, 0x3C9374BC, 0, 0x46435000, 0, 0x40000000⟩).map fun v => voxKey v.vox) = some 0x0000C8000B40004D ∧
    voxBlock grid0 [77, 90, 50] = 4 ∧ voxBrick [77, 90, 50] = 1 + 8 * 3 + 64 * 6 ∧ voxVoxel [77, 90, 50] = 5 + 8 * 2 + 64 * 2 := by decide +kernel
/-- 04's example: range 2 m at azimuth 90° and elevation −60° gives y = 1.000 and z = −1.732. -/
theorem test_trig : (((FVal.ofInt 2).mul ((f32 0xBF860A92).cos.mul (f32 0x3FC90FD9).sin)).dist (f32 0x3F800000)).lt (f32 0x35800000) = true ∧
    (((FVal.ofInt 2).mul (f32 0xBF860A92).sin).dist (f32 0xBFDDB3D7)).lt (f32 0x35800000) = true := by decide +kernel

/-- By hand: S1 = 2^64 − 1 plus 1 wraps to 0; −1 × −1 high is 0; −8 shifted right by 1 is −4; a write to S0 is lost. -/
def sca (op sd : Nat) (imm : Nat) : IWord := withSca op (word [(0, 4, 1), (24, 5, sd), (29, 5, 1), (39, 1, 1), (464, 48, imm)])
def coreS (v : W64) : State := setCore core0 0 ((core core0 0).setS 1 v)
theorem test_scalar : nextHas (exec (.add 0 (sca 1 2 1)) (coreS 0xFFFFFFFFFFFFFFFF)) (fun t => (core t 0).sreg 2 == 0) = true ∧
    nextHas (exec (.mulhs 0 (sca 0xB 2 0xFFFFFFFFFFFF)) (coreS 0xFFFFFFFFFFFFFFFF)) (fun t => (core t 0).sreg 2 == 0) = true ∧
    nextHas (exec (.sra 0 (sca 8 2 1)) (coreS 0xFFFFFFFFFFFFFFF8)) (fun t => (core t 0).sreg 2 == 0xFFFFFFFFFFFFFFFC) = true ∧
    nextHas (exec (.movhi 0 (sca 0x21 2 0x1234)) (coreS 0xABCD5678)) (fun t => (core t 0).sreg 2 == 0x12345678) = true ∧
    nextHas (exec (.add 0 (sca 1 0 1)) (coreS 5)) (fun t => (core t 0).sreg 0 == 0) = true := by decide +kernel
/-- By hand: LDS8 of 0x80 is −128; ST16 puts the low byte first; a load that starts at the last byte of a word is misaligned. -/
theorem test_memory : (let s := core1.putBytes (localBase 0 + 1024) [0x80]
     nextHas (exec (.lds8 0 (withAdr 5 (word [(0, 4, 1), (86, 5, 2), (91, 5, 1)]))) s) (fun t => (core t 0).sreg 2 == 0xFFFFFFFFFFFFFF80)) = true ∧
    (let s := setCore core1 0 ((core core1 0).setS 2 0x1234)
     nextHas (exec (.st16 0 (withAdr 9 (word [(0, 4, 1), (91, 5, 1), (96, 5, 2)]))) s) (fun t => t.bytes (localBase 0 + 1024) 2 == [0x34, 0x12])) = true := by decide +kernel
/-- By hand: in FP32, 1 + 2^-24 is a tie and goes to the even 1; the maximum doubled overflows to +∞. -/
theorem test_rounding : fAdd 0x3F800000 0x33800000 = 0x3F800000 ∧ fAdd 0x3F800001 0x33800000 = 0x3F800002 ∧ fMul 0x7F7FFFFF 0x40000000 = 0x7F800000 ∧
    (fp16.round 0 false (f32 0x477FF000)).1 = 0x7C00 := by decide +kernel

end Sys2Proof.Machine.Tests
end

section
/-! SUPPORT. What every command and every step keeps: the queue, the canonical form, and the parts of the state that the command may
not change. -/

namespace Sys2Proof.Machine

/-- The bit of a part in a mask of `Within`. -/
def Part.bitNo : Part → Nat
  | .powered => 0 | .pins => 1 | .clk => 2 | .regs => 3 | .shadows => 4 | .mem => 5 | .memGen => 6 | .health => 7 | .loader => 8
  | .warp => 9 | .pos => 10 | .slots => 11 | .intake => 12 | .cores => 13 | .chans => 14 | .emb => 15 | .chain => 16 | .selv => 17
  | .host => 18 | .i2c => 19 | .hold => 20 | .trace => 21 | .frz => 22 | .tap => 23 | .out => 24 | .resp => 25 | .freeCtr => 26
  | .contract => 27

/-- The mask of some parts. -/
def partsMask : List Part → Nat
  | [] => 0
  | p :: l => Nat.lor (2 ^ p.bitNo) (partsMask l)

theorem Part.bitNo_eq_ctorIdx (p : Part) : p.bitNo = p.ctorIdx := by cases p <;> rfl

theorem Part.bitNo_injective {p q : Part} (h : p.bitNo = q.bitNo) : p = q := by
  rw [Part.bitNo_eq_ctorIdx, Part.bitNo_eq_ctorIdx] at h
  rw [← Part.ofNat_ctorIdx p, h, Part.ofNat_ctorIdx]

theorem testBit_partsMask {p : Part} {l : List Part} (h : p ∉ l) : (partsMask l).testBit p.bitNo = false := by
  induction l with
  | nil => exact Nat.zero_testBit _
  | cons q l ih =>
    obtain ⟨hq, hl⟩ := List.ne_and_not_mem_of_not_mem_cons h
    have e : (2 ^ q.bitNo ||| partsMask l).testBit p.bitNo = false := by
      rw [Nat.testBit_or, ih hl, Bool.or_false, Nat.testBit_two_pow]
      exact decide_eq_false fun hb => hq (Part.bitNo_injective hb.symm)
    exact e

/-- A change leaves the parts outside its mask as they were. -/
theorem Within.same {M : Nat} {s t : State} (h : Within M s t) : ∀ p : Part, M.testBit p.bitNo = false → p.same s t
  | .powered => h.powered | .pins => h.pins | .clk => h.clk | .regs => h.regs | .shadows => h.shadows | .mem => h.mem
  | .memGen => h.memGen | .health => h.health | .loader => h.loader | .warp => h.warp | .pos => h.pos | .slots => h.slots
  | .intake => h.intake | .cores => h.cores | .chans => h.chans | .emb => h.emb | .chain => h.chain | .selv => h.selv
  | .host => h.host | .i2c => h.i2c | .hold => h.hold | .trace => h.trace | .frz => h.frz | .tap => h.tap | .out => h.out
  | .resp => h.resp | .freeCtr => h.freeCtr | .contract => h.contract

/-! ### The commands -/

/-- A row of the table that is an operation of the word issues the word with its opcode (R194). -/
theorem exec_wordOf {c : Instr} {k : CoreId} {w : IWord} (h : wordOf c = some (k, w)) (s : State) :
    exec c s = inContract (issueWord k w) s := by
  cases c <;> simp only [wordOf, Option.some.injEq, Prod.mk.injEq, reduceCtorEq] at h <;> obtain ⟨rfl, rfl⟩ := h <;> rfl

/-- The command is a meaning under the contract of the fabric, and its meaning stays within the parts that the command may change. -/
def StaysWithin (c : Instr) : Prop :=
  ∃ (sel : State → State) (f : State → Res State) (N : Nat), (∀ s, exec c s = inContractWith sel f s) ∧
    (∀ s, WithinR (partsMask (touches c)) s (f s)) ∧ ∀ s, Within N s (sel s)

theorem StaysWithin.of_inContractWith {c : Instr} {sel : State → State} {f : State → Res State} {N M : Nat}
    (he : ∀ s, exec c s = inContractWith sel f s) (hf : ∀ s, WithinR M s (f s)) (hs : ∀ s, Within N s (sel s))
    (hM : Nat.land M (partsMask (touches c)) = M := by dsimp only [touches]; decide) : StaysWithin c :=
  ⟨sel, f, N, he, fun s => WithinR.step (hf s) hM (Within.refl _ _), hs⟩

theorem StaysWithin.of_inContract {c : Instr} {f : State → Res State} {M : Nat} (he : ∀ s, exec c s = inContract f s)
    (hf : ∀ s, WithinR M s (f s)) (hM : Nat.land M (partsMask (touches c)) = M := by dsimp only [touches]; decide) : StaysWithin c :=
  .of_inContractWith he hf (Within.refl 0) hM

/-- The commands of the table, each by the mask of its meaning; the rest of the rows are operations of the word. -/
theorem staysWithin (c : Instr) : StaysWithin c := by
  cases c with
  | bar0Write _ _ _ _ => exact .of_inContract (fun _ => exec_bar0Write) (fun _ => execBar0Write_within)
  | bar0MultiwordRead _ _ => exact .of_inContract (fun _ => exec_bar0MultiwordRead) (fun _ => execBar0MultiwordRead_within)
  | coldNAssert => exact .of_inContract (fun _ => exec_coldNAssert) (fun _ => execColdNAssert_within)
  | coldNRelease => exact .of_inContract (fun _ => exec_coldNRelease) (fun _ => execColdNRelease_within)
  | perstNAssert => exact .of_inContract (fun _ => exec_perstNAssert) (fun _ => execPerstNAssert_within)
  | perstNRelease _ => exact .of_inContract (fun _ => exec_perstNRelease) (fun _ => execPerstNRelease_within)
  | i2cTargetReady => exact .of_inContract (fun _ => exec_i2cTargetReady) (fun _ => execI2cTargetReady_within)
  | bistComplete _ => exact .of_inContract (fun _ => exec_bistComplete) (fun _ => execBistComplete_within)
  | warpApply _ => exact .of_inContract (fun _ => exec_warpApply) (fun _ => execWarpApply_within)
  | warpCrcCheckDone => exact .of_inContract (fun _ => exec_warpCrcCheckDone) (fun _ => execWarpCrcCheckDone_within)
  | warpApplyDone => exact .of_inContractWith (fun _ => exec_warpApplyDone) (fun _ => execWarpApplyDone_within) (fun _ => safetyKept_within)
  | ptEnable _ => exact .of_inContract (fun _ => exec_ptEnable) (fun _ => execPtEnable_within)
  | ptDisable _ => exact .of_inContract (fun _ => exec_ptDisable) (fun _ => execPtDisable_within)
  | ptDrainComplete _ => exact .of_inContract (fun _ => exec_ptDrainComplete) (fun _ => execPtDrainComplete_within)
  | coreEnable _ => exact .of_inContract (fun _ => exec_coreEnable) (fun _ => execCoreEnable_within)
  | coreDisable _ => exact .of_inContract (fun _ => exec_coreDisable) (fun _ => execCoreDisable_within)
  | coreWakeCmd _ => exact .of_inContract (fun _ => exec_coreWakeCmd) (fun _ => execCoreWakeCmd_within)
  | coreDrainComplete _ => exact .of_inContract (fun _ => exec_coreDrainComplete) (fun _ => execCoreDrainComplete_within)
  | queueEnable _ => exact .of_inContract (fun _ => exec_queueEnable) (fun _ => execQueueEnable_within)
  | queueDisable _ => exact .of_inContract (fun _ => exec_queueDisable) (fun _ => execQueueDisable_within)
  | queueFlush _ => exact .of_inContract (fun _ => exec_queueFlush) (fun _ => execQueueFlush_within)
  | queueDrainComplete _ => exact .of_inContract (fun _ => exec_queueDrainComplete) (fun _ => execQueueDrainComplete_within)
  | queueDoorbell _ _ => exact .of_inContract (fun _ => exec_queueDoorbell) (fun _ => execQueueDoorbell_within)
  | queueRelease _ _ => exact .of_inContract (fun _ => exec_queueRelease) (fun _ => execQueueRelease_within)
  | queueIrqWrite _ _ => exact .of_inContract (fun _ => exec_queueIrqWrite) (fun _ => execQueueIrqWrite_within)
  | ethPortEnable _ => exact .of_inContract (fun _ => exec_ethPortEnable) (fun _ => execEthPortEnable_within)
  | ethPortDisable _ => exact .of_inContract (fun _ => exec_ethPortDisable) (fun _ => execEthPortDisable_within)
  | ethPortDrainComplete _ => exact .of_inContract (fun _ => exec_ethPortDrainComplete) (fun _ => execEthPortDrainComplete_within)
  | ethLinkChange _ _ => exact .of_inContract (fun _ => exec_ethLinkChange) (fun _ => execEthLinkChange_within)
  | sysclkLoss => exact .of_inContract (fun _ => exec_sysclkLoss) (fun _ => execSysclkLoss_within)
  | sysclkReturn => exact .of_inContract (fun _ => exec_sysclkReturn) (fun _ => execSysclkReturn_within)
  | pllRelock _ => exact .of_inContract (fun _ => exec_pllRelock) (fun _ => execPllRelock_within)
  | timeSet => exact .of_inContract (fun _ => exec_timeSet) (fun _ => execTimeSet_within)
  | timeSetDone => exact .of_inContract (fun _ => exec_timeSetDone) (fun _ => execTimeSetDone_within)
  | timeStep => exact .of_inContract (fun _ => exec_timeStep) (fun _ => execTimeStep_within)
  | timeStepDone => exact .of_inContract (fun _ => exec_timeStepDone) (fun _ => execTimeStepDone_within)
  | timeSnap => exact .of_inContract (fun _ => exec_timeSnap) (fun _ => execTimeSnap_within)
  | timeSnapDone => exact .of_inContract (fun _ => exec_timeSnapDone) (fun _ => execTimeSnapDone_within)
  | timeTrimWrite _ => exact .of_inContract (fun _ => exec_timeTrimWrite) (fun _ => execTimeTrimWrite_within)
  | timeBaseSecond => exact .of_inContract (fun _ => exec_timeBaseSecond) (fun _ => execTimeBaseSecond_within)
  | ppsOutPulseEnd => exact .of_inContract (fun _ => exec_ppsOutPulseEnd) (fun _ => execPpsOutPulseEnd_within)
  | ppsInEdge _ _ => exact .of_inContract (fun _ => exec_ppsInEdge) (fun _ => execPpsInEdge_within)
  | ppsLostTimeout => exact .of_inContract (fun _ => exec_ppsLostTimeout) (fun _ => execPpsLostTimeout_within)
  | edgeInputEdge _ => exact .of_inContract (fun _ => exec_edgeInputEdge) (fun _ => execEdgeInputEdge_within)
  | posEdgePop _ => exact .of_inContract (fun _ => exec_posEdgePop) (fun _ => execPosEdgePop_within)
  | pickStillTimeout _ => exact .of_inContract (fun _ => exec_pickStillTimeout) (fun _ => execPickStillTimeout_within)
  | posPkCfgWrite _ _ => exact .of_inContract (fun _ => exec_posPkCfgWrite) (fun _ => execPosPkCfgWrite_within)
  | loadNow _ => exact .of_inContract (fun _ => exec_loadNow) (fun _ => execLoadNow_within)
  | refArm _ => exact .of_inContract (fun _ => exec_refArm) (fun _ => execRefArm_within)
  | refDisarm _ => exact .of_inContract (fun _ => exec_refDisarm) (fun _ => execRefDisarm_within)
  | posEvArm _ => exact .of_inContract (fun _ => exec_posEvArm) (fun _ => execPosEvArm_within)
  | posEvDisarm _ => exact .of_inContract (fun _ => exec_posEvDisarm) (fun _ => execPosEvDisarm_within)
  | eventFire _ => exact .of_inContract (fun _ => exec_eventFire) (fun _ => execEventFire_within)
  | trigPulseEnd _ => exact .of_inContract (fun _ => exec_trigPulseEnd) (fun _ => execTrigPulseEnd_within)
  | positionDoorbell _ => exact .of_inContract (fun _ => exec_positionDoorbell) (fun _ => execPositionDoorbell_within)
  | ethFrameReceive _ _ _ _ _ => exact .of_inContract (fun _ => exec_ethFrameReceive) (fun _ => execEthFrameReceive_within)
  | pointInsertion => exact .of_inContract (fun _ => exec_pointInsertion) (fun _ => execPointInsertion_within)
  | imageBlockTimeout _ => exact .of_inContract (fun _ => exec_imageBlockTimeout) (fun _ => execImageBlockTimeout_within)
  | ethFrameTransmit _ _ => exact .of_inContract (fun _ => exec_ethFrameTransmit) (fun _ => execEthFrameTransmit_within)
  | ethTxtsPop _ => exact .of_inContract (fun _ => exec_ethTxtsPop) (fun _ => execEthTxtsPop_within)
  | intakeGridFlip _ => exact .of_inContract (fun _ => exec_intakeGridFlip) (fun _ => execIntakeGridFlip_within)
  | gridBufferClosed _ => exact .of_inContract (fun _ => exec_gridBufferClosed) (fun _ => execGridBufferClosed_within)
  | gridRelease _ => exact .of_inContract (fun _ => exec_gridRelease) (fun _ => execGridRelease_within)
  | gridClearDone _ => exact .of_inContract (fun _ => exec_gridClearDone) (fun _ => execGridClearDone_within)
  | dmaComplete _ _ => exact .of_inContract (fun _ => exec_dmaComplete) (fun _ => execDmaComplete_within)
  | arrayOpBegin _ => exact .of_inContract (fun _ => exec_arrayOpBegin) (fun _ => execArrayOpBegin_within)
  | arrayStep _ => exact .of_inContract (fun _ => exec_arrayStep) (fun _ => execArrayStep_within)
  | arrayOpComplete _ _ => exact .of_inContract (fun _ => exec_arrayOpComplete) (fun _ => execArrayOpComplete_within)
  | drainTransfer _ => exact .of_inContract (fun _ => exec_drainTransfer) (fun _ => execDrainTransfer_within)
  | tileComplete _ _ => exact .of_inContract (fun _ => exec_tileComplete) (fun _ => execTileComplete_within)
  | arrayGapLimitExpiry _ => exact .of_inContract (fun _ => exec_arrayGapLimitExpiry) (fun _ => execArrayGapLimitExpiry_within)
  | scatterRowIssue _ => exact .of_inContract (fun _ => exec_scatterRowIssue) (fun _ => execScatterRowIssue_within)
  | bankAdderRetire _ _ => exact .of_inContract (fun _ => exec_bankAdderRetire) (fun _ => execBankAdderRetire_within)
  | qresUnblock _ => exact .of_inContract (fun _ => exec_qresUnblock) (fun _ => execQresUnblock_within)
  | qacqUnblock _ => exact .of_inContract (fun _ => exec_qacqUnblock) (fun _ => execQacqUnblock_within)
  | idleDozeExpiry _ => exact .of_inContract (fun _ => exec_idleDozeExpiry) (fun _ => execIdleDozeExpiry_within)
  | lowPowerEntry _ => exact .of_inContract (fun _ => exec_lowPowerEntry) (fun _ => execLowPowerEntry_within)
  | lowPowerExitDone _ => exact .of_inContract (fun _ => exec_lowPowerExitDone) (fun _ => execLowPowerExitDone_within)
  | matchSparse _ => exact .of_inContract (fun _ => exec_matchSparse) (fun _ => execMatchSparse_within)
  | matchDense _ => exact .of_inContract (fun _ => exec_matchDense) (fun _ => execMatchDense_within)
  | nzmap _ => exact .of_inContract (fun _ => exec_nzmap) (fun _ => execNzmap_within)
  | sparseJobComplete _ => exact .of_inContract (fun _ => exec_sparseJobComplete) (fun _ => execSparseJobComplete_within)
  | memToMemory _ => exact .of_inContract (fun _ => exec_memToMemory) (fun _ => execMemToMemory_within)
  | memToProcessor _ => exact .of_inContract (fun _ => exec_memToProcessor) (fun _ => execMemToProcessor_within)
  | channelDrainComplete _ => exact .of_inContract (fun _ => exec_channelDrainComplete) (fun _ => execChannelDrainComplete_within)
  | memoryAccess _ _ _ => exact .of_inContract (fun _ => exec_memoryAccess) (fun _ => execMemoryAccess_within)
  | commandSubmit _ _ _ _ => exact .of_inContract (fun _ => exec_commandSubmit) (fun _ => execCommandSubmit_within)
  | commandAccept _ => exact .of_inContract (fun _ => exec_commandAccept) (fun _ => execCommandAccept_within)
  | bankUnitAdd _ => exact .of_inContract (fun _ => exec_bankUnitAdd) (fun _ => execBankUnitAdd_within)
  | bankUnitSub _ => exact .of_inContract (fun _ => exec_bankUnitSub) (fun _ => execBankUnitSub_within)
  | bankUnitMul _ => exact .of_inContract (fun _ => exec_bankUnitMul) (fun _ => execBankUnitMul_within)
  | madd _ => exact .of_inContract (fun _ => exec_madd) (fun _ => execMadd_within)
  | relu _ => exact .of_inContract (fun _ => exec_relu) (fun _ => execRelu_within)
  | bankUnitClamp _ => exact .of_inContract (fun _ => exec_bankUnitClamp) (fun _ => execBankUnitClamp_within)
  | lut _ => exact .of_inContract (fun _ => exec_lut) (fun _ => execLut_within)
  | bsadd _ => exact .of_inContract (fun _ => exec_bsadd) (fun _ => execBsadd_within)
  | bsmul _ => exact .of_inContract (fun _ => exec_bsmul) (fun _ => execBsmul_within)
  | moveBu _ => exact .of_inContract (fun _ => exec_moveBu) (fun _ => execMoveBu_within)
  | notify _ => exact .of_inContract (fun _ => exec_notify) (fun _ => execNotify_within)
  | bankUnitComplete _ _ => exact .of_inContract (fun _ => exec_bankUnitComplete) (fun _ => execBankUnitComplete_within)
  | memTempSample _ _ => exact .of_inContract (fun _ => exec_memTempSample) (fun _ => execMemTempSample_within)
  | embLookup _ => exact .of_inContract (fun _ => exec_embLookup) (fun _ => execEmbLookup_within)
  | embGrad _ => exact .of_inContract (fun _ => exec_embGrad) (fun _ => execEmbGrad_within)
  | embRequestComplete _ => exact .of_inContract (fun _ => exec_embRequestComplete) (fun _ => execEmbRequestComplete_within)
  | embSub _ => exact .of_inContract (fun _ => exec_embSub) (fun _ => execEmbSub_within)
  | embPart _ => exact .of_inContract (fun _ => exec_embPart) (fun _ => execEmbPart_within)
  | embRemoteTimeout _ => exact .of_inContract (fun _ => exec_embRemoteTimeout) (fun _ => execEmbRemoteTimeout_within)
  | embTabCurWrite _ _ => exact .of_inContract (fun _ => exec_embTabCurWrite) (fun _ => execEmbTabCurWrite_within)
  | embLoadWindowEnd => exact .of_inContract (fun _ => exec_embLoadWindowEnd) (fun _ => execEmbLoadWindowEnd_within)
  | embFence => exact .of_inContract (fun _ => exec_embFence) (fun _ => execEmbFence_within)
  | embMoveGo => exact .of_inContract (fun _ => exec_embMoveGo) (fun _ => execEmbMoveGo_within)
  | embMoveMessage _ => exact .of_inContract (fun _ => exec_embMoveMessage) (fun _ => execEmbMoveMessage_within)
  | moveAck _ _ _ => exact .of_inContract (fun _ => exec_moveAck) (fun _ => execMoveAck_within)
  | embMoveTimeout => exact .of_inContract (fun _ => exec_embMoveTimeout) (fun _ => execEmbMoveTimeout_within)
  | clearRedirects => exact .of_inContract (fun _ => exec_clearRedirects) (fun _ => execClearRedirects_within)
  | linkEnable _ => exact .of_inContract (fun _ => exec_linkEnable) (fun _ => execLinkEnable_within)
  | linkDisable _ => exact .of_inContract (fun _ => exec_linkDisable) (fun _ => execLinkDisable_within)
  | linkRetrain _ => exact .of_inContract (fun _ => exec_linkRetrain) (fun _ => execLinkRetrain_within)
  | linkDrainComplete _ => exact .of_inContract (fun _ => exec_linkDrainComplete) (fun _ => execLinkDrainComplete_within)
  | linkTrainPhaseDone _ _ => exact .of_inContract (fun _ => exec_linkTrainPhaseDone) (fun _ => execLinkTrainPhaseDone_within)
  | linkTrainTimeout _ => exact .of_inContract (fun _ => exec_linkTrainTimeout) (fun _ => execLinkTrainTimeout_within)
  | linkTrainRetry _ => exact .of_inContract (fun _ => exec_linkTrainRetry) (fun _ => execLinkTrainRetry_within)
  | peerRetry _ _ => exact .of_inContract (fun _ => exec_peerRetry) (fun _ => execPeerRetry_within)
  | linkSignalLoss _ => exact .of_inContract (fun _ => exec_linkSignalLoss) (fun _ => execLinkSignalLoss_within)
  | linkIdleTimeout _ => exact .of_inContract (fun _ => exec_linkIdleTimeout) (fun _ => execLinkIdleTimeout_within)
  | flitReceive _ _ => exact .of_inContract (fun _ => exec_flitReceive) (fun _ => execFlitReceive_within)
  | flitTransmit _ _ => exact .of_inContract (fun _ => exec_flitTransmit) (fun _ => execFlitTransmit_within)
  | replayTimeout _ => exact .of_inContract (fun _ => exec_replayTimeout) (fun _ => execReplayTimeout_within)
  | boltTransmit => exact .of_inContract (fun _ => exec_boltTransmit) (fun _ => execBoltTransmit_within)
  | boltReceive _ => exact .of_inContract (fun _ => exec_boltReceive) (fun _ => execBoltReceive_within)
  | boltHoldRelease _ => exact .of_inContract (fun _ => exec_boltHoldRelease) (fun _ => execBoltHoldRelease_within)
  | boltHoldTimeout _ => exact .of_inContract (fun _ => exec_boltHoldTimeout) (fun _ => execBoltHoldTimeout_within)
  | endMsg _ => exact .of_inContract (fun _ => exec_endMsg) (fun _ => execEndMsg_within)
  | syncPeriod => exact .of_inContract (fun _ => exec_syncPeriod) (fun _ => execSyncPeriod_within)
  | sync _ _ => exact .of_inContract (fun _ => exec_sync) (fun _ => execSync_within)
  | syncLossTimeout => exact .of_inContract (fun _ => exec_syncLossTimeout) (fun _ => execSyncLossTimeout_within)
  | delayMeasurePeriod _ => exact .of_inContract (fun _ => exec_delayMeasurePeriod) (fun _ => execDelayMeasurePeriod_within)
  | delayReq _ _ _ => exact .of_inContract (fun _ => exec_delayReq) (fun _ => execDelayReq_within)
  | delayResp _ _ _ _ _ => exact .of_inContract (fun _ => exec_delayResp) (fun _ => execDelayResp_within)
  | pickSend _ => exact .of_inContract (fun _ => exec_pickSend) (fun _ => execPickSend_within)
  | pick _ _ => exact .of_inContract (fun _ => exec_pick) (fun _ => execPick_within)
  | pickApply _ => exact .of_inContract (fun _ => exec_pickApply) (fun _ => execPickApply_within)
  | budgetWindow _ => exact .of_inContract (fun _ => exec_budgetWindow) (fun _ => execBudgetWindow_within)
  | checksumEvent => exact .of_inContract (fun _ => exec_checksumEvent) (fun _ => execChecksumEvent_within)
  | residueEvent _ _ _ => exact .of_inContract (fun _ => exec_residueEvent) (fun _ => execResidueEvent_within)
  | memoryEvent => exact .of_inContract (fun _ => exec_memoryEvent) (fun _ => execMemoryEvent_within)
  | e2eEvent => exact .of_inContract (fun _ => exec_e2eEvent) (fun _ => execE2eEvent_within)
  | regionEvent => exact .of_inContract (fun _ => exec_regionEvent) (fun _ => execRegionEvent_within)
  | lockstep => exact .of_inContract (fun _ => exec_lockstep) (fun _ => execLockstep_within)
  | selvEcc _ => exact .of_inContract (fun _ => exec_selvEcc) (fun _ => execSelvEcc_within)
  | safeClkFault => exact .of_inContract (fun _ => exec_safeClkFault) (fun _ => execSafeClkFault_within)
  | dieTempSample _ => exact .of_inContract (fun _ => exec_dieTempSample) (fun _ => execDieTempSample_within)
  | safeHbToggle => exact .of_inContract (fun _ => exec_safeHbToggle) (fun _ => execSafeHbToggle_within)
  | result _ _ => exact .of_inContract (fun _ => exec_result) (fun _ => execResult_within)
  | frameEnd _ _ => exact .of_inContract (fun _ => exec_frameEnd) (fun _ => execFrameEnd_within)
  | pairWindowExpiry _ => exact .of_inContract (fun _ => exec_pairWindowExpiry) (fun _ => execPairWindowExpiry_within)
  | seedInjection => exact .of_inContract (fun _ => exec_seedInjection) (fun _ => execSeedInjection_within)
  | seedFrame => exact .of_inContract (fun _ => exec_seedFrame) (fun _ => execSeedFrame_within)
  | seedDeadline _ => exact .of_inContract (fun _ => exec_seedDeadline) (fun _ => execSeedDeadline_within)
  | dmStart _ => exact .of_inContract (fun _ => exec_dmStart) (fun _ => execDmStart_within)
  | dmEnd _ => exact .of_inContract (fun _ => exec_dmEnd) (fun _ => execDmEnd_within)
  | deadline _ => exact .of_inContract (fun _ => exec_deadline) (fun _ => execDeadline_within)
  | selftestRound => exact .of_inContract (fun _ => exec_selftestRound) (fun _ => execSelftestRound_within)
  | selftestSlot _ => exact .of_inContract (fun _ => exec_selftestSlot) (fun _ => execSelftestSlot_within)
  | bandwidthWindow _ => exact .of_inContract (fun _ => exec_bandwidthWindow) (fun _ => execBandwidthWindow_within)
  | intakeWindowSwitch => exact .of_inContract (fun _ => exec_intakeWindowSwitch) (fun _ => execIntakeWindowSwitch_within)
  | telegramPeriod => exact .of_inContract (fun _ => exec_telegramPeriod) (fun _ => execTelegramPeriod_within)
  | getChallenge => exact .of_inContract (fun _ => exec_getChallenge) (fun _ => execGetChallenge_within)
  | clearSafe => exact .of_inContract (fun _ => exec_clearSafe) (fun _ => execClearSafe_within)
  | enterSafe => exact .of_inContract (fun _ => exec_enterSafe) (fun _ => execEnterSafe_within)
  | challengeExpiry => exact .of_inContract (fun _ => exec_challengeExpiry) (fun _ => execChallengeExpiry_within)
  | pcieHotReset => exact .of_inContract (fun _ => exec_pcieHotReset) (fun _ => execPcieHotReset_within)
  | bar2Read _ _ => exact .of_inContract (fun _ => exec_bar2Read) (fun _ => execBar2Read_within)
  | bar2Write _ _ _ => exact .of_inContract (fun _ => exec_bar2Write) (fun _ => execBar2Write_within)
  | bar2ReadTimeout => exact .of_inContract (fun _ => exec_bar2ReadTimeout) (fun _ => execBar2ReadTimeout_within)
  | bar4Write _ _ _ => exact .of_inContract (fun _ => exec_bar4Write) (fun _ => execBar4Write_within)
  | hostBar2PageWrite _ _ => exact .of_inContract (fun _ => exec_hostBar2PageWrite) (fun _ => execHostBar2PageWrite_within)
  | msixSend _ => exact .of_inContract (fun _ => exec_msixSend) (fun _ => execMsixSend_within)
  | i2cStart => exact .of_inContract (fun _ => exec_i2cStart) (fun _ => execI2cStart_within)
  | i2cAddressByte _ => exact .of_inContract (fun _ => exec_i2cAddressByte) (fun _ => execI2cAddressByte_within)
  | i2cWriteByte _ => exact .of_inContract (fun _ => exec_i2cWriteByte) (fun _ => execI2cWriteByte_within)
  | i2cReadByte _ => exact .of_inContract (fun _ => exec_i2cReadByte) (fun _ => execI2cReadByte_within)
  | i2cRepeatedStart => exact .of_inContract (fun _ => exec_i2cRepeatedStart) (fun _ => execI2cRepeatedStart_within)
  | i2cStop _ => exact .of_inContract (fun _ => exec_i2cStop) (fun _ => execI2cStop_within)
  | i2cSclTimeout => exact .of_inContract (fun _ => exec_i2cSclTimeout) (fun _ => execI2cSclTimeout_within)
  | h2bPost => exact .of_inContract (fun _ => exec_h2bPost) (fun _ => execH2bPost_within)
  | h2bAck => exact .of_inContract (fun _ => exec_h2bAck) (fun _ => execH2bAck_within)
  | b2hPost => exact .of_inContract (fun _ => exec_b2hPost) (fun _ => execB2hPost_within)
  | b2hAck => exact .of_inContract (fun _ => exec_b2hAck) (fun _ => execB2hAck_within)
  | supplyHoldBegin => exact .of_inContractWith (fun _ => exec_supplyHoldBegin) (fun _ => execSupplyHoldBegin_within) (fun _ => pfFall_within)
  | holdReady => exact .of_inContract (fun _ => exec_holdReady) (fun _ => execHoldReady_within)
  | supplyHoldEnd => exact .of_inContract (fun _ => exec_supplyHoldEnd) (fun _ => execSupplyHoldEnd_within)
  | holdResumeDone _ => exact .of_inContract (fun _ => exec_holdResumeDone) (fun _ => execHoldResumeDone_within)
  | traceEnable _ => exact .of_inContract (fun _ => exec_traceEnable) (fun _ => execTraceEnable_within)
  | traceClear => exact .of_inContract (fun _ => exec_traceClear) (fun _ => execTraceClear_within)
  | hostMark _ => exact .of_inContract (fun _ => exec_hostMark) (fun _ => execHostMark_within)
  | traceSyncPeriod _ => exact .of_inContract (fun _ => exec_traceSyncPeriod) (fun _ => execTraceSyncPeriod_within)
  | pmcClear => exact .of_inContract (fun _ => exec_pmcClear) (fun _ => execPmcClear_within)
  | pmcSnap => exact .of_inContract (fun _ => exec_pmcSnap) (fun _ => execPmcSnap_within)
  | traceFreeze _ => exact .of_inContract (fun _ => exec_traceFreeze) (fun _ => execTraceFreeze_within)
  | freezeN => exact .of_inContract (fun _ => exec_freezeN) (fun _ => execFreezeN_within)
  | freeze => exact .of_inContract (fun _ => exec_freeze) (fun _ => execFreeze_within)
  | tapReset => exact .of_inContract (fun _ => exec_tapReset) (fun _ => execTapReset_within)
  | extest _ => exact .of_inContract (fun _ => exec_extest) (fun _ => execExtest_within)
  | idcode => exact .of_inContract (fun _ => exec_idcode) (fun _ => execIdcode_within)
  | samplePreload _ => exact .of_inContract (fun _ => exec_samplePreload) (fun _ => execSamplePreload_within)
  | extestPulse => exact .of_inContract (fun _ => exec_extestPulse) (fun _ => execExtestPulse_within)
  | extestTrain => exact .of_inContract (fun _ => exec_extestTrain) (fun _ => execExtestTrain_within)
  | highz => exact .of_inContract (fun _ => exec_highz) (fun _ => execHighz_within)
  | clamp => exact .of_inContract (fun _ => exec_clamp) (fun _ => execClamp_within)
  | roSelect _ => exact .of_inContract (fun _ => exec_roSelect) (fun _ => execRoSelect_within)
  | readout => exact .of_inContract (fun _ => exec_readout) (fun _ => execReadout_within)
  | bypass => exact .of_inContract (fun _ => exec_bypass) (fun _ => execBypass_within)
  | lowPowerEntryDone _ => exact .of_inContract (fun _ => exec_lowPowerEntryDone) (fun _ => execLowPowerEntryDone_within)
  | pcieLinkUp _ _ => exact .of_inContract (fun _ => exec_pcieLinkUp) (fun _ => execPcieLinkUp_within)
  | configurationRequest _ => exact .of_inContract (fun _ => exec_configurationRequest) (fun _ => execConfigurationRequest_within)
  | bar4Read _ _ => exact .of_inContract (fun _ => exec_bar4Read) (fun _ => execBar4Read_within)
  | supplyLoss _ => exact .of_inContract (fun _ => exec_supplyLoss) (fun _ => execSupplyLoss_within)
  | _ => exact .of_inContract (exec_wordOf rfl) (fun _ => issueWord_within)

/-- The queue of waiting commands is as it was, and the tables are in canonical form if they were. -/
def KeepsForm (s t : State) : Prop := t.pending = s.pending ∧ (s.wf = true → t.wf = true)

theorem KeepsForm.trans {s t u : State} (h : KeepsForm s t) (h' : KeepsForm t u) : KeepsForm s u :=
  ⟨h'.1.trans h.1, h'.2 ∘ h.2⟩

theorem Within.keepsForm {M : Nat} {s t : State} (h : Within M s t) : KeepsForm s t := ⟨h.pending, h.wf⟩

theorem State.settle_keepsForm (s : State) : KeepsForm s s.settle := ⟨s.settle_pending, State.settle_wf⟩

/-- The contract layer keeps what the meaning and the selvedge's part keep. -/
theorem inContractWith_keepsForm {sel : State → State} {f : State → Res State} {M N : Nat} {s t : State}
    (hf : ∀ s, WithinR M s (f s)) (hs : ∀ s, Within N s (sel s)) (e : inContractWith sel f s = .next t) : KeepsForm s t := by
  unfold inContractWith at e
  dsimp only at e
  have h0 := State.settle_keepsForm s
  split at e
  · next u hu =>
    cases e
    exact (h0.trans (hf _ u hu).keepsForm).trans (State.settle_keepsForm u)
  · next r _ =>
    cases e
    exact ((h0.trans (hs _).keepsForm).trans State.leave_within.keepsForm).trans (State.settle_keepsForm _)

/-- Every command keeps the queue and the canonical form. -/
theorem exec_keepsForm {c : Instr} {s t : State} (e : exec c s = .next t) : KeepsForm s t := by
  obtain ⟨sel, f, N, he, hf, hs⟩ := staysWithin c
  exact inContractWith_keepsForm hf hs (he s ▸ e)

/-- On a fabric within its contract a command stays within the parts that it may change. -/
theorem exec_within {c : Instr} {s t : State} (hs : s.Kept) (ht : t.Kept) (e : exec c s = .next t) :
    Within (partsMask (touches c)) s t := by
  obtain ⟨sel, f, N, he, hf, -⟩ := staysWithin c
  exact hf s t (inContractWith_inv hs ht (he s ▸ e))

/-- Settles O5: each command's meaning stays within the mask of its parts, and the contract layer keeps the queue. -/
theorem execChangesOnlyItsParts : Obligations.ExecChangesOnlyItsParts :=
  ⟨fun _ _ _ e => (exec_keepsForm e).1, fun _ _ _ p hs ht e hp => (exec_within hs ht e).same p (testBit_partsMask hp)⟩

/-! ### Time that passes -/

theorem pausePair_within {s : State} {i : Nat} : Within 131072 s (pausePair s i) := setPairSt_within

theorem selvTick_within {s : State} : Within 131080 s (selvTick s) := by
  unfold selvTick
  dsimp only
  refine Within.ite (Within.refl _ _) (Within.ite ?_ ?_)
  · exact Within.lit rfl (Within.refl _ _) (h17 := .inr (by decide))
  · have hs : Within 131080 s
        ({ s with selv := { s.selv with sclk := s.selv.sclk + 2 - 400 } }.wrQ Reg.selvTime 2 (selvTime s + 1)) :=
      Within.step State.wrQ_within (by decide) (Within.lit rfl (Within.refl _ _) (h17 := .inr (by decide)))
    exact Within.ite (Within.foldl (fun _ _ => Within.step pausePair_within (by decide) (Within.refl _ _)) hs) hs

theorem timeTick_within {s : State} : Within 1024 s (timeTick s) := by
  unfold timeTick
  refine Within.ite (Within.step tbAdvance_within (by decide) ?_) (Within.refl _ _)
  exact Within.lit rfl (Within.refl _ _) (h10 := .inr (by decide))

theorem coreTick_within {s : State} {k : Nat} : Within 8200 s (coreTick s k) := by
  have count {t : State} (n : Nat) (h : Within 8200 s t) : Within 8200 s (pmcCount n k 8 t) :=
    Within.step pmcCount_within (by decide) h
  unfold coreTick
  extract_lets st _ s1 pw s2 s3
  have h1 : Within 8200 s s1 := Within.step setCore_within (by decide) (Within.refl _ _)
  have h2 : Within 8200 s s2 :=
    Within.ite (count _ (count _ h1)) (Within.ite (count _ h1) (Within.ite (count _ h1) h1))
  have h3 : Within 8200 s s3 :=
    Within.ite (count _ (Within.step State.putB_within (by decide) (Within.step State.satAdd_within (by decide) h2))) h2
  exact Within.ite (Within.refl _ _) (Within.ite (Within.step State.satAdd_within (by decide) h3) h3)

theorem bucketTick_within {s : State} : Within 4096 s (bucketTick s) :=
  Within.lit rfl (Within.refl _ _) (h12 := .inr (by decide))

/-- What passes in the compute domain leaves the position and the host's side as they are. -/
theorem cclkTick_within {s : State} : Within 153350376 s (cclkTick s) := by
  unfold cclkTick
  extract_lets s1
  have h1 : Within 153350376 s s1 :=
    Within.ite (Within.step bucketTick_within (by decide)
      (Within.foldl (fun _ _ => Within.step coreTick_within (by decide) (Within.refl _ _)) (Within.refl _ _))) (Within.refl _ _)
  have hm : Within 153350376 s (traceMove 16 (moveStart s1)) :=
    Within.step traceMove_within (by decide) (Within.step moveStart_within (by decide) h1)
  exact Within.foldl (fun _ _ => Within.step idleFlit_within (by decide) (Within.refl _ _)) hm

/-- The selvedge's 2 SCLK and the 5 TCLK of the time base. -/
theorem timeSelvTick_within {s : State} : Within 132104 s (timeTick (selvTick s)) :=
  Within.step timeTick_within (by decide) (Within.step selvTick_within (by decide) (Within.refl _ _))

theorem tick_within {s : State} : Within 153351400 s (tick s) := by
  have h : Within 153351400 s (timeTick (selvTick s)) := Within.step timeSelvTick_within (by decide) (Within.refl _ _)
  exact Within.ite (Within.step cclkTick_within (by decide) h) h

/-- Every step keeps the canonical form: a command does, and so does the time that passes on an empty queue. -/
theorem step_wf {s t : State} (w : s.wf = true) (e : step s = .next t) : t.wf = true := by
  unfold step at e
  split at e
  · exact (inContractWith_keepsForm (fun _ => WithinR.next tick_within) (fun _ => Within.refl 0 _) e).2 w
  · exact (exec_keepsForm e).2 w

/-- Settles O4: no command and no time that passes leaves the canonical form. -/
theorem stepKeepsCanonical : Obligations.StepKeepsCanonical := fun _ _ => step_wf

/-! ### A step -/

theorem step_cons {s : State} {c : Instr} {rest : List Instr} (h : s.pending = c :: rest) :
    step s = exec c { s with pending := rest } := by
  unfold step
  rw [h]

theorem step_nil {s : State} (h : s.pending = []) : step s = inContract (fun s => .next (tick s)) s := by
  unfold step
  rw [h]

theorem step_nil_kept {s : State} (h : s.pending = []) (hk : s.Kept) : step s = .next (tick s).settle := by
  rw [step_nil h]
  exact inContract_next hk rfl

/-- The clocks run by the supplies, the pins, the PLLs and the freeze alone. -/
theorem State.tclk_congr {s t : State} (hp : t.powered = s.powered) (hi : t.pins = s.pins) (hf : t.frz = s.frz) (hc : t.clk = s.clk) :
    t.tclk = s.tclk := by
  simp only [State.tclk, State.up, hp, hi, hf, hc]

theorem State.cclk_congr {s t : State} (ht : t.tclk = s.tclk) (hh : t.hold = s.hold) : t.cclk = s.cclk := by
  simp only [State.cclk, State.inHold, ht, hh]

theorem tbAdvance_now (s : State) (n : Nat) : (tbAdvance s n).pos.now = s.pos.now := by
  have key (tb : TimeBase) (sd md : Bool) :
      ({ s with pos := { s.pos with tb := tb, secDue := sd, msDue := md } } : State).pos.now = s.pos.now := rfl
  unfold tbAdvance
  split
  · exact key _ _ _
  · rfl

theorem timeTick_now {s : State} (h : s.tclk = true) : (timeTick s).pos.now = s.pos.now + 20 := by
  rw [timeTick, if_pos h, tbAdvance_now]

/-- While TCLK runs, the position clock moves by the 20 quarter-ns of 5 TCLK. -/
theorem tick_now {s : State} (h : s.tclk = true) : (tick s).pos.now = s.pos.now + 20 := by
  have hs := selvTick_within (s := s)
  have hpos : (timeTick (selvTick s)).pos.now = s.pos.now + 20 := by
    rw [timeTick_now ((State.tclk_congr (hs.powered rfl) (hs.pins rfl) (hs.frz rfl) (hs.clk rfl)).trans h), hs.pos rfl]
  unfold tick
  dsimp only
  split
  · rw [cclkTick_within.pos rfl, hpos]
  · exact hpos

/-- While CCLK does not run, only the selvedge and the time base count. -/
theorem tick_of_not_cclk {s : State} (h : s.cclk = false) : tick s = timeTick (selvTick s) := by
  have ht := timeSelvTick_within (s := s)
  have hc : (timeTick (selvTick s)).cclk = false :=
    (State.cclk_congr (State.tclk_congr (ht.powered rfl) (ht.pins rfl) (ht.frz rfl) (ht.clk rfl)) (ht.hold rfl)).trans h
  simp only [tick, hc, Bool.false_eq_true, if_false]

/-- Settles O1: a step is the front command, or the 5 ns of `tick`. -/
theorem stepRunsFrontCommand : Obligations.StepRunsFrontCommand := by
  refine ⟨fun c rest s h => step_cons h, fun s h hk => ⟨tick s, step_nil_kept h hk, tick_within.pending.trans h,
    tick_within.host rfl, tick_now, fun hc => ?_⟩⟩
  have ht := timeSelvTick_within (s := s)
  rw [tick_of_not_cclk hc]
  exact ⟨ht.cores rfl, ht.mem rfl, by rw [State.Kept, ht.contract rfl]; exact hk⟩

end Sys2Proof.Machine
end

section
/-! SUPPORT. A fabric outside its contract (R5, R592, R593): it stays so while the engines write, and a reset ends it. -/

namespace Sys2Proof.Machine

/-! ### Host accesses that pass their gates -/

theorem hostRead_of_reach {s : State} {f : State → Res State} (h : hostReach s = true) : hostRead f s = f s := by
  simp only [hostReach, Bool.and_eq_true, Bool.not_eq_true'] at h
  obtain ⟨⟨hup, hbist⟩, hd3⟩ := h
  simp [hostRead, hup, hbist, hd3]

/-- R8: an unaligned read is outside contract. -/
theorem execBar0MultiwordRead_unaligned {s : State} {a : BitVec 26} {sz : AccSize} (h : hostReach s = true)
    (ha : aligned a.toNat sz = false) : execBar0MultiwordRead a sz s = .outside 8 := by
  rw [execBar0MultiwordRead, hostRead_of_reach h]
  simp [ha, oc]

theorem State.leave_of_kept {s : State} (r : Nat) (h : s.Kept) : s.leave r = { s with contract := .left r } := by
  rw [State.leave, if_neg (Bool.eq_false_iff.mp h)]

/-! ### A broken contract stays broken while engines write -/

theorem State.leave_of_broken {s : State} (r : Nat) (h : s.contract.broken = true) : s.leave r = s := if_pos h

theorem engineGuard_of_broken {own : List Nat} {a n : Nat} {s : State} (h : s.contract.broken = true) : engineGuard own a n s = s := by
  unfold engineGuard State.leaveIf
  split
  · exact State.leave_of_broken _ h
  · rfl

theorem engWrite_contract {own : List Nat} {ag : Agent} {a : Nat} {bs : List Byte} {s : State} (h : s.contract.broken = true) :
    (engWrite own ag a bs s).contract = s.contract := by
  rw [engWrite, engineGuard_of_broken h, ite_self]
  exact busWrite_within.contract rfl

theorem moveInstall_contract {x : EmbTab} {mv : Move} {s : State} (h : s.contract.broken = true) :
    (moveInstall x mv s).contract = s.contract := by
  have hr : (busRead .host (x.addr mv.vslot 0 + 8 * mv.row) 8 s).2.contract = s.contract := busRead_within.contract rfl
  unfold moveInstall
  dsimp only
  rw [moveEnd_within.contract rfl, State.wrN_within.contract rfl]
  exact (engWrite_contract (hr ▸ h)).trans hr

theorem moveCopy_contract {x : EmbTab} {mv : Move} {d : DirEnt} {s : State} (h : s.contract.broken = true) :
    (moveCopy x mv d s).contract = s.contract := by
  have hr : (busRead .host (x.row mv.vslot d.tier d.slot) (x.stride d.tier) s).2.contract = s.contract := busRead_within.contract rfl
  unfold moveCopy
  dsimp only
  split
  · have hw := engWrite_contract (own := []) (ag := .host) (a := x.row mv.vslot d.tier mv.slot)
      (bs := (busRead .host (x.row mv.vslot d.tier d.slot) (x.stride d.tier) s).1)
      (s := { (busRead .host (x.row mv.vslot d.tier d.slot) (x.stride d.tier) s).2 with
        emb := { (busRead .host (x.row mv.vslot d.tier d.slot) (x.stride d.tier) s).2.emb with moveNum := mv.num } }) (hr ▸ h)
    exact (moveInstall_contract (hw.trans hr ▸ h)).trans (hw.trans hr)
  · split
    · next e => exact (moveEnd_within.contract rfl).trans (((Within.of_pair e sendTo_within).contract rfl).trans hr)
    · next e => exact ((Within.of_pair e sendTo_within).contract rfl).trans hr

theorem moveStart_contract {s : State} (h : s.contract.broken = true) : (moveStart s).contract = s.contract := by
  unfold moveStart
  split
  · rfl
  · dsimp only
    split
    · exact moveEnd_within.contract rfl
    · next x _ =>
      split
      · exact moveEnd_within.contract rfl
      · split
        · exact engHold_within.contract rfl
        · generalize hrs : moveRanges s x _ _ = rs
          have hd : (dirRead .host x (s.fld Reg.embMoveTable 8 2) (s.rd Reg.embMoveRow).toNat (engGo rs s)).2.contract = s.contract :=
            (dirRead_within.contract rfl).trans (engGo_within.contract rfl)
          split
          · exact (moveEnd_within.contract rfl).trans hd
          · split
            · exact (moveEnd_within.contract rfl).trans hd
            · exact (moveCopy_contract (hd ▸ h)).trans hd

theorem cclkTick_contract {s : State} (h : s.contract.broken = true) : (cclkTick s).contract = s.contract := by
  unfold cclkTick
  extract_lets s1
  have h1 : s1.contract = s.contract :=
    (Within.ite (M := 12296) (Within.step bucketTick_within (by decide)
      (Within.foldl (fun _ _ => Within.step coreTick_within (by decide) (Within.refl _ _)) (Within.refl _ s)))
      (Within.refl _ s)).contract rfl
  calc ((List.range 6).foldl idleFlit (traceMove 16 (moveStart s1))).contract
      = (traceMove 16 (moveStart s1)).contract := (Within.foldl (fun _ _ => idleFlit_within) (Within.refl _ _)).contract rfl
    _ = (moveStart s1).contract := traceMove_within.contract rfl
    _ = s1.contract := moveStart_contract (h1 ▸ h)
    _ = s.contract := h1

theorem tick_contract {s : State} (h : s.contract.broken = true) : (tick s).contract = s.contract := by
  have ht : (timeTick (selvTick s)).contract = s.contract := timeSelvTick_within.contract rfl
  unfold tick
  dsimp only
  split
  · exact (cclkTick_contract (ht ▸ h)).trans ht
  · exact ht

/-- A meaning that leaves the contract as it is, on a fabric outside its contract: it meets the state that the free fabric has
become, and the fabric it leaves is free. -/
theorem inContract_broken {f : State → Res State} {s t : State} (h : s.contract.broken = true) (e : f s.corrupt = .next t)
    (ht : t.contract.broken = true) : inContract f s = .next t.corrupt := by
  simp only [inContract, inContractWith, State.settle_of_broken h, e, State.settle_of_broken ht]

theorem State.corrupt_contract (s : State) : s.corrupt.contract = s.contract := by
  obtain ⟨-, -, -, -, -, -, -, -, -, -, -, -, -, -, hc, -⟩ := State.corrupt_kept s
  exact hc

/-- Time passes on a free fabric: the queue, SAFE_N, the TAP and the contract are as they were. -/
theorem step_nil_broken {s : State} (h : s.contract.broken = true) (hp : s.pending = []) :
    ∃ t, step s = .next t ∧ t.contract = s.contract ∧ t.pending = [] ∧ t.pins.safeN = s.pins.safeN ∧ t.tap = s.tap := by
  have hc := State.corrupt_contract s
  have hb : s.corrupt.contract.broken = true := hc ▸ h
  have htc : (tick s.corrupt).contract = s.corrupt.contract := tick_contract hb
  obtain ⟨hp1, -, -, -, -, -, -, hn1, -, -, -, -, -, ht1, -⟩ := State.corrupt_kept s
  obtain ⟨hp2, -, -, -, -, -, -, hn2, -, -, -, -, -, ht2, hc2, -⟩ := State.corrupt_kept (tick s.corrupt)
  have hw := tick_within (s := s.corrupt)
  refine ⟨_, (step_nil hp).trans (inContract_broken h rfl (htc ▸ hb)), hc2.trans (htc.trans hc), ?_, ?_, ?_⟩
  · rw [hp2, hw.pending, hp1, hp]
  · rw [hn2, hw.pins rfl, hn1]
  · rw [ht2, hw.tap rfl, ht1]

/-- The selvedge of a free fabric sends its telegram from what it holds. -/
theorem telegramPeriod_broken {s : State} (h : s.contract.broken = true) :
    exec .telegramPeriod s = .next (telegram false s.corrupt).corrupt := by
  refine exec_telegramPeriod.trans (inContract_broken (f := execTelegramPeriod) h rfl ?_)
  rw [telegram_within.contract rfl, State.corrupt_contract, h]

/-! ### A cold reset -/

theorem coldReset_contract (s : State) : (coldReset s).contract = s.contract.afterReset := rfl

theorem coldReset_stage (s : State) : (coldReset s).stage = 0 := State.fld_putF_same (s := { fabricClear s with
  regs := [], selv := { State.reset.selv with running := false } }) rfl (by decide)

/-- COLD_N brings a fabric outside its contract half of the way back (R593). -/
theorem coldNAssert_broken {s : State} {r : Nat} (h : s.contract = .left r) (hn : s.pins.coldN = true) :
    ∃ t, exec .coldNAssert s = .next t ∧ t.contract = .leftReset r ∧ t.stage = 0 ∧ t.cores = [] ∧ t.slots = [] ∧ t.warp = .empty := by
  have hb : s.contract.broken = true := by rw [h]; rfl
  obtain ⟨-, -, -, hn1, -⟩ := State.corrupt_kept s
  have hc : (coldReset s.corrupt).contract = .leftReset r := by
    rw [coldReset_contract, State.corrupt_contract, h]; rfl
  refine ⟨{ coldReset s.corrupt with pins := { (coldReset s.corrupt).pins with coldN := false, safeN := .hiZ, safeHb := false } },
    ?_, hc, coldReset_stage _, rfl, rfl, rfl⟩
  rw [exec_coldNAssert, inContract, inContractWith, State.settle_of_broken hb]
  simp only [execColdNAssert, onlyIf, hn1, hn, if_true]
  rw [State.settle_of_kept]
  exact congrArg Contract.broken hc

/-- Settles O2: the contract layer answers every command, and leaves the selvedge to itself. -/
theorem outsideContract : Obligations.OutsideContract := by
  refine ⟨fun c s => ?_, fun s => ⟨State.corrupt_kept s, State.corrupt_wf⟩, fun s hk hr a sz ha => ?_,
    fun s hb => ⟨step_nil_broken hb, ?_, fun r hr hn => coldNAssert_broken hr hn⟩, fun r => ⟨rfl, rfl, rfl⟩⟩
  · obtain ⟨sel, f, he⟩ := exec_inContract c
    refine ⟨he s ▸ inContractWith_answers sel f s, ?_⟩
    cases hp : s.pending with
    | nil => exact step_nil hp ▸ inContractWith_answers id _ s
    | cons c rest =>
      obtain ⟨sel, f, he⟩ := exec_inContract c
      rw [step_cons hp, he]
      exact inContractWith_answers sel f _
  · refine ⟨_, inContract_outside hk (execBar0MultiwordRead_unaligned hr ha), ?_⟩
    rw [State.leave_of_kept 8 hk]
    exact ⟨State.corrupt_contract _, State.corrupt_kept _⟩
  · exact ⟨s.corrupt, _, State.corrupt_kept s, telegramPeriod_broken hb, State.corrupt_kept _⟩

end Sys2Proof.Machine
end

section
/-! SUPPORT. Reads of the control map (R8, R9): the two words of a quantity stand next to each other in the register tables, and the
lower one's read captures the higher. -/

namespace Sys2Proof.Machine

/-! ### The rows of a register table -/

/-- The offset past the last word of a row. -/
def RegDef.ends (x : RegDef) : Nat := x.off + (x.count - 1) * x.stride + 4 * x.words.length

/-- The words of row `x` stand clear of those of the later row `r`: all of them before it, or before it in every period of the same
stride. -/
def RegDef.clearOf (x r : RegDef) : Bool :=
  decide (x.ends ≤ r.off) || (x.stride == r.stride &&
    decide (x.off + 4 * x.words.length ≤ r.off ∧ r.off + 4 * r.words.length ≤ x.off + x.stride))

/-- A row of whole words that lies in a block of `size` bytes, its periods apart. -/
def RegDef.fits (size : Nat) (x : RegDef) : Bool :=
  x.off % 4 == 0 && x.stride % 4 == 0 && decide (x.ends ≤ size) && (x.stride == 0 || decide (4 * x.words.length ≤ x.stride))

/-- The rows of every block stand in it, and a quantity of two words meets no row before it. -/
theorem blkRegs_fits (b : Blk) : (blkBase b).1 % 4 = 0 ∧ (blkBase b).1 + (blkBase b).2 ≤ 0x2A00000 ∧
    (∀ x ∈ blkRegs b, x.fits (blkBase b).2 = true) ∧
    (blkRegs b).Pairwise fun x r => r.words.length = 2 → x.clearOf r = true := by
  cases b <;> decide +kernel

/-- A row names an offset by the number of the quantity and the offset within it. -/
theorem RegDef.hit_eq_some {x : RegDef} {base off : Nat} {h : RegHit} (e : x.hit base off = some h) :
    ∃ n o, off = x.off + n * x.stride + o ∧ n < x.count ∧ o < 4 * x.words.length ∧ (0 < x.stride → o < x.stride) ∧
      (x.stride = 0 → n = 0) ∧ h = ⟨base + x.off + n * x.stride, o / 4, x⟩ := by
  unfold RegDef.hit at e
  extract_lets span d n o at e
  split at e
  · cases e
  · next hlt =>
    split at e
    · next hno =>
      have hd : n * x.stride ≤ d := by
        by_cases hz : x.stride = 0
        · simp [hz]
        · simp only [n, if_neg hz]; exact Nat.div_mul_le_self _ _
      refine ⟨n, o, by omega, hno.1, hno.2, fun hpos => ?_, fun hz => by simp [n, hz], (Option.some.inj e).symm⟩
      have hm : o = d % x.stride := by
        simp only [o, n, if_neg (Nat.pos_iff_ne_zero.mp hpos)]
        have := Nat.div_add_mod' d x.stride
        omega
      exact hm ▸ Nat.mod_lt _ hpos
    · cases e

/-- The row names every offset of its words. -/
theorem RegDef.hit_of {x : RegDef} {base n o : Nat} (hn : n < x.count) (ho : o < 4 * x.words.length) (hs : 0 < x.stride → o < x.stride)
    (hz : x.stride = 0 → n = 0) : x.hit base (x.off + n * x.stride + o) = some ⟨base + x.off + n * x.stride, o / 4, x⟩ := by
  have hd : x.off + n * x.stride + o - x.off = n * x.stride + o := by omega
  have hq : (if x.stride = 0 then 0 else (n * x.stride + o) / x.stride) = n := by
    split
    · next h => exact (hz h).symm
    · next h =>
      rw [Nat.add_comm, Nat.add_mul_div_right _ _ (Nat.pos_of_ne_zero h), Nat.div_eq_of_lt (hs (Nat.pos_of_ne_zero h)), Nat.zero_add]
  unfold RegDef.hit
  simp only [hd, hq, Nat.add_sub_cancel_left]
  rw [if_neg (by omega), if_pos ⟨hn, ho⟩]

/-- A row that stands clear of the row `r` names no word of it. -/
theorem RegDef.hit_of_clearOf {x r : RegDef} {base n o : Nat} (hc : x.clearOf r = true) (ho : o < 4 * r.words.length) :
    x.hit base (r.off + n * r.stride + o) = none := by
  rw [Option.eq_none_iff_forall_ne_some]
  intro h e
  obtain ⟨m, p, hoff, hm, hp, hps, hpz, -⟩ := RegDef.hit_eq_some e
  simp only [RegDef.clearOf, Bool.or_eq_true, Bool.and_eq_true, decide_eq_true_eq, beq_iff_eq] at hc
  rcases hc with hc | ⟨hst, hlo, hhi⟩
  · have hmul : m * x.stride ≤ (x.count - 1) * x.stride := Nat.mul_le_mul_right _ (by omega)
    unfold RegDef.ends at hc
    omega
  · rw [← hst] at hoff
    have hpos : 0 < x.stride := by omega
    have hmod : (n * x.stride + (r.off - x.off + o)) % x.stride = (m * x.stride + p) % x.stride :=
      congrArg (· % x.stride) (by omega)
    rw [Nat.mul_add_mod_of_lt (by omega), Nat.mul_add_mod_of_lt (hps hpos)] at hmod
    omega

/-! ### The control map -/

theorem blkOf_range {a : Nat} {b : Blk} (h : blkOf a = some b) : (blkBase b).1 ≤ a ∧ a < (blkBase b).1 + (blkBase b).2 := by
  simpa using List.find?_some h

theorem mem_allBlks (b : Blk) : b ∈ allBlks := by cases b <;> decide

/-- The blocks do not meet. -/
theorem blks_apart : ∀ b ∈ allBlks, ∀ c ∈ allBlks, b = c ∨ (blkBase b).1 + (blkBase b).2 ≤ (blkBase c).1 ∨
    (blkBase c).1 + (blkBase c).2 ≤ (blkBase b).1 := by decide

/-- An offset in the range of a block lies in that block. -/
theorem blkOf_of_mem {a : Nat} {b : Blk} (hlo : (blkBase b).1 ≤ a) (hhi : a < (blkBase b).1 + (blkBase b).2) : blkOf a = some b := by
  have hsome : (blkOf a).isSome = true := List.find?_isSome.mpr ⟨b, mem_allBlks b, by simp [hlo, hhi]⟩
  obtain ⟨c, hc⟩ := Option.isSome_iff_exists.mp hsome
  obtain ⟨hclo, hchi⟩ := blkOf_range hc
  rcases blks_apart b (mem_allBlks b) c (mem_allBlks c) with rfl | h
  · exact hc
  · omega

/-- The word above the lowest of a quantity of two: the same block, and the same quantity's word 1. -/
theorem regHit_second {a : Nat} {b : Blk} {h : RegHit} (hb : blkOf a = some b) (hh : regHit a = some h) (ha : a % 4 = 0)
    (hi : h.idx = 0) (hl : h.row.words.length = 2) :
    h.start = a ∧ blkOf (a + 4) = some b ∧ regHit (a + 4) = some { h with idx := 1 } := by
  obtain ⟨hbase, -, hfit, hclear⟩ := blkRegs_fits b
  obtain ⟨hlo, -⟩ := blkOf_range hb
  simp only [regHit, hb] at hh
  obtain ⟨l₁, r, l₂, hsplit, hr, hbefore⟩ := List.findSome?_eq_some_iff.mp hh
  obtain ⟨n, o, hoff, hn, ho, hos, hz, rfl⟩ := RegDef.hit_eq_some hr
  have hrf := hfit r (by rw [hsplit]; simp)
  simp only [RegDef.fits, Bool.and_eq_true, Bool.or_eq_true, beq_iff_eq, decide_eq_true_eq] at hrf
  obtain ⟨⟨⟨hoff4, hst4⟩, hends⟩, hper⟩ := hrf
  dsimp only at hi hl
  have ho0 : o = 0 := by
    have : n * r.stride % 4 = 0 := by rw [Nat.mul_mod, hst4, Nat.mul_zero, Nat.zero_mod]
    omega
  subst ho0
  have hmul : n * r.stride ≤ (r.count - 1) * r.stride := Nat.mul_le_mul_right _ (by omega)
  unfold RegDef.ends at hends
  have hb4 : blkOf (a + 4) = some b := blkOf_of_mem (by omega) (by omega)
  refine ⟨by dsimp only; omega, hb4, ?_⟩
  have hd : a + 4 - (blkBase b).1 = r.off + n * r.stride + 4 := by omega
  simp only [regHit, hb4, hd]
  refine List.findSome?_eq_some_iff.mpr ⟨l₁, r, l₂, hsplit, ?_, fun x hx => ?_⟩
  · exact RegDef.hit_of hn (by omega) (by omega) hz
  · rw [hsplit, List.pairwise_append] at hclear
    exact RegDef.hit_of_clearOf (hclear.2.2 x hx r (by simp) hl) (by omega)

/-! ### Reads through the shadows -/

theorem execBar0MultiwordRead_answered {s : State} {a : BitVec 26} {b : Blk} {sz : AccSize} (ha : answered b s = true)
    (hal : aligned a.toNat sz = true) (hb : blkOf a.toNat = some b) :
    execBar0MultiwordRead a sz s = .next ((readShadows a.toNat sz s).answer (.data (readBytes s a.toNat sz))) := by
  simp only [answered, Bool.and_eq_true, Bool.or_eq_true, Bool.not_eq_true', beq_iff_eq] at ha
  obtain ⟨⟨hr, hhold⟩, hclk⟩ := ha
  have hh : (s.inHold && !heldBlk b) = false := by rcases hhold with h | h <;> simp [h]
  have hc : (s.clk != .running && !clockless b) = false := by rcases hclk with h | h <;> simp [h]
  rw [execBar0MultiwordRead, hostRead_of_reach hr]
  simp [hal, hb, hh, hc]

/-- An aligned read that a block answers changes the shadows and the answer alone. -/
theorem bar0MultiwordRead_answered {s : State} {a : BitVec 26} {b : Blk} {sz : AccSize} (hk : s.Kept) (ha : answered b s = true)
    (hal : aligned a.toNat sz = true) (hb : blkOf a.toNat = some b) :
    exec (.bar0MultiwordRead a sz) s = .next ((readShadows a.toNat sz s).answer (.data (readBytes s a.toNat sz))) := by
  refine inContract_kept hk ?_ (execBar0MultiwordRead_answered ha hal hb)
  exact (congrArg Contract.broken (readShadows_within.contract rfl)).trans hk

theorem shadowOf_of_hit {a : Nat} {b : Blk} {h : RegHit} (hb : blkOf a = some b) (hh : regHit a = some h) (hbh : b ≠ .hostB)
    (hl : h.row.words.length = 2) : shadowOf a = some h := by
  simp [shadowOf, hh, hl, hb, hbh]

theorem toNat_add_four {a : BitVec 26} {b : Blk} (hb : blkOf (a.toNat + 4) = some b) : (a + 4#26).toNat = a.toNat + 4 := by
  obtain ⟨-, hhi⟩ := blkOf_range hb
  obtain ⟨-, hmax, -⟩ := blkRegs_fits b
  have : (4#26).toNat = 4 := rfl
  rw [BitVec.toNat_add_of_lt (by omega), this]

/-- The lowest word's read gives its value and captures the word above it. -/
theorem readLowest {s : State} {a : Nat} {b : Blk} {h : RegHit} (hb : blkOf a = some b) (hh : regHit a = some h) (hbh : b ≠ .hostB)
    (hi : h.idx = 0) (hl : h.row.words.length = 2) :
    readBytes s a .b32 = natLe 4 (regView s a).toNat ∧
      readShadows a .b32 s = { s with shadows := Tab.set noShadow s.shadows a ⟨[regView s (a + 4)], [false]⟩ } := by
  have hsh := shadowOf_of_hit hb hh hbh hl
  simp [readBytes, readVal, readShadows, readMark, hsh, hi, hl, capture]

/-- The higher word's read gives the word captured. -/
theorem readHigher {u : State} {a : Nat} {b : Blk} {h : RegHit} {w : W32} (hb : blkOf a = some b) (hh : regHit a = some h)
    (ha : a % 4 = 0) (hbh : b ≠ .hostB) (hi : h.idx = 0) (hl : h.row.words.length = 2)
    (hu : Tab.get noShadow u.shadows a = ⟨[w], [false]⟩) : readBytes u (a + 4) .b32 = natLe 4 w.toNat := by
  obtain ⟨hst, hb4, hh4⟩ := regHit_second hb hh ha hi hl
  have hsh := shadowOf_of_hit hb4 hh4 hbh hl
  simp [readBytes, readVal, hsh, hst, hu]

/-- A 64-bit read of a quantity of two words gives both as they stand. -/
theorem readBoth {s : State} {a : Nat} {b : Blk} {h : RegHit} (hb : blkOf a = some b) (hh : regHit a = some h)
    (ha : a % 4 = 0) (hbh : b ≠ .hostB) (hi : h.idx = 0) (hl : h.row.words.length = 2) :
    readBytes s a .b64 = natLe 4 (regView s a).toNat ++ natLe 4 (regView s (a + 4)).toNat := by
  obtain ⟨hst, hb4, hh4⟩ := regHit_second hb hh ha hi hl
  have hsh := shadowOf_of_hit hb hh hbh hl
  have hsh4 := shadowOf_of_hit hb4 hh4 hbh hl
  simp [readBytes, readVal, samePair, hsh, hsh4, hi]

theorem shadowOf_single {a : Nat} (h : ∀ x, regHit a = some x → x.row.words.length = 1) : shadowOf a = none := by
  unfold shadowOf
  split
  · rfl
  · next x hx => simp [h x hx]

/-! ### The shadows stay in canonical form -/

/-- The captured words stand in canonical form. -/
def ShadowsOk (s : State) : Prop := Tab.wf noShadow s.shadows = true

theorem readMark_shadowsOk {a : Nat} {s : State} (w : ShadowsOk s) : ShadowsOk (readMark a s) := by
  unfold readMark
  split
  · exact w
  · split
    · exact Tab.wf_set _ _ w
    · split
      · exact w
      · exact Tab.wf_set _ _ w

theorem readShadows_shadowsOk {a : Nat} {sz : AccSize} {s : State} (w : ShadowsOk s) : ShadowsOk (readShadows a sz s) := by
  unfold readShadows
  split
  · exact readMark_shadowsOk (readMark_shadowsOk w)
  · exact readMark_shadowsOk w

/-- A read leaves the captured words as they were, or captures those of its quantity. -/
theorem execBar0MultiwordRead_shadows {a : BitVec 26} {sz : AccSize} {s t : State} (e : execBar0MultiwordRead a sz s = .next t) :
    t.shadows = s.shadows ∨ t.shadows = (readShadows a.toNat sz s).shadows := by
  unfold execBar0MultiwordRead hostRead at e
  split at e
  · cases e; exact .inl rfl
  split at e
  · cases e; exact .inl rfl
  split at e
  · cases e; exact .inl rfl
  split at e
  · cases e
  split at e
  · cases e; exact .inl rfl
  beta_reduce at e
  split at e
  · cases e; exact .inl rfl
  split at e
  · cases e; exact .inl rfl
  · cases e; exact .inr rfl

theorem execBar0MultiwordRead_shadowsOk {a : BitVec 26} {sz : AccSize} {s t : State} (w : ShadowsOk s)
    (e : execBar0MultiwordRead a sz s = .next t) : ShadowsOk t := by
  rw [ShadowsOk]
  rcases execBar0MultiwordRead_shadows e with h | h <;> rw [h]
  · exact w
  · exact readShadows_shadowsOk w

/-- A reset of the fabric drops every captured word. -/
theorem fabricReset_shadows (s : State) : (fabricReset s).shadows = [] :=
  (Within.foldl (fun _ _ => pairLeave_within) (Within.refl _ _)).shadows rfl

theorem selvEvent_fabricReset_shadows {c act : Nat} {ps : List Nat} {s : State} : (selvEvent c act ps (fabricReset s)).shadows = [] := by
  rw [selvEvent_within.shadows rfl, fabricReset_shadows]

theorem onlyIf_inv {b : Bool} {f : State → State} {s t : State} (e : onlyIf b f s = .next t) : t = f s ∨ t = s := by
  unfold onlyIf at e
  split at e <;> cases e
  · exact .inl rfl
  · exact .inr rfl

theorem shadowsOk_of_nil {s : State} (h : s.shadows = []) : ShadowsOk s := by rw [ShadowsOk, h]; rfl

theorem execColdNAssert_shadowsOk {s t : State} (w : ShadowsOk s) (e : execColdNAssert s = .next t) : ShadowsOk t := by
  rcases onlyIf_inv e with rfl | rfl
  · rfl
  · exact w

theorem execPerstNAssert_shadowsOk {s t : State} (w : ShadowsOk s) (e : execPerstNAssert s = .next t) : ShadowsOk t := by
  rcases onlyIf_inv e with rfl | rfl
  · dsimp only
    split
    · exact shadowsOk_of_nil selvEvent_fabricReset_shadows
    · exact w
  · exact w

theorem execPcieHotReset_shadowsOk {s t : State} (w : ShadowsOk s) (e : execPcieHotReset s = .next t) : ShadowsOk t := by
  rcases onlyIf_inv e with h | h <;> rw [h]
  · exact shadowsOk_of_nil ((boot_within.shadows rfl).trans selvEvent_fabricReset_shadows)
  · exact w

theorem execSupplyLoss_shadowsOk {v : Bool} {s t : State} (e : execSupplyLoss v s = .next t) : ShadowsOk t := by
  unfold execSupplyLoss at e
  dsimp only at e
  split at e <;> rw [← Res.next.inj e]
  · rfl
  · unfold ShadowsOk
    dsimp only
    rw [fabricReset_shadows]
    rfl

/-- The commands that may change the captured words: a read of the control map, and the resets. -/
theorem touches_shadows {c : Instr} (h : Part.shadows ∈ touches c) :
    (∃ a sz, c = .bar0MultiwordRead a sz) ∨ c = .coldNAssert ∨ c = .perstNAssert ∨ c = .pcieHotReset ∨ ∃ v, c = .supplyLoss v := by
  cases c <;> simp [touches] at h ⊢

/-- Within contract every command keeps the captured words in canonical form. -/
theorem exec_shadowsOk {c : Instr} {s t : State} (hs : s.Kept) (ht : t.Kept) (w : ShadowsOk s) (e : exec c s = .next t) : ShadowsOk t := by
  by_cases hc : Part.shadows ∈ touches c
  · rcases touches_shadows hc with ⟨a, sz, rfl⟩ | rfl | rfl | rfl | ⟨v, rfl⟩
    · exact execBar0MultiwordRead_shadowsOk w (inContract_inv hs ht e)
    · exact execColdNAssert_shadowsOk w (inContract_inv hs ht e)
    · exact execPerstNAssert_shadowsOk w (inContract_inv hs ht e)
    · exact execPcieHotReset_shadowsOk w (inContract_inv hs ht e)
    · exact execSupplyLoss_shadowsOk (inContract_inv hs ht e)
  · have h : t.shadows = s.shadows := (exec_within hs ht e).same .shadows (testBit_partsMask hc)
    rw [ShadowsOk, h]
    exact w

/-- Settles O9: the lower word of a quantity captures the higher one, a single register is read as it stands. -/
theorem registerReads : Obligations.RegisterReads := by
  refine ⟨fun s a b h hk hw ha hb hbh hal hh hi hl => ?_, fun s a b hk ha hb hal h1 => ?_, fun c s t hs ht w e => exec_shadowsOk hs ht w e⟩
  · have ha4 : a.toNat % 4 = 0 := by simpa [aligned] using hal
    obtain ⟨hbytes, hshadows⟩ := readLowest (s := s) hb hh hbh hi hl
    obtain ⟨-, hb4, -⟩ := regHit_second hb hh ha4 hi hl
    refine ⟨⟨_, bar0MultiwordRead_answered hk ha hal hb, by rw [hbytes]; rfl, readShadows_within.regs rfl, readShadows_within.mem rfl,
      fun u huk hus hu => ?_⟩, fun hal8 => ?_⟩
    · have ht := toNat_add_four hb4
      have hal4 : aligned (a + 4#26).toNat .b32 = true := by rw [ht]; simp [aligned]; omega
      refine ⟨_, bar0MultiwordRead_answered huk hu hal4 (ht ▸ hb4), ?_, readShadows_within.regs rfl, readShadows_within.mem rfl⟩
      have hget : Tab.get noShadow u.shadows a.toNat = ⟨[regView s (a.toNat + 4)], [false]⟩ := by
        rw [hus, hshadows]
        exact Tab.get_set_same _ _ hw
      rw [State.answer_resp, ht, readHigher hb hh ha4 hbh hi hl hget]
    · exact ⟨_, bar0MultiwordRead_answered hk ha hal8 hb, congrArg Resp.data (readBoth hb hh ha4 hbh hi hl),
        readShadows_within.regs rfl, readShadows_within.mem rfl⟩
  · rw [bar0MultiwordRead_answered hk ha hal hb]
    simp [readShadows, readMark, readBytes, readVal, shadowOf_single h1]

end Sys2Proof.Machine
end

section
/-! SUPPORT. Host writes of the control map (R8, R10, R13, R515): the access codes of the word written. -/

namespace Sys2Proof.Machine

/-! ### The gates of a host write -/

theorem hostWrite_of_takes {s : State} {d : Dom} {f : State → Res State} (h : hostTakes d s = true) : hostWrite d f s = f s := by
  simp only [hostTakes, hostReach, Bool.and_eq_true, Bool.not_eq_true'] at h
  obtain ⟨⟨⟨⟨⟨hup, hbist⟩, hd3⟩, hhold⟩, hclk⟩, hpost⟩ := h
  have hh : (s.inHold && d == .fabric) = false := by
    rcases Bool.or_eq_true _ _ ▸ hhold with h | h <;> simp_all
  have hc : (s.clk != .running && (d == .fabric || d == .held)) = false := by
    cases d <;> simp_all
  simp [hostWrite, hup, hbist, hd3, hh, hc, hpost]

theorem hostData_poisoned {s : State} {q : Bool} {f : State → Res State} (h : hostReach s = true) (hc : s.clk = .running)
    (hp : (postedWaits s && !q) = false) : hostData true q f s = .next (poisonedWrite s) := by
  simp only [hostReach, Bool.and_eq_true, Bool.not_eq_true'] at h
  obtain ⟨⟨hup, hbist⟩, hd3⟩ := h
  simp [hostData, hup, hbist, hd3, hc, hp]

/-- A case outside contract, as a statement about the fabric. -/
theorem inContract_leave {f : State → Res State} {s : State} {r : Nat} (h : s.Kept) (e : f s = .outside r) :
    inContract f s = .next (s.leave r).settle := by
  rw [inContract_outside h e, State.settle_of_broken (State.leave_broken _ _)]

/-! ### The access codes of a word -/

/-- No bit of a register word is both RW and W1C. -/
theorem blkRegs_codes (b : Blk) : ∀ r ∈ blkRegs b, ∀ w ∈ r.words, w.rw &&& w.w1c = 0 := by
  cases b <;> decide +kernel

theorem RegHit.codes {a : Nat} {h : RegHit} (hh : regHit a = some h) : h.word.rw &&& h.word.w1c = 0 := by
  unfold regHit at hh
  split at hh
  · cases hh
  · next b hb =>
    obtain ⟨r, hr, hx⟩ := List.exists_of_findSome?_eq_some hh
    obtain ⟨-, o, -, -, ho, -, -, rfl⟩ := RegDef.hit_eq_some hx
    have hlt : o / 4 < r.words.length := by omega
    rw [RegHit.word, List.getD_eq_getElem _ _ hlt]
    exact blkRegs_codes b r hr _ (List.getElem_mem hlt)

/-- The state after a write by the access codes: the W1C bits written 1 are cleared, the RW bits take the value. -/
def codeWrite (a : Nat) (v : W32) (s : State) : State := plainWrite a (v &&& ~~~(w1cBits a)) (w1cClear s (a, v))

theorem codeWrite_within {a : Nat} {v : W32} {s : State} : Within 8 s (codeWrite a v s) :=
  Within.step State.putRw_within (by decide) State.wr_within

theorem codeWrite_rd_ne {a x : Nat} {v : W32} {s : State} (w : RegsOk s) (h : x ≠ a) : (codeWrite a v s).rd x = s.rd x := by
  unfold codeWrite plainWrite State.putRw w1cClear
  split
  · exact State.rd_wr_ne w h
  · exact (State.rd_wr_ne (regsOk_wr w) h).trans (State.rd_wr_ne w h)

/-- R10: each bit by its access code. -/
theorem codeWrite_bit {a i : Nat} {v : W32} {s : State} {h : RegHit} (w : RegsOk s) (hh : regHit a = some h) (hi : i < 32) :
    (codeWrite a v s).bit a i =
      if h.word.rw.testBit i then v.getLsbD i else if h.word.w1c.testBit i then s.bit a i && !v.getLsbD i else s.bit a i := by
  have hx : (h.word.rw &&& h.word.w1c).testBit i = false := by rw [RegHit.codes hh]; exact Nat.zero_testBit i
  have hrd : (codeWrite a v s).rd a =
      ((s.rd a &&& ~~~(v &&& BitVec.ofNat 32 h.word.w1c)) &&& ~~~(BitVec.ofNat 32 h.word.rw)) |||
        (v &&& ~~~(BitVec.ofNat 32 h.word.w1c) &&& BitVec.ofNat 32 h.word.rw) := by
    simp only [codeWrite, plainWrite, State.putRw, hh, w1cClear, w1cBits]
    rw [State.rd_wr_same (regsOk_wr w), State.rd_wr_same w]
  change ((codeWrite a v s).rd a).getLsbD i = _
  rw [hrd]
  change _ = if _ then _ else if _ then (s.rd a).getLsbD i && _ else (s.rd a).getLsbD i
  rw [Nat.testBit_and] at hx
  simp only [BitVec.getLsbD_or, BitVec.getLsbD_and, BitVec.getLsbD_not, BitVec.getLsbD_ofNat, hi, decide_true, Bool.true_and]
  generalize h.word.rw.testBit i = r at hx ⊢
  generalize h.word.w1c.testBit i = c at hx ⊢
  cases r <;> cases c <;> simp_all

/-! ### The writes that start no step -/

/-- A write to a register that starts no step is one of its access codes. -/
theorem writeBlk_of_noStep {a : Nat} {b : Blk} {v : W32} {s : State} (hb : blkOf a = some b) (hn : noStep a = true) :
    writeBlk b a v s = .next (plainWrite a v s) := by
  obtain ⟨hlo, hhi⟩ := blkOf_range hb
  simp only [noStep, hb] at hn
  cases b <;> simp only [Bool.false_eq_true, Bool.and_eq_true, Bool.not_eq_true', decide_eq_true_eq, bne_iff_ne] at hn <;>
    simp only [blkBase] at hlo hhi
  case timeB => simp [writeBlk, writeTime, hn.1, hn.2]
  case posB =>
    have h1 : a - 0x20000 < 0x400 := by omega
    have h2 : ¬(a - 0x20000) % 0x40 = 8 := by omega
    simp [writeBlk, writePos, h1, h2]
  case intakeB =>
    have : ¬(0x41000 ≤ a ∧ a < 0x42000 ∧ a = Reg.intakeGridCtrl (Fin.ofNat 64 ((a - 0x41000) / 0x40))) := by
      rintro ⟨h1, h2, h3⟩
      simp [h1, h2] at hn
      unfold Reg.intakeGridCtrl at h3
      omega
    exact if_neg this
  case memB =>
    have : ¬a = Reg.memCtrl (Fin.ofNat 48 ((a - 0x2000000) / 0x10000)) := by unfold Reg.memCtrl; omega
    exact if_neg this
  case selvB => exact if_neg hn
  case hostB => rfl
  case mgmtB =>
    simp only [writeBlk, writeMgmt]
    rw [if_neg (by omega), if_neg (by omega), if_neg (by omega)]

/-- The blocks with registers that start no step: their words are no windows of cores, and they never drain. -/
theorem noStep_blk {a : Nat} {b : Blk} (hb : blkOf a = some b) (hn : noStep a = true) :
    (∀ s, blkDraining s b a = false) ∧ windowWord b a = false ∧ a ≠ Reg.traceFreeze := by
  have hne : b ≠ .traceB ∧ b ≠ .coreB ∧ b ≠ .queueB ∧ b ≠ .ethB ∧ b ≠ .linkB := by
    simp only [noStep, hb] at hn
    cases b <;> simp_all
  obtain ⟨ht, hc, hq, he, hl⟩ := hne
  refine ⟨fun s => by cases b <;> simp_all [blkDraining], by simp [windowWord, hc], ?_⟩
  rintro rfl
  exact ht (Option.some.inj (hb.symm.trans (by decide)))

/-- R13: a write that sets a reserved bit breaks the rule. -/
theorem wordOutside_reserved {s : State} {b : Blk} {a : Nat} {v : W32} {h : RegHit} (hf : a ≠ Reg.traceFreeze)
    (hh : regHit a = some h) (hr : v &&& reservedBits h ≠ 0) : wordOutside s b (a, v) = some 13 := by
  simp only [wordOutside, if_neg hf, hh, if_pos hr]

theorem writeWords_outside {s : State} {b : Blk} {e : Nat × W32} {r : Nat} (h : wordOutside s b e = some r) :
    writeWords b [e] s = .outside r := by
  simp [writeWords, h, oc]

/-- R10: a write of one word that starts no step is one of its access codes. -/
theorem writeWords_of_noStep {s : State} {a : Nat} {b : Blk} {v : W32} {h : RegHit} (hb : blkOf a = some b) (hh : regHit a = some h)
    (hr : v &&& reservedBits h = 0) (hn : noStep a = true) : writeWords b [(a, v)] s = .next (codeWrite a v s) := by
  obtain ⟨hd, hw, hf⟩ := noStep_blk hb hn
  have hout : wordOutside s b (a, v) = none := by simp [wordOutside, hf, hh, hr, hd]
  have horder : writeOrder [(a, v)] = [(a, v)] := by
    unfold writeOrder
    cases h : actsOnWrite (a, v) <;> simp [h]
  simp [writeWords, hout, horder, andThen, writeWord, hf, hh, writeBlk_of_noStep hb hn, windowsJudged, hw, codeWrite]

theorem execBar0Write_aligned {s : State} {a : BitVec 26} {sz : AccSize} {d : W64} {b : Blk} (hal : aligned a.toNat sz = true)
    (hb : blkOf a.toNat = some b) (ht : hostTakes (blkDom b) s = true) :
    execBar0Write a sz d false s = writeWords b (writtenWords a.toNat sz d) s := by
  simp [execBar0Write, hal, hb, hostWrite_of_takes ht]

theorem poisonedWrite_kept {s : State} (h : s.Kept) : (poisonedWrite s).Kept := by
  rw [State.Kept, poisonedWrite_within.contract rfl]
  exact h

/-- Settles O8: each write is one of its access codes, a case outside contract, or nothing. -/
theorem registerWrites : Obligations.RegisterWrites := by
  refine ⟨fun s a d b h hk hw ht hal hb hh hr hn => ?_, fun s hk => ⟨fun a sz d hal => ⟨fun ht => ?_, fun hreach => ?_⟩,
    fun a sz d hal hb => ⟨?_, fun hreach => ?_⟩, fun a d b h hal hb ht hf hh hr => ?_⟩, fun s hk => ⟨fun ht a sz d => ?_,
    fun hreach hc o bs => ?_, fun hreach hc hp o bs => ?_, rfl⟩⟩
  · refine ⟨codeWrite a.toNat (d.setWidth 32) s, inContract_kept hk ?_ ?_, fun i hi => ?_, fun x hx => codeWrite_rd_ne (State.wf_regs hw) hx,
      fun p hp => codeWrite_within.same p (testBit_partsMask (l := [.regs]) (by simpa using hp))⟩
    · rw [codeWrite_within.contract rfl]; exact hk
    · rw [execBar0Write_aligned hal hb ht]
      exact writeWords_of_noStep hb hh hr hn
    · rw [codeWrite_bit (State.wf_regs hw) hh hi, BitVec.getLsbD_setWidth]
      simp [hi]
  · exact inContract_leave hk (by simp [execBar0Write, hal, hostWrite_of_takes ht, oc])
  · exact inContract_leave hk (execBar0MultiwordRead_unaligned hreach hal)
  · exact inContract_kept hk hk (by simp [execBar0Write, hal, hb])
  · refine inContract_kept hk hk ?_
    rw [execBar0MultiwordRead, hostRead_of_reach hreach]
    simp [hal, hb]
  · refine inContract_leave hk ?_
    rw [execBar0Write_aligned hal hb ht]
    exact writeWords_outside (wordOutside_reserved hf hh hr)
  · exact inContract_kept hk (poisonedWrite_kept hk) (by simp [execBar0Write, hostWrite_of_takes ht])
  · exact inContract_kept hk (poisonedWrite_kept hk) (hostData_poisoned hreach hc (by simp))
  · exact inContract_kept hk (poisonedWrite_kept hk) (hostData_poisoned hreach hc (by simp [hp]))

end Sys2Proof.Machine
end

section
/-! SUPPORT. The issue of a word (R194 to R196, R215, R223): when it waits, what it raises, and its effects in field order. -/

namespace Sys2Proof.Machine

/-! ### What becomes of an issue -/

theorem core_of_cores {s t : State} (h : t.cores = s.cores) (k : Nat) : core t k = core s k := by rw [core, h, core]

theorem exec_word_next {c : Instr} {k : CoreId} {w : IWord} {s t : State} (hc : wordOf c = some (k, w)) (hk : s.Kept)
    (e : issueWord k w s = .next t) : exec c s = .next t := by
  rw [exec_wordOf hc]
  refine inContract_kept hk ?_ e
  rw [(issueWord_within t e).contract rfl]
  exact hk

theorem exec_word_outside {c : Instr} {k : CoreId} {w : IWord} {s : State} {r : Nat} (hc : wordOf c = some (k, w)) (hk : s.Kept)
    (e : issueWord k w s = .outside r) : exec c s = .next (s.leave r).settle := by
  rw [exec_wordOf hc]
  exact inContract_leave hk e

theorem issueWord_of_mayIssue {k : CoreId} {w : IWord} {s : State} (h : mayIssue s k = true) : issueWord k w s = tryIssue k w s s :=
  if_pos h

theorem issueWord_waits {k : CoreId} {w : IWord} {s : State} (h : mayIssue s k = false ∨ traceHeld s k = true) :
    issueWord k w s = .next s := by
  cases hm : mayIssue s k with
  | false => exact if_neg (by simp [hm])
  | true => rw [issueWord_of_mayIssue hm, tryIssue, if_pos (h.resolve_left (by simp [hm]))]

theorem wait_of_mayIssue {k : Nat} {s : State} (h : mayIssue s k = true) : (core s k).wait = .none := by
  simp only [mayIssue, Bool.and_eq_true, beq_iff_eq] at h
  obtain ⟨⟨-, hw⟩, -⟩ := h
  exact hw

/-- A core that waits for nothing is not in the queue engine. -/
theorem unwait_of_none {k : Nat} {s : State} (h : (core s k).wait = .none) : unwait k s = s := by rw [unwait, h]

/-! ### Exceptions -/

/-- A word outside the local store raises its exception (R215). -/
theorem tryIssue_outside_local {k : CoreId} {w : IWord} {s : State} (hm : mayIssue s k = true) (ht : traceHeld s k = false)
    (hl : inLocal k (core s k).pc.toNat = false) :
    tryIssue k w s s = .next (takeException k ⟨3, 0, 0, 0, (core s k).pc, some (core s k).pc⟩ s) := by
  simp [tryIssue, ht, hl, unwait_of_none (wait_of_mayIssue hm)]

/-- A reserved bit leaves the contract (R223). -/
theorem tryIssue_reserved {k : CoreId} {w : IWord} {s : State} (ht : traceHeld s k = false)
    (hl : inLocal k (core s k).pc.toNat = true) (hr : wordReserved w = true) : tryIssue k w s s = .outside 223 := by
  simp [tryIssue, ht, hl, hr, oc]

/-- A word that raises an exception has no other effect (R215). -/
theorem tryIssue_exception {k : CoreId} {w : IWord} {s : State} {e : Exc} (hm : mayIssue s k = true) (ht : traceHeld s k = false)
    (hl : inLocal k (core s k).pc.toNat = true) (hr : wordReserved w = false) (he : wordException w s k = some e)
    (hq : e.cause < 5 ∨ queueRefuses k w s = false) (hg : e.cause = 1 ∨ gatherHeld w s k = false) :
    tryIssue k w s s = .next (takeException k e (syncDue k (depart (.word k) s))) := by
  have hcore : core (syncDue k (depart (.word k) s)) k = core s k :=
    core_of_cores ((syncDue_within.cores rfl).trans (depart_within.cores rfl)) k
  have hie : issueException w s k = some e := by
    rw [issueException, he]
    exact if_neg fun h => hq.elim (fun h5 => by omega) fun hf => by simp [hf] at h
  have hwait : ¬(e.cause ≠ 1 ∧ gatherHeld w s k = true) := fun h => hg.elim h.1 fun hf => by simp [hf] at h
  have hun := unwait_of_none (s := syncDue k (depart (.word k) s)) (hcore ▸ wait_of_mayIssue hm)
  simp only [tryIssue, ht, hl, hr, hie, if_neg hwait, hun, Bool.false_eq_true, Bool.not_true, if_false]

/-! ### A word that issues -/

theorem entryState_within {k : Nat} {w : IWord} {s : State} : Within 2113544 s (entryState k w s) :=
  Within.step syncDue_within (by decide) (Within.ite (Within.refl _ _) (Within.step depart_within (by decide) (Within.refl _ _)))

@[simp] theorem core_entryState (k : Nat) (w : IWord) (s : State) (j : Nat) : core (entryState k w s) j = core s j :=
  core_of_cores (entryState_within.cores rfl) j

/-- A word that issues has its effects, on the state with the SYNC that was due. -/
theorem issueWord_of_issues {k : CoreId} {w : IWord} {s : State} (h : issues s k w = true) :
    issueWord k w s = wordEffect k w s (entryState k w s) := by
  simp only [issues, ready, Bool.and_eq_true, Bool.not_eq_true', Option.isNone_iff_eq_none] at h
  obtain ⟨⟨⟨⟨⟨⟨⟨⟨⟨⟨⟨⟨⟨-, hmay⟩, htrace⟩, hlocal⟩, hres⟩, hexc⟩, hshared⟩, hstall⟩, hmeter⟩, hadr⟩, harr⟩, htq⟩, hlock⟩, hqueue⟩ := h
  have hie : issueException w s k = none := by rw [issueException, hexc]
  rw [issueWord_of_mayIssue hmay]
  simp only [tryIssue, htrace, hlocal, hres, hie, hshared, hstall, hmeter, hadr, harr, htq, hlock, hqueue, Bool.false_eq_true,
    Bool.not_true, Bool.or_false, if_false]
  rfl

/-- Settles O27: the cases of the issue, and the fields of `wordEffect` one after another. -/
theorem wordsTakeEffectInFieldOrder : Obligations.WordsTakeEffectInFieldOrder := by
  intro c k w s hc hk
  refine ⟨fun h => exec_word_next hc hk (issueWord_waits h), fun hm ht => ⟨fun hl => ?_, fun hl hr => ?_, fun hl hr e he hq hg => ?_⟩,
    fun hi => ?_⟩
  · exact exec_word_next hc hk ((issueWord_of_mayIssue hm).trans (tryIssue_outside_local hm ht hl))
  · exact exec_word_outside hc hk ((issueWord_of_mayIssue hm).trans (tryIssue_reserved ht hl hr))
  · exact exec_word_next hc hk ((issueWord_of_mayIssue hm).trans (tryIssue_exception hm ht hl hr he hq hg))
  · have hw := issueWord_of_issues hi
    rw [wordEffect] at hw
    simp only [core_entryState] at hw
    refine ⟨fun r ha => exec_word_outside hc hk ?_, fun aw s1 ha => ⟨fun r hg => exec_word_outside hc hk ?_,
      fun hg vw s2 hv => ⟨fun r ho => exec_word_outside hc hk ?_, fun ho s3 h3 => ⟨fun tw s4 hq => exec_word_next hc hk ?_,
        fun hq => exec_word_next hc hk ?_⟩⟩⟩⟩
    · simp only [hw, ha]
    · simp only [hw, ha, hg, oc]
    · simp only [hw, ha, hg, hv, ho, oc]
    · simp only [hw, ha, hg, hv, ho, h3, hq]
    · simp only [hw, ha, hg, hv, ho, h3, hq]

end Sys2Proof.Machine
end

section
/-! SUPPORT. Which bytes of memory a write changes (R7, R203, R375, R378), and which registers the issue of a word may change
besides those its operation names (R194, R553, R554). -/

namespace Sys2Proof.Machine

/-! ### Bytes of a memory -/

theorem natLe_length (n v : Nat) : (natLe n v).length = n := by
  induction n generalizing v with
  | zero => rfl
  | succ n ih => rw [natLe, List.length_cons, ih]

theorem Memory.read_writes_ne {g : MemGen} {m : List Host.Cell} {a x : Nat} {bs : List Byte} (w : Memory.wf g m = true)
    (h : x < a ∨ a + bs.length ≤ x) : Memory.read g (Memory.writes g m a bs) x = Memory.read g m x := by
  induction bs generalizing m a with
  | nil => rfl
  | cons b bs ih =>
    rw [List.length_cons] at h
    exact (ih (Memory.wf_write w) (by omega)).trans (Tab.get_set_ne b (by omega) w)

theorem Memory.reads_writes {g : MemGen} {m : List Host.Cell} {a : Nat} {bs : List Byte} (w : Memory.wf g m = true) :
    Memory.reads g (Memory.writes g m a bs) a bs.length = bs := by
  induction bs generalizing m a with
  | nil => rfl
  | cons b bs ih =>
    have hb : Memory.read g (Memory.writes g (Memory.write g m a b) (a + 1) bs) a = b :=
      (Memory.read_writes_ne (Memory.wf_write w) (.inl (Nat.lt_succ_self a))).trans (Tab.get_set_same a b w)
    rw [List.length_cons, Memory.writes, Memory.reads, hb, ih (Memory.wf_write w)]

theorem State.bytes_putBytes {s : State} {a : Nat} {bs : List Byte} (w : s.wf = true) : (s.putBytes a bs).bytes a bs.length = bs :=
  Memory.reads_writes (State.wf_mem w)

theorem State.bytes_of_mem {s t : State} (hm : t.mem = s.mem) (hg : t.memGen = s.memGen) (a n : Nat) : t.bytes a n = s.bytes a n := by
  rw [State.bytes, hm, hg, State.bytes]

/-! ### What a write to memory leaves -/

/-- From a state in canonical form to another, no byte outside `[a, a + n)` has changed. -/
def ChangesOnlyBytes (a n : Nat) (s t : State) : Prop :=
  s.wf = true → t.wf = true ∧ ∀ x, x < a ∨ a + n ≤ x → t.byte x = s.byte x

theorem ChangesOnlyBytes.trans {a n : Nat} {s t u : State} (h : ChangesOnlyBytes a n s t) (h' : ChangesOnlyBytes a n t u) :
    ChangesOnlyBytes a n s u := by
  intro w
  obtain ⟨wt, ht⟩ := h w
  obtain ⟨wu, hu⟩ := h' wt
  exact ⟨wu, fun x hx => (hu x hx).trans (ht x hx)⟩

theorem ChangesOnlyBytes.widen {a n b m : Nat} {s t : State} (h : ChangesOnlyBytes b m s t) (ha : a ≤ b) (hn : b + m ≤ a + n) :
    ChangesOnlyBytes a n s t := fun w => ⟨(h w).1, fun x hx => (h w).2 x (by omega)⟩

/-- What leaves memory as it is changes no byte. -/
theorem Within.changesOnlyBytes {M a n : Nat} {s t : State} (h : Within M s t) (hm : M.testBit 5 = false := by decide)
    (hg : M.testBit 6 = false := by decide) : ChangesOnlyBytes a n s t := fun w =>
  ⟨h.wf w, fun x _ => by rw [State.byte, h.mem hm, h.memGen hg, State.byte]⟩

theorem putBytes_changesOnlyBytes (s : State) (a : Nat) (bs : List Byte) : ChangesOnlyBytes a bs.length s (s.putBytes a bs) := fun w =>
  ⟨State.putBytes_within.wf w, fun _ hx => Memory.read_writes_ne (State.wf_mem w) hx⟩

theorem compWriteWord_changesOnlyBytes {w o : Nat} {bs : List Byte} {s : State} (h : o + bs.length ≤ 8) :
    ChangesOnlyBytes (8 * w + o) bs.length s (compWriteWord w o bs s) := by
  have part (t : State) (b : Nat) (hb : b = 8 * w + o) :
      ChangesOnlyBytes (8 * w + o) bs.length t (setHealth (t.putBytes b bs) w .good) :=
    hb ▸ (putBytes_changesOnlyBytes t b bs).trans setHealth_within.changesOnlyBytes
  have note : ChangesOnlyBytes (8 * w + o) bs.length s (noteWord w s) := noteWord_within.changesOnlyBytes
  unfold compWriteWord
  split
  · exact (Within.refl 0 s).changesOnlyBytes
  · split
    · exact part s (8 * w) (by omega)
    · split
      · exact note.trans setHealth_within.changesOnlyBytes
      · exact note.trans setHealth_within.changesOnlyBytes
      · exact note.trans (part _ _ rfl)

/-- Word after word: each takes the bytes that lie in it. -/
theorem compWriteWords_changesOnlyBytes (n a : Nat) (bs : List Byte) (s : State) :
    ChangesOnlyBytes a bs.length s (compWriteWords n a bs s) := by
  induction n generalizing a bs s with
  | zero => exact (Within.refl 0 s).changesOnlyBytes
  | succ n ih =>
    have hlen : (bs.take (8 - a % 8)).length = min (8 - a % 8) bs.length := List.length_take
    have hdrop : (bs.drop (8 - a % 8)).length = bs.length - (8 - a % 8) := List.length_drop
    have hword : ChangesOnlyBytes a bs.length s
        (if bs.isEmpty then s else compWriteWord (a / 8) (a % 8) (bs.take (8 - a % 8)) s) := by
      split
      · exact (Within.refl 0 s).changesOnlyBytes
      · exact (compWriteWord_changesOnlyBytes (by omega)).widen (by omega) (by omega)
    rw [compWriteWords]
    by_cases hshort : bs.length ≤ 8 - a % 8
    · have hnil : bs.drop (8 - a % 8) = [] := List.drop_eq_nil_of_le hshort
      have hrest := ih (a + (8 - a % 8)) [] (if bs.isEmpty then s else compWriteWord (a / 8) (a % 8) (bs.take (8 - a % 8)) s)
      rw [hnil]
      refine hword.trans fun w => ⟨(hrest w).1, fun x _ => (hrest w).2 x ?_⟩
      rw [List.length_nil]
      omega
    · exact hword.trans ((ih _ _ _).widen (by omega) (by omega))

/-- A write at a decoded address changes its own bytes at most. -/
theorem devWrite_changesOnlyBytes (a : Nat) (bs : List Byte) (s : State) : ChangesOnlyBytes a bs.length s (devWrite a bs s) := by
  unfold devWrite
  split
  · exact countUnavail_within.changesOnlyBytes.trans (compWriteWords_changesOnlyBytes _ a bs _)
  · split
    · exact winWrite_within.changesOnlyBytes
    · exact putBytes_changesOnlyBytes s a bs

theorem busWrite_changesOnlyBytes (ag : Agent) (a : Nat) (bs : List Byte) (s : State) :
    ChangesOnlyBytes a bs.length s (busWrite ag a bs s) := by
  unfold busWrite
  split
  · exact meterCharge_within.changesOnlyBytes.trans (devWrite_changesOnlyBytes a bs _)
  · exact regionEvent_within.changesOnlyBytes

/-- A write that may be performed, to the on-die stores, puts its bytes there and does nothing else. -/
theorem busWrite_onDie {ag : Agent} {a : Nat} {bs : List Byte} {s : State} (hok : accessOk s ag true a bs.length = true)
    (hc : inComp a = false) (hw : inWin a = false) : busWrite ag a bs s = s.putBytes a bs := by
  have hm : meterCharge ag a bs.length s = s := by
    unfold meterCharge
    split
    · rfl
    · rw [if_neg (by simp [hc])]
  simp [busWrite, hok, hm, devWrite, hc, hw]

/-- A write that the region checker refuses is reported and has no other effect (R490). -/
theorem busWrite_refused {ag : Agent} {a : Nat} {bs : List Byte} {s : State} (h : accessOk s ag true a bs.length = false) :
    busWrite ag a bs s = regionEvent ag a true s := if_neg (by simp [h])

/-! ### Which registers change -/

/-- From a canonical register file to another, no register has changed but those of `p`. -/
def ChangesOnlyRegs (p : Nat → Bool) (s t : State) : Prop := RegsOk s → RegsOk t ∧ ∀ x, p x = false → t.rd x = s.rd x

section
variable {p : Nat → Bool} {s t u : State}

theorem ChangesOnlyRegs.of_regs (h : t.regs = s.regs) : ChangesOnlyRegs p s t := fun w =>
  ⟨by rw [RegsOk, h]; exact w, fun x _ => State.rd_of_regs h x⟩

theorem ChangesOnlyRegs.trans (h : ChangesOnlyRegs p s t) (h' : ChangesOnlyRegs p t u) : ChangesOnlyRegs p s u := by
  intro w
  obtain ⟨wt, ht⟩ := h w
  obtain ⟨wu, hu⟩ := h' wt
  exact ⟨wu, fun x hx => (hu x hx).trans (ht x hx)⟩

theorem wr_changesOnlyRegs {a : Nat} {v : W32} (h : p a = true) : ChangesOnlyRegs p s (s.wr a v) := fun w =>
  ⟨regsOk_wr w, fun x hx => State.rd_wr_ne w fun e => by simp [e, h] at hx⟩

theorem putB_changesOnlyRegs {a i : Nat} {b : Bool} (h : p a = true) : ChangesOnlyRegs p s (s.putB a i b) := wr_changesOnlyRegs h

theorem wrQ_two_changesOnlyRegs {a v : Nat} (h : p a = true) (h4 : p (a + 4) = true) : ChangesOnlyRegs p s (s.wrQ a 2 v) :=
  (wr_changesOnlyRegs h).trans (wr_changesOnlyRegs h4)

theorem foldl_changesOnlyRegs {α : Type} {f : State → α → State} {l : List α} (h : ∀ x ∈ l, ∀ s, ChangesOnlyRegs p s (f s x))
    (s : State) : ChangesOnlyRegs p s (l.foldl f s) := by
  induction l generalizing s with
  | nil => exact .of_regs rfl
  | cons x l ih =>
    rw [List.foldl_cons]
    exact (h x (List.mem_cons_self ..) s).trans (ih (fun y hy => h y (List.mem_cons_of_mem x hy)) (f s x))

end

/-! ### The registers that the issue of a word may change -/

theorem issueRegs_corePc (k : Nat) : issueRegs k (Reg.corePc k) = true := by simp [issueRegs]
theorem issueRegs_corePc_high (k : Nat) : issueRegs k (Reg.corePc k + 4) = true := by simp [issueRegs]
theorem issueRegs_coreStatus (k : Nat) : issueRegs k (Reg.coreStatus k) = true := by simp [issueRegs]
theorem issueRegs_traceStatus (k : Nat) : issueRegs k Reg.traceStatus = true := by simp [issueRegs]

/-- The performance counters are registers that an issue may change. -/
theorem issueRegs_pmc (k : Nat) {i : Nat} (h : i < 16) : issueRegs k (Reg.pmc i) = true ∧ issueRegs k (Reg.pmc i + 4) = true := by
  simp only [issueRegs, Reg.pmc, Reg.pmcSel, Reg.traceFreeze, Bool.or_eq_true, Bool.and_eq_true, beq_iff_eq, decide_eq_true_eq]
  omega

theorem pmcCount_changesOnlyRegs (ev j n k : Nat) (s : State) : ChangesOnlyRegs (issueRegs k) s (pmcCount ev j n s) := by
  unfold pmcCount
  split
  · refine foldl_changesOnlyRegs (fun i hi t => ?_) s
    have hi : i < 16 := List.mem_range.mp (List.mem_of_mem_filter hi)
    exact wrQ_two_changesOnlyRegs (issueRegs_pmc k hi).1 (issueRegs_pmc k hi).2
  · exact .of_regs rfl

theorem fifoPut_changesOnlyRegs (j type payload k : Nat) (s : State) : ChangesOnlyRegs (issueRegs k) s (fifoPut j type payload s) :=
  (ChangesOnlyRegs.of_regs (by rfl)).trans (putB_changesOnlyRegs (issueRegs_traceStatus k))

theorem traceCore_changesOnlyRegs (j type payload k : Nat) (s : State) : ChangesOnlyRegs (issueRegs k) s (traceCore j type payload s) := by
  have hlost : ChangesOnlyRegs (issueRegs k) s (fifoLost j s) := by
    unfold fifoLost
    dsimp only
    split
    · exact .of_regs rfl
    · exact (fifoPut_changesOnlyRegs _ _ _ _ _).trans (.of_regs rfl)
  unfold traceCore
  split
  · exact hlost.trans (fifoPut_changesOnlyRegs _ _ _ _ _)
  · exact .of_regs rfl

theorem syncDue_changesOnlyRegs (k : Nat) (s : State) : ChangesOnlyRegs (issueRegs k) s (syncDue k s) := by
  unfold syncDue
  split
  · exact (ChangesOnlyRegs.of_regs (by rfl)).trans (traceCore_changesOnlyRegs _ _ _ _ _)
  · exact .of_regs rfl

theorem arrived_within {k : Nat} {w : IWord} {s : State} : Within 16384 s (arrived k w s) :=
  Within.ite (Within.refl _ _) depart_within

theorem entryState_changesOnlyRegs (k : Nat) (w : IWord) (s : State) : ChangesOnlyRegs (issueRegs k) s (entryState k w s) :=
  (ChangesOnlyRegs.of_regs (arrived_within.regs (by decide))).trans (syncDue_changesOnlyRegs k _)

end Sys2Proof.Machine
end

section
/-! SUPPORT. The stores (R196, R203, R489, R490): a word whose only operation is a store, from its access to its end. -/

namespace Sys2Proof.Machine

/-- A change within the mask of some parts leaves every other part as it was. -/
theorem Within.same_of_not_mem {M : Nat} {l : List Part} {s t : State} (h : Within M s t) (hM : Nat.land M (partsMask l) = M) :
    ∀ p : Part, p ∉ l → p.same s t := fun p hp => (Within.step h hM (Within.refl _ _)).same p (testBit_partsMask hp)

/-! ### The end of a word without a branch -/

theorem core_setCore_same {s : State} (w : s.wf = true) (k : Nat) (c : CoreSt) : core (setCore s k c) k = c :=
  Tab.get_set_same k c (State.wf_cores w)

theorem core_setCore_ne {s : State} (w : s.wf = true) {j k : Nat} (h : j ≠ k) (c : CoreSt) : core (setCore s k c) j = core s j :=
  Tab.get_set_ne c h (State.wf_cores w)

theorem CoreSt.setS_wait (c : CoreSt) (i : Nat) (x : W64) : (c.setS i x).wait = c.wait := by
  unfold CoreSt.setS
  split <;> rfl

theorem foldl_setS_wait (l : List (Nat × W64)) (c : CoreSt) : (l.foldl (fun c e => c.setS e.1 e.2) c).wait = c.wait := by
  induction l generalizing c with
  | nil => rfl
  | cons e l ih => exact (ih _).trans (c.setS_wait e.1 e.2)

theorem foldl_setV_wait (l : List (Nat × VReg)) (c : CoreSt) : (l.foldl (fun c e => c.setV e.1 e.2) c).wait = c.wait := by
  induction l generalizing c with
  | nil => rfl
  | cons e l ih => exact ih _

theorem foldl_setP_wait (l : List (Nat × PReg)) (c : CoreSt) : (l.foldl (fun c e => c.setP e.1 e.2) c).wait = c.wait := by
  induction l generalizing c with
  | nil => rfl
  | cons e l ih => exact ih _

/-- Register results leave what the core waits for. -/
theorem CoreSt.apply_wait (c : CoreSt) (r : Writes) : (c.apply r).wait = c.wait := by
  rw [CoreSt.apply, foldl_setP_wait, foldl_setV_wait, foldl_setS_wait]

theorem foldl_apply_wait (ws : List Writes) (c : CoreSt) : (ws.foldl CoreSt.apply c).wait = c.wait := by
  induction ws generalizing c with
  | nil => rfl
  | cons r ws ih => exact (ih _).trans (c.apply_wait r)

/-- The core of a word without a branch when it is complete. -/
def coreAfter (ws : List Writes) (entry c : CoreSt) : CoreSt := { ws.foldl CoreSt.apply c with pc := entry.pc + 64 }

section
variable {k : CoreId} {w : IWord} {entry : CoreSt} {ws : List Writes} {s : State}

theorem finishWord_plain (hs : s.wf = true) (hwait : (core s k).wait = .none) (hbr : brOp w = 0) :
    finishWord k w entry ws false s =
      (pmcCount 0x02 k 1 ((setCore (setCore s k (ws.foldl CoreSt.apply (core s k))) k (coreAfter ws entry (core s k))).putB
        (Reg.coreStatus k) 6 false)).wrQ (Reg.corePc k) 2 entry.pc.toNat := by
  have hregs : (ws ++ [brWrites w entry]).foldl CoreSt.apply (core s k) = ws.foldl CoreSt.apply (core s k) := by
    rw [List.foldl_append, brWrites, if_neg (by simp [hbr])]
    rfl
  have hbranch (t : State) : brEffect k w entry t = setCore t k { core t k with pc := entry.pc + 64 } := by
    simp [brEffect, brNext, brTaken, hbr]
  have hdone (t : State) (ht : (core t k).wait = .none) : endWord k w entry.pc none t = t.wrQ (Reg.corePc k) 2 entry.pc.toNat := by
    simp [endWord, ht, hbr, wordDone]
  have hs1 : (setCore s k (ws.foldl CoreSt.apply (core s k))).wf = true := setCore_within.wf hs
  rw [finishWord, unwait_of_none hwait]
  rw [hregs, hbranch, core_setCore_same hs]
  refine hdone _ ?_
  rw [core_of_cores (pmcCount_within.cores rfl), core_of_cores (State.putB_within.cores rfl), core_setCore_same hs1]
  exact (foldl_apply_wait ws (core s k)).trans hwait

theorem finishWord_plain_within (hs : s.wf = true) (hwait : (core s k).wait = .none) (hbr : brOp w = 0) :
    Within 8200 s (finishWord k w entry ws false s) := by
  rw [finishWord_plain hs hwait hbr]
  exact Within.step State.wrQ_within (by decide) (Within.step pmcCount_within (by decide) (Within.step State.putB_within (by decide)
    (Within.step setCore_within (by decide) (Within.step setCore_within (by decide) (Within.refl _ _)))))

/-- The end of a word without a branch changes nothing but its core and the registers that an issue may change. -/
theorem finishWord_plain_onlyCore (hs : s.wf = true) (hwait : (core s k).wait = .none) (hbr : brOp w = 0) :
    OnlyCore k s (finishWord k w entry ws false s) (coreAfter ws entry (core s k)) [] := by
  have hs1 : (setCore s k (ws.foldl CoreSt.apply (core s k))).wf = true := setCore_within.wf hs
  have hin := finishWord_plain_within (entry := entry) (ws := ws) hs hwait hbr
  have hcores : (finishWord k w entry ws false s).cores =
      (setCore (setCore s k (ws.foldl CoreSt.apply (core s k))) k (coreAfter ws entry (core s k))).cores := by
    rw [finishWord_plain hs hwait hbr, State.wrQ_within.cores rfl, pmcCount_within.cores rfl, State.putB_within.cores rfl]
  have hregs : ChangesOnlyRegs (issueRegs k) s (finishWord k w entry ws false s) := by
    rw [finishWord_plain hs hwait hbr]
    exact (((ChangesOnlyRegs.of_regs (by rfl)).trans (putB_changesOnlyRegs (issueRegs_coreStatus k))).trans
      (pmcCount_changesOnlyRegs _ _ _ _ _)).trans (wrQ_two_changesOnlyRegs (issueRegs_corePc k) (issueRegs_corePc_high k))
  refine ⟨?_, fun j hj => ?_, fun x hx _ => (hregs (State.wf_regs hs)).2 x hx, hin.same_of_not_mem (by decide)⟩
  · rw [core_of_cores hcores, core_setCore_same hs1]
  · have hne : j.val ≠ k.val := fun e => hj (Fin.ext e)
    rw [core_of_cores hcores, core_setCore_ne hs1 hne, core_setCore_ne hs hne]

end

/-! ### A word whose only operation is in the address field -/

theorem isGather_of_none {w : IWord} (h : vecOp w = 0) : isGather w = false := by simp [isGather, h]

/-- The word has an operation in its address field only. -/
structure OnlyAdr (w : IWord) : Prop where
  sca : scaOp w = 0
  vec : vecOp w = 0
  arr : arrOp w = 0
  tq : tqOp w = 0
  br : brOp w = 0

theorem onlyAdr_of_wordOps {w : IWord} {op : Nat} (h : wordOps w = [0, op, 0, 0, 0, 0]) : OnlyAdr w ∧ adrOp w = op := by
  simp only [wordOps, List.cons.injEq, and_true] at h
  obtain ⟨hsca, hadr, hvec, harr, htq, hbr⟩ := h
  exact ⟨⟨hsca, hvec, harr, htq, hbr⟩, hadr⟩

section
variable {k : CoreId} {w : IWord} {s t : State}

theorem wordEffect_onlyAdr_outside (hw : OnlyAdr w) {r : Nat} (h : adrEffect k w (core s k) s = .outside r) :
    wordEffect k w t s = .outside r := by simp [wordEffect, scaSys, hw.sca, h]

theorem wordEffect_onlyAdr (hw : OnlyAdr w) {aw : Writes} {s1 : State} (h : adrEffect k w (core s k) s = .next (aw, s1)) :
    wordEffect k w t s = .next (finishWord k w (core s k) [.none, aw, .none, .none] false s1) := by
  simp [wordEffect, scaSys, scaWrites, gatherOutside, isGather_of_none hw.vec, vecEffect, arrOutside, arrEffect, tqEffect, hw.sca, hw.vec,
    hw.arr, hw.tq, h]

end

/-! ### The access of a store -/

/-- The update of the base register (R203). -/
def baseWrites (w : IWord) (c : CoreSt) : Writes := if adrF w 35 3 = 0 then .none else .ofS (adrF w 11 5) (adrEa w c).2

/-- The range a store writes. -/
def storeAt (w : IWord) (c : CoreSt) : Nat := (adrEa w c).1.toNat

/-- An unused update mode is ILLEGAL, so the base takes the sum whenever it is written. -/
theorem coreAfter_baseWrites (w : IWord) (c : CoreSt) :
    coreAfter [.none, baseWrites w c, .none, .none] c c = { baseUpdated w c with pc := c.pc + 64 } := by
  unfold coreAfter baseWrites baseUpdated adrEa
  dsimp only [List.foldl]
  by_cases h0 : adrF w 35 3 = 0
  · rw [if_pos h0, if_pos h0]
    rfl
  · rw [if_neg h0, if_neg h0]
    split
    · next h => exact absurd h h0
    · rfl
    · rfl

section
variable {k : CoreId} {w : IWord} {c : CoreSt} {s : State}

theorem adrOp_ne_of_stores (h : adrStores (adrOp w) = true) :
    adrOp w ≠ 0 ∧ adrOp w ≠ 0x18 ∧ adrOp w ≠ 0x22 ∧ adrOp w ≠ 0x20 := by
  simp only [adrStores, Bool.or_eq_true, Bool.and_eq_true, decide_eq_true_eq, beq_iff_eq] at h
  omega

theorem adrEffect_store (hst : adrStores (adrOp w) = true) :
    adrEffect k w c s =
      if decodedRange (storeAt w c) (adrBytes (adrOp w)) = false then .outside 15
      else match writeOutside s (.core k) (storeAt w c) (adrBytes (adrOp w)) with
        | some r => .outside r
        | none => .next (baseWrites w c, busWrite (.core k) (storeAt w c) (adrData w c) s) := by
  obtain ⟨h0, h18, h22, h20⟩ := adrOp_ne_of_stores hst
  simp [adrEffect, adrEffect.oc15, h0, h18, h22, h20, hst, storeAt, baseWrites] <;> rfl

end

/-! ### The command of a store -/

theorem kept_of_issues {k : CoreId} {w : IWord} {s : State} (h : issues s k w = true) : s.Kept := by
  simp only [issues, ready, Bool.and_eq_true, Bool.not_eq_true'] at h
  obtain ⟨⟨⟨⟨⟨⟨⟨⟨⟨⟨⟨⟨⟨hk, -⟩, -⟩, -⟩, -⟩, -⟩, -⟩, -⟩, -⟩, -⟩, -⟩, -⟩, -⟩, -⟩ := h
  exact hk

theorem mayIssue_of_issues {k : CoreId} {w : IWord} {s : State} (h : issues s k w = true) : mayIssue s k = true := by
  simp only [issues, ready, Bool.and_eq_true] at h
  obtain ⟨⟨⟨⟨⟨⟨⟨⟨⟨⟨⟨⟨⟨-, hm⟩, -⟩, -⟩, -⟩, -⟩, -⟩, -⟩, -⟩, -⟩, -⟩, -⟩, -⟩, -⟩ := h
  exact hm

theorem State.leave_settle_broken {s : State} {r : Nat} (h : s.Kept) : (s.leave r).settle.contract.broken = true := by
  rw [State.settle_contract, State.leave_of_kept r h]
  rfl

/-- The state once a store has written its bytes. -/
def stored (k : CoreId) (v : IWord) (s : State) : State :=
  busWrite (.core k) (storeAt v (core s k)) (adrData v (core s k)) (entryState k v s)

/-- The state once a store has written its bytes and its word is complete. -/
def afterStore (k : CoreId) (v : IWord) (s : State) : State :=
  finishWord k v (core s k) [.none, baseWrites v (core s k), .none, .none] false (stored k v s)

theorem core_stored (k : CoreId) (v : IWord) (s : State) (j : Nat) : core (stored k v s) j = core s j :=
  (core_of_cores (busWrite_within.cores rfl) j).trans (core_entryState k v s j)

theorem stored_wf {k : CoreId} {v : IWord} {s : State} (hs : s.wf = true) : (stored k v s).wf = true :=
  busWrite_within.wf (entryState_within.wf hs)

section
variable {c : Instr} {k : CoreId} {v : IWord} {s : State}

/-- A store outside contract leaves the contract; any other performs its write, if the region checker lets it, and completes. -/
theorem exec_store (hc : wordOf c = some (k, v)) (hi : issues s k v = true) (hw : OnlyAdr v) (hst : adrStores (adrOp v) = true) :
    (decodedRange (storeAt v (core s k)) (adrBytes (adrOp v)) = false → exec c s = .next (s.leave 15).settle) ∧
    (decodedRange (storeAt v (core s k)) (adrBytes (adrOp v)) = true →
      (∀ r, writeOutside (entryState k v s) (.core k) (storeAt v (core s k)) (adrBytes (adrOp v)) = some r →
        exec c s = .next (s.leave r).settle) ∧
      (writeOutside (entryState k v s) (.core k) (storeAt v (core s k)) (adrBytes (adrOp v)) = none →
        exec c s = .next (afterStore k v s))) := by
  have hk := kept_of_issues hi
  have hissue := issueWord_of_issues hi
  have hadr := adrEffect_store (k := k) (c := core s k) (s := entryState k v s) hst
  have hout {r : Nat} (h : adrEffect k v (core s k) (entryState k v s) = .outside r) : exec c s = .next (s.leave r).settle :=
    exec_word_outside hc hk (hissue.trans (wordEffect_onlyAdr_outside hw (by rw [core_entryState]; exact h)))
  refine ⟨fun hd => hout (hadr.trans (if_pos hd)), fun hd => ⟨fun r hr => hout ?_, fun hn => ?_⟩⟩
  · rw [hadr, hd, hr]
    rfl
  · refine exec_word_next hc hk (hissue.trans ?_)
    rw [wordEffect_onlyAdr (aw := baseWrites v (core s k)) (s1 := stored k v s) hw]
    · rw [core_entryState]
      rfl
    · rw [core_entryState, hadr, hd, hn]
      rfl

theorem wait_stored (hi : issues s k v = true) : (core (stored k v s) k).wait = .none :=
  (congrArg CoreSt.wait (core_stored k v s k)).trans (wait_of_mayIssue (mayIssue_of_issues hi))

theorem afterStore_within (hs : s.wf = true) (hi : issues s k v = true) (hw : OnlyAdr v) :
    Within 8200 (stored k v s) (afterStore k v s) := finishWord_plain_within (stored_wf hs) (wait_stored hi) hw.br

/-- The end of a store changes nothing of what its write has left but its core, and the registers that an issue may change. -/
theorem afterStore_onlyCore (hs : s.wf = true) (hi : issues s k v = true) (hw : OnlyAdr v) :
    OnlyCore k (stored k v s) (afterStore k v s)
      { baseUpdated v (core s k) with pc := (core s k).pc + 64 } [] := by
  have h := finishWord_plain_onlyCore (k := k) (entry := core s k) (ws := [.none, baseWrites v (core s k), .none, .none])
    (stored_wf hs) (wait_stored hi) hw.br
  rwa [core_stored, coreAfter_baseWrites] at h

theorem afterStore_mem (hs : s.wf = true) (hi : issues s k v = true) (hw : OnlyAdr v) :
    (afterStore k v s).mem = (stored k v s).mem ∧ (afterStore k v s).memGen = (stored k v s).memGen :=
  ⟨(afterStore_within hs hi hw).mem rfl, (afterStore_within hs hi hw).memGen rfl⟩

theorem afterStore_core (hs : s.wf = true) (hi : issues s k v = true) (hw : OnlyAdr v) :
    core (afterStore k v s) k = { baseUpdated v (core s k) with pc := (core s k).pc + 64 } ∧
    ∀ j : CoreId, j ≠ k → core (afterStore k v s) j = core s j := by
  obtain ⟨hcore, hothers, -, -⟩ := afterStore_onlyCore hs hi hw
  exact ⟨hcore, fun j hj => (hothers j hj).trans (core_stored k v s j)⟩

/-- A store changes its own bytes at most (R196). -/
theorem afterStore_byte (hs : s.wf = true) (hi : issues s k v = true) (hw : OnlyAdr v) {x : Nat}
    (hx : x < storeAt v (core s k) ∨ storeAt v (core s k) + (adrData v (core s k)).length ≤ x) :
    (afterStore k v s).byte x = s.byte x := by
  obtain ⟨hmem, hgen⟩ := afterStore_mem hs hi hw
  have hentry : ChangesOnlyBytes (storeAt v (core s k)) (adrData v (core s k)).length s (entryState k v s) :=
    entryState_within.changesOnlyBytes
  rw [State.byte, hmem, hgen]
  exact ((hentry.trans (busWrite_changesOnlyBytes _ _ _ _)) hs).2 x hx

/-- A store to the on-die stores: its bytes are there, and nothing else has changed that the end of a word may not change. -/
theorem afterStore_onDie (hs : s.wf = true) (hi : issues s k v = true) (hw : OnlyAdr v)
    (hok : onDieOk (entryState k v s) k true (storeAt v (core s k)) (adrData v (core s k)).length = true) :
    (afterStore k v s).bytes (storeAt v (core s k)) (adrData v (core s k)).length = adrData v (core s k) ∧
    (∀ x, issueRegs k x = false → (afterStore k v s).rd x = s.rd x) ∧
    ∀ p : Part, p ∉ [.regs, .cores, .trace, .mem] → p.same (arrived k v s) (afterStore k v s) := by
  simp only [onDieOk, Bool.and_eq_true, Bool.not_eq_true'] at hok
  obtain ⟨⟨⟨hacc, hcomp⟩, hwin⟩, -⟩ := hok
  have hput : stored k v s = (entryState k v s).putBytes (storeAt v (core s k)) (adrData v (core s k)) := busWrite_onDie hacc hcomp hwin
  obtain ⟨hmem, hgen⟩ := afterStore_mem hs hi hw
  obtain ⟨-, -, hregs, -⟩ := afterStore_onlyCore hs hi hw
  have harrived : Within 2105384 (arrived k v s) (afterStore k v s) :=
    Within.step (afterStore_within hs hi hw) (by decide)
      (hput ▸ Within.step State.putBytes_within (by decide) (Within.step syncDue_within (by decide) (Within.refl _ _)))
  refine ⟨?_, fun x hx => ?_, harrived.same_of_not_mem (by decide)⟩
  · rw [State.bytes_of_mem hmem hgen, hput, State.bytes_putBytes (entryState_within.wf hs)]
  · rw [hregs x hx (List.not_mem_nil), hput, State.putBytes_rd]
    exact (entryState_changesOnlyRegs k v s (State.wf_regs hs)).2 x hx

end

/-- The event that the region checker reports is a matter of the partition of the agent. -/
theorem regionEvent_selv {ag : Agent} {a : Nat} {wr : Bool} {s t : State} (hp : agentPart t ag = agentPart s ag) (hv : t.selv = s.selv) :
    (regionEvent ag a wr t).selv = (regionEvent ag a wr s).selv := by
  unfold regionEvent
  rw [hp, hv]

theorem corePart_of_warp {s t : State} (h : t.warp = s.warp) (k : Nat) : corePart t k = corePart s k := by
  simp only [corePart, partEntry, h]

/-- A store that the region checker refuses changes no memory and is reported (R490). -/
theorem afterStore_refused {k : CoreId} {v : IWord} {s : State} (hs : s.wf = true) (hi : issues s k v = true) (hw : OnlyAdr v)
    (hacc : accessOk (entryState k v s) (.core k) true (storeAt v (core s k)) (adrData v (core s k)).length = false) :
    (afterStore k v s).mem = s.mem ∧ (afterStore k v s).selv = (regionEvent (.core k) (storeAt v (core s k)) true s).selv := by
  have hev : stored k v s = regionEvent (.core k) (storeAt v (core s k)) true (entryState k v s) := busWrite_refused hacc
  constructor
  · rw [(afterStore_mem hs hi hw).1, hev, regionEvent_within.mem rfl, entryState_within.mem rfl]
  · exact ((afterStore_within hs hi hw).selv rfl).trans (hev ▸ regionEvent_selv (corePart_of_warp (entryState_within.warp rfl) k)
      (entryState_within.selv rfl))

/-! ### The rows of the table -/

/-- A row of the stores: the command, its opcode, its bytes, and the data it takes from its register. -/
abbrev StoreRow := (CoreId → IWord → Instr) × Nat × Nat × (CoreSt → Nat → List Byte)

/-- The row says of its opcode what the model says. -/
structure IsStore (r : StoreRow) : Prop where
  word : ∀ k w, wordOf (r.1 k w) = some (k, withAdr r.2.1 w)
  stores : adrStores r.2.1 = true
  bytes : adrBytes r.2.1 = r.2.2.1
  data : ∀ v c, adrOp v = r.2.1 → adrData v c = r.2.2.2 c (adrF v 16 5)
  length : ∀ c i, (r.2.2.2 c i).length = r.2.2.1

theorem isStore_scalar {cmd : CoreId → IWord → Instr} {op : Nat} (hw : ∀ k w, wordOf (cmd k w) = some (k, withAdr op w))
    (h : op = 8 ∨ op = 9 ∨ op = 10 ∨ op = 11) :
    IsStore (cmd, op, adrBytes op, fun c i => natLe (adrBytes op) (c.sreg i).toNat) where
  word := hw
  stores := by rcases h with rfl | rfl | rfl | rfl <;> rfl
  bytes := rfl
  data v c hv := by rcases h with rfl | rfl | rfl | rfl <;> simp [adrData, hv]
  length c i := natLe_length _ _

theorem isStore_vst : IsStore (.vst, 0x11, 512, fun c i => natLe 512 (c.vreg i).toNat) where
  word _ _ := rfl
  stores := rfl
  bytes := rfl
  data v c hv := by simp [adrData, hv, vBytes]
  length c i := natLe_length _ _

theorem isStore_pst : IsStore (.pst, 0x15, 64, fun c i => natLe 64 (c.preg (i % 8)).toNat) where
  word _ _ := rfl
  stores := rfl
  bytes := rfl
  data v c hv := by simp [adrData, hv]
  length c i := natLe_length _ _

theorem isStore_of_mem {row : StoreRow}
    (h : row ∈ ([(Instr.st8, 0x08, 1, fun c i => natLe 1 (c.sreg i).toNat), (.st16, 0x09, 2, fun c i => natLe 2 (c.sreg i).toNat),
      (.st32, 0x0A, 4, fun c i => natLe 4 (c.sreg i).toNat), (.st64, 0x0B, 8, fun c i => natLe 8 (c.sreg i).toNat),
      (.vst, 0x11, 512, fun c i => natLe 512 (c.vreg i).toNat), (.pst, 0x15, 64, fun c i => natLe 64 (c.preg (i % 8)).toNat)] :
        List StoreRow)) : IsStore row := by
  simp only [List.mem_cons, List.not_mem_nil, or_false] at h
  rcases h with rfl | rfl | rfl | rfl | rfl | rfl
  · exact isStore_scalar (op := 8) (fun _ _ => rfl) (by decide)
  · exact isStore_scalar (op := 9) (fun _ _ => rfl) (by decide)
  · exact isStore_scalar (op := 10) (fun _ _ => rfl) (by decide)
  · exact isStore_scalar (op := 11) (fun _ _ => rfl) (by decide)
  · exact isStore_vst
  · exact isStore_pst

/-- Settles O30: each row is a store, and a store is performed, refused or outside contract. -/
theorem stores : Obligations.Stores := by
  intro k w s hs row hrow
  have hrow := isStore_of_mem hrow
  extract_lets v c ea n
  intro hi hops
  obtain ⟨hw, hop⟩ := onlyAdr_of_wordOps hops
  have hn : adrBytes (adrOp v) = n := by rw [hop]; exact hrow.bytes
  have hdata : adrData v c = row.2.2.2 c (adrF v 16 5) := hrow.data v c hop
  have hlen : (adrData v c).length = n := by rw [hdata]; exact hrow.length _ _
  obtain ⟨hundecoded, hdecoded⟩ := exec_store (hrow.word k w) hi hw (by rw [hop]; exact hrow.stores)
  rw [hn] at hundecoded hdecoded
  have hk := kept_of_issues hi
  obtain ⟨hcore, hothers⟩ := afterStore_core hs hi hw
  refine ⟨fun hin hok => ?_, fun hin hd hacc => ?_, fun hd => (hdecoded hd).1, fun t ht he a ha => ?_⟩
  · obtain ⟨hbytes, hregs, hparts⟩ := afterStore_onDie hs hi hw (by rw [hlen]; exact hok)
    have hd : decodedRange ea n = true := by
      simp only [onDieOk, Bool.and_eq_true] at hok
      exact hok.2
    refine ⟨_, (hdecoded hd).2 hin, ?_, hcore, hothers, hregs, hparts⟩
    rw [← hdata, ← hlen]
    exact hbytes
  · obtain ⟨hmem, hselv⟩ := afterStore_refused hs hi hw (by rw [hlen]; exact hacc)
    exact ⟨_, (hdecoded hd).2 hin, hcore, hmem, hselv⟩
  · have hleft {r : Nat} (h : exec (row.1 k w) s = .next (s.leave r).settle) : t.byte a = s.byte a := by
      have e : t = (s.leave r).settle := Host.Outcome.next.inj (he.symm.trans h)
      rw [State.Kept, e, State.leave_settle_broken hk] at ht
      exact absurd ht (by simp)
    cases hd : decodedRange ea n with
    | false => exact hleft (hundecoded hd)
    | true =>
      cases hin : writeOutside (entryState k v s) (.core k) ea n with
      | some r => exact hleft ((hdecoded hd).1 r hin)
      | none =>
        have e : t = afterStore k v s := Host.Outcome.next.inj (he.symm.trans ((hdecoded hd).2 hin))
        rw [e]
        exact afterStore_byte hs hi hw (by rw [hlen]; exact ha)

end Sys2Proof.Machine
end

section
/-! SUPPORT. Moves of embedding rows (R10, R420, R454): what a read of memory leaves in the registers, and how a move begins, goes
on and ends. -/

namespace Sys2Proof.Machine

/-! ### Fields that a read of memory leaves -/

/-- From a canonical register file to another, a field has kept its value. -/
def KeepsFld (x lo n : Nat) (s t : State) : Prop := RegsOk s → RegsOk t ∧ t.fld x lo n = s.fld x lo n

/-- A field of a register that a read of companion memory or of a command window does not count in: it changes the registers of
the channels that count bad and unavailable words (R376, R377, R379), and bits 6 and 7 of MEM_STATUS. -/
def NotCounted (x lo n : Nat) : Prop :=
  x % 0x10000 ∉ [0x30, 0x34, 0x38, 0x40, 0x44, 0x54] ∧ (x % 0x10000 = 4 → lo + n ≤ 6)

section
variable {x lo n : Nat} {s t u : State}

theorem KeepsFld.of_regs (h : t.regs = s.regs) : KeepsFld x lo n s t := fun w =>
  ⟨by rw [RegsOk, h]; exact w, State.fld_of_rd (State.rd_of_regs h x) lo n⟩

theorem KeepsFld.trans (h : KeepsFld x lo n s t) (h' : KeepsFld x lo n t u) : KeepsFld x lo n s u := by
  intro w
  obtain ⟨wt, ht⟩ := h w
  obtain ⟨wu, hu⟩ := h' wt
  exact ⟨wu, hu.trans ht⟩

theorem wr_keepsFld {a : Nat} {v : W32} (h : x ≠ a) : KeepsFld x lo n s (s.wr a v) := fun w =>
  ⟨regsOk_wr w, State.fld_of_rd (State.rd_wr_ne w h) lo n⟩

theorem putB_keepsFld {a i : Nat} {b : Bool} (h : x = a → lo + n ≤ i) : KeepsFld x lo n s (s.putB a i b) := by
  by_cases e : x = a
  · subst e
    exact fun w => ⟨regsOk_putB w, State.fld_putB_ne w (.inl (h rfl))⟩
  · exact wr_keepsFld e

theorem foldl_keepsFld {α : Type} {f : State → α → State} {l : List α} (h : ∀ y s, KeepsFld x lo n s (f s y)) (s : State) :
    KeepsFld x lo n s (l.foldl f s) := by
  induction l generalizing s with
  | nil => exact .of_regs rfl
  | cons y l ih =>
    rw [List.foldl_cons]
    exact (h y s).trans (ih (f s y))

variable (h : NotCounted x lo n)
include h

theorem memUnavail_keepsFld (c : Nat) (s : State) :
    KeepsFld x lo n s (if chanAvail s c then s else s.sat (Reg.memUnavail c)) := by
  split
  · exact .of_regs rfl
  · refine wr_keepsFld fun e => h.1 ?_
    have : x % 0x10000 = 0x54 := by rw [e, Reg.memUnavail]; omega
    simp [this]

theorem countUnavail_keepsFld (a m : Nat) (s : State) : KeepsFld x lo n s (countUnavail a m s) :=
  foldl_keepsFld (fun b t => memUnavail_keepsFld h (chanOf t b).1 t) s

/-- A bad word is counted, noted in MEM_STATUS and reported. -/
theorem noteBad_keepsFld {c cnt : Nat} (hcnt : x ≠ cnt) (bit v : Nat) (hbit : 6 ≤ bit) (s : State) :
    KeepsFld x lo n s (((s.sat cnt).putB (Reg.memStatus c) bit true).wrQ (Reg.memEccLast c) 2 v) := by
  have hstatus : x = Reg.memStatus c → lo + n ≤ bit := fun e => by
    have := h.2 (by rw [e, Reg.memStatus]; omega)
    omega
  have hlast : x ≠ Reg.memEccLast c := fun e => h.1 (by
    have : x % 0x10000 = 0x40 := by rw [e, Reg.memEccLast]; omega
    simp [this])
  have hlast4 : x ≠ Reg.memEccLast c + 4 := fun e => h.1 (by
    have : x % 0x10000 = 0x44 := by rw [e, Reg.memEccLast]; omega
    simp [this])
  exact (((wr_keepsFld hcnt).trans (putB_keepsFld hstatus)).trans (wr_keepsFld hlast)).trans (wr_keepsFld hlast4)

theorem noteWord_keepsFld (w : Nat) (s : State) : KeepsFld x lo n s (noteWord w s) := by
  have hce (c : Nat) : x ≠ Reg.memEccCe c := fun e => h.1 (by
    have : x % 0x10000 = 0x30 := by rw [e, Reg.memEccCe]; omega
    simp [this])
  have hue (c : Nat) : x ≠ Reg.memEccUe c := fun e => h.1 (by
    have : x % 0x10000 = 0x34 := by rw [e, Reg.memEccUe]; omega
    simp [this])
  have hpoison (c : Nat) : x ≠ Reg.memEccPoison c := fun e => h.1 (by
    have : x % 0x10000 = 0x38 := by rw [e, Reg.memEccPoison]; omega
    simp [this])
  unfold noteWord
  dsimp only
  split
  · exact .of_regs rfl
  · exact wr_keepsFld (hce _)
  · exact (noteBad_keepsFld h (hue _) 6 _ (by decide) s).trans (.of_regs rfl)
  · exact (noteBad_keepsFld h (hpoison _) 7 _ (by decide) s).trans (.of_regs rfl)

theorem noteWords_keepsFld (m w : Nat) (s : State) : KeepsFld x lo n s (noteWords w m s) := by
  induction m generalizing w s with
  | zero => exact .of_regs rfl
  | succ m ih =>
    rw [noteWords]
    refine KeepsFld.trans ?_ (ih _ _)
    split
    · exact noteWord_keepsFld h w s
    · exact .of_regs rfl

theorem devRead_keepsFld (a m : Nat) (s : State) : KeepsFld x lo n s (devRead a m s).2 := by
  unfold devRead
  split
  · exact (countUnavail_keepsFld h a m s).trans (noteWords_keepsFld h _ _ _)
  · split
    · exact foldl_keepsFld (fun b t => memUnavail_keepsFld h (((if b < a then a else b) - winBase) / 0x100000) t) s
    · exact .of_regs rfl

theorem busRead_keepsFld (ag : Agent) (a m : Nat) (s : State) : KeepsFld x lo n s (busRead ag a m s).2 := by
  unfold busRead
  split
  · exact (KeepsFld.of_regs (meterCharge_within.regs rfl)).trans (devRead_keepsFld h a m _)
  · exact .of_regs (regionEvent_within.regs rfl)

end

theorem State.bit_of_fld {s t : State} {a i : Nat} (h : t.fld a i 1 = s.fld a i 1) : t.bit a i = s.bit a i := by
  simp only [State.fld, fieldN, Nat.pow_one] at h
  simp only [State.bit, Nat.testBit_eq_decide_div_mod_eq, h]

theorem notCounted_route (i : Nat) (h : i < 16) : NotCounted (Reg.linkRoute i) 0 8 := by
  have e : Reg.linkRoute i % 0x10000 = 0x8000 + 4 * i := by rw [Reg.linkRoute]; omega
  refine ⟨fun hm => ?_, fun h4 => by omega⟩
  simp only [List.mem_cons, List.not_mem_nil, or_false] at hm
  omega

theorem notCounted_linkStatus (l : Nat) : NotCounted (Reg.linkStatus l) 0 2 := by
  have e : Reg.linkStatus l % 0x10000 = 4 := by rw [Reg.linkStatus]; omega
  exact ⟨by simp [e], fun _ => by decide⟩

theorem notCounted_moveCtrl : NotCounted Reg.embMoveCtrl 0 1 := ⟨by decide, by decide⟩

end Sys2Proof.Machine
end

section
/-! SUPPORT. Moves of embedding rows (R10, R420, R454), from the command that begins one to its acknowledgement or its timeout. -/

namespace Sys2Proof.Machine

/-! ### The end of a move -/

/-- A move has ended well: go reads 0, and the result is 0. -/
def MoveEnded (t : State) : Prop :=
  moveRuns t = false ∧ t.emb.move = none ∧ t.fld Reg.embMoveStatus 0 4 = 0 ∧ t.bit Reg.embMoveStatus 4 = true

theorem MoveEnded.of_same {s t : State} (hr : t.regs = s.regs) (he : t.emb = s.emb) (h : MoveEnded s) : MoveEnded t := by
  obtain ⟨hruns, hmove, hcode, hdone⟩ := h
  have hrd := State.rd_of_regs hr
  exact ⟨(State.bit_of_rd (hrd _) 0).trans hruns, by rw [he, hmove], (State.fld_of_rd (hrd _) 0 4).trans hcode,
    (State.bit_of_rd (hrd _) 4).trans hdone⟩

theorem moveEnd_emb (code : Nat) (s : State) : (moveEnd code s).emb = { s.emb with move := none } := by rfl

theorem moveEnd_zero_ended {s : State} (w : RegsOk s) : MoveEnded (moveEnd 0 s) := by
  have w1 : RegsOk ({ s with emb := { s.emb with move := none } }.putB Reg.embMoveCtrl 0 false) := regsOk_putB w
  have hctrl : (moveEnd 0 s).rd Reg.embMoveCtrl =
      ({ s with emb := { s.emb with move := none } }.putB Reg.embMoveCtrl 0 false).rd Reg.embMoveCtrl :=
    (State.rd_putB_ne (regsOk_putF w1) (by decide)).trans (State.rd_putF_ne w1 (by decide))
  refine ⟨(State.bit_of_rd hctrl 0).trans (State.bit_putB_same w (by decide)), congrArg Emb.move (moveEnd_emb 0 s), ?_, ?_⟩
  · exact (State.fld_putB_ne (regsOk_putF w1) (by decide)).trans (State.fld_putF_same w1 (by decide))
  · exact State.bit_putB_same (regsOk_putF w1) (by decide)

/-- The redirects once the row of a move is elsewhere. -/
def redirected (mv : Move) (rs : List Redirect) : List Redirect :=
  (rs.filter fun r => ¬ (r.table = mv.table ∧ r.vslot = mv.vslot ∧ r.row = mv.row)) ++
    [⟨mv.table, mv.vslot, mv.row, mv.chip, mv.slot⟩]

/-- The state in which the directory entry of a moved row has been rewritten. -/
def moveNamed (x : EmbTab) (mv : Move) (s : State) : State :=
  let r := busRead .host (x.addr mv.vslot 0 + 8 * mv.row) 8 s
  let w := leNat r.1
  engWrite [] .host (x.addr mv.vslot 0 + 8 * mv.row)
    (natLe 8 (fieldN w 0 2 + 4 * mv.chip + 2 ^ 6 * fieldN w 6 2 + 2 ^ 8 * mv.slot + 2 ^ 40 * fieldN w 40 24)) r.2

theorem moveInstall_eq (x : EmbTab) (mv : Move) (s : State) :
    moveInstall x mv s = moveEnd 0 (({ moveNamed x mv s with emb := { (moveNamed x mv s).emb with
      redirects := redirected mv (moveNamed x mv s).emb.redirects } }).wrN Reg.embRedirUsed
        (redirected mv (moveNamed x mv s).emb.redirects).length) := by rfl

theorem moveNamed_within {x : EmbTab} {mv : Move} {s : State} : Within 134365352 s (moveNamed x mv s) :=
  Within.step engWrite_within (by decide) (Within.step busRead_within (by decide) (Within.refl _ _))

theorem moveInstall_ended {x : EmbTab} {mv : Move} {s : State} (w : s.wf = true) : MoveEnded (moveInstall x mv s) := by
  rw [moveInstall_eq]
  exact moveEnd_zero_ended (regsOk_wr (State.wf_regs (moveNamed_within.wf w)))

theorem moveInstall_emb (x : EmbTab) (mv : Move) (s : State) :
    (moveInstall x mv s).emb = { s.emb with redirects := redirected mv s.emb.redirects, move := none } := by
  rw [moveInstall_eq, moveEnd_emb, State.wrN_within.emb rfl]
  dsimp only
  rw [moveNamed_within.emb rfl]

/-- Work waits for a move only where there is work. -/
theorem resumeWaiting_no_jobs {mv : Move} {ok : Bool} {s : State} (h : s.emb.jobs = []) : resumeWaiting mv ok s = s := by
  rw [resumeWaiting, h]
  rfl

/-! ### The start of a move -/

/-- The move that the registers describe. -/
def goMove (s : State) : Move :=
  ⟨s.fld Reg.embMoveTable 0 8, s.fld Reg.embMoveTable 8 2, (s.rd Reg.embMoveRow).toNat, s.fld Reg.embMoveDst 0 4,
    (s.rd Reg.embMoveDstSlot).toNat, s.emb.moveNum + 1⟩

theorem goMove_putB {s : State} (w : RegsOk s) : goMove (s.putB Reg.embMoveCtrl 0 true) = goMove s := by
  have h (a : Nat) (ha : a ≠ Reg.embMoveCtrl) : (s.putB Reg.embMoveCtrl 0 true).rd a = s.rd a := State.rd_putB_ne w ha
  have he : (s.putB Reg.embMoveCtrl 0 true).emb = s.emb := State.putB_within.emb rfl
  simp only [goMove, State.fld, h Reg.embMoveTable (by decide), h Reg.embMoveRow (by decide), h Reg.embMoveDst (by decide),
    h Reg.embMoveDstSlot (by decide), he]

section
variable {s : State} {x : EmbTab} {mv : Move} (hr : moveRuns s = true) (hm : s.emb.move = none) (hmv : goMove s = mv)
include hr hm hmv

theorem moveStart_undescribed (hx : embTab s mv.table = none) : moveStart s = moveEnd 1 s := by
  subst hmv
  rw [goMove] at hx
  simp [moveStart, hr, hm, hx]

theorem moveStart_no_row (hx : embTab s mv.table = some x) (hrow : x.rows ≤ mv.row) : moveStart s = moveEnd 1 s := by
  subst hmv
  rw [goMove] at hx hrow
  simp [moveStart, hr, hm, hx, hrow]

theorem moveStart_of_row (hx : embTab s mv.table = some x) (hrow : mv.row < x.rows) :
    moveStart s =
      let rs := moveRanges s x mv (dirRead .host x mv.vslot mv.row s).1
      if engWaits s rs then engHold rs s
      else
        let r := dirRead .host x mv.vslot mv.row (engGo rs s)
        if r.1.tier = 3 ∨ r.1.chip ≠ r.2.warp.chip then moveEnd 1 r.2
        else if 1024 ≤ r.2.emb.redirects.length then moveEnd 2 r.2
        else moveCopy x mv r.1 r.2 := by
  subst hmv
  have hrow := Nat.not_le.mpr hrow
  simp only [goMove] at hx hrow ⊢
  simp only [moveStart, hr, hm, hx, hrow, Bool.not_true, Option.isSome_none, Bool.or_self, Bool.false_eq_true, if_false] <;>
    rfl

end

/-! ### The copy of the row -/

/-- The message that carries the row of a move to another chip. -/
def moveMsg (s : State) (mv : Move) (tier : Nat) (body : List Byte) : MoveMsg :=
  ⟨BitVec.ofNat 4 mv.chip, BitVec.ofNat 4 s.warp.chip, BitVec.ofNat 8 mv.table, ⟨mv.vslot % 4, Nat.mod_lt _ (by decide)⟩,
    BitVec.ofNat 32 mv.row, BitVec.ofNat 32 mv.slot, BitVec.ofNat 2 tier, mv.num, body⟩

section
variable {x : EmbTab} {mv : Move} {d : DirEnt} {s : State} {body : List Byte × State}
  (hbody : busRead .host (x.row mv.vslot d.tier d.slot) (x.stride d.tier) s = body)
include hbody

theorem moveCopy_own (h : mv.chip = body.2.warp.chip) :
    moveCopy x mv d s = moveInstall x mv (engWrite [] .host (x.row mv.vslot d.tier mv.slot) body.1
      { body.2 with emb := { body.2.emb with moveNum := mv.num } }) := by
  rw [moveCopy, hbody]
  exact if_pos h

theorem moveCopy_sent (h : mv.chip ≠ body.2.warp.chip) {l : Nat} (hl : routeOf body.2 mv.chip = some l) :
    moveCopy x mv d s =
      let t := putTx l ⟨2, 32 + body.1.length, 0, none, .move mv.chip (moveMsg body.2 mv d.tier body.1), none⟩
        { body.2 with emb := { body.2.emb with moveNum := mv.num } }
      { t with emb := { t.emb with move := some mv } } := by
  have hroute : routeOf { body.2 with emb := { body.2.emb with moveNum := mv.num } } mv.chip = some l := hl
  rw [moveCopy, hbody]
  dsimp only
  rw [if_neg h, sendTo, hroute]
  rfl

end

/-- Reading the key just written gives the value written, in any table, if it is not what an unlisted key holds. -/
theorem Tab.get_set_listed {α : Type} [DecidableEq α] {d : Nat → α} {i : Nat} {v : α} (hv : v ≠ d i) (t : Tab α) :
    Tab.get d (Tab.set d t i v) i = v := by
  have hcons (t : Tab α) : Tab.get d (Tab.cons d i v t) i = v := by simp [Tab.cons, hv, Tab.get]
  induction t with
  | nil => exact hcons []
  | cons e t ih =>
    obtain ⟨k, x⟩ := e
    unfold Tab.set
    split
    · exact hcons _
    · split
      · exact hcons t
      · next hlt hne => rw [Tab.get, if_neg hlt, if_neg hne, ih]

/-- A message queued on an ENABLED link stands behind those that wait there. -/
theorem link_putTx {s : State} {l : Nat} (h : linkState s l = 1) (m : TxMsg) : (link (putTx l m s) l).tx = (link s l).tx ++ [m] := by
  have hne : { link s l with tx := (link s l).tx ++ [m] } ≠ Link.down := fun e => by simpa [Link.down] using congrArg Link.tx e
  have hput : putTx l m s = setLink s l { link s l with tx := (link s l).tx ++ [m] } := if_pos (by simp [h])
  have hget : link (setLink s l { link s l with tx := (link s l).tx ++ [m] }) l = { link s l with tx := (link s l).tx ++ [m] } :=
    Tab.get_set_listed hne s.chain.links
  rw [hput, hget]

theorem link_of_chain {s t : State} (h : t.chain = s.chain) (l : Nat) : link t l = link s l := by rw [link, h, link]

theorem routeOf_of_fld {s t : State} {c : Nat} (h : t.fld (Reg.linkRoute (c % 16)) 0 8 = s.fld (Reg.linkRoute (c % 16)) 0 8) :
    routeOf t c = routeOf s c := by simp only [routeOf, h]

/-- Routes, the states of links and the move in progress are as a read of memory finds them. -/
structure SameRoutes (s t : State) : Prop where
  regs : RegsOk t
  route : ∀ c, routeOf t c = routeOf s c
  link : ∀ l, linkState t l = linkState s l
  runs : moveRuns t = moveRuns s

theorem SameRoutes.of_keepsFld {s t : State} (w : RegsOk s) (h : ∀ {y lo n}, NotCounted y lo n → KeepsFld y lo n s t) :
    SameRoutes s t where
  regs := (h notCounted_moveCtrl w).1
  route c := routeOf_of_fld (h (notCounted_route (c % 16) (Nat.mod_lt c (by decide))) w).2
  link l := (h (notCounted_linkStatus l) w).2
  runs := State.bit_of_fld (h notCounted_moveCtrl w).2

theorem SameRoutes.of_regs {s t : State} (w : RegsOk s) (h : t.regs = s.regs) : SameRoutes s t :=
  .of_keepsFld w fun _ => .of_regs h

theorem SameRoutes.trans {s t u : State} (h : SameRoutes s t) (h' : SameRoutes t u) : SameRoutes s u where
  regs := h'.regs
  route c := (h'.route c).trans (h.route c)
  link l := (h'.link l).trans (h.link l)
  runs := h'.runs.trans h.runs

theorem busRead_sameRoutes {s : State} (w : RegsOk s) (ag : Agent) (a n : Nat) : SameRoutes s (busRead ag a n s).2 :=
  .of_keepsFld w fun h => busRead_keepsFld h ag a n s

theorem dirRead_sameRoutes {s : State} (w : RegsOk s) (ag : Agent) (x : EmbTab) (v row : Nat) : SameRoutes s (dirRead ag x v row s).2 :=
  busRead_sameRoutes w ag (x.addr v 0 + 8 * row) 8

theorem putB_moveCtrl_sameRoutes {s : State} (w : RegsOk s) :
    (∀ c, routeOf (s.putB Reg.embMoveCtrl 0 true) c = routeOf s c) ∧
    ∀ l, linkState (s.putB Reg.embMoveCtrl 0 true) l = linkState s l := by
  refine ⟨fun c => routeOf_of_fld (State.fld_of_rd (State.rd_putB_ne w ?_) 0 8), fun l => State.fld_of_rd (State.rd_putB_ne w ?_) 0 2⟩
  · rw [Reg.linkRoute, Reg.embMoveCtrl]
    omega
  · rw [Reg.linkStatus, Reg.embMoveCtrl]
    omega

/-- A row whose move has read `body` leaves for its destination: the message waits on the link of its route, and the move waits for
its answer. -/
theorem moveCopy_sent_effect {x : EmbTab} {mv : Move} {d : DirEnt} {s : State} {body : List Byte × State} {l : Nat} (w : RegsOk s)
    (hbody : busRead .host (x.row mv.vslot d.tier d.slot) (x.stride d.tier) s = body) (h : mv.chip ≠ s.warp.chip)
    (hl : routeOf s mv.chip = some l) (hup : linkState s l = 1) :
    (moveCopy x mv d s).mem = s.mem ∧ moveRuns (moveCopy x mv d s) = moveRuns s ∧
    (moveCopy x mv d s).emb = { s.emb with moveNum := mv.num, move := some mv } ∧
    (link (moveCopy x mv d s) l).tx = (link s l).tx ++
      [⟨2, 32 + body.1.length, 0, none, .move mv.chip (moveMsg body.2 mv d.tier body.1), none⟩] := by
  have hin : Within 131080 s body.2 := hbody ▸ busRead_within
  have hroutes : SameRoutes s body.2 := hbody ▸ busRead_sameRoutes w .host _ _
  rw [← hin.warp rfl] at h
  rw [moveCopy_sent hbody h ((hroutes.route mv.chip).trans hl)]
  generalize moveMsg body.2 mv d.tier body.1 = m
  generalize hu : ({ body.2 with emb := { body.2.emb with moveNum := mv.num } } : State) = u
  have hmem : u.mem = s.mem := hu ▸ hin.mem rfl
  have hregs : u.regs = body.2.regs := by rw [← hu]
  have hchain : u.chain = s.chain := hu ▸ hin.chain rfl
  have hemb : u.emb = { s.emb with moveNum := mv.num } := by rw [← hu, ← hin.emb rfl]
  have hlink : linkState u l = 1 := (State.fld_of_rd (State.rd_of_regs hregs _) 0 2).trans ((hroutes.link l).trans hup)
  generalize ht : putTx l ⟨2, 32 + body.1.length, 0, none, .move mv.chip m, none⟩ u = t
  have hput : Within 65536 u t := ht ▸ putTx_within
  have hrd : t.rd Reg.embMoveCtrl = body.2.rd Reg.embMoveCtrl := State.rd_of_regs ((hput.regs rfl).trans hregs) _
  have hsent : (link t l).tx = (link s l).tx ++ [⟨2, 32 + body.1.length, 0, none, .move mv.chip m, none⟩] := by
    rw [← ht, link_putTx hlink, link_of_chain hchain]
  refine ⟨(hput.mem rfl).trans hmem, (State.bit_of_rd hrd 0).trans hroutes.runs, ?_, hsent⟩
  dsimp only
  rw [hput.emb rfl, hemb]

/-! ### The command that begins a move -/

section
variable {s : State} (hk : s.Kept)
include hk

theorem exec_embMoveGo_busy (w : s.wf = true) (ho : hostOpen s = true) (hr : moveRuns s = true) :
    ∃ t, exec .embMoveGo s = .next t ∧ t.fld Reg.embMoveStatus 0 4 = 3 ∧ moveRuns t = true ∧
      (∀ a, a ≠ Reg.embMoveStatus → t.rd a = s.rd a) ∧ ∀ p : Part, p ≠ .regs → p.same s t := by
  have hregs := State.wf_regs w
  have hin : Within 8 s (s.putF Reg.embMoveStatus 0 4 3) := State.putF_within
  have hrd (a : Nat) (h : a ≠ Reg.embMoveStatus) : (s.putF Reg.embMoveStatus 0 4 3).rd a = s.rd a := State.rd_putF_ne hregs h
  refine ⟨_, inContract_kept (f := execEmbMoveGo) hk ((hin.contract rfl).symm ▸ hk) ?_, State.fld_putF_same hregs (by decide),
    (State.bit_of_rd (hrd _ (by decide)) 0).trans hr, hrd,
    fun p hp => hin.same_of_not_mem (l := [.regs]) (by decide) p (by simpa using hp)⟩
  rw [execEmbMoveGo, hostWrite_of_takes ho, if_pos hr]

theorem exec_embMoveGo_idle (ho : hostOpen s = true) (hr : moveRuns s = false) :
    exec .embMoveGo s = .next (moveStart (s.putB Reg.embMoveCtrl 0 true)).settle := by
  refine inContract_next (f := execEmbMoveGo) hk ?_
  rw [execEmbMoveGo, hostWrite_of_takes ho, if_neg (by simp [hr])]

end

end Sys2Proof.Machine
end

section
/-! SUPPORT. The statement on the moves of embedding rows (R10, R420, R454). -/

namespace Sys2Proof.Machine

/-! ### The message of a move and its answer -/

theorem engAccess_go {s : State} {rs : EngRanges} (h : engWaits s rs = false) (f : State → Res State) :
    engAccess s rs f = f (engGo rs s) := if_neg (by simp [h])

theorem embTab_of_emb {s t : State} (h : t.emb = s.emb) (n : Nat) : embTab t n = embTab s n := by rw [embTab, h, embTab]

section
variable {s : State} {m : MoveMsg}

theorem execEmbMoveMessage_forwards (h : m.dst.toNat ≠ s.warp.chip) (ht : s.tclk = true) :
    execEmbMoveMessage m s =
      .next (msgTakenAny 2 (forwardTo m.dst.toNat 2 (32 + m.body.length) (.move m.dst.toNat m) s)) := by
  rw [execEmbMoveMessage, if_pos h, onlyIf, if_pos ht]

theorem execEmbMoveMessage_undescribed (h : m.dst.toNat = s.warp.chip) (hc : s.cclk = true) (hx : embTab s m.table.toNat = none) :
    execEmbMoveMessage m s = .next (msgTakenAny 2 (sendTo m.src.toNat 2 32 (.moveAck m.src.toNat m.num true) none s).2) := by
  rw [execEmbMoveMessage, if_neg (not_not_intro h), if_neg (by simp [hc]), hx]
  dsimp only
  rw [engAccess_go rfl, engGo, List.foldl_nil, moveStore, hx]

variable {x : EmbTab}

/-- A row for this chip is stored, and answered, once the access to its place need not wait. -/
theorem execEmbMoveMessage_stores (h : m.dst.toNat = s.warp.chip) (hc : s.cclk = true) (hx : embTab s m.table.toNat = some x)
    (hw : engWaits s [(.chain, x.row m.vslot m.tier.toNat m.dstSlot.toNat, x.stride m.tier.toNat)] = false) {t : State}
    (ht : engGo [(.chain, x.row m.vslot m.tier.toNat m.dstSlot.toNat, x.stride m.tier.toNat)] s = t) {refused : Bool} {u : State}
    (hu : moveStore m t = (refused, u)) :
    execEmbMoveMessage m s =
      .next (msgTakenAny 2 (sendTo m.src.toNat 2 32 (.moveAck m.src.toNat m.num refused) none u).2) := by
  rw [execEmbMoveMessage, if_neg (not_not_intro h), if_neg (by simp [hc]), hx]
  dsimp only
  rw [engAccess_go hw, ht, hu]

theorem moveStore_absent (hx : embTab s m.table.toNat = some x) (h : m.tier = 3) : moveStore m s = (true, s) := by
  simp [moveStore, hx, h]

theorem moveStore_tier (hx : embTab s m.table.toNat = some x) (h : m.tier ≠ 3) :
    moveStore m s = (!accessOk s .chain true (x.row m.vslot m.tier.toNat m.dstSlot.toNat) (x.stride m.tier.toNat),
      engWrite [] .chain (x.row m.vslot m.tier.toNat m.dstSlot.toNat) (fit (x.stride m.tier.toNat) m.body) s) := by
  rw [moveStore, hx]
  exact if_neg h

end

section
variable {s : State} {mv : Move} {dst : BitVec 4} {num : BitVec 32} {refused : Bool}

theorem execMoveAck_forwards (h : dst.toNat ≠ s.warp.chip) (ht : s.tclk = true) :
    execMoveAck dst num refused s = .next (msgTakenAny 2 (forwardTo dst.toNat 2 32 (.moveAck dst.toNat num refused) s)) := by
  rw [execMoveAck, if_pos h, onlyIf, if_pos ht]

theorem execMoveAck_late (h : dst.toNat = s.warp.chip) (hc : s.cclk = true) (hm : s.emb.move = some mv) (hn : mv.num ≠ num) :
    execMoveAck dst num refused s = .next (msgTakenAny 2 s) := by
  rw [execMoveAck, if_neg (not_not_intro h), if_neg (by simp [hc]), hm]
  exact if_pos hn

/-- The answer that the move waits for goes to the move, once the accesses of the work that it held up need not wait. -/
theorem execMoveAck_answers (h : dst.toNat = s.warp.chip) (hc : s.cclk = true) (hm : s.emb.move = some mv) (hn : mv.num = num)
    {t : State} (ht : engGo (resumeRanges s mv (!refused)) s = t) (hw : engWaits s (resumeRanges s mv (!refused)) = false) :
    execMoveAck dst num refused s =
      .next (msgTakenAny 2 (if refused then resumeWaiting mv false (moveEnd 4 t)
        else match embTab t mv.table with
          | none => moveEnd 4 t
          | some x => resumeWaiting mv true (moveInstall x mv t))) := by
  subst ht
  rw [execMoveAck, if_neg (not_not_intro h), if_neg (by simp [hc]), hm]
  exact (if_neg (not_not_intro hn)).trans (engAccess_go hw _)

theorem execMoveAck_refused (h : dst.toNat = s.warp.chip) (hc : s.cclk = true) (hm : s.emb.move = some mv) (hn : mv.num = num)
    (hw : engWaits s (resumeRanges s mv false) = false) :
    execMoveAck dst num true s = .next (msgTakenAny 2 (resumeWaiting mv false (moveEnd 4 (engGo (resumeRanges s mv false) s)))) :=
  execMoveAck_answers h hc hm hn rfl hw

theorem execMoveAck_good {x : EmbTab} (h : dst.toNat = s.warp.chip) (hc : s.cclk = true) (hm : s.emb.move = some mv) (hn : mv.num = num)
    (hw : engWaits s (resumeRanges s mv true) = false) (hx : embTab s mv.table = some x) :
    execMoveAck dst num false s =
      .next (msgTakenAny 2 (resumeWaiting mv true (moveInstall x mv (engGo (resumeRanges s mv true) s)))) := by
  have htab : embTab (engGo (resumeRanges s mv true) s) mv.table = some x := (embTab_of_emb (engGo_within.emb rfl) _).trans hx
  rw [execMoveAck_answers (refused := false) h hc hm hn rfl hw]
  simp only [Bool.not_false, htab]
  rfl

/-- A good answer ends the move with its redirect, and with no work waiting does nothing else. -/
theorem moveAck_installs {x : EmbTab} (w : s.wf = true) (hj : s.emb.jobs = []) (rs : EngRanges) :
    let t := msgTakenAny 2 (resumeWaiting mv true (moveInstall x mv (engGo rs s)))
    MoveEnded t ∧ t.emb.redirects = redirected mv s.emb.redirects := by
  have hgo : (engGo rs s).emb = s.emb := engGo_within.emb rfl
  have hemb := moveInstall_emb x mv (engGo rs s)
  rw [hgo] at hemb
  have hidle : resumeWaiting mv true (moveInstall x mv (engGo rs s)) = moveInstall x mv (engGo rs s) :=
    resumeWaiting_no_jobs (by rw [hemb, hj])
  intro t
  have ht : Within 67174400 (moveInstall x mv (engGo rs s)) t := by
    rw [← hidle]
    exact msgTakenAny_within
  refine ⟨.of_same (ht.regs rfl) (ht.emb rfl) (moveInstall_ended (engGo_within.wf w)), ?_⟩
  rw [ht.emb rfl, hemb]

theorem execEmbMoveTimeout_ends (ht : s.tclk = true) (hm : s.emb.move = some mv) (hw : engWaits s (resumeRanges s mv false) = false) :
    execEmbMoveTimeout s = .next (resumeWaiting mv false (moveEnd 4 (engGo (resumeRanges s mv false) s))) := by
  rw [execEmbMoveTimeout, hm]
  exact (if_pos ht).trans (engAccess_go hw _)

end

/-! ### The command that begins a move -/

/-- A move within the chip copies the row and ends with its redirect (R420). -/
theorem moveCopy_own_ended {x : EmbTab} {mv : Move} {d : DirEnt} {s : State} {body : List Byte × State} (w : s.wf = true)
    (hbody : busRead .host (x.row mv.vslot d.tier d.slot) (x.stride d.tier) s = body) (h : mv.chip = s.warp.chip) :
    MoveEnded (moveCopy x mv d s) ∧ (moveCopy x mv d s).emb.redirects = redirected mv s.emb.redirects := by
  have hin : Within 131080 s body.2 := hbody ▸ busRead_within
  rw [← hin.warp rfl] at h
  rw [moveCopy_own hbody h]
  generalize hu : ({ body.2 with emb := { body.2.emb with moveNum := mv.num } } : State) = u
  have wu : u.wf = true := hu ▸ hin.wf w
  have hred : u.emb.redirects = s.emb.redirects := by rw [← hu, ← hin.emb rfl]
  refine ⟨moveInstall_ended (engWrite_within.wf wu), ?_⟩
  rw [moveInstall_emb, engWrite_within.emb rfl, hred]

/-- The state in which the directory entry of the row of a move has been read. -/
theorem dirRead_engGo_within {ag : Agent} {x : EmbTab} {v row : Nat} {rs : EngRanges} {s : State} :
    Within 147464 s (dirRead ag x v row (engGo rs s)).2 :=
  Within.step dirRead_within (by decide) (Within.step engGo_within (by decide) (Within.refl _ _))

/-- Settles O48: the commands of a move, case by case. -/
theorem rowMoves : Obligations.RowMoves := by
  intro s hk w
  have wr := State.wf_regs w
  refine ⟨exec_embMoveGo_busy hk w, fun ho hr hm x d l => ?_, fun m => ⟨fun h ht => ?_, fun x h hc hx => ?_, fun h hc hx => ?_⟩,
    fun dst num refused => ⟨fun h ht => ?_, fun mv h hc hm => ⟨fun hn => ?_, fun hn hw => ⟨?_, ?_⟩⟩⟩, fun mv ht hm hw => ?_, fun hm => ?_⟩
  · intro s0 tn v row dst mv rs s1 body
    have hgo : exec .embMoveGo s = .next (moveStart s0).settle := exec_embMoveGo_idle hk ho hr
    have hr0 : moveRuns s0 = true := State.bit_putB_same wr (by decide)
    have hmv : goMove s0 = mv := goMove_putB wr
    have hs0 : Within 8 s s0 := State.putB_within
    have hm0 : s0.emb.move = none := by rw [hs0.emb rfl, hm]
    have htab : embTab s0 tn = embTab s tn := embTab_of_emb (hs0.emb rfl) tn
    have hs1 : Within 147464 s s1 := Within.step dirRead_engGo_within (by decide) (Within.step hs0 (by decide) (Within.refl _ _))
    refine ⟨fun hx => ?_, fun hx hrow => ?_, fun hx hrow hw => ?_, fun hx hrow hw hd => ?_⟩
    · rw [hgo, moveStart_undescribed hr0 hm0 hmv (htab.trans hx)]
    · rw [hgo, moveStart_no_row hr0 hm0 hmv (htab.trans hx) hrow]
    · rw [hgo, moveStart_of_row hr0 hm0 hmv (htab.trans hx) hrow]
      dsimp only
      rw [if_pos hw]
    · have hstart : moveStart s0 = if d.tier = 3 ∨ d.chip ≠ s1.warp.chip then moveEnd 1 s1
          else if 1024 ≤ s1.emb.redirects.length then moveEnd 2 s1 else moveCopy x mv d s1 := by
        rw [moveStart_of_row hr0 hm0 hmv (htab.trans hx) hrow]
        dsimp only
        rw [if_neg (by rw [hw]; decide), hd]
      have hchip : s1.warp.chip = s.warp.chip := by rw [hs1.warp rfl]
      have hred : s1.emb.redirects = s.emb.redirects := by rw [hs1.emb rfl]
      have hcopy (htier : d.tier ≠ 3) (hdc : d.chip = s.warp.chip) (hlen : s.emb.redirects.length < 1024) :
          exec .embMoveGo s = .next (moveCopy x mv d s1).settle := by
        rw [hgo, hstart, hchip, if_neg (by simp [htier, hdc]), hred, if_neg (by omega)]
      refine ⟨fun hbad => ?_, fun htier hdc hfull => ?_, fun htier hdc hlen hne hl hup => ?_, fun htier hdc hlen hown => ?_⟩
      · rw [hgo, hstart, if_pos hbad]
      · rw [hgo, hstart, if_neg (by simp [htier, hdc]), if_pos hfull]
      · have w0 : RegsOk s0 := regsOk_putB wr
        have hroutes : SameRoutes s0 s1 := (SameRoutes.of_regs w0 (engGo_within.regs rfl)).trans
          (dirRead_sameRoutes (State.wf_regs (engGo_within.wf (hs0.wf w))) .host x v row)
        obtain ⟨hroute0, hlink0⟩ := putB_moveCtrl_sameRoutes wr
        obtain ⟨hmem, hruns, hemb, hsent⟩ := moveCopy_sent_effect (mv := mv) (l := l) hroutes.regs (rfl : _ = body) (hchip ▸ hne)
          ((hroutes.route dst).trans ((hroute0 dst).trans hl)) ((hroutes.link l).trans ((hlink0 l).trans hup))
        rw [link_of_chain (hs1.chain rfl)] at hsent
        refine ⟨_, moveMsg body.2 mv d.tier body.1, hcopy htier hdc hlen, hmem.trans (hs1.mem rfl), hruns.trans (hroutes.runs.trans hr0),
          ?_, hsent, rfl, ?_, rfl⟩
        · rw [hemb, hs1.emb rfl]
        · exact Nat.mod_eq_of_lt (s.rd Reg.embMoveRow).isLt
      · have hown1 : mv.chip = s1.warp.chip := hown.trans hchip.symm
        obtain ⟨⟨hruns, hmove, hcode, hdone⟩, hredir⟩ := moveCopy_own_ended (mv := mv) (d := d) (hs1.wf w) (rfl : _ = body) hown1
        rw [hred] at hredir
        have hin : Within 131080 s1 body.2 := busRead_within
        exact ⟨_, hcopy htier hdc hlen, moveCopy_own rfl (hown1.trans (by rw [hin.warp rfl])), hruns, hmove, hcode, hdone, hredir⟩
  · exact inContract_next hk (execEmbMoveMessage_forwards h ht)
  · intro a n hw s0
    have htab : embTab s0 m.table.toNat = some x := (embTab_of_emb (engGo_within.emb rfl) _).trans hx
    exact ⟨fun htier => inContract_next hk (execEmbMoveMessage_stores h hc hx hw rfl (moveStore_tier htab htier)),
      fun htier => inContract_next hk (execEmbMoveMessage_stores h hc hx hw rfl (moveStore_absent htab htier))⟩
  · exact inContract_next hk (execEmbMoveMessage_undescribed h hc hx)
  · exact inContract_next hk (execMoveAck_forwards h ht)
  · exact inContract_next hk (execMoveAck_late h hc hm hn)
  · intro href
    subst href
    exact inContract_next hk (execMoveAck_refused h hc hm hn hw)
  · intro x href hx hj
    subst href
    obtain ⟨⟨hruns, hmove, hcode, hdone⟩, hredir⟩ := moveAck_installs (x := x) (mv := mv) w hj (resumeRanges s mv true)
    exact ⟨_, inContract_next hk (execMoveAck_good h hc hm hn hw hx), hruns, hmove, hcode, hdone, hredir⟩
  · exact inContract_next hk (execEmbMoveTimeout_ends ht hm hw)
  · refine inContract_kept (f := execEmbMoveTimeout) hk hk ?_
    rw [execEmbMoveTimeout, hm]

end Sys2Proof.Machine
end

section
/-! SUPPORT. Host accesses that the part does not take (R32, R35, R508, R533, R556). -/

namespace Sys2Proof.Machine

/-! ### The gates -/

/-- What the gates of host accesses test first. -/
theorem gate_eq (s : State) : (!s.up || !s.bistDone || s.host.d3hot) = !hostReach s := by simp [hostReach]

theorem hostWrite_of_unreached {d : Dom} {f : State → Res State} {s : State} (h : hostReach s = false) : hostWrite d f s = .next s := by
  rw [hostWrite, gate_eq, h]
  rfl

theorem hostData_of_unreached {p q : Bool} {f : State → Res State} {s : State} (h : hostReach s = false) :
    hostData p q f s = .next s := by
  rw [hostData, gate_eq, h]
  rfl

/-- R533: a write to a register of the fabric is discarded in a hold. -/
theorem hostWrite_fabric_of_hold {f : State → Res State} {s : State} (h : hostReach s = true) (hh : s.inHold = true) :
    hostWrite .fabric f s = .next (holdDiscard s) := by
  simp only [hostReach, Bool.and_eq_true, Bool.not_eq_true'] at h
  obtain ⟨⟨hup, hbist⟩, hd3⟩ := h
  simp [hostWrite, hup, hbist, hd3, hh]

theorem hostData_of_hold {q : Bool} {f : State → Res State} {s : State} (h : hostReach s = true) (hh : s.inHold = true)
    (hc : s.clk = .running) (hp : (postedWaits s && !q) = false) : hostData false q f s = .next (holdDiscard s) := by
  simp only [hostReach, Bool.and_eq_true, Bool.not_eq_true'] at h
  obtain ⟨⟨hup, hbist⟩, hd3⟩ := h
  simp [hostData, hup, hbist, hd3, hh, hc, hp]

theorem hostReach_eq_false_of_bist {s : State} (h : s.bistDone = false) : hostReach s = false := by simp [hostReach, h]

/-! ### The commands that are writes by the host -/

/-- The command is a write to registers of one domain, and to registers of the fabric if a hold discards it. -/
def IsRegWrite (c : Instr) : Prop :=
  ∃ (d : Dom) (f : State → Res State), (∀ s, exec c s = inContract (hostWrite d f) s) ∧ (holdDiscards c = true → d = .fabric)

/-- Every write by the host is one to registers of a domain, or one through a memory window. -/
theorem hostWrites_cases {c : Instr} (h : hostWrites c = true) :
    IsRegWrite c ∨ (∃ a sz d p, c = .bar0Write a sz d p) ∨ (∃ o bs p, c = .bar2Write o bs p) ∨ ∃ o bs p, c = .bar4Write o bs p := by
  cases c
  case bar0Write a sz d p => exact .inr (.inl ⟨a, sz, d, p, rfl⟩)
  case bar2Write o bs p => exact .inr (.inr (.inl ⟨o, bs, p, rfl⟩))
  case bar4Write o bs p => exact .inr (.inr (.inr ⟨o, bs, p, rfl⟩))
  case timeSet | timeStep | timeSnap | timeTrimWrite => exact .inl ⟨.time, _, fun _ => rfl, fun h => nomatch h⟩
  case getChallenge | clearSafe | enterSafe => exact .inl ⟨.selvedge, _, fun _ => rfl, fun h => nomatch h⟩
  case hostBar2PageWrite | warpApply | ptEnable | ptDisable | posEdgePop | posPkCfgWrite | loadNow | refArm | refDisarm | posEvArm
      | posEvDisarm | h2bPost | b2hAck =>
    exact .inl ⟨.held, _, fun _ => rfl, fun h => nomatch h⟩
  case memToMemory c => exact .inl ⟨.held, fun s => if s.inHold then .next s else modeRequest c 0 s, fun _ => rfl, fun h => nomatch h⟩
  case memToProcessor c => exact .inl ⟨.held, fun s => if s.inHold then .next s else modeRequest c 1 s, fun _ => rfl, fun h => nomatch h⟩
  case coreEnable | coreDisable | coreWakeCmd | queueEnable | queueDisable | queueFlush | queueDoorbell | queueRelease | queueIrqWrite
      | ethPortEnable | ethPortDisable | ethTxtsPop | intakeGridFlip | embTabCurWrite | embFence | embMoveGo | clearRedirects
      | linkEnable | linkDisable | linkRetrain | traceEnable | traceClear | hostMark | pmcClear | pmcSnap | traceFreeze =>
    exact .inl ⟨.fabric, _, fun _ => rfl, fun _ => rfl⟩
  all_goals cases h

theorem hostWrites_of_holdDiscards {c : Instr} (h : holdDiscards c = true) : hostWrites c = true := by
  have himp : (holdDiscards c && !hostWrites c) = false := by cases c <;> rfl
  simpa [h] using himp

theorem isRegWrite_of_holdDiscards {c : Instr} (h : holdDiscards c = true) : IsRegWrite c := by
  rcases hostWrites_cases (hostWrites_of_holdDiscards h) with h | ⟨_, _, _, _, rfl⟩ | ⟨_, _, _, rfl⟩ | ⟨_, _, _, rfl⟩
  · exact h
  all_goals cases h

theorem execBar0Write_of_unreached {a : BitVec 26} {sz : AccSize} {d : W64} {p : Bool} {s : State} (h : hostReach s = false) :
    execBar0Write a sz d p s = .next s := by
  unfold execBar0Write
  split
  · exact hostWrite_of_unreached h
  split
  · exact hostWrite_of_unreached h
  split
  · rfl
  · exact hostWrite_of_unreached h

/-- A write by the host that does not reach the part is lost. -/
theorem hostWrites_lost {c : Instr} {s : State} (hc : hostWrites c = true) (hk : s.Kept) (h : hostReach s = false) :
    exec c s = .next s := by
  rcases hostWrites_cases hc with ⟨d, f, he, -⟩ | ⟨a, sz, d, p, rfl⟩ | ⟨o, bs, p, rfl⟩ | ⟨o, bs, p, rfl⟩
  · rw [he]
    exact inContract_kept hk hk (hostWrite_of_unreached h)
  · exact inContract_kept hk hk (execBar0Write_of_unreached h)
  · exact inContract_kept hk hk (hostData_of_unreached h)
  · exact inContract_kept hk hk (hostData_of_unreached h)

/-! ### Reads that the part does not answer with data -/

/-- What a read by the host answers before any of its own checks. -/
def refusedRead (s : State) : Option Resp :=
  if s.up = false then some .unanswered else if s.bistDone = false then some .completerAbort
  else if s.host.d3hot then some .unsupported else none

theorem hostRead_refused {f : State → Res State} {s : State} {r : Resp} (h : refusedRead s = some r) :
    hostRead f s = .next (s.answer r) := by
  unfold refusedRead at h
  unfold hostRead
  cases hu : s.up <;> cases hb : s.bistDone <;> cases hd : s.host.d3hot <;> simp_all

/-- Every read by the host is refused alike. -/
theorem reads_refused {s : State} {r : Resp} (hk : s.Kept) (h : refusedRead s = some r) :
    (∀ a sz, exec (.bar0MultiwordRead a sz) s = .next (s.answer r)) ∧ (∀ o n, exec (.bar2Read o n) s = .next (s.answer r)) ∧
    ∀ o n, exec (.bar4Read o n) s = .next (s.answer r) :=
  ⟨fun _ _ => inContract_kept hk hk (hostRead_refused h), fun _ _ => inContract_kept hk hk (hostRead_refused h),
    fun _ _ => inContract_kept hk hk (hostRead_refused h)⟩

/-- Settles O6: before BIST completes neither gate lets an access through. -/
theorem accessesDuringBist : Obligations.AccessesDuringBist := by
  intro s hk hup hbist
  obtain ⟨h0, h2, h4⟩ := reads_refused hk (r := .completerAbort) (by simp [refusedRead, hup, hbist])
  exact ⟨fun c hc => hostWrites_lost hc hk (hostReach_eq_false_of_bist hbist), h0, h2, h4⟩

/-! ### Accesses in a supply hold -/

theorem holdDiscard_kept {s : State} (h : s.Kept) : (holdDiscard s).Kept := by
  rw [State.Kept, holdDiscard_within.contract rfl]
  exact h

theorem execBar2Read_of_hold {s : State} {o : BitVec 36} {n : Nat} (h : hostReach s = true) (hh : s.inHold = true)
    (hf : tlpFits o.toNat n = true) : execBar2Read o n s = .next ((holdDiscard s).answer .completerAbort) := by
  rw [execBar2Read, hostRead_of_reach h]
  simp [hf, hh]

theorem execBar4Read_of_hold {s : State} {o : BitVec 29} {n : Nat} (h : hostReach s = true) (hh : s.inHold = true)
    (hf : tlpFits o.toNat n = true) : execBar4Read o n s = .next ((holdDiscard s).answer .completerAbort) := by
  rw [execBar4Read, hostRead_of_reach h]
  simp [hf, hh]

/-- R533: a read of a block that stands returns all ones. -/
theorem execBar0MultiwordRead_of_hold {s : State} {a : BitVec 26} {sz : AccSize} {b : Blk} (h : hostReach s = true)
    (hh : s.inHold = true) (hal : aligned a.toNat sz = true) (hb : blkOf a.toNat = some b) (hf : heldBlk b = false) :
    execBar0MultiwordRead a sz s = .next (s.answer (.data (ffs (accSize sz)))) := by
  rw [execBar0MultiwordRead, hostRead_of_reach h]
  simp [hal, hb, hh, hf]

/-- A block that stands in a hold works in the fabric. -/
theorem blkDom_of_not_heldBlk {b : Blk} (h : heldBlk b = false) : blkDom b = .fabric := by
  simpa [heldBlk] using h

/-- A hold leaves a mode request of a channel without effect (log entry 31). -/
theorem hostMode_of_hold {c mode : Nat} {s : State} (hh : s.inHold = true) : hostMode c mode s = .next s := by
  unfold hostMode hostWrite
  simp [hh]

/-- A discarded access is counted and flagged. -/
theorem holdDiscard_counts {s : State} (w : RegsOk s) :
    (holdDiscard s).rd Reg.hostHoldDiscards = BitVec.ofNat 32 (min ((s.rd Reg.hostHoldDiscards).toNat + 1) 0xFFFFFFFF) ∧
    (holdDiscard s).bit Reg.hostStatus 5 = true := by
  have w1 : RegsOk (s.sat Reg.hostHoldDiscards) := regsOk_wr w
  refine ⟨?_, State.bit_putB_same w1 (by decide)⟩
  rw [holdDiscard, State.rd_putB_ne w1 (by decide), State.sat, State.satAdd]
  exact State.rd_wr_same w

/-- Settles O7: the gates of host reads and writes, in each of the states that the rules name. -/
theorem accessesWhileDownOrHeld : Obligations.AccessesWhileDownOrHeld := by
  refine ⟨fun s hk => ⟨fun h c hc => hostWrites_lost hc hk h, fun hup a sz o n p m => ?_, fun hup hbist hd a sz o n p m => ?_⟩,
    fun s hk h hh hw => ?_⟩
  · obtain ⟨h0, h2, h4⟩ := reads_refused hk (r := .unanswered) (by simp [refusedRead, hup])
    exact ⟨h0 a sz, h2 o n, h4 p m⟩
  · obtain ⟨h0, h2, h4⟩ := reads_refused hk (r := .unsupported) (by simp [refusedRead, hup, hbist, hd])
    exact ⟨h0 a sz, h2 o n, h4 p m⟩
  · have hd : (holdDiscard s).Kept := holdDiscard_kept hk
    obtain ⟨hcount, hflag⟩ := holdDiscard_counts (State.wf_regs hw)
    refine ⟨fun a sz b hal hb hf => ?_, fun a sz d b hal hb hf => ?_, fun c hc => ?_, fun o n hf => ?_, fun o n hf => ?_,
      fun hc => ⟨fun o bs => ?_, fun hp o bs => ?_⟩, hcount, hflag, fun c => ⟨?_, ?_⟩⟩
    · exact inContract_kept hk hk (execBar0MultiwordRead_of_hold h hh hal hb hf)
    · refine inContract_kept hk hd ?_
      simp [execBar0Write, hal, hb, blkDom_of_not_heldBlk hf, hostWrite_fabric_of_hold h hh]
    · obtain ⟨d, f, he, hdom⟩ := isRegWrite_of_holdDiscards hc
      rw [he, hdom hc]
      exact inContract_kept hk hd (hostWrite_fabric_of_hold h hh)
    · exact inContract_kept hk hd (execBar2Read_of_hold h hh hf)
    · exact inContract_kept hk hd (execBar4Read_of_hold h hh hf)
    · exact inContract_kept hk hd (hostData_of_hold h hh hc (by simp))
    · exact inContract_kept hk hd (hostData_of_hold h hh hc (by simp [hp]))
    · exact inContract_kept hk hk (hostMode_of_hold hh)
    · exact inContract_kept hk hk (hostMode_of_hold hh)

end Sys2Proof.Machine
end

section
/-! SUPPORT. Resets and losses of a supply (R26, R31, R32, R34, R469, R569): what they leave of the registers and the state. -/

namespace Sys2Proof.Machine

/-! ### Entries dropped from a table -/

section
variable {α : Type} {d d' : Nat → α}

/-- A key whose entries are all dropped holds what an unlisted key holds. -/
theorem Tab.get_filter_dropped {p : Nat × α → Bool} {i : Nat} (hp : ∀ v, p (i, v) = false) (t : Tab α) :
    Tab.get d (t.filter p) i = d i := by
  induction t with
  | nil => rfl
  | cons e t ih =>
    obtain ⟨k, v⟩ := e
    rw [List.filter_cons]
    split
    · next hk =>
      have hne : i ≠ k := fun e => by rw [← e, hp] at hk; cases hk
      rw [Tab.get, if_neg hne, ih, ite_self]
    · exact ih

/-- A key whose entries are all kept holds what it held, in a canonical table. -/
theorem Tab.get_filter_kept [DecidableEq α] {p : Nat × α → Bool} {i : Nat} (hp : ∀ v, p (i, v) = true) {t : Tab α} {lo : Nat}
    (w : Tab.wfFrom d lo t = true) : Tab.get d (t.filter p) i = Tab.get d t i := by
  induction t generalizing lo with
  | nil => rfl
  | cons e t ih =>
    obtain ⟨k, v⟩ := e
    simp only [Tab.wfFrom, Bool.and_eq_true, decide_eq_true_eq] at w
    rw [List.filter_cons]
    split
    · rw [Tab.get, Tab.get, ih w.2]
    · next hk =>
      have hne : i ≠ k := fun e => hk (e ▸ hp v)
      rw [ih w.2, Tab.get, if_neg hne]
      split
      · exact Tab.get_of_lt (by omega) w.2
      · rfl

/-- A read looks at what an unlisted key holds at its own key only. -/
theorem Tab.get_congr {i : Nat} (h : d i = d' i) (t : Tab α) : Tab.get d t i = Tab.get d' t i := by
  induction t with
  | nil => exact h
  | cons e t ih => rw [Tab.get, Tab.get, ih, h]



end

/-! ### Contents of memory that are lost (R54, R597) -/

theorem loseComp_byte_comp {s : State} {a : Nat} (h : inComp a = true) :
    s.loseComp.byte a = Config.freeMem (s.memGen.comp + 1) a := by
  have hget : s.loseComp.byte a = memUnlisted s.loseComp.memGen a := Tab.get_filter_dropped (fun v => by simp [h]) s.mem
  rw [hget]
  simp [memUnlisted, h, State.loseComp]

theorem loseComp_byte_onDie {s : State} {a : Nat} (w : s.wf = true) (h : inComp a = false) : s.loseComp.byte a = s.byte a := by
  have hsame : memUnlisted s.loseComp.memGen a = memUnlisted s.memGen a := by simp [memUnlisted, h, State.loseComp]
  calc s.loseComp.byte a = Tab.get (memUnlisted s.memGen) (s.mem.filter fun e => !inComp e.1) a := Tab.get_congr hsame _
    _ = s.byte a := Tab.get_filter_kept (fun v => by simp [h]) (State.wf_mem w)

/-! ### The monitors follow the partitions that leave ENABLED (R495) -/

/-- The registers SELV_DMm. -/
def isSelvDm (x : Nat) : Bool := Reg.selvDm 0 ≤ x && x < Reg.selvDm 64

theorem isSelvDm_selvDm {m : Nat} (h : m < 64) : isSelvDm (Reg.selvDm m) = true := by
  simp only [isSelvDm, Reg.selvDm, Bool.and_eq_true, decide_eq_true_eq]
  omega

theorem setStarts_changesOnlyRegs {m : Nat} (h : m < 64) (l : List Nat) (s : State) : ChangesOnlyRegs isSelvDm s (setStarts m l s) :=
  (ChangesOnlyRegs.of_regs (by rfl)).trans (wr_changesOnlyRegs (isSelvDm_selvDm h))

theorem armMonitor_changesOnlyRegs {m : Nat} (h : m < 64) (s : State) : ChangesOnlyRegs isSelvDm s (armMonitor s m) := by
  unfold armMonitor
  split
  · exact .of_regs rfl
  split
  · split
    · exact (putB_changesOnlyRegs (isSelvDm_selvDm h)).trans (.of_regs rfl)
    · exact .of_regs rfl
  · exact ((putB_changesOnlyRegs (isSelvDm_selvDm h)).trans (setStarts_changesOnlyRegs h [] _)).trans (.of_regs rfl)

theorem armMonitors_changesOnlyRegs (s : State) : ChangesOnlyRegs isSelvDm s (armMonitors s) :=
  foldl_changesOnlyRegs (fun _ hm s => armMonitor_changesOnlyRegs (List.mem_range.mp hm) s) s

theorem pairLeave_changesOnlyRegs (n : Nat) (s : State) : ChangesOnlyRegs isSelvDm s (pairLeave n s) :=
  (ChangesOnlyRegs.of_regs ((Within.foldl (fun _ _ => mapFrames_within) (Within.refl _ _)).regs rfl)).trans
    (armMonitors_changesOnlyRegs _)

/-- A fold of changes that each keep a property of the state keeps it. -/
theorem foldl_keeps {α β : Type} {q : State → β} {f : State → α → State} (h : ∀ s a, q (f s a) = q s) (l : List α) (s : State) :
    q (l.foldl f s) = q s := by
  induction l generalizing s with
  | nil => rfl
  | cons a l ih => exact (ih (f s a)).trans (h s a)

theorem armMonitor_running (s : State) (m : Nat) : (armMonitor s m).selv.running = s.selv.running := by
  unfold armMonitor
  split
  · rfl
  split
  · split <;> rfl
  · rfl

theorem pairLeave_running (n : Nat) (s : State) : (pairLeave n s).selv.running = s.selv.running := by
  unfold pairLeave armMonitors
  rw [foldl_keeps (q := fun s => s.selv.running) armMonitor_running]
  exact foldl_keeps (q := fun s => s.selv.running) (f := mapFrames _) (fun _ _ => rfl) _ _

/-! ### A reset of the fabric (R32) -/

theorem Contract.afterReset_broken (c : Contract) : c.afterReset.broken = false := by cases c <;> rfl

/-- A fold over the partitions that changes fields of 131080 only leaves the others. -/
theorem fabricReset_within_clear (s : State) : Within 131080 ((fabricClear s).setStage 0) (fabricReset s) :=
  Within.foldl (fun _ _ => pairLeave_within) (Within.refl _ _)

theorem fabricReset_empty (s : State) : (fabricReset s).warp = .empty ∧ (fabricReset s).cores = [] ∧ (fabricReset s).mem = [] := by
  have hw := fabricReset_within_clear s
  exact ⟨hw.warp rfl, hw.cores rfl, hw.mem rfl⟩

theorem fabricReset_kept (s : State) : (fabricReset s).Kept := by
  rw [State.Kept, (fabricReset_within_clear s).contract rfl]
  exact Contract.afterReset_broken _

theorem fabricReset_running (s : State) : (fabricReset s).selv.running = s.selv.running := by
  unfold fabricReset
  rw [foldl_keeps (q := fun s => s.selv.running) fun s n => pairLeave_running n s]
  rfl

theorem fabricClear_regsOk {s : State} (w : s.wf = true) : RegsOk (fabricClear s) :=
  Tab.wf_filter (d := regReset) (t := s.regs) _ (State.wf_regs w)

theorem fabricReset_changesOnlyRegs (s : State) : ChangesOnlyRegs isSelvDm ((fabricClear s).setStage 0) (fabricReset s) :=
  foldl_changesOnlyRegs (fun n _ s => pairLeave_changesOnlyRegs n s) _

theorem fabricReset_rd {s : State} (w : s.wf = true) {a : Nat} (h : isSelvDm a = false) (ha : a ≠ Reg.globalPwrupStatus) :
    (fabricReset s).rd a = (fabricClear s).rd a := by
  have w0 := fabricClear_regsOk w
  obtain ⟨-, hrd⟩ := fabricReset_changesOnlyRegs s (regsOk_putF w0)
  rw [hrd a h, State.setStage, State.rd_putF_ne w0 ha]

/-- The registers a reset of the fabric leaves: the SELV block and the count of holds. -/
def keptByReset (a : Nat) : Bool := (0x2600000 ≤ a && a < 0x2700000) || a == Reg.mgmtHolds

theorem fabricClear_rd_cleared {s : State} {a : Nat} (h : keptByReset a = false) : (fabricClear s).rd a = regReset a :=
  Tab.get_filter_dropped (fun _ => h) s.regs

theorem fabricClear_rd_kept {s : State} (w : s.wf = true) {a : Nat} (h : keptByReset a = true) : (fabricClear s).rd a = s.rd a :=
  Tab.get_filter_kept (d := regReset) (t := s.regs) (fun _ => h) (State.wf_regs w)

theorem fabricReset_stage {s : State} (w : s.wf = true) : (fabricReset s).stage = 0 := by
  have w0 := fabricClear_regsOk w
  obtain ⟨-, hrd⟩ := fabricReset_changesOnlyRegs s (regsOk_putF w0)
  rw [State.stage, State.fld_of_rd (hrd Reg.globalPwrupStatus (by decide))]
  exact State.fld_putF_same w0 (by decide)

/-- Outside the SELV block every register but the count of holds and STATUS takes its value after power-up. -/
theorem fabricReset_regs {s : State} (w : s.wf = true) (a : Nat) (ha : ¬(0x2600000 ≤ a ∧ a < 0x2700000)) (hh : a ≠ Reg.mgmtHolds)
    (hp : a ≠ Reg.globalPwrupStatus) : (fabricReset s).rd a = regReset a := by
  have hd : isSelvDm a = false := by
    simp only [isSelvDm, Reg.selvDm, Bool.and_eq_false_iff, decide_eq_false_iff_not]
    omega
  rw [fabricReset_rd w hd hp]
  refine fabricClear_rd_cleared ?_
  simp only [keptByReset, Bool.or_eq_false_iff, Bool.and_eq_false_iff, decide_eq_false_iff_not, beq_eq_false_iff_ne]
  exact ⟨by omega, hh⟩

theorem fabricReset_safeCount {s : State} (w : s.wf = true) : (fabricReset s).rd Reg.selvSafeCount = s.rd Reg.selvSafeCount := by
  rw [fabricReset_rd w (by decide) (by decide), fabricClear_rd_kept w (by decide)]

/-! ### A reset of the whole part (R31) -/

theorem coldReset_kept (s : State) : (coldReset s).Kept := Contract.afterReset_broken _

/-- With no register listed, stage 0 shows all zeros in STATUS and leaves the other registers at their values after power-up. -/
theorem setStage_zero_rd {s : State} (h : s.regs = []) (a : Nat) :
    (s.setStage 0).rd a = if a = Reg.globalPwrupStatus then 0 else regReset a := by
  have w : RegsOk s := by rw [RegsOk, h]; rfl
  have hrd : ∀ x, s.rd x = regReset x := fun x => by rw [State.rd, h]; rfl
  split
  · next ha =>
    rw [ha, State.setStage, State.putF_eq, State.rd_wr_same w, hrd]
    decide
  · next ha => rw [State.setStage, State.rd_putF_ne w ha, hrd]

theorem coldReset_rd (s : State) (a : Nat) : (coldReset s).rd a = if a = Reg.globalPwrupStatus then 0 else regReset a :=
  setStage_zero_rd rfl a

/-! ### The rise of the resets (R34) -/

theorem onlyIf_of_true {b : Bool} {f : State → State} {s : State} (h : b = true) : onlyIf b f s = .next (f s) := if_pos h

theorem kept_of_contract {s t : State} (h : t.contract = s.contract) (hk : s.Kept) : t.Kept := by
  rw [State.Kept, h]
  exact hk

theorem boot_running {s : State} (h : s.clk = .running) : boot s = s.setStage 1 := by
  rw [boot]
  exact if_pos (by rw [State.setStage, State.putF_clk, h]; rfl)

/-- With SYSCLK running, the rise of the resets changes STATUS only. -/
theorem boot_regs {s : State} (w : RegsOk s) (h : s.clk = .running) :
    (boot s).stage = 1 ∧ ∀ a, a ≠ Reg.globalPwrupStatus → (boot s).rd a = s.rd a := by
  rw [boot_running h]
  exact ⟨State.fld_putF_same w (by decide), fun a ha => State.rd_putF_ne w ha⟩

/-- Settles O10: the cold reset, the two losses of a supply, and the start of the selvedge. -/
theorem coldResets : Obligations.ColdReset := by
  refine ⟨⟨fun s hk w hn => ?_, fun s hk w => ?_, fun s hk w => ?_⟩, fun s hk hn => ⟨fun hp => ?_, fun hp => ?_, fun hp w hc => ?_⟩⟩
  · have e : execColdNAssert s = .next { coldReset s with
        pins := { (coldReset s).pins with coldN := false, safeN := .hiZ, safeHb := false } } := onlyIf_of_true hn
    refine ⟨_, inContract_kept hk ?_ e, coldReset_rd s, rfl, rfl, rfl, rfl, rfl, rfl, rfl, rfl, rfl, rfl, rfl, rfl, rfl,
      rfl, rfl, rfl⟩
    exact coldReset_kept s
  · have e : execSupplyLoss true s = .next { coldReset s with
        powered := false, tap := State.reset.tap, pins := { (coldReset s).pins with safeN := .hiZ, safeHb := false } } := rfl
    refine ⟨_, inContract_kept hk ?_ e, coldReset_rd s, rfl, rfl, rfl, rfl, rfl, rfl, rfl⟩
    exact coldReset_kept s
  · have e : execSupplyLoss false s = .next { fabricReset s with powered := false, tap := State.reset.tap } := rfl
    have hkept := fabricReset_kept s
    have hrun := fabricReset_running s
    have hstage := fabricReset_stage w
    have hregs := fabricReset_regs w
    obtain ⟨hwarp, hcores, hmem⟩ := fabricReset_empty s
    generalize fabricReset s = u at e hkept hrun hstage hregs hwarp hcores hmem
    refine ⟨_, inContract_kept hk ?_ e, rfl, hrun, hstage, hwarp, hcores, hmem, rfl, hregs⟩
    exact hkept
  · exact inContract_kept hk hk (by simp [execColdNRelease, onlyIf, hn, hp])
  · exact inContract_kept hk (kept_of_contract (boot_within.contract rfl) hk) (by simp [execColdNRelease, onlyIf, hn, hp])
  · exact boot_regs (State.wf_regs w) hc

end Sys2Proof.Machine
end

section
/-! SUPPORT. The resets of the fabric and the power-up sequence (R32, R34 to R37, R472, R506 to R508, R519). -/

namespace Sys2Proof.Machine

/-! ### The resets of the fabric and the power-up sequence (R32, R34 to R37, R506 to R508) -/

theorem selvEvent_fabricReset_kept (c act : Nat) (ps : List Nat) (s : State) : (selvEvent c act ps (fabricReset s)).Kept :=
  kept_of_contract (selvEvent_within.contract rfl) (fabricReset_kept s)

/-- A part that is up has its supplies and both resets high, and is not frozen. -/
theorem pins_of_up {s : State} (h : s.up = true) :
    s.powered = true ∧ s.pins.coldN = true ∧ s.pins.perstN = true ∧ s.frz.frozen = false := by
  simpa [State.up, and_assoc] using h

theorem exec_perstNAssert_up {s : State} (hk : s.Kept) (h : s.up = true) :
    exec .perstNAssert s = .next (selvEvent 0x02 0 [] (fabricReset { s with pins := { s.pins with perstN := false } })) := by
  obtain ⟨-, -, hperst, -⟩ := pins_of_up h
  refine inContract_kept hk (selvEvent_fabricReset_kept ..) ?_
  rw [execPerstNAssert, onlyIf_of_true hperst]
  dsimp only
  rw [if_pos h]

theorem exec_pcieHotReset_up {s : State} (hk : s.Kept) (h : s.up = true) :
    exec .pcieHotReset s = .next (boot (selvEvent 0x02 0 [] (fabricReset s))) :=
  inContract_kept hk (kept_of_contract (boot_within.contract rfl) (selvEvent_fabricReset_kept ..)) (onlyIf_of_true h)

/-- R34: the rise of PERST_N samples the straps, and BIST starts. -/
theorem exec_perstNRelease_powered {s : State} {strap : BitVec 3} (hk : s.Kept) (hp : s.pins.perstN = false) (hpow : s.powered = true)
    (hn : s.pins.coldN = true) (hf : s.frz.frozen = false) :
    exec (.perstNRelease strap) s = .next (boot { s with pins := { s.pins with perstN := true, addr := strap } }) := by
  refine inContract_kept hk (kept_of_contract (boot_within.contract rfl) (by exact hk)) ?_
  rw [execPerstNRelease, onlyIf_of_true (by simp [hp]), hf]
  simp [State.up, hpow, hn, hf]

/-! ### What BIST reports (R37, R397) -/

section
variable {p : Nat → Bool} {s : State}

theorem putF_changesOnlyRegs {a lo n v : Nat} (h : p a = true) : ChangesOnlyRegs p s (s.putF a lo n v) := wr_changesOnlyRegs h

end

/-- A quantity of two words reads as it was written. -/
theorem State.rdQ_wrQ_two {s : State} (w : RegsOk s) (a v : Nat) : (s.wrQ a 2 v).rdQ a 2 = v % 2 ^ 64 := by
  have w1 : RegsOk (s.wr a (BitVec.ofNat 32 v)) := regsOk_wr w
  have hlow : (s.wrQ a 2 v).rd a = BitVec.ofNat 32 v := by
    rw [State.wrQ, State.wrQ, State.wrQ, State.rd_wr_ne w1 (by omega), State.rd_wr_same w]
  have hhigh : (s.wrQ a 2 v).rd (a + 4) = BitVec.ofNat 32 (v / 2 ^ 32) := State.rd_wr_same w1
  simp only [State.rdQ, hlow, hhigh, BitVec.toNat_ofNat]
  omega

/-- A quantity of two words reads the same where both words do. -/
theorem State.rdQ_two_of_rd {s t : State} {a : Nat} (h : t.rd a = s.rd a) (h4 : t.rd (a + 4) = s.rd (a + 4)) :
    t.rdQ a 2 = s.rdQ a 2 := by
  simp only [State.rdQ, h, h4]

/-- The registers of the temperatures and of the channels. -/
def isBistLate (x : Nat) : Bool := 0x2000000 ≤ x

theorem memHottest_changesOnlyRegs (s : State) : ChangesOnlyRegs isBistLate s (memHottest s) := putF_changesOnlyRegs (by decide)

theorem isBistLate_channel (c : Nat) : isBistLate (Reg.memStatus c) = true ∧ isBistLate (Reg.memTemp c) = true := by
  simp only [isBistLate, Reg.memStatus, Reg.memTemp, decide_eq_true_eq]
  omega

theorem isBistLate_tempMd (d : Nat) : isBistLate (Reg.mgmtTempMd d) = true := by
  simp only [isBistLate, Reg.mgmtTempMd, decide_eq_true_eq]
  omega

/-- What BIST reports of the arrays, and then in the GLOBAL block. -/
def bistGlobal (r : BistResult) (s : State) : State :=
  let spares := (r.arrays.map bistUsed).sum
  let narrow := (r.arrays.filter bistNarrowed).length
  let s := r.arrays.foldl (fun s b => reportArray b s) (wholeArrays s)
  let s := s.wrN Reg.globalBistStatus
    (1 + (if r.fatal then 2 else 0) + 2 ^ 2 * min spares 255 + 2 ^ 10 * min narrow 255 + 2 ^ 18 * min r.bankFail.length 255)
  (s.wr Reg.globalCoreAvail (~~~(BitVec.ofNat 32 (failedCores r)))).wrQ Reg.globalChAvail 2 (~~~r.chFail).toNat

/-- The rest of the report is about channels and temperatures. -/
theorem bistReport_changesOnlyRegs (r : BistResult) (s : State) : ChangesOnlyRegs isBistLate (bistGlobal r s) (bistReport r s) := by
  unfold bistReport
  refine ChangesOnlyRegs.trans ?_ (memHottest_changesOnlyRegs _)
  refine ChangesOnlyRegs.trans ?_ (foldl_changesOnlyRegs (fun d _ s => ?_) _)
  · refine ChangesOnlyRegs.trans ?_ (putF_changesOnlyRegs (by decide))
    exact foldl_changesOnlyRegs (fun c _ s => putF_changesOnlyRegs (isBistLate_channel c).1) _
  · exact ChangesOnlyRegs.trans (putF_changesOnlyRegs (isBistLate_tempMd (d / 4)))
      (foldl_changesOnlyRegs (fun i _ s => putF_changesOnlyRegs (isBistLate_channel _).2) _)

/-- The lowest bits of GLOBAL_BIST_STATUS: done, and fatal. -/
theorem bistStatus_bits (fatal : Bool) (a b c : Nat) :
    let v := BitVec.ofNat 32 (1 + (if fatal then 2 else 0) + 2 ^ 2 * a + 2 ^ 10 * b + 2 ^ 18 * c)
    v.toNat.testBit 0 = true ∧ v.toNat.testBit 1 = fatal := by
  simp only [BitVec.toNat_ofNat, Nat.testBit_eq_decide_div_mod_eq]
  cases fatal <;> simp <;> omega

/-- The registers of the GLOBAL block that BIST reports. -/
theorem bistGlobal_regs (r : BistResult) {s : State} (w : s.wf = true) :
    RegsOk (bistGlobal r s) ∧ (bistGlobal r s).rd Reg.globalCoreAvail = ~~~(BitVec.ofNat 32 (failedCores r)) ∧
    (bistGlobal r s).bit Reg.globalBistStatus 0 = true ∧ (bistGlobal r s).bit Reg.globalBistStatus 1 = r.fatal ∧
    (bistGlobal r s).rdQ Reg.globalChAvail 2 = (~~~r.chFail).toNat := by
  unfold bistGlobal
  dsimp only
  have w0 : RegsOk (r.arrays.foldl (fun s b => reportArray b s) (wholeArrays s)) :=
    State.wf_regs ((Within.foldl (fun _ _ => reportArray_within) wholeArrays_within).wf w)
  generalize r.arrays.foldl (fun s b => reportArray b s) (wholeArrays s) = s0 at w0
  generalize hv : 1 + (if r.fatal then 2 else 0) + 2 ^ 2 * min (r.arrays.map bistUsed).sum 255
    + 2 ^ 10 * min (r.arrays.filter bistNarrowed).length 255 + 2 ^ 18 * min r.bankFail.length 255 = v
  have w1 : RegsOk (s0.wrN Reg.globalBistStatus v) := regsOk_wr w0
  have w2 : RegsOk ((s0.wrN Reg.globalBistStatus v).wr Reg.globalCoreAvail (~~~(BitVec.ofNat 32 (failedCores r)))) := regsOk_wr w1
  have hq (x : Nat) (h : x ≠ Reg.globalChAvail) (h4 : x ≠ Reg.globalChAvail + 4) (u : State) (wu : RegsOk u) :
      (u.wrQ Reg.globalChAvail 2 (~~~r.chFail).toNat).rd x = u.rd x := by
    rw [State.wrQ, State.wrQ, State.wrQ, State.rd_wr_ne (regsOk_wr wu) h4, State.rd_wr_ne wu h]
  have hstatus : ((s0.wrN Reg.globalBistStatus v).wr Reg.globalCoreAvail (~~~(BitVec.ofNat 32 (failedCores r)))).rd Reg.globalBistStatus =
      BitVec.ofNat 32 v := by
    rw [State.rd_wr_ne w1 (by decide), State.wrN, State.rd_wr_same w0]
  have hbits := bistStatus_bits r.fatal (min (r.arrays.map bistUsed).sum 255) (min (r.arrays.filter bistNarrowed).length 255)
    (min r.bankFail.length 255)
  rw [hv] at hbits
  refine ⟨regsOk_wr (regsOk_wr w2), ?_, ?_, ?_, ?_⟩
  · rw [hq _ (by decide) (by decide) _ w2, State.rd_wr_same w1]
  · rw [State.bit, hq _ (by decide) (by decide) _ w2, hstatus]
    exact hbits.1
  · rw [State.bit, hq _ (by decide) (by decide) _ w2, hstatus]
    exact hbits.2
  · rw [State.rdQ_wrQ_two w2, Nat.mod_eq_of_lt]
    exact (~~~r.chFail).isLt.trans (by decide)

/-- BIST has completed. -/
def bistMarked (s : State) : State := { s with host := { s.host with bistDone := true } }

/-- The end of BIST after its report. -/
def bistEnded (fatal : Bool) (s : State) : State := (bistMarked s).setStage (if fatal then 8 else 2)

theorem bistEnded_same (fatal : Bool) (s : State) :
    (bistEnded fatal s).bistDone = true ∧ (bistEnded fatal s).mem = s.mem ∧ (bistEnded fatal s).pins = s.pins ∧
    (bistEnded fatal s).contract = s.contract := ⟨rfl, rfl, rfl, rfl⟩

theorem bistEnded_stage (fatal : Bool) {s : State} (w : RegsOk s) : (bistEnded fatal s).stage = if fatal then 8 else 2 := by
  have wm : RegsOk (bistMarked s) := w
  rw [bistEnded, State.stage, State.setStage, State.fld_putF_same wm (by decide)]
  split <;> rfl

theorem bistEnded_rd (fatal : Bool) {s : State} (w : RegsOk s) {x : Nat} (h : x ≠ Reg.globalPwrupStatus) :
    (bistEnded fatal s).rd x = s.rd x := by
  have wm : RegsOk (bistMarked s) := w
  exact State.rd_putF_ne wm h

theorem execBistComplete_done {s : State} {r : BistResult} (ht : s.tclk = true) (hh : s.inHold = false) (hb : s.bistDone = false) :
    execBistComplete r s = .next (bistEnded r.fatal (bistReport r s)) :=
  onlyIf_of_true (by simp [ht, hh, hb])

/-- What the registers of the GLOBAL block show when BIST has ended. -/
theorem bistEnded_regs (r : BistResult) {s : State} (w : s.wf = true) :
    (bistEnded r.fatal (bistReport r s)).stage = (if r.fatal then 8 else 2) ∧
    (bistEnded r.fatal (bistReport r s)).rd Reg.globalCoreAvail = ~~~(BitVec.ofNat 32 (failedCores r)) ∧
    (bistEnded r.fatal (bistReport r s)).bit Reg.globalBistStatus 0 = true ∧
    (bistEnded r.fatal (bistReport r s)).bit Reg.globalBistStatus 1 = r.fatal ∧
    (bistEnded r.fatal (bistReport r s)).rdQ Reg.globalChAvail 2 = (~~~r.chFail).toNat := by
  obtain ⟨wg, hcore, hdone, hfatal, hch⟩ := bistGlobal_regs r w
  obtain ⟨wr, hrd⟩ := bistReport_changesOnlyRegs r s wg
  have hsame (x : Nat) (h : x ≠ Reg.globalPwrupStatus) (hx : isBistLate x = false) :
      (bistEnded r.fatal (bistReport r s)).rd x = (bistGlobal r s).rd x := (bistEnded_rd _ wr h).trans (hrd x hx)
  exact ⟨bistEnded_stage _ wr, (hsame _ (by decide) (by decide)).trans hcore,
    (State.bit_of_rd (hsame _ (by decide) (by decide)) 0).trans hdone, (State.bit_of_rd (hsame _ (by decide) (by decide)) 1).trans hfatal,
    (State.rdQ_two_of_rd (hsame _ (by decide) (by decide)) (hsame _ (by decide) (by decide))).trans hch⟩

theorem execConfigurationRequest_retry {s : State} {r : CfgReq} (h : s.up = true) (hb : s.bistDone = false) :
    execConfigurationRequest r s = .next (s.answer .retry) := by
  simp [execConfigurationRequest, h, hb]

theorem exec_configurationRequest_done {s : State} (hk : s.Kept) (h : s.up = true) (hb : s.bistDone = true) (r : CfgReq) :
    exec (.configurationRequest r) s = .next ({ s with host := cfgApply r s.host }.answer .configDone) :=
  inContract_kept hk (by exact hk) (by simp [execConfigurationRequest, h, hb])

/-- Settles O11: the resets of the fabric, the rise of PERST_N, and what the power-up sequence reports. -/
theorem fabricResetsAndPowerUp : Obligations.FabricResetsAndPowerUp := by
  refine ⟨⟨fun s hk hup => ⟨exec_perstNAssert_up hk hup, exec_pcieHotReset_up hk hup⟩, fun s w => ?_⟩,
    fun s strap hk w hp hpow hn hf hc => ?_, fun s hk hup => ⟨fun r w ht hh hb => ?_, ?_, fun width speed => ?_, fun hb r => ?_, fun hb => ?_⟩⟩
  · obtain ⟨hwarp, hcores, hmem⟩ := fabricReset_empty s
    have hw := fabricReset_within_clear s
    exact ⟨fabricReset_stage w, hcores, hwarp, hw.slots rfl, hmem, hw.loader rfl, fabricReset_running s, fabricReset_safeCount w,
      fabricReset_regs w⟩
  · have hkeep : (boot { s with pins := { s.pins with perstN := true, addr := strap } }).Kept :=
      kept_of_contract (boot_within.contract rfl) (by exact hk)
    have e := exec_perstNRelease_powered (strap := strap) hk hp hpow hn hf
    obtain ⟨hstage, hrd⟩ := boot_regs (s := { s with pins := { s.pins with perstN := true, addr := strap } }) (State.wf_regs w) hc
    exact ⟨_, e, boot_within.pins rfl, hstage, hrd,
      fun p hp hq => (exec_within hk hkeep e).same p (testBit_partsMask (by simp [touches, hp, hq]))⟩
  · have hw : Within 8 s (bistReport r s) := bistReport_within
    obtain ⟨hdone, hmem, hpins, hcontract⟩ := bistEnded_same r.fatal (bistReport r s)
    obtain ⟨hstage, hcore, hbits, hfatal, hch⟩ := bistEnded_regs r w
    exact ⟨_, inContract_kept hk (kept_of_contract (hcontract.trans (hw.contract rfl)) hk) (execBistComplete_done ht hh hb), hdone, hstage,
      hcore, hbits, hfatal, hch, hmem.trans (hw.mem rfl), hpins.trans (hw.pins rfl)⟩
  · exact inContract_kept hk (by exact hk) (onlyIf_of_true hup)
  · exact inContract_kept hk (by exact hk) (onlyIf_of_true hup)
  · exact inContract_kept hk hk (execConfigurationRequest_retry hup hb)
  · have hcfg := exec_configurationRequest_done hk hup hb
    exact ⟨hcfg .read, fun b => hcfg (.busMaster b), fun b => hcfg (.msixEnable b), fun b => hcfg (.power b), hcfg .aerClear,
      fun b => hcfg (.msixMask b)⟩

end Sys2Proof.Machine
end

section
/-! SUPPORT. SYSCLK (R67, R472, R596, R597), and the state after reset (R31, R34, R36, R569). -/

namespace Sys2Proof.Machine

/-! ### SYSCLK (R67, R472, R596) -/

/-- R67: a counter is unreferenced; the others stay. -/
theorem unrefPick_bit {s : State} (w : RegsOk s) (m n : Nat) :
    (unrefPick s m).bit (Reg.posPkStatus n) 2 = (m == n || s.bit (Reg.posPkStatus n) 2) := by
  by_cases h : m = n
  · subst h
    simp [unrefPick, State.bit_putB_same w]
  · have hne : Reg.posPkStatus n ≠ Reg.posPkStatus m := by simp only [Reg.posPkStatus]; omega
    rw [unrefPick, State.bit_of_rd (State.rd_putB_ne w hne)]
    simp [h]

/-- The registers POS_PK_STATUSn. -/
def isPkStatus (x : Nat) : Bool := Reg.posPkStatus 0 ≤ x

theorem unrefPick_changesOnlyRegs (s : State) (n : Nat) : ChangesOnlyRegs isPkStatus s (unrefPick s n) :=
  putB_changesOnlyRegs (by simp [isPkStatus, Reg.posPkStatus])

/-- What a loss of SYSCLK leaves of the registers before the counters are unreferenced. -/
def clockFlagged (s : State) : State := timeSync ((s.putB Reg.timeStatus 6 true).putB Reg.timeCtrl 1 false)

theorem clockFlagged_bits {s : State} (w : RegsOk s) :
    RegsOk (clockFlagged s) ∧ (clockFlagged s).bit Reg.timeStatus 6 = true ∧ (clockFlagged s).bit Reg.timeCtrl 1 = false := by
  have w1 : RegsOk (s.putB Reg.timeStatus 6 true) := regsOk_putB w
  have w2 : RegsOk ((s.putB Reg.timeStatus 6 true).putB Reg.timeCtrl 1 false) := regsOk_putB w1
  have hstatus : ((s.putB Reg.timeStatus 6 true).putB Reg.timeCtrl 1 false).bit Reg.timeStatus 6 = true := by
    rw [State.bit_of_rd (State.rd_putB_ne w1 (by decide)), State.bit_putB_same w (by decide)]
  have hctrl : ((s.putB Reg.timeStatus 6 true).putB Reg.timeCtrl 1 false).bit Reg.timeCtrl 1 = false :=
    State.bit_putB_same w1 (by decide)
  unfold clockFlagged timeSync
  generalize (s.putB Reg.timeStatus 6 true).putB Reg.timeCtrl 1 false = u at w2 hstatus hctrl
  generalize (if chainBound u then _ else _ : Bool) = l
  have w3 : RegsOk (u.putB Reg.timeStatus 0 l) := regsOk_putB w2
  refine ⟨regsOk_putB w3, ?_, ?_⟩
  · rw [State.bit_of_rd (State.rd_putB_ne w3 (by decide)), State.bit_putB_ne w2 (by decide), hstatus]
  · rw [State.bit_of_rd (State.rd_putB_ne w3 (by decide)), State.bit_of_rd (State.rd_putB_ne w2 (by decide)), hctrl]

/-- R67: the loss is shown in TIME_STATUS, TIME is no longer set, and every counter is unreferenced. -/
theorem clockLost_bits {s : State} (w : RegsOk s) :
    (clockLost s).bit Reg.timeStatus 6 = true ∧ (clockLost s).bit Reg.timeCtrl 1 = false ∧
    ∀ n : Fin 4, (clockLost s).bit (Reg.posPkStatus n) 2 = true := by
  obtain ⟨wf, hstatus, hctrl⟩ := clockFlagged_bits w
  obtain ⟨-, hrd⟩ := foldl_changesOnlyRegs (l := [0, 1, 2, 3]) (fun n _ s => unrefPick_changesOnlyRegs s n) (clockFlagged s) wf
  refine ⟨(State.bit_of_rd (hrd _ (by decide)) 6).trans hstatus, (State.bit_of_rd (hrd _ (by decide)) 1).trans hctrl, fun n => ?_⟩
  have w0 : RegsOk (unrefPick (clockFlagged s) 0) := regsOk_putB wf
  have w1 : RegsOk (unrefPick (unrefPick (clockFlagged s) 0) 1) := regsOk_putB w0
  have w2 : RegsOk (unrefPick (unrefPick (unrefPick (clockFlagged s) 0) 1) 2) := regsOk_putB w1
  change (unrefPick (unrefPick (unrefPick (unrefPick (clockFlagged s) 0) 1) 2) 3).bit (Reg.posPkStatus n) 2 = true
  rw [unrefPick_bit w2, unrefPick_bit w1, unrefPick_bit w0, unrefPick_bit wf]
  have hn : n.val = 0 ∨ n.val = 1 ∨ n.val = 2 ∨ n.val = 3 := by omega
  rcases hn with h | h | h | h <;> simp [h]

/-- Settles O12: the loss of SYSCLK, its return, the relock, and what a loss of companion memory leaves. -/
theorem sysclkLossAndReturn : Obligations.SysclkLossAndReturn := by
  refine ⟨fun s hk hf => ⟨fun hc hup => ?_, fun hc => ?_, fun hc ms => ?_, fun w => clockLost_bits (State.wf_regs w)⟩,
    fun s a w => ⟨loseComp_byte_comp, loseComp_byte_onDie w⟩⟩
  · have hkeep : (clockLost { s with clk := .stopped }).Kept := kept_of_contract (clockLost_within.contract rfl) (by exact hk)
    refine inContract_kept hk (kept_of_contract (selvEvent_within.contract rfl) hkeep) ?_
    rw [execSysclkLoss, onlyIf_of_true (by simp [hc, hf])]
    have hup' : ({ s with clk := .stopped } : State).up = true := hup
    simp [hup']
  · exact inContract_kept hk (by exact hk) (onlyIf_of_true (by simp [hc, hf]))
  · refine inContract_kept hk ?_ (onlyIf_of_true (by simp [hc, hf]))
    dsimp only
    split
    · exact hk
    · exact hk

/-! ### The state after reset (R31, R34, R36, R569) -/

/-- The value after power-up of the one-word registers in the second row of a block. -/
theorem regReset_of_second_row {b : Blk} {x r : RegDef} {l : List RegDef} {w : WordDef} {n : Nat} (hrows : blkRegs b = x :: r :: l)
    (hclear : x.clearOf r = true) (hw : r.words = [w]) (hn : n < r.count) (hs : 0 < r.stride)
    (hsize : r.off + n * r.stride < (blkBase b).2) (hpage : (blkBase b).1 + (r.off + n * r.stride) < 0x2800100) :
    regReset ((blkBase b).1 + (r.off + n * r.stride)) = BitVec.ofNat 32 w.reset := by
  have hb : blkOf ((blkBase b).1 + (r.off + n * r.stride)) = some b := blkOf_of_mem (by omega) (by omega)
  have hlen : r.words.length = 1 := by rw [hw]; rfl
  have hx : x.hit (blkBase b).1 (r.off + n * r.stride + 0) = none := RegDef.hit_of_clearOf hclear (by omega)
  have hr : r.hit (blkBase b).1 (r.off + n * r.stride + 0) = some ⟨(blkBase b).1 + r.off + n * r.stride, 0 / 4, r⟩ :=
    RegDef.hit_of hn (by omega) (by omega) (by omega)
  have hhit : regHit ((blkBase b).1 + (r.off + n * r.stride)) = some ⟨(blkBase b).1 + r.off + n * r.stride, 0 / 4, r⟩ := by
    simp only [regHit, hb, Nat.add_sub_cancel_left, hrows]
    rw [List.findSome?_cons_of_isNone (by simpa using hx), List.findSome?_cons_of_isSome (by simpa using congrArg Option.isSome hr)]
    exact hr
  rw [regReset, if_neg (by omega), hhit]
  simp [RegHit.word, hw]

/-- Every core, queue and port is UNUSED after power-up. -/
theorem reset_states : (∀ k : Fin 32, coreState State.reset k = 3) ∧ (∀ q : Fin 1024, qState State.reset q = 3) ∧
    ∀ p : Fin 8, portState State.reset p = 3 := by
  have hfld {a v : Nat} (h : regReset a = BitVec.ofNat 32 v) (hv : fieldN (BitVec.ofNat 32 v).toNat 0 2 = 3) :
      State.reset.fld a 0 2 = 3 := by
    change fieldN (regReset a).toNat 0 2 = 3
    rw [h, hv]
  refine ⟨fun k => ?_, fun q => ?_, fun p => ?_⟩
  · have h := regReset_of_second_row (b := .coreB) (n := k.val) rfl rfl rfl k.isLt (by decide) (by simp only [blkBase]; omega)
      (by simp only [blkBase]; omega)
    refine hfld (v := 0x23) ?_ rfl
    rw [← h]
    simp only [Reg.coreStatus, blkBase]
    congr 1
    omega
  · have h := regReset_of_second_row (b := .queueB) (n := q.val) rfl rfl rfl q.isLt (by decide) (by simp only [blkBase]; omega)
      (by simp only [blkBase]; omega)
    refine hfld (v := 0x8B) ?_ rfl
    rw [← h]
    simp only [Reg.queueStatus, blkBase]
    congr 1
    omega
  · have h := regReset_of_second_row (b := .ethB) (n := p.val) rfl rfl rfl p.isLt (by decide) (by simp only [blkBase]; omega)
      (by simp only [blkBase]; omega)
    refine hfld (v := 0x3) ?_ rfl
    rw [← h]
    simp only [Reg.ethPortStatus, blkBase]
    congr 1
    omega

/-- Nothing is written after power-up, and nothing has lost its contents (log entry 5). -/
theorem reset_byte (a : Nat) : State.reset.byte a = 0 := by
  change memUnlisted ⟨0, 0⟩ a = 0
  simp [memUnlisted]

/-- Settles O3: the fields of the state, and the registers at their values after power-up (R31, R34, R36, R569). -/
theorem resetState : Obligations.ResetState := by
  obtain ⟨hcore, hqueue, hport⟩ := reset_states
  exact ⟨⟨rfl, rfl, rfl, rfl, rfl, by decide +kernel, rfl, by decide +kernel, by decide +kernel, fun _ => rfl, reset_byte, hcore, hqueue,
    hport⟩, rfl⟩

end Sys2Proof.Machine
end

section
/-! SUPPORT. Two statements that fail: a command evaluated in a state that meets their hypotheses and not their conclusions. -/

namespace Sys2Proof.Machine

/-! ### A write of both request bits where the register file is not in canonical form (R55) -/

/-- The registers after a command. -/
def regsAfter (r : Host.Outcome State Fault Refusal) : Option (Tab W32) :=
  match r with
  | .next t => some t.regs
  | _ => none

/-- The part after BIST with GLOBAL_PT_CTRL0 listed at its value after power-up: a register file that no write leaves, since a
canonical one lists no register at that value. -/
def ctrlListed : State :=
  { State.reset with host := { State.reset.host with bistDone := true }, regs := [(Reg.globalPtCtrl 0, 0)] }

/-- A write of the register drops the entry; the command leaves it. -/
theorem ctrlListed_regs :
    regsAfter (exec (.bar0Write (BitVec.ofNat 26 (Reg.globalPtCtrl 0)) .b32 3#64 false) ctrlListed) = some [] ∧
    regsAfter (exec (.ptDisable 0) ctrlListed) = some [(Reg.globalPtCtrl 0, 0)] := by
  constructor <;> decide +kernel

/-- Refutes O13: the statement has no hypothesis that the register file is in canonical form. Its last clause asks that a write of
both bits gives the very state that the command gives; where GLOBAL_PT_CTRL0 is listed at its value after power-up, the write puts the
file in canonical form and DISABLE of the UNUSED partition leaves it. -/
theorem not_switchableBlockRequests : ¬ Obligations.SwitchableBlockRequests := by
  intro h
  have hswitch : IsSwitch (Reg.globalPtStatus (0 : Fin 8)) (Reg.globalPtCtrl (0 : Fin 8)) (.ptEnable 0) (.ptDisable 0) :=
    .inl ⟨0, rfl, rfl, rfl, rfl⟩
  obtain ⟨-, -, -, -, -, -, hwrite⟩ := h _ _ _ _ ctrlListed hswitch rfl (by decide +kernel)
  obtain ⟨hleft, hright⟩ := ctrlListed_regs
  have hsame := hleft.symm.trans ((congrArg regsAfter hwrite).trans hright)
  exact absurd hsame (by decide)

/-! ### A partition with a grid beyond the 64 that the part has (R139, R150) -/

/-- The grid number whose INTAKE_GRID_SEQ would stand at the offset of CORE_ENTRY of core 0. -/
def entryGrid : Nat := 0x3EFC1

theorem intakeGridSeq_entryGrid : Reg.intakeGridSeq entryGrid = Reg.coreEntry 0 := rfl

/-- The part after BIST with partition 0 OFF, which owns core 0, OFF, with its entry at 64, and the grid `entryGrid`. -/
def gridBeyond : State :=
  { State.reset with
    host := { State.reset.host with bistDone := true }
    regs := [(Reg.globalPtStatus 0, 0), (Reg.coreStatus 0, 0), (Reg.coreEntry 0, 64)]
    warp := { Warp.empty with parts := [{ PartEntry.unused with used := true, coreMask := 1 }] }
    intake := { State.reset.intake with
      grids := [(entryGrid, ⟨0, 0, none, [], [], [], 0, [], 0, 0, 0, 0, 0, 0, 0, GridBuf.ready, GridBuf.ready, 0⟩)] } }

/-- What a partition's enable leaves of the contract and of the PC of core 0. -/
def startedAt (r : Host.Outcome State Fault Refusal) : Option (Bool × W64) :=
  match r with
  | .next t => some (t.contract.broken, (core t 0).pc)
  | _ => none

/-- The grid that opens writes its sequence number, 0, over the entry. -/
theorem gridBeyond_startedAt : startedAt (exec (.ptEnable 0) gridBeyond) = some (false, 0) := by decide +kernel

/-- Refutes O17: the statement has no hypothesis that the grids of the intake are among the 64 that the part has (R139), nor has the
canonical form. PT_ENABLE opens the grids of the partition before its cores start; with a grid whose INTAKE_GRID_SEQ stands at the
offset of CORE_ENTRY of core 0, the core starts at the number of the grid's buffer, and not at the entry it had. -/
theorem not_partitionsAndCores : ¬ Obligations.PartitionsAndCores := by
  intro h
  obtain ⟨hstart, -⟩ := h.1 gridBeyond rfl (by decide +kernel)
  obtain ⟨t, e, -, -, hcores, -⟩ := hstart 0 (by decide +kernel) (by decide +kernel) (by decide +kernel)
  obtain ⟨-, hpc⟩ := hcores 0 (by decide +kernel) (by decide +kernel)
  have hstarted := (congrArg startedAt e).symm.trans gridBeyond_startedAt
  simp only [startedAt, Option.some.injEq, Prod.mk.injEq, State.settle_contract] at hstarted
  obtain ⟨hkept, hzero⟩ := hstarted
  rw [State.settle_of_kept hkept, hpc] at hzero
  exact absurd hzero (by decide +kernel)

end Sys2Proof.Machine
end

section
/-! SUPPORT. What the operations of a queue change, and what a queue shows after them (R167, R176 to R178). -/

namespace Sys2Proof.Machine

/-! ### Fields of a register after changes of others -/

section
variable {p r : Nat → Bool} {s t : State}

theorem ChangesOnlyRegs.mono (h : ChangesOnlyRegs p s t) (hpr : ∀ x, r x = false → p x = false) : ChangesOnlyRegs r s t := by
  intro w
  obtain ⟨wt, hrd⟩ := h w
  exact ⟨wt, fun x hx => hrd x (hpr x hx)⟩

theorem ChangesOnlyRegs.fld (h : ChangesOnlyRegs p s t) (w : RegsOk s) {x : Nat} (hx : p x = false) (lo n : Nat) :
    t.fld x lo n = s.fld x lo n := State.fld_of_rd ((h w).2 x hx) lo n

theorem ChangesOnlyRegs.bit (h : ChangesOnlyRegs p s t) (w : RegsOk s) {x : Nat} (hx : p x = false) (i : Nat) :
    t.bit x i = s.bit x i := State.bit_of_rd ((h w).2 x hx) i

theorem ChangesOnlyRegs.regsOk (h : ChangesOnlyRegs p s t) (w : RegsOk s) : RegsOk t := (h w).1

theorem resetRange_changesOnlyRegs {lo hi : Nat} (h : ∀ x, lo ≤ x → x < hi → p x = true) :
    ChangesOnlyRegs p s (s.resetRange lo hi) := by
  refine fun w => ⟨Tab.wf_filter _ w, fun x hx => Tab.get_filter_kept (fun v => ?_) w⟩
  have hout : x < lo ∨ hi ≤ x := by
    by_contra hin
    rw [h x (by omega) (by omega)] at hx
    cases hx
  simpa using hout

end

/-! ### The registers of a queue that its operations write (R167, R176 to R178) -/

/-- Status, counters, refusals and the high-water mark of queue q. -/
def queueRun (q x : Nat) : Bool :=
  x == Reg.queueStatus q || x == Reg.queueHead q || x == Reg.queueTail q || x == Reg.queueResv q || x == Reg.queueRefused q
    || x == Reg.queueHwm q

section
variable (q : Nat)

theorem queueRun_status : queueRun q (Reg.queueStatus q) = true := by simp [queueRun]
theorem queueRun_head : queueRun q (Reg.queueHead q) = true := by simp [queueRun]
theorem queueRun_tail : queueRun q (Reg.queueTail q) = true := by simp [queueRun]
theorem queueRun_resv : queueRun q (Reg.queueResv q) = true := by simp [queueRun]
theorem queueRun_refused : queueRun q (Reg.queueRefused q) = true := by simp [queueRun]
theorem queueRun_hwm : queueRun q (Reg.queueHwm q) = true := by simp [queueRun]

end

/-- The registers of the other queues, and those outside the block, are none of queue q's. -/
theorem queueRun_eq_false {q x : Nat} (h : x < Reg.queueStatus q ∨ Reg.queueHwm q < x) : queueRun q x = false := by
  simp only [queueRun, Bool.or_eq_false_iff, beq_eq_false_iff_ne, Reg.queueStatus, Reg.queueHead, Reg.queueTail, Reg.queueResv,
    Reg.queueRefused, Reg.queueHwm] at h ⊢
  omega

theorem queueRun_status_ne {q r : Nat} (h : r ≠ q) : queueRun q (Reg.queueStatus r) = false := by
  refine queueRun_eq_false ?_
  simp only [Reg.queueStatus, Reg.queueHwm]
  omega

/-- The configuration of a queue is none of the registers that operations write. -/
theorem queueRun_config {q r : Nat} : queueRun q (Reg.queueBase r) = false ∧ queueRun q (Reg.queueBase r + 4) = false ∧
    queueRun q (Reg.queueCfg r) = false := by
  simp only [queueRun, Bool.or_eq_false_iff, beq_eq_false_iff_ne, Reg.queueStatus, Reg.queueHead, Reg.queueTail, Reg.queueResv,
    Reg.queueRefused, Reg.queueHwm, Reg.queueBase, Reg.queueCfg]
  omega

theorem queueRun_below {q x : Nat} (h : x < 0x80000) : queueRun q x = false :=
  queueRun_eq_false (.inl (by simp only [Reg.queueStatus]; omega))

theorem queueRun_above {q x : Nat} (hq : q < 1024) (h : 0x90000 ≤ x) : queueRun q x = false :=
  queueRun_eq_false (.inr (by simp only [Reg.queueHwm]; omega))

section
variable (q : Nat) (s : State)

theorem qSync_changesOnlyRegs : ChangesOnlyRegs (queueRun q) s (qSync q s) := by
  unfold qSync
  dsimp only
  split
  · exact ((putB_changesOnlyRegs (queueRun_status q)).trans (putB_changesOnlyRegs (queueRun_status q))).trans
      (putF_changesOnlyRegs (queueRun_hwm q))
  · exact (putB_changesOnlyRegs (queueRun_status q)).trans (putB_changesOnlyRegs (queueRun_status q))

/-- A wait that is closed counts in QUEUE_REFUSED, and nowhere else. -/
theorem closeWait_changesOnlyRegs (acq : Bool) (k : Nat) : ChangesOnlyRegs (· == Reg.queueRefused q) s (closeWait q acq s k) := by
  unfold closeWait
  split
  · split
    · split
      · exact (wr_changesOnlyRegs (a := Reg.queueRefused q) (by simp)).trans (.of_regs (by rfl))
      · exact .of_regs rfl
    · exact .of_regs rfl
  · exact .of_regs rfl

theorem closeWaits_changesOnlyRegs (acq : Bool) : ChangesOnlyRegs (· == Reg.queueRefused q) s (closeWaits q acq s) :=
  foldl_changesOnlyRegs (fun k _ s => closeWait_changesOnlyRegs q s acq k) s

theorem closeWaits_queueRun (acq : Bool) : ChangesOnlyRegs (queueRun q) s (closeWaits q acq s) :=
  (closeWaits_changesOnlyRegs q s acq).mono fun x hx => by
    rw [beq_eq_false_iff_ne]
    rintro rfl
    rw [queueRun_refused] at hx
    cases hx

/-- The counters of a queue at 0. -/
theorem countersCleared_changesOnlyRegs :
    ChangesOnlyRegs (queueRun q) s (((s.wr (Reg.queueHead q) 0).wr (Reg.queueTail q) 0).wr (Reg.queueResv q) 0) :=
  ((wr_changesOnlyRegs (queueRun_head q)).trans (wr_changesOnlyRegs (queueRun_tail q))).trans (wr_changesOnlyRegs (queueRun_resv q))

theorem qStart_changesOnlyRegs : ChangesOnlyRegs (queueRun q) s (qStart q s) := by
  refine ChangesOnlyRegs.trans ?_ (qSync_changesOnlyRegs q _)
  refine ChangesOnlyRegs.trans ?_ (putF_changesOnlyRegs (queueRun_status q))
  refine ChangesOnlyRegs.trans ?_ (putB_changesOnlyRegs (queueRun_status q))
  refine ChangesOnlyRegs.trans ?_ (putF_changesOnlyRegs (queueRun_hwm q))
  exact (countersCleared_changesOnlyRegs q s).trans (.of_regs (by rfl))

theorem qFlush_changesOnlyRegs : ChangesOnlyRegs (queueRun q) s (qFlush q s) := by
  refine ChangesOnlyRegs.trans ?_ (closeWaits_queueRun q _ true)
  refine ChangesOnlyRegs.trans ?_ (qSync_changesOnlyRegs q _)
  exact (countersCleared_changesOnlyRegs q s).trans (.of_regs (by rfl))

end

/-! ### What a queue shows after an operation -/

theorem qState_closeWaits {s : State} (w : RegsOk s) (q : Nat) (acq : Bool) : qState (closeWaits q acq s) q = qState s q :=
  (closeWaits_changesOnlyRegs q s acq).fld w (by simp [Reg.queueStatus, Reg.queueRefused]) 0 2

/-- The queue with its counters at 0 and its high-water mark cleared, armed and ENABLED. -/
def qCleared (q : Nat) (s : State) : State :=
  (((setSlots (((s.wr (Reg.queueHead q) 0).wr (Reg.queueTail q) 0).wr (Reg.queueResv q) 0) q []).putF (Reg.queueHwm q) 0 17 0).putB
    (Reg.queueStatus q) 7 true).putF (Reg.queueStatus q) 0 2 1

theorem qStart_eq (q : Nat) (s : State) : qStart q s = qSync q (qCleared q s) := rfl

theorem qCleared_regs {s : State} (w : RegsOk s) (q : Nat) :
    RegsOk (qCleared q s) ∧ qHead (qCleared q s) q = 0 ∧ qTail (qCleared q s) q = 0 ∧ qResv (qCleared q s) q = 0 ∧
    qState (qCleared q s) q = 1 ∧ (qCleared q s).bit (Reg.queueStatus q) 7 = true ∧
    (qCleared q s).bit (Reg.queueStatus q) 2 = s.bit (Reg.queueStatus q) 2 := by
  have w1 : RegsOk (s.wr (Reg.queueHead q) 0) := regsOk_wr w
  have w2 : RegsOk ((s.wr (Reg.queueHead q) 0).wr (Reg.queueTail q) 0) := regsOk_wr w1
  have hhead : (((s.wr (Reg.queueHead q) 0).wr (Reg.queueTail q) 0).wr (Reg.queueResv q) 0).rd (Reg.queueHead q) = 0 := by
    rw [State.rd_wr_ne w2 (by simp [Reg.queueHead, Reg.queueResv]), State.rd_wr_ne w1 (by simp [Reg.queueHead, Reg.queueTail]),
      State.rd_wr_same w]
  have htail : (((s.wr (Reg.queueHead q) 0).wr (Reg.queueTail q) 0).wr (Reg.queueResv q) 0).rd (Reg.queueTail q) = 0 := by
    rw [State.rd_wr_ne w2 (by simp [Reg.queueTail, Reg.queueResv]), State.rd_wr_same w1]
  have hresv : (((s.wr (Reg.queueHead q) 0).wr (Reg.queueTail q) 0).wr (Reg.queueResv q) 0).rd (Reg.queueResv q) = 0 :=
    State.rd_wr_same w2
  have hstatus : (((s.wr (Reg.queueHead q) 0).wr (Reg.queueTail q) 0).wr (Reg.queueResv q) 0).rd (Reg.queueStatus q) =
      s.rd (Reg.queueStatus q) := by
    rw [State.rd_wr_ne w2 (by simp [Reg.queueStatus, Reg.queueResv]), State.rd_wr_ne w1 (by simp [Reg.queueStatus, Reg.queueTail]),
      State.rd_wr_ne w (by simp [Reg.queueStatus, Reg.queueHead])]
  have w3 := regsOk_wr w2 (a := Reg.queueResv q) (v := 0)
  unfold qCleared
  generalize hu : ((s.wr (Reg.queueHead q) 0).wr (Reg.queueTail q) 0).wr (Reg.queueResv q) 0 = u at w3 hhead htail hresv hstatus
  have w4 : RegsOk (setSlots u q []) := w3
  have w5 : RegsOk ((setSlots u q []).putF (Reg.queueHwm q) 0 17 0) := regsOk_putF w4
  have w6 : RegsOk (((setSlots u q []).putF (Reg.queueHwm q) 0 17 0).putB (Reg.queueStatus q) 7 true) := regsOk_putB w5
  have hrest (x : Nat) (h1 : x ≠ Reg.queueStatus q) (h2 : x ≠ Reg.queueHwm q) :
      ((((setSlots u q []).putF (Reg.queueHwm q) 0 17 0).putB (Reg.queueStatus q) 7 true).putF (Reg.queueStatus q) 0 2 1).rd x =
        u.rd x := by
    rw [State.rd_putF_ne w6 h1, State.rd_putB_ne w5 h1, State.rd_putF_ne w4 h2]
    rfl
  refine ⟨regsOk_putF w6, ?_, ?_, ?_, State.fld_putF_same w6 (by decide), ?_, ?_⟩
  · exact (hrest _ (by simp [Reg.queueHead, Reg.queueStatus]) (by simp [Reg.queueHead, Reg.queueHwm])).trans hhead
  · exact (hrest _ (by simp [Reg.queueTail, Reg.queueStatus]) (by simp [Reg.queueTail, Reg.queueHwm])).trans htail
  · exact (hrest _ (by simp [Reg.queueResv, Reg.queueStatus]) (by simp [Reg.queueResv, Reg.queueHwm])).trans hresv
  · rw [State.bit_putF_ne w6 (by decide), State.bit_putB_same w5 (by decide)]
  · rw [State.bit_putF_ne w6 (by decide), State.bit_putB_ne w5 (by decide),
      State.bit_of_rd (State.rd_putF_ne w4 (by simp [Reg.queueStatus, Reg.queueHwm]))]
    exact State.bit_of_rd hstatus 2

theorem qSync_of_empty {q : Nat} {s : State} (h : qFill s q = 0) :
    qSync q s = (s.putB (Reg.queueStatus q) 3 true).putB (Reg.queueStatus q) 4 (qFree s q == 0) := by
  simp [qSync, h]

/-- R176: a queue starts empty, armed and ENABLED. -/
theorem qStart_regs {s : State} (w : RegsOk s) (q : Nat) :
    qState (qStart q s) q = 1 ∧ qHead (qStart q s) q = 0 ∧ qTail (qStart q s) q = 0 ∧ qResv (qStart q s) q = 0 ∧
    (qStart q s).bit (Reg.queueStatus q) 3 = true ∧ (qStart q s).bit (Reg.queueStatus q) 7 = true ∧
    (qStart q s).bit (Reg.queueStatus q) 2 = s.bit (Reg.queueStatus q) 2 := by
  obtain ⟨wc, hhead, htail, hresv, hstate, harmed, hpend⟩ := qCleared_regs w q
  have hfill : qFill (qCleared q s) q = 0 := by rw [qFill, hhead, htail]; rfl
  have heq : qStart q s = ((qCleared q s).putB (Reg.queueStatus q) 3 true).putB (Reg.queueStatus q) 4
      (qFree (qCleared q s) q == 0) := by
    rw [qStart_eq, qSync_of_empty hfill]
  have w1 : RegsOk ((qCleared q s).putB (Reg.queueStatus q) 3 true) := regsOk_putB wc
  have hrest (x : Nat) (h : x ≠ Reg.queueStatus q) : (qStart q s).rd x = (qCleared q s).rd x := by
    rw [heq, State.rd_putB_ne w1 h, State.rd_putB_ne wc h]
  refine ⟨?_, (hrest _ (by simp [Reg.queueHead, Reg.queueStatus])).trans hhead,
    (hrest _ (by simp [Reg.queueTail, Reg.queueStatus])).trans htail, (hrest _ (by simp [Reg.queueResv, Reg.queueStatus])).trans hresv, ?_, ?_, ?_⟩ <;> rw [heq]
  · rw [qState, State.fld_putB_ne w1 (by decide), State.fld_putB_ne wc (by decide)]
    exact hstate
  · rw [State.bit_putB_ne w1 (by decide), State.bit_putB_same wc (by decide)]
  · rw [State.bit_putB_ne w1 (by decide), State.bit_putB_ne wc (by decide), harmed]
  · rw [State.bit_putB_ne w1 (by decide), State.bit_putB_ne wc (by decide), hpend]

/-- R56: a drained queue is OFF, or ENABLED with its pending enable taken. -/
theorem qDrained_regs {s : State} (w : RegsOk s) (q : Nat) :
    (s.bit (Reg.queueStatus q) 2 = false → qState (qDrained q s) q = 0) ∧
    (s.bit (Reg.queueStatus q) 2 = true → qState (qDrained q s) q = 1 ∧ (qDrained q s).bit (Reg.queueStatus q) 2 = false) := by
  refine ⟨fun h => ?_, fun h => ?_⟩
  · rw [qDrained, if_neg (by simp [h]), qState_closeWaits (regsOk_putF w)]
    exact State.fld_putF_same w (by decide)
  · rw [qDrained, if_pos h]
    obtain ⟨hstate, -, -, -, -, -, hpend⟩ := qStart_regs (regsOk_putB w (a := Reg.queueStatus q) (i := 2) (b := false)) q
    exact ⟨hstate, hpend.trans (State.bit_putB_same w (by decide))⟩

/-! ### The waits that a queue closes (R177, R178) -/

/-- Core k waits in the queue engine with the word w, answered CLOSED if `b`. -/
def WaitsIn (k : Nat) (w : IWord) (b : Bool) (s : State) : Prop := (core s k).wait = .queue w b

theorem closeWait_of_ne {q : Nat} {acq : Bool} {s : State} (ws : s.wf = true) {j k : Nat} (h : k ≠ j) :
    core (closeWait q acq s j) k = core s k := by
  unfold closeWait
  split
  · split
    · split
      · exact core_setCore_ne (s := s.sat (Reg.queueRefused q)) (State.sat_within.wf ws) h _
      · exact core_setCore_ne ws h _
    · rfl
  · rfl

theorem closeWait_closes {q : Nat} {acq : Bool} {s : State} (ws : s.wf = true) {k : Nat} {w : IWord} (hw : WaitsIn k w false s)
    (hop : waitOp w = 1) (hq : waitQ w = q) : WaitsIn k w true (closeWait q acq s k) := by
  have hcond : (waitQ w == q && (waitOp w == 1 || (acq && waitOp w == 3))) = true := by simp [hop, hq]
  unfold closeWait WaitsIn
  rw [show (core s k).wait = .queue w false from hw]
  dsimp only
  rw [if_pos hcond, if_pos hop, core_setCore_same (State.sat_within.wf ws)]

theorem closeWait_keeps {q : Nat} {acq : Bool} {s : State} (ws : s.wf = true) {j k : Nat} {w : IWord} (hw : WaitsIn k w true s) :
    WaitsIn k w true (closeWait q acq s j) := by
  by_cases h : k = j
  · subst h
    have heq : closeWait q acq s k = s := by rw [closeWait, show (core s k).wait = .queue w true from hw]
    rwa [heq]
  · rw [WaitsIn, closeWait_of_ne ws h]
    exact hw

theorem closeWait_fold {q : Nat} {acq : Bool} {k : Nat} {w : IWord} (hop : waitOp w = 1) (hq : waitQ w = q) (l : List Nat) :
    ∀ {s : State} {b : Bool}, s.wf = true → WaitsIn k w b s → (b = true ∨ k ∈ l) → WaitsIn k w true (l.foldl (closeWait q acq) s) := by
  induction l with
  | nil =>
    intro s b ws hw h
    rcases h with rfl | h
    · exact hw
    · cases h
  | cons j l ih =>
    intro s b ws hw h
    have ws' : (closeWait q acq s j).wf = true := closeWait_within.wf ws
    cases b with
    | true => exact ih ws' (closeWait_keeps ws hw) (.inl rfl)
    | false =>
      by_cases hj : k = j
      · subst hj
        exact ih ws' (closeWait_closes ws hw hop hq) (.inl rfl)
      · have hl : k ∈ l := by simpa [hj] using h
        have hw' : WaitsIn k w false (closeWait q acq s j) := by
          rw [WaitsIn, closeWait_of_ne ws hj]
          exact hw
        exact ih ws' hw' (.inr hl)

/-- R177: a QRES that waits on a queue which leaves ENABLED returns CLOSED. -/
theorem qLeave_closes {q : Nat} {s : State} (ws : s.wf = true) {k : Nat} (hk : k < 32) {w : IWord} (hw : WaitsIn k w false s)
    (hop : waitOp w = 1) (hq : waitQ w = q) : WaitsIn k w true (qLeave q s) := by
  have hw' : WaitsIn k w false (s.putF (Reg.queueStatus q) 0 2 2) := hw
  unfold qLeave closeWaits
  exact closeWait_fold hop hq _ (State.putF_within.wf ws) hw' (.inr (List.mem_range.mpr hk))

theorem qState_qLeave {q : Nat} {s : State} (w : RegsOk s) : qState (qLeave q s) q = 2 := by
  rw [qLeave, qState_closeWaits (regsOk_putF w)]
  exact State.fld_putF_same w (by decide)

end Sys2Proof.Machine
end

section
/-! SUPPORT. Queues and ports become ENABLED, drain and become OFF (R55, R56, R115, R176). -/

namespace Sys2Proof.Machine

/-! ### Meanings that leave the contract as it was -/

theorem inContract_within {M : Nat} {f : State → Res State} {s t : State} (hk : s.Kept) (h : WithinR M s (f s))
    (hM : M.testBit 27 = false) (e : f s = .next t) : inContract f s = .next t :=
  inContract_kept hk (by exact kept_of_contract ((h t e).contract hM) hk) e

/-! ### A queue becomes ENABLED, DRAINING and OFF (R55, R56, R176) -/

theorem aloneOutside_of_enabled {s : State} {st p : Nat} (h : ptEnabled s p = true) : aloneOutside s st (some p) = false := by
  simp [aloneOutside, h]

theorem execQueueEnable_start {s : State} {q : Fin 1024} {p : Nat} (ho : hostOpen s = true) (hst : qState s q = 0)
    (hp : queuePart s q = some p) (hpt : ptEnabled s p = true) (hr : ringFault s q = none) :
    execQueueEnable q s = .next (qStart q s) := by
  unfold execQueueEnable
  rw [hostWrite_of_takes ho, hp, aloneOutside_of_enabled hpt, hst, if_neg (by decide)]
  simp [enableReq, hr]

theorem execQueueDisable_drain {s : State} {q : Fin 1024} (ho : hostOpen s = true) (hst : qState s q = 1) :
    execQueueDisable q s = .next (qLeave q s) := by
  unfold execQueueDisable
  rw [hostWrite_of_takes ho, hst]
  simp [disableReq]

/-- What changes of a queue that leaves ENABLED: its state and its count of refusals. -/
theorem qLeave_rd {s : State} (w : RegsOk s) {q a : Nat} (h : a ≠ Reg.queueStatus q) (h' : a ≠ Reg.queueRefused q) :
    (qLeave q s).rd a = s.rd a := by
  rw [qLeave, (closeWaits_changesOnlyRegs q _ false (regsOk_putF w)).2 a (by simpa using h'), State.rd_putF_ne w h]

theorem queue_enables {s : State} (hk : s.Kept) (ws : s.wf = true) (ho : hostOpen s = true) (q : Fin 1024) (p : Nat)
    (hst : qState s q = 0) (hp : queuePart s q = some p) (hpt : ptEnabled s p = true) (hr : ringFault s q = none) :
    exec (.queueEnable q) s = .next (qStart q s) ∧ qState (qStart q s) q = 1 ∧ qHead (qStart q s) q = 0 ∧ qTail (qStart q s) q = 0 ∧
      qResv (qStart q s) q = 0 ∧ (qStart q s).bit (Reg.queueStatus q) 3 = true ∧ (qStart q s).bit (Reg.queueStatus q) 7 = true := by
  obtain ⟨hstate, hhead, htail, hresv, hempty, harmed, -⟩ := qStart_regs (State.wf_regs ws) q
  exact ⟨inContract_within hk execQueueEnable_within (by decide) (execQueueEnable_start ho hst hp hpt hr), hstate, hhead, htail,
    hresv, hempty, harmed⟩

theorem queue_disables {s : State} (hk : s.Kept) (ws : s.wf = true) (ho : hostOpen s = true) (q : Fin 1024) (hst : qState s q = 1) :
    ∃ t, exec (.queueDisable q) s = .next t ∧ qState t q = 2 ∧ (∀ a, a ≠ Reg.queueStatus q → a ≠ Reg.queueRefused q → t.rd a = s.rd a) ∧
      ∀ (k : CoreId) (w : IWord), (core s k).wait = .queue w false → tqOp w = 1 → fieldN w.toNat 342 10 = q →
        (core t k).wait = .queue w true :=
  ⟨qLeave q s, inContract_within hk execQueueDisable_within (by decide) (execQueueDisable_drain ho hst),
    qState_qLeave (State.wf_regs ws), fun _ h h' => qLeave_rd (State.wf_regs ws) h h',
    fun k _ hw hop hq => qLeave_closes ws k.isLt hw hop hq⟩

theorem queue_drains {s : State} (hk : s.Kept) (ws : s.wf = true) (hc : s.cclk = true) (q : Fin 1024) (hst : qState s q = 2)
    (hht : qHead s q = qTail s q) (htr : qTail s q = qResv s q) :
    exec (.queueDrainComplete q) s = .next (qDrained q s) ∧
    (s.bit (Reg.queueStatus q) 2 = false → qState (qDrained q s) q = 0) ∧
    (s.bit (Reg.queueStatus q) 2 = true → qState (qDrained q s) q = 1 ∧ (qDrained q s).bit (Reg.queueStatus q) 2 = false) := by
  have e : execQueueDrainComplete q s = .next (qDrained q s) := onlyIf_of_true (by simp [hc, hst, hht, htr])
  exact ⟨inContract_within hk execQueueDrainComplete_within (by decide) e, qDrained_regs (State.wf_regs ws) q⟩

/-! ### A port becomes ENABLED, DRAINING and OFF (R55, R56, R115) -/

theorem putF_only {s : State} {a lo n v : Nat} : ChangesOnlyRegs (· == a) s (s.putF a lo n v) :=
  putF_changesOnlyRegs (p := (· == a)) (by simp)

theorem putB_only {s : State} {a i : Nat} {b : Bool} : ChangesOnlyRegs (· == a) s (s.putB a i b) :=
  putB_changesOnlyRegs (p := (· == a)) (by simp)

/-- A change of one register, as a statement about all the others. -/
theorem ChangesOnlyRegs.rd_ne {s t : State} {a x : Nat} (h : ChangesOnlyRegs (· == a) s t) (w : RegsOk s) (hx : x ≠ a) :
    t.rd x = s.rd x := (h w).2 x (by simpa using hx)

section
variable {s : State} {p : Nat}

theorem setPortLink_changesOnlyRegs (up : Bool) : ChangesOnlyRegs (· == Reg.ethPortStatus p) s (setPortLink p up s) := by
  unfold setPortLink
  dsimp only
  split
  · exact .of_regs rfl
  · split
    · exact putB_only.trans putB_only
    · exact (putB_only.trans putB_only).trans putF_only

/-- What a port shows besides its link: the fields below the link's bit and the refusal. -/
theorem setPortLink_false (w : RegsOk s) :
    portLink (setPortLink p false s) p = false ∧ portState (setPortLink p false s) p = portState s p ∧
    (setPortLink p false s).bit (Reg.ethPortStatus p) 2 = s.bit (Reg.ethPortStatus p) 2 ∧
    (setPortLink p false s).bit (Reg.ethPortStatus p) 5 = s.bit (Reg.ethPortStatus p) 5 := by
  unfold setPortLink
  dsimp only
  split
  · next h => exact ⟨by simpa using h, rfl, rfl, rfl⟩
  · have w1 : RegsOk (s.putB (Reg.ethPortStatus p) 3 false) := regsOk_putB w
    have w2 : RegsOk ((s.putB (Reg.ethPortStatus p) 3 false).putB (Reg.ethPortStatus p) 4 true) := regsOk_putB w1
    rw [if_neg (by decide), State.satF]
    refine ⟨?_, ?_, ?_, ?_⟩
    · rw [portLink, State.bit_putF_ne w2 (by decide), State.bit_putB_ne w1 (by decide), State.bit_putB_same w (by decide)]
    · rw [portState, State.fld_putF_ne w2 (by decide), State.fld_putB_ne w1 (by decide), State.fld_putB_ne w (by decide), portState]
    · rw [State.bit_putF_ne w2 (by decide), State.bit_putB_ne w1 (by decide), State.bit_putB_ne w (by decide)]
    · rw [State.bit_putF_ne w2 (by decide), State.bit_putB_ne w1 (by decide), State.bit_putB_ne w (by decide)]

theorem portStart_changesOnlyRegs : ChangesOnlyRegs (· == Reg.ethPortStatus p) s (portStart p s) := by
  unfold portStart
  split
  · exact (putF_only.trans putB_only).trans (setPortLink_changesOnlyRegs false)
  · exact putF_only

/-- R115: a port whose configuration is good becomes ENABLED. -/
theorem portStart_good (w : RegsOk s) (h : portCfgBad s p = false) :
    portState (portStart p s) p = 1 ∧ (portStart p s).bit (Reg.ethPortStatus p) 2 = s.bit (Reg.ethPortStatus p) 2 := by
  rw [portStart, if_neg (by simp [h])]
  exact ⟨State.fld_putF_same w (by decide), State.bit_putF_ne w (by decide)⟩

/-- R115: a configuration that is refused leaves the port OFF and shows the refusal. -/
theorem portStart_bad (w : RegsOk s) (h : portCfgBad s p = true) :
    portState (portStart p s) p = 0 ∧ (portStart p s).bit (Reg.ethPortStatus p) 5 = true := by
  have w1 : RegsOk (s.putF (Reg.ethPortStatus p) 0 2 0) := regsOk_putF w
  obtain ⟨-, hstate, -, hrefused⟩ := setPortLink_false (p := p) (regsOk_putB w1 (a := Reg.ethPortStatus p) (i := 5) (b := true))
  rw [portStart, if_pos h]
  refine ⟨hstate.trans ?_, hrefused.trans (State.bit_putB_same w1 (by decide))⟩
  rw [portState, State.fld_putB_ne w1 (by decide), State.fld_putF_same w (by decide), Nat.zero_mod]

theorem portCfgBad_putB (w : RegsOk s) {i : Nat} {b : Bool} : portCfgBad (s.putB (Reg.ethPortStatus p) i b) p = portCfgBad s p := by
  have hcfg : (s.putB (Reg.ethPortStatus p) i b).rd (Reg.ethPortCfg p) = s.rd (Reg.ethPortCfg p) :=
    State.rd_putB_ne w (by simp [Reg.ethPortCfg, Reg.ethPortStatus])
  unfold portCfgBad
  rw [State.fld_of_rd hcfg, State.bit_of_rd hcfg]

theorem ethPort_setEthPort {x : EthPort} (hx : x ≠ ⟨[], none⟩) : ethPort (setEthPort s p x) p = x := Tab.get_set_listed hx _

theorem execEthPortEnable_start {p : Fin 8} (ho : hostOpen s = true) (hst : portState s p = 0) :
    execEthPortEnable p s = .next (portStart p s) := by
  unfold execEthPortEnable
  rw [hostWrite_of_takes ho, hst]
  simp [enableReq]

/-- A port whose drain begins in s. -/
def portDraining (p : Nat) (s : State) : State :=
  (setEthPort s p { ethPort s p with drain := some s.pos.now }).putF (Reg.ethPortStatus p) 0 2 2

theorem execEthPortDisable_drain {p : Fin 8} (ho : hostOpen s = true) (hst : portState s p = 1) :
    execEthPortDisable p s = .next (portDraining p s) := by
  unfold execEthPortDisable
  rw [hostWrite_of_takes ho, hst]
  simp [disableReq, portDraining]

end

theorem port_enables {s : State} (hk : s.Kept) (ws : s.wf = true) (ho : hostOpen s = true) (p : Fin 8) (hst : portState s p = 0)
    (hcfg : portCfgBad s p = false) :
    ∃ t, exec (.ethPortEnable p) s = .next t ∧ portState t p = 1 ∧ ∀ a, a ≠ Reg.ethPortStatus p → t.rd a = s.rd a :=
  ⟨_, inContract_within hk execEthPortEnable_within (by decide) (execEthPortEnable_start ho hst),
    (portStart_good (State.wf_regs ws) hcfg).1, fun _ h => portStart_changesOnlyRegs.rd_ne (State.wf_regs ws) h⟩

theorem port_refused {s : State} (hk : s.Kept) (ws : s.wf = true) (ho : hostOpen s = true) (p : Fin 8) (hst : portState s p = 0)
    (hcfg : portCfgBad s p = true) :
    ∃ t, exec (.ethPortEnable p) s = .next t ∧ portState t p = 0 ∧ t.bit (Reg.ethPortStatus p) 5 = true ∧
      ∀ a, a ≠ Reg.ethPortStatus p → t.rd a = s.rd a := by
  obtain ⟨hstate, hrefused⟩ := portStart_bad (State.wf_regs ws) hcfg
  exact ⟨_, inContract_within hk execEthPortEnable_within (by decide) (execEthPortEnable_start ho hst), hstate, hrefused,
    fun _ h => portStart_changesOnlyRegs.rd_ne (State.wf_regs ws) h⟩

theorem port_disables {s : State} (hk : s.Kept) (ws : s.wf = true) (ho : hostOpen s = true) (p : Fin 8) (hst : portState s p = 1) :
    ∃ t, exec (.ethPortDisable p) s = .next t ∧ portState t p = 2 ∧ (ethPort t p).drain = some s.pos.now ∧
      ∀ a, a ≠ Reg.ethPortStatus p → t.rd a = s.rd a := by
  have w : RegsOk (setEthPort s p { ethPort s p with drain := some s.pos.now }) := State.wf_regs ws
  refine ⟨_, inContract_within hk execEthPortDisable_within (by decide) (execEthPortDisable_drain ho hst),
    State.fld_putF_same w (by decide), ?_, fun _ h => State.rd_putF_ne w h⟩
  exact congrArg EthPort.drain (ethPort_setEthPort (s := s) (p := p) (x := { ethPort s p with drain := some s.pos.now }) (by simp))

/-- R56: a drained port is OFF and has no link, or is ENABLED with its pending enable taken. -/
theorem port_drains {s : State} (hk : s.Kept) (ws : s.wf = true) (hc : s.cclk = true) (p : Fin 8) (hst : portState s p = 2)
    (hcfg : portCfgBad s p = false) :
    ∃ t, exec (.ethPortDrainComplete p) s = .next t ∧
      (s.bit (Reg.ethPortStatus p) 2 = false → portState t p = 0 ∧ portLink t p = false) ∧
      (s.bit (Reg.ethPortStatus p) 2 = true → portState t p = 1 ∧ t.bit (Reg.ethPortStatus p) 2 = false) := by
  have w : RegsOk s := State.wf_regs ws
  refine ⟨_, inContract_within hk execEthPortDrainComplete_within (by decide) (onlyIf_of_true (by simp [hc, hst])),
    fun h => ?_, fun h => ?_⟩
  · rw [if_neg (by simp [h])]
    obtain ⟨hlink, hstate, -, -⟩ := setPortLink_false (p := p) (regsOk_putF w (a := Reg.ethPortStatus p) (lo := 0) (n := 2) (v := 0))
    exact ⟨hstate.trans (State.fld_putF_same w (by decide)), hlink⟩
  · rw [if_pos h]
    obtain ⟨hstate, hpend⟩ := portStart_good (regsOk_putB w (a := Reg.ethPortStatus p) (i := 2) (b := false))
      ((portCfgBad_putB w).trans hcfg)
    exact ⟨hstate, hpend.trans (State.bit_putB_same w (by decide))⟩

end Sys2Proof.Machine
end

section
/-! SUPPORT. Links and cores drain (R55, R56, R58, R150, R433). -/

namespace Sys2Proof.Machine

/-! ### Fields that a change of others keeps -/

section
variable {x lo n : Nat} {s t : State}

theorem ChangesOnlyRegs.keepsFld {p : Nat → Bool} (h : ChangesOnlyRegs p s t) (hx : p x = false) : KeepsFld x lo n s t := fun w =>
  ⟨(h w).1, h.fld w hx lo n⟩

theorem putF_keepsFld {a lo' n' v : Nat} (h : x = a → lo + n ≤ lo' ∨ lo' + n' ≤ lo) : KeepsFld x lo n s (s.putF a lo' n' v) := by
  by_cases e : x = a
  · subst e
    exact fun w => ⟨regsOk_putF w, State.fld_putF_ne w (h rfl)⟩
  · exact wr_keepsFld e

theorem KeepsFld.bit_eq {i : Nat} (h : KeepsFld x i 1 s t) (w : RegsOk s) : t.bit x i = s.bit x i := State.bit_of_fld (h w).2

end

/-! ### A link trains, drains and becomes OFF (R55, R56, R433) -/

section
variable {s : State} {l : Nat}

theorem linkState_setPhase (w : RegsOk s) (ph : Phase) : linkState (setPhase l ph s) l = linkState s l := by
  have w' : RegsOk (setLink s l { link s l with phase := ph }) := w
  exact State.fld_putF_ne w' (.inl (by decide))

theorem execLinkEnable_start {l : Fin 6} (ho : hostOpen s = true) (hst : linkState s l = 0) :
    execLinkEnable l s = .next (trainStart l s) := by
  unfold execLinkEnable
  rw [hostWrite_of_takes ho, hst]
  simp [enableReq]

theorem execLinkDisable_drain {l : Fin 6} (ho : hostOpen s = true) (hst : linkState s l = 1) :
    execLinkDisable l s = .next (endDue l (if linkUp (s.putF (Reg.linkStatus l) 0 2 2) l then s.putF (Reg.linkStatus l) 0 2 2
      else setPhase l .down (s.putF (Reg.linkStatus l) 0 2 2))) := by
  unfold execLinkDisable
  rw [hostWrite_of_takes ho, hst]
  simp [disableReq]

/-- The registers of the position processor and of time that the loss of a chain's time writes. -/
def isTimeReg (x : Nat) : Bool := x < 0x21000

theorem chainLost_changesOnlyRegs (s : State) : ChangesOnlyRegs isTimeReg s (chainLost s) := by
  refine foldl_changesOnlyRegs (fun m hm s => ?_) s
  have hm : m < 4 := by simp at hm; omega
  have hp : isTimeReg (Reg.posPkStatus m) = true := by simp only [isTimeReg, Reg.posPkStatus, decide_eq_true_eq]; omega
  dsimp only
  split
  · exact ChangesOnlyRegs.trans (t := unrefPick s m) (putB_changesOnlyRegs hp) (.of_regs (by rfl))
  · exact .of_regs rfl

theorem chainUnsync_changesOnlyRegs (s : State) : ChangesOnlyRegs isTimeReg s (chainUnsync s) := by
  unfold chainUnsync
  dsimp only
  refine ChangesOnlyRegs.trans (t := { s with chain := { s.chain with syncGood := 0 } }) (.of_regs rfl) ?_
  split
  · refine ChangesOnlyRegs.trans ?_ (chainLost_changesOnlyRegs _)
    exact (putB_changesOnlyRegs (by decide)).trans ((putB_changesOnlyRegs (by decide)).trans (putB_changesOnlyRegs (by decide)))
  · exact .of_regs rfl

/-- What a link that falls leaves of its status: the state and the pending enable. -/
theorem linkLeave_keepsFld {ph : Phase} {lo n : Nat} (h : lo + n ≤ 3) (s : State) :
    KeepsFld (Reg.linkStatus l) lo n s (linkLeave l ph s) := by
  have htime : isTimeReg (Reg.linkStatus l) = false := by simp only [isTimeReg, Reg.linkStatus, decide_eq_false_iff_not]; omega
  have htime' (u : State) : KeepsFld (Reg.linkStatus l) lo n u (chainLost (chainUnsync u)) :=
    ((chainUnsync_changesOnlyRegs u).trans (chainLost_changesOnlyRegs _)).keepsFld htime
  have hfall : KeepsFld (Reg.linkStatus l) lo n s ((setLink s l ((link s l).fallen ph)).putF (Reg.linkStatus l) 3 2 ph.code) :=
    KeepsFld.trans (t := setLink s l ((link s l).fallen ph)) (.of_regs rfl) (putF_keepsFld fun _ => .inl h)
  have hup (u : State) : KeepsFld (Reg.linkStatus l) lo n u (if linkUp s l then u.putB (Reg.linkStatus l) 10 true else u) := by
    split
    · exact putB_keepsFld fun _ => by omega
    · exact .of_regs rfl
  unfold linkLeave
  dsimp only
  refine (hfall.trans (hup _)).trans ?_
  generalize (if linkUp s l then _ else _) = u
  split
  · exact htime' u
  · exact .of_regs rfl

end

theorem link_enables {s : State} (hk : s.Kept) (ws : s.wf = true) (ho : hostOpen s = true) (l : Fin 6) (hst : linkState s l = 0) :
    ∃ t, exec (.linkEnable l) s = .next t ∧ linkState t l = 1 ∧
      t = setPhase l (if s.pins.pfN then .signal else .down) (s.putF (Reg.linkStatus l) 0 2 1) := by
  refine ⟨_, inContract_within hk execLinkEnable_within (by decide) (execLinkEnable_start ho hst), ?_, rfl⟩
  exact (linkState_setPhase (regsOk_putF (State.wf_regs ws)) _).trans (State.fld_putF_same (State.wf_regs ws) (by decide))

theorem link_disables {s : State} (hk : s.Kept) (ho : hostOpen s = true) (l : Fin 6) (hst : linkState s l = 1) :
    exec (.linkDisable l) s = .next (endDue l (if linkUp s l then s.putF (Reg.linkStatus l) 0 2 2
      else setPhase l .down (s.putF (Reg.linkStatus l) 0 2 2))) :=
  inContract_within hk execLinkDisable_within (by decide) (execLinkDisable_drain ho hst)

theorem link_drains {s : State} (hk : s.Kept) (ws : s.wf = true) (hc : s.cclk = true) (l : Fin 6) (hst : linkState s l = 2)
    (hp : s.bit (Reg.linkStatus l) 2 = false) : ∃ t, exec (.linkDrainComplete l) s = .next t ∧ linkState t l = 0 := by
  refine ⟨_, inContract_within hk execLinkDrainComplete_within (by decide) (onlyIf_of_true (by simp [hc, hst])), ?_⟩
  dsimp only
  generalize ((link s l).tx.filter fun m => m.vc = 0).length = n
  have hleave : KeepsFld (Reg.linkStatus l) 2 1 s (linkLeave l .down (s.satAdd (Reg.linkTxLost l) n)) :=
    (wr_keepsFld (by simp [Reg.linkStatus, Reg.linkTxLost])).trans (linkLeave_keepsFld (by decide) _)
  generalize linkLeave l .down (s.satAdd (Reg.linkTxLost l) n) = u at hleave
  have hkept : KeepsFld (Reg.linkStatus l) 2 1 s (setLink u l { link u l with tx := [], ending := false }) :=
    hleave.trans (.of_regs rfl)
  have w := State.wf_regs ws
  rw [if_neg (by rw [hkept.bit_eq w, hp]; decide)]
  exact State.fld_putF_same (hkept w).1 (by decide)

/-! ### A core drains (R56, R58, R150) -/

theorem coreStatus_ne_traceStatus {k : Nat} (hk : k < 32) : Reg.coreStatus k ≠ Reg.traceStatus := by
  simp only [Reg.coreStatus, Reg.traceStatus]
  omega

theorem fifoPut_keepsFld {x lo n : Nat} (h : x ≠ Reg.traceStatus) (k type payload : Nat) (s : State) :
    KeepsFld x lo n s (fifoPut k type payload s) :=
  (KeepsFld.of_regs (by rfl)).trans (putB_keepsFld fun e => absurd e h)

theorem traceCore_keepsFld {x lo n : Nat} (h : x ≠ Reg.traceStatus) (k type payload : Nat) (s : State) :
    KeepsFld x lo n s (traceCore k type payload s) := by
  have hlost : KeepsFld x lo n s (fifoLost k s) := by
    unfold fifoLost
    dsimp only
    split
    · exact .of_regs rfl
    · exact (fifoPut_keepsFld h _ _ _ _).trans (.of_regs rfl)
  unfold traceCore
  split
  · exact hlost.trans (fifoPut_keepsFld h _ _ _ _)
  · exact .of_regs rfl

theorem markHoles_keepsFld {x lo n : Nat} (h : lo + n ≤ 6) (k : Nat) (s : State) : KeepsFld x lo n s (markHoles k s) := by
  unfold markHoles
  exact KeepsFld.trans (foldl_keepsFld (fun q s => putB_keepsFld fun _ => h) s) (.of_regs rfl)

/-- The registers of a core that its start clears: exceptions, the array, the queue engine and the DMA. -/
def coreCleared (k x : Nat) : Bool := Reg.coreExcStatus k ≤ x && x < Reg.coreCtrl (k + 1)

theorem coreCleared_iff {k x : Nat} : coreCleared k x = true ↔ Reg.coreExcStatus k ≤ x ∧ x < Reg.coreCtrl (k + 1) := by
  simp [coreCleared]

theorem clearCoreRegs_changesOnlyRegs (k : Nat) (s : State) : ChangesOnlyRegs (coreCleared k) s (clearCoreRegs k s) := by
  have hin {x : Nat} (h : Reg.coreCtrl k + 0x104 ≤ x) (h' : x < Reg.coreCtrl k + 0x80000) : coreCleared k x = true := by
    simp only [coreCleared_iff, Reg.coreExcStatus, Reg.coreCtrl] at h h' ⊢
    omega
  have hexc : coreCleared k (Reg.coreExcStatus k) = true := by
    simp only [coreCleared_iff, Reg.coreExcStatus, Reg.coreCtrl]
    omega
  have hlt {a : Nat} (h : a ∈ [0, 1, 2, 3]) : a < 4 := by simp at h; omega
  have hreset (u : State) {lo hi : Nat} (h : Reg.coreCtrl k + 0x104 ≤ lo) (h' : hi ≤ Reg.coreCtrl k + 0x80000) :
      ChangesOnlyRegs (coreCleared k) u (u.resetRange lo hi) :=
    resetRange_changesOnlyRegs fun x hlo hhi => hin (by omega) (by omega)
  unfold clearCoreRegs
  dsimp only
  refine ChangesOnlyRegs.trans ?_ (wr_changesOnlyRegs hexc)
  refine ChangesOnlyRegs.trans ?_ (foldl_changesOnlyRegs (fun a ha s => wr_changesOnlyRegs (hin ?_ ?_)) _)
  · refine ChangesOnlyRegs.trans ?_ (hreset _ (by omega) (by omega))
    refine ChangesOnlyRegs.trans ?_ (hreset _ (by omega) (by omega))
    refine ChangesOnlyRegs.trans ?_ (foldl_changesOnlyRegs (fun a ha s => hreset _ ?_ ?_) _)
    · refine ChangesOnlyRegs.trans ?_ (hreset _ (by omega) (by omega))
      refine foldl_changesOnlyRegs (fun a ha s => wr_changesOnlyRegs (hin ?_ ?_)) _ <;> have := hlt ha <;> omega
    all_goals have := hlt ha; omega
  all_goals have := hlt ha; omega

theorem coreStart_eq (k s4 reason : Nat) (s : State) : ∃ pc c, coreStart k s4 reason s = traceSync k reason pc
    ((((clearCoreRegs k (dropHolds k (setCore s k c))).putF (Reg.coreStatus k) 0 2 1).putF (Reg.coreStatus k) 3 3 0).putB
      (Reg.coreStatus k) 6 false) := ⟨_, _, rfl⟩

/-- What a core shows once it has started (R150), and what it leaves. -/
theorem coreStart_state {k : Nat} (hk : k < 32) (s4 reason : Nat) {s : State} (w : RegsOk s) :
    RegsOk (coreStart k s4 reason s) ∧ coreState (coreStart k s4 reason s) k = 1 ∧
    (coreStart k s4 reason s).bit (Reg.coreStatus k) 2 = s.bit (Reg.coreStatus k) 2 := by
  obtain ⟨pc, c, e⟩ := coreStart_eq k s4 reason s
  have hne : Reg.coreStatus k ≠ Reg.traceStatus := coreStatus_ne_traceStatus hk
  have hclear : coreCleared k (Reg.coreStatus k) = false := by simp [coreCleared, Reg.coreStatus, Reg.coreExcStatus]
  have hstart : KeepsFld (Reg.coreStatus k) 2 1 s (clearCoreRegs k (dropHolds k (setCore s k c))) :=
    KeepsFld.trans (.of_regs (by rfl)) ((clearCoreRegs_changesOnlyRegs k _).keepsFld hclear)
  have wc := (hstart w).1
  have w1 : RegsOk ((clearCoreRegs k (dropHolds k (setCore s k c))).putF (Reg.coreStatus k) 0 2 1) := regsOk_putF wc
  generalize clearCoreRegs k (dropHolds k (setCore s k c)) = u at e hstart wc w1
  have hlate {lo n : Nat} (h : lo + n ≤ 3) :
      KeepsFld (Reg.coreStatus k) lo n (u.putF (Reg.coreStatus k) 0 2 1) (coreStart k s4 reason s) := by
    rw [e]
    exact ((putF_keepsFld fun _ => .inl h).trans (putB_keepsFld fun _ => h.trans (by decide))).trans (traceCore_keepsFld hne _ _ _ _)
  refine ⟨(hlate (lo := 0) (n := 0) (by decide) w1).1, ?_, ?_⟩
  · exact (hlate (lo := 0) (n := 2) (by decide) w1).2.trans (State.fld_putF_same wc (by decide))
  · rw [(hlate (by decide)).bit_eq w1, State.bit_putF_ne wc (by decide), hstart.bit_eq w]

/-- A core whose words have ended, before its state changes: the trace has them, and its uncommitted slots are marked. -/
def coreEnded (k : Nat) (s : State) : State :=
  markHoles k (traceCore k 0x8 (codeAddr (s.rdQ (Reg.corePc k) 2) (if (core s k).nap == .asleep then 2 else 0)) s)

theorem coreDrainEnd_eq (k : Nat) (s : State) : coreDrainEnd k s =
    if (coreEnded k s).bit (Reg.coreStatus k) 2 then coreStart k 0 1 ((coreEnded k s).putB (Reg.coreStatus k) 2 false)
    else (((coreEnded k s).putF (Reg.coreStatus k) 0 2 0).putF (Reg.coreStatus k) 3 3 4) := rfl

theorem coreEnded_keepsFld {k : Nat} (hk : k < 32) {lo n : Nat} (h : lo + n ≤ 6) (s : State) :
    KeepsFld (Reg.coreStatus k) lo n s (coreEnded k s) :=
  (traceCore_keepsFld (coreStatus_ne_traceStatus hk) _ _ _ _).trans (markHoles_keepsFld h _ _)

theorem coreDrainEnd_state {k : Nat} (hk : k < 32) {s : State} (w : RegsOk s) :
    (s.bit (Reg.coreStatus k) 2 = false → coreState (coreDrainEnd k s) k = 0) ∧
    (s.bit (Reg.coreStatus k) 2 = true → coreState (coreDrainEnd k s) k = 1 ∧ (coreDrainEnd k s).bit (Reg.coreStatus k) 2 = false) := by
  have hend : KeepsFld (Reg.coreStatus k) 2 1 s (coreEnded k s) := coreEnded_keepsFld hk (by decide) s
  have we := (hend w).1
  rw [coreDrainEnd_eq, hend.bit_eq w]
  refine ⟨fun h => ?_, fun h => ?_⟩
  · rw [if_neg (by simp [h]), coreState, State.fld_putF_ne (regsOk_putF we) (.inl (by decide))]
    exact State.fld_putF_same we (by decide)
  · rw [if_pos h]
    obtain ⟨-, hstate, hpend⟩ := coreStart_state hk 0 1 (regsOk_putB we (a := Reg.coreStatus k) (i := 2) (b := false))
    exact ⟨hstate, hpend.trans (State.bit_putB_same we (by decide))⟩

theorem core_drains {s : State} (hk : s.Kept) (ws : s.wf = true) (hc : s.cclk = true) (k : CoreId) (hst : coreState s k = 2)
    (hq : coreQuiet s k = true) (hf : (traced s k && fifoFull s k) = false) :
    exec (.coreDrainComplete k) s = .next (coreDrainEnd k s) ∧
    (s.bit (Reg.coreStatus k) 2 = false → coreState (coreDrainEnd k s) k = 0) ∧
    (s.bit (Reg.coreStatus k) 2 = true → coreState (coreDrainEnd k s) k = 1 ∧ (coreDrainEnd k s).bit (Reg.coreStatus k) 2 = false) := by
  have e : execCoreDrainComplete k s = .next (coreDrainEnd k s) := onlyIf_of_true (by simp [hc, hst, hq, hf])
  exact ⟨inContract_within hk execCoreDrainComplete_within (by decide) e, coreDrainEnd_state k.isLt (State.wf_regs ws)⟩

end Sys2Proof.Machine
end

section
/-! SUPPORT. Partitions drain and start (R54 to R59, R178). -/

namespace Sys2Proof.Machine

/-! ### What the ring of a queue may be (R167), and what it reads -/

/-- A register that the operations of some queue write. -/
def isQueueRun (x : Nat) : Bool := (List.range 1024).any fun q => queueRun q x

theorem isQueueRun_of {q x : Nat} (hq : q < 1024) (h : queueRun q x = true) : isQueueRun x = true :=
  List.any_eq_true.mpr ⟨q, List.mem_range.mpr hq, h⟩

theorem isQueueRun_eq_false {x : Nat} (h : ∀ q < 1024, queueRun q x = false) : isQueueRun x = false :=
  List.any_eq_false.mpr fun q hq => by simp [h q (List.mem_range.mp hq)]

theorem ChangesOnlyRegs.isQueueRun {q : Nat} (hq : q < 1024) {s t : State} (h : ChangesOnlyRegs (queueRun q) s t) :
    ChangesOnlyRegs isQueueRun s t :=
  h.mono fun x hx => by
    by_contra hc
    rw [isQueueRun_of hq (by simpa using hc)] at hx
    cases hx

section
variable {s t : State}

theorem partEntry_of_warp (h : t.warp = s.warp) (n : Nat) : partEntry t n = partEntry s n := by rw [partEntry, h, partEntry]

theorem queuePart_of_warp (h : t.warp = s.warp) (q : Nat) : queuePart t q = queuePart s q := by
  simp only [queuePart, partEntry_of_warp h]

theorem partQueues_of_warp (h : t.warp = s.warp) (n : Nat) : partQueues t n = partQueues s n := by
  simp only [partQueues, partEntry_of_warp h]

theorem inRegions_of_warp (h : t.warp = s.warp) (p a n : Nat) : inRegions t p a n = inRegions s p a n := by
  simp only [inRegions, partRegions, partEntry_of_warp h]

theorem chansOf_of_warp (h : t.warp = s.warp) (a n : Nat) : chansOf t a n = chansOf s a n := by
  simp only [chansOf, chanOf, linearOf, h]

/-- A ring is judged by the image, the configuration of its queue, and the channels. -/
theorem ringFault_congr (hw : t.warp = s.warp) (h : ∀ x, 0x80000 ≤ x → isQueueRun x = false → t.rd x = s.rd x) (q : Nat) :
    ringFault t q = ringFault s q := by
  have hbase : t.rd (Reg.queueBase q) = s.rd (Reg.queueBase q) :=
    h _ (by simp only [Reg.queueBase]; omega) (isQueueRun_eq_false fun _ _ => queueRun_config.1)
  have hbase4 : t.rd (Reg.queueBase q + 4) = s.rd (Reg.queueBase q + 4) :=
    h _ (by simp only [Reg.queueBase]; omega) (isQueueRun_eq_false fun _ _ => queueRun_config.2.1)
  have hcfg : t.rd (Reg.queueCfg q) = s.rd (Reg.queueCfg q) :=
    h _ (by simp only [Reg.queueCfg]; omega) (isQueueRun_eq_false fun _ _ => queueRun_config.2.2)
  have hchan (c : Nat) : chanState t c = chanState s c :=
    State.fld_of_rd (h _ (by simp only [Reg.memStatus]; omega)
      (isQueueRun_eq_false fun _ hq => queueRun_above hq (by simp only [Reg.memStatus]; omega))) 0 2
  have hring : t.rdQ (Reg.queueBase q) 2 = s.rdQ (Reg.queueBase q) 2 := State.rdQ_two_of_rd hbase hbase4
  have hsize : qDepth t q * qEsize t q = qDepth s q * qEsize s q := by
    simp only [qDepth, qEsize, State.fld_of_rd hcfg]
  have hout : ringOutside t q = ringOutside s q := by
    unfold ringOutside
    rw [queuePart_of_warp hw]
    cases queuePart s q with
    | none => rfl
    | some p => simp only [inRegions_of_warp hw, hring, hsize]
  simp only [ringFault, hout, chansOf_of_warp hw, hring, hsize, hchan]

end

/-! ### The queues of a partition that drains (R59, R178) -/

/-- A queue that drains with its partition is emptied and OFF. -/
def flushQueue (s : State) (q : Nat) : State := if qState s q = 2 then (qFlush q s).putF (Reg.queueStatus q) 0 2 0 else s

theorem ptFlush_eq (n : Nat) (s : State) : ptFlush n s = (partQueues s n).foldl flushQueue s := rfl

theorem flushQueue_changesOnlyRegs (s : State) (q : Nat) : ChangesOnlyRegs (queueRun q) s (flushQueue s q) := by
  unfold flushQueue
  split
  · exact (qFlush_changesOnlyRegs q s).trans (putF_changesOnlyRegs (queueRun_status q))
  · exact .of_regs rfl

theorem qState_flushQueue_same {s : State} (w : RegsOk s) {q : Nat} (h : qState s q = 0 ∨ qState s q = 2) :
    qState (flushQueue s q) q = 0 := by
  unfold flushQueue
  split
  · exact State.fld_putF_same (qFlush_changesOnlyRegs q s w).1 (by decide)
  · next hne => exact h.resolve_right hne

theorem qState_flushQueue_ne {s : State} (w : RegsOk s) {q r : Nat} (h : r ≠ q) : qState (flushQueue s q) r = qState s r :=
  (flushQueue_changesOnlyRegs s q).fld w (queueRun_status_ne h) 0 2

theorem flushQueues_qState (l : List Nat) : ∀ {s : State} {r : Nat}, RegsOk s → (qState s r = 0 ∨ qState s r = 2 ∧ r ∈ l) →
    qState (l.foldl flushQueue s) r = 0 := by
  induction l with
  | nil =>
    intro s r _ h
    exact h.resolve_right fun h => by cases h.2
  | cons q l ih =>
    intro s r w h
    rw [List.foldl_cons]
    refine ih (flushQueue_changesOnlyRegs s q w).1 ?_
    by_cases hr : r = q
    · subst hr
      exact .inl (qState_flushQueue_same w (h.imp_right And.left))
    · rw [qState_flushQueue_ne w hr]
      exact h.imp_right fun ⟨h2, hmem⟩ => ⟨h2, (List.mem_cons.mp hmem).resolve_left hr⟩

theorem ptFlush_changesOnlyRegs {n : Nat} {s : State} (h : ∀ q ∈ partQueues s n, q < 1024) :
    ChangesOnlyRegs isQueueRun s (ptFlush n s) :=
  foldl_changesOnlyRegs (fun q hq s => (flushQueue_changesOnlyRegs s q).isQueueRun (h q hq)) s

/-! ### The queues of a partition that starts -/

theorem startQueue_next {q : Nat} {s : State} (h : ringFault s q = none) :
    ∃ t, startQueue q s = .next t ∧ ChangesOnlyRegs (queueRun q) s t ∧ t.warp = s.warp := by
  unfold startQueue
  split
  · exact ⟨s, rfl, .of_regs rfl, rfl⟩
  · rw [h]
    exact ⟨_, rfl, qStart_changesOnlyRegs q s, qStart_within.warp rfl⟩

/-- No ring of the partition being outside contract, all its queues start. -/
theorem startQueues_next (l : List Nat) : ∀ {s : State}, RegsOk s → (∀ q ∈ l, q < 1024 ∧ ringFault s q = none) →
    ∃ t, foldRes startQueue l s = .next t ∧ ChangesOnlyRegs isQueueRun s t := by
  induction l with
  | nil => exact fun _ _ => ⟨_, rfl, .of_regs rfl⟩
  | cons q l ih =>
    intro s w h
    obtain ⟨hq, hring⟩ := h q (List.mem_cons_self ..)
    obtain ⟨t, et, hregs, hwarp⟩ := startQueue_next hring
    have hregs := hregs.isQueueRun hq
    have hring' (r : Nat) (hr : r ∈ l) : r < 1024 ∧ ringFault t r = none := by
      obtain ⟨hr1, hr2⟩ := h r (List.mem_cons_of_mem q hr)
      exact ⟨hr1, (ringFault_congr hwarp (fun x _ hx => (hregs w).2 x hx) r).trans hr2⟩
    obtain ⟨u, eu, hu⟩ := ih (hregs w).1 hring'
    refine ⟨u, ?_, hregs.trans hu⟩
    rw [foldRes, et]
    exact eu

/-! ### The grids, the cores and the pairs of a partition that starts or stops -/

/-- The registers that show a grid: its status and its sequence number. -/
def isGridShown (x : Nat) : Bool := 0x41000 ≤ x && (x % 0x40 == 0 || x % 0x40 == 0x20 || x % 0x40 == 0x24)

theorem isGridShown_iff {x : Nat} :
    isGridShown x = true ↔ 0x41000 ≤ x ∧ (x % 0x40 = 0 ∨ x % 0x40 = 0x20 ∨ x % 0x40 = 0x24) := by
  simp [isGridShown, or_assoc]

theorem isGridShown_below {x : Nat} (h : x < 0x41000) : isGridShown x = false := by
  rw [Bool.eq_false_iff, ne_eq, isGridShown_iff]
  omega

theorem isGridShown_queueStatus (q : Nat) : isGridShown (Reg.queueStatus q) = false := by
  rw [Bool.eq_false_iff, ne_eq, isGridShown_iff]
  simp only [Reg.queueStatus]
  omega

section
variable (s : State) {x lo n : Nat}

theorem gridSync_changesOnlyRegs (g : Nat) : ChangesOnlyRegs isGridShown s (gridSync g s) := by
  have hstatus : isGridShown (Reg.intakeGridStatus g) = true := by rw [isGridShown_iff]; simp only [Reg.intakeGridStatus]; omega
  have hseq : isGridShown (Reg.intakeGridSeq g) = true := by rw [isGridShown_iff]; simp only [Reg.intakeGridSeq]; omega
  have hseq4 : isGridShown (Reg.intakeGridSeq g + 4) = true := by rw [isGridShown_iff]; simp only [Reg.intakeGridSeq]; omega
  unfold gridSync
  split
  · exact .of_regs rfl
  · dsimp only
    split
    · exact (((putF_changesOnlyRegs hstatus).trans (putF_changesOnlyRegs hstatus)).trans (putB_changesOnlyRegs hstatus)).trans
        (wrQ_two_changesOnlyRegs hseq hseq4)
    · exact (putF_changesOnlyRegs hstatus).trans (putB_changesOnlyRegs hstatus)

theorem gridsShow_changesOnlyRegs (n : Nat) : ChangesOnlyRegs isGridShown s (gridsShow n s) := by
  refine foldl_changesOnlyRegs (fun e _ s => ?_) s
  split
  · exact gridSync_changesOnlyRegs s _
  · exact .of_regs rfl

theorem gridOpen_changesOnlyRegs (g b : Nat) (stall : Bool) (t : TStamp) : ChangesOnlyRegs isGridShown s (gridOpen g b stall t s) := by
  unfold gridOpen
  split
  · exact .of_regs rfl
  · dsimp only [setGrid]
    refine ChangesOnlyRegs.trans (.of_regs ?_) (gridSync_changesOnlyRegs _ _)
    exact (putGrid_within.regs (by decide)).trans ((headerCounts_within.regs (by decide)).trans (putEngine_within.regs (by decide)))

theorem gridsStart_changesOnlyRegs (n : Nat) : ChangesOnlyRegs isGridShown s (gridsStart n s) := by
  refine foldl_changesOnlyRegs (fun e _ s => ?_) s
  dsimp only [clearBuf]
  split
  · refine ChangesOnlyRegs.trans (.of_regs ?_) (gridOpen_changesOnlyRegs _ _ _ _ _)
    exact (putGrid_within.regs (by decide)).trans ((putEngine_within.regs (by decide)).trans (putEngine_within.regs (by decide)))
  · exact .of_regs rfl

theorem coreStart_keepsFld (h : x < 0x41000) (k s4 reason : Nat) : KeepsFld x lo n s (coreStart k s4 reason s) := by
  obtain ⟨pc, c, e⟩ := coreStart_eq k s4 reason s
  have hne : x ≠ Reg.coreStatus k := by simp only [Reg.coreStatus]; omega
  have hclear : coreCleared k x = false := by
    by_contra hc
    have hc := (coreCleared_iff.mp (by simpa using hc)).1
    simp only [Reg.coreExcStatus] at hc
    omega
  have hstart : KeepsFld x lo n s (clearCoreRegs k (dropHolds k (setCore s k c))) :=
    KeepsFld.trans (.of_regs (by rfl)) ((clearCoreRegs_changesOnlyRegs k _).keepsFld hclear)
  generalize clearCoreRegs k (dropHolds k (setCore s k c)) = u at e hstart
  rw [e]
  exact (((hstart.trans (wr_keepsFld hne)).trans (wr_keepsFld hne)).trans (wr_keepsFld hne)).trans
    (traceCore_keepsFld (by simp only [Reg.traceStatus]; omega) _ _ _ _)

theorem pairEnter_changesOnlyRegs (n : Nat) : ChangesOnlyRegs isSelvDm s (pairEnter n s) := by
  refine ChangesOnlyRegs.trans (.of_regs ?_) (armMonitors_changesOnlyRegs _)
  refine (Within.foldl (M := 131072) (fun s i => ?_) (Within.refl _ _)).regs (by decide)
  split
  · exact .refl _ _
  · exact setPairSt_within

end

/-- A partition whose queues have started: its streams, grids, cores and pairs. -/
def ptStarted (n : Nat) (s : State) : State :=
  let s := (partCtxs s n).foldl (fun s x => fillBucket x s) s
  let s := gridsStart n s
  let s := { s with chain := { s.chain with seqs := s.chain.seqs.filter fun (e : Nat × Nat) => queuePart s e.1 ≠ some n } }
  let s := (partCores s n).foldl (fun s k => if coreState s k = 0 then coreStart k 0 1 s else s) s
  pairEnter n s

theorem ptStart_eq (n : Nat) (s : State) : ptStart n s =
    andThen (foldRes startQueue (partQueues s n) (s.putF (Reg.globalPtStatus n) 0 2 1)) fun s => .next (ptStarted n s) := rfl

theorem ptStarted_keepsFld {x lo m : Nat} (h : x < 0x41000) (n : Nat) (s : State) : KeepsFld x lo m s (ptStarted n s) := by
  have hgrid : isGridShown x = false := isGridShown_below h
  have hselv : isSelvDm x = false := by simp [isSelvDm, Reg.selvDm]; omega
  unfold ptStarted
  dsimp only
  refine KeepsFld.trans ?_ ((pairEnter_changesOnlyRegs _ n).keepsFld hselv)
  refine KeepsFld.trans ?_ (foldl_keepsFld (fun k s => ?_) _)
  · refine KeepsFld.trans ?_ (KeepsFld.trans ((gridsStart_changesOnlyRegs _ n).keepsFld hgrid) (.of_regs (by rfl)))
    exact .of_regs ((Within.foldl (M := 4096) (fun _ _ => fillBucket_within) (Within.refl _ _)).regs (by decide))
  · split
    · exact coreStart_keepsFld s h k 0 1
    · exact .of_regs rfl

/-- The status of a partition is none of the registers of its queues and grids. -/
theorem globalPtStatus_lt {n : Nat} (h : n < 8) : Reg.globalPtStatus n < 0x41000 := by
  simp only [Reg.globalPtStatus]
  omega

theorem isQueueRun_globalPtStatus {n : Nat} (h : n < 8) : isQueueRun (Reg.globalPtStatus n) = false :=
  isQueueRun_eq_false fun _ _ => queueRun_below ((globalPtStatus_lt h).trans (by decide))

/-- A partition whose rings are within contract becomes ENABLED, and its pending enable stays as it is. -/
theorem ptStart_next {s : State} (w : RegsOk s) {n : Nat} (hn : n < 8)
    (h : ∀ q ∈ partQueues s n, q < 1024 ∧ ringFault s q = none) :
    ∃ t, ptStart n s = .next t ∧ ptState t n = 1 ∧ t.bit (Reg.globalPtStatus n) 2 = s.bit (Reg.globalPtStatus n) 2 := by
  have w1 : RegsOk (s.putF (Reg.globalPtStatus n) 0 2 1) := regsOk_putF w
  have hlow := globalPtStatus_lt hn
  have hwarp : (s.putF (Reg.globalPtStatus n) 0 2 1).warp = s.warp := rfl
  have hring (q : Nat) (hq : q ∈ partQueues s n) : q < 1024 ∧ ringFault (s.putF (Reg.globalPtStatus n) 0 2 1) q = none := by
    obtain ⟨hlt, hok⟩ := h q hq
    exact ⟨hlt, (ringFault_congr hwarp (fun x hx _ => State.rd_putF_ne w (by omega)) q).trans hok⟩
  obtain ⟨u, eu, hu⟩ := startQueues_next _ w1 hring
  have hkeep {lo m : Nat} : KeepsFld (Reg.globalPtStatus n) lo m (s.putF (Reg.globalPtStatus n) 0 2 1) (ptStarted n u) :=
    (hu.keepsFld (isQueueRun_globalPtStatus hn)).trans (ptStarted_keepsFld hlow n u)
  refine ⟨ptStarted n u, by rw [ptStart_eq, eu]; rfl, (hkeep w1).2.trans (State.fld_putF_same w (by decide)), ?_⟩
  rw [hkeep.bit_eq w1, State.bit_putF_ne w (by decide)]

theorem execPtDrainComplete_drained {s : State} {n : Fin 8} (hc : s.cclk = true) (hst : ptState s n = 2) (hq : ptQuiet s n = true) :
    execPtDrainComplete n s = if (ptFlush n s).bit (Reg.globalPtStatus n) 2
      then ptStart n ((ptFlush n s).putB (Reg.globalPtStatus n) 2 false)
      else .next (gridsShow n ((ptFlush n s).putF (Reg.globalPtStatus n) 0 2 0)) := by
  unfold execPtDrainComplete
  exact if_pos (by simp [hc, hst, hq])

theorem part_drains {s : State} (hk : s.Kept) (ws : s.wf = true) (hc : s.cclk = true) (n : Fin 8) (hst : ptState s n = 2)
    (hq : ptQuiet s n = true) (hp : s.bit (Reg.globalPtStatus n) 2 = false) (hqs : ∀ q ∈ partQueues s n, q < 1024) :
    ∃ t, exec (.ptDrainComplete n) s = .next t ∧ t = gridsShow n ((ptFlush n s).putF (Reg.globalPtStatus n) 0 2 0) ∧ ptState t n = 0 ∧
      ∀ q ∈ partQueues s n, qState s q = 2 → qState t q = 0 := by
  have w := State.wf_regs ws
  have hflush := ptFlush_changesOnlyRegs hqs
  have wf := hflush.regsOk w
  have hshow := gridsShow_changesOnlyRegs ((ptFlush n s).putF (Reg.globalPtStatus n) 0 2 0) n
  have hpt := isGridShown_below (globalPtStatus_lt n.isLt)
  have e : execPtDrainComplete n s = .next (gridsShow n ((ptFlush n s).putF (Reg.globalPtStatus n) 0 2 0)) := by
    rw [execPtDrainComplete_drained hc hst hq, hflush.bit w (isQueueRun_globalPtStatus n.isLt), if_neg (by simp [hp])]
  refine ⟨_, inContract_kept hk ?_ e, rfl, ?_, fun q hmem h2 => ?_⟩
  · exact kept_of_contract ((gridsShow_within.contract (by decide)).trans (ptFlush_within.contract (by decide))) hk
  · exact (hshow.fld (regsOk_putF wf) hpt 0 2).trans (State.fld_putF_same wf (by decide))
  · have hne : Reg.queueStatus q ≠ Reg.globalPtStatus n := by
      have := globalPtStatus_lt n.isLt
      simp only [Reg.queueStatus] at this ⊢
      omega
    calc qState (gridsShow n ((ptFlush n s).putF (Reg.globalPtStatus n) 0 2 0)) q
        = qState ((ptFlush n s).putF (Reg.globalPtStatus n) 0 2 0) q := hshow.fld (regsOk_putF wf) (isGridShown_queueStatus q) 0 2
      _ = qState (ptFlush n s) q := State.fld_of_rd (State.rd_putF_ne wf hne) 0 2
      _ = 0 := by rw [ptFlush_eq, flushQueues_qState _ w (.inr ⟨h2, hmem⟩)]

theorem part_restarts {s : State} (hk : s.Kept) (ws : s.wf = true) (hc : s.cclk = true) (n : Fin 8) (hst : ptState s n = 2)
    (hq : ptQuiet s n = true) (hp : s.bit (Reg.globalPtStatus n) 2 = true)
    (hqs : ∀ q ∈ partQueues s n, q < 1024 ∧ ringFault s q = none) :
    ∃ t, exec (.ptDrainComplete n) s = .next t.settle ∧ ptState t n = 1 ∧ t.bit (Reg.globalPtStatus n) 2 = false := by
  have w := State.wf_regs ws
  have hflush := ptFlush_changesOnlyRegs fun q hmem => (hqs q hmem).1
  have wf := hflush.regsOk w
  have hwarp : ((ptFlush n s).putB (Reg.globalPtStatus n) 2 false).warp = s.warp := ptFlush_within.warp (by decide)
  have hlow := globalPtStatus_lt n.isLt
  have hrings (q : Nat) (hmem : q ∈ partQueues ((ptFlush n s).putB (Reg.globalPtStatus n) 2 false) n) :
      q < 1024 ∧ ringFault ((ptFlush n s).putB (Reg.globalPtStatus n) 2 false) q = none := by
    obtain ⟨hlt, hok⟩ := hqs q (partQueues_of_warp hwarp n ▸ hmem)
    refine ⟨hlt, (ringFault_congr hwarp (fun x hx hrun => ?_) q).trans hok⟩
    rw [State.rd_putB_ne wf (by omega)]
    exact (hflush w).2 x hrun
  obtain ⟨t, et, hstate, hpend⟩ := ptStart_next (regsOk_putB wf) n.isLt hrings
  refine ⟨t, inContract_next hk ?_, hstate, hpend.trans (State.bit_putB_same wf (by decide))⟩
  rw [execPtDrainComplete_drained hc hst hq, hflush.bit w (isQueueRun_globalPtStatus n.isLt), if_pos hp, et]

/-- Settles O14: each block that switches and each that has drained, by the lemma about its kind. -/
theorem blocksSwitchAndDrain : Obligations.BlocksSwitchAndDrain := by
  unfold Obligations.BlocksSwitchAndDrain
  refine ⟨fun s hk ws ho => ⟨queue_enables hk ws ho, queue_disables hk ws ho, port_enables hk ws ho, port_refused hk ws ho,
    port_disables hk ws ho, link_enables hk ws ho, fun l hst hup => ?_, fun l hst hup => ?_⟩,
    fun s hk ws hc => ⟨queue_drains hk ws hc, port_drains hk ws hc, core_drains hk ws hc, link_drains hk ws hc, part_drains hk ws hc,
      part_restarts hk ws hc⟩⟩
  · rw [link_disables hk ho l hst, if_pos hup]
  · rw [link_disables hk ho l hst, if_neg (by simp [hup])]

end Sys2Proof.Machine
end

section
/-! SUPPORT. The check of a staged image and the end of its application (R42, R49 to R51, R64). -/

namespace Sys2Proof.Machine

/-! ### The numbers of a byte string -/

theorem leNat_lt (bs : List Byte) : leNat bs < 256 ^ bs.length := by
  induction bs with
  | nil => decide
  | cons b bs ih =>
    have hb := b.isLt
    rw [leNat, List.length_cons, Nat.pow_succ]
    omega

theorem leAt_lt (bs : List Byte) (o n : Nat) : leAt bs o n < 256 ^ n := by
  have hlen : (slice bs o n).length ≤ n := by
    rw [slice, List.length_take]
    exact Nat.min_le_left ..
  exact (leNat_lt _).trans_le (Nat.pow_le_pow_right (by decide) hlen)

theorem State.rd_wrN_toNat {s : State} (w : RegsOk s) {a v : Nat} (h : v < 2 ^ 32) : ((s.wrN a v).rd a).toNat = v := by
  rw [State.wrN, State.rd_wr_same w, BitVec.toNat_ofNat, Nat.mod_eq_of_lt h]

/-! ### How a check or an application ends (R50) -/

theorem raise_changesOnlyRegs (v : Nat) (s : State) : ChangesOnlyRegs (· == Reg.msixPba (v / 32)) s (s.raise v) := by
  unfold State.raise
  split
  · exact putB_only
  · exact ChangesOnlyRegs.trans (t := s.emit _) (.of_regs rfl) putB_only

/-- What the end of a check or an application shows: the result and done; the rest of GLOBAL_WARP_STATUS and the registers
besides it, GLOBAL_WARP_CTRL and the pending bits of MSI-X stay. -/
theorem warpEnd_regs (r : Nat) {s : State} (w : RegsOk s) :
    (warpEnd r s).fld Reg.globalWarpStatus 0 2 = s.fld Reg.globalWarpStatus 0 2 ∧
    (warpEnd r s).fld Reg.globalWarpStatus 2 4 = r % 2 ^ 4 ∧ (warpEnd r s).bit Reg.globalWarpStatus 6 = true ∧
    ∀ x, x ≠ Reg.globalWarpCtrl → x ≠ Reg.globalWarpStatus → x ≠ Reg.msixPba 0 → (warpEnd r s).rd x = s.rd x := by
  have w1 : RegsOk (s.putB Reg.globalWarpCtrl 0 false) := regsOk_putB w
  have w2 : RegsOk ((s.putB Reg.globalWarpCtrl 0 false).putF Reg.globalWarpStatus 2 4 r) := regsOk_putF w1
  have w3 : RegsOk { ((s.putB Reg.globalWarpCtrl 0 false).putF Reg.globalWarpStatus 2 4 r).putB Reg.globalWarpStatus 6 true with
      loader := .idle } := regsOk_putB w2
  have hraise {x : Nat} (hx : x ≠ Reg.msixPba 0) : (warpEnd r s).rd x =
      (((s.putB Reg.globalWarpCtrl 0 false).putF Reg.globalWarpStatus 2 4 r).putB Reg.globalWarpStatus 6 true).rd x :=
    (raise_changesOnlyRegs 0 _).rd_ne w3 hx
  have hstatus := hraise (x := Reg.globalWarpStatus) (by decide)
  refine ⟨?_, ?_, ?_, fun x hctrl hst hpba => ?_⟩
  · rw [State.fld_of_rd hstatus, State.fld_putB_ne w2 (by decide), State.fld_putF_ne w1 (by decide),
      State.fld_of_rd (State.rd_putB_ne w (by decide))]
  · rw [State.fld_of_rd hstatus, State.fld_putB_ne w2 (by decide), State.fld_putF_same w1 (by decide)]
  · rw [State.bit_of_rd hstatus, State.bit_putB_same w2 (by decide)]
  · rw [hraise hpba, State.rd_putB_ne w2 hst, State.rd_putF_ne w1 hst, State.rd_putB_ne w hctrl]

/-! ### The check of a staged image (R42, R50, R64) -/

/-- What the check decides of a staged image. -/
def warpChecked (s : State) : State :=
  if !crcOk (warpImage s) then warpNothing 1 s
  else if warpPartial s && (decide (7 < leAt (warpImage s) 0x0F 1) || ptState s (leAt (warpImage s) 0x0F 1) != 0) then warpNothing 4 s
  else { s with loader := .applying }

theorem execWarpCrcCheckDone_checking {s : State} (hc : s.cclk = true) (hl : s.loader = .checking) :
    execWarpCrcCheckDone s = .next (warpChecked s) := by
  unfold execWarpCrcCheckDone
  exact onlyIf_of_true (by simp [hc, hl])

theorem exec_warpCrcCheckDone_checking {s : State} (hk : s.Kept) (hc : s.cclk = true) (hl : s.loader = .checking) :
    exec .warpCrcCheckDone s = .next (warpChecked s) :=
  inContract_within hk execWarpCrcCheckDone_within (by decide) (execWarpCrcCheckDone_checking hc hl)

theorem warpChecked_mismatch {s : State} (h : crcOk (warpImage s) = false) : warpChecked s = warpNothing 1 s := by
  simp [warpChecked, h]

theorem warpChecked_refused {s : State} (h : crcOk (warpImage s) = true) (hp : warpPartial s = true)
    (hn : 7 < leAt (warpImage s) 0x0F 1 ∨ ptState s (leAt (warpImage s) 0x0F 1) ≠ 0) : warpChecked s = warpNothing 4 s := by
  simp [warpChecked, h, hp, hn]

theorem warpChecked_begins {s : State} (h : crcOk (warpImage s) = true)
    (hn : warpPartial s = true → leAt (warpImage s) 0x0F 1 ≤ 7 ∧ ptState s (leAt (warpImage s) 0x0F 1) = 0) :
    warpChecked s = { s with loader := .applying } := by
  cases hp : warpPartial s with
  | false => simp [warpChecked, h, hp]
  | true =>
    obtain ⟨hlt, hoff⟩ := hn hp
    simp [warpChecked, h, hp, hoff, Nat.not_lt.mpr hlt]

/-! ### Sections that write nothing -/

theorem applySection_empty (chip : Nat) {x : Section} (ht : x.type = 13) (hb : x.body = []) (s : State) :
    applySection chip x s = .next s := by
  obtain ⟨type, part, body⟩ := x
  subst ht hb
  rfl

theorem foldRes_next {α : Type} {f : α → State → Res State} {s : State} :
    ∀ {l : List α}, (∀ x ∈ l, f x s = .next s) → foldRes f l s = .next s
  | [], _ => rfl
  | x :: l, h => by
    rw [foldRes, h x (List.mem_cons_self ..)]
    exact foldRes_next fun y hy => h y (List.mem_cons_of_mem x hy)

theorem mem_of_mem_inOrder {l : List Section} {x : Section} (h : x ∈ inOrder l) : x ∈ l := by
  obtain ⟨t, -, ht⟩ := List.mem_flatMap.mp h
  exact List.mem_of_mem_filter ht

theorem applyImage_empty {img : List Byte} {s : State} {l : List Section} (hh : headerOutside img true = false)
    (hl : readSections (leAt img 8 2) (img.drop 64) = .ok l) (hp : partialOutside (leAt img 0x0F 1) l = false)
    (he : ∀ x ∈ l, x.type = 13 ∧ x.body = []) (hg : groupsBad s = false) : applyImage img true s = .next s := by
  have hfold : foldRes (applySection (leAt img 0x0E 1)) (inOrder l) s = .next s :=
    foldRes_next fun x hx => applySection_empty _ (he x (mem_of_mem_inOrder hx)).1 (he x (mem_of_mem_inOrder hx)).2 s
  simp [applyImage, hh, hl, hp, hfold, hg, andThen]

/-! ### The end of an application (R50, R51) -/

/-- A state whose partial image has been applied: WARP_CRC, the state, the stage and the partition's mark. -/
def partialApplied (img : List Byte) (s : State) : State :=
  (((s.wrN Reg.globalWarpCrc (leAt img (img.length - 4) 4)).putF Reg.globalWarpStatus 0 2 2).setStage 4).putB
    (Reg.globalPtStatus (leAt img 0x0F 1)) 3 true

theorem execWarpApplyDone_partial {s t : State} (hc : s.cclk = true) (hl : s.loader = .applying) (hp : warpPartial s = true)
    (h : applyImage (warpImage s) true s = .next t) :
    execWarpApplyDone s = .next (warpEnd 0 (partialApplied (warpImage s) t)) := by
  unfold execWarpApplyDone
  simp [onlyIfR, hc, hl, hp, h, andThen, partialApplied]

theorem exec_warpApplyDone_partial {s t : State} (hk : s.Kept) (hc : s.cclk = true) (hl : s.loader = .applying)
    (hp : warpPartial s = true) (h : applyImage (warpImage s) true s = .next t) :
    exec .warpApplyDone s = .next (warpEnd 0 (partialApplied (warpImage s) t)).settle :=
  inContractWith_next hk (execWarpApplyDone_partial hc hl hp h)

theorem partialApplied_regs {s : State} (w : RegsOk s) (img : List Byte) (hn : leAt img 0x0F 1 < 8) :
    RegsOk (partialApplied img s) ∧ (partialApplied img s).fld Reg.globalWarpStatus 0 2 = 2 ∧ (partialApplied img s).stage = 4 ∧
    (partialApplied img s).bit (Reg.globalPtStatus (leAt img 0x0F 1)) 3 = true ∧
    ((partialApplied img s).rd Reg.globalWarpCrc).toNat = leAt img (img.length - 4) 4 := by
  unfold partialApplied
  have hcrc : leAt img (img.length - 4) 4 < 2 ^ 32 := leAt_lt _ _ 4
  generalize leAt img 0x0F 1 = n at hn
  generalize leAt img (img.length - 4) 4 = c at hcrc
  have hpt {x : Nat} (hx : x < 0x200) : x ≠ Reg.globalPtStatus n := by simp only [Reg.globalPtStatus]; omega
  have w1 : RegsOk (s.wrN Reg.globalWarpCrc c) := regsOk_wr w
  have w2 : RegsOk ((s.wrN Reg.globalWarpCrc c).putF Reg.globalWarpStatus 0 2 2) := regsOk_putF w1
  have w3 : RegsOk (((s.wrN Reg.globalWarpCrc c).putF Reg.globalWarpStatus 0 2 2).setStage 4) := regsOk_putF w2
  refine ⟨regsOk_putB w3, ?_, ?_, State.bit_putB_same w3 (by decide), ?_⟩
  · rw [State.fld_of_rd (State.rd_putB_ne w3 (hpt (by decide))), State.setStage, State.fld_of_rd (State.rd_putF_ne w2 (by decide))]
    exact State.fld_putF_same w1 (by decide)
  · rw [State.stage, State.fld_of_rd (State.rd_putB_ne w3 (hpt (by decide)))]
    exact State.fld_putF_same w2 (by decide)
  · rw [State.rd_putB_ne w3 (hpt (by decide)), State.setStage, State.rd_putF_ne w2 (by decide), State.rd_putF_ne w1 (by decide)]
    exact State.rd_wrN_toNat w hcrc

/-- A partial image whose sections write nothing: what its application shows, and what it leaves. -/
theorem warpApplied_empty {s : State} (hk : s.Kept) (ws : s.wf = true) (hc : s.cclk = true) (hl : s.loader = .applying)
    (hp : warpPartial s = true) (h : applyImage (warpImage s) true s = .next s) (hn : leAt (warpImage s) 0x0F 1 < 8) :
    ∃ t, exec .warpApplyDone s = .next t ∧ t.loader = .idle ∧ t.fld Reg.globalWarpStatus 0 2 = 2 ∧ t.fld Reg.globalWarpStatus 2 4 = 0 ∧
      t.bit Reg.globalWarpStatus 6 = true ∧ t.stage = 4 ∧ t.bit (Reg.globalPtStatus (leAt (warpImage s) 0x0F 1)) 3 = true ∧
      (t.rd Reg.globalWarpCrc).toNat = leAt (warpImage s) ((warpImage s).length - 4) 4 ∧ t.mem = s.mem ∧ t.warp = s.warp ∧
      t.cores = s.cores := by
  have e := exec_warpApplyDone_partial hk hc hl hp h
  obtain ⟨w, hstate, hstage, hmark, hcrc⟩ := partialApplied_regs (State.wf_regs ws) (warpImage s) hn
  have hsame : (partialApplied (warpImage s) s).mem = s.mem ∧ (partialApplied (warpImage s) s).warp = s.warp ∧
      (partialApplied (warpImage s) s).cores = s.cores ∧ (partialApplied (warpImage s) s).contract = s.contract := ⟨rfl, rfl, rfl, rfl⟩
  generalize warpImage s = img at *
  generalize partialApplied img s = u at e w hstate hstage hmark hcrc hsame
  obtain ⟨hmem, hwarp, hcores, hcontract⟩ := hsame
  obtain ⟨hstate', hresult, hdone, hrest⟩ := warpEnd_regs 0 w
  have hkept : (warpEnd 0 u).contract.broken = false := kept_of_contract ((warpEnd_within.contract (by decide)).trans hcontract) hk
  rw [State.settle_of_kept hkept] at e
  have hlow {x : Nat} (hx : x < 0x1000) (hctrl : x ≠ Reg.globalWarpCtrl) (hst : x ≠ Reg.globalWarpStatus) : (warpEnd 0 u).rd x = u.rd x :=
    hrest x hctrl hst (by simp only [Reg.msixPba]; omega)
  have hpt : Reg.globalPtStatus (leAt img 0x0F 1) < 0x1000 := by simp only [Reg.globalPtStatus]; omega
  have hctrl : Reg.globalPtStatus (leAt img 0x0F 1) ≠ Reg.globalWarpCtrl := by simp only [Reg.globalPtStatus, Reg.globalWarpCtrl]; omega
  have hstatus : Reg.globalPtStatus (leAt img 0x0F 1) ≠ Reg.globalWarpStatus := by simp only [Reg.globalPtStatus, Reg.globalWarpStatus]; omega
  refine ⟨_, e, ?_, hstate'.trans hstate, hresult, hdone, ?_, ?_, ?_, ?_, ?_, ?_⟩
  · exact (State.raise_within (x1 := 0)).loader (by decide)
  · exact (State.fld_of_rd (hlow (by decide) (by decide) (by decide)) 0 4).trans hstage
  · exact (State.bit_of_rd (hlow hpt hctrl hstatus) 3).trans hmark
  · rw [hlow (by decide) (by decide) (by decide), hcrc]
  · exact (warpEnd_within.mem (by decide)).trans hmem
  · exact (warpEnd_within.warp (by decide)).trans hwarp
  · exact (warpEnd_within.cores (by decide)).trans hcores

/-! ### A full image that is outside contract (R49) -/

theorem execWarpApplyDone_full_outside {s : State} {l : List Section} (hc : s.cclk = true) (hl : s.loader = .applying)
    (hp : warpPartial s = false) (hh : headerOutside (warpImage s) false = false)
    (hr : readSections (leAt (warpImage s) 8 2) ((warpImage s).drop 64) = .ok l) (hf : fullOutside l = true) :
    execWarpApplyDone s = .outside 48 := by
  unfold execWarpApplyDone
  simp [onlyIfR, hc, hl, hp, applyImage, hh, hr, hf, andThen, oc]

theorem selvSync_safety (s : State) : (selvSync s).selv.safety = s.selv.safety := by
  have htelegram (t : State) : (telegram true t).selv.safety = t.selv.safety := by
    unfold telegram
    dsimp only
    split <;> rfl
  unfold selvSync
  dsimp only
  split
  · rfl
  · exact htelegram _

theorem safetyKept_safety {s : State} {l : List Section} (hl : s.loader = .applying) (hp : warpPartial s = false)
    (hr : readSections (leAt (warpImage s) 8 2) ((warpImage s).drop 64) = .ok l) (h : (l.filter fun x => x.type = 12).length ≠ 1) :
    (safetyKept s).selv.safety = s.selv.safety := by
  unfold safetyKept
  dsimp only
  rw [if_neg (by simp [hl, hp]), hr]
  dsimp only
  split
  · next x hx => simp [hx] at h
  · exact selvSync_safety _

/-- Settles O16: the three answers of the check, the application of a partial image, and the full image that is outside
contract. -/
theorem warpCheckAndApply : Obligations.WarpCheckAndApply := by
  unfold Obligations.WarpCheckAndApply
  refine fun s hk hc => ⟨fun hl h => ?_, fun hl h hp hn => ?_, fun hl h hn => ?_, fun l ws hl hp hh hr ho he hg hn => ?_,
    fun t hl hp h => exec_warpApplyDone_partial hk hc hl hp h, fun l hl hp hh hr hf => ⟨?_, safetyKept_safety hl hp hr⟩⟩
  · rw [exec_warpCrcCheckDone_checking hk hc hl, warpChecked_mismatch h]
  · rw [exec_warpCrcCheckDone_checking hk hc hl, warpChecked_refused h hp hn]
  · rw [exec_warpCrcCheckDone_checking hk hc hl, warpChecked_begins h hn]
  · exact warpApplied_empty hk ws hc hl hp (applyImage_empty hh hr ho he hg) hn
  · rw [exec_warpApplyDone, inContractWith_outside hk (execWarpApplyDone_full_outside hc hl hp hh hr hf),
      State.settle_of_broken (State.leave_broken _ _)]

end Sys2Proof.Machine
end

section
/-! SUPPORT. Quantities of several words (R9): what a read of one gives after writes. -/

namespace Sys2Proof.Machine

/-! ### Quantities of several words (R9) -/

/-- The registers from `lo` to below `hi`. -/
def regsIn (lo hi x : Nat) : Bool := decide (lo ≤ x ∧ x < hi)

theorem regsIn_iff {lo hi x : Nat} : regsIn lo hi x = true ↔ lo ≤ x ∧ x < hi := decide_eq_true_iff

theorem regsIn_false {lo hi x : Nat} (h : x < lo ∨ hi ≤ x) : regsIn lo hi x = false := by
  rw [regsIn, decide_eq_false_iff_not]
  omega

/-- A change of one range of registers is a change of any range around it. -/
theorem ChangesOnlyRegs.widen {lo hi : Nat} {p : Nat → Bool} {s t : State} (h : ChangesOnlyRegs (regsIn lo hi) s t)
    (hp : ∀ x, lo ≤ x → x < hi → p x = true) : ChangesOnlyRegs p s t :=
  h.mono fun x hx => by
    refine Bool.eq_false_iff.mpr fun hin => ?_
    obtain ⟨hlo, hhi⟩ := regsIn_iff.mp hin
    rw [hp x hlo hhi] at hx
    cases hx

theorem ChangesOnlyRegs.ite {p : Nat → Bool} {c : Prop} [Decidable c] {s a b : State} (ha : ChangesOnlyRegs p s a)
    (hb : ChangesOnlyRegs p s b) : ChangesOnlyRegs p s (if c then a else b) := by split <;> assumption

theorem wrQ_changesOnlyRegs (s : State) (a n v : Nat) : ChangesOnlyRegs (regsIn a (a + 4 * n)) s (s.wrQ a n v) := by
  induction n generalizing s a v with
  | zero => exact .of_regs rfl
  | succ n ih =>
    refine ChangesOnlyRegs.trans (wr_changesOnlyRegs (regsIn_iff.mpr (by omega))) ((ih _ _ _).widen fun x hlo hhi => ?_)
    exact regsIn_iff.mpr (by omega)

theorem State.rd_wrQ_ne {s : State} {a n v x : Nat} (w : RegsOk s) (h : x < a ∨ a + 4 * n ≤ x) : (s.wrQ a n v).rd x = s.rd x :=
  (wrQ_changesOnlyRegs s a n v w).2 x (regsIn_false h)

theorem regsOk_wrQ {s : State} {a n v : Nat} (w : RegsOk s) : RegsOk (s.wrQ a n v) := (wrQ_changesOnlyRegs s a n v w).1

/-- A quantity reads as it was written. -/
theorem State.rdQ_wrQ_same {s : State} {a n v : Nat} (w : RegsOk s) : (s.wrQ a n v).rdQ a n = v % 2 ^ (32 * n) := by
  induction n generalizing s a v with
  | zero => simp [State.rdQ, Nat.mod_one]
  | succ n ih =>
    have w1 : RegsOk (s.wr a (BitVec.ofNat 32 v)) := regsOk_wr w
    have hlow : (s.wrQ a (n + 1) v).rd a = BitVec.ofNat 32 v := (State.rd_wrQ_ne w1 (by omega)).trans (State.rd_wr_same w)
    have hhigh : (s.wrQ a (n + 1) v).rdQ (a + 4) n = v / 2 ^ 32 % 2 ^ (32 * n) := ih w1
    rw [State.rdQ, hlow, hhigh, BitVec.toNat_ofNat, Nat.mul_succ, Nat.add_comm (32 * n), Nat.pow_add, Nat.mod_mul]

/-- A quantity reads the same where each of its words does. -/
theorem State.rdQ_of_rd {s t : State} {a n : Nat} (h : ∀ x, a ≤ x → x < a + 4 * n → t.rd x = s.rd x) : t.rdQ a n = s.rdQ a n := by
  induction n generalizing a with
  | zero => rfl
  | succ n ih => rw [State.rdQ, State.rdQ, h a (by omega) (by omega), ih fun x hlo hhi => h x (by omega) (by omega)]

theorem State.rdQ_of_regs {s t : State} (h : t.regs = s.regs) (a n : Nat) : t.rdQ a n = s.rdQ a n :=
  State.rdQ_of_rd fun x _ _ => State.rd_of_regs h x

theorem ChangesOnlyRegs.rdQ {p : Nat → Bool} {s t : State} (h : ChangesOnlyRegs p s t) (w : RegsOk s) {a n : Nat}
    (ha : ∀ x, a ≤ x → x < a + 4 * n → p x = false) : t.rdQ a n = s.rdQ a n :=
  State.rdQ_of_rd fun x hlo hhi => (h w).2 x (ha x hlo hhi)

theorem State.rdQ_wrQ_ne {s : State} {a n v b m : Nat} (w : RegsOk s) (h : b + 4 * m ≤ a ∨ a + 4 * n ≤ b) :
    (s.wrQ a n v).rdQ b m = s.rdQ b m :=
  (wrQ_changesOnlyRegs s a n v).rdQ w fun _ _ _ => regsIn_false (by omega)

theorem State.rdQ_lt (s : State) (a n : Nat) : s.rdQ a n < 2 ^ (32 * n) := by
  induction n generalizing a with
  | zero => simp [State.rdQ]
  | succ n ih =>
    have h := ih (a + 4)
    have h' := (s.rd a).isLt
    rw [State.rdQ, Nat.mul_succ, Nat.pow_add]
    omega

end Sys2Proof.Machine
end

section
/-! SUPPORT. What an Ethernet port does besides receiving (R82, R83, R111, R145). -/

namespace Sys2Proof.Machine

section
variable {s : State} {p : Nat}

/-- R111: a port shows the link it has been given. -/
theorem portLink_setPortLink (w : RegsOk s) (up : Bool) : portLink (setPortLink p up s) p = up := by
  cases up with
  | false => exact (setPortLink_false w).1
  | true =>
    unfold setPortLink
    split
    · next h => simpa using h
    · rw [portLink, if_pos rfl, State.bit_putB_ne (regsOk_putB w) (by decide), State.bit_putB_same w (by decide)]

theorem portState_setPortLink (w : RegsOk s) (up : Bool) : portState (setPortLink p up s) p = portState s p := by
  cases up with
  | false => exact (setPortLink_false w).2.1
  | true =>
    unfold setPortLink
    split
    · rfl
    · rw [portState, if_pos rfl, State.fld_putB_ne (regsOk_putB w) (by decide), State.fld_putB_ne w (by decide), portState]

end

theorem port_link_changes {s : State} (hk : s.Kept) (ws : s.wf = true) (hc : s.cclk = true) (p : Fin 8) (up : Bool)
    (hst : portState s p = 1 ∨ portState s p = 2) :
    ∃ t, exec (.ethLinkChange p up) s = .next t ∧ portLink t p = up ∧ portState t p = portState s p ∧
      ∀ a, a ≠ Reg.ethPortStatus p → t.rd a = s.rd a :=
  ⟨_, inContract_within hk execEthLinkChange_within (by decide) (onlyIf_of_true (by rcases hst with h | h <;> simp [hc, h])),
    portLink_setPortLink (State.wf_regs ws) up, portState_setPortLink (State.wf_regs ws) up,
    fun _ h => (setPortLink_changesOnlyRegs up).rd_ne (State.wf_regs ws) h⟩

/-- What a port makes of the element `e` that it has taken from its transmit queue (R145). -/
def txElement (p : Nat) (e : List Byte) (ago : Nat) (s : State) : State :=
  if leAt e 0 2 < 14 ∨ 9212 < leAt e 0 2 ∨ e.length < leAt e 0 2 + 16 then s.sat (Reg.ethTxBad p)
  else
    let t := (s.emit (.frame p (framed (slice e 16 (leAt e 0 2))))).sat (Reg.ethTxFrames p)
    if (leAt e 2 2).testBit 0 then txStamp p (leAt e 4 2) (agoStamp t ago) t else t

theorem exec_ethFrameTransmit_element {s : State} {p : Fin 8} {e : List Byte} {ago : Nat} (hk : s.Kept) (hc : s.cclk = true)
    (ht : portTakes s p ago = true) (hl : portLink s p = true) (hq : s.bit (Reg.ethTxQueue p) 16 = true)
    (hcons : qCons s (s.fld (Reg.ethTxQueue p) 0 10) = 3) (he : qPeek s (s.fld (Reg.ethTxQueue p) 0 10) = some e)
    (hw : engWaits s (takeRange s (s.fld (Reg.ethTxQueue p) 0 10)) = false) :
    exec (.ethFrameTransmit p ago) s = .next (txElement p e ago (qTake (s.fld (Reg.ethTxQueue p) 0 10)
      (engGo (takeRange s (s.fld (Reg.ethTxQueue p) 0 10)) s))) := by
  refine inContract_within hk execEthFrameTransmit_within (by decide) ?_
  simp only [execEthFrameTransmit, hc, ht, hl, hq, hcons, he, engAccess, hw, txElement]
  simp only [Bool.not_true, Bool.or_self, bne_self_eq_false, Bool.false_eq_true, if_false]
  split <;> rfl

/-- Settles O25: the link, the three kinds of elements of a transmit queue, and the removal of a stamp. -/
theorem portLinkAndTransmission : Obligations.PortLinkAndTransmission := by
  refine fun s p hk => ⟨fun up ws hc hst => port_link_changes hk ws hc p up hst, fun e ago hc ht hl hq => ?_, fun ho => ?_⟩
  · intro q hcons he hw n f s1 s2
    have hexec := exec_ethFrameTransmit_element hk hc ht hl hq hcons he hw
    refine ⟨fun hbad => ?_, fun h14 hmax hlen hreq => ?_, fun h14 hmax hlen hreq => ?_⟩
    · rw [hexec, txElement, if_pos hbad]
    · rw [hexec, txElement, if_neg (by omega), if_neg (by simp [hreq])]
      rfl
    · rw [hexec, txElement, if_neg (by omega), if_pos hreq]
      rfl
  · exact inContract_within hk execEthTxtsPop_within (by decide) (hostWrite_of_takes ho)

end Sys2Proof.Machine
end

section
/-! SUPPORT. The time base (R70 to R79): its sets, steps and trim, its snapshots, and the pulse per second. -/

namespace Sys2Proof.Machine

/-! ### Sets, steps and the trim (R71 to R74, R77) -/

section
variable {s : State}

theorem execTimeSet_discarded (ht : hostTakes .time s = true) (h : chainBound s = true ∨ s.bit Reg.timeCtrl 2 = true) :
    execTimeSet s = .next s := by
  rw [execTimeSet, hostWrite_of_takes ht]
  exact if_pos (by simpa using h)

theorem execTimeStep_discarded (ht : hostTakes .time s = true) (h : chainBound s = true ∨ s.bit Reg.timeCtrl 3 = true) :
    execTimeStep s = .next s := by
  rw [execTimeStep, hostWrite_of_takes ht]
  exact if_pos (by simpa using h)

theorem exec_timeTrimWrite_discarded (hk : s.Kept) (ht : hostTakes .time s = true) (hc : chainBound s = true) (v : W32) :
    exec (.timeTrimWrite v) s = .next s := by
  refine inContract_kept hk hk ?_
  rw [execTimeTrimWrite, hostWrite_of_takes ht, if_pos hc]

/-- R72: the values of a set are sampled, and the request stays. -/
theorem time_set_requested (hk : s.Kept) (ws : s.wf = true) (ht : hostTakes .time s = true) (hc : chainBound s = false)
    (h : s.bit Reg.timeCtrl 2 = false) :
    ∃ t, exec .timeSet s = .next t ∧ t.bit Reg.timeCtrl 2 = true ∧ t.pos.tb = s.pos.tb ∧
      t.pos.setReq = some ⟨BitVec.ofNat 64 (s.rdQ Reg.timeSetSec 2), BitVec.ofNat 30 (min (s.fld Reg.timeSetNs 0 30) 999999999),
        BitVec.ofNat 32 (s.fld Reg.timeSetFrac 0 16 * 2 ^ 16)⟩ := by
  refine ⟨{ s.putB Reg.timeCtrl 2 true with pos := { s.pos with setReq := some ⟨BitVec.ofNat 64 (s.rdQ Reg.timeSetSec 2),
    BitVec.ofNat 30 (min (s.fld Reg.timeSetNs 0 30) 999999999), BitVec.ofNat 32 (s.fld Reg.timeSetFrac 0 16 * 2 ^ 16)⟩ } },
    inContract_within hk execTimeSet_within (by decide) ?_, State.bit_putB_same (State.wf_regs ws) (by decide), rfl, rfl⟩
  rw [execTimeSet, hostWrite_of_takes ht]
  exact if_neg (by simp [hc, h])

/-- R73: the value of a step is sampled, and the request stays. -/
theorem time_step_requested (hk : s.Kept) (ws : s.wf = true) (ht : hostTakes .time s = true) (hc : chainBound s = false)
    (h : s.bit Reg.timeCtrl 3 = false) :
    ∃ t, exec .timeStep s = .next t ∧ t.bit Reg.timeCtrl 3 = true ∧ t.pos.tb = s.pos.tb ∧
      t.pos.stepReq = some (signedN 64 (s.rdQ Reg.timeStep 2), s.fld Reg.timeStepFrac 0 16) := by
  refine ⟨{ s.putB Reg.timeCtrl 3 true with pos := { s.pos with
    stepReq := some (signedN 64 (s.rdQ Reg.timeStep 2), s.fld Reg.timeStepFrac 0 16) } },
    inContract_within hk execTimeStep_within (by decide) ?_, State.bit_putB_same (State.wf_regs ws) (by decide), rfl, rfl⟩
  rw [execTimeStep, hostWrite_of_takes ht]
  exact if_neg (by simp [hc, h])

/-- A value clamped to ±1,000 ppm (R71). -/
def trimClamp (x : Int) : Int := if x < -0x418937 then -0x418937 else if 0x418937 < x then 0x418937 else x

theorem trimClamp_toInt (x : Int) : (BitVec.ofInt 32 (trimClamp x)).toInt = trimClamp x := by
  refine BitVec.toInt_ofInt_eq_self (by decide) ?_ ?_ <;> rw [trimClamp] <;> split_ifs <;> omega

theorem trimClamp_eq_iff (x : Int) : trimClamp x = x ↔ ¬(x < -0x418937 ∨ 0x418937 < x) := by
  rw [trimClamp]
  split_ifs <;> omega

theorem trimPut_eq (v : W32) (s : State) : trimPut v s =
    (if trimClamp v.toInt = v.toInt then s else s.putB Reg.timeStatus 1 true).wr Reg.timeTrim (BitVec.ofInt 32 (trimClamp v.toInt)) := rfl

/-- R71: TIME_TRIM holds the clamped value, and a clamp is shown. -/
theorem trimPut_regs (w : RegsOk s) (v : W32) :
    ((trimPut v s).rd Reg.timeTrim).toInt = trimClamp v.toInt ∧
    (trimPut v s).bit Reg.timeStatus 1 = (s.bit Reg.timeStatus 1 || decide (v.toInt < -0x418937 ∨ 0x418937 < v.toInt)) ∧
    ∀ a, a ≠ Reg.timeTrim → a ≠ Reg.timeStatus → (trimPut v s).rd a = s.rd a := by
  rw [trimPut_eq]
  split
  · next h =>
    refine ⟨(congrArg BitVec.toInt (State.rd_wr_same w)).trans (trimClamp_toInt _), ?_, fun a ha _ => State.rd_wr_ne w ha⟩
    rw [State.bit_of_rd (State.rd_wr_ne w (by decide)), decide_eq_false ((trimClamp_eq_iff _).mp h), Bool.or_false]
  · next h =>
    have w1 : RegsOk (s.putB Reg.timeStatus 1 true) := regsOk_putB w
    refine ⟨(congrArg BitVec.toInt (State.rd_wr_same w1)).trans (trimClamp_toInt _), ?_,
      fun a ha ha' => (State.rd_wr_ne w1 ha).trans (State.rd_putB_ne w ha')⟩
    rw [State.bit_of_rd (State.rd_wr_ne w1 (by decide)), State.bit_putB_same w (by decide),
      decide_eq_true (not_not.mp (mt (trimClamp_eq_iff _).mpr h)), Bool.or_true]

theorem execTimeSetDone_request (ht : s.tclk = true) {t0 : TimeBase} (h : s.pos.setReq = some t0) :
    execTimeSetDone s = .next (judgeTimes (timeMoved (timeSync
      ((({ s with pos := { s.pos with tb := t0, setReq := none } } : State).putB Reg.timeCtrl 2 false).putB Reg.timeCtrl 1 false)))) := by
  rw [execTimeSetDone, h]
  exact onlyIf_of_true ht

/-- The time base moved by `d` units of 2⁻³² ns, and what follows but the judgement of the events (R73). -/
def timeStepped (d : Int) (s : State) : State :=
  timeMoved (({ s with pos := { s.pos with tb := ofTb32 ((now32 s : Int) + d).toNat, stepReq := none } } : State).putB Reg.timeCtrl 3 false)

theorem execTimeStepDone_request (ht : s.tclk = true) {ns : Int} {fr : Nat} (h : s.pos.stepReq = some (ns, fr)) :
    execTimeStepDone s = .next (if 0 < ns * 2 ^ 32 + fr * 2 ^ 16 then judgeTimes (timeStepped (ns * 2 ^ 32 + fr * 2 ^ 16) s)
      else timeStepped (ns * 2 ^ 32 + fr * 2 ^ 16) s) := by
  rw [execTimeStepDone, h]
  exact onlyIf_of_true ht

theorem timeStepped_kept (hk : s.Kept) (d : Int) : (timeStepped d s).Kept :=
  kept_of_contract (timeMoved_within.contract rfl) (by exact hk)

theorem timeMoved_stepCount (s : State) : (timeMoved s).chain.stepCount = (s.chain.stepCount + 1) % 65536 := by
  rw [timeMoved, traceTime_within.chain rfl, loadWindowEnd_within.chain rfl]

theorem timeMoved_load (s : State) : (timeMoved s).emb.load = [] := by
  rw [timeMoved, traceTime_within.emb rfl]
  rfl

/-- A time base set to a number of whole nanoseconds reads as that number, within the range of its seconds (R70). -/
theorem now32_ofTb32 (s : State) (ns : Nat) :
    now32 { s with pos := { s.pos with tb := ofTb32 (ns * 2 ^ 32) } } = ns % (2 ^ 64 * 1000000000) * 2 ^ 32 := by
  have hdiv : ns * 2 ^ 32 / 2 ^ 32 = ns := Nat.mul_div_cancel _ (by decide)
  have hns : ns % 1000000000 % 2 ^ 30 = ns % 1000000000 := Nat.mod_eq_of_lt ((Nat.mod_lt _ (by decide)).trans (by decide))
  rw [now32, tb32, State.tbNs, ofTb32, hdiv]
  simp only [BitVec.toNat_ofNat]
  rw [hns, Nat.mul_mod_left, Nat.mul_comm (2 ^ 64), Nat.mod_mul]
  omega

end

/-- Settles O19: the requests, what ends them, and the trim. -/
theorem timeSetStepAndTrim : Obligations.TimeSetStepAndTrim := by
  refine ⟨fun s hk ws ht => ⟨time_set_requested hk ws ht, time_step_requested hk ws ht, fun hc => ?_, fun h => ?_, fun h => ?_, ?_⟩,
    fun s hk ht => ⟨fun t0 h => inContract_next hk (execTimeSetDone_request ht h), fun ns fr h => ?_, timeMoved_stepCount s,
      timeMoved_load s, now32_ofTb32 s⟩, fun s v hk ws ht hc => ?_⟩
  · exact ⟨inContract_kept hk hk (execTimeSet_discarded ht (.inl hc)), inContract_kept hk hk (execTimeStep_discarded ht (.inl hc)),
      exec_timeTrimWrite_discarded hk ht hc⟩
  · exact inContract_kept hk hk (execTimeSet_discarded ht (.inr h))
  · exact inContract_kept hk hk (execTimeStep_discarded ht (.inr h))
  · exact inContract_within hk execTimeSnap_within (by decide) (hostWrite_of_takes ht)
  · have e := execTimeStepDone_request ht h
    refine ⟨fun hd => ?_, fun hd => ?_⟩
    · exact inContract_next hk (e.trans (congrArg _ (if_pos hd)))
    · exact inContract_kept hk (timeStepped_kept hk _) (e.trans (congrArg _ (if_neg (not_lt.mpr hd))))
  · refine ⟨trimPut v s, inContract_within hk execTimeTrimWrite_within (by decide) ?_, trimPut_regs (State.wf_regs ws) v⟩
    rw [execTimeTrimWrite, hostWrite_of_takes ht, if_neg (by simp [hc])]

/-! ### Snapshots (R76) -/

/-- The four counters: counter n, those before it and those after it. -/
theorem counters_split : ∀ n : Fin 4, [0, 1, 2, 3] = [0, 1, 2, 3].take n ++ n.val :: [0, 1, 2, 3].drop (n + 1) ∧
    n.val ∉ [0, 1, 2, 3].take n ∧ n.val ∉ [0, 1, 2, 3].drop (n + 1) := by decide

/-- The pick stamps `f` of some counters in their registers. -/
def snapPicks (f : Nat → Nat) (l : List Nat) (s : State) : State := l.foldl (fun s n => s.wrQ (Reg.timeSnapPk n) 2 (f n)) s

/-- The registers of snapshots of counters other than n. -/
theorem snapPicks_changesOnlyRegs (f : Nat → Nat) {l : List Nat} {n : Nat} (h : n ∉ l) (hl : ∀ m ∈ l, m < 4) (s : State) :
    ChangesOnlyRegs (fun x => regsIn 0x10040 0x10060 x && !regsIn (Reg.timeSnapPk n) (Reg.timeSnapPk n + 8) x) s (snapPicks f l s) := by
  refine foldl_changesOnlyRegs (fun m hm s => (wrQ_changesOnlyRegs _ _ _ _).widen fun x hlo hhi => ?_) s
  have hne : m ≠ n := fun e => h (e ▸ hm)
  have hm4 := hl m hm
  simp only [Reg.timeSnapPk] at hlo hhi
  rw [Bool.and_eq_true, Bool.not_eq_true', regsIn_iff]
  exact ⟨by omega, regsIn_false (by simp only [Reg.timeSnapPk]; omega)⟩

theorem snapPicks_rdQ {s : State} (w : RegsOk s) (f : Nat → Nat) (n : Fin 4) :
    (snapPicks f [0, 1, 2, 3] s).rdQ (Reg.timeSnapPk n) 2 = f n % 2 ^ 64 := by
  obtain ⟨hl, hbefore, hafter⟩ := counters_split n
  have hlt : ∀ m ∈ [0, 1, 2, 3], m < 4 := by decide
  have w1 := (snapPicks_changesOnlyRegs f hbefore (fun m hm => hlt m (List.mem_of_mem_take hm)) s).regsOk w
  have hrest := snapPicks_changesOnlyRegs f hafter (fun m hm => hlt m (List.mem_of_mem_drop hm))
    ((snapPicks f ([0, 1, 2, 3].take n) s).wrQ (Reg.timeSnapPk n) 2 (f n))
  have e : snapPicks f [0, 1, 2, 3] s = snapPicks f ([0, 1, 2, 3].drop (n + 1))
      ((snapPicks f ([0, 1, 2, 3].take n) s).wrQ (Reg.timeSnapPk n) 2 (f n)) := by
    conv_lhs => rw [hl]
    exact List.foldl_append
  rw [e, hrest.rdQ (regsOk_wrQ w1) fun x hlo hhi => ?_, State.rdQ_wrQ_same w1]
  have hin := regsIn_iff.mpr ⟨hlo, hhi⟩
  simp [hin]

theorem execTimeSnapDone_requested {s : State} (ht : s.tclk = true) (h : s.bit Reg.timeCtrl 4 = true) :
    execTimeSnapDone s = .next (snapPicks (fun n => (pickStamp s n).toNat) [0, 1, 2, 3]
      ((s.wrQ Reg.timeSnap 4 (nowStamp s).toNat).putB Reg.timeCtrl 4 false)) :=
  onlyIf_of_true (by simp [ht, h])

/-- R76: a snapshot holds the stamps of one TCLK. -/
theorem time_snapshot {s : State} (hk : s.Kept) (ws : s.wf = true) (ht : s.tclk = true) (h : s.bit Reg.timeCtrl 4 = true) :
    ∃ t, exec .timeSnapDone s = .next t ∧ t.bit Reg.timeCtrl 4 = false ∧ t.rdQ Reg.timeSnap 4 = (nowStamp s).toNat ∧
      (∀ n : Fin 4, t.rdQ (Reg.timeSnapPk n) 2 = (pickStamp s n).toNat) ∧ t.pos = s.pos := by
  have e := execTimeSnapDone_requested ht h
  have w1 : RegsOk (s.wrQ Reg.timeSnap 4 (nowStamp s).toNat) := regsOk_wrQ (State.wf_regs ws)
  have w2 : RegsOk ((s.wrQ Reg.timeSnap 4 (nowStamp s).toNat).putB Reg.timeCtrl 4 false) := regsOk_putB w1
  have hpicks := snapPicks_changesOnlyRegs (fun n => (pickStamp s n).toNat) (l := [0, 1, 2, 3]) (n := 4) (by decide) (by decide)
    ((s.wrQ Reg.timeSnap 4 (nowStamp s).toNat).putB Reg.timeCtrl 4 false)
  refine ⟨_, inContract_within hk execTimeSnapDone_within (by decide) e, ?_, ?_, fun n => ?_, (execTimeSnapDone_within _ e).pos rfl⟩
  · rw [hpicks.bit w2 (by decide), State.bit_putB_same w1 (by decide)]
  · rw [hpicks.rdQ w2 fun x hlo hhi => ?_, State.rdQ_of_rd fun x hlo hhi => State.rd_putB_ne w1 ?_, State.rdQ_wrQ_same (State.wf_regs ws)]
    · exact Nat.mod_eq_of_lt (nowStamp s).isLt
    · simp only [Reg.timeSnap, Reg.timeCtrl] at hlo ⊢
      omega
    · simp only [Reg.timeSnap] at hlo hhi
      simp [regsIn_false (.inl (by omega) : x < 0x10040 ∨ 0x10060 ≤ x)]
  · rw [snapPicks_rdQ w2]
    exact Nat.mod_eq_of_lt (pickStamp s n).isLt

/-! ### The pulse per second (R78, R79) -/

/-- The registers of the trace unit. -/
def isTraceReg (x : Nat) : Bool := decide (0x2700000 ≤ x)

theorem pmcCount_isTraceReg (ev k n : Nat) (s : State) : ChangesOnlyRegs isTraceReg s (pmcCount ev k n s) := by
  unfold pmcCount
  split
  · refine foldl_changesOnlyRegs (fun i _ t => (wrQ_changesOnlyRegs _ _ _ _).widen fun x hlo _ => ?_) s
    simp only [isTraceReg, Reg.pmc, decide_eq_true_eq] at hlo ⊢
    omega
  · exact .of_regs rfl

theorem ringPut_isTraceReg (s : State) (p : BitVec 128) : ChangesOnlyRegs isTraceReg s (ringPut s p) :=
  ChangesOnlyRegs.trans (t := s.inc Reg.traceWr) (wr_changesOnlyRegs (by decide)) (.trans (.of_regs (by rfl)) (putB_changesOnlyRegs (by decide)))

theorem countLost_isTraceReg (src : Nat) (s : State) : ChangesOnlyRegs isTraceReg s (countLost src s) := by
  have h : ChangesOnlyRegs isTraceReg s ((s.sat Reg.traceDrops).putB Reg.traceStatus 1 true) :=
    (wr_changesOnlyRegs (by decide)).trans (putB_changesOnlyRegs (by decide))
  unfold countLost
  dsimp only
  split
  · exact h.trans (pmcCount_isTraceReg _ _ _ _)
  · exact h

theorem lostPacket_isTraceReg (src : Nat) (s : State) : ChangesOnlyRegs isTraceReg s (lostPacket src s) := by
  unfold lostPacket
  dsimp only
  split
  · exact .of_regs rfl
  · exact (ringPut_isTraceReg s _).trans (.of_regs (by rfl))

theorem ringWrite_isTraceReg (src : Nat) (p : BitVec 128) (s : State) : ChangesOnlyRegs isTraceReg s (ringWrite src p s) := by
  refine (lostPacket_isTraceReg src s).trans ?_
  unfold ringWrite
  dsimp only
  split
  · exact ChangesOnlyRegs.trans (.of_regs (by rfl)) (countLost_isTraceReg _ _)
  · exact ringPut_isTraceReg _ _

theorem traceTime_isTraceReg (s : State) : ChangesOnlyRegs isTraceReg s (traceTime s) := by
  unfold traceTime traceSys
  split
  · exact (lostPacket_isTraceReg _ _).trans ((ChangesOnlyRegs.of_regs (by rfl)).trans (ringWrite_isTraceReg _ _ _))
  · exact .of_regs rfl

/-- A second has been traced, and waits no more. -/
def secondTraced (s : State) : State := traceTime { s with pos := { s.pos with secDue := false } }

section
variable {s : State}

theorem secondTraced_pos (s : State) : (secondTraced s).pos = { s.pos with secDue := false } := traceTime_within.pos rfl
theorem secondTraced_pins (s : State) : (secondTraced s).pins = s.pins := traceTime_within.pins rfl

theorem secondTraced_bit (w : RegsOk s) (i : Nat) : (secondTraced s).bit Reg.timeCtrl i = s.bit Reg.timeCtrl i :=
  (traceTime_isTraceReg { s with pos := { s.pos with secDue := false } }).bit w (by decide) i

theorem execTimeBaseSecond_due (w : RegsOk s) (ht : s.tclk = true) (h : s.pos.secDue = true) :
    execTimeBaseSecond s = .next (if s.bit Reg.timeCtrl 5 && !s.pos.ppsPulse then
      { secondTraced s with pos := { (secondTraced s).pos with ppsPulse := true }, pins := { (secondTraced s).pins with ppsOut := true } }
      else secondTraced s) := by
  have hpulse : (secondTraced s).pos.ppsPulse = s.pos.ppsPulse := by rw [secondTraced_pos]
  rw [← secondTraced_bit w, ← hpulse]
  exact onlyIf_of_true (by simp [ht, h])

/-- R79: a second raises PPS_OUT. -/
theorem second_raises_pulse (hk : s.Kept) (ws : s.wf = true) (ht : s.tclk = true) (h : s.pos.secDue = true)
    (hen : s.bit Reg.timeCtrl 5 = true) (hp : s.pos.ppsPulse = false) :
    ∃ t, exec .timeBaseSecond s = .next t ∧ t.pins.ppsOut = true ∧ t.pos.ppsPulse = true ∧ t.pos.secDue = false := by
  refine ⟨_, inContract_within hk execTimeBaseSecond_within (by decide)
    ((execTimeBaseSecond_due (State.wf_regs ws) ht h).trans (congrArg _ (if_pos (by simp [hen, hp])))), rfl, rfl, ?_⟩
  rw [secondTraced_pos]

theorem second_keeps_pulse (hk : s.Kept) (ws : s.wf = true) (ht : s.tclk = true) (h : s.pos.secDue = true)
    (hp : s.bit Reg.timeCtrl 5 = false ∨ s.pos.ppsPulse = true) :
    ∃ t, exec .timeBaseSecond s = .next t ∧ t.pins = s.pins ∧ t.pos.secDue = false := by
  refine ⟨_, inContract_within hk execTimeBaseSecond_within (by decide)
    ((execTimeBaseSecond_due (State.wf_regs ws) ht h).trans (congrArg _ (if_neg (by simpa [or_iff_not_imp_left] using hp)))),
    secondTraced_pins s, ?_⟩
  rw [secondTraced_pos]

/-- The registers once an edge of PPS_IN has been stamped and counted. -/
def ppsStamped (quarter : Nat) (s : State) : State :=
  ((s.wrQ Reg.timePpsStamp 4 (stampAt s (edgeInstant s quarter 0)).toNat).inc Reg.timePpsCount).putB Reg.timeStatus 3 true

theorem ppsStamped_regs (w : RegsOk s) (quarter : Nat) :
    (ppsStamped quarter s).rdQ Reg.timePpsStamp 4 = (stampAt s (edgeInstant s quarter 0)).toNat ∧
    (ppsStamped quarter s).rd Reg.timePpsCount = s.rd Reg.timePpsCount + 1 ∧ (ppsStamped quarter s).bit Reg.timeStatus 3 = true := by
  have w1 : RegsOk (s.wrQ Reg.timePpsStamp 4 (stampAt s (edgeInstant s quarter 0)).toNat) := regsOk_wrQ w
  have w2 : RegsOk ((s.wrQ Reg.timePpsStamp 4 (stampAt s (edgeInstant s quarter 0)).toNat).inc Reg.timePpsCount) := regsOk_wr w1
  refine ⟨?_, ?_, State.bit_putB_same w2 (by decide)⟩
  · have hkeep : (ppsStamped quarter s).rdQ Reg.timePpsStamp 4 =
        (s.wrQ Reg.timePpsStamp 4 (stampAt s (edgeInstant s quarter 0)).toNat).rdQ Reg.timePpsStamp 4 := by
      refine State.rdQ_of_rd fun x hlo hhi => ?_
      simp only [Reg.timePpsStamp] at hlo hhi
      exact (State.rd_putB_ne w2 (by simp only [Reg.timeStatus]; omega)).trans (State.rd_wr_ne w1 (by simp only [Reg.timePpsCount]; omega))
    rw [hkeep, State.rdQ_wrQ_same w]
    exact Nat.mod_eq_of_lt (stampAt s (edgeInstant s quarter 0)).isLt
  · rw [ppsStamped, State.rd_putB_ne w2 (by decide), State.inc, State.rd_wr_same w1, State.rd_wrQ_ne w (by decide)]

/-- R78: an edge of the selected kind is stamped and counted. -/
theorem pps_edge_stamped (hk : s.Kept) (ws : s.wf = true) (ht : s.tclk = true) (rising : Bool) (quarter : Fin 4)
    (h : rising = !s.bit Reg.timeCtrl 6) :
    ∃ t, exec (.ppsInEdge rising quarter) s = .next t ∧ t.rdQ Reg.timePpsStamp 4 = (stampAt s (edgeInstant s quarter 0)).toNat ∧
      t.rd Reg.timePpsCount = s.rd Reg.timePpsCount + 1 ∧ t.bit Reg.timeStatus 3 = true ∧ t.pos.ppsSeen = true := by
  obtain ⟨hstamp, hcount, hseen⟩ := ppsStamped_regs (State.wf_regs ws) quarter.val
  have hregs : ({ ppsStamped quarter s with pos := { s.pos with ppsSeen := true } } : State).regs = (ppsStamped quarter s).regs := rfl
  exact ⟨{ ppsStamped quarter s with pos := { s.pos with ppsSeen := true } },
    inContract_within hk execPpsInEdge_within (by decide) (onlyIf_of_true (by simp [ht, h])), (State.rdQ_of_regs hregs _ _).trans hstamp,
    (State.rd_of_regs hregs _).trans hcount, (State.bit_of_rd (State.rd_of_regs hregs _) _).trans hseen, rfl⟩

/-- R78: a lost input is shown. -/
theorem pps_lost (hk : s.Kept) (ws : s.wf = true) (ht : s.tclk = true) (hs : s.pos.ppsSeen = true) (h : s.bit Reg.timeStatus 3 = true) :
    ∃ t, exec .ppsLostTimeout s = .next t ∧ t.bit Reg.timeStatus 2 = true ∧ t.bit Reg.timeStatus 3 = false ∧ t.pos = s.pos := by
  have w := State.wf_regs ws
  refine ⟨_, inContract_within hk execPpsLostTimeout_within (by decide) (onlyIf_of_true (by simp [ht, hs, h])), ?_,
    State.bit_putB_same (regsOk_putB w) (by decide), rfl⟩
  rw [State.bit_putB_ne (regsOk_putB w) (by decide), State.bit_putB_same w (by decide)]

end

/-- Settles O20: the snapshot, the output pulse, and the edges and the loss of the input. -/
theorem snapsAndPulses : Obligations.SnapsAndPulses := by
  refine ⟨fun s hk ws ht h => time_snapshot hk ws ht h, fun s hk ws ht => ⟨second_raises_pulse hk ws ht, second_keeps_pulse hk ws ht,
    fun h => ?_, pps_edge_stamped hk ws ht, fun rising quarter h => ?_, pps_lost hk ws ht⟩⟩
  · exact ⟨_, inContract_within hk execPpsOutPulseEnd_within (by decide) (onlyIf_of_true (by simp [ht, h])), rfl, rfl, rfl⟩
  · exact inContract_kept hk hk (if_neg (by simp [h]))

end Sys2Proof.Machine
end

section
/-! SUPPORT. The commands of the position counters (R89 to R97): what a counter shows after them, and the registers that a reference
load and its events leave. -/

namespace Sys2Proof.Machine

/-! ### What events and grids write stands above the counters (R97, R100, R101, R135, R140) -/

/-- The registers above those of the edge inputs and the counters. -/
def abovePicks (x : Nat) : Bool := decide (0x21000 ≤ x)

theorem abovePicks_event (v : Nat) : abovePicks (Reg.posEvStatus v) = true ∧ abovePicks (Reg.posEvFires v) = true ∧
    abovePicks (Reg.posEvSkips v) = true := by
  simp only [abovePicks, Reg.posEvStatus, Reg.posEvFires, Reg.posEvSkips, decide_eq_true_eq]
  omega

theorem abovePicks_counter {n x : Nat} (hn : n < 4) (h : x < Reg.posPkCfg n + 0x80) : abovePicks x = false := by
  simp only [Reg.posPkCfg, abovePicks, decide_eq_false_iff_not] at h ⊢
  omega

section
variable (s : State)

theorem noteChange_changesOnlyRegs (n : Nat) (t : TStamp) (d : Option (BitVec 48)) :
    ChangesOnlyRegs (· == Reg.chainPickCoalesced) s (noteChange n t d s) := by
  unfold noteChange
  dsimp only
  split
  · split
    · exact (wr_changesOnlyRegs (a := Reg.chainPickCoalesced) (by simp)).trans (.of_regs (by rfl))
    · exact .of_regs rfl
  · exact .of_regs rfl

theorem noteChange_abovePicks (n : Nat) (t : TStamp) (d : Option (BitVec 48)) : ChangesOnlyRegs abovePicks s (noteChange n t d s) :=
  (noteChange_changesOnlyRegs s n t d).mono fun x hx => by
    simp only [abovePicks, decide_eq_false_iff_not, beq_eq_false_iff_ne, Reg.chainPickCoalesced] at hx ⊢
    omega

/-- A change of a counter besides its registers, noted for the chain. -/
theorem noteChange_setPick_abovePicks (n : Nat) (x : Pick) (t : TStamp) (d : Option (BitVec 48)) :
    ChangesOnlyRegs abovePicks s (noteChange n t d (setPick s n x)) :=
  ChangesOnlyRegs.trans (t := setPick s n x) (.of_regs rfl) (noteChange_abovePicks _ n t d)

theorem putEngine_regs (a : Nat) (bs : List Byte) : (putEngine a bs s).regs = s.regs := putEngine_within.regs (by decide)

theorem setGrid_abovePicks (g : Nat) (x : Grid) : ChangesOnlyRegs abovePicks s (setGrid g x s) :=
  ChangesOnlyRegs.trans (t := putGrid s g x) (.of_regs rfl) ((gridSync_changesOnlyRegs _ g).mono fun y hy =>
    isGridShown_below (by simp only [abovePicks, decide_eq_false_iff_not] at hy; omega))

theorem gridOpen_abovePicks (g b : Nat) (stall : Bool) (t : TStamp) : ChangesOnlyRegs abovePicks s (gridOpen g b stall t s) :=
  (gridOpen_changesOnlyRegs s g b stall t).mono fun y hy =>
    isGridShown_below (by simp only [abovePicks, decide_eq_false_iff_not] at hy; omega)

theorem gridFlip_abovePicks (g : Nat) (t : TStamp) : ChangesOnlyRegs abovePicks s (gridFlip g t s) := by
  unfold gridFlip
  split
  · exact .of_regs rfl
  · split
    · exact .of_regs rfl
    · split
      · exact .of_regs rfl
      · have hclose (x : Grid) (b : Nat) (bs : List Byte) (y : Grid) :
            ChangesOnlyRegs abovePicks s (setGrid g y (putEngine (x.addr b + 0x20) bs s)) :=
          ChangesOnlyRegs.trans (.of_regs (putEngine_regs s _ _)) (setGrid_abovePicks _ g y)
        dsimp only
        split
        · exact (hclose _ _ _ _).trans (gridOpen_abovePicks _ _ _ _ _)
        · exact hclose _ _ _ _

theorem gridsFlip_abovePicks (d : Nat) (t : TStamp) : ChangesOnlyRegs abovePicks s (gridsFlip d t s) := by
  refine foldl_changesOnlyRegs (fun e _ s => ?_) s
  split
  · exact gridFlip_abovePicks s _ _
  · exact .of_regs rfl

theorem gridRefLoad_abovePicks (n : Nat) : ChangesOnlyRegs abovePicks s (gridRefLoad n s) := by
  refine foldl_changesOnlyRegs (fun e _ s => ?_) s
  split
  · split
    · exact .of_regs rfl
    · split
      · exact .of_regs rfl
      · exact ChangesOnlyRegs.trans (.of_regs (headerCounts_within.regs (by decide))) (setGrid_abovePicks _ _ _)
  · exact .of_regs rfl

theorem trigSync_regs (v : Nat) : (trigSync v s).regs = s.regs := trigSync_within.regs rfl
theorem setEvent_regs (v : Nat) (x : Event) : (setEvent s v x).regs = s.regs := rfl

theorem evSkips_abovePicks (v k : Nat) : ChangesOnlyRegs abovePicks s (evSkips v k s) := by
  obtain ⟨hstatus, -, hskips⟩ := abovePicks_event v
  unfold evSkips
  split
  · exact .of_regs rfl
  · exact ((wr_changesOnlyRegs hskips).trans (putB_changesOnlyRegs hstatus)).trans (.of_regs (by rfl))

/-- A firing is counted, and shown as late if it is. -/
theorem evFired_abovePicks (v : Nat) (late : Bool) :
    ChangesOnlyRegs abovePicks s ((s.inc (Reg.posEvFires v)).putB (Reg.posEvStatus v) 1 late) := by
  obtain ⟨hstatus, hfires, -⟩ := abovePicks_event v
  exact (wr_changesOnlyRegs hfires).trans (putB_changesOnlyRegs hstatus)

theorem evFire_abovePicks (v : Nat) (late : Bool) (t : TStamp) : ChangesOnlyRegs abovePicks s (evFire v late t s) := by
  obtain ⟨hstatus, -, -⟩ := abovePicks_event v
  unfold evFire
  dsimp only
  split
  · refine ((evFired_abovePicks s v (late || s.bit (Reg.posEvStatus v) 1)).trans ?_).trans
      (.of_regs ((trigSync_regs _ v).trans (setEvent_regs _ v _)))
    exact .ite (putB_changesOnlyRegs hstatus) (.of_regs rfl)
  · refine .ite (evSkips_abovePicks s v 1) (ChangesOnlyRegs.trans ?_ (gridsFlip_abovePicks _ _ t))
    refine (evFired_abovePicks s v (late || s.bit (Reg.posEvStatus v) 1)).trans ?_
    exact .ite (putB_changesOnlyRegs hstatus) (.of_regs rfl)

theorem evDisarm_abovePicks (v : Nat) : ChangesOnlyRegs abovePicks s (evDisarm v s) :=
  (putB_changesOnlyRegs (abovePicks_event v).1).trans (.of_regs (setEvent_regs _ v _))

theorem actPast_abovePicks (v k : Nat) : ChangesOnlyRegs abovePicks s (actPast v k s) := by
  have hfire (u : State) (c : Bool) : ChangesOnlyRegs abovePicks u (if c then evFire v true (nowStamp u) u else u) :=
    .ite (evFire_abovePicks u v true _) (.of_regs rfl)
  unfold actPast
  dsimp only
  split
  · exact .of_regs rfl
  · split
    · exact ((evSkips_abovePicks s v _).trans (hfire _ _)).trans (.of_regs (setEvent_regs _ v _))
    · exact ((evSkips_abovePicks s v _).trans (hfire _ _)).trans (evDisarm_abovePicks _ v)

theorem judgePick_abovePicks (v : Nat) : ChangesOnlyRegs abovePicks s (judgePick v s) := by
  unfold judgePick
  dsimp only
  split_ifs
  · exact .of_regs rfl
  · exact actPast_abovePicks s v _
  · exact actPast_abovePicks s v _
  · exact .of_regs rfl

theorem evsLoaded_abovePicks (n : Nat) (d : Int) : ChangesOnlyRegs abovePicks s (evsLoaded n d s) := by
  refine foldl_changesOnlyRegs (fun v _ s => ?_) s
  refine .ite (.of_regs rfl) ?_
  extract_lets x u
  refine ChangesOnlyRegs.trans (t := u) (.ite (.of_regs rfl) (.of_regs rfl)) ?_
  exact .ite (.of_regs (setEvent_regs _ v _)) (.ite (.of_regs rfl) (judgePick_abovePicks _ v))

end

/-! ### The count and the reference (R92, R94, R95) -/

/-- A count written sign-extended reads as the 48 bits it has. -/
theorem wrapN_signed48 (v : Nat) : wrapN 64 (signed48 v) % 2 ^ 48 = v % 2 ^ 48 := by
  have hlt : v % 2 ^ 48 < 2 ^ 48 := Nat.mod_lt _ (by decide)
  unfold wrapN signed48 signedN
  generalize v % 2 ^ 48 = c at hlt
  split <;> omega

section
variable {s : State} {n : Nat}

theorem pkCount_setPkCount (w : RegsOk s) (v : Nat) : pkCount (setPkCount s n v) n = v % 2 ^ 48 := by
  rw [pkCount, setPkCount, State.rdQ_wrQ_same w, Nat.mod_mod_of_dvd _ (by decide), wrapN_signed48]

theorem setPkCount_changesOnlyRegs (v : Nat) :
    ChangesOnlyRegs (regsIn (Reg.posPkCount n) (Reg.posPkCount n + 8)) s (setPkCount s n v) := wrQ_changesOnlyRegs _ _ _ _

theorem regsOk_setPkCount (w : RegsOk s) (v : Nat) : RegsOk (setPkCount s n v) := regsOk_wrQ w

theorem pkCount_of_rd {t : State} (h : ∀ x, Reg.posPkCount n ≤ x → x < Reg.posPkCount n + 8 → t.rd x = s.rd x) :
    pkCount t n = pkCount s n := by
  rw [pkCount, pkCount, State.rdQ_of_rd h]

/-- A change of other registers keeps the count. -/
theorem ChangesOnlyRegs.pkCount {p : Nat → Bool} {t : State} (h : ChangesOnlyRegs p s t) (w : RegsOk s)
    (hp : ∀ x, Reg.posPkCount n ≤ x → x < Reg.posPkCount n + 8 → p x = false) : pkCount t n = pkCount s n :=
  pkCount_of_rd fun x hlo hhi => (h w).2 x (hp x hlo hhi)

theorem pkCount_putF_status (w : RegsOk s) {lo k v : Nat} : pkCount (s.putF (Reg.posPkStatus n) lo k v) n = pkCount s n :=
  pkCount_of_rd fun x hlo _ => State.rd_putF_ne w (by simp only [Reg.posPkCount, Reg.posPkStatus] at hlo ⊢; omega)

theorem setArmed_bits (w : RegsOk s) (b : Bool) :
    (setArmed n b s).bit (Reg.posPkRefCtrl n) 1 = b ∧ (setArmed n b s).bit (Reg.posPkStatus n) 3 = b := by
  have w1 : RegsOk (s.putB (Reg.posPkRefCtrl n) 1 b) := regsOk_putB w
  refine ⟨?_, State.bit_putB_same w1 (by decide)⟩
  rw [setArmed, State.bit_of_rd (State.rd_putB_ne w1 (by simp [Reg.posPkRefCtrl, Reg.posPkStatus])), State.bit_putB_same w (by decide)]

theorem refRecord_changesOnlyRegs (t : TStamp) :
    ChangesOnlyRegs (regsIn (Reg.posPkRefDelta n) (Reg.posPkLastT0 n)) s (refRecord n t s) := by
  refine ChangesOnlyRegs.trans ((wrQ_changesOnlyRegs _ _ _ _).widen fun x hlo hhi => ?_)
    ((wrQ_changesOnlyRegs _ _ _ _).widen fun x hlo hhi => ?_)
  all_goals
    refine regsIn_iff.mpr ?_
    simp only [Reg.posPkRefDelta, Reg.posPkRefT, Reg.posPkLastT0] at hlo hhi ⊢
    omega

/-- R95: a record of a reference holds the distance of the count from ref, and its stamp. -/
theorem refRecord_regs (w : RegsOk s) (t : TStamp) :
    (refRecord n t s).rdQ (Reg.posPkRefDelta n) 2 = (pkCount s n + 2 ^ 48 - pkRef s n) % 2 ^ 48 ∧
    (refRecord n t s).rdQ (Reg.posPkRefT n) 4 = t.toNat ∧ pkCount (refRecord n t s) n = pkCount s n ∧
    pkRef (refRecord n t s) n = pkRef s n := by
  have w1 : RegsOk (s.wrQ (Reg.posPkRefDelta n) 2 ((pkCount s n + 2 ^ 48 - pkRef s n) % 2 ^ 48)) := regsOk_wrQ w
  have hkeep := refRecord_changesOnlyRegs (s := s) (n := n) t
  refine ⟨?_, ?_, hkeep.pkCount w fun x hlo hhi => regsIn_false ?_, congrArg (· % 2 ^ 48) (hkeep.rdQ w fun x hlo hhi => regsIn_false ?_)⟩
  · rw [refRecord, State.rdQ_wrQ_ne w1 (by simp only [Reg.posPkRefDelta, Reg.posPkRefT]; omega), State.rdQ_wrQ_same w]
    exact Nat.mod_eq_of_lt ((Nat.mod_lt _ (by decide)).trans (by decide))
  · rw [refRecord, State.rdQ_wrQ_same w1]
    exact Nat.mod_eq_of_lt t.isLt
  · simp only [Reg.posPkCount, Reg.posPkRefDelta] at hhi ⊢
    omega
  · simp only [Reg.posPkRef, Reg.posPkRefDelta] at hhi ⊢
    omega

/-- The registers of a counter that has taken ref (R94). -/
def refTaken (n : Nat) (s : State) : State := (setPkCount s n (pkRef s n)).putB (Reg.posPkStatus n) 2 false

/-- A reference load writes the counter, and then what events and grids write. -/
theorem refLoad_abovePicks (s : State) (n : Nat) : ChangesOnlyRegs abovePicks (refTaken n s) (refLoad n s) := by
  refine ChangesOnlyRegs.trans ?_ (gridRefLoad_abovePicks _ n)
  refine ChangesOnlyRegs.trans ?_ (evsLoaded_abovePicks _ n _)
  exact noteChange_setPick_abovePicks (refTaken n s) n _ _ _

theorem refTaken_changesOnlyRegs (s : State) (n : Nat) :
    ChangesOnlyRegs (regsIn (Reg.posPkStatus n) (Reg.posPkRef n)) s (refTaken n s) := by
  refine ((setPkCount_changesOnlyRegs _).widen fun x hlo hhi => regsIn_iff.mpr ?_).trans (putB_changesOnlyRegs (regsIn_iff.mpr ?_))
  all_goals
    simp only [Reg.posPkStatus, Reg.posPkCount, Reg.posPkRef] at *
    omega

/-- R94: a loaded counter counts from ref, and is referenced. -/
theorem refLoad_regs (hn : n < 4) (w : RegsOk s) : pkCount (refLoad n s) n = pkRef s n ∧ (refLoad n s).bit (Reg.posPkStatus n) 2 = false := by
  have w1 : RegsOk (setPkCount s n (pkRef s n)) := regsOk_setPkCount w _
  have w2 : RegsOk (refTaken n s) := regsOk_putB w1
  have hkeep := refLoad_abovePicks s n
  refine ⟨?_, ?_⟩
  · rw [hkeep.pkCount w2 fun x _ hhi => abovePicks_counter hn (by simp only [Reg.posPkCount, Reg.posPkCfg] at hhi ⊢; omega), refTaken,
      State.putB, pkCount_putF_status w1, pkCount_setPkCount w]
    exact Nat.mod_mod ..
  · rw [hkeep.bit w2 (abovePicks_counter hn (by simp only [Reg.posPkStatus, Reg.posPkCfg]; omega)), refTaken,
      State.bit_putB_same w1 (by decide)]

/-- A reference load leaves the record of a reference. -/
theorem refLoad_rdQ_record (hn : n < 4) (w : RegsOk s) {a k : Nat} (hlo : Reg.posPkRef n ≤ a) (hhi : a + 4 * k ≤ Reg.posPkCfg n + 0x80) :
    (refLoad n s).rdQ a k = s.rdQ a k := by
  rw [(refLoad_abovePicks s n).rdQ ((refTaken_changesOnlyRegs s n).regsOk w) fun x _ hx => abovePicks_counter hn (by omega)]
  exact (refTaken_changesOnlyRegs s n).rdQ w fun x hx _ => regsIn_false (by omega)

end

/-! ### The commands -/

section
variable {s : State} {n : Fin 4}

/-- R93: on a counter that follows the chain the commands of references do nothing. -/
theorem counter_follows_chain (hk : s.Kept) (ht : hostTakes .held s = true) (hc : pkChain s n = true) :
    exec (.loadNow n) s = .next s ∧ exec (.refArm n) s = .next s ∧ exec (.refDisarm n) s = .next s := by
  refine ⟨inContract_kept hk hk ?_, inContract_kept hk hk ?_, inContract_kept hk hk ?_⟩
  · rw [execLoadNow, hostWrite_of_takes ht, if_pos hc]
  · rw [execRefArm, hostWrite_of_takes ht, if_pos hc]
  · rw [execRefDisarm, hostWrite_of_takes ht, if_pos hc]

theorem counter_arms (hk : s.Kept) (ws : s.wf = true) (ht : hostTakes .held s = true) (hc : pkChain s n = false) :
    ∃ t, exec (.refArm n) s = .next t ∧ t.bit (Reg.posPkRefCtrl n) 1 = true ∧ t.bit (Reg.posPkStatus n) 3 = true ∧ t.pos = s.pos := by
  obtain ⟨harmed, hshown⟩ := setArmed_bits (n := n) (State.wf_regs ws) true
  refine ⟨_, inContract_within hk execRefArm_within (by decide) ?_, harmed, hshown, rfl⟩
  rw [execRefArm, hostWrite_of_takes ht, if_neg (by simp [hc])]

theorem counter_disarms (hk : s.Kept) (ws : s.wf = true) (ht : hostTakes .held s = true) (hc : pkChain s n = false) :
    ∃ t, exec (.refDisarm n) s = .next t ∧ t.bit (Reg.posPkRefCtrl n) 1 = false ∧ t.bit (Reg.posPkStatus n) 3 = false ∧
      t.pos = s.pos := by
  obtain ⟨harmed, hshown⟩ := setArmed_bits (n := n) (State.wf_regs ws) false
  refine ⟨_, inContract_within hk execRefDisarm_within (by decide) ?_, harmed, hshown, rfl⟩
  rw [execRefDisarm, hostWrite_of_takes ht, if_neg (by simp [hc])]

/-- R94: LOAD_NOW records the reference and loads ref. -/
theorem counter_loads (hk : s.Kept) (ws : s.wf = true) (ht : hostTakes .held s = true) (hc : pkChain s n = false) :
    ∃ t, exec (.loadNow n) s = .next t.settle ∧ t = refLoad n (refRecord n (nowStamp s) s) ∧ pkCount t n = pkRef s n ∧
      t.bit (Reg.posPkStatus n) 2 = false ∧ t.rdQ (Reg.posPkRefDelta n) 2 = (pkCount s n + 2 ^ 48 - pkRef s n) % 2 ^ 48 ∧
      t.rdQ (Reg.posPkRefT n) 4 = (nowStamp s).toNat := by
  have w := State.wf_regs ws
  have w1 : RegsOk (refRecord n (nowStamp s) s) := (refRecord_changesOnlyRegs _).regsOk w
  obtain ⟨hdelta, hstamp, -, href⟩ := refRecord_regs (n := n) w (nowStamp s)
  obtain ⟨hcount, hbit⟩ := refLoad_regs n.isLt w1
  refine ⟨_, inContract_next hk ?_, rfl, hcount.trans href, hbit, ?_, ?_⟩
  · rw [execLoadNow, hostWrite_of_takes ht, if_neg (by simp [hc])]
  · refine (refLoad_rdQ_record n.isLt w1 ?_ ?_).trans hdelta <;> simp only [Reg.posPkRef, Reg.posPkRefDelta, Reg.posPkCfg] <;> omega
  · refine (refLoad_rdQ_record n.isLt w1 ?_ ?_).trans hstamp <;> simp only [Reg.posPkRef, Reg.posPkRefT, Reg.posPkCfg] <;> omega

theorem execPosPkCfgWrite_put (ht : hostTakes .held s = true) {v : W32} (hv : v &&& 0xFF00F000#32 = 0) :
    execPosPkCfgWrite n v s = .next (pkCfgPut n v s) := by
  rw [execPosPkCfgWrite, hostWrite_of_takes ht]
  exact if_neg (not_not.mpr hv)

/-- R89: a change between running modes is refused. -/
theorem pkCfgPut_refused {n : Nat} {v : W32} (h0 : pkMode s n ≠ 0) (h1 : fieldN v.toNat 0 3 ≠ 0) (h : pkMode s n ≠ fieldN v.toNat 0 3) :
    pkCfgPut n v s = s.putB (Reg.posPkStatus n) 6 true := if_pos ⟨h0, h1, h⟩

/-- The registers of a counter that starts with the configuration `v` (R91). -/
def pkStarted (n : Nat) (v : W32) (s : State) : State :=
  (setPkCount (s.wr (Reg.posPkCfg n) v) n 0).putF (Reg.posPkStatus n) 0 3 4

theorem pkCfgPut_start {n : Nat} {v : W32} (h0 : pkMode s n = 0) (h1 : offMode s (fieldN v.toNat 0 3) = false) :
    pkCfgPut n v s = noteChange n (nowStamp (pkStarted n v s)) none
      (setPick (pkStarted n v s) n { pickOf (pkStarted n v s) n with changes := 0, sched := [] }) := by
  have hwr : offMode (s.wr (Reg.posPkCfg n) v) (fieldN v.toNat 0 3) = false := h1
  have hmode : ¬(fieldN v.toNat 0 3 = 6 ∨ fieldN v.toNat 0 3 = 7) := by
    rintro (h | h) <;> simp [offMode, h] at h1
  unfold pkCfgPut
  dsimp only
  rw [if_neg (fun h => h.1 h0), if_neg hmode, if_pos ⟨h0, by rw [hwr]; rfl⟩]
  rfl

theorem pkStarted_regs {n : Nat} (w : RegsOk s) (v : W32) :
    RegsOk (pkStarted n v s) ∧ (pkStarted n v s).rd (Reg.posPkCfg n) = v ∧ pkCount (pkStarted n v s) n = 0 ∧
    (pkStarted n v s).fld (Reg.posPkStatus n) 0 3 = 4 := by
  have w1 : RegsOk (s.wr (Reg.posPkCfg n) v) := regsOk_wr w
  have w2 : RegsOk (setPkCount (s.wr (Reg.posPkCfg n) v) n 0) := regsOk_setPkCount w1 0
  refine ⟨regsOk_putF w2, ?_, ?_, State.fld_putF_same w2 (by decide)⟩
  · rw [pkStarted, State.rd_putF_ne w2 (by simp [Reg.posPkCfg, Reg.posPkStatus]), setPkCount,
      State.rd_wrQ_ne w1 (.inl (by simp only [Reg.posPkCfg, Reg.posPkCount]; omega)), State.rd_wr_same w]
  · rw [pkStarted, pkCount_putF_status w2, pkCount_setPkCount w1, Nat.zero_mod]

/-- R91: a counter that leaves OFF counts from 0, unreferenced. -/
theorem counter_starts (hk : s.Kept) (ws : s.wf = true) (ht : hostTakes .held s = true) {v : W32} (hv : v &&& 0xFF00F000#32 = 0)
    (h0 : pkMode s n = 0) (h1 : offMode s (fieldN v.toNat 0 3) = false) :
    ∃ t, exec (.posPkCfgWrite n v) s = .next t ∧ t.rd (Reg.posPkCfg n) = v ∧ pkCount t n = 0 ∧ t.fld (Reg.posPkStatus n) 0 3 = 4 := by
  obtain ⟨w1, hcfg, hcount, hstatus⟩ := pkStarted_regs (n := n) (State.wf_regs ws) v
  have hkeep : ChangesOnlyRegs abovePicks (pkStarted n v s) (pkCfgPut n v s) := by
    rw [pkCfgPut_start h0 h1]
    exact noteChange_setPick_abovePicks _ n _ _ _
  have hn := n.isLt
  refine ⟨_, inContract_within hk execPosPkCfgWrite_within (by decide) (execPosPkCfgWrite_put ht hv), ?_, ?_, ?_⟩
  · rw [(hkeep w1).2 _ (abovePicks_counter hn (by simp)), hcfg]
  · rw [hkeep.pkCount w1 fun x _ hhi => abovePicks_counter hn (by simp only [Reg.posPkCount, Reg.posPkCfg] at hhi ⊢; omega), hcount]
  · rw [hkeep.fld w1 (abovePicks_counter hn (by simp only [Reg.posPkStatus, Reg.posPkCfg]; omega)), hstatus]

/-- R92: a counter that has not moved for its time shows that it stands still. -/
theorem counter_still (hk : s.Kept) (ws : s.wf = true) (ht : s.tclk = true) (hcfg : s.fld (Reg.posPkCfg n) 16 8 ≠ 0)
    (hc : pkChain s n = false) :
    ∃ t, exec (.pickStillTimeout n) s = .next t ∧ t.fld (Reg.posPkStatus n) 0 2 = 0 ∧ pkCount t n = pkCount s n := by
  have w := State.wf_regs ws
  have hn := n.isLt
  refine ⟨_, inContract_within hk execPickStillTimeout_within (by decide) (onlyIf_of_true (by simp [ht, hcfg, hc])), ?_⟩
  split
  · next h => exact ⟨h, rfl⟩
  · have w1 : RegsOk (s.putF (Reg.posPkStatus n) 0 2 0) := regsOk_putF w
    have hkeep := noteChange_abovePicks (s.putF (Reg.posPkStatus n) 0 2 0) n (nowStamp s) none
    refine ⟨?_, ?_⟩
    · rw [hkeep.fld w1 (abovePicks_counter hn (by simp only [Reg.posPkStatus, Reg.posPkCfg]; omega)), State.fld_putF_same w (by decide), Nat.zero_mod]
    · rw [hkeep.pkCount w1 fun x _ hhi => abovePicks_counter hn (by simp only [Reg.posPkCount, Reg.posPkCfg] at hhi ⊢; omega),
        pkCount_putF_status w]

end

/-- Settles O22: references, loads, changes of mode, the timeout of a counter that stands still, and the removal of a stamp. -/
theorem counterCommands : Obligations.CounterCommands := by
  refine fun s n hk ws ht => ⟨counter_follows_chain hk ht, fun hc => ⟨counter_arms hk ws ht hc, counter_disarms hk ws ht hc,
    counter_loads hk ws ht hc⟩, fun v hv h0 h1 h => ?_, fun v hv h0 h1 => counter_starts hk ws ht hv h0 h1,
    fun htc hcfg hc => counter_still hk ws htc hcfg hc, fun e => ?_⟩
  · refine inContract_within hk execPosPkCfgWrite_within (by decide) ?_
    rw [execPosPkCfgWrite_put ht hv, pkCfgPut_refused h0 h1 h]
  · exact inContract_within hk execPosEdgePop_within (by decide) (hostWrite_of_takes ht)

end Sys2Proof.Machine
end

section
/-! SUPPORT. Scheduled events (R98 to R107): how they are armed, fire and are disarmed, and how a position doorbell writes its element. -/

namespace Sys2Proof.Machine

/-! ### Events and their registers -/

/-- An event that is not idle reads as it was written. -/
theorem eventOf_setEvent {s : State} {v : Nat} {x : Event} (h : x ≠ Event.idle) : eventOf (setEvent s v x) v = x :=
  Tab.get_set_listed h _

section
variable {s : State} {v : Nat}

/-- The target that an event is armed with (R72, R100). -/
def evTarget (v : Nat) (s : State) : Int :=
  if evPick s v then signed48 (s.rdQ (Reg.posEvTarget v) 2)
  else (stamp16 (BitVec.ofNat 128 (s.rdQ (Reg.posEvTarget v) 4)) : Int) * 2 ^ 16

/-- An event just armed, its counters at 0 and its target not judged yet. -/
def evAccepted (v : Nat) (s : State) : State :=
  let u := ((s.putB (Reg.posEvStatus v) 0 true).wr (Reg.posEvFires v) 0).wr (Reg.posEvSkips v) 0
  setEvent u v { eventOf u v with target := evTarget v s, due := [], changes := 0 }

theorem evArm_armed (h : evArmed s v = true) : evArm v s = s := if_pos h

theorem evArm_refused (h : evArmed s v = false) (hr : armRefused s v = true) : evArm v s = s.putB (Reg.posEvStatus v) 5 true := by
  rw [evArm, if_neg (by simp [h]), if_pos hr]

theorem evArm_accepted (h : evArmed s v = false) (hr : armRefused s v = false) :
    evArm v s = if evPick (evAccepted v s) v then judgePick v (evAccepted v s)
      else judgeTime ((now32 (evAccepted v s) : Int) + 16 * 2 ^ 32 - 1) v (evAccepted v s) := by
  rw [evArm, if_neg (by simp [h]), if_neg (by simp [hr])]
  rfl

theorem evAccepted_regs (w : RegsOk s) :
    evArmed (evAccepted v s) v = true ∧ (evAccepted v s).rd (Reg.posEvFires v) = 0 ∧ (evAccepted v s).rd (Reg.posEvSkips v) = 0 ∧
    (evAccepted v s).rd (Reg.posEvCfg v) = s.rd (Reg.posEvCfg v) := by
  have w1 : RegsOk (s.putB (Reg.posEvStatus v) 0 true) := regsOk_putB w
  have w2 : RegsOk ((s.putB (Reg.posEvStatus v) 0 true).wr (Reg.posEvFires v) 0) := regsOk_wr w1
  have hregs (a : Nat) : (evAccepted v s).rd a =
      (((s.putB (Reg.posEvStatus v) 0 true).wr (Reg.posEvFires v) 0).wr (Reg.posEvSkips v) 0).rd a := rfl
  refine ⟨?_, ?_, ?_, ?_⟩
  · rw [evArmed, State.bit_of_rd (hregs _), State.bit_of_rd (State.rd_wr_ne w2 (by simp [Reg.posEvStatus, Reg.posEvSkips])),
      State.bit_of_rd (State.rd_wr_ne w1 (by simp [Reg.posEvStatus, Reg.posEvFires])), State.bit_putB_same w (by decide)]
  · rw [hregs, State.rd_wr_ne w2 (by simp [Reg.posEvFires, Reg.posEvSkips]), State.rd_wr_same w1]
  · rw [hregs, State.rd_wr_same w2]
  · rw [hregs, State.rd_wr_ne w2 (by simp [Reg.posEvCfg, Reg.posEvSkips]), State.rd_wr_ne w1 (by simp [Reg.posEvCfg, Reg.posEvFires]),
      State.rd_putB_ne w (by simp [Reg.posEvCfg, Reg.posEvStatus])]

/-- The judgement of an EACH_N event does nothing: it has no target. -/
theorem judgePick_each (h : evRepeat s v = 2) : judgePick v s = s := if_pos h

/-- A target after the instant it is judged against is not past (R101). -/
theorem judgeTime_ahead {lim : Int} (h : lim < (eventOf s v).target) : judgeTime lim v s = s := by
  have hcount : pastCount s v lim true = 0 := by
    unfold pastCount
    simp only [if_true]
    exact if_pos (by omega)
  rw [judgeTime, hcount, actPast, if_pos rfl]

theorem event_arms_each (hk : s.Kept) (ws : s.wf = true) {v : Fin 80} (ht : hostTakes .held s = true) (h : evArmed s v = false)
    (hr : armRefused s v = false) (hp : evPick s v = true) (hn : evRepeat s v = 2) :
    ∃ t, exec (.posEvArm v) s = .next t ∧ evArmed t v = true ∧ t.rd (Reg.posEvFires v) = 0 ∧ t.rd (Reg.posEvSkips v) = 0 := by
  obtain ⟨harmed, hfires, hskips, hcfg⟩ := evAccepted_regs (v := v) (State.wf_regs ws)
  have hrepeat : evRepeat (evAccepted v s) v = 2 := (State.fld_of_rd hcfg _ _).trans hn
  have hpick : evPick (evAccepted v s) v = true := (State.bit_of_rd hcfg _).trans hp
  refine ⟨evAccepted v s, inContract_kept hk (by exact hk) ?_, harmed, hfires, hskips⟩
  rw [execPosEvArm, hostWrite_of_takes ht, evArm_accepted h hr, if_pos hpick, judgePick_each hrepeat]

/-- R72, R101: a time event whose target is far enough ahead is armed with it. -/
theorem event_arms_time (hk : s.Kept) (ws : s.wf = true) {v : Fin 80} (ht : hostTakes .held s = true) (h : evArmed s v = false)
    (hr : armRefused s v = false) (hp : evPick s v = false) (hnow : (now32 s : Int) + 16 * 2 ^ 32 ≤ evTarget v s) :
    ∃ t, exec (.posEvArm v) s = .next t ∧ evArmed t v = true ∧ t.rd (Reg.posEvFires v) = 0 ∧ t.rd (Reg.posEvSkips v) = 0 ∧
      (eventOf t v).target = evTarget v s ∧ t.pins = s.pins := by
  obtain ⟨harmed, hfires, hskips, hcfg⟩ := evAccepted_regs (v := v) (State.wf_regs ws)
  have hpick : evPick (evAccepted v s) v = false := (State.bit_of_rd hcfg _).trans hp
  have htarget : (eventOf (evAccepted v s) v).target = evTarget v s :=
    congrArg Event.target (eventOf_setEvent fun e => by
      have hzero : evTarget v s = 0 := congrArg Event.target e
      omega)
  refine ⟨evAccepted v s, inContract_kept hk (by exact hk) ?_, harmed, hfires, hskips, htarget, rfl⟩
  have hahead : (now32 (evAccepted v s) : Int) + 16 * 2 ^ 32 - 1 < (eventOf (evAccepted v s) v).target := by
    have hsame : now32 (evAccepted v s) = now32 s := rfl
    rw [htarget, hsame]
    omega
  rw [execPosEvArm, hostWrite_of_takes ht, evArm_accepted h hr, if_neg (by simp [hpick]), judgeTime_ahead hahead]

/-! ### Firings of TRIG events (R100, R104, R108) -/

/-- TRIGv shows the pulse of its event, inverted by invert. -/
theorem trigSync_trig (hv : v < 16) (s : State) :
    (trigSync v s).pins.trig.getLsbD v = ((eventOf s v).pulse != s.bit (Reg.posEvCfg v) 9) := by
  rw [trigSync, if_pos hv]
  dsimp only
  cases (eventOf s v).pulse != s.bit (Reg.posEvCfg v) 9 <;> simp [hv]

/-- The registers of a TRIG event that has fired. -/
def trigFired (v : Nat) (late : Bool) (s : State) : State :=
  let u := (s.inc (Reg.posEvFires v)).putB (Reg.posEvStatus v) 1 (late || s.bit (Reg.posEvStatus v) 1)
  if (eventOf s v).pulse then u.putB (Reg.posEvStatus v) 3 true else u

theorem trigFired_kept {late : Bool} (h : s.Kept) : (trigFired v late s).Kept := by
  unfold trigFired
  dsimp only
  split <;> exact h

theorem trigFired_regs (w : RegsOk s) (late : Bool) :
    RegsOk (trigFired v late s) ∧ (trigFired v late s).rd (Reg.posEvFires v) = s.rd (Reg.posEvFires v) + 1 ∧
    (trigFired v late s).bit (Reg.posEvStatus v) 1 = (late || s.bit (Reg.posEvStatus v) 1) ∧
    (trigFired v late s).rd (Reg.posEvCfg v) = s.rd (Reg.posEvCfg v) := by
  have w1 : RegsOk (s.inc (Reg.posEvFires v)) := regsOk_wr w
  have w2 : RegsOk ((s.inc (Reg.posEvFires v)).putB (Reg.posEvStatus v) 1 (late || s.bit (Reg.posEvStatus v) 1)) := regsOk_putB w1
  have hfires : ((s.inc (Reg.posEvFires v)).putB (Reg.posEvStatus v) 1 (late || s.bit (Reg.posEvStatus v) 1)).rd (Reg.posEvFires v) =
      s.rd (Reg.posEvFires v) + 1 := by
    rw [State.rd_putB_ne w1 (by simp [Reg.posEvFires, Reg.posEvStatus]), State.inc, State.rd_wr_same w]
  have hcfg : ((s.inc (Reg.posEvFires v)).putB (Reg.posEvStatus v) 1 (late || s.bit (Reg.posEvStatus v) 1)).rd (Reg.posEvCfg v) =
      s.rd (Reg.posEvCfg v) := by
    rw [State.rd_putB_ne w1 (by simp [Reg.posEvCfg, Reg.posEvStatus]), State.inc,
      State.rd_wr_ne w (by simp [Reg.posEvCfg, Reg.posEvFires])]
  unfold trigFired
  dsimp only
  split
  · refine ⟨regsOk_putB w2, ?_, ?_, ?_⟩
    · rw [State.rd_putB_ne w2 (by simp [Reg.posEvFires, Reg.posEvStatus]), hfires]
    · rw [State.bit_putB_ne w2 (by decide), State.bit_putB_same w1 (by decide)]
    · rw [State.rd_putB_ne w2 (by simp [Reg.posEvCfg, Reg.posEvStatus]), hcfg]
  · exact ⟨w2, hfires, State.bit_putB_same w1 (by decide), hcfg⟩

/-- A TRIG event raises its pulse. -/
def trigRaised (v : Nat) (late : Bool) (s : State) : State :=
  trigSync v (setEvent (trigFired v late s) v { eventOf s v with pulse := true })

theorem evFire_trig (hv : v < 16) (late : Bool) (t : TStamp) (s : State) : evFire v late t s = trigRaised v late s := by
  rw [evFire, if_pos hv]
  rfl

theorem trigRaised_regs (v : Nat) (late : Bool) (s : State) : (trigRaised v late s).regs = (trigFired v late s).regs := trigSync_regs _ v

theorem trigRaised_event (v : Nat) (late : Bool) (s : State) :
    eventOf (trigRaised v late s) v = { eventOf s v with pulse := true } := by
  have hpos : (trigRaised v late s).pos = (setEvent (trigFired v late s) v { eventOf s v with pulse := true }).pos :=
    trigSync_within.pos rfl
  rw [eventOf, hpos]
  exact eventOf_setEvent fun e => absurd (congrArg Event.pulse e) (by simp [Event.idle])

theorem trigRaised_trig (hv : v < 16) (w : RegsOk s) (late : Bool) :
    (trigRaised v late s).pins.trig.getLsbD v = !s.bit (Reg.posEvCfg v) 9 := by
  obtain ⟨-, -, -, hcfg⟩ := trigFired_regs (v := v) w late
  have hpulse : (eventOf (setEvent (trigFired v late s) v { eventOf s v with pulse := true }) v).pulse = true :=
    congrArg Event.pulse (eventOf_setEvent fun e => absurd (congrArg Event.pulse e) (by simp [Event.idle]))
  have hbit : (setEvent (trigFired v late s) v { eventOf s v with pulse := true }).bit (Reg.posEvCfg v) 9 = s.bit (Reg.posEvCfg v) 9 :=
    State.bit_of_rd hcfg 9
  rw [trigRaised, trigSync_trig hv, hpulse, hbit, Bool.true_bne]

/-- The event as its firing finds it: the condition met is taken. -/
def evDueTaken (v : Nat) (s : State) : State := setEvent s v { eventOf s v with due := (eventOf s v).due.tail }

/-- R100: a TRIG event with ONCE raises its pulse and is disarmed. -/
theorem evGo_once (hv : v < 16) (w : RegsOk s) (h : evRepeat s v = 0) :
    evGo v s = evDisarm v (trigRaised v false (evDueTaken v s)) := by
  obtain ⟨-, -, -, hcfg⟩ := trigFired_regs (s := evDueTaken v s) (v := v) w false
  have hrepeat : evRepeat (trigRaised v false (evDueTaken v s)) v = 0 :=
    (State.fld_of_rd ((State.rd_of_regs (trigRaised_regs ..) _).trans hcfg) 5 2).trans h
  rw [evGo, evFire_trig hv]
  exact if_pos hrepeat

theorem evDisarm_regs (w : RegsOk s) :
    evArmed (evDisarm v s) v = false ∧ (∀ a, a ≠ Reg.posEvStatus v → (evDisarm v s).rd a = s.rd a) ∧
    ∀ i, i ≠ 0 → (evDisarm v s).bit (Reg.posEvStatus v) i = s.bit (Reg.posEvStatus v) i :=
  ⟨State.bit_putB_same w (by decide), fun _ h => State.rd_putB_ne w h, fun _ h => State.bit_putB_ne w h⟩

theorem evDisarm_pulse (h : (eventOf s v).pulse = true) : (eventOf (evDisarm v s) v).pulse = true := by
  rw [evDisarm, eventOf_setEvent fun e => absurd (congrArg Event.pulse e) (by rw [Event.idle]; simpa using h)]
  exact h

theorem trig_fires_once (hk : s.Kept) (ws : s.wf = true) {v : Fin 16} (ht : s.tclk = true) (hd : evDue s v = true)
    (h : evRepeat s v = 0) :
    ∃ t, exec (.eventFire (Fin.castLE (by decide) v)) s = .next t ∧ t.rd (Reg.posEvFires v) = s.rd (Reg.posEvFires v) + 1 ∧
      evArmed t v = false ∧ t.bit (Reg.posEvStatus v) 1 = s.bit (Reg.posEvStatus v) 1 ∧ (eventOf t v).pulse = true ∧
      t.pins.trig.getLsbD v = !s.bit (Reg.posEvCfg v) 9 := by
  have w : RegsOk (evDueTaken v s) := State.wf_regs ws
  obtain ⟨w1, hfires, hlate, -⟩ := trigFired_regs (v := v) w false
  have hregs := trigRaised_regs v false (evDueTaken v s)
  have w2 : RegsOk (trigRaised v false (evDueTaken v s)) := by rw [RegsOk, hregs]; exact w1
  obtain ⟨harmed, hrd, hbit⟩ := evDisarm_regs (v := v) w2
  have hkeep : (evDisarm v (trigRaised v false (evDueTaken v s))).Kept :=
    kept_of_contract (trigSync_within.contract rfl) (trigFired_kept (s := evDueTaken v s) (by exact hk))
  have e : execEventFire (Fin.castLE (by decide) v) s = .next (evDisarm v (trigRaised v false (evDueTaken v s))) := by
    rw [← evGo_once v.isLt (State.wf_regs ws) h]
    exact onlyIf_of_true (by simp [ht, hd])
  refine ⟨_, inContract_kept hk hkeep e, ?_, harmed, ?_, evDisarm_pulse (congrArg Event.pulse (trigRaised_event ..)),
    trigRaised_trig v.isLt w false⟩
  · rw [hrd _ (by simp [Reg.posEvFires, Reg.posEvStatus]), State.rd_of_regs hregs, hfires]
    rfl
  · rw [hbit _ (by decide), State.bit_of_rd (State.rd_of_regs hregs _), hlate]
    rfl

/-! ### Disarming (R103) -/

theorem execPosEvDisarm_armed {v : Fin 80} (ht : hostTakes .held s = true) (h : evArmed s v = true) :
    execPosEvDisarm v s = .next (evDisarm v (if s.tclk && evDue s v then evGo v s else s)) := by
  rw [execPosEvDisarm, hostWrite_of_takes ht]
  exact if_pos h

theorem event_disarms (hk : s.Kept) (ws : s.wf = true) {v : Fin 80} (ht : hostTakes .held s = true) (h : evArmed s v = true)
    (hd : evDue s v = false) :
    ∃ t, exec (.posEvDisarm v) s = .next t ∧ evArmed t v = false ∧ t.pins = s.pins ∧ ∀ a, a ≠ Reg.posEvStatus v → t.rd a = s.rd a := by
  obtain ⟨harmed, hrd, -⟩ := evDisarm_regs (v := v) (State.wf_regs ws)
  refine ⟨evDisarm v s, inContract_kept hk (by exact hk) ?_, harmed, rfl, hrd⟩
  rw [execPosEvDisarm_armed ht h, if_neg (by simp [hd])]

/-- R103: a firing of the same TCLK comes before the disarming. -/
theorem event_fires_before_disarming (hk : s.Kept) {v : Fin 80} (ht : hostTakes .held s = true) (h : evArmed s v = true)
    (htc : s.tclk = true) (hd : evDue s v = true) : exec (.posEvDisarm v) s = .next (evDisarm v (evGo v s)).settle := by
  refine inContract_next hk ?_
  rw [execPosEvDisarm_armed ht h, if_pos (by simp [htc, hd])]

end

/-! ### Position doorbells (R105 to R107) -/

/-- What a queue is reads the same in the same registers. -/
theorem queue_of_regs {s t : State} (h : t.regs = s.regs) (q : Nat) :
    qState t q = qState s q ∧ qProd t q = qProd s q ∧ qFree t q = qFree s q := by
  simp only [qState, qProd, qFree, qDepth, qResv, qHead, State.fld, State.rd, h, and_self]

/-- R177: an engine's element is taken by an ENABLED queue with an engine producer and a free slot. -/
theorem engCommit_taken_iff (q : Nat) (bs : List Byte) (s : State) :
    (engCommit q bs s).1 = true ↔ qState s q = 1 ∧ qProd s q = 3 ∧ qFree s q ≠ 0 := by
  unfold engCommit engCommitAs
  split
  · next h =>
    split
    · next h' => simpa [beq_iff_eq.mp h] using h'
    · next h' => simpa [beq_iff_eq.mp h] using h'
  · next h =>
    have hne : qState s q ≠ 1 := by simpa using h
    split <;> simp [hne]

/-- An element that a queue does not take writes nothing. -/
theorem engCommit_contract_of_lost {q : Nat} {bs : List Byte} {s : State} (h : (engCommit q bs s).1 = false) :
    (engCommit q bs s).2.contract = s.contract := by
  unfold engCommit engCommitAs at h ⊢
  split at h
  · split at h
    · cases h
    · next h1 h2 => rw [if_pos h1, if_neg h2]
  · next h1 =>
    rw [if_neg h1]
    split <;> rfl

section
variable {s : State} {d : Fin 64} {f : Firing} {l : List Firing}

/-- The oldest firing of a doorbell is taken. -/
def firingTaken (v : Nat) (l : List Firing) (s : State) : State := setEvent s v { eventOf s v with fired := l }

/-- What becomes of a firing that a queue does not take (R106). -/
def firingLost (v : Nat) (f : Firing) (s : State) : State :=
  setEvent (s.putB (Reg.posEvStatus v) 6 true) v
    { eventOf (s.putB (Reg.posEvStatus v) 6 true) v with skips := f.skips || (eventOf (s.putB (Reg.posEvStatus v) 6 true) v).skips }

/-- The commit of the element of a firing. -/
def firingCommit (d : Fin 64) (f : Firing) (l : List Firing) (s : State) : Bool × State :=
  engCommit (evQueue (firingTaken (16 + d) l s) (16 + d)) (dbElement d f) (firingTaken (16 + d) l s)

theorem execPositionDoorbell_behind (h : (eventOf s (16 + d)).fired = f :: l) (hb : dbBehind s (16 + d) f = true) :
    execPositionDoorbell d s = .next s := by
  unfold execPositionDoorbell
  dsimp only
  rw [h]
  exact if_neg (by simp [hb])

theorem execPositionDoorbell_commit (hc : s.cclk = true) (h : (eventOf s (16 + d)).fired = f :: l) (hb : dbBehind s (16 + d) f = false)
    (hw : engWaits s (commitRange s (evQueue s (16 + d))) = false) :
    execPositionDoorbell d s = .next (
      let r := firingCommit d f l (engGo (commitRange s (evQueue s (16 + d))) s)
      if r.1 then r.2 else firingLost (16 + d) f r.2) := by
  unfold execPositionDoorbell
  dsimp only
  rw [h]
  dsimp only
  rw [onlyIfR, if_pos (by simp [hc, hb]), engAccess, if_neg (by simp [hw])]
  change (match firingCommit d f l (engGo (commitRange s (evQueue s (16 + d))) s) with
    | (true, s) => Res.next s
    | (false, s) => .next (firingLost (16 + d) f s)) = _
  rcases firingCommit d f l (engGo (commitRange s (evQueue s (16 + d))) s) with ⟨_ | _, t⟩ <;> rfl

theorem firingCommit_taken_iff {rs : EngRanges} :
    (firingCommit d f l (engGo rs s)).1 = true ↔
      qState s (evQueue s (16 + d)) = 1 ∧ qProd s (evQueue s (16 + d)) = 3 ∧ qFree s (evQueue s (16 + d)) ≠ 0 := by
  have hregs : (firingTaken (16 + d) l (engGo rs s)).regs = s.regs := engGo_within.regs rfl
  have hq : evQueue (firingTaken (16 + d) l (engGo rs s)) (16 + d) = evQueue s (16 + d) :=
    State.fld_of_rd (State.rd_of_regs hregs _) 0 10
  obtain ⟨hstate, hprod, hfree⟩ := queue_of_regs hregs (evQueue s (16 + d))
  rw [firingCommit, hq, engCommit_taken_iff, hstate, hprod, hfree]

/-- R106: a firing that is lost leaves the contract as it was. -/
theorem firingLost_kept {rs : EngRanges} (hk : s.Kept) (h : (firingCommit d f l (engGo rs s)).1 = false) :
    (firingLost (16 + d) f (firingCommit d f l (engGo rs s)).2).Kept := by
  have htaken : (firingTaken (16 + d) l (engGo rs s)).Kept := kept_of_contract (engGo_within.contract rfl) hk
  exact kept_of_contract (engCommit_contract_of_lost h) htaken

theorem dbElement_length (d : Nat) (f : Firing) : (dbElement d f).length = 32 := by
  simp [dbElement, natLe_length, zeros]

end

/-- Settles O23: arming, firing and disarming, the end of a pulse, and the element of a doorbell. -/
theorem scheduledEvents : Obligations.ScheduledEvents := by
  refine ⟨fun s hk ws => ⟨fun v ht h => ?_, fun v ht h hr => ?_, fun v ht h hr hp hn => event_arms_each hk ws ht h hr hp hn,
    fun v ht h hr hp => ?_, fun v ht => ?_, fun v ht hd => ?_, fun v ht hd h => trig_fires_once hk ws ht hd h,
    fun v ht h hd => event_disarms hk ws ht h hd, fun v ht h htc hd => event_fires_before_disarming hk ht h htc hd,
    fun v ht h => ?_, fun v ht h => ?_⟩, fun s d f l hk hc h => ?_⟩
  · exact inContract_kept hk hk ((hostWrite_of_takes ht).trans (congrArg _ (evArm_armed h)))
  · exact inContract_kept hk (by exact hk) ((hostWrite_of_takes ht).trans (congrArg _ (evArm_refused h hr)))
  · intro target hnow
    have htarget : evTarget v s = target := if_neg (by simp [hp])
    rw [← htarget] at hnow ⊢
    exact event_arms_time hk ws ht h hr hp hnow
  · exact inContract_next hk (hostWrite_of_takes ht)
  · exact inContract_next hk (onlyIf_of_true (by simp [ht, hd]))
  · refine inContract_kept hk hk ?_
    rw [execPosEvDisarm, hostWrite_of_takes ht, if_neg (by simp [h])]
  · exact inContract_within hk execTrigPulseEnd_within (by decide) (onlyIf_of_true (by simp [ht, h]))
  · intro rs s0 s1 r
    refine ⟨fun hb => inContract_kept hk hk (execPositionDoorbell_behind h hb), fun hb hw => ?_, dbElement_length d f⟩
    have e := execPositionDoorbell_commit hc h hb hw
    refine ⟨fun hr => ?_, fun hr => ?_, firingCommit_taken_iff⟩
    · exact inContract_next hk (e.trans (congrArg _ (if_pos hr)))
    · exact inContract_kept hk (firingLost_kept hk hr) (e.trans (congrArg _ (if_neg (Bool.eq_false_iff.mp hr))))

end Sys2Proof.Machine
end

section
/-! SUPPORT. Edges at the inputs (R85 to R92, R596, R598): the step each mode of a counter gives, what a counter and a stamp queue
show after the edges of one TCLK. -/

namespace Sys2Proof.Machine

/-! ### The steps of a counter in each mode (R89, R90) -/

section
variable {s : State} {n : Nat} {x y : PinEdge}

/-- The first edge of an input among some edges. -/
theorem find_input_head {a : Nat} (h : x.input.val = a) (l : List PinEdge) : (x :: l).find? (fun z => z.input.val == a) = some x := by
  simp [h]

theorem find_input_tail {a : Nat} (h : x.input.val ≠ a) (l : List PinEdge) :
    (x :: l).find? (fun z => z.input.val == a) = l.find? (fun z => z.input.val == a) := by
  simp [h]

/-- Input A of a counter alone has an edge. -/
theorem pickDelta_a (hx : x.input.val = s.fld (Reg.posPkCfg n) 3 4) (hxb : x.input.val ≠ s.fld (Reg.posPkCfg n) 7 4)
    (hinv : s.bit (Reg.posPkCfg n) 11 = false) :
    (pkMode s n = 3 ∨ pkMode s n = 2 →
      pickDelta s n [x] = .step (x.rising != s.pins.edge.toNat.testBit (s.fld (Reg.posPkCfg n) 7 4)) x) ∧
    (pkMode s n = 1 → pickDelta s n [x] =
      if x.rising then .step (!s.pins.edge.toNat.testBit (s.fld (Reg.posPkCfg n) 7 4)) x else .none) ∧
    (pkMode s n = 4 → x.rising = false → pickDelta s n [x] = .none) ∧
    (pkMode s n = 4 → x.rising = true → dirUnstable s (s.fld (Reg.posPkCfg n) 7 4) x none = false →
      pickDelta s n [x] = .step (!s.pins.edge.toNat.testBit (s.fld (Reg.posPkCfg n) 7 4)) x) := by
  unfold pickDelta
  dsimp only
  rw [find_input_head hx, find_input_tail hxb, hinv]
  refine ⟨?_, fun h => ?_, fun h hr => ?_, fun h hr hd => ?_⟩
  · rintro (h | h) <;> simp [h]
  · simp [h]
  · simp [h, hr]
  · simp [h, hr, hd]

/-- Input B of a counter alone has an edge. -/
theorem pickDelta_b (hya : y.input.val ≠ s.fld (Reg.posPkCfg n) 3 4) (hy : y.input.val = s.fld (Reg.posPkCfg n) 7 4)
    (hinv : s.bit (Reg.posPkCfg n) 11 = false) :
    (pkMode s n = 3 → pickDelta s n [y] = .step (s.pins.edge.toNat.testBit (s.fld (Reg.posPkCfg n) 3 4) == y.rising) y) ∧
    (pkMode s n = 2 ∨ pkMode s n = 1 ∨ pkMode s n = 4 → pickDelta s n [y] = .none) := by
  unfold pickDelta
  dsimp only
  rw [find_input_head hy, find_input_tail hya, hinv]
  refine ⟨fun h => ?_, ?_⟩
  · simp [h]
  · rintro (h | h | h) <;> simp [h]

/-- Both inputs of a counter have an edge. -/
theorem pickDelta_both (hx : x.input.val = s.fld (Reg.posPkCfg n) 3 4) (hxb : x.input.val ≠ s.fld (Reg.posPkCfg n) 7 4)
    (hy : y.input.val = s.fld (Reg.posPkCfg n) 7 4) :
    (pkMode s n = 1 ∨ pkMode s n = 2 ∨ pkMode s n = 3 → pickDelta s n [x, y] = .error) ∧
    (pkMode s n = 0 → pickDelta s n [x, y] = .none) := by
  unfold pickDelta
  dsimp only
  rw [find_input_head hx, find_input_tail hxb, find_input_head hy]
  refine ⟨?_, fun h => ?_⟩
  · rintro (h | h | h) <;> simp [h]
  · simp [h]

end

/-! ### What the meaning of an edge looks at (R85 to R90) -/

/-- The position besides the counters is as it was. -/
def OnlyPicks (s t : State) : Prop := ∃ p, t.pos = { s.pos with picks := p }

section
variable {s t u : State} {n : Nat}

theorem OnlyPicks.of_pos (h : t.pos = s.pos) : OnlyPicks s t := ⟨s.pos.picks, h⟩

theorem OnlyPicks.trans (h : OnlyPicks s t) (h' : OnlyPicks t u) : OnlyPicks s u := by
  obtain ⟨p, hp⟩ := h
  obtain ⟨q, hq⟩ := h'
  exact ⟨q, by rw [hq, hp]⟩

theorem OnlyPicks.fields (h : OnlyPicks s t) : t.pos.tb = s.pos.tb ∧ t.pos.now = s.pos.now ∧ t.pos.edges = s.pos.edges := by
  obtain ⟨p, hp⟩ := h
  rw [hp]
  exact ⟨rfl, rfl, rfl⟩

/-- The registers that counters other than n may change when they count. -/
def outsideCounter (n a : Nat) : Bool := decide (0x20800 ≤ a ∧ (a < Reg.posPkCfg n ∨ Reg.posPkCfg n + 0x80 ≤ a))

theorem outsideCounter_below {a : Nat} (h : a < 0x20800) : outsideCounter n a = false := by
  rw [outsideCounter, decide_eq_false_iff_not]
  omega

theorem outsideCounter_own {a : Nat} (h : Reg.posPkCfg n ≤ a) (h' : a < Reg.posPkCfg n + 0x80) : outsideCounter n a = false := by
  rw [outsideCounter, decide_eq_false_iff_not]
  omega

/-- Two states in which the edges of a TCLK mean the same for counter n. -/
structure SameForCounter (n : Nat) (s t : State) : Prop where
  rd : ∀ a, outsideCounter n a = false → t.rd a = s.rd a
  pins : t.pins = s.pins
  pos : OnlyPicks s t

theorem edgeStampOf_congr (htb : t.pos.tb = s.pos.tb) (hrd : ∀ a, a < 0x20000 → t.rd a = s.rd a) (x : PinEdge) :
    edgeStampOf t x = edgeStampOf s x := by
  have hnow : now32 t = now32 s := congrArg tb32 htb
  have hlock : timeLock t = timeLock s := State.bit_of_rd (hrd _ (by decide)) 0
  have hbound : chainBound t = chainBound s := State.bit_of_rd (hrd _ (by decide)) 4
  have hinc : tbInc t = tbInc s := by
    rw [tbInc, tbInc, State.bit_of_rd (hrd _ (by decide)), hrd _ (by decide)]
  simp only [edgeStampOf, stampAt, edgeInstant, hnow, hlock, hbound, hinc]

theorem dirUnstable_congr (hcfg : ∀ e, e < 16 → t.rd (Reg.posEdgeCfg e) = s.rd (Reg.posEdgeCfg e)) (hnow : t.pos.now = s.pos.now)
    (hedges : t.pos.edges = s.pos.edges) {b : Nat} (hb : b < 16) (x : PinEdge) (eb : Option PinEdge) :
    dirUnstable t b x eb = dirUnstable s b x eb := by
  have hfilter (e : Nat) (he : e < 16) : edgeFilter t e = edgeFilter s e := State.fld_of_rd (hcfg e he) 8 8
  have hat : edgeAt t = edgeAt s := by
    funext z
    rw [edgeAt, edgeAt, hnow]
  have hin : edgeIn t b = edgeIn s b := by rw [edgeIn, edgeIn, hedges]
  simp only [dirUnstable, hfilter _ x.input.isLt, hfilter _ hb, hat, hin]

theorem SameForCounter.pickDelta (h : SameForCounter n s t) (es : List PinEdge) :
    pickDelta t n es = pickDelta { s with freeCtr := t.freeCtr } n es := by
  obtain ⟨-, hnow, hedges⟩ := h.pos.fields
  have hcfg : t.rd (Reg.posPkCfg n) = s.rd (Reg.posPkCfg n) := h.rd _ (outsideCounter_own le_rfl (by omega))
  have hedge (e : Nat) (he : e < 16) : t.rd (Reg.posEdgeCfg e) = s.rd (Reg.posEdgeCfg e) :=
    h.rd _ (outsideCounter_below (by simp only [Reg.posEdgeCfg]; omega))
  have hdir (x : PinEdge) (eb : Option PinEdge) : dirUnstable t (s.fld (Reg.posPkCfg n) 7 4) x eb =
      dirUnstable { s with freeCtr := t.freeCtr } (s.fld (Reg.posPkCfg n) 7 4) x eb :=
    dirUnstable_congr (s := { s with freeCtr := t.freeCtr }) hedge hnow hedges (fieldN_lt _ _ 4) x eb
  have hfld (lo k : Nat) : t.fld (Reg.posPkCfg n) lo k = s.fld (Reg.posPkCfg n) lo k := State.fld_of_rd hcfg lo k
  have hfld' (lo k : Nat) : State.fld { s with freeCtr := t.freeCtr } (Reg.posPkCfg n) lo k = s.fld (Reg.posPkCfg n) lo k := rfl
  have hbit : t.bit (Reg.posPkCfg n) 11 = State.bit { s with freeCtr := t.freeCtr } (Reg.posPkCfg n) 11 := State.bit_of_rd hcfg 11
  simp only [Machine.pickDelta, pkMode, hfld, hfld', hbit, hdir, h.pins]

theorem SameForCounter.edgeStampOf (h : SameForCounter n s t) (x : PinEdge) : edgeStampOf t x = edgeStampOf s x :=
  edgeStampOf_congr h.pos.fields.1 (fun _ ha => h.rd _ (outsideCounter_below (by omega))) x

end

/-! ### One counter (R69, R89, R92) -/

/-- The registers that counter n writes when it counts, and the count of changes that the chain has missed. -/
def countRun (n a : Nat) : Bool :=
  a == Reg.chainPickCoalesced || regsIn (Reg.posPkStatus n) (Reg.posPkRef n) a || regsIn (Reg.posPkLastT0 n) (Reg.posPkLastT0 n + 0x20) a

theorem countRun_iff {n a : Nat} : countRun n a = true ↔
    a = Reg.chainPickCoalesced ∨ (Reg.posPkStatus n ≤ a ∧ a < Reg.posPkRef n) ∨
      (Reg.posPkLastT0 n ≤ a ∧ a < Reg.posPkLastT0 n + 0x20) := by
  simp only [countRun, Bool.or_eq_true, beq_iff_eq, regsIn_iff, or_assoc]

/-- The registers that a counting counter writes are not those that other counters look at. -/
theorem outsideCounter_of_countRun {m n a : Nat} (hn : n < 4) (h : m ≠ n) (ha : outsideCounter n a = false) : countRun m a = false := by
  rw [Bool.eq_false_iff, ne_eq, countRun_iff]
  simp only [outsideCounter, decide_eq_false_iff_not, Reg.posPkCfg, Reg.chainPickCoalesced, Reg.posPkStatus, Reg.posPkRef,
    Reg.posPkLastT0] at ha ⊢
  omega

/-- The registers of TIME, of the inputs and of events, and those that arm a reference, are none that a counter writes. -/
theorem countRun_false {n a : Nat} (hn : n < 4) (h : a < 0x20800 ∨ (0x20A00 ≤ a ∧ a < 0x30000) ∨ a % 0x80 = 0x18) :
    countRun n a = false := by
  rw [Bool.eq_false_iff, ne_eq, countRun_iff]
  simp only [Reg.chainPickCoalesced, Reg.posPkStatus, Reg.posPkRef, Reg.posPkLastT0]
  omega

section
variable {s : State} {n : Nat}

/-- The count and the direction of a counter that has counted once. -/
def pickCounted (n : Nat) (up : Bool) (s : State) : State :=
  let c := pkCount s n
  let c' := if up then (c + 1) % 2 ^ 48 else (c + 2 ^ 48 - 1) % 2 ^ 48
  let wrap := if up then c == 2 ^ 47 - 1 else c == 2 ^ 47
  let u := (setPkCount s n c').putF (Reg.posPkStatus n) 0 2 (if up then 1 else 2)
  if wrap then u.putB (Reg.posPkStatus n) 5 true else u

/-- The stamps of a counter that has counted once. -/
def pickStamped (n : Nat) (t : TStamp) (s : State) : State :=
  (s.wrQ (Reg.posPkLastT1 n) 4 (s.rdQ (Reg.posPkLastT0 n) 4)).wrQ (Reg.posPkLastT0 n) 4 t.toNat

/-- The change of a counter is one more since it left OFF or was loaded (R127). -/
def pickMoved (n : Nat) (s : State) : State := setPick s n { pickOf s n with changes := min 2 ((pickOf s n).changes + 1) }

theorem pickStep_eq (n : Nat) (up : Bool) (t : TStamp) (s : State) :
    pickStep n up t s = noteChange n t none (pickMoved n (pickStamped n t (pickCounted n up s))) := by
  rfl

theorem pickCounted_within (n : Nat) (up : Bool) (s : State) : Within 8 s (pickCounted n up s) := by
  unfold pickCounted
  extract_lets c c' wrap u
  have h : Within 8 s u := State.putF_within.step (by decide) setPkCount_within
  exact .ite (State.putB_within.step (by decide) h) h

theorem pickStamped_pos (n : Nat) (t : TStamp) (s : State) : (pickStamped n t s).pos = s.pos :=
  (State.wrQ_within.step (by decide) (State.wrQ_within (s := s))).pos (M := 8) rfl

theorem pickCounted_changesOnlyRegs (n : Nat) (up : Bool) (s : State) :
    ChangesOnlyRegs (regsIn (Reg.posPkStatus n) (Reg.posPkRef n)) s (pickCounted n up s) := by
  have hstatus : regsIn (Reg.posPkStatus n) (Reg.posPkRef n) (Reg.posPkStatus n) = true :=
    regsIn_iff.mpr (by simp only [Reg.posPkStatus, Reg.posPkRef]; omega)
  refine ChangesOnlyRegs.trans (((setPkCount_changesOnlyRegs _).widen fun x hlo hhi => regsIn_iff.mpr ?_).trans
    (putF_changesOnlyRegs hstatus)) (.ite (putB_changesOnlyRegs hstatus) (.of_regs rfl))
  simp only [Reg.posPkStatus, Reg.posPkCount, Reg.posPkRef] at *
  omega

theorem stepped_mod (c : Nat) (up : Bool) :
    (if up then (c + 1) % 2 ^ 48 else (c + 2 ^ 48 - 1) % 2 ^ 48) % 2 ^ 48 = (c + (if up then 1 else 2 ^ 48 - 1)) % 2 ^ 48 := by
  cases up with
  | false => rw [if_neg Bool.false_ne_true, if_neg Bool.false_ne_true, Nat.mod_mod, Nat.add_sub_assoc (by decide)]
  | true => rw [if_pos rfl, if_pos rfl, Nat.mod_mod]

/-- R69, R92: the count moves by one, modulo 2^48, and the direction is that of the step. -/
theorem pickCounted_regs (w : RegsOk s) (up : Bool) :
    pkCount (pickCounted n up s) n = (pkCount s n + (if up then 1 else 2 ^ 48 - 1)) % 2 ^ 48 ∧
    (pickCounted n up s).fld (Reg.posPkStatus n) 0 2 = if up then 1 else 2 := by
  unfold pickCounted
  dsimp only
  have hcount := stepped_mod (pkCount s n) up
  have hdir : (if up then 1 else 2) % 2 ^ 2 = if up then 1 else 2 := by cases up <;> rfl
  generalize (if up then (pkCount s n + 1) % 2 ^ 48 else (pkCount s n + 2 ^ 48 - 1) % 2 ^ 48) = c at hcount
  have w1 : RegsOk (setPkCount s n c) := regsOk_setPkCount w c
  have w2 : RegsOk ((setPkCount s n c).putF (Reg.posPkStatus n) 0 2 (if up then 1 else 2)) := regsOk_putF w1
  generalize (if up then pkCount s n == 2 ^ 47 - 1 else pkCount s n == 2 ^ 47) = wrap
  cases wrap with
  | false => exact ⟨by rw [if_neg (by decide), pkCount_putF_status w1, pkCount_setPkCount w, hcount],
      by rw [if_neg (by decide), State.fld_putF_same w1 (by decide), hdir]⟩
  | true => exact ⟨by rw [if_pos rfl, State.putB, pkCount_putF_status w2, pkCount_putF_status w1, pkCount_setPkCount w, hcount],
      by rw [if_pos rfl, State.fld_putB_ne w2 (by decide), State.fld_putF_same w1 (by decide), hdir]⟩

theorem pickStamped_changesOnlyRegs (n : Nat) (t : TStamp) (s : State) :
    ChangesOnlyRegs (regsIn (Reg.posPkLastT0 n) (Reg.posPkLastT0 n + 0x20)) s (pickStamped n t s) := by
  refine ChangesOnlyRegs.trans ((wrQ_changesOnlyRegs _ _ _ _).widen fun x hlo hhi => ?_)
    ((wrQ_changesOnlyRegs _ _ _ _).widen fun x hlo hhi => ?_)
  all_goals
    refine regsIn_iff.mpr ?_
    simp only [Reg.posPkLastT0, Reg.posPkLastT1] at hlo hhi ⊢
    omega

/-- R92: the stamps of the last two changes. -/
theorem pickStamped_regs (w : RegsOk s) (t : TStamp) :
    (pickStamped n t s).rdQ (Reg.posPkLastT0 n) 4 = t.toNat ∧
    (pickStamped n t s).rdQ (Reg.posPkLastT1 n) 4 = s.rdQ (Reg.posPkLastT0 n) 4 := by
  have w1 : RegsOk (s.wrQ (Reg.posPkLastT1 n) 4 (s.rdQ (Reg.posPkLastT0 n) 4)) := regsOk_wrQ w
  refine ⟨?_, ?_⟩
  · rw [pickStamped, State.rdQ_wrQ_same w1]
    exact Nat.mod_eq_of_lt t.isLt
  · rw [pickStamped, State.rdQ_wrQ_ne w1 (by simp only [Reg.posPkLastT0, Reg.posPkLastT1]; omega), State.rdQ_wrQ_same w]
    exact Nat.mod_eq_of_lt (State.rdQ_lt s _ 4)

theorem noteChange_pickMoved_changesOnlyRegs (n : Nat) (t : TStamp) (d : Option (BitVec 48)) (s : State) :
    ChangesOnlyRegs (· == Reg.chainPickCoalesced) s (noteChange n t d (pickMoved n s)) :=
  ChangesOnlyRegs.trans (t := pickMoved n s) (.of_regs rfl) (noteChange_changesOnlyRegs _ n t d)

theorem pickStep_changesOnlyRegs (n : Nat) (up : Bool) (t : TStamp) (s : State) : ChangesOnlyRegs (countRun n) s (pickStep n up t s) := by
  rw [pickStep_eq]
  refine ChangesOnlyRegs.trans (ChangesOnlyRegs.trans ((pickCounted_changesOnlyRegs n up s).widen fun a hlo hhi => ?_)
    ((pickStamped_changesOnlyRegs n t _).widen fun a hlo hhi => ?_)) ((noteChange_pickMoved_changesOnlyRegs _ _ _ _).mono fun a ha => ?_)
  · exact countRun_iff.mpr (.inr (.inl ⟨hlo, hhi⟩))
  · exact countRun_iff.mpr (.inr (.inr ⟨hlo, hhi⟩))
  · rw [beq_eq_false_iff_ne]
    rintro rfl
    rw [countRun_iff.mpr (.inl rfl)] at ha
    cases ha

/-- What a counter shows after a step. -/
theorem pickStep_regs (hn : n < 4) (w : RegsOk s) (up : Bool) (t : TStamp) :
    pkCount (pickStep n up t s) n = (pkCount s n + (if up then 1 else 2 ^ 48 - 1)) % 2 ^ 48 ∧
    (pickStep n up t s).fld (Reg.posPkStatus n) 0 2 = (if up then 1 else 2) ∧
    (pickStep n up t s).rdQ (Reg.posPkLastT0 n) 4 = t.toNat ∧
    (pickStep n up t s).rdQ (Reg.posPkLastT1 n) 4 = s.rdQ (Reg.posPkLastT0 n) 4 := by
  rw [pickStep_eq]
  have hcounted := pickCounted_changesOnlyRegs n up s
  have w1 := hcounted.regsOk w
  have hstamped := pickStamped_changesOnlyRegs n t (pickCounted n up s)
  have w2 := hstamped.regsOk w1
  have hnoted := noteChange_pickMoved_changesOnlyRegs n t none (pickStamped n t (pickCounted n up s))
  have hown {a : Nat} (ha : a < 0x20A00) : (a == Reg.chainPickCoalesced) = false :=
    beq_eq_false_iff_ne.mpr (by simp only [Reg.chainPickCoalesced]; omega)
  obtain ⟨hcount, hdir⟩ := pickCounted_regs (n := n) w up
  obtain ⟨ht0, ht1⟩ := pickStamped_regs (n := n) w1 t
  simp only [Reg.posPkStatus, Reg.posPkRef, Reg.posPkLastT0, Reg.posPkLastT1] at *
  refine ⟨?_, ?_, ?_, ?_⟩
  · rw [hnoted.pkCount w2 fun a _ ha => hown ?_, hstamped.pkCount w1 fun a _ ha => regsIn_false (.inl ?_), hcount]
    all_goals
      simp only [Reg.posPkCount] at ha
      omega
  · rw [hnoted.fld w2 (hown (by omega)), hstamped.fld w1 (regsIn_false (.inl (by omega))), hdir]
  · rw [hnoted.rdQ w2 fun a _ ha => hown (by omega), ht0]
  · rw [hnoted.rdQ w2 fun a _ ha => hown (by omega), ht1, hcounted.rdQ w fun a ha _ => regsIn_false (.inr (by omega))]

theorem noteChange_onlyPicks (n : Nat) (t : TStamp) (d : Option (BitVec 48)) (s : State) : OnlyPicks s (noteChange n t d s) := by
  unfold noteChange
  dsimp only
  split
  · split <;> exact ⟨_, rfl⟩
  · exact .of_pos rfl

theorem pickStep_onlyPicks (n : Nat) (up : Bool) (t : TStamp) (s : State) : OnlyPicks s (pickStep n up t s) := by
  rw [pickStep_eq]
  refine OnlyPicks.trans (t := pickStamped n t (pickCounted n up s))
    (.of_pos ((pickStamped_pos n t _).trans ((pickCounted_within n up s).pos rfl))) ?_
  exact OnlyPicks.trans (t := pickMoved n (pickStamped n t (pickCounted n up s))) ⟨_, rfl⟩ (noteChange_onlyPicks n t none _)

theorem pickSeen_step {es : List PinEdge} {up : Bool} {x : PinEdge} (h : pickDelta s n es = .step up x) :
    (pickSeen es n s).1 = pickStep n up (edgeStampOf s x) s.tickFree := by
  rw [pickSeen, h]

theorem pickSeen_none {es : List PinEdge} (h : pickDelta s n es = .none) : (pickSeen es n s).1 = s := by
  rw [pickSeen, h]

theorem pickSeen_error {es : List PinEdge} (h : pickDelta s n es = .error) :
    (pickSeen es n s).1 = (s.putB (Reg.posPkStatus n) 4 true).satF (Reg.posPkStatus n) 16 16 := by
  rw [pickSeen, h]

/-- What one counter does in a TCLK changes its own registers, and of the position the counters alone. -/
theorem pickSeen_frame (es : List PinEdge) (n : Nat) (s : State) :
    ChangesOnlyRegs (countRun n) s (pickSeen es n s).1 ∧ OnlyPicks s (pickSeen es n s).1 := by
  have hstatus : countRun n (Reg.posPkStatus n) = true :=
    countRun_iff.mpr (.inr (.inl (by simp only [Reg.posPkStatus, Reg.posPkRef]; omega)))
  cases h : pickDelta s n es with
  | none =>
    rw [pickSeen_none h]
    exact ⟨.of_regs rfl, .of_pos rfl⟩
  | error =>
    rw [pickSeen_error h]
    exact ⟨(putB_changesOnlyRegs hstatus).trans (putF_changesOnlyRegs hstatus), .of_pos rfl⟩
  | step up x =>
    rw [pickSeen_step h]
    exact ⟨ChangesOnlyRegs.trans (t := s.tickFree) (.of_regs rfl) (pickStep_changesOnlyRegs _ _ _ _),
      OnlyPicks.trans (t := s.tickFree) (.of_pos rfl) (pickStep_onlyPicks _ _ _ _)⟩

end

/-! ### The counters of one TCLK -/

/-- Counters of `l` have taken the edges. -/
def countersSeen (es : List PinEdge) (l : List Nat) (s : State) : State := l.foldl (fun u n => (pickSeen es n u).1) s

section
variable {s : State} (es : List PinEdge)

theorem countersSeen_onlyPicks (l : List Nat) (s : State) : OnlyPicks s (countersSeen es l s) := by
  induction l generalizing s with
  | nil => exact .of_pos rfl
  | cons n l ih => exact (pickSeen_frame es n s).2.trans (ih _)

theorem countersSeen_within (l : List Nat) (s : State) : Within 67109896 s (countersSeen es l s) :=
  Within.foldl (fun _ _ => pickSeen_within) (.refl _ _)

theorem countersSeen_changesOnlyRegs {p : Nat → Bool} {l : List Nat} (h : ∀ n ∈ l, ∀ a, p a = false → countRun n a = false) (s : State) :
    ChangesOnlyRegs p s (countersSeen es l s) :=
  foldl_changesOnlyRegs (fun n hn s => (pickSeen_frame es n s).1.mono (h n hn)) s

/-- Counter n takes the edges in a state that means the same for it as the one before all counters, and no later counter changes what
it shows. -/
theorem countersSeen_counter (w : RegsOk s) (n : Fin 4) :
    ∃ u, RegsOk u ∧ SameForCounter n s u ∧
      ∀ a, Reg.posPkCfg n ≤ a → a < Reg.posPkCfg n + 0x80 → (countersSeen es [0, 1, 2, 3] s).rd a = (pickSeen es n u).1.rd a := by
  obtain ⟨hl, hbefore, hafter⟩ := counters_split n
  have hother {l : List Nat} (hn : n.val ∉ l) (u : State) : ChangesOnlyRegs (outsideCounter n) u (countersSeen es l u) :=
    countersSeen_changesOnlyRegs es (fun m hm a ha => outsideCounter_of_countRun n.isLt (fun e => hn (e ▸ hm)) ha) u
  have hbefore' := hother hbefore s w
  refine ⟨countersSeen es ([0, 1, 2, 3].take n) s, hbefore'.1, ⟨hbefore'.2, (countersSeen_within es _ s).pins rfl,
    countersSeen_onlyPicks es _ s⟩, fun a hlo hhi => ?_⟩
  have e : countersSeen es [0, 1, 2, 3] s =
      countersSeen es ([0, 1, 2, 3].drop (n + 1)) (pickSeen es n (countersSeen es ([0, 1, 2, 3].take n) s)).1 := by
    conv_lhs => rw [hl]
    exact List.foldl_append
  rw [e, (hother hafter _ ((pickSeen_frame es n _).1.regsOk hbefore'.1)).2 a (outsideCounter_own hlo hhi)]

theorem regsOk_countersSeen (w : RegsOk s) (l : List Nat) : RegsOk (countersSeen es l s) :=
  (countersSeen_changesOnlyRegs es (p := fun _ => true) (fun _ _ _ h => by cases h) s).regsOk w

/-- What counter n shows in `t`, by the step that its mode gives the edges of a TCLK in `s` (R89, R92). -/
def CounterTook (n : Nat) (s t : State) : Prop :=
  (∀ up x, (∀ f : Nat, pickDelta { s with freeCtr := f } n es = .step up x) →
    pkCount t n = (pkCount s n + (if up then 1 else 2 ^ 48 - 1)) % 2 ^ 48 ∧ t.fld (Reg.posPkStatus n) 0 2 = (if up then 1 else 2) ∧
    t.rdQ (Reg.posPkLastT0 n) 4 = (edgeStampOf s x).toNat ∧ t.rdQ (Reg.posPkLastT1 n) 4 = s.rdQ (Reg.posPkLastT0 n) 4) ∧
  ((∀ f : Nat, pickDelta { s with freeCtr := f } n es = .none) → pkCount t n = pkCount s n) ∧
  ((∀ f : Nat, pickDelta { s with freeCtr := f } n es = .error) →
    pkCount t n = pkCount s n ∧ t.bit (Reg.posPkStatus n) 4 = true)

theorem countersSeen_took (w : RegsOk s) (n : Fin 4) : CounterTook es n s (countersSeen es [0, 1, 2, 3] s) := by
  obtain ⟨u, wu, hu, hown⟩ := countersSeen_counter es w n
  have hcount : pkCount (countersSeen es [0, 1, 2, 3] s) n = pkCount (pickSeen es n u).1 n :=
    pkCount_of_rd fun a hlo hhi => hown a (by simp only [Reg.posPkCfg, Reg.posPkCount] at *; omega)
      (by simp only [Reg.posPkCfg, Reg.posPkCount] at *; omega)
  have hstatus : (countersSeen es [0, 1, 2, 3] s).rd (Reg.posPkStatus n) = (pickSeen es n u).1.rd (Reg.posPkStatus n) :=
    hown _ (by simp only [Reg.posPkCfg, Reg.posPkStatus]; omega) (by simp only [Reg.posPkCfg, Reg.posPkStatus]; omega)
  have hcountu : pkCount u n = pkCount s n := pkCount_of_rd fun a hlo hhi =>
    hu.rd a (outsideCounter_own (by simp only [Reg.posPkCfg, Reg.posPkCount] at *; omega)
      (by simp only [Reg.posPkCfg, Reg.posPkCount] at *; omega))
  have hdelta := hu.pickDelta es
  refine ⟨fun up x h => ?_, fun h => ?_, fun h => ?_⟩
  · have e := pickSeen_step (hdelta.trans (h _))
    have wt : RegsOk u.tickFree := wu
    obtain ⟨hc, hd, ht0, ht1⟩ := pickStep_regs n.isLt wt up (edgeStampOf u x)
    rw [← e] at hc hd ht0 ht1
    refine ⟨?_, (State.fld_of_rd hstatus 0 2).trans hd, ?_, ?_⟩
    · rw [hcount, hc, ← hcountu]
      rfl
    · rw [State.rdQ_of_rd fun a hlo hhi => hown a (by simp only [Reg.posPkCfg, Reg.posPkLastT0] at *; omega)
        (by simp only [Reg.posPkCfg, Reg.posPkLastT0] at *; omega), ht0, hu.edgeStampOf]
    · rw [State.rdQ_of_rd fun a hlo hhi => hown a (by simp only [Reg.posPkCfg, Reg.posPkLastT1] at *; omega)
        (by simp only [Reg.posPkCfg, Reg.posPkLastT1] at *; omega), ht1]
      exact State.rdQ_of_rd fun a hlo hhi => hu.rd a (outsideCounter_own (by simp only [Reg.posPkCfg, Reg.posPkLastT0] at *; omega)
        (by simp only [Reg.posPkCfg, Reg.posPkLastT0] at *; omega))
  · rw [hcount, pickSeen_none (hdelta.trans (h _)), hcountu]
  · have e := pickSeen_error (hdelta.trans (h _))
    have w1 : RegsOk (u.putB (Reg.posPkStatus n) 4 true) := regsOk_putB wu
    refine ⟨?_, ?_⟩
    · rw [hcount, e, State.satF, pkCount_putF_status w1, State.putB, pkCount_putF_status wu, hcountu]
    · rw [State.bit_of_rd hstatus, e, State.satF, State.bit_putF_ne w1 (by decide), State.bit_putB_same wu (by decide)]

variable {es} in
/-- A change of registers below the counters keeps what a counter shows. -/
theorem CounterTook.trans_below {n : Nat} {t u : State} (h : CounterTook es n s t) (wt : RegsOk t)
    (hu : ChangesOnlyRegs (regsIn 0x20000 0x20400) t u) : CounterTook es n s u := by
  have hout {a : Nat} (ha : Reg.posPkCfg n ≤ a) : regsIn 0x20000 0x20400 a = false :=
    regsIn_false (.inr (by simp only [Reg.posPkCfg] at ha; omega))
  have hcount : pkCount u n = pkCount t n := hu.pkCount wt fun a ha _ => hout (by simp only [Reg.posPkCfg, Reg.posPkCount] at *; omega)
  have hstatus : Reg.posPkCfg n ≤ Reg.posPkStatus n := by simp only [Reg.posPkCfg, Reg.posPkStatus]; omega
  obtain ⟨hstep, hnone, herror⟩ := h
  refine ⟨fun up x hx => ?_, fun hx => hcount.trans (hnone hx), fun hx => ?_⟩
  · obtain ⟨hc, hd, ht0, ht1⟩ := hstep up x hx
    refine ⟨hcount.trans hc, (hu.fld wt (hout hstatus) 0 2).trans hd, ?_, ?_⟩
    · exact (hu.rdQ wt fun a ha _ => hout (by simp only [Reg.posPkCfg, Reg.posPkLastT0] at *; omega)).trans ht0
    · exact (hu.rdQ wt fun a ha _ => hout (by simp only [Reg.posPkCfg, Reg.posPkLastT1] at *; omega)).trans ht1
  · obtain ⟨hc, he⟩ := herror hx
    exact ⟨hcount.trans hc, (hu.bit wt (hout hstatus) 4).trans he⟩

end

/-! ### The stamp queues (R86, R87) -/

/-- An input that has seen an edge reads as it was written. -/
theorem edgeIn_setEdgeIn {s : State} {e l : Nat} {x : EdgeIn} (h : x.last = some l) : edgeIn (setEdgeIn s e x) e = x :=
  Tab.get_set_listed (fun e' => by rw [e'] at h; cases h) _

section
variable {s : State} {x : PinEdge}

theorem edgeShow_changesOnlyRegs (e : Nat) (s : State) :
    ChangesOnlyRegs (regsIn (Reg.posEdgeCfg e) (Reg.posEdgeCfg e + 0x40)) s (edgeShow e s) := by
  refine ChangesOnlyRegs.trans (ChangesOnlyRegs.trans (putF_changesOnlyRegs (regsIn_iff.mpr ?_))
    ((wrQ_changesOnlyRegs _ _ _ _).widen fun a hlo hhi => regsIn_iff.mpr ?_))
    ((wrQ_changesOnlyRegs _ _ _ _).widen fun a hlo hhi => regsIn_iff.mpr ?_)
  all_goals
    simp only [Reg.posEdgeCfg, Reg.posEdgeStatus, Reg.posEdgeHeadT, Reg.posEdgeHeadP] at *
    omega

theorem edgeStamp_changesOnlyRegs (e : Nat) (t : TStamp) (s : State) :
    ChangesOnlyRegs (regsIn (Reg.posEdgeCfg e) (Reg.posEdgeCfg e + 0x40)) s (edgeStamp e t s) := by
  have hstatus : regsIn (Reg.posEdgeCfg e) (Reg.posEdgeCfg e + 0x40) (Reg.posEdgeStatus e) = true :=
    regsIn_iff.mpr (by simp only [Reg.posEdgeCfg, Reg.posEdgeStatus]; omega)
  unfold edgeStamp
  exact .ite (ChangesOnlyRegs.trans (.of_regs (by rfl)) (edgeShow_changesOnlyRegs e _))
    ((putB_changesOnlyRegs hstatus).trans (putF_changesOnlyRegs hstatus))

/-- An edge writes the registers of its input. -/
theorem edgeSeen_changesOnlyRegs (x : PinEdge) (s : State) : ChangesOnlyRegs (regsIn 0x20000 0x20400) s (edgeSeen x s) := by
  have hx := x.input.isLt
  have hin {a : Nat} (hlo : Reg.posEdgeCfg x.input ≤ a) (hhi : a < Reg.posEdgeCfg x.input + 0x40) : regsIn 0x20000 0x20400 a = true :=
    regsIn_iff.mpr (by simp only [Reg.posEdgeCfg] at hlo hhi; omega)
  unfold edgeSeen
  extract_lets e i close u u'
  refine ChangesOnlyRegs.trans (t := u') (.ite (ChangesOnlyRegs.trans (t := u) (.of_regs rfl) (putB_changesOnlyRegs ?_)) (.of_regs rfl))
    (.ite ((edgeStamp_changesOnlyRegs e _ u').widen fun a => hin) (.of_regs rfl))
  exact hin (by simp only [Reg.posEdgeCfg, Reg.posEdgeStatus]; omega) (by simp only [Reg.posEdgeCfg, Reg.posEdgeStatus]; omega)

/-- The instant of an edge is noted. -/
def edgeNoted (x : PinEdge) (s : State) : State := setEdgeIn s x.input { edgeIn s x.input with last := some (edgeAt s x) }

theorem edgeIn_edgeNoted (x : PinEdge) (s : State) :
    edgeIn (edgeNoted x s) x.input = { edgeIn s x.input with last := some (edgeAt s x) } := edgeIn_setEdgeIn (l := edgeAt s x) rfl

theorem edgeSeen_first (hlast : (edgeIn s x.input).last = none) : edgeSeen x s =
    if qualifies s x && s.bit (Reg.posEdgeCfg x.input) 3 then edgeStamp x.input (edgeStampOf s x) (edgeNoted x s) else edgeNoted x s := by
  unfold edgeSeen
  dsimp only
  rw [hlast]
  rfl

theorem edgeSeen_close {l : Nat} (hlast : (edgeIn s x.input).last = some l) (hclose : edgeAt s x < l + 16) :
    edgeSeen x s = (edgeNoted x s).putB (Reg.posEdgeStatus x.input) 6 true := by
  unfold edgeSeen
  dsimp only
  rw [hlast]
  simp [hclose, edgeNoted]

/-- R87: the first qualifying edge of a stamping input is stamped. -/
theorem edgeSeen_stamps (hq : qualifies s x = true) (hs : s.bit (Reg.posEdgeCfg x.input) 3 = true)
    (hroom : (edgeIn s x.input).q.length < 16) (hlast : (edgeIn s x.input).last = none) :
    (edgeIn (edgeSeen x s) x.input).q.map EdgeStamp.t = (edgeIn s x.input).q.map EdgeStamp.t ++ [edgeStampOf s x] := by
  have hshow (u : State) : edgeIn (edgeShow x.input u) x.input = edgeIn u x.input := by
    rw [edgeIn, edgeShow_within.pos rfl, edgeIn]
  rw [edgeSeen_first hlast, if_pos (by rw [hq, hs]; rfl), edgeStamp, edgeIn_edgeNoted, if_pos hroom, hshow,
    edgeIn_setEdgeIn (l := edgeAt s x) rfl, List.map_append]
  rfl

/-- R86: an edge within 4 ns of the one before is an overrun, and is not stamped. -/
theorem edgeSeen_overrun (w : RegsOk s) {l : Nat} (hlast : (edgeIn s x.input).last = some l) (hclose : edgeAt s x < l + 16) :
    (edgeIn (edgeSeen x s) x.input).q = (edgeIn s x.input).q ∧ (edgeSeen x s).bit (Reg.posEdgeStatus x.input) 6 = true := by
  have w1 : RegsOk (edgeNoted x s) := w
  have hin : edgeIn ((edgeNoted x s).putB (Reg.posEdgeStatus x.input) 6 true) x.input = edgeIn (edgeNoted x s) x.input := rfl
  rw [edgeSeen_close hlast hclose, hin, edgeIn_edgeNoted]
  exact ⟨rfl, State.bit_putB_same w1 (by decide)⟩

end

/-! ### The edges of one TCLK (R85 to R92, R596) -/

/-- The counters have taken the edges, and the inputs their stamps. -/
def edgesSeen (es : List PinEdge) (s : State) : State := es.foldl (fun u x => edgeSeen x u) (countersSeen es [0, 1, 2, 3] s)

section
variable {s : State}

/-- With no reference and no event armed nothing follows a step of a counter. -/
theorem pickFollow_idle {es : List PinEdge} {n : Nat} {step : Option Bool} (href : refArmed s n = false)
    (hev : ∀ v : Fin 80, evArmed s v = false) : pickFollow es n step s = s := by
  have hedge : refEdge s n es = none := by
    rw [refEdge, href]
    rfl
  have hon : evsOn s n = [] := List.filter_eq_nil_iff.mpr fun v hv => by simp [hev ⟨v, List.mem_range.mp hv⟩]
  have hchanged (up : Bool) : evsChanged n up s = s := by
    rw [evsChanged, hon]
    rfl
  unfold pickFollow
  rw [hedge]
  cases step with
  | none => rfl
  | some up => exact hchanged up

/-- The counting, without the list of the steps made. -/
theorem foldl_pickSeen_fst (es : List PinEdge) (l : List Nat) (s : State) (steps : List (Option Bool)) :
    (l.foldl (fun (x : State × List (Option Bool)) n => ((pickSeen es n x.1).1, x.2 ++ [(pickSeen es n x.1).2])) (s, steps)).1 =
      countersSeen es l s := by
  induction l generalizing s steps with
  | nil => rfl
  | cons n l ih => exact ih _ _

theorem edgesSeen_changesOnlyRegs {p : Nat → Bool} (h : ∀ n, n < 4 → ∀ a, p a = false → countRun n a = false)
    (h' : ∀ a, 0x20000 ≤ a → a < 0x20400 → p a = true) (es : List PinEdge) (s : State) : ChangesOnlyRegs p s (edgesSeen es s) := by
  refine (countersSeen_changesOnlyRegs es (fun n hn => h n ?_) s).trans
    (foldl_changesOnlyRegs (fun x _ u => (edgeSeen_changesOnlyRegs x u).widen h') _)
  revert n
  decide

theorem edgesSeen_within (es : List PinEdge) (s : State) : Within 67109896 s (edgesSeen es s) :=
  Within.foldl (fun _ _ => edgeSeen_within.step (by decide) (.refl _ _)) (countersSeen_within es _ s)

/-- The registers that edges may write, with no reference and no event armed. -/
def edgeRun (a : Nat) : Bool :=
  a == Reg.chainPickCoalesced || regsIn 0x20000 0x20400 a || (regsIn 0x20800 0x20A00 a && a % 0x80 != 0x18)

theorem edgesSeen_edgeRun (es : List PinEdge) (s : State) : ChangesOnlyRegs edgeRun s (edgesSeen es s) := by
  refine edgesSeen_changesOnlyRegs (fun n hn a ha => ?_) (fun a hlo hhi => ?_) es s
  · simp only [edgeRun, Bool.or_eq_false_iff, Bool.and_eq_false_iff, beq_eq_false_iff_ne, bne_eq_false_iff_eq, regsIn,
      decide_eq_false_iff_not] at ha
    obtain ⟨⟨hco, -⟩, hcount⟩ := ha
    rw [Bool.eq_false_iff, ne_eq, countRun_iff]
    simp only [Reg.posPkStatus, Reg.posPkRef, Reg.posPkLastT0]
    omega
  · simp [edgeRun, regsIn_iff.mpr ⟨hlo, hhi⟩]

theorem edgesSeen_idle (w : RegsOk s) (es : List PinEdge) (href : ∀ n : Fin 4, refArmed s n = false)
    (hev : ∀ v : Fin 80, evArmed s v = false) :
    (∀ n : Fin 4, refArmed (edgesSeen es s) n = false) ∧ ∀ v : Fin 80, evArmed (edgesSeen es s) v = false := by
  have hkeep := edgesSeen_edgeRun es s
  refine ⟨fun n => (hkeep.bit w ?_ 1).trans (href n), fun v => (hkeep.bit w ?_ 0).trans (hev v)⟩
  · revert n
    decide
  · revert v
    decide

/-- The edges of a TCLK, with no reference and no event armed (R85). -/
theorem execEdgeInputEdge_idle (w : RegsOk s) (ht : s.tclk = true) (es : List PinEdge) (href : ∀ n : Fin 4, refArmed s n = false)
    (hev : ∀ v : Fin 80, evArmed s v = false) :
    execEdgeInputEdge es s = .next (edgesSeen ((es.filter (edgeFiltered s)).filter (edgeKept s)) (takeLevels (es.filter (edgeFiltered s)) s)) := by
  unfold execEdgeInputEdge
  rw [if_neg (by simp [ht])]
  have wl : RegsOk (takeLevels (es.filter (edgeFiltered s)) s) := w
  obtain ⟨href', hev'⟩ := edgesSeen_idle wl ((es.filter (edgeFiltered s)).filter (edgeKept s)) href hev
  have hfollow (n : Fin 4) (step : Option Bool) := pickFollow_idle (es := (es.filter (edgeFiltered s)).filter (edgeKept s))
    (step := step) (href' n) hev'
  have hfst := foldl_pickSeen_fst ((es.filter (edgeFiltered s)).filter (edgeKept s)) [0, 1, 2, 3] (takeLevels (es.filter (edgeFiltered s)) s) []
  have hkept : edgeKept (takeLevels (es.filter (edgeFiltered s)) s) = edgeKept s := rfl
  dsimp only
  rw [hkept, hfst]
  simp only [List.foldl_cons, List.foldl_nil]
  exact congrArg _ ((congrArg _ ((congrArg _ ((congrArg _ (hfollow 0 _)).trans (hfollow 1 _))).trans (hfollow 2 _))).trans (hfollow 3 _))

theorem edgesSeen_took (w : RegsOk s) (es : List PinEdge) (n : Fin 4) : CounterTook es n s (edgesSeen es s) :=
  (countersSeen_took es w n).trans_below (regsOk_countersSeen es w _)
    (foldl_changesOnlyRegs (fun x _ u => edgeSeen_changesOnlyRegs x u) _)

/-- The counters leave what the stamp of an input looks at. -/
structure SameForInput (x : PinEdge) (s t : State) : Prop where
  edge : edgeIn t x.input = edgeIn s x.input
  cfg : t.rd (Reg.posEdgeCfg x.input) = s.rd (Reg.posEdgeCfg x.input)
  edgeAt : edgeAt t x = edgeAt s x
  stamp : edgeStampOf t x = edgeStampOf s x

theorem countersSeen_sameForInput (w : RegsOk s) (es : List PinEdge) (x : PinEdge) :
    SameForInput x s (countersSeen es [0, 1, 2, 3] s) := by
  obtain ⟨htb, hnow, hedges⟩ := (countersSeen_onlyPicks es [0, 1, 2, 3] s).fields
  have hbelow : ∀ a, a < 0x20800 → (countersSeen es [0, 1, 2, 3] s).rd a = s.rd a := fun a ha =>
    (countersSeen_changesOnlyRegs es (p := fun a => decide (0x20800 ≤ a)) (fun n hn a h => countRun_false (by revert n; decide)
      (.inl (by simpa using h))) s w).2 a (by simpa using ha)
  have hx := x.input.isLt
  exact ⟨by rw [edgeIn, edgeIn, hedges], hbelow _ (by simp only [Reg.posEdgeCfg]; omega), by rw [edgeAt, edgeAt, hnow],
    edgeStampOf_congr htb (fun a ha => hbelow a (by omega)) x⟩

/-- The stamp queue of the input of the one edge of a TCLK (R86, R87). -/
theorem edgesSeen_single (w : RegsOk s) {x : PinEdge} (hq : qualifies s x = true) (hs : s.bit (Reg.posEdgeCfg x.input) 3 = true)
    (hroom : (edgeIn s x.input).q.length < 16) :
    ((edgeIn s x.input).last = none →
      (edgeIn (edgesSeen [x] s) x.input).q.map EdgeStamp.t = (edgeIn s x.input).q.map EdgeStamp.t ++ [edgeStampOf s x]) ∧
    (∀ l, (edgeIn s x.input).last = some l → edgeAt s x < l + 16 →
      (edgeIn (edgesSeen [x] s) x.input).q = (edgeIn s x.input).q ∧ (edgesSeen [x] s).bit (Reg.posEdgeStatus x.input) 6 = true) := by
  obtain ⟨hedge, hcfg, hat, hstamp⟩ := countersSeen_sameForInput w [x] x
  have hq' : qualifies (countersSeen [x] [0, 1, 2, 3] s) x = true := by
    rw [qualifies, State.bit_of_rd hcfg, State.fld_of_rd hcfg]
    exact hq
  have hs' := (State.bit_of_rd hcfg 3).trans hs
  refine ⟨fun hlast => ?_, fun l hlast hclose => ?_⟩
  · have h := edgeSeen_stamps hq' hs' (by rw [hedge]; exact hroom) (by rw [hedge]; exact hlast)
    rw [hedge, hstamp] at h
    exact h
  · have h := edgeSeen_overrun (regsOk_countersSeen [x] w _) (hedge ▸ hlast) (by rw [hat]; exact hclose)
    rw [hedge] at h
    exact h

end


/-- R596: while TCLK is stopped only the levels change. -/
theorem inputEdge_stopped {s : State} (hk : s.Kept) (ht : s.tclk = false) (es : List PinEdge) :
    exec (.edgeInputEdge es) s = .next (takeLevels es s) :=
  inContract_kept hk (by exact hk) (if_pos (by simp [ht]))

theorem inputEdge_idle {s : State} (hk : s.Kept) (ws : s.wf = true) (ht : s.tclk = true) (es : List PinEdge)
    (href : ∀ n : Fin 4, refArmed s n = false) (hev : ∀ v : Fin 80, evArmed s v = false) :
    exec (.edgeInputEdge es) s =
      .next (edgesSeen ((es.filter (edgeFiltered s)).filter (edgeKept s)) (takeLevels (es.filter (edgeFiltered s)) s)) :=
  inContract_kept hk (kept_of_contract ((edgesSeen_within _ _).contract rfl) (by exact hk))
    (execEdgeInputEdge_idle (State.wf_regs ws) ht es href hev)

/-- Settles O21: the edges of a TCLK with TCLK stopped and running, and the steps of each mode. -/
theorem edgesMoveTheCounters : Obligations.EdgesMoveTheCounters := by
  refine ⟨fun s es hk ws => ⟨fun ht => inputEdge_stopped hk ht es, fun ht href hev => ?_⟩, fun s n x y hx hy hne hinv => ?_⟩
  · have wl : RegsOk (takeLevels (es.filter (edgeFiltered s)) s) := State.wf_regs ws
    refine ⟨_, inputEdge_idle hk ws ht es href hev, (edgesSeen_within _ _).pins rfl, fun n => edgesSeen_took wl _ n,
      fun x hes hfilt hkept hq hs hroom => ?_⟩
    have hnow : es.filter (edgeFiltered s) = [x] := by rw [hes, List.filter_singleton, hfilt]; rfl
    have hseen : (es.filter (edgeFiltered s)).filter (edgeKept s) = [x] := by rw [hnow, List.filter_singleton, hkept]; rfl
    rw [hseen]
    exact edgesSeen_single wl hq hs hroom
  · have hxb : x.input.val ≠ s.fld (Reg.posPkCfg n) 7 4 := fun e => hne (hx.symm.trans e)
    have hya : y.input.val ≠ s.fld (Reg.posPkCfg n) 3 4 := fun e => hne (e.symm.trans hy)
    obtain ⟨hab, h0⟩ := pickDelta_both hx hxb hy
    obtain ⟨ha, ha1, ha4, ha4'⟩ := pickDelta_a hx hxb hinv
    obtain ⟨hb, hb'⟩ := pickDelta_b hya hy hinv
    exact ⟨hab, ha, hb, ha1, hb', ha4, ha4', h0⟩

end Sys2Proof.Machine
end

section
/-! SUPPORT. Insertion of points and the buffers of a grid (R127 to R143, R341 to R343): where in a buffer an insertion writes, and
what the commands of the intake leave. -/

namespace Sys2Proof.Machine

/-! ### The layout of a buffer (R130, R341, R342) -/

section
variable {x : Grid} {i : Nat}

/-- The byte of the region map with the bit of a block of the window lies before the block pool. -/
theorem Grid.mapByte_lt (h : i < x.nblocks) : 128 + i / 8 < x.bufSize := by
  simp only [Grid.bufSize, Grid.offPoints, Grid.offKeys, Grid.offBricks, Grid.offBlocks, Grid.mapSize]
  omega

theorem Grid.blockRecord_le (h : i < x.capBlocks) : x.offBlocks + i * 1088 + 1088 ≤ x.bufSize := by
  simp only [Grid.bufSize, Grid.offPoints, Grid.offKeys, Grid.offBricks]
  omega

theorem Grid.brickRecord_le (h : i < x.capBricks) : x.offBricks + i * 2112 + 2112 ≤ x.bufSize := by
  simp only [Grid.bufSize, Grid.offPoints, Grid.offKeys]
  omega

theorem Grid.keyEntry_le (h : i < x.capKeys) : x.offKeys + i * 16 + 16 ≤ x.bufSize := by
  simp only [Grid.bufSize, Grid.offPoints]
  omega

theorem Grid.pointRecord_le (h : i < x.capPoints) : x.offPoints + i * 32 + 32 ≤ x.bufSize := by
  simp only [Grid.bufSize]
  omega

theorem Grid.header_le (x : Grid) : 128 ≤ x.bufSize := by
  simp only [Grid.bufSize, Grid.offPoints, Grid.offKeys, Grid.offBricks, Grid.offBlocks]
  omega

end

@[simp] theorem Grid.setBuf_addr (x : Grid) (b : Nat) (v : GridBuf) (c : Nat) : (x.setBuf b v).addr c = x.addr c := by
  unfold Grid.setBuf
  split <;> rfl

theorem voxBrick_lt (v : List Nat) : voxBrick v < 512 := by
  unfold voxBrick
  omega

theorem voxVoxel_lt (v : List Nat) : voxVoxel v < 512 := by
  unfold voxVoxel
  omega

/-! ### What the writes of an insertion change -/

theorem putEngine_changesOnlyBytes (a : Nat) (bs : List Byte) (s : State) : ChangesOnlyBytes a bs.length s (putEngine a bs s) :=
  ChangesOnlyBytes.trans (t := engineGuard [] a bs.length s) engineGuard_within.changesOnlyBytes (putBytes_changesOnlyBytes _ a bs)

theorem putNat_changesOnlyBytes (a n v : Nat) (s : State) : ChangesOnlyBytes a n s (putNat a n v s) := by
  have h := putEngine_changesOnlyBytes a (natLe n v) s
  rwa [natLe_length] at h

theorem putZeros_changesOnlyBytes (a n : Nat) (s : State) : ChangesOnlyBytes a n s (putEngine a (zeros n) s) := by
  have h := putEngine_changesOnlyBytes a (zeros n) s
  rwa [zeros, List.length_replicate] at h

theorem ChangesOnlyBytes.unless {a n : Nat} {s t : State} (c : Bool) (h : ChangesOnlyBytes a n s t) :
    ChangesOnlyBytes a n s (if c then s else t) := by
  cases c
  · exact h
  · exact (Within.refl 0 s).changesOnlyBytes

theorem setMemBit_changesOnlyBytes (a i : Nat) (s : State) : ChangesOnlyBytes (a + i / 8) 1 s (setMemBit a i s) :=
  putEngine_changesOnlyBytes (a + i / 8) [_] s

theorem headerCounts_changesOnlyBytes (x : Grid) (b : Nat) (s : State) : ChangesOnlyBytes (x.addr b + 0x38) 24 s (headerCounts x b s) := by
  have h := putEngine_changesOnlyBytes (x.addr b + 0x38) (natLe 4 (x.buf b).keys ++ natLe 4 (x.buf b).points ++
    natLe 4 (x.buf b).blocks ++ natLe 4 (x.buf b).bricks ++ natLe 4 (x.buf b).flags ++ natLe 4 (x.buf b).lost) s
  simp only [List.length_append, natLe_length] at h
  exact h

/-- The step that closes every insertion: a grid and its header with new counts, and a counter of the context. -/
theorem gridShown_changesOnlyBytes (x : Grid) (g b r : Nat) (v : GridBuf) (s : State) :
    ChangesOnlyBytes (x.addr b) x.bufSize s ((headerCounts (x.setBuf b v) b (setGrid g (x.setBuf b v) s)).sat r) := by
  have hsize := x.header_le
  have hhead := headerCounts_changesOnlyBytes (x.setBuf b v) b (setGrid g (x.setBuf b v) s)
  rw [Grid.setBuf_addr] at hhead
  exact (setGrid_within.changesOnlyBytes.trans (hhead.widen (by omega) (by omega))).trans State.sat_within.changesOnlyBytes

theorem pointCoords_length {rel : List W32} (h : rel.length = 3) : (rel.flatMap fun w => natLe 4 w.toNat).length = 12 := by
  simp [List.length_flatMap, natLe_length, h]

/-! ### The records that an insertion writes stay in the buffer -/

section
variable {x : Grid} {b bn j brk vo key : Nat}

theorem newBlock_changesOnlyBytes (hmap : bn < x.nblocks) (hbn : bn < x.capBlocks) (s : State) :
    ChangesOnlyBytes (x.addr b) x.bufSize s
      (setMemBit (x.addr b + 128) bn (putEngine (x.addr b + x.offBlocks + bn * 1088) (zeros 64) s)) := by
  have hbit := Grid.mapByte_lt hmap
  have hrecord := Grid.blockRecord_le hbn
  exact ((putZeros_changesOnlyBytes _ 64 s).widen (by omega) (by omega)).trans
    ((setMemBit_changesOnlyBytes _ bn _).widen (by omega) (by omega))

theorem newBrick_changesOnlyBytes (hbn : bn < x.capBlocks) (hj : j < 512) (hbrk : brk < x.capBricks) (s : State) :
    ChangesOnlyBytes (x.addr b) x.bufSize s
      (setMemBit (x.addr b + x.offBlocks + bn * 1088) j
        (putNat (x.addr b + x.offBlocks + bn * 1088 + 0x40 + 2 * j) 2 brk
          (putEngine (x.addr b + x.offBricks + brk * 2112) (zeros 64) s))) := by
  have hblock := Grid.blockRecord_le hbn
  have hrecord := Grid.brickRecord_le hbrk
  exact (((putZeros_changesOnlyBytes _ 64 s).widen (by omega) (by omega)).trans
    ((putNat_changesOnlyBytes _ 2 brk _).widen (by omega) (by omega))).trans
    ((setMemBit_changesOnlyBytes _ j _).widen (by omega) (by omega))

theorem newVoxel_changesOnlyBytes (hbrk : brk < x.capBricks) (hvo : vo < 512) (s : State) :
    ChangesOnlyBytes (x.addr b) x.bufSize s
      (setMemBit (x.addr b + x.offBricks + brk * 2112) vo
        (putNat (x.addr b + x.offBricks + brk * 2112 + 0x40 + 4 * vo) 4 key s)) := by
  have hrecord := Grid.brickRecord_le hbrk
  exact ((putNat_changesOnlyBytes _ 4 key s).widen (by omega) (by omega)).trans
    ((setMemBit_changesOnlyBytes _ vo _).widen (by omega) (by omega))

/-- A number of `n` bytes in the entry of a key. -/
theorem keyNumber_changesOnlyBytes (hkey : key < x.capKeys) {o n : Nat} (ho : o + n ≤ 16) (v : Nat) (s : State) :
    ChangesOnlyBytes (x.addr b) x.bufSize s (putNat (x.addr b + x.offKeys + key * 16 + o) n v s) := by
  have hentry := Grid.keyEntry_le hkey
  exact (putNat_changesOnlyBytes _ n v s).widen (by omega) (by omega)

/-- The mark in the entry of a key that points of its voxel were lost (R134). -/
theorem keyMark_changesOnlyBytes (hkey : key < x.capKeys) (s : State) :
    ChangesOnlyBytes (x.addr b) x.bufSize s (setMemBit (x.addr b + x.offKeys + key * 16) 63 s) := by
  have hentry := Grid.keyEntry_le hkey
  exact (setMemBit_changesOnlyBytes _ 63 s).widen (by omega) (by omega)

theorem pointRecord_changesOnlyBytes {n : Nat} (hn : n < x.capPoints) {bs : List Byte} (hbs : bs.length = 32) (s : State) :
    ChangesOnlyBytes (x.addr b) x.bufSize s (putEngine (x.addr b + x.offPoints + n * 32) bs s) := by
  have hrecord := Grid.pointRecord_le hn
  exact (putEngine_changesOnlyBytes _ bs s).widen (by omega) (by omega)

end

/-- R130, R134, R341 to R343: an insertion changes no byte outside its buffer. A voxel present in the buffer has its brick and key
below the capacities by what the buffer holds; a new one by the room that is left, without which the point is lost. -/
theorem insertPoint_changesOnlyBytes {s : State} {g b ctx : Nat} {p : Voxel} {x : Grid} (hg : gridOf s g = some x)
    (hrel : p.rel.length = 3) (hwin : voxBlock x p.vox < x.nblocks)
    (hbricks : ∀ i, i < x.capBlocks → ∀ j, j < 512 → s.leMem (x.addr b + x.offBlocks + i * 1088 + 0x40 + 2 * j) 2 < x.capBricks)
    (hkeys : ∀ i, i < x.capBricks → ∀ j, j < 512 → s.leMem (x.addr b + x.offBricks + i * 2112 + 0x40 + 4 * j) 4 < x.capKeys) :
    ChangesOnlyBytes (x.addr b) x.bufSize s (insertPoint g b ctx p s) := by
  unfold insertPoint
  rw [hg]
  dsimp -zeta only
  extract_lets a v bn j vo blkA hasBlk hasBrk brk brkA hasKey key keyA full sLost xLost s1 s2 s3 older n s4 s5 s6 xKept
  have hj : j < 512 := voxBrick_lt _
  have hvo : vo < 512 := voxVoxel_lt _
  have hblk (h : hasBlk = true) : bn < x.capBlocks := of_decide_eq_true (Bool.and_eq_true_iff.mp h).1
  have hbrk (h : hasBrk = true) : brk < x.capBricks := by
    simp only [brk, if_pos h]
    exact hbricks bn (hblk (Bool.and_eq_true_iff.mp h).1) j hj
  have hkey (h : hasKey = true) : key < x.capKeys := by
    simp only [key, if_pos h]
    exact hkeys brk (hbrk (Bool.and_eq_true_iff.mp h).1) vo hvo
  split
  case isTrue =>
    have hlost : ChangesOnlyBytes (x.addr b) x.bufSize s sLost := by
      simp only [sLost]
      split
      · next h => exact keyMark_changesOnlyBytes (hkey h) s
      · exact (Within.refl 0 s).changesOnlyBytes
    exact (hlost.trans State.putB_within.changesOnlyBytes).trans (gridShown_changesOnlyBytes x g b _ _ _)
  case isFalse hfull =>
    obtain ⟨⟨hnewKey, hpoints⟩, hnewBrick, hbn⟩ : ((hasKey = false → v.keys < x.capKeys) ∧ v.points < x.capPoints) ∧
        (hasBrk = false → v.bricks < x.capBricks) ∧ bn < x.capBlocks := by
      simpa [full, and_assoc] using hfull
    have hbrkRoom : brk < x.capBricks := by
      cases h : hasBrk
      · simpa [brk, h] using hnewBrick h
      · exact hbrk h
    have hkeyRoom : key < x.capKeys := by
      cases h : hasKey
      · simpa [key, h] using hnewKey h
      · exact hkey h
    have hmap : ChangesOnlyBytes (x.addr b) x.bufSize s s3 :=
      ((ChangesOnlyBytes.unless hasBlk (newBlock_changesOnlyBytes hwin hbn s)).trans
        (.unless hasBrk (newBrick_changesOnlyBytes hbn hj hbrkRoom s1))).trans
        (.unless hasKey (newVoxel_changesOnlyBytes hbrkRoom hvo s2))
    have hentry : ChangesOnlyBytes (x.addr b) x.bufSize s3 s5 :=
      ((ChangesOnlyBytes.unless hasKey (keyNumber_changesOnlyBytes (o := 0) hkeyRoom (by decide) _ s3)).trans
        (keyNumber_changesOnlyBytes hkeyRoom (by decide) _ s4)).trans (keyNumber_changesOnlyBytes hkeyRoom (by decide) _ _)
    have hpoint : ChangesOnlyBytes (x.addr b) x.bufSize s5 s6 :=
      pointRecord_changesOnlyBytes hpoints (by simp only [List.length_append, natLe_length, pointCoords_length hrel]) s5
    exact ((hmap.trans hentry).trans hpoint).trans (gridShown_changesOnlyBytes x g b _ _ _)

/-! ### The commands of the intake -/

section
variable {s : State}

theorem execPointInsertion_takes {f : PointFrame} (hf : s.intake.frames.find? (fun f => windowOpen s f.part) = some f)
    (hc : s.cclk = true) (ht : templateOutside (templateOf s (ctxOf s f.ctx).sel) = none) :
    execPointInsertion s = .next ((packetPoints (templateOf s (ctxOf s f.ctx).sel)).foldl
      (takePoint f (templateOf s (ctxOf s f.ctx).sel) (ctxOf s f.ctx).mount)
      { s with intake := { s.intake with frames := s.intake.frames.erase f } }) := by
  simp [execPointInsertion, hf, hc, ht]
  rfl

theorem execImageBlockTimeout_ends {x : Fin 4096} (hc : s.cclk = true) (hi : (ctxOf s x).img.isSome = true)
    (ho : imageOutside s x = false) (hw : engWaits s (ringRange s (ctxOf s x).queue) = false) :
    execImageBlockTimeout x s = .next (endBlock x (engGo (ringRange s (ctxOf s x).queue) s)) := by
  simp [execImageBlockTimeout, ← Option.not_isSome, hi, hc, ho, engAccess_go hw]

theorem execImageBlockTimeout_outside {x : Fin 4096} (hc : s.cclk = true) (hi : (ctxOf s x).img.isSome = true)
    (ho : imageOutside s x = true) : execImageBlockTimeout x s = .outside 143 := by
  simp [execImageBlockTimeout, ← Option.not_isSome, hi, hc, ho, oc]

end

/-! ### The commands of a grid's buffers (R135 to R138) -/

section
variable {s : State} {g : Fin 64} {x : Grid} (hg : gridOf s g = some x)
include hg

/-- R135: a STALLED grid, and one whose partition is not ENABLED, stays as it is (log entry 54). -/
theorem gridFlip_idle (h : x.find .open = none ∨ ptEnabled s x.part = false) (t : TStamp) : gridFlip g t s = s := by
  rw [gridFlip, hg]
  dsimp only
  split
  · rfl
  · next hopen =>
    have hpt : ptEnabled s x.part = false := h.resolve_left (by simp [hopen])
    exact if_pos (by simp [hpt])

theorem execGridBufferClosed_shows {b : Nat} (hc : s.cclk = true) (hb : x.find .closing = some b) (hp : bufPending s g b = false) :
    let y := x.setBuf b { x.buf b with st := if (x.buf b).released then .clearing else .closed, flags := (x.buf b).flags ||| 1 }
    execGridBufferClosed g s = .next (setGrid g y (headerCounts y b s)) := by
  simp [execGridBufferClosed, hg, hb, onlyIf, hc, hp]

/-- R138: the element at the head of the release queue is taken, and the grids that have this queue are searched for the buffer it
names. -/
theorem execGridRelease_takes {e : List Byte} (hc : s.cclk = true) (hq : qCons s x.releaseQ = 3)
    (he : qPeek s x.releaseQ = some e) (hw : engWaits s (takeRange s x.releaseQ) = false) :
    let v := leNat (e.take 8)
    let s1 := qTake x.releaseQ (engGo (takeRange s x.releaseQ) s)
    let gs := s1.intake.grids.filter fun e => e.2.releaseQ == x.releaseQ
    (∀ h, gs.find? (fun e => (e.2.releasable v).isSome) = some h →
      execGridRelease g s = .next (gridFree h.1 ((h.2.releasable v).getD 0) s1)) ∧
    (gs.find? (fun e => (e.2.releasable v).isSome) = none →
      execGridRelease g s = .next (gs.foldl (fun s e => s.putB (Reg.intakeGridStatus e.1) 4 true) s1)) := by
  intro v s1 gs
  simp only [execGridRelease, hg, he, engAccess_go hw]
  rw [if_neg (by simp [hc, hq])]
  refine ⟨fun h hfind => ?_, fun hfind => ?_⟩
  · simp only [gs, s1, v] at hfind ⊢
    rw [hfind]
  · simp only [gs, s1, v] at hfind ⊢
    rw [hfind]

theorem execGridClearDone_readies {b : Nat} (hc : s.cclk = true) (hb : x.find .clearing = some b) :
    let y := x.setBuf b .ready
    let s1 := setGrid g y (clearBuf x b s)
    execGridClearDone g s = .next (if y.find .open = none ∧ ptEnabled s1 x.part = true then gridOpen g b true (nowStamp s1) s1 else s1) := by
  simp [execGridClearDone, hg, hb, onlyIf, hc]

end

/-- Settles O26: insertion, the rows of an image block, and the buffers of a grid. -/
theorem insertionAndGrids : Obligations.InsertionAndGrids := by
  refine ⟨fun s hk hc => ⟨fun f hf => ?_, fun x hi ho hw => ?_, fun x hi ho => ?_⟩,
    fun s g b ctx p x w hg _ hrel hwin hbricks hkeys a ha => ?_,
    fun s g x hk hg => ⟨fun ho => ?_, gridFlip_idle hg, fun b hc hb hp => ?_, fun e hc hq he hw => ?_, fun b hc hb => ?_⟩⟩
  · exact fun ht => inContract_next hk (execPointInsertion_takes hf hc ht)
  · exact inContract_next hk (execImageBlockTimeout_ends hc hi ho hw)
  · exact inContract_leave hk (execImageBlockTimeout_outside hc hi ho)
  · exact (insertPoint_changesOnlyBytes hg hrel hwin hbricks hkeys w).2 a ha
  · exact inContract_next hk (hostWrite_of_takes ho)
  · exact inContract_next hk (execGridBufferClosed_shows hg hc hb hp)
  · obtain ⟨hreleased, hmismatch⟩ := execGridRelease_takes hg hc hq he hw
    exact ⟨fun h hfind => inContract_within hk execGridRelease_within (by decide) (hreleased h hfind),
      fun hfind => inContract_within hk execGridRelease_within (by decide) (hmismatch hfind)⟩
  · exact inContract_next hk (execGridClearDone_readies hg hc hb)

end Sys2Proof.Machine
end

section
/-! SUPPORT. A word that changes nothing but its core (R194): how such changes compose, and how a word without a taken branch ends. -/

namespace Sys2Proof.Machine

/-! ### Changes of one core compose -/

theorem Part.same_trans {s t u : State} (p : Part) (h : p.same s t) (h' : p.same t u) : p.same s u := by
  cases p <;> exact Eq.trans h' h

theorem OnlyCore.refl {k : CoreId} {s : State} {c : CoreSt} (h : core s k = c) : OnlyCore k s s c [] :=
  ⟨h, fun _ _ => rfl, fun _ _ _ => rfl, fun p _ => (Within.refl 0 s).same p (Nat.zero_testBit _)⟩

theorem OnlyCore.trans {k : CoreId} {s t u : State} {c c' : CoreSt} {l l' : List Nat} (h : OnlyCore k s t c l)
    (h' : OnlyCore k t u c' l') : OnlyCore k s u c' (l ++ l') := by
  obtain ⟨-, hothers, hregs, hparts⟩ := h
  obtain ⟨hcore', hothers', hregs', hparts'⟩ := h'
  refine ⟨hcore', fun j hj => (hothers' j hj).trans (hothers j hj), fun x hx hl => ?_, fun p hp => p.same_trans (hparts p hp) (hparts' p hp)⟩
  rw [List.mem_append, not_or] at hl
  exact (hregs' x hx hl.2).trans (hregs x hx hl.1)

/-- A word that is complete after changes of its core alone. -/
theorem OnlyCore.wordDone {k : CoreId} {s t u : State} {c c' : CoreSt} {l l' : List Nat} (h : OnlyCore k s t c l)
    (h' : WordDone k t u c' l') (hpc : c.pc = (core s k).pc) : WordDone k s u c' (l ++ l') := by
  obtain ⟨honly, hat, hbit⟩ := h'
  refine ⟨h.trans honly, ?_, hbit⟩
  rw [hat, h.1, hpc]

/-- A change of the trace, and of registers that an issue may change. -/
theorem OnlyCore.of_within {k : CoreId} {M : Nat} {s t : State} (hs : s.wf = true) (hin : Within M s t)
    (hregs : ChangesOnlyRegs (issueRegs k) s t) (hM : Nat.land M 2097160 = M) : OnlyCore k s t (core s k) [] := by
  have hcores : t.cores = s.cores := hin.cores (testBit_of_sub hM (by decide))
  refine ⟨core_of_cores hcores k, fun j _ => core_of_cores hcores j, fun x hx _ => (hregs (State.wf_regs hs)).2 x hx, ?_⟩
  exact (Within.step (M := 2105352) hin (sub_trans hM (by decide)) (Within.refl _ _)).same_of_not_mem (by decide)

theorem setCore_onlyCore {s : State} (hs : s.wf = true) (k : CoreId) (c : CoreSt) : OnlyCore k s (setCore s k c) c [] :=
  ⟨core_setCore_same hs k c, fun _ hj => core_setCore_ne hs (fun e => hj (Fin.ext e)) c, fun _ _ _ => rfl,
    setCore_within.same_of_not_mem (by decide)⟩

theorem syncDue_onlyCore {s : State} (hs : s.wf = true) (k : CoreId) : OnlyCore k s (syncDue k s) (core s k) [] :=
  .of_within hs syncDue_within (syncDue_changesOnlyRegs k s) (by decide)

theorem core_arrived (k : Nat) (w : IWord) (s : State) (j : Nat) : core (arrived k w s) j = core s j :=
  core_of_cores (arrived_within.cores rfl) j

theorem arrived_of_noAccess {k : Nat} {w : IWord} (h : adrBytes (adrOp w) = 0) (s : State) : arrived k w s = s := if_pos h

/-- What the issue of a word does before its effects. -/
theorem entryState_onlyCore {s : State} (hs : s.wf = true) (k : CoreId) (w : IWord) :
    OnlyCore k (arrived k w s) (entryState k w s) (core s k) [] := by
  have h := syncDue_onlyCore (k := k) (arrived_within.wf hs : (arrived k w s).wf = true)
  rwa [core_arrived] at h

/-- The registers of other blocks, of other cores' included, are none that an issue changes. -/
theorem issueRegs_outside {k x : Nat} (h : x < 0x2700000)
    (hpc : x ≠ Reg.corePc k) (hpc4 : x ≠ Reg.corePc k + 4) (hst : x ≠ Reg.coreStatus k) : issueRegs k x = false := by
  have hstatus : x ≠ Reg.traceStatus := by simp only [Reg.traceStatus]; omega
  have hdrops : x ≠ Reg.traceDrops := by simp only [Reg.traceDrops]; omega
  have hpmc : ¬Reg.pmcSel 0 ≤ x := by simp only [Reg.pmcSel]; omega
  simp [issueRegs, hpc, hpc4, hst, hstatus, hdrops, hpmc]

/-! ### The end of a word without a taken branch -/

/-- The branch field is empty, or holds GBAR or SLEEP: the next word follows. -/
def FallsThrough (w : IWord) : Prop := brOp w = 0 ∨ brOp w = 0x10 ∨ brOp w = 0x11

/-- The state of a word whose registers have been written and whose core stands at the next word. -/
def regsWritten (k : CoreId) (ws : List Writes) (entry : CoreSt) (s : State) : State :=
  pmcCount 0x02 k 1 ((setCore (setCore s k (ws.foldl CoreSt.apply (core s k))) k (coreAfter ws entry (core s k))).putB
    (Reg.coreStatus k) 6 false)

section
variable {k : CoreId} {w : IWord} {entry : CoreSt} {ws : List Writes} {s : State}

theorem finishWord_fallsThrough (hs : s.wf = true) (hw : FallsThrough w) (hun : unwait k s = s) (refused : Bool) :
    finishWord k w entry ws refused s =
      endWord k w entry.pc (if refused then some (tqQ w) else none) (regsWritten k ws entry s) := by
  have hop : brOp w ≠ 0x08 ∧ brOp w ≠ 0x0A ∧ brOp w ≠ 0x0B := by
    rcases hw with h | h | h <;> rw [h] <;> decide
  obtain ⟨h8, hA, hB⟩ := hop
  have htaken : brTaken w entry = none := by
    rcases hw with h | h | h <;> simp [brTaken, h]
  have hregs : (ws ++ [brWrites w entry]).foldl CoreSt.apply (core s k) = ws.foldl CoreSt.apply (core s k) := by
    rw [List.foldl_append, brWrites, if_neg (by simp [h8, hA])]
    rfl
  have hbranch (t : State) : brEffect k w entry t = setCore t k { core t k with pc := entry.pc + 64 } := by
    simp [brEffect, brNext, htaken, hB]
  rw [finishWord, hun]
  rw [hregs, hbranch, core_setCore_same hs]
  rfl

theorem regsWritten_within : Within 8200 s (regsWritten k ws entry s) :=
  Within.step pmcCount_within (by decide) (Within.step State.putB_within (by decide)
    (Within.step setCore_within (by decide) (Within.step setCore_within (by decide) (Within.refl _ _))))

theorem regsWritten_changesOnlyRegs : ChangesOnlyRegs (issueRegs k) s (regsWritten k ws entry s) :=
  ((ChangesOnlyRegs.of_regs (by rfl)).trans (putB_changesOnlyRegs (issueRegs_coreStatus k))).trans (pmcCount_changesOnlyRegs _ _ _ _ _)

theorem regsWritten_onlyCore (hs : s.wf = true) : OnlyCore k s (regsWritten k ws entry s) (coreAfter ws entry (core s k)) [] := by
  have hs1 : (setCore s k (ws.foldl CoreSt.apply (core s k))).wf = true := setCore_within.wf hs
  have hcores : (regsWritten k ws entry s).cores =
      (setCore (setCore s k (ws.foldl CoreSt.apply (core s k))) k (coreAfter ws entry (core s k))).cores := by
    rw [regsWritten, pmcCount_within.cores rfl, State.putB_within.cores rfl]
  refine ⟨?_, fun j hj => ?_, fun x hx _ => (regsWritten_changesOnlyRegs (State.wf_regs hs)).2 x hx,
    regsWritten_within.same_of_not_mem (by decide)⟩
  · rw [core_of_cores hcores, core_setCore_same hs1]
  · have hne : j.val ≠ k.val := fun e => hj (Fin.ext e)
    rw [core_of_cores hcores, core_setCore_ne hs1 hne, core_setCore_ne hs hne]

/-- A word whose registers have been written is not blocked. -/
theorem regsWritten_blocked (hs : s.wf = true) : (regsWritten k ws entry s).bit (Reg.coreStatus k) 6 = false := by
  have hw : RegsOk (setCore (setCore s k (ws.foldl CoreSt.apply (core s k))) k (coreAfter ws entry (core s k))) :=
    State.wf_regs (s := s) hs
  have hlow : isTraceReg (Reg.coreStatus k) = false := by
    have := k.isLt
    simp only [isTraceReg, Reg.coreStatus, decide_eq_false_iff_not]
    omega
  rw [regsWritten, (pmcCount_isTraceReg _ _ _ _).bit (regsOk_putB hw) hlow, State.bit_putB_same hw (by decide)]

/-- CORE_PC takes the address of the word that is complete. -/
theorem wordDone_completes (hs : s.wf = true) (hbit : s.bit (Reg.coreStatus k) 6 = false) {pc : W64} {c : CoreSt} {s0 : State} {l : List Nat}
    (h0 : OnlyCore k s0 s c l) (hpc : pc = (core s0 k).pc) : WordDone k s0 (wordDone k pc none s) c l := by
  have hregs := State.wf_regs hs
  have hpcreg : ChangesOnlyRegs (issueRegs k) s (s.wrQ (Reg.corePc k) 2 pc.toNat) :=
    wrQ_two_changesOnlyRegs (issueRegs_corePc k) (issueRegs_corePc_high k)
  have hcores : (s.wrQ (Reg.corePc k) 2 pc.toNat).cores = s.cores := State.wrQ_within.cores rfl
  have honly : OnlyCore k s (s.wrQ (Reg.corePc k) 2 pc.toNat) (core s k) [] :=
    .of_within hs State.wrQ_within hpcreg (by decide)
  rw [h0.1] at honly
  refine ⟨(List.append_nil l).subst (motive := OnlyCore k s0 _ c) (h0.trans honly), ?_, ?_⟩
  · show (s.wrQ (Reg.corePc k) 2 pc.toNat).rdQ (Reg.corePc k) 2 = _
    rw [State.rdQ_wrQ_two hregs, Nat.mod_eq_of_lt pc.isLt, hpc]
  · show (s.wrQ (Reg.corePc k) 2 pc.toNat).bit (Reg.coreStatus k) 6 = _
    rw [State.bit_of_rd (State.rd_wrQ_ne hregs (.inl (by simp only [Reg.coreStatus, Reg.corePc]; omega))), hbit]

/-- A word without a branch is complete. -/
theorem finishWord_plain_wordDone (hs : s.wf = true) (hwait : (core s k).wait = .none) (hbr : brOp w = 0)
    (hpc : entry.pc = (core s k).pc) : WordDone k s (finishWord k w entry ws false s) (coreAfter ws entry (core s k)) [] := by
  have hwait' : (core (regsWritten k ws entry s) k).wait = .none := by
    rw [(regsWritten_onlyCore hs).1]
    exact (foldl_apply_wait ws (core s k)).trans hwait
  have hend (t : State) (ht : (core t k).wait = .none) : endWord k w entry.pc none t = wordDone k entry.pc none t := by
    simp [endWord, ht, hbr]
  rw [finishWord_fallsThrough hs (.inl hbr) (unwait_of_none hwait)]
  exact hend _ hwait' ▸ wordDone_completes (regsWritten_within.wf hs) (regsWritten_blocked hs) (regsWritten_onlyCore hs) hpc

/-- The word v of core k, as s has it, ends with register results after its operation has left t. -/
def wordEnd (k : CoreId) (v : IWord) (ws : List Writes) (s t : State) : State := finishWord k v (core s k) ws false t

/-- The end of a word changes its core and what an issue may change. -/
theorem wordEnd_onlyCore {t : State} (ht : t.wf = true) (hwait : (core t k).wait = .none) (hbr : brOp w = 0) :
    OnlyCore k t (wordEnd k w ws s t) (coreAfter ws (core s k) (core t k)) [] := finishWord_plain_onlyCore ht hwait hbr

/-- A word that has left no more than a change of its core is complete. -/
theorem wordEnd_wordDone {s0 t : State} {c : CoreSt} {l : List Nat} (ht : t.wf = true) (h : OnlyCore k s0 t c l) (hbr : brOp w = 0)
    (hwait : c.wait = .none) (hpc : c.pc = (core s k).pc) (hpc0 : (core s0 k).pc = (core s k).pc) :
    WordDone k s0 (wordEnd k w ws s t) (coreAfter ws (core s k) c) l := by
  have hcore : core t k = c := h.1
  have hdone := finishWord_plain_wordDone (ws := ws) (entry := core s k) ht (hcore.symm ▸ hwait) hbr (by rw [hcore, hpc])
  rw [hcore] at hdone
  have hall := h.wordDone hdone (hpc.trans hpc0.symm)
  rw [List.append_nil] at hall
  exact hall

end

end Sys2Proof.Machine
end

section
/-! SUPPORT. Loads, AUPD and FENCE (R157, R196, R203, R489, R490): a word whose only operation is in the address field and stores
nothing. -/

namespace Sys2Proof.Machine

/-! ### What a read by an agent gives -/

/-- An access outside companion memory is charged to no meter (R491). -/
theorem meterCharge_outside_comp {ag : Agent} {a : Nat} (n : Nat) {s : State} (hc : inComp a = false) : meterCharge ag a n s = s := by
  unfold meterCharge
  split
  · rfl
  · rw [if_neg (by simp [hc])]

/-- A read of the on-die stores that may be performed gives their bytes and changes nothing. -/
theorem busRead_onDie {s : State} {k : CoreId} {a n : Nat} (h : onDieOk s k false a n = true) :
    busRead (.core k) a n s = (s.bytes a n, s) := by
  simp only [onDieOk, Bool.and_eq_true, Bool.not_eq_true'] at h
  obtain ⟨⟨⟨hacc, hcomp⟩, hwin⟩, -⟩ := h
  simp [busRead, hacc, meterCharge_outside_comp n hcomp, devRead, hcomp, hwin]

/-- A read that the region checker refuses gives all ones and is reported (R490). -/
theorem busRead_refused {s : State} {ag : Agent} {a n : Nat} (h : accessOk s ag false a n = false) :
    busRead ag a n s = (ffs n, regionEvent ag a false s) := if_neg (by simp [h])

theorem decodedRange_of_onDieOk {s : State} {k : CoreId} {wr : Bool} {a n : Nat} (h : onDieOk s k wr a n = true) :
    decodedRange a n = true := by
  simp only [onDieOk, Bool.and_eq_true] at h
  exact h.2

theorem bytes_entryState (k : Nat) (w : IWord) (s : State) (a n : Nat) : (entryState k w s).bytes a n = s.bytes a n :=
  State.bytes_of_mem (entryState_within.mem rfl) (entryState_within.memGen rfl) a n

/-- All ones as a number. -/
theorem leNat_ffs (n : Nat) : leNat (ffs n) = 2 ^ (8 * n) - 1 := by
  induction n with
  | zero => rfl
  | succ n ih =>
    have hpos : 0 < 2 ^ (8 * n) := Nat.two_pow_pos _
    have hcons : leNat (ffs (n + 1)) = 255 + 256 * leNat (ffs n) := rfl
    rw [hcons, ih, Nat.mul_succ, Nat.pow_add]
    omega

/-! ### A command whose word has an operation in its address field only -/

/-- The results of a word that has those of its address field only. -/
abbrev adrOnly (aw : Writes) : List Writes := [.none, aw, .none, .none]

section
variable {c : Instr} {k : CoreId} {v : IWord} {s t : State} {aw : Writes}

theorem exec_onlyAdr (hc : wordOf c = some (k, v)) (hi : issues s k v = true) (hw : OnlyAdr v)
    (h : adrEffect k v (core s k) (entryState k v s) = .next (aw, t)) : exec c s = .next (wordEnd k v (adrOnly aw) s t) := by
  refine exec_word_next hc (kept_of_issues hi) ((issueWord_of_issues hi).trans ?_)
  rw [wordEffect_onlyAdr hw (by rw [core_entryState]; exact h), core_entryState]
  rfl

theorem exec_onlyAdr_outside (hc : wordOf c = some (k, v)) (hi : issues s k v = true) (hw : OnlyAdr v) {r : Nat}
    (h : adrEffect k v (core s k) (entryState k v s) = .outside r) : exec c s = .next (s.leave r).settle :=
  exec_word_outside hc (kept_of_issues hi)
    ((issueWord_of_issues hi).trans (wordEffect_onlyAdr_outside hw (by rw [core_entryState]; exact h)))

/-- A word that has left no more of its operation than a change of its core is complete. -/
theorem adrEnd_wordDone {c' : CoreSt} {l : List Nat} (hs : s.wf = true) (hi : issues s k v = true) (hw : OnlyAdr v)
    (ht : t.wf = true) (h : OnlyCore k (entryState k v s) t c' l) (hwait : c'.wait = (core s k).wait) (hpc : c'.pc = (core s k).pc) :
    WordDone k (arrived k v s) (wordEnd k v (adrOnly aw) s t) (coreAfter (adrOnly aw) (core s k) c') l :=
  wordEnd_wordDone ht ((entryState_onlyCore hs k v).trans h) hw.br (hwait.trans (wait_of_mayIssue (mayIssue_of_issues hi))) hpc
    (by rw [core_arrived])

end

/-! ### The operations -/

theorem CoreSt.apply_baseWrites (w : IWord) (c : CoreSt) : c.apply (baseWrites w c) = baseUpdated w c := by
  unfold baseWrites baseUpdated adrEa
  by_cases h0 : adrF w 35 3 = 0
  · rw [if_pos h0, if_pos h0]
    rfl
  · rw [if_neg h0, if_neg h0]
    split
    · next h => exact absurd h h0
    · rfl
    · rfl

/-- The opcode is that of a load. -/
def adrLoads (op : Nat) : Bool := (1 ≤ op && op ≤ 7) || op == 0x10 || op == 0x14

/-- The register results of a load: the base register, then the destination (R196). -/
def loadWrites (w : IWord) (c : CoreSt) (bs : List Byte) : Writes :=
  ⟨(baseWrites w c).s ++ (adrLoaded w bs).s, (adrLoaded w bs).v, (adrLoaded w bs).p⟩

theorem baseWrites_s_only (w : IWord) (c : CoreSt) : (baseWrites w c).v = [] ∧ (baseWrites w c).p = [] := by
  unfold baseWrites
  split <;> exact ⟨rfl, rfl⟩

theorem CoreSt.apply_loadWrites (w : IWord) (c : CoreSt) (bs : List Byte) :
    c.apply (loadWrites w c bs) = (baseUpdated w c).apply (adrLoaded w bs) := by
  obtain ⟨hv, hp⟩ := baseWrites_s_only w c
  have hbase : (baseWrites w c).s.foldl (fun c e => c.setS e.1 e.2) c = baseUpdated w c := by
    rw [← c.apply_baseWrites w, CoreSt.apply, hv, hp]
    rfl
  rw [CoreSt.apply, loadWrites, List.foldl_append, hbase]
  rfl

theorem coreAfter_loadWrites (w : IWord) (c : CoreSt) (bs : List Byte) :
    coreAfter [.none, loadWrites w c bs, .none, .none] c c = { (baseUpdated w c).apply (adrLoaded w bs) with pc := c.pc + 64 } := by
  rw [← c.apply_loadWrites]
  rfl

section
variable {k : CoreId} {w : IWord} {c : CoreSt} {s : State}

theorem adrOp_ne_of_loads (h : adrLoads (adrOp w) = true) :
    adrOp w ≠ 0 ∧ adrOp w ≠ 0x18 ∧ adrOp w ≠ 0x22 ∧ adrOp w ≠ 0x20 ∧ adrStores (adrOp w) = false := by
  simp only [adrLoads, adrStores, Bool.or_eq_true, Bool.and_eq_true, decide_eq_true_eq, beq_iff_eq, Bool.or_eq_false_iff,
    Bool.and_eq_false_iff, decide_eq_false_iff_not, beq_eq_false_iff_ne] at h ⊢
  omega

theorem adrEffect_load_undecoded (hop : adrLoads (adrOp w) = true)
    (h : decodedRange (adrEa w c).1.toNat (adrBytes (adrOp w)) = false) : adrEffect k w c s = .outside 15 := by
  obtain ⟨h0, h18, h22, -, -⟩ := adrOp_ne_of_loads hop
  simp [adrEffect, adrEffect.oc15, h0, h18, h22, h]

theorem adrEffect_load (hop : adrLoads (adrOp w) = true) (h : decodedRange (adrEa w c).1.toNat (adrBytes (adrOp w)) = true) :
    adrEffect k w c s = .next (loadWrites w c (busRead (.core k) (adrEa w c).1.toNat (adrBytes (adrOp w)) s).1,
      (busRead (.core k) (adrEa w c).1.toNat (adrBytes (adrOp w)) s).2) := by
  obtain ⟨h0, h18, h22, h20, hst⟩ := adrOp_ne_of_loads hop
  simp [adrEffect, h0, h18, h22, h20, hst, h] <;> rfl

/-- AUPD and FENCE update the base register and access nothing. -/
theorem adrEffect_base (hop : adrOp w = 0x18 ∨ adrOp w = 0x22) : adrEffect k w c s = .next (baseWrites w c, s) := by
  have h0 : adrOp w ≠ 0 := by omega
  simp [adrEffect, h0, hop] <;> rfl

end

/-! ### The rows of the table -/

/-- A row of the loads: the command, its opcode, its bytes, and what a number that it has read becomes in its register. -/
abbrev LoadRow := (CoreId → IWord → Instr) × Nat × Nat × (CoreSt → Nat → Nat → CoreSt)

/-- The row says of its opcode what the model says. -/
structure IsLoad (r : LoadRow) : Prop where
  word : ∀ k w, wordOf (r.1 k w) = some (k, withAdr r.2.1 w)
  loads : adrLoads r.2.1 = true
  bytes : adrBytes r.2.1 = r.2.2.1
  loaded : ∀ v c bs, adrOp v = r.2.1 → c.apply (adrLoaded v bs) = r.2.2.2 c (adrF v 6 5) (leNat bs)

/-- The model's sign extension is that of the bit vectors. -/
theorem ofInt_signedN {n : Nat} (hn : 0 < n) (x : Nat) : BitVec.ofInt 64 (signedN n x) = (BitVec.ofNat n x).signExtend 64 := by
  have hpow : 2 ^ n = 2 * 2 ^ (n - 1) := by rw [← Nat.pow_succ', Nat.succ_eq_add_one, Nat.sub_add_cancel hn]
  have hint : (BitVec.ofNat n x).toInt = signedN n x := by
    rw [BitVec.toInt_eq_toNat_cond, BitVec.toNat_ofNat, signedN]
    split <;> split <;> omega
  rw [BitVec.signExtend, hint]

theorem isLoad_zeroExtend {cmd : CoreId → IWord → Instr} {op : Nat} (hw : ∀ k w, wordOf (cmd k w) = some (k, withAdr op w))
    (h : op = 1 ∨ op = 2 ∨ op = 3 ∨ op = 4) : IsLoad (cmd, op, adrBytes op, fun c i x => c.setS i (BitVec.ofNat 64 x)) where
  word := hw
  loads := by rcases h with rfl | rfl | rfl | rfl <;> rfl
  bytes := rfl
  loaded v c bs hv := by rcases h with rfl | rfl | rfl | rfl <;> simp [adrLoaded, hv, CoreSt.apply, Writes.ofS]

theorem isLoad_signExtend {cmd : CoreId → IWord → Instr} {op n : Nat} (hw : ∀ k w, wordOf (cmd k w) = some (k, withAdr op w))
    (h : op = 5 ∧ n = 8 ∨ op = 6 ∧ n = 16 ∨ op = 7 ∧ n = 32) :
    IsLoad (cmd, op, adrBytes op, fun c i x => c.setS i ((BitVec.ofNat n x).signExtend 64)) where
  word := hw
  loads := by rcases h with ⟨rfl, -⟩ | ⟨rfl, -⟩ | ⟨rfl, -⟩ <;> rfl
  bytes := rfl
  loaded v c bs hv := by
    rcases h with ⟨rfl, rfl⟩ | ⟨rfl, rfl⟩ | ⟨rfl, rfl⟩ <;> simp [adrLoaded, hv, CoreSt.apply, Writes.ofS, ← ofInt_signedN]

theorem isLoad_vld : IsLoad (.vld, 0x10, 512, fun c i x => c.setV i (BitVec.ofNat 4096 x)) where
  word _ _ := rfl
  loads := rfl
  bytes := rfl
  loaded v c bs hv := by simp [adrLoaded, hv, CoreSt.apply, Writes.ofV, vOfBytes]

theorem isLoad_pld : IsLoad (.pld, 0x14, 64, fun c i x => c.setP (i % 8) (BitVec.ofNat 512 x)) where
  word _ _ := rfl
  loads := rfl
  bytes := rfl
  loaded v c bs hv := by simp [adrLoaded, hv, CoreSt.apply, Writes.ofP]

theorem isLoad_of_mem {row : LoadRow}
    (h : row ∈ ([(Instr.ld8, 0x01, 1, fun c i x => c.setS i (BitVec.ofNat 64 x)), (.ld16, 0x02, 2, fun c i x => c.setS i (BitVec.ofNat 64 x)),
      (.ld32, 0x03, 4, fun c i x => c.setS i (BitVec.ofNat 64 x)), (.ld64, 0x04, 8, fun c i x => c.setS i (BitVec.ofNat 64 x)),
      (.lds8, 0x05, 1, fun c i x => c.setS i ((BitVec.ofNat 8 x).signExtend 64)), (.lds16, 0x06, 2, fun c i x => c.setS i ((BitVec.ofNat 16 x).signExtend 64)),
      (.lds32, 0x07, 4, fun c i x => c.setS i ((BitVec.ofNat 32 x).signExtend 64)), (.vld, 0x10, 512, fun c i x => c.setV i (BitVec.ofNat 4096 x)),
      (.pld, 0x14, 64, fun c i x => c.setP (i % 8) (BitVec.ofNat 512 x))] : List LoadRow)) : IsLoad row := by
  simp only [List.mem_cons, List.not_mem_nil, or_false] at h
  rcases h with rfl | rfl | rfl | rfl | rfl | rfl | rfl | rfl | rfl
  · exact isLoad_zeroExtend (op := 1) (fun _ _ => rfl) (by decide)
  · exact isLoad_zeroExtend (op := 2) (fun _ _ => rfl) (by decide)
  · exact isLoad_zeroExtend (op := 3) (fun _ _ => rfl) (by decide)
  · exact isLoad_zeroExtend (op := 4) (fun _ _ => rfl) (by decide)
  · exact isLoad_signExtend (op := 5) (fun _ _ => rfl) (by decide)
  · exact isLoad_signExtend (op := 6) (fun _ _ => rfl) (by decide)
  · exact isLoad_signExtend (op := 7) (fun _ _ => rfl) (by decide)
  · exact isLoad_vld
  · exact isLoad_pld

/-! ### The command of a load -/

section
variable {c : Instr} {k : CoreId} {v : IWord} {s : State}

/-- The state once a load has read, and its word is complete. -/
def afterLoad (k : CoreId) (v : IWord) (s : State) : State :=
  let r := busRead (.core k) (adrEa v (core s k)).1.toNat (adrBytes (adrOp v)) (entryState k v s)
  wordEnd k v (adrOnly (loadWrites v (core s k) r.1)) s r.2

theorem exec_load (hc : wordOf c = some (k, v)) (hi : issues s k v = true) (hw : OnlyAdr v) (hld : adrLoads (adrOp v) = true) :
    (decodedRange (adrEa v (core s k)).1.toNat (adrBytes (adrOp v)) = false → exec c s = .next (s.leave 15).settle) ∧
    (decodedRange (adrEa v (core s k)).1.toNat (adrBytes (adrOp v)) = true → exec c s = .next (afterLoad k v s)) :=
  ⟨fun hd => exec_onlyAdr_outside hc hi hw (adrEffect_load_undecoded hld hd), fun hd => exec_onlyAdr hc hi hw (adrEffect_load hld hd)⟩

/-- A load of the on-die stores writes its registers, and nothing else changes. -/
theorem afterLoad_onDie (hs : s.wf = true) (hi : issues s k v = true) (hw : OnlyAdr v)
    (hok : onDieOk (entryState k v s) k false (adrEa v (core s k)).1.toNat (adrBytes (adrOp v)) = true) :
    WordDone k (arrived k v s) (afterLoad k v s) { (baseUpdated v (core s k)).apply
      (adrLoaded v (s.bytes (adrEa v (core s k)).1.toNat (adrBytes (adrOp v)))) with pc := (core s k).pc + 64 } [] := by
  unfold afterLoad
  rw [busRead_onDie hok, bytes_entryState, ← coreAfter_loadWrites]
  exact adrEnd_wordDone hs hi hw (entryState_within.wf hs) (.refl (core_entryState k v s k)) rfl rfl

theorem core_busRead (ag : Agent) (a n : Nat) (s : State) (j : Nat) : core (busRead ag a n s).2 j = core s j :=
  core_of_cores (busRead_within.cores rfl) j

theorem afterLoad_within (hs : s.wf = true) (hi : issues s k v = true) (hw : OnlyAdr v) :
    Within 2236424 (arrived k v s) (afterLoad k v s) := by
  have hwf : (busRead (.core k) (adrEa v (core s k)).1.toNat (adrBytes (adrOp v)) (entryState k v s)).2.wf = true :=
    busRead_within.wf (entryState_within.wf hs)
  have hwait : (core (busRead (.core k) (adrEa v (core s k)).1.toNat (adrBytes (adrOp v)) (entryState k v s)).2 k).wait = .none := by
    rw [core_busRead, core_entryState, wait_of_mayIssue (mayIssue_of_issues hi)]
  exact Within.step (finishWord_plain_within hwf hwait hw.br) (by decide)
    (Within.step busRead_within (by decide) (Within.step syncDue_within (by decide) (Within.refl _ _)))

theorem afterLoad_mem (hs : s.wf = true) (hi : issues s k v = true) (hw : OnlyAdr v) : (afterLoad k v s).mem = s.mem :=
  ((afterLoad_within hs hi hw).mem rfl).trans (arrived_within.mem rfl)

/-- A load that the region checker refuses writes all ones and is reported (R490). -/
theorem afterLoad_refused (hs : s.wf = true) (hi : issues s k v = true) (hw : OnlyAdr v)
    (hacc : accessOk (entryState k v s) (.core k) false (adrEa v (core s k)).1.toNat (adrBytes (adrOp v)) = false) :
    core (afterLoad k v s) k = { (baseUpdated v (core s k)).apply (adrLoaded v (ffs (adrBytes (adrOp v)))) with pc := (core s k).pc + 64 } ∧
    (afterLoad k v s).selv = (regionEvent (.core k) (adrEa v (core s k)).1.toNat false s).selv ∧
    ∀ p : Part, p ∉ [.regs, .cores, .trace, .selv] → p.same (arrived k v s) (afterLoad k v s) := by
  have hbus := busRead_refused (ag := .core k) hacc
  have hcore (j : Nat) : core (regionEvent (.core k) (adrEa v (core s k)).1.toNat false (entryState k v s)) j = core s j :=
    (core_of_cores (regionEvent_within.cores rfl) j).trans (core_entryState k v s j)
  have hwf : (regionEvent (.core k) (adrEa v (core s k)).1.toNat false (entryState k v s)).wf = true :=
    regionEvent_within.wf (entryState_within.wf hs)
  have hwait : (core (regionEvent (.core k) (adrEa v (core s k)).1.toNat false (entryState k v s)) k).wait = .none := by
    rw [hcore, wait_of_mayIssue (mayIssue_of_issues hi)]
  have hafter : afterLoad k v s = wordEnd k v (adrOnly (loadWrites v (core s k) (ffs (adrBytes (adrOp v))))) s
      (regionEvent (.core k) (adrEa v (core s k)).1.toNat false (entryState k v s)) := by rw [afterLoad, hbus]
  have hdone := finishWord_plain_onlyCore (k := k) (entry := core s k)
    (ws := [.none, loadWrites v (core s k) (ffs (adrBytes (adrOp v))), .none, .none]) hwf hwait hw.br
  rw [hcore, coreAfter_loadWrites] at hdone
  obtain ⟨hfinal, -, -, -⟩ := hdone
  refine ⟨hafter ▸ hfinal, ?_, (afterLoad_within hs hi hw).same_of_not_mem (by decide)⟩
  rw [hafter, wordEnd, (finishWord_plain_within hwf hwait hw.br).selv rfl]
  exact regionEvent_selv (corePart_of_warp (entryState_within.warp rfl) k) (entryState_within.selv rfl)

/-- AUPD and FENCE update the base register, and nothing else changes. -/
theorem exec_base (hc : wordOf c = some (k, v)) (hs : s.wf = true) (hi : issues s k v = true) (hw : OnlyAdr v)
    (hop : adrOp v = 0x18 ∨ adrOp v = 0x22) :
    ∃ t, exec c s = .next t ∧ WordDone k s t { baseUpdated v (core s k) with pc := (core s k).pc + 64 } [] := by
  have hnone : arrived k v s = s := arrived_of_noAccess (by rcases hop with h | h <;> rw [h] <;> rfl) s
  have hdone := adrEnd_wordDone (aw := baseWrites v (core s k)) hs hi hw (entryState_within.wf hs)
    (.refl (core_entryState k v s k)) rfl rfl
  rw [coreAfter_baseWrites, hnone] at hdone
  exact ⟨_, exec_onlyAdr hc hi hw (adrEffect_base hop), hdone⟩

/-- A FENCE issues once the core has no transfer in flight (R157). -/
theorem fence_dma (hi : issues s k v = true) (hop : adrOp v = 0x22) : (core s k).dma = [] := by
  simp only [issues, ready, Bool.and_eq_true, Bool.not_eq_true'] at hi
  obtain ⟨⟨⟨⟨⟨⟨⟨⟨⟨⟨⟨⟨⟨-, -⟩, -⟩, -⟩, -⟩, -⟩, -⟩, -⟩, -⟩, hadr⟩, -⟩, -⟩, -⟩, -⟩ := hi
  simp only [adrWaits, hop, Bool.or_eq_false_iff] at hadr
  obtain ⟨⟨-, hfence⟩, -⟩ := hadr
  simp only [beq_self_eq_true, Bool.true_and, Bool.or_eq_false_iff, Bool.not_eq_false', List.isEmpty_iff] at hfence
  exact hfence.1

end

/-- Settles O29: each row is a load, which is performed, refused or outside contract; AUPD and FENCE update the base alone. -/
theorem loads : Obligations.Loads := by
  intro k w s hs
  refine ⟨fun row hrow => ?_, fun hi hops => ?_, fun hi hops => ?_⟩
  · have hrow := isLoad_of_mem hrow
    extract_lets v c ea n
    intro hi hops
    obtain ⟨hw, hop⟩ := onlyAdr_of_wordOps hops
    have hn : adrBytes (adrOp v) = n := by rw [hop]; exact hrow.bytes
    obtain ⟨hundecoded, hdecoded⟩ := exec_load (hrow.word k w) hi hw (by rw [hop]; exact hrow.loads)
    have hloaded (bs : List Byte) := hrow.loaded v (baseUpdated v c) bs hop
    have hk := kept_of_issues hi
    rw [hn] at hundecoded hdecoded
    refine ⟨fun hok => ⟨_, hdecoded (decodedRange_of_onDieOk hok), ?_⟩, fun hd hacc => ⟨_, hdecoded hd, ?_⟩, hundecoded, fun t ht he => ?_⟩
    · have h := afterLoad_onDie hs hi hw (by rw [hn]; exact hok)
      rwa [hn, hloaded] at h
    · have h := afterLoad_refused hs hi hw (by rw [hn]; exact hacc)
      rwa [hn, hloaded, leNat_ffs] at h
    · cases hd : decodedRange ea n with
      | false =>
        have e : t = (s.leave 15).settle := Host.Outcome.next.inj (he.symm.trans (hundecoded hd))
        rw [State.Kept, e, State.leave_settle_broken hk] at ht
        cases ht
      | true =>
        have e : t = afterLoad k v s := Host.Outcome.next.inj (he.symm.trans (hdecoded hd))
        rw [e, afterLoad_mem hs hi hw]
  · obtain ⟨hw, hop⟩ := onlyAdr_of_wordOps hops
    exact exec_base rfl hs hi hw (.inl hop)
  · obtain ⟨hw, hop⟩ := onlyAdr_of_wordOps hops
    exact ⟨fence_dma hi hop, exec_base rfl hs hi hw (.inr hop)⟩

end Sys2Proof.Machine
end

section
/-! SUPPORT. DMA words and the transfers of a core (R155 to R162, R268 to R270, R346, R387). -/

namespace Sys2Proof.Machine

/-! ### Windows of a core -/

/-- The registers of the cores are below those of the trace. -/
theorem issueRegs_window {k j x : Nat} (hj : j < 32) (hlo : Reg.coreTwin0Base j ≤ x) (hhi : x < Reg.coreCtrl (j + 1)) :
    issueRegs k x = false := by
  simp only [Reg.coreTwin0Base, Reg.coreCtrl] at hlo hhi
  refine issueRegs_outside (by omega) ?_ ?_ ?_ <;> simp only [Reg.corePc, Reg.coreStatus] <;> omega

theorem inSparseWin_entryState {s : State} (hs : s.wf = true) (k : CoreId) (w : IWord) (a : Nat) :
    inSparseWin (entryState k w s) k a = inSparseWin s k a := by
  have hregs := entryState_changesOnlyRegs k w s
  have w0 := State.wf_regs hs
  have hlt := k.isLt
  have hin {x : Nat} (hlo : Reg.sparseWinBase k ≤ x) (hhi : x < Reg.sparseWinBase k + 16) : issueRegs k x = false := by
    simp only [Reg.sparseWinBase] at hlo hhi
    exact issueRegs_window hlt (by simp only [Reg.coreTwin0Base]; omega) (by simp only [Reg.coreCtrl]; omega)
  unfold inSparseWin
  dsimp only
  rw [hregs.bit w0 (hin (by omega) (by omega)), hregs.rdQ w0 (fun x hlo hhi => hin hlo (by omega)),
    hregs.fld w0 (hin (by omega) (by omega))]

theorem transposeAt_entryState {s : State} (hs : s.wf = true) (k : CoreId) (w : IWord) (a : Nat) :
    transposeAt (entryState k w s) a = transposeAt s a := by
  have hregs := entryState_changesOnlyRegs k w s
  have w0 := State.wf_regs hs
  have hin {i x : Nat} (hi : i < 64) (hlo : Reg.coreTwin0Base (i / 2) + 0x10 * (i % 2) ≤ x)
      (hhi : x < Reg.coreTwin0Base (i / 2) + 0x10 * (i % 2) + 16) : issueRegs k x = false := by
    simp only [Reg.coreTwin0Base] at hlo hhi
    exact issueRegs_window (j := i / 2) (by omega) (by simp only [Reg.coreTwin0Base]; omega) (by simp only [Reg.coreCtrl]; omega)
  unfold transposeAt
  rw [← List.head?_filterMap, ← List.head?_filterMap]
  congr 1
  refine List.filterMap_congr fun i hi => ?_
  have hi := List.mem_range.mp hi
  dsimp only
  rw [hregs.bit w0 (hin hi (by omega) (by omega)), hregs.rdQ w0 (fun x hlo hhi => hin hi hlo (by omega)),
    hregs.fld w0 (hin hi (by omega) (by omega)), hregs.fld w0 (hin hi (by omega) (by omega))]

/-! ### The issue of a transfer (R159, R346) -/

/-- The transfer that a descriptor describes, as it holds at its issue (R269). -/
def dmaIssued (s : State) (d : Dma) : Dma := { d with transpose := (transposeAt s d.dst).map fun t => t.2.2 }

/-- The sparse job that a descriptor in the sparse window names, with the bytes of its own descriptor (R346). -/
def jobIssued (s : State) (d : Dma) : Dma := { d with job := some (s.bytes d.src 128) }

/-- The core with another transfer behind its own. -/
def withDma (c : CoreSt) (d : Dma) : CoreSt := { c with dma := c.dma ++ [d] }

theorem CoreSt.apply_baseWrites_withDma (w : IWord) (c : CoreSt) (d : Dma) :
    coreAfter [.none, baseWrites w c, .none, .none] c (withDma c d) =
      { baseUpdated w c with dma := c.dma ++ [d], pc := c.pc + 64 } := by
  have hset (i : Nat) (x : W64) : (withDma c d).setS i x = { c.setS i x with dma := c.dma ++ [d] } := by
    unfold CoreSt.setS
    split <;> rfl
  have hbase : (withDma c d).apply (baseWrites w c) = { baseUpdated w c with dma := c.dma ++ [d] } := by
    rw [← c.apply_baseWrites w, baseWrites]
    split
    · rfl
    · exact hset _ _
  show { (withDma c d).apply (baseWrites w c) with pc := c.pc + 64 } = _
  rw [hbase]

section
variable {k : CoreId} {s : State} {ea : Nat} (hok : onDieOk s k false ea 48 = true)
include hok

theorem dmaIssue_transfer (hwin : inSparseWin s k (dmaOf (s.bytes ea 48)).src = false)
    (hout : dmaOutside s k (dmaIssued s (dmaOf (s.bytes ea 48))) = none) :
    dmaIssue k ea s = .next (setCore s k (withDma (core s k) (dmaIssued s (dmaOf (s.bytes ea 48))))) := by
  rw [dmaIssued] at hout
  simp only [dmaIssue, busRead_onDie hok, hwin, hout, Bool.false_eq_true, if_false]
  rfl

theorem dmaIssue_job (hwin : inSparseWin s k (dmaOf (s.bytes ea 48)).src = true)
    (hjob : onDieOk s k false (dmaOf (s.bytes ea 48)).src 128 = true) :
    dmaIssue k ea s = .next ((setCore s k (withDma (core s k)
      (jobIssued s (dmaOf (s.bytes ea 48))))).putB (Reg.sparseStatus k) 0 true) := by
  simp only [dmaIssue, busRead_onDie hok, hwin, decodedRange_of_onDieOk hjob, busRead_onDie hjob, if_true, Bool.not_true,
    Bool.false_eq_true, if_false]
  rfl

end

theorem adrEffect_dma {k : CoreId} {w : IWord} {c : CoreSt} {s t : State} (hop : adrOp w = 0x20)
    (hd : decodedRange (adrEa w c).1.toNat 48 = true) (h : dmaIssue k (adrEa w c).1.toNat s = .next t) :
    adrEffect k w c s = .next (baseWrites w c, t) := by
  have hn : adrBytes 0x20 = 48 := rfl
  simp [adrEffect, hop, hn, hd, h] <;> rfl

/-- A change of a core and of a bit of one register. -/
theorem setCore_putB_onlyCore {s : State} (hs : s.wf = true) (k : CoreId) (c : CoreSt) (a i : Nat) (b : Bool) :
    OnlyCore k s ((setCore s k c).putB a i b) c [a] := by
  have hput : OnlyCore k (setCore s k c) ((setCore s k c).putB a i b) c [a] :=
    ⟨core_setCore_same hs k c, fun _ _ => rfl, fun _ _ hx => State.rd_putB_ne (State.wf_regs (s := s) hs) fun e => hx (by simp [e]),
      State.putB_within.same_of_not_mem (by decide)⟩
  exact (setCore_onlyCore hs k c).trans hput

/-! ### A DMA word -/

section
variable {k : CoreId} {v : IWord} {s : State}

/-- A DMA word issues while fewer than 16 transfers of the core are in flight (R159). -/
theorem dma_length_lt (hi : issues s k v = true) (hop : adrOp v = 0x20) : (core s k).dma.length < 16 := by
  simp only [issues, ready, Bool.and_eq_true, Bool.not_eq_true'] at hi
  obtain ⟨⟨⟨⟨⟨⟨⟨⟨⟨⟨⟨⟨⟨-, -⟩, -⟩, -⟩, -⟩, -⟩, -⟩, -⟩, -⟩, hadr⟩, -⟩, -⟩, -⟩, -⟩ := hi
  simp only [adrWaits, hop, Bool.or_eq_false_iff] at hadr
  obtain ⟨⟨hfull, -⟩, -⟩ := hadr
  simpa using hfull

theorem exec_dmaWord {w : IWord} (hv : v = withAdr 0x20 w) (hi : issues s k v = true) (hw : OnlyAdr v) (hop : adrOp v = 0x20)
    (hd : decodedRange (adrEa v (core s k)).1.toNat 48 = true) {t : State}
    (h : dmaIssue k (adrEa v (core s k)).1.toNat (entryState k v s) = .next t) :
    exec (.dma k w) s = .next (wordEnd k v (adrOnly (baseWrites v (core s k))) s t) :=
  exec_onlyAdr (by rw [hv]; rfl) hi hw (adrEffect_dma hop hd h)

/-- A DMA word puts the transfer behind the core's others, or outside contract nowhere (R159). -/
theorem dma_transfer {w : IWord} (hv : v = withAdr 0x20 w) (hs : s.wf = true) (hi : issues s k v = true) (hw : OnlyAdr v)
    (hop : adrOp v = 0x20) {ea : Nat} (hea : (adrEa v (core s k)).1.toNat = ea) (hok : onDieOk (entryState k v s) k false ea 48 = true)
    (hwin : inSparseWin s k (dmaOf (s.bytes ea 48)).src = false)
    (hout : dmaOutside (entryState k v s) k (dmaIssued s (dmaOf (s.bytes ea 48))) = none) :
    ∃ t, exec (.dma k w) s = .next t ∧ WordDone k (arrived k v s) t { baseUpdated v (core s k) with
      dma := (core s k).dma ++ [dmaIssued s (dmaOf (s.bytes ea 48))], pc := (core s k).pc + 64 } [] := by
  subst hea
  have he : (entryState k v s).wf = true := entryState_within.wf hs
  have hissued (d : Dma) : dmaIssued (entryState k v s) d = dmaIssued s d := by
    rw [dmaIssued, transposeAt_entryState hs, dmaIssued]
  have h := dmaIssue_transfer hok (by rw [bytes_entryState, inSparseWin_entryState hs]; exact hwin)
    (by rw [bytes_entryState, hissued]; exact hout)
  rw [bytes_entryState, hissued, core_entryState] at h
  refine ⟨_, exec_dmaWord hv hi hw hop (decodedRange_of_onDieOk hok) h, ?_⟩
  rw [← CoreSt.apply_baseWrites_withDma]
  exact adrEnd_wordDone hs hi hw (setCore_within.wf he) (setCore_onlyCore he k _) rfl rfl

/-- A DMA word whose source lies in the sparse window puts a job behind the core's transfers (R346). -/
theorem dma_job {w : IWord} (hv : v = withAdr 0x20 w) (hs : s.wf = true) (hi : issues s k v = true) (hw : OnlyAdr v)
    (hop : adrOp v = 0x20) {ea : Nat} (hea : (adrEa v (core s k)).1.toNat = ea) (hok : onDieOk (entryState k v s) k false ea 48 = true)
    {d : Dma} (hdesc : dmaOf (s.bytes ea 48) = d) (hwin : inSparseWin s k d.src = true)
    (hjob : onDieOk (entryState k v s) k false d.src 128 = true) :
    ∃ t, exec (.dma k w) s = .next t ∧ WordDone k (arrived k v s) t { baseUpdated v (core s k) with
      dma := (core s k).dma ++ [jobIssued s d], pc := (core s k).pc + 64 } [Reg.sparseStatus k] ∧
      t.bit (Reg.sparseStatus k) 0 = true := by
  subst hea hdesc
  have he : (entryState k v s).wf = true := entryState_within.wf hs
  have h := dmaIssue_job hok (by rw [bytes_entryState, inSparseWin_entryState hs]; exact hwin) (by rw [bytes_entryState]; exact hjob)
  have hissued (d : Dma) : jobIssued (entryState k v s) d = jobIssued s d := by rw [jobIssued, bytes_entryState, jobIssued]
  rw [bytes_entryState, hissued, core_entryState] at h
  have hset' : (setCore (entryState k v s) k (withDma (core s k) (jobIssued s (dmaOf (s.bytes (adrEa v (core s k)).1.toNat 48))))).wf =
      true := setCore_within.wf he
  have hput := setCore_putB_onlyCore he k (withDma (core s k) (jobIssued s (dmaOf (s.bytes (adrEa v (core s k)).1.toNat 48))))
    (Reg.sparseStatus k) 0 true
  generalize setCore (entryState k v s) k _ = u at h hput hset'
  have hdone := adrEnd_wordDone (aw := baseWrites v (core s k)) hs hi hw (State.putB_within.wf hset') hput rfl rfl
  rw [CoreSt.apply_baseWrites_withDma] at hdone
  have hkeep : issueRegs k (Reg.sparseStatus k) = false := issueRegs_window k.isLt
    (by simp only [Reg.sparseStatus, Reg.coreTwin0Base]; omega) (by simp only [Reg.sparseStatus, Reg.coreCtrl]; omega)
  refine ⟨_, exec_dmaWord hv hi hw hop (decodedRange_of_onDieOk hok) h, hdone, ?_⟩
  have hwait : (core (u.putB (Reg.sparseStatus k) 0 true) k).wait = .none := by
    rw [hput.1]
    exact wait_of_mayIssue (mayIssue_of_issues hi)
  obtain ⟨-, -, hregs, -⟩ := wordEnd_onlyCore (ws := adrOnly (baseWrites v (core s k))) (s := s) (State.putB_within.wf hset') hwait hw.br
  rw [State.bit_of_rd (hregs _ hkeep List.not_mem_nil)]
  exact State.bit_putB_same (State.wf_regs hset') (by decide)

end

/-! ### Bytes that a read and a copy leave -/

theorem reads_length (g : MemGen) (m : List Host.Cell) (a n : Nat) : (Memory.reads g m a n).length = n := by
  induction n generalizing a with
  | zero => rfl
  | succ n ih => rw [Memory.reads, List.length_cons, ih]

theorem busRead_length_le (ag : Agent) (a n : Nat) (s : State) : (busRead ag a n s).1.length ≤ n := by
  unfold busRead
  split
  · unfold devRead
    split
    · exact List.length_take_le _ _
    · split
      · simp [winRead]
      · exact (reads_length _ _ a n).le
  · simp [ffs]

/-- From a state in canonical form to another, a byte has kept its value. -/
def KeepsByte (a : Nat) (s t : State) : Prop := s.wf = true → t.wf = true ∧ t.byte a = s.byte a

theorem ChangesOnlyBytes.keepsByte {a x n : Nat} {s t : State} (h : ChangesOnlyBytes x n s t) (ha : a < x ∨ x + n ≤ a) :
    KeepsByte a s t := fun w => ⟨(h w).1, (h w).2 a ha⟩

theorem foldl_keepsByte {α : Type} {a : Nat} {f : State → α → State} {l : List α} (h : ∀ y ∈ l, ∀ s, KeepsByte a s (f s y)) (s : State) :
    KeepsByte a s (l.foldl f s) := by
  induction l generalizing s with
  | nil => exact fun w => ⟨w, rfl⟩
  | cons y l ih =>
    intro w
    obtain ⟨wy, hy⟩ := h y (List.mem_cons_self ..) s w
    obtain ⟨wl, hl⟩ := ih (fun z hz => h z (List.mem_cons_of_mem y hz)) (f s y) wy
    exact ⟨wl, hl.trans hy⟩

section
variable {k : CoreId} {d : Dma} (htr : d.transpose = none)
include htr

/-- A row of a transfer that transposes nothing writes its destination row at most. -/
theorem dmaRow_changesOnlyBytes (x i : Nat) (s : State) : ChangesOnlyBytes (x + i * d.dstStride) d.rowLen s (dmaRow k d x i s) := by
  have hread : ChangesOnlyBytes (x + i * d.dstStride) d.rowLen s (busRead (.core k) (d.src + i * d.srcStride) d.rowLen s).2 :=
    busRead_within.changesOnlyBytes
  have hlen := busRead_length_le (.core k) (d.src + i * d.srcStride) d.rowLen s
  unfold dmaRow
  dsimp only
  rw [htr]
  split
  · exact hread
  · exact hread.trans ((busWrite_changesOnlyBytes _ _ _ _).widen (Nat.le_refl _) (by omega))

/-- A byte outside every destination row stays as it was. -/
theorem dmaCopies_keepsByte {a : Nat} {l : List Nat}
    (h : ∀ x ∈ l, ∀ r, r < d.rows → a < x + r * d.dstStride ∨ x + r * d.dstStride + d.rowLen ≤ a) (s : State) :
    KeepsByte a s (l.foldl (dmaCopy k d) s) :=
  foldl_keepsByte (fun x hx => foldl_keepsByte fun i hi u =>
    (dmaRow_changesOnlyBytes htr x i u).keepsByte (h x hx i (List.mem_range.mp hi))) s

end

/-! ### The completion of a transfer (R157, R159, R387) -/

/-- The state once the rows of a transfer have been copied and counted. -/
def dmaCopied (k : CoreId) (d : Dma) (s : State) : State :=
  pmcCount 0x0B k (d.rowLen * d.rows) (depart (.dma k d.src d.dst) ((dmaDsts s k d).foldl (dmaCopy k d) s))

/-- Transfer number i of core k is no longer the core's. -/
def dmaRemoved (k i : Nat) (s : State) : State := setCore s k { core s k with dma := (core s k).dma.eraseIdx i }

theorem dmaCopies_within {k : CoreId} {d : Dma} {l : List Nat} {s : State} : Within 147624 s (l.foldl (dmaCopy k d) s) :=
  Within.foldl (fun _ _ => dmaCopy_within) (Within.refl _ _)

theorem dmaCopied_within {k : CoreId} {d : Dma} {s : State} : Within 147624 s (dmaCopied k d s) :=
  Within.step pmcCount_within (by decide) (Within.step depart_within (by decide) dmaCopies_within)

theorem dmaCopied_mem (k : CoreId) (d : Dma) (s : State) :
    (dmaCopied k d s).mem = ((dmaDsts s k d).foldl (dmaCopy k d) s).mem ∧
    (dmaCopied k d s).memGen = ((dmaDsts s k d).foldl (dmaCopy k d) s).memGen := by
  have h : Within 16392 ((dmaDsts s k d).foldl (dmaCopy k d) s) (dmaCopied k d s) :=
    Within.step pmcCount_within (by decide) (Within.step depart_within (by decide) (Within.refl _ _))
  exact ⟨h.mem rfl, h.memGen rfl⟩

/-- The core whose transfer has ended, and the others. -/
theorem core_dmaRemoved {s t : State} (ht : t.wf = true) (hcores : t.cores = s.cores) (k : CoreId) (i : Nat) :
    core (dmaRemoved k i t) k = { core s k with dma := (core s k).dma.eraseIdx i } ∧
    ∀ j : CoreId, j ≠ k → core (dmaRemoved k i t) j = core s j := by
  refine ⟨?_, fun j hj => ?_⟩
  · rw [dmaRemoved, core_setCore_same ht, core_of_cores hcores]
  · rw [dmaRemoved, core_setCore_ne ht fun e => hj (Fin.ext e), core_of_cores hcores]

theorem dmaEnd_of_noQueue {k i : Nat} {d : Dma} (h : 1024 ≤ d.cmplQ) (s : State) : dmaEnd k i d s = dmaRemoved k i s :=
  if_neg (by omega)

theorem dmaEnd_of_queue {k i : Nat} {d : Dma} (h : d.cmplQ < 1024) (s : State) :
    dmaEnd k i d s = (engCommit d.cmplQ (dmaElement d) (dmaRemoved k i s)).2 := if_pos h

theorem engAccess_goes {s : State} {rs : EngRanges} (h : engWaits s rs = false) (f : State → Res State) :
    engAccess s rs f = f (engGo rs s) := if_neg (by simp [h])

theorem commitRange_of_noQueue {q : Nat} (h : 1024 ≤ q) (s : State) : commitRange s q = [] := by
  have hlt : ¬q < 1024 := by omega
  simp [commitRange, hlt]

section
variable {k : CoreId} {i : Nat} {d : Dma} {s : State}

/-- A transfer that waits for nothing, and stays within its contract, makes its writes. -/
theorem execDmaComplete_copies (hc : s.cclk = true) (hd : (core s k).dma[i]? = some d) (hj : d.job = none) (hw : d.written = false)
    (hwaits : (dmaSrcRows d ++ dmaDstRows d).any (fun r => meterWaits s (.core k) r.1 r.2 || portHolds s k r.1 r.2
      || chanWaits s (.dma k d.src d.dst) r.1 r.2) = false)
    (hmeets : dmaMeets s k d = false) (hout : (dmaWrites s k d).findSome? (fun r => writeOutside s (.core k) r.1 r.2) = none)
    (heng : engWaits s (commitRange s d.cmplQ) = false) :
    execDmaComplete k i s = .next (dmaWrite k i d (engGo (commitRange s d.cmplQ) s)) := by
  have hnot (f : Nat × Nat → Bool) (hf : ∀ r, f r = true → (meterWaits s (.core k) r.1 r.2 || portHolds s k r.1 r.2
      || chanWaits s (.dma k d.src d.dst) r.1 r.2) = true) : (dmaSrcRows d ++ dmaDstRows d).any f = false := by
    rw [List.any_eq_false] at hwaits ⊢
    exact fun r hr hfr => hwaits r hr (hf r hfr)
  have hmeter := hnot (fun r => meterWaits s (.core k) r.1 r.2) fun r h => by simp [h]
  have hport := hnot (fun r => portHolds s k r.1 r.2) fun r h => by simp [h]
  have hchan := hnot (fun r => chanWaits s (.dma k d.src d.dst) r.1 r.2) fun r h => by simp [h]
  simp only [execDmaComplete, hc, hd, hj, hw, hmeter, hport, hchan, hmeets, hout, engAccess_goes heng, Bool.not_true,
    Option.isSome_none, Bool.false_eq_true, if_false]

theorem execDmaComplete_written (hc : s.cclk = true) (hd : (core s k).dma[i]? = some d) (hj : d.job = none) (hw : d.written = true) :
    execDmaComplete k i s =
      if portWaits s k then .next s else engAccess s (commitRange s d.cmplQ) fun s => .next (dmaEnd k i d s) := by
  simp only [execDmaComplete, hc, hd, hj, hw, Bool.not_true, Option.isSome_none, Bool.false_eq_true, if_false, if_true]

/-- A transfer outside the command windows ends with its writes. -/
theorem dmaWrite_of_noWindow (h : inWin d.dst = false) (t : State) : dmaWrite k i d t = dmaEnd k i d (dmaCopied k d t) :=
  if_neg (by simp [h])

/-- A transfer that names no queue: its rows have been copied, nothing else has changed, and it is no longer the core's. -/
theorem dmaRemoved_copied (hs : s.wf = true) :
    (dmaRemoved k i (dmaCopied k d s)).mem = ((dmaDsts s k d).foldl (dmaCopy k d) s).mem ∧
    core (dmaRemoved k i (dmaCopied k d s)) k = { core s k with dma := (core s k).dma.eraseIdx i } ∧
    (∀ j : CoreId, j ≠ k → core (dmaRemoved k i (dmaCopied k d s)) j = core s j) ∧
    (dmaRemoved k i (dmaCopied k d s)).slots = s.slots ∧
    (d.transpose = none → ∀ a,
      (∀ x ∈ dmaDsts s k d, ∀ r, r < d.rows → a < x + r * d.dstStride ∨ x + r * d.dstStride + d.rowLen ≤ a) →
      (dmaRemoved k i (dmaCopied k d s)).byte a = s.byte a) := by
  obtain ⟨hmem, hgen⟩ := dmaCopied_mem k d s
  obtain ⟨hcore, hothers⟩ := core_dmaRemoved (dmaCopied_within.wf hs) (dmaCopied_within.cores rfl : (dmaCopied k d s).cores = _) k i
  refine ⟨hmem, hcore, hothers, dmaCopied_within.slots rfl, fun htr a ha => ?_⟩
  have hbyte : (dmaRemoved k i (dmaCopied k d s)).byte a = ((dmaDsts s k d).foldl (dmaCopy k d) s).byte a := by
    show Memory.read (dmaCopied k d s).memGen (dmaCopied k d s).mem a = _
    rw [hmem, hgen, State.byte]
  exact hbyte.trans (dmaCopies_keepsByte htr ha s hs).2

end

/-- Settles O41: the words by `dma_transfer` and `dma_job`, the completions by the cases of `execDmaComplete`. -/
theorem dmaTransfers : Obligations.DmaTransfers := by
  intro k s hk hs
  refine ⟨fun w => ?_, fun i d hc hd hj hw hwin hwaits hmeets hout => ⟨fun hq => ?_, fun hq heng => ?_⟩,
    fun i d hc hd hj hw => ⟨fun hp => ?_, fun hp hq => ?_⟩⟩
  · extract_lets v c ea d
    intro hi hops hok
    obtain ⟨hv, hop⟩ := onlyAdr_of_wordOps hops
    exact ⟨dma_length_lt hi hop, dma_transfer rfl hs hi hv hop rfl hok, dma_job rfl hs hi hv hop rfl hok rfl⟩
  · have hrange := commitRange_of_noQueue hq s
    have e := execDmaComplete_copies hc hd hj hw hwaits hmeets hout (by rw [hrange]; rfl)
    rw [hrange, dmaWrite_of_noWindow hwin, dmaEnd_of_noQueue hq] at e
    have hkept : (dmaRemoved k i (dmaCopied k d s)).Kept := kept_of_contract (dmaCopied_within.contract rfl) hk
    exact ⟨_, inContract_kept hk hkept e, dmaRemoved_copied hs⟩
  · have e := execDmaComplete_copies hc hd hj hw hwaits hmeets hout heng
    rw [dmaWrite_of_noWindow hwin, dmaEnd_of_queue hq] at e
    exact inContract_next hk e
  · exact inContract_kept hk hk ((execDmaComplete_written hc hd hj hw).trans (if_pos hp))
  · have hrange := commitRange_of_noQueue hq s
    have e := execDmaComplete_written hc hd hj hw
    rw [if_neg (by simp [hp]), hrange, engAccess_goes rfl, dmaEnd_of_noQueue hq] at e
    obtain ⟨hcore, -⟩ := core_dmaRemoved hs rfl k i
    exact ⟨dmaRemoved k i s, inContract_kept hk (kept_of_contract rfl hk) e, rfl, hcore⟩

end Sys2Proof.Machine
end

section
/-! SUPPORT. The queue operations of a core (R167 to R172, R207 to R209): a word whose only operation is in the tile-queue field, and
what a queue shows after its operation. -/

namespace Sys2Proof.Machine

/-! ### A word whose only operation is in the tile-queue field -/

/-- The word has an operation in its tile-queue field only. -/
structure OnlyTq (w : IWord) : Prop where
  sca : scaOp w = 0
  adr : adrOp w = 0
  vec : vecOp w = 0
  arr : arrOp w = 0
  br : brOp w = 0

theorem onlyTq_of_wordOps {w : IWord} {op : Nat} (h : wordOps w = [0, 0, 0, 0, op, 0]) : OnlyTq w ∧ tqOp w = op := by
  simp only [wordOps, List.cons.injEq, and_true] at h
  obtain ⟨hsca, hadr, hvec, harr, htq, hbr⟩ := h
  exact ⟨⟨hsca, hadr, hvec, harr, hbr⟩, htq⟩

/-- The results of a word that has those of its tile-queue field only. -/
abbrev tqOnly (tw : Writes) : List Writes := [.none, .none, .none, tw]

section
variable {c : Instr} {k : CoreId} {w : IWord} {s t stay : State} {tw : Writes}

theorem wordEffect_onlyTq (hw : OnlyTq w) (h : tqEffect k w (core s k) false s = .done tw t) :
    wordEffect k w stay s = .next (finishWord k w (core s k) (tqOnly tw) false t) := by
  simp [wordEffect, scaSys, scaWrites, adrEffect, gatherOutside, isGather_of_none hw.vec, vecEffect, arrOutside, arrEffect, hw.sca, hw.adr,
    hw.vec, hw.arr, hw.br, h]

/-- A word without an access issues on the state with the SYNC that was due. -/
theorem entryState_onlyTq (hw : OnlyTq w) (s : State) : entryState k w s = syncDue k s := by
  rw [entryState, arrived_of_noAccess (by rw [hw.adr]; rfl)]

theorem exec_onlyTq (hc : wordOf c = some (k, w)) (hi : issues s k w = true) (hw : OnlyTq w)
    (h : tqEffect k w (core s k) false (syncDue k s) = .done tw t) : exec c s = .next (wordEnd k w (tqOnly tw) s t) := by
  have hcore : core (syncDue k s) k = core s k := core_of_cores (syncDue_within.cores rfl) k
  refine exec_word_next hc (kept_of_issues hi) ((issueWord_of_issues hi).trans ?_)
  rw [entryState_onlyTq hw, wordEffect_onlyTq hw (by rw [hcore]; exact h), hcore]
  rfl

/-- A word whose operation has left no more than a change of its core is complete. -/
theorem tqEnd_wordDone {s0 : State} {l : List Nat} (ht : t.wf = true) (hi : issues s k w = true) (hw : OnlyTq w)
    (h : OnlyCore k s0 t (core s k) l) (hpc0 : (core s0 k).pc = (core s k).pc) :
    WordDone k s0 (wordEnd k w (tqOnly tw) s t) (coreAfter (tqOnly tw) (core s k) (core s k)) l :=
  wordEnd_wordDone ht h hw.br (wait_of_mayIssue (mayIssue_of_issues hi)) rfl hpc0

end

/-- The results of QRES and QACQ in the registers of the core. -/
theorem coreAfter_qResult (w : IWord) (addr status rest : Nat) (c : CoreSt) :
    coreAfter (tqOnly (qResult w addr status rest)) c c =
      { (c.setS (tqRd w) (BitVec.ofNat 64 addr)).setS (tqRd w + 1) (BitVec.ofNat 64 (status * 2 ^ 60 + rest)) with pc := c.pc + 64 } := rfl

theorem waitClosed_of_none {s : State} {k : Nat} (h : (core s k).wait = .none) : waitClosed s k = false := by rw [waitClosed, h]

/-! ### The QUEUE packet of a queue operation (R541, R545) -/

theorem countLost_changesOnlyRegs (j k : Nat) (s : State) : ChangesOnlyRegs (issueRegs k) s (countLost j s) := by
  have h : ChangesOnlyRegs (issueRegs k) s ((s.sat Reg.traceDrops).putB Reg.traceStatus 1 true) :=
    (wr_changesOnlyRegs (by simp [issueRegs])).trans (putB_changesOnlyRegs (issueRegs_traceStatus k))
  unfold countLost
  exact .ite (h.trans (pmcCount_changesOnlyRegs _ _ _ _ _)) h

theorem traceFiltered_changesOnlyRegs (j b type payload k : Nat) (s : State) :
    ChangesOnlyRegs (issueRegs k) s (traceFiltered j b type payload s) := by
  unfold traceFiltered
  refine .ite (.ite (traceCore_changesOnlyRegs _ _ _ _ _) ?_) (.of_regs rfl)
  exact (ChangesOnlyRegs.of_regs (by rfl)).trans (countLost_changesOnlyRegs _ _ _)

theorem qTrace_changesOnlyRegs (k op : Nat) (w : IWord) (ctr st : Nat) (s : State) :
    ChangesOnlyRegs (issueRegs k) s (qTrace k op w ctr st s) := traceFiltered_changesOnlyRegs _ _ _ _ _ _

theorem qTrace_onlyCore {s : State} (hs : s.wf = true) (k : CoreId) (op : Nat) (w : IWord) (ctr st : Nat) :
    OnlyCore k s (qTrace k op w ctr st s) (core s k) [] :=
  .of_within hs qTrace_within (qTrace_changesOnlyRegs _ _ _ _ _ _) (by decide)

/-! ### What a queue shows -/

/-- The registers of a queue have kept their values. -/
def SameQueue (q : Nat) (s t : State) : Prop := ∀ x, Reg.queueCtrl q ≤ x → x < Reg.queueCtrl (q + 1) → t.rd x = s.rd x

section
variable {k q : Nat} {s t u : State}

theorem SameQueue.trans (h : SameQueue q s t) (h' : SameQueue q t u) : SameQueue q s u := fun x hlo hhi =>
  (h' x hlo hhi).trans (h x hlo hhi)

/-- What an issue may change is nothing of a queue. -/
theorem sameQueue_of_issueRegs (hq : q < 1024) (w : RegsOk s) (h : ChangesOnlyRegs (issueRegs k) s t) : SameQueue q s t := by
  refine fun x hlo hhi => (h w).2 x (issueRegs_outside ?_ ?_ ?_ ?_) <;>
    simp only [Reg.queueCtrl, Reg.corePc, Reg.coreStatus] at * <;> omega

theorem SameQueue.of_onlyCore {k : CoreId} {c : CoreSt} (hq : q < 1024) (h : OnlyCore k s t c []) : SameQueue q s t := by
  obtain ⟨-, -, hregs, -⟩ := h
  refine fun x hlo hhi => hregs x (issueRegs_outside ?_ ?_ ?_ ?_) List.not_mem_nil <;>
    simp only [Reg.queueCtrl, Reg.corePc, Reg.coreStatus] at * <;> omega

section
variable (h : SameQueue q s t)
include h

theorem SameQueue.fld {x : Nat} (hlo : Reg.queueCtrl q ≤ x) (hhi : x < Reg.queueCtrl (q + 1)) (lo n : Nat) : t.fld x lo n = s.fld x lo n :=
  State.fld_of_rd (h x hlo hhi) lo n

theorem SameQueue.qState : qState t q = qState s q :=
  h.fld (by simp [Reg.queueCtrl, Reg.queueStatus]) (by simp only [Reg.queueCtrl, Reg.queueStatus]; omega) 0 2

theorem SameQueue.qHead : qHead t q = qHead s q :=
  h _ (by simp [Reg.queueCtrl, Reg.queueHead]) (by simp only [Reg.queueCtrl, Reg.queueHead]; omega)

theorem SameQueue.qTail : qTail t q = qTail s q :=
  h _ (by simp [Reg.queueCtrl, Reg.queueTail]) (by simp only [Reg.queueCtrl, Reg.queueTail]; omega)

theorem SameQueue.qResv : qResv t q = qResv s q :=
  h _ (by simp [Reg.queueCtrl, Reg.queueResv]) (by simp only [Reg.queueCtrl, Reg.queueResv]; omega)

theorem SameQueue.cfg (lo n : Nat) : t.fld (Reg.queueCfg q) lo n = s.fld (Reg.queueCfg q) lo n :=
  h.fld (by simp [Reg.queueCtrl, Reg.queueCfg]) (by simp only [Reg.queueCtrl, Reg.queueCfg]; omega) lo n

theorem SameQueue.qFill : qFill t q = qFill s q := by rw [Machine.qFill, h.qTail, h.qHead, Machine.qFill]

theorem SameQueue.qDepth : qDepth t q = qDepth s q := by rw [Machine.qDepth, h.cfg, Machine.qDepth]

theorem SameQueue.qFree : qFree t q = qFree s q := by rw [Machine.qFree, h.qDepth, h.qResv, h.qHead, Machine.qFree]

theorem SameQueue.qSlot (c : Nat) : qSlot t q c = qSlot s q c := by
  have hbase : t.rdQ (Reg.queueBase q) 2 = s.rdQ (Reg.queueBase q) 2 :=
    State.rdQ_of_rd fun x hlo hhi => h x (by simp only [Reg.queueCtrl, Reg.queueBase] at *; omega)
      (by simp only [Reg.queueCtrl, Reg.queueBase] at *; omega)
  rw [Machine.qSlot, hbase, h.qDepth, qEsize, h.cfg, Machine.qSlot, qEsize]

theorem SameQueue.mayProduce (k : Nat) : mayProduce t k q = mayProduce s k q := by
  have hmask : t.bit (Reg.queueProdMask q) k = s.bit (Reg.queueProdMask q) k :=
    State.bit_of_rd (h _ (by simp [Reg.queueCtrl, Reg.queueProdMask]) (by simp only [Reg.queueCtrl, Reg.queueProdMask]; omega)) k
  rw [Machine.mayProduce, qProd, h.cfg, hmask, Machine.mayProduce, qProd]

theorem SameQueue.mayConsume (k : Nat) : mayConsume t k q = mayConsume s k q := by
  rw [Machine.mayConsume, qCons, h.cfg, h.cfg, Machine.mayConsume, qCons]

end

theorem syncDue_sameQueue (hq : q < 1024) (w : RegsOk s) : SameQueue q s (syncDue k s) :=
  sameQueue_of_issueRegs hq w (syncDue_changesOnlyRegs k s)

end

theorem tqQ_lt (w : IWord) : tqQ w < 1024 := fieldN_lt _ _ _

/-! ### The end of a queue operation -/

section
variable {k : CoreId} {w : IWord} {s s0 u : State} {tw : Writes} {op ctr st : Nat}

/-- A queue operation that has left no more than a change of its core is complete. -/
theorem tqTraced_wordDone {l : List Nat} (hu : u.wf = true) (hi : issues s k w = true) (hw : OnlyTq w)
    (h : OnlyCore k s0 u (core s k) l) (hpc0 : (core s0 k).pc = (core s k).pc) :
    WordDone k s0 (wordEnd k w (tqOnly tw) s (qTrace k op w ctr st u)) (coreAfter (tqOnly tw) (core s k) (core s k)) l := by
  have htrace := qTrace_onlyCore hu k op w ctr st
  rw [h.1] at htrace
  exact tqEnd_wordDone (qTrace_within.wf hu) hi hw ((List.append_nil l).subst (motive := OnlyCore k s0 _ (core s k)) (h.trans htrace)) hpc0

/-- After the change of its queue, an operation changes no more than its core. -/
theorem tqTraced_onlyCore (hu : u.wf = true) (hi : issues s k w = true) (hw : OnlyTq w) (h : core u k = core s k) :
    OnlyCore k u (wordEnd k w (tqOnly tw) s (qTrace k op w ctr st u)) (coreAfter (tqOnly tw) (core s k) (core s k)) [] :=
  (tqTraced_wordDone hu hi hw (.refl h) (by rw [h])).1

end

theorem Part.same_symm {s t : State} (p : Part) (h : p.same s t) : p.same t s := by
  cases p <;> exact Eq.symm h

/-- A free value has been taken besides. -/
theorem OnlyCore.tickFree {k : CoreId} {s t : State} {c : CoreSt} {l : List Nat} (h : OnlyCore k s t c l) :
    OnlyCore k s.tickFree t.tickFree c l := by
  obtain ⟨hcore, hothers, hregs, hparts⟩ := h
  refine ⟨hcore, hothers, hregs, fun p hp => ?_⟩
  have htick (u : State) : ∀ p : Part, p ∉ [.freeCtr] → p.same u u.tickFree := State.tickFree_within.same_of_not_mem (by decide)
  by_cases hfree : p = .freeCtr
  · subst hfree
    exact congrArg (· + 1) (hparts .freeCtr hp)
  · have hne : p ∉ [.freeCtr] := by simp [hfree]
    exact p.same_trans (p.same_symm (htick s p hne)) (p.same_trans (hparts p hp) (htick t p hne))

/-! ### The counters of a queue after its operations (R167, R170, R172) -/

section
variable {q : Nat} {s : State}

/-- What keeps QUEUE_STATUS and the high-water mark as the counters stand changes no counter. -/
theorem qSync_rd (w : RegsOk s) {x : Nat} (hst : x ≠ Reg.queueStatus q) (hhwm : x ≠ Reg.queueHwm q) : (qSync q s).rd x = s.rd x := by
  have w1 : RegsOk (s.putB (Reg.queueStatus q) 3 (qFill s q == 0)) := regsOk_putB w
  have hput : ((s.putB (Reg.queueStatus q) 3 (qFill s q == 0)).putB (Reg.queueStatus q) 4
      (qFree s q == 0)).rd x = s.rd x :=
    (State.rd_putB_ne w1 hst).trans (State.rd_putB_ne w hst)
  unfold qSync
  dsimp only
  split
  · exact (State.rd_putF_ne (regsOk_putB w1) hhwm).trans hput
  · exact hput

theorem qSync_counters (w : RegsOk s) :
    qHead (qSync q s) q = qHead s q ∧ qTail (qSync q s) q = qTail s q ∧ qResv (qSync q s) q = qResv s q :=
  ⟨qSync_rd w (by simp [Reg.queueHead, Reg.queueStatus]) (by simp [Reg.queueHead, Reg.queueHwm]),
    qSync_rd w (by simp [Reg.queueTail, Reg.queueStatus]) (by simp [Reg.queueTail, Reg.queueHwm]),
    qSync_rd w (by simp [Reg.queueResv, Reg.queueStatus]) (by simp [Reg.queueResv, Reg.queueHwm])⟩

theorem qRel_counters (w : RegsOk s) (n : Nat) :
    qHead (qRel q n s) q = qHead s q + BitVec.ofNat 32 n ∧ qTail (qRel q n s) q = qTail s q ∧ qResv (qRel q n s) q = qResv s q := by
  obtain ⟨hhead, htail, hresv⟩ := qSync_counters (q := q) (regsOk_wr w : RegsOk (s.wr (Reg.queueHead q) (qHead s q + BitVec.ofNat 32 n)))
  exact ⟨hhead.trans (State.rd_wr_same w), htail.trans (State.rd_wr_ne w (by simp [Reg.queueHead, Reg.queueTail])),
    hresv.trans (State.rd_wr_ne w (by simp [Reg.queueHead, Reg.queueResv]))⟩

theorem qReserve_counters (w : RegsOk s) (n : Nat) (h : Holder) :
    qHead (qReserve q n h s) q = qHead s q ∧ qTail (qReserve q n h s) q = qTail s q ∧
      qResv (qReserve q n h s) q = qResv s q + BitVec.ofNat 32 n := by
  obtain ⟨hhead, htail, hresv⟩ := qSync_counters (q := q) (s := (setSlots s q (qSlots s q ++
    (List.range n).map fun i => ⟨((qResv s q).toNat + i) % 2 ^ 32, some h, false⟩)).wrN (Reg.queueResv q) ((qResv s q).toNat + n)) (regsOk_wr w)
  refine ⟨hhead.trans (State.rd_wr_ne (s := setSlots s q _) w (by simp [Reg.queueHead, Reg.queueResv])),
    htail.trans (State.rd_wr_ne (s := setSlots s q _) w (by simp [Reg.queueTail, Reg.queueResv])),
    hresv.trans ((State.rd_wr_same (s := setSlots s q _) w).trans ?_)⟩
  rw [BitVec.ofNat_add, BitVec.ofNat_toNat, BitVec.setWidth_eq]

theorem State.wf_slots (w : s.wf = true) : Tab.wf (fun _ => ([] : List Slot)) s.slots = true := by
  simp only [State.wf, Bool.and_eq_true] at w
  exact w.2

theorem qReserve_slots (w : s.wf = true) (n : Nat) (h : Holder) :
    qSlots (qReserve q n h s) q = qSlots s q ++ (List.range n).map fun i => ⟨((qResv s q).toNat + i) % 2 ^ 32, some h, false⟩ := by
  rw [qReserve, qSlots, qSync_within.slots rfl]
  exact Tab.get_set_same q _ (State.wf_slots w)

end

end Sys2Proof.Machine
end

section
/-! SUPPORT. QRES, QACQ, QREL and QCMT by the state of their queue (R167 to R172, R207 to R209). -/

namespace Sys2Proof.Machine

/-! ### What each operation answers -/

section
variable {k : Nat} {w : IWord} {s : State} (hopen : waitClosed s k = false)
include hopen

theorem tqQres_reserves (hst : qState s (tqQ w) = 1) (hp : mayProduce s k (tqQ w) = true) (hn : tqN w ≤ qFree s (tqQ w)) :
    tqQres k w s = .done (qResult w (qSlot s (tqQ w) (qResv s (tqQ w)).toNat) 0 (qResv s (tqQ w)).toNat)
      (qTrace k 0 w (qResv s (tqQ w)).toNat 0 (qReserve (tqQ w) (tqN w) (.core k) s)) := by
  simp [tqQres, hopen, hst, hp, hn]

theorem tqQres_full (hst : qState s (tqQ w) = 1) (hp : mayProduce s k (tqQ w) = true) (hn : qFree s (tqQ w) < tqN w)
    (hnb : tqNb w = true) : tqQres k w s = .done (qResult w 0 1 (noSlot s)) (qTrace k 0 w 0 1 s.tickFree) := by
  simp [tqQres, hopen, hst, hp, hnb, Nat.not_le.mpr hn]

theorem tqQres_unused (hst : qState s (tqQ w) = 3) :
    tqQres k w s = .done (qResult w 0 3 (noSlot s)) (qTrace k 0 w 0 3 s.tickFree) := by
  simp [tqQres, hopen, hst]

theorem tqQres_closed (h1 : qState s (tqQ w) ≠ 1) (h3 : qState s (tqQ w) ≠ 3) (hp : mayProduce s k (tqQ w) = true) :
    tqQres k w s = .done (qResult w 0 3 (noSlot s)) (qTrace k 0 w 0 3 (s.sat (Reg.queueRefused (tqQ w))).tickFree) := by
  simp [tqQres, hopen, h1, h3, hp]

/-- The fill and the head counter of a queue, as QACQ shows them (R207). -/
def qShown (s : State) (q : Nat) : Nat := qFill s q % 2 ^ 17 * 2 ^ 32 + (qHead s q).toNat

theorem tqQacq_element (hst : qState s (tqQ w) = 1 ∨ qState s (tqQ w) = 2) (hc : mayConsume s k (tqQ w) = true)
    (hf : qFill s (tqQ w) ≠ 0) : tqQacq k w s = .done (qResult w (qSlot s (tqQ w) (qHead s (tqQ w)).toNat) 0 (qShown s (tqQ w)))
      (qTrace k 2 w (qHead s (tqQ w)).toNat 0 s) := by
  have h3 : qState s (tqQ w) ≠ 3 := by omega
  have h0 : qState s (tqQ w) ≠ 0 := by omega
  simp [tqQacq, hopen, h3, h0, hc, hf, qShown]

theorem tqQacq_empty (hst : qState s (tqQ w) = 1 ∨ qState s (tqQ w) = 2) (hc : mayConsume s k (tqQ w) = true)
    (hf : qFill s (tqQ w) = 0) (hnb : tqNb w = true) :
    tqQacq k w s = .done (qResult w 0 2 (qShown s (tqQ w))) (qTrace k 2 w 0 2 s) := by
  have h3 : qState s (tqQ w) ≠ 3 := by omega
  have h0 : qState s (tqQ w) ≠ 0 := by omega
  simp [tqQacq, hopen, h3, h0, hc, hf, hnb, qShown]

theorem tqQacq_closed (hst : qState s (tqQ w) = 3 ∨ qState s (tqQ w) = 0 ∧ mayConsume s k (tqQ w) = true) :
    tqQacq k w s = .done (qResult w 0 3 (qShown s (tqQ w))) (qTrace k 2 w 0 3 s) := by
  rcases hst with h3 | ⟨h0, hc⟩
  · simp [tqQacq, hopen, h3, qShown]
  · simp [tqQacq, hopen, h0, hc, qShown]

end

section
variable {k : Nat} {w : IWord} {c : CoreSt} {s : State}

/-- The count of a QREL: its immediate, or a register (R208). -/
def relCount (w : IWord) (c : CoreSt) : Nat := if tqF w 46 1 = 1 then (c.sreg (tqRs w)).toNat else tqN w

theorem tqQrel_releases (h3 : qState s (tqQ w) ≠ 3) (hc : mayConsume s k (tqQ w) = true) (hn : relCount w c ≠ 0)
    (hf : relCount w c ≤ qFill s (tqQ w)) :
    tqQrel k w c s = .done .none (qTrace k 3 w (qHead s (tqQ w)).toNat 0 (qRel (tqQ w) (relCount w c) s)) := by
  have hlt := Nat.not_lt.mpr hf
  rw [relCount] at hn hlt
  simp [tqQrel, h3, hc, hn, hlt, relCount]

theorem tqQcmt_commits (h3 : qState s (tqQ w) ≠ 3) (hp : mayProduce s k (tqQ w) = true)
    (hh : holdsSlot s k (tqQ w) (c.sreg (tqRs w)).toNat = true) :
    tqQcmt k w c s = .done .none (qTrace k 1 w (c.sreg (tqRs w)).toNat 0 (qCommit (tqQ w) (c.sreg (tqRs w)).toNat s)) := by
  simp [tqQcmt, h3, hp, hh]

end

theorem tqEffect_qres {k : Nat} {w : IWord} (hop : tqOp w = 0x01) (c : CoreSt) (s : State) : tqEffect k w c false s = tqQres k w s := by
  simp [tqEffect, hop]

theorem tqEffect_qacq {k : Nat} {w : IWord} (hop : tqOp w = 0x03) (c : CoreSt) (s : State) : tqEffect k w c false s = tqQacq k w s := by
  simp [tqEffect, hop]

theorem tqEffect_qcmt {k : Nat} {w : IWord} (hop : tqOp w = 0x02) (c : CoreSt) (s : State) : tqEffect k w c false s = tqQcmt k w c s := by
  simp [tqEffect, hop]

theorem tqEffect_qrel {k : Nat} {w : IWord} (hop : tqOp w = 0x04) (c : CoreSt) (s : State) : tqEffect k w c false s = tqQrel k w c s := by
  simp [tqEffect, hop]

/-! ### The command of a QRES -/

section
variable {k : CoreId} {v w : IWord} {s : State}

theorem syncDue_core (j : Nat) : core (syncDue k s) j = core s j := core_of_cores (syncDue_within.cores rfl) j

theorem waitClosed_syncDue (hi : issues s k v = true) : waitClosed (syncDue k s) k = false :=
  waitClosed_of_none (by rw [syncDue_core, wait_of_mayIssue (mayIssue_of_issues hi)])

theorem coreAfter_tqNone (c : CoreSt) : coreAfter (tqOnly .none) c c = { c with pc := c.pc + 64 } := rfl

/-- The state before an operation, beside the free value that the operation has taken. -/
theorem WordDone.of_tickFree {t : State} {c : CoreSt} {l : List Nat} (h : WordDone k s.tickFree t c l) :
    WordDone k { s with freeCtr := t.freeCtr } t c l := by
  have hfree : t.freeCtr = s.freeCtr + 1 := by
    obtain ⟨⟨-, -, -, hparts⟩, -, -⟩ := h
    exact hparts .freeCtr (by decide)
  rw [hfree]
  exact h

theorem ofNat_shiftLeft (x n : Nat) : BitVec.ofNat 64 (x * 2 ^ n) = BitVec.ofNat 64 x <<< n := by
  refine BitVec.eq_of_toNat_eq ?_
  simp [Nat.shiftLeft_eq]

/-- A QRES that reserves nothing shows its status and a free slot counter (log entry 75). -/
theorem exec_qres_fails {st : Nat} {l : List Nat} {u : State} (hv : v = withTq 0x01 w) (hi : issues s k v = true) (hw : OnlyTq v)
    (hop : tqOp v = 0x01) (hu : u.wf = true) (h : OnlyCore k s u (core s k) l)
    (e : tqQres k v (syncDue k s) = .done (qResult v 0 st (noSlot (syncDue k s))) (qTrace k 0 v 0 st u.tickFree)) :
    ∃ (t : State) (x : W32), exec (.qres k w) s = .next t ∧ SameQueue (tqQ v) u t ∧
      WordDone k { s with freeCtr := t.freeCtr } t { ((core s k).setS (tqRd v) 0).setS (tqRd v + 1)
        (BitVec.ofNat 64 st <<< 60 + x.setWidth 64) with pc := (core s k).pc + 64 } l := by
  have htick : u.tickFree.wf = true := State.tickFree_within.wf hu
  have hdone := tqTraced_wordDone (tw := qResult v 0 st (noSlot (syncDue k s))) (op := 0) (ctr := 0) (st := st) htick hi hw
    (s0 := s.tickFree) h.tickFree rfl
  have hqueue := tqTraced_onlyCore (tw := qResult v 0 st (noSlot (syncDue k s))) (op := 0) (ctr := 0) (st := st) htick hi hw h.1
  have hslot : BitVec.ofNat 64 (st * 2 ^ 60 + noSlot (syncDue k s)) =
      BitVec.ofNat 64 st <<< 60 + (Config.freeWord (syncDue k s).freeCtr).setWidth 64 := by
    rw [BitVec.ofNat_add, ofNat_shiftLeft, noSlot, BitVec.ofNat_toNat]
  have hsame : SameQueue (tqQ v) u.tickFree _ := .of_onlyCore (tqQ_lt v) hqueue
  rw [coreAfter_qResult, hslot] at hdone
  exact ⟨_, _, exec_onlyTq (by rw [hv]; rfl) hi hw ((tqEffect_qres hop _ _).trans e), hsame, hdone.of_tickFree⟩

variable (hs : s.wf = true) (hi : issues s k v = true) (hw : OnlyTq v)

include hs in
theorem syncDue_same (v : IWord) : SameQueue (tqQ v) s (syncDue k s) := syncDue_sameQueue (tqQ_lt v) (State.wf_regs hs)

include hs hi hw

/-- QRES reserves the slots behind those reserved (R167, R169). -/
theorem exec_qres_reserves (hv : v = withTq 0x01 w) (hop : tqOp v = 0x01) (hst : qState s (tqQ v) = 1)
    (hp : mayProduce s k (tqQ v) = true) (hn : tqN v ≤ qFree s (tqQ v)) : ∃ t, exec (.qres k w) s = .next t ∧
      core t k = { ((core s k).setS (tqRd v) (BitVec.ofNat 64 (qSlot s (tqQ v) (qResv s (tqQ v)).toNat))).setS (tqRd v + 1)
        ((qResv s (tqQ v)).setWidth 64) with pc := (core s k).pc + 64 } ∧
      qResv t (tqQ v) = qResv s (tqQ v) + BitVec.ofNat 32 (tqN v) ∧ qTail t (tqQ v) = qTail s (tqQ v) ∧
      qHead t (tqQ v) = qHead s (tqQ v) ∧ t.mem = s.mem ∧ qSlots t (tqQ v) = qSlots s (tqQ v) ++
        (List.range (tqN v)).map fun i => ⟨((qResv s (tqQ v)).toNat + i) % 2 ^ 32, some (.core k), false⟩ := by
  have hsync := syncDue_same (k := k) hs v
  have he : (syncDue k s).wf = true := syncDue_within.wf hs
  have e := tqQres_reserves (waitClosed_syncDue hi) (hsync.qState.trans hst) ((hsync.mayProduce k).trans hp) (hsync.qFree ▸ hn)
  rw [hsync.qResv, hsync.qSlot] at e
  obtain ⟨hhead, htail, hresv⟩ := qReserve_counters (q := tqQ v) (State.wf_regs he) (tqN v) (.core k)
  have hslots := qReserve_slots (q := tqQ v) he (tqN v) (.core k)
  have hu : (qReserve (tqQ v) (tqN v) (.core k) (syncDue k s)).wf = true := qReserve_within.wf he
  have hcore : core (qReserve (tqQ v) (tqN v) (.core k) (syncDue k s)) k = core s k :=
    (core_of_cores (qReserve_within.cores rfl) k).trans (syncDue_core k)
  have hdone := tqTraced_onlyCore (tw := qResult v (qSlot s (tqQ v) (qResv s (tqQ v)).toNat) 0 (qResv s (tqQ v)).toNat) (op := 0)
    (ctr := (qResv s (tqQ v)).toNat) (st := 0) hu hi hw hcore
  have hsame := SameQueue.of_onlyCore (tqQ_lt v) hdone
  obtain ⟨hfinal, -, -, hparts⟩ := hdone
  refine ⟨_, exec_onlyTq (by rw [hv]; rfl) hi hw ((tqEffect_qres hop _ _).trans e), ?_, ?_, ?_, ?_, ?_, ?_⟩
  · rw [hfinal, coreAfter_qResult, Nat.zero_mul, Nat.zero_add, BitVec.ofNat_toNat]
  · rw [hsame.qResv, hresv, hsync.qResv]
  · rw [hsame.qTail, htail, hsync.qTail]
  · rw [hsame.qHead, hhead, hsync.qHead]
  · exact (hparts .mem (by decide)).trans ((qReserve_within.mem rfl).trans (syncDue_within.mem rfl))
  · rw [qSlots, show State.slots _ = _ from hparts .slots (by decide), ← qSlots, hslots, hsync.qResv, qSlots, syncDue_within.slots rfl, ← qSlots]

/-- A QRES that would not wait for room shows FULL, and one of a queue without an owner shows CLOSED. -/
theorem exec_qres_unreserved {st : Nat} (hv : v = withTq 0x01 w) (hop : tqOp v = 0x01)
    (e : tqQres k v (syncDue k s) = .done (qResult v 0 st (noSlot (syncDue k s))) (qTrace k 0 v 0 st (syncDue k s).tickFree)) :
    ∃ (t : State) (x : W32), exec (.qres k w) s = .next t ∧
      WordDone k { s with freeCtr := t.freeCtr } t { ((core s k).setS (tqRd v) 0).setS (tqRd v + 1)
        (BitVec.ofNat 64 st <<< 60 + x.setWidth 64) with pc := (core s k).pc + 64 } [] := by
  obtain ⟨t, x, hex, -, hdone⟩ := exec_qres_fails hv hi hw hop (syncDue_within.wf hs) (syncDue_onlyCore hs k) e
  exact ⟨t, x, hex, hdone⟩

/-- A QRES of a queue that is not ENABLED is counted as refused. -/
theorem exec_qres_closed (hv : v = withTq 0x01 w) (hop : tqOp v = 0x01) (h1 : qState s (tqQ v) ≠ 1) (h3 : qState s (tqQ v) ≠ 3)
    (hp : mayProduce s k (tqQ v) = true) : ∃ (t : State) (x : W32), exec (.qres k w) s = .next t ∧
      WordDone k { s with freeCtr := t.freeCtr } t { ((core s k).setS (tqRd v) 0).setS (tqRd v + 1)
        (3#64 <<< 60 + x.setWidth 64) with pc := (core s k).pc + 64 } [Reg.queueRefused (tqQ v)] ∧
      (t.rd (Reg.queueRefused (tqQ v))).toNat = min ((s.rd (Reg.queueRefused (tqQ v))).toNat + 1) 0xFFFFFFFF := by
  have hsync := syncDue_same (k := k) hs v
  have he : (syncDue k s).wf = true := syncDue_within.wf hs
  have hin (x : Nat) (hx : x = Reg.queueRefused (tqQ v)) : Reg.queueCtrl (tqQ v) ≤ x ∧ x < Reg.queueCtrl (tqQ v + 1) := by
    simp only [hx, Reg.queueRefused, Reg.queueCtrl]
    omega
  have hcount : OnlyCore k (syncDue k s) ((syncDue k s).sat (Reg.queueRefused (tqQ v))) (core s k) [Reg.queueRefused (tqQ v)] :=
    ⟨syncDue_core k, fun _ _ => rfl, fun x _ hx => State.rd_wr_ne (State.wf_regs he) fun e => hx (by simp [e]),
      State.sat_within.same_of_not_mem (by decide)⟩
  obtain ⟨t, x, hex, hsame, hdone⟩ := exec_qres_fails hv hi hw hop (State.sat_within.wf he) ((syncDue_onlyCore hs k).trans hcount)
    (tqQres_closed (waitClosed_syncDue hi) (by rwa [hsync.qState]) (by rwa [hsync.qState]) ((hsync.mayProduce k).trans hp))
  obtain ⟨hlo, hhi⟩ := hin _ rfl
  refine ⟨t, x, hex, hdone, ?_⟩
  rw [hsame _ hlo hhi, State.sat, State.satAdd, State.rd_wrN_toNat (State.wf_regs he) (by omega), hsync _ hlo hhi]

/-- A QACQ changes no queue: it shows an address, the fill and the head counter (R207). -/
theorem exec_qacq_shows {addr st : Nat} (hv : v = withTq 0x03 w) (hop : tqOp v = 0x03) {ctr : Nat}
    (e : tqQacq k v (syncDue k s) = .done (qResult v addr st (qShown (syncDue k s) (tqQ v))) (qTrace k 2 v ctr st (syncDue k s))) :
    ∃ t, exec (.qacq k w) s = .next t ∧ WordDone k s t { ((core s k).setS (tqRd v) (BitVec.ofNat 64 addr)).setS (tqRd v + 1)
      (BitVec.ofNat 64 (st * 2 ^ 60 + qShown s (tqQ v))) with pc := (core s k).pc + 64 } [] := by
  have hsync := syncDue_same (k := k) hs v
  rw [qShown, hsync.qFill, hsync.qHead, ← qShown] at e
  refine ⟨_, exec_onlyTq (by rw [hv]; rfl) hi hw ((tqEffect_qacq hop _ _).trans e), ?_⟩
  rw [← coreAfter_qResult]
  exact tqTraced_wordDone (syncDue_within.wf hs) hi hw (syncDue_onlyCore hs k) rfl

/-- QREL releases elements, and changes nothing else of its queue (R172). -/
theorem exec_qrel_releases (hv : v = withTq 0x04 w) (hop : tqOp v = 0x04) (h3 : qState s (tqQ v) ≠ 3) (hc : mayConsume s k (tqQ v) = true)
    (hn : relCount v (core s k) ≠ 0) (hf : relCount v (core s k) ≤ qFill s (tqQ v)) : ∃ t, exec (.qrel k w) s = .next t ∧
      core t k = { core s k with pc := (core s k).pc + 64 } ∧
      qHead t (tqQ v) = qHead s (tqQ v) + BitVec.ofNat 32 (relCount v (core s k)) ∧ qTail t (tqQ v) = qTail s (tqQ v) ∧
      qResv t (tqQ v) = qResv s (tqQ v) ∧ qSlots t (tqQ v) = qSlots s (tqQ v) ∧ t.mem = s.mem := by
  have hsync := syncDue_same (k := k) hs v
  have he : (syncDue k s).wf = true := syncDue_within.wf hs
  have e := tqQrel_releases (w := v) (c := core s k) (by rwa [hsync.qState]) ((hsync.mayConsume k).trans hc) hn (hsync.qFill ▸ hf)
  obtain ⟨hhead, htail, hresv⟩ := qRel_counters (q := tqQ v) (State.wf_regs he) (relCount v (core s k))
  have hcore : core (qRel (tqQ v) (relCount v (core s k)) (syncDue k s)) k = core s k :=
    (core_of_cores (qRel_within.cores rfl) k).trans (syncDue_core k)
  have hdone := tqTraced_onlyCore (tw := .none) (op := 3) (ctr := (qHead (syncDue k s) (tqQ v)).toNat) (st := 0)
    (qRel_within.wf he) hi hw hcore
  have hsame := SameQueue.of_onlyCore (tqQ_lt v) hdone
  obtain ⟨hfinal, -, -, hparts⟩ := hdone
  refine ⟨_, exec_onlyTq (by rw [hv]; rfl) hi hw ((tqEffect_qrel hop _ _).trans e), hfinal, ?_, ?_, ?_, ?_, ?_⟩
  · rw [hsame.qHead, hhead, hsync.qHead]
  · rw [hsame.qTail, htail, hsync.qTail]
  · rw [hsame.qResv, hresv, hsync.qResv]
  · rw [qSlots, show State.slots _ = _ from hparts .slots (by decide), qRel_within.slots rfl, syncDue_within.slots rfl, ← qSlots]
  · exact (hparts .mem (by decide)).trans ((qRel_within.mem rfl).trans (syncDue_within.mem rfl))

/-- QCMT commits its slot (R170). -/
theorem exec_qcmt_commits (hv : v = withTq 0x02 w) (hop : tqOp v = 0x02) (h3 : qState s (tqQ v) ≠ 3) (hp : mayProduce s k (tqQ v) = true)
    (hh : holdsSlot s k (tqQ v) ((core s k).sreg (tqRs v)).toNat = true) : exec (.qcmt k w) s =
      .next (finishWord k v (core s k) (tqOnly .none) false (qTrace k 1 v ((core s k).sreg (tqRs v)).toNat 0
        (qCommit (tqQ v) ((core s k).sreg (tqRs v)).toNat (entryState k v s)))) := by
  have hsync := syncDue_same (k := k) hs v
  have hholds : holdsSlot (syncDue k s) k (tqQ v) ((core s k).sreg (tqRs v)).toNat = true := by
    rw [holdsSlot, qSlots, syncDue_within.slots rfl]
    exact hh
  rw [entryState_onlyTq hw]
  exact exec_onlyTq (by rw [hv]; rfl) hi hw ((tqEffect_qcmt hop _ _).trans
    (tqQcmt_commits (by rwa [hsync.qState]) ((hsync.mayProduce k).trans hp) hholds))

end

end Sys2Proof.Machine
end

section
/-! SUPPORT. What the end of a wait leaves in the registers (R162, R164, R215 to R217), and the tail of a queue that takes a commit
(R170). -/

namespace Sys2Proof.Machine

/-! ### Fields that exceptions, wakes and the end of a wait keep -/

/-- A field of a register that the end of a wait of a core writes nowhere: it may show an exception, a wake cause, the address of its
word, and that the core is not blocked. -/
structure KeptInWaits (x lo n : Nat) : Prop where
  low : x < 0x2700000
  excStatus (k : Nat) : x ≠ Reg.coreExcStatus k
  excPc (k : Nat) : x ≠ Reg.coreExcPc k
  excPcHigh (k : Nat) : x ≠ Reg.coreExcPc k + 4
  excAddr (k : Nat) : x ≠ Reg.coreExcAddr k
  excAddrHigh (k : Nat) : x ≠ Reg.coreExcAddr k + 4
  excInfo (k : Nat) : x ≠ Reg.coreExcInfo k
  wakeCause (k : Nat) : x ≠ Reg.coreWakeCause k
  pc (k : Nat) : x ≠ Reg.corePc k
  pcHigh (k : Nat) : x ≠ Reg.corePc k + 4
  status (k : Nat) : x = Reg.coreStatus k → lo + n ≤ 6

/-- The state of a core is kept. -/
theorem keptInWaits_coreState (j : CoreId) : KeptInWaits (Reg.coreStatus j) 0 2 := by
  have := j.isLt
  refine ⟨by simp only [Reg.coreStatus]; omega, ?_, ?_, ?_, ?_, ?_, ?_, ?_, ?_, ?_, fun _ _ => by decide⟩ <;>
    simp only [Reg.coreStatus, Reg.coreExcStatus, Reg.coreExcPc, Reg.coreExcAddr, Reg.coreExcInfo, Reg.coreWakeCause, Reg.corePc] <;> omega

/-- The registers of the queues are kept. -/
theorem keptInWaits_low {x : Nat} (h : x < 0x1000000) (lo n : Nat) : KeptInWaits x lo n := by
  have hstatus (k : Nat) : x ≠ Reg.coreStatus k := by simp only [Reg.coreStatus]; omega
  refine ⟨by omega, ?_, ?_, ?_, ?_, ?_, ?_, ?_, ?_, ?_, fun k e => absurd e (hstatus k)⟩ <;>
    simp only [Reg.coreExcStatus, Reg.coreExcPc, Reg.coreExcAddr, Reg.coreExcInfo, Reg.coreWakeCause, Reg.corePc] <;> omega

section
variable {x lo n : Nat} {s t : State}

theorem KeepsFld.rd_eq (h : KeepsFld x 0 32 s t) (w : RegsOk s) : t.rd x = s.rd x := by
  have hfld := (h w).2
  simp only [State.fld, fieldN, Nat.pow_zero, Nat.div_one] at hfld
  rw [Nat.mod_eq_of_lt (t.rd x).isLt, Nat.mod_eq_of_lt (s.rd x).isLt] at hfld
  exact BitVec.eq_of_toNat_eq hfld

theorem KeepsFld.ite {c : Prop} [Decidable c] {a b : State} (ha : KeepsFld x lo n s a) (hb : KeepsFld x lo n s b) :
    KeepsFld x lo n s (if c then a else b) := by split <;> assumption

theorem wrQ_two_keepsFld {a v : Nat} (h : x ≠ a) (h4 : x ≠ a + 4) : KeepsFld x lo n s (s.wrQ a 2 v) :=
  (wr_keepsFld h).trans (wr_keepsFld h4)

theorem setCore_keepsFld (k : Nat) (c : CoreSt) : KeepsFld x lo n s (setCore s k c) := .of_regs rfl

end

/-- What an exception shows of itself (R216, R217). -/
def excNoted (k : Nat) (e : Exc) (ea : W64) (s : State) : State :=
  let s := (s.putF (Reg.coreExcStatus k) 3 4 e.cause).satF (Reg.coreExcStatus k) 16 16
  let s := (s.wrQ (Reg.coreExcPc k) 2 e.epc.toNat).wrQ (Reg.coreExcAddr k) 2 ea.toNat
  traceCore k 0x6 (codeAddr e.epc.toNat e.cause) (s.wrN (Reg.coreExcInfo k) (e.field + 8 * e.queue + 2 ^ 16 * e.code))

/-- The core goes on at its handler (R216). -/
def excHandled (k : Nat) (e : Exc) (ea : W64) (s : State) : State :=
  let s := s.putB (Reg.coreExcStatus k) 1 true
  setCore s k { core s k with epc := e.epc, eaddr := ea, pc := BitVec.ofNat 64 (s.rdQ (Reg.coreExcHandler k) 2) }

/-- The core stops (R217). -/
def excHalted (k : Nat) (e : Exc) (ea : W64) (inH : Bool) (s : State) : State :=
  let s := (s.putB (Reg.coreExcStatus k) 0 true).putB (Reg.coreExcStatus k) 2 (inH || s.bit (Reg.coreExcStatus k) 2)
  let s := setCore s k { core s k with epc := e.epc, eaddr := ea }
  traceCore k 0x8 (codeAddr (s.rdQ (Reg.corePc k) 2) 1) s

/-- The core has stopped, and its interrupt is raised where one is asked for (R217). -/
def excStopped (k : Nat) (e : Exc) (ea : W64) (inH : Bool) (s : State) : State :=
  let s := excHalted k e ea inH s
  if s.bit (Reg.coreExcCfg k) 2 then s.raise (s.fld (Reg.coreExcCfg k) 8 8) else s

theorem takeException_eq (k : Nat) (e : Exc) (s : State) : ∃ (s0 : State) (ea : W64), s0.regs = s.regs ∧ Within 67108864 s s0 ∧
    takeException k e s = (if (excNoted k e ea s0).bit (Reg.coreExcCfg k) 0 && !s0.bit (Reg.coreExcStatus k) 1 then
      excHandled k e ea (excNoted k e ea s0) else excStopped k e ea (s0.bit (Reg.coreExcStatus k) 1) (excNoted k e ea s0)) := by
  refine ⟨if e.addr.isNone then s.tickFree.tickFree else s, e.addr.getD (freeQ s), ?_, ?_, rfl⟩
  · split <;> rfl
  · exact .ite (.step State.tickFree_within (by decide) State.tickFree_within) (.refl _ _)

section
variable {x lo n : Nat} (h : KeptInWaits x lo n)
include h

theorem KeptInWaits.ne_traceStatus : x ≠ Reg.traceStatus := by
  have := h.low
  simp only [Reg.traceStatus]
  omega

theorem raise_keepsFld (v : Nat) (s : State) : KeepsFld x lo n s (s.raise v) := by
  refine (raise_changesOnlyRegs v s).keepsFld ?_
  have := h.low
  simp only [Reg.msixPba, beq_eq_false_iff_ne]
  omega

theorem excNoted_keepsFld (k : Nat) (e : Exc) (ea : W64) (s : State) : KeepsFld x lo n s (excNoted k e ea s) := by
  refine KeepsFld.trans ?_ (traceCore_keepsFld h.ne_traceStatus _ _ _ _)
  refine KeepsFld.trans ?_ (wr_keepsFld (h.excInfo k))
  refine KeepsFld.trans ?_ (wrQ_two_keepsFld (h.excAddr k) (h.excAddrHigh k))
  refine KeepsFld.trans ?_ (wrQ_two_keepsFld (h.excPc k) (h.excPcHigh k))
  exact (wr_keepsFld (h.excStatus k)).trans (wr_keepsFld (h.excStatus k))

theorem excHandled_keepsFld (k : Nat) (e : Exc) (ea : W64) (s : State) : KeepsFld x lo n s (excHandled k e ea s) :=
  KeepsFld.trans (wr_keepsFld (h.excStatus k)) (setCore_keepsFld _ _)

theorem excHalted_keepsFld (k : Nat) (e : Exc) (ea : W64) (inH : Bool) (s : State) : KeepsFld x lo n s (excHalted k e ea inH s) := by
  refine KeepsFld.trans ?_ (traceCore_keepsFld h.ne_traceStatus _ _ _ _)
  refine KeepsFld.trans ?_ (setCore_keepsFld _ _)
  exact (wr_keepsFld (h.excStatus k)).trans (wr_keepsFld (h.excStatus k))

theorem excStopped_keepsFld (k : Nat) (e : Exc) (ea : W64) (inH : Bool) (s : State) : KeepsFld x lo n s (excStopped k e ea inH s) :=
  .ite ((excHalted_keepsFld h k e ea inH s).trans (raise_keepsFld h _ _)) (excHalted_keepsFld h k e ea inH s)

theorem takeException_keepsFld (k : Nat) (e : Exc) (s : State) : KeepsFld x lo n s (takeException k e s) := by
  obtain ⟨s0, ea, hregs, -, heq⟩ := takeException_eq k e s
  have hnoted : KeepsFld x lo n s (excNoted k e ea s0) := KeepsFld.trans (.of_regs hregs) (excNoted_keepsFld h k e ea s0)
  rw [heq]
  exact .ite (hnoted.trans (excHandled_keepsFld h k e ea _)) (hnoted.trans (excStopped_keepsFld h k e ea _ _))

theorem wordDone_keepsFld (k : Nat) (pc : W64) (refused : Option Nat) (s : State) : KeepsFld x lo n s (wordDone k pc refused s) := by
  have hpc : KeepsFld x lo n s (s.wrQ (Reg.corePc k) 2 pc.toNat) := wrQ_two_keepsFld (h.pc k) (h.pcHigh k)
  cases refused with
  | none => exact hpc
  | some q => exact hpc.trans (takeException_keepsFld h k _ _)

theorem blocked_keepsFld (k : Nat) (b : Bool) (s : State) : KeepsFld x lo n s (s.putB (Reg.coreStatus k) 6 b) :=
  putB_keepsFld (h.status k)

theorem endWait_keepsFld (k : Nat) (s : State) : KeepsFld x lo n s (endWait k s) := by
  have hput := blocked_keepsFld h k false s
  unfold endWait
  dsimp only
  cases (core s k).wait with
  | none => exact hput
  | queue => exact hput
  | qwait w rd g =>
    exact .ite ((hput.trans (setCore_keepsFld _ _)).trans (blocked_keepsFld h _ _ _))
      ((hput.trans (setCore_keepsFld _ _)).trans (wordDone_keepsFld h _ _ _ _))
  | barrier w refused => exact (hput.trans (setCore_keepsFld _ _)).trans (wordDone_keepsFld h _ _ _ _)
  | sleep w refused => exact (hput.trans (setCore_keepsFld _ _)).trans (wordDone_keepsFld h _ _ _ _)

theorem wakeCore_keepsFld (cause q k : Nat) (s : State) : KeepsFld x lo n s (wakeCore cause q k s) := by
  have hcause : KeepsFld x lo n s (wakeCause k cause q s) := wr_keepsFld (h.wakeCause k)
  have hresume (code : Nat) : KeepsFld x lo n s (traceResume k cause q code (wakeCause k cause q s)) :=
    hcause.trans (traceCore_keepsFld h.ne_traceStatus _ _ _ _)
  unfold wakeCore
  dsimp only
  refine .ite (.of_regs rfl) ?_
  cases (core s k).nap with
  | awake => exact hcause.trans (endWait_keepsFld h k _)
  | wanted => exact hcause.trans (endWait_keepsFld h k _)
  | entering code => exact (hresume code).trans (endWait_keepsFld h k _)
  | asleep => exact (KeepsFld.ite hcause (hresume _)).trans (setCore_keepsFld _ _)
  | exiting => exact .of_regs rfl

theorem wakeWatchers_keepsFld (q : Nat) (s : State) : KeepsFld x lo n s (wakeWatchers q s) :=
  foldl_keepsFld (fun k s => .ite (wakeCore_keepsFld h 1 q k s) (.of_regs rfl)) s

theorem gbarFree_keepsFld (g k : Nat) (s : State) : KeepsFld x lo n s (gbarFree g s k) := by
  unfold gbarFree
  refine .ite ?_ (.of_regs rfl)
  split
  · exact endWait_keepsFld h k s
  · exact (setCore_keepsFld k _).trans (wakeCore_keepsFld h 3 0 k _)
  · exact .of_regs rfl

end

/-! ### The tail of a queue that takes a commit (R170) -/

theorem qSync_keepsTail (q : Nat) (s : State) : KeepsFld (Reg.queueTail q) 0 32 s (qSync q s) := fun w =>
  ⟨(qSync_changesOnlyRegs q s w).1, State.fld_of_rd (qSync_counters w).2.1 0 32⟩

theorem seedTake_keepsTail (q n : Nat) (s : State) : KeepsFld (Reg.queueTail q) 0 32 s (seedTake q n s) := by
  unfold seedTake
  split
  · exact .of_regs rfl
  · refine .ite ?_ (.of_regs rfl)
    exact KeepsFld.trans (wr_keepsFld (by simp [Reg.queueTail, Reg.queueHead])) (qSync_keepsTail q _)

section
variable {q : Nat} (hq : q < 1024)
include hq

theorem keptInWaits_queueTail : KeptInWaits (Reg.queueTail q) 0 32 :=
  keptInWaits_low (by simp only [Reg.queueTail]; omega) 0 32

theorem qIrq_keepsTail (s : State) : KeepsFld (Reg.queueTail q) 0 32 s (qIrq q s) :=
  .ite ((raise_keepsFld (keptInWaits_queueTail hq) _ s).trans (wr_keepsFld (by simp [Reg.queueTail, Reg.queueStatus]))) (.of_regs rfl)

theorem seedTrigger_keepsTail (n : Nat) (s : State) : KeepsFld (Reg.queueTail q) 0 32 s (seedTrigger q n s) := by
  have hskips : Reg.queueTail q ≠ Reg.selvSeedSkips := by simp only [Reg.queueTail, Reg.selvSeedSkips]; omega
  unfold seedTrigger
  split
  · exact .of_regs rfl
  · exact .ite (.of_regs rfl) (.ite (wr_keepsFld hskips) (KeepsFld.trans (.of_regs (by rfl)) (wr_keepsFld hskips)))

theorem commitReport_keepsTail (n : Nat) (s : State) : KeepsFld (Reg.queueTail q) 0 32 s (commitReport q n s) := by
  refine (seedTrigger_keepsTail hq n s).trans (foldl_keepsFld (fun m u => ?_) _)
  split
  · exact .of_regs rfl
  · refine .ite ?_ (.of_regs rfl)
    dsimp only
    refine .of_regs ?_
    split <;> split <;> rfl

theorem qCommitted_keepsTail (n : Nat) (s : State) : KeepsFld (Reg.queueTail q) 0 32 s (qCommitted q n s) :=
  ((((qSync_keepsTail q s).trans (qIrq_keepsTail hq _)).trans (wakeWatchers_keepsFld (keptInWaits_queueTail hq) q _)).trans
    (commitReport_keepsTail hq n _)).trans (seedTake_keepsTail q n _)

/-- The tail passes the slots at the front that are committed (R170). -/
theorem qTail_qCommit {s : State} (w : RegsOk s) (c : Nat) : qTail (qCommit q c s) q = qTail s q +
    BitVec.ofNat 32 (passSlots ((qSlots s q).map fun x => if x.ctr = c then { x with committed := true } else x)).1 := by
  unfold qCommit
  dsimp only
  generalize passSlots ((qSlots s q).map fun x => if x.ctr = c then { x with committed := true } else x) = r
  obtain ⟨n, rest⟩ := r
  have ws : RegsOk (setSlots s q rest) := w
  dsimp only
  split
  next h0 =>
    rw [h0]
    exact (BitVec.add_zero _).symm
  next h0 =>
    rw [qTail, (qCommitted_keepsTail hq n _).rd_eq (regsOk_wr ws), State.rd_wr_same ws]
    rfl

end

theorem qCommit_mem (q c : Nat) (s : State) : (qCommit q c s).mem = s.mem := qCommit_within.mem (by decide)

end Sys2Proof.Machine
end

section
/-! SUPPORT. A word that its queue holds back goes on (R169, R171, R177, R178). -/

namespace Sys2Proof.Machine

/-! ### Changes of the state that the cores have no part in -/

/-- The state with other cores. -/
def withCores (cs : Tab CoreSt) (s : State) : State := { s with cores := cs }

/-- The function neither reads nor changes the cores. -/
def IgnoresCores (f : State → State) : Prop := ∀ (s : State) (cs : Tab CoreSt), f (withCores cs s) = withCores cs (f s)

section
variable {f g : State → State}

theorem IgnoresCores.comp (hf : IgnoresCores f) (hg : IgnoresCores g) : IgnoresCores fun s => g (f s) := fun s cs =>
  (congrArg g (hf s cs)).trans (hg (f s) cs)

theorem IgnoresCores.ite {b : State → Bool} (hb : ∀ (s : State) (cs : Tab CoreSt), b (withCores cs s) = b s) (hf : IgnoresCores f)
    (hg : IgnoresCores g) : IgnoresCores fun s => if b s then f s else g s := by
  intro s cs
  dsimp only
  rw [hb]
  split
  · exact hf s cs
  · exact hg s cs

theorem IgnoresCores.foldl {α : Type} {f : State → α → State} (hf : ∀ x, IgnoresCores (f · x)) (l : List α) :
    IgnoresCores fun s => l.foldl f s := by
  induction l with
  | nil => exact fun _ _ => rfl
  | cons x l ih => exact (hf x).comp ih

theorem IgnoresCores.cores (hf : IgnoresCores f) (s : State) : (f s).cores = s.cores := by
  have h : f s = withCores s.cores (f s) := hf s s.cores
  rw [h]
  rfl

end

theorem pmcCount_ignoresCores (ev k n : Nat) : IgnoresCores (pmcCount ev k n) := by
  intro s cs
  have hcount : IgnoresCores fun t => (pmcHits s ev k 16).foldl (pmcAdd n) t := .foldl (fun _ _ _ => rfl) _
  have hbit : (withCores cs s).bit Reg.tracePmcCtrl 0 = s.bit Reg.tracePmcCtrl 0 := rfl
  unfold pmcCount
  rw [hbit]
  split
  · exact hcount s cs
  · rfl

theorem traceCore_ignoresCores (k type payload : Nat) : IgnoresCores (traceCore k type payload) := by
  have hlost : IgnoresCores (fifoLost k) := by
    intro s cs
    unfold fifoLost
    dsimp only
    have htab : (withCores cs s).trace.dropped = s.trace.dropped := rfl
    rw [htab]
    split
    · rfl
    · rfl
  exact .ite (fun _ _ => rfl) (hlost.comp fun _ _ => rfl) fun _ _ => rfl

theorem countLost_ignoresCores (j : Nat) : IgnoresCores (countLost j) := by
  have hput : IgnoresCores fun s => (s.sat Reg.traceDrops).putB Reg.traceStatus 1 true := fun _ _ => rfl
  intro s cs
  unfold countLost
  dsimp only
  split
  · exact (hput.comp (pmcCount_ignoresCores 0x0D j 1)) s cs
  · exact hput s cs

/-- The count of the packets that a core has lost. -/
def dropCounted (k : Nat) (s : State) : State :=
  { s with trace := { s.trace with dropped := Tab.set (fun _ => 0) s.trace.dropped k (Tab.get (fun _ => 0) s.trace.dropped k + 1) } }

theorem traceDrop_ignoresCores (k : Nat) : IgnoresCores (traceDrop k) :=
  .comp (f := dropCounted k) (fun _ _ => rfl) (countLost_ignoresCores k)

theorem qTrace_ignoresCores (k op : Nat) (w : IWord) (ctr st : Nat) : IgnoresCores (qTrace k op w ctr st) := by
  have hdrop : IgnoresCores fun s => traceDrop k (traceSeq s k) :=
    .comp (f := fun s => traceSeq s k) (fun _ _ => rfl) (traceDrop_ignoresCores k)
  exact .ite (fun _ _ => rfl) (.ite (fun _ _ => rfl) (traceCore_ignoresCores _ _ _) hdrop) fun _ _ => rfl

theorem qSync_ignoresCores (q : Nat) : IgnoresCores (qSync q) := by
  intro s cs
  unfold qSync
  dsimp only
  split
  next h => exact (if_pos h).symm ▸ rfl
  next h => exact (if_neg h).symm ▸ rfl

/-- The reserved counter and the slots of a reservation. -/
def slotsTaken (q n : Nat) (h : Holder) (s : State) : State :=
  (setSlots s q (qSlots s q ++ (List.range n).map fun i => ⟨((qResv s q).toNat + i) % 2 ^ 32, some h, false⟩)).wrN (Reg.queueResv q)
    ((qResv s q).toNat + n)

theorem qReserve_ignoresCores (q n : Nat) (h : Holder) : IgnoresCores (qReserve q n h) :=
  .comp (f := slotsTaken q n h) (fun _ _ => rfl) (qSync_ignoresCores q)

/-! ### A core that waits in the queue engine -/

/-- The core waits for nothing. -/
def released (k : Nat) (s : State) : State := setCore s k { core s k with wait := .none }

section
variable {k : CoreId} {w : IWord} {s : State}

theorem core_released (hs : s.wf = true) (k : Nat) : core (released k s) k = { core s k with wait := .none } :=
  core_setCore_same hs k _

theorem unwait_of_queue {x : IWord} {b : Bool} (h : (core s k).wait = .queue x b) : unwait k s = released k s := by
  rw [unwait, h]
  rfl

theorem released_wf (hs : s.wf = true) : (released k s).wf = true := setCore_within.wf hs

/-- The SYNC that is due is that of the core's address, and not of what it waits for. -/
theorem syncDue_released (hs : s.wf = true) : syncDue k (released k s) = withCores (released k s).cores (syncDue k s) := by
  have hpc : (core (released k s) k).pc = (core s k).pc := by rw [core_released hs]
  have htrace : (released k s).trace = s.trace := rfl
  unfold syncDue
  rw [htrace, hpc]
  split
  · exact traceCore_ignoresCores _ _ _ { s with trace := { s.trace with syncDue := s.trace.syncDue &&& ~~~(BitVec.ofNat 32 (2 ^ k.val)) } }
      (released k s).cores
  · rfl

/-- What a queue operation leaves of a core that waits is what it leaves of one that does not. -/
theorem released_ignores {f : State → State} (hf : IgnoresCores f) (hs : s.wf = true) :
    released k (f (syncDue k s)) = f (syncDue k (released k s)) := by
  have hcores : (f (syncDue k s)).cores = s.cores := (hf.cores _).trans (syncDue_within.cores rfl)
  rw [syncDue_released hs, hf]
  unfold released setCore core withCores
  rw [hcores]

/-- The end of a word lets its core wait for nothing first. -/
theorem finishWord_released {entry entry' : CoreSt} {ws : List Writes} {t : State} {x : IWord} {b : Bool} (ht : t.wf = true)
    (hwait : (core t k).wait = .queue x b) (hbr : brOp w = 0) (hpc : entry'.pc = entry.pc) :
    finishWord k w entry ws false t = finishWord k w entry' ws false (released k t) := by
  have hun : unwait k t = released k t := unwait_of_queue hwait
  have hnone : unwait k (released k t) = released k t := unwait_of_none (by rw [core_released ht])
  have hidem : finishWord k w entry ws false t = finishWord k w entry ws false (released k t) := by
    rw [finishWord, finishWord, hun, hnone]
  rw [hidem, finishWord_fallsThrough (released_wf ht) (.inl hbr) hnone, finishWord_fallsThrough (released_wf ht) (.inl hbr) hnone]
  unfold regsWritten coreAfter
  rw [hpc]

end

/-! ### It tries again -/

section
variable {k : CoreId} {w : IWord} {s : State}

theorem illegalField_onlyTq (hw : OnlyTq w) :
    illegalField w s k = if wctl w 0 4 ≠ 1 then some 0 else if tqIllegal w then some 5 else none := by
  simp [illegalField, scaIllegal, adrIllegal, vecIllegal, arrIllegal, brIllegal, scaListed, adrListed, brListed, hw.sca, hw.adr, hw.vec,
    hw.arr, hw.br]

theorem misalignField_onlyTq (hw : OnlyTq w) (c : CoreSt) : misalignField w c = none := by
  simp [misalignField, gatherMisaligned, isGather_of_none hw.vec, hw.adr]

/-- What such a word raises is not a matter of the registers of its core. -/
theorem wordException_onlyTq (hw : OnlyTq w) : wordException w s k = none ↔
    (wctl w 0 4 = 1 ∧ tqIllegal w = false) ∧ ¬(wctl w 4 1 = 1 ∧ s.bit (Reg.coreExcCfg k) 1 = true) := by
  unfold wordException
  dsimp only
  rw [illegalField_onlyTq hw, misalignField_onlyTq hw, if_neg (by rw [hw.br]; decide : brOp w ≠ 0x12)]
  by_cases hctl : wctl w 0 4 = 1
  · cases htq : tqIllegal w <;> simp [hctl]
  · simp [hctl]

theorem interlocked_onlyTq (hw : OnlyTq w) (hop : tqOp w = 1 ∨ tqOp w = 3) : interlocked w s k = false := by
  have hv : tqWritesV w = [] := by rcases hop with h | h <;> simp [tqWritesV, h]
  simp [interlocked, wordStores, wordWritesV, wordReadsV, vecWritesV, vecReadsV, adrStores, hw.vec, hw.adr, hv]

theorem tqWaits_queue (hop : tqOp w = 1 ∨ tqOp w = 3) : tqWaits k w s = false := by
  rcases hop with h | h <;> simp [tqWaits, h]

theorem brTaken_none {c : CoreSt} (h : brOp w = 0) : brTaken w c = none := by simp [brTaken, h]

/-- A word that its queue holds back no more has its effects. -/
theorem tryIssue_held (hs : s.wf = true) (hw : OnlyTq w) (hop : tqOp w = 1 ∨ tqOp w = 3) (hr : ready (released k s) k w = true)
    (hb : queueBlocks k w s = false) : tryIssue k w s s = wordEffect k w s (syncDue k s) := by
  have hpc : (core (released k s) k).pc = (core s k).pc := by rw [core_released hs]
  simp only [ready, Bool.and_eq_true, Bool.not_eq_true', Option.isNone_iff_eq_none] at hr
  obtain ⟨⟨⟨⟨⟨⟨⟨⟨⟨⟨⟨⟨-, -⟩, htrace⟩, hlocal⟩, hres⟩, hexc⟩, hshared⟩, hstall⟩, -⟩, -⟩, -⟩, -⟩, -⟩ := hr
  have htrace' : traceHeld s k = false := htrace
  have hshared' : sharedMisuse w s k = false := hshared
  have hstall' : traceStall w s k = false := by
    rw [traceStall, brTaken_none hw.br] at hstall ⊢
    exact hstall
  have hexc' : wordException w s k = none := (wordException_onlyTq hw).mpr ((wordException_onlyTq (s := released k s) hw).mp hexc)
  have hie : issueException w s k = none := by rw [issueException, hexc']
  rw [hpc] at hlocal
  have hbytes : adrBytes 0 = 0 := rfl
  have hadr : adrWaits k w s = false := by simp [adrWaits, hw.adr, hbytes]
  have harr : arrWaits k w s = false := by simp [arrWaits, hw.arr]
  simp [tryIssue, htrace', hlocal, hres, hie, hshared', hstall', hadr, harr, tqWaits_queue hop, interlocked_onlyTq hw hop, hb, hw.adr, hbytes]

/-- The retry of a word that is the core's, and that its queue holds back no more. -/
theorem retryQueue_goes {x : IWord} {b : Bool} (hwait : (core s k).wait = .queue x b) (hs : s.wf = true) (hw : OnlyTq x)
    (hop : tqOp x = 1 ∨ tqOp x = 3) (hr : ready (released k s) k x = true) (hb : queueBlocks k x s = false) :
    retryQueue k (tqOp x) s = wordEffect k x s (syncDue k s) := by
  have hmay : s.cclk = true ∧ coreState s k = 1 := by
    simp only [ready, mayIssue, Bool.and_eq_true, beq_iff_eq] at hr
    obtain ⟨⟨⟨⟨⟨⟨⟨⟨⟨⟨⟨⟨-, ⟨⟨⟨⟨hclk, hst⟩, -⟩, -⟩, -⟩⟩, -⟩, -⟩, -⟩, -⟩, -⟩, -⟩, -⟩, -⟩, -⟩, -⟩, -⟩ := hr
    exact ⟨hclk, hst⟩
  obtain ⟨hclk, hst⟩ := hmay
  rw [retryQueue, hwait]
  simp only [hclk, hst, hb, beq_self_eq_true, Bool.not_false, Bool.and_self, if_true]
  exact tryIssue_held hs hw hop hr hb

end

/-! ### The word that waits is the word that issues -/

/-- A field that holds a value already is left as it is. -/
theorem setWf_same (w : IWord) {lo n : Nat} : setWf w lo n (wfld w lo n) = w := by
  refine BitVec.eq_of_getLsbD_eq fun i hi => ?_
  have hfield : (wfld w lo n * 2 ^ lo).testBit i = (decide (lo ≤ i) && (decide (i - lo < n) && w.toNat.testBit (lo + (i - lo)))) := by
    rw [Nat.mul_comm, Nat.testBit_two_pow_mul, wfld, testBit_fieldN]
  simp only [setWf, BitVec.getLsbD_or, BitVec.getLsbD_and, BitVec.getLsbD_not, BitVec.getLsbD_ofNat, testBit_mask, hi, hfield, decide_true,
    Bool.true_and]
  by_cases h : lo ≤ i ∧ i < lo + n
  · have hlt : i - lo < n := by omega
    simp [h, hlt, Nat.add_sub_cancel' h.1, BitVec.getLsbD]
  · simp [h]

theorem withTq_of_tqOp {op : Nat} {w : IWord} (h : tqOp w = op) : withTq op w = w := by
  rw [withTq, ← h]
  exact setWf_same w

/-! ### What an operation that is not held back answers -/

section
variable {k : CoreId} {w : IWord} {s : State}

theorem tqQres_blocks_iff : tqQres k w s = .blocks ↔ waitClosed s k = false ∧ qState s (tqQ w) = 1 ∧ mayProduce s k (tqQ w) = true ∧
    qFree s (tqQ w) < tqN w ∧ tqNb w = false := by
  unfold tqQres
  dsimp only
  split_ifs <;> simp_all

theorem tqQacq_blocks_iff : tqQacq k w s = .blocks ↔ waitClosed s k = false ∧ (qState s (tqQ w) ≠ 3 ∧ qState s (tqQ w) ≠ 0) ∧
    mayConsume s k (tqQ w) = true ∧ qFill s (tqQ w) = 0 ∧ tqNb w = false := by
  unfold tqQacq
  dsimp only
  split_ifs <;> simp_all

/-- A QRES that its queue neither refuses nor holds back answers the same whatever else the cores are. -/
theorem tqQres_answers (hst : qState s (tqQ w) = 3 ∨ mayProduce s k (tqQ w) = true)
    (hgo : qState s (tqQ w) = 1 → tqN w ≤ qFree s (tqQ w) ∨ tqNb w = true) :
    ∃ f tw, IgnoresCores f ∧ ∀ cs, waitClosed (withCores cs s) k = false → tqQres k w (withCores cs s) = .done tw (f (withCores cs s)) := by
  by_cases h3 : qState s (tqQ w) = 3
  · exact ⟨fun t => qTrace k 0 w 0 3 t.tickFree, qResult w 0 3 (noSlot s), .comp (f := State.tickFree) (fun _ _ => rfl) (qTrace_ignoresCores _ _ _ _ _),
      fun cs h => tqQres_unused h h3⟩
  have hp := hst.resolve_left h3
  by_cases h1 : qState s (tqQ w) = 1
  · by_cases hn : tqN w ≤ qFree s (tqQ w)
    · exact ⟨fun t => qTrace k 0 w (qResv s (tqQ w)).toNat 0 (qReserve (tqQ w) (tqN w) (.core k) t),
        qResult w (qSlot s (tqQ w) (qResv s (tqQ w)).toNat) 0 (qResv s (tqQ w)).toNat,
        (qReserve_ignoresCores _ _ _).comp (qTrace_ignoresCores _ _ _ _ _), fun cs h => tqQres_reserves h h1 hp hn⟩
    · exact ⟨fun t => qTrace k 0 w 0 1 t.tickFree, qResult w 0 1 (noSlot s), .comp (f := State.tickFree) (fun _ _ => rfl) (qTrace_ignoresCores _ _ _ _ _),
        fun cs h => tqQres_full h h1 hp (Nat.lt_of_not_le hn) ((hgo h1).resolve_left hn)⟩
  · exact ⟨fun t => qTrace k 0 w 0 3 (t.sat (Reg.queueRefused (tqQ w))).tickFree, qResult w 0 3 (noSlot s),
      .comp (f := fun t => (t.sat (Reg.queueRefused (tqQ w))).tickFree) (fun _ _ => rfl) (qTrace_ignoresCores _ _ _ _ _),
      fun cs h => tqQres_closed h h1 h3 hp⟩

/-- A QACQ that its queue neither refuses nor holds back answers the same whatever else the cores are. -/
theorem tqQacq_answers (hst : qState s (tqQ w) = 3 ∨ mayConsume s k (tqQ w) = true)
    (hgo : qState s (tqQ w) ≠ 3 → qState s (tqQ w) ≠ 0 → qFill s (tqQ w) ≠ 0 ∨ tqNb w = true) :
    ∃ f tw, IgnoresCores f ∧ ∀ cs, waitClosed (withCores cs s) k = false → tqQacq k w (withCores cs s) = .done tw (f (withCores cs s)) := by
  by_cases hclosed : qState s (tqQ w) = 3 ∨ qState s (tqQ w) = 0 ∧ mayConsume s k (tqQ w) = true
  · exact ⟨qTrace k 2 w 0 3, qResult w 0 3 (qShown s (tqQ w)), qTrace_ignoresCores _ _ _ _ _, fun cs h => tqQacq_closed h hclosed⟩
  have h3 : qState s (tqQ w) ≠ 3 := fun h => hclosed (.inl h)
  have hc := hst.resolve_left h3
  have h0 : qState s (tqQ w) ≠ 0 := fun h => hclosed (.inr ⟨h, hc⟩)
  have hopen : qState s (tqQ w) = 1 ∨ qState s (tqQ w) = 2 := by
    have := fieldN_lt (s.rd (Reg.queueStatus (tqQ w))).toNat 0 2
    simp only [qState, State.fld] at *
    omega
  by_cases hf : qFill s (tqQ w) = 0
  · exact ⟨qTrace k 2 w 0 2, qResult w 0 2 (qShown s (tqQ w)), qTrace_ignoresCores _ _ _ _ _, fun cs h => tqQacq_empty h hopen hc hf ((hgo h3 h0).resolve_left (not_not.mpr hf))⟩
  · exact ⟨qTrace k 2 w (qHead s (tqQ w)).toNat 0, qResult w (qSlot s (tqQ w) (qHead s (tqQ w)).toNat) 0 (qShown s (tqQ w)),
       qTrace_ignoresCores _ _ _ _ _, fun cs h => tqQacq_element h hopen hc hf⟩

end

/-! ### The commands that go on -/

section
variable {k : CoreId} {s : State} {x : IWord} (hwait : (core s k).wait = .queue x false) (hs : s.wf = true)
include hwait hs

/-- What a queue holds back does not depend on whether its word has waited. -/
theorem queueBlocks_released : queueBlocks k x s = queueBlocks k x (released k s) := by
  have hs1 : waitClosed s k = false := by rw [waitClosed, hwait]
  have hs2 : waitClosed (released k s) k = false := waitClosed_of_none (by rw [core_released hs])
  have hres : tqQres k x s = .blocks ↔ tqQres k x (released k s) = .blocks := by
    rw [tqQres_blocks_iff, tqQres_blocks_iff, hs1, hs2]
    rfl
  have hacq : tqQacq k x s = .blocks ↔ tqQacq k x (released k s) = .blocks := by
    rw [tqQacq_blocks_iff, tqQacq_blocks_iff, hs1, hs2]
    rfl
  rw [Bool.eq_iff_iff]
  simp only [queueBlocks, Bool.or_eq_true, Bool.and_eq_true, beq_iff_eq, hres, hacq]

variable (hw : OnlyTq x)
include hw

/-- A word goes on as it would have issued, had it not waited. -/
theorem retryQueue_issues {c : Instr} (hc : wordOf c = some (k, x)) (hop : tqOp x = 1 ∨ tqOp x = 3) (hi : issues (released k s) k x = true)
    (hb : queueBlocks k x s = false) {f : State → State} {tw : Writes} (hf : IgnoresCores f)
    (hgo : ∀ cs, waitClosed (withCores cs (syncDue k s)) k = false → ∀ entry,
      tqEffect k x entry false (withCores cs (syncDue k s)) = .done tw (f (withCores cs (syncDue k s)))) :
    ∃ t, retryQueue k (tqOp x) s = .next t ∧ exec c (released k s) = .next t := by
  have hcore : core (syncDue k s) k = core s k := syncDue_core k
  have hready : ready (released k s) k x = true := by
    rw [issues, Bool.and_eq_true] at hi
    exact hi.1
  have hclosed : waitClosed (syncDue k s) k = false := by rw [waitClosed, hcore, hwait]
  have hopen : waitClosed (withCores (released k s).cores (syncDue k s)) k = false := by
    rw [← syncDue_released hs]
    exact waitClosed_syncDue hi
  have hthen := hgo (released k s).cores hopen (core (released k s) k)
  rw [← syncDue_released hs] at hthen
  have heffect := wordEffect_onlyTq (stay := s) hw (hgo (syncDue k s).cores hclosed (core (syncDue k s) k))
  have hfwf : (f (syncDue k s)).wf = true := (tqEffect_within.get (hgo (syncDue k s).cores hclosed (core (syncDue k s) k))).wf
    (syncDue_within.wf hs)
  refine ⟨_, ?_, exec_onlyTq hc hi hw hthen⟩
  rw [retryQueue_goes hwait hs hw hop hready hb]
  refine heffect.trans ?_
  have hfcore : (core (f (syncDue k s)) k).wait = .queue x false := by
    rw [core_of_cores (hf.cores _), hcore, hwait]
  rw [wordEnd, ← released_ignores hf hs]
  exact congrArg _ (finishWord_released hfwf hfcore hw.br (by rw [core_released hs, hcore]))

theorem exec_qresUnblock_issues (hk : s.Kept) (hop : tqOp x = 1) (hi : issues (released k s) k x = true)
    (hst : qState s (tqQ x) = 3 ∨ mayProduce s k (tqQ x) = true) :
    ∃ t, exec (.qresUnblock k) s = .next t ∧ exec (.qres k x) (released k s) = .next t := by
  have hsync := syncDue_same (k := k) hs x
  have hclosed : waitClosed s k = false := by rw [waitClosed, hwait]
  have hb : queueBlocks k x s = false := by
    rw [queueBlocks_released hwait hs]
    simpa only [Bool.not_eq_true'] using (Bool.and_eq_true_iff.mp hi).2
  have hne : tqQres k x s ≠ .blocks := fun h => by simp [queueBlocks, hop, h] at hb
  rw [← hsync.qState, ← hsync.mayProduce] at hst
  have hgo : qState (syncDue k s) (tqQ x) = 1 → tqN x ≤ qFree (syncDue k s) (tqQ x) ∨ tqNb x = true := fun h1 => by
    have hp := hst.resolve_left (by omega)
    rw [hsync.qState] at h1
    rw [hsync.mayProduce] at hp
    rw [hsync.qFree]
    by_contra hn
    rw [not_or, Nat.not_le, Bool.not_eq_true] at hn
    exact hne (tqQres_blocks_iff.mpr ⟨hclosed, h1, hp, hn⟩)
  obtain ⟨f, tw, hf, hanswer⟩ := tqQres_answers hst hgo
  obtain ⟨t, hretry, hex⟩ := retryQueue_issues hwait hs hw (c := .qres k x)
    (congrArg (fun v => some (k, v)) (withTq_of_tqOp hop)) (.inl hop) hi hb hf fun cs h entry =>
      (tqEffect_qres hop entry _).trans (hanswer cs h)
  rw [hop] at hretry
  exact ⟨t, inContract_within hk execQresUnblock_within (by decide) hretry, hex⟩

theorem exec_qacqUnblock_issues (hk : s.Kept) (hop : tqOp x = 3) (hi : issues (released k s) k x = true)
    (hst : qState s (tqQ x) = 3 ∨ mayConsume s k (tqQ x) = true) :
    ∃ t, exec (.qacqUnblock k) s = .next t ∧ exec (.qacq k x) (released k s) = .next t := by
  have hsync := syncDue_same (k := k) hs x
  have hclosed : waitClosed s k = false := by rw [waitClosed, hwait]
  have hb : queueBlocks k x s = false := by
    rw [queueBlocks_released hwait hs]
    simpa only [Bool.not_eq_true'] using (Bool.and_eq_true_iff.mp hi).2
  have hne : tqQacq k x s ≠ .blocks := fun h => by simp [queueBlocks, hop, h] at hb
  rw [← hsync.qState, ← hsync.mayConsume] at hst
  have hgo : qState (syncDue k s) (tqQ x) ≠ 3 → qState (syncDue k s) (tqQ x) ≠ 0 →
      qFill (syncDue k s) (tqQ x) ≠ 0 ∨ tqNb x = true := fun h3 h0 => by
    have hc := hst.resolve_left h3
    rw [hsync.qState] at h3 h0
    rw [hsync.mayConsume] at hc
    rw [hsync.qFill]
    by_contra hn
    rw [not_or, not_not, Bool.not_eq_true] at hn
    exact hne (tqQacq_blocks_iff.mpr ⟨hclosed, ⟨h3, h0⟩, hc, hn⟩)
  obtain ⟨f, tw, hf, hanswer⟩ := tqQacq_answers hst hgo
  obtain ⟨t, hretry, hex⟩ := retryQueue_issues hwait hs hw (c := .qacq k x)
    (congrArg (fun v => some (k, v)) (withTq_of_tqOp hop)) (.inr hop) hi hb hf fun cs h entry =>
      (tqEffect_qacq hop entry _).trans (hanswer cs h)
  rw [hop] at hretry
  exact ⟨t, inContract_within hk execQacqUnblock_within (by decide) hretry, hex⟩

end

theorem CoreSt.setS_noWait (c : CoreSt) (i : Nat) (x : W64) :
    CoreSt.setS { c with wait := .none } i x = { c.setS i x with wait := .none } := by
  unfold CoreSt.setS
  split <;> rfl

theorem coreAfter_qResult_noWait (w : IWord) (addr st rest : Nat) (c : CoreSt) :
    coreAfter (tqOnly (qResult w addr st rest)) c { c with wait := .none } = { (c.setS (tqRd w) (BitVec.ofNat 64 addr)).setS (tqRd w + 1)
      (BitVec.ofNat 64 (st * 2 ^ 60 + rest)) with pc := c.pc + 64, wait := .none } := by
  have h : (CoreSt.setS { c with wait := .none } (tqRd w) (BitVec.ofNat 64 addr)).setS (tqRd w + 1) (BitVec.ofNat 64 (st * 2 ^ 60 + rest)) =
      { (c.setS (tqRd w) (BitVec.ofNat 64 addr)).setS (tqRd w + 1) (BitVec.ofNat 64 (st * 2 ^ 60 + rest)) with wait := .none } := by
    rw [CoreSt.setS_noWait, CoreSt.setS_noWait]
  exact congrArg (fun d => { d with pc := c.pc + 64 }) h

/-- A QACQ that has been answered CLOSED goes on with that answer (R177, R178). -/
theorem exec_qacqUnblock_closed {k : CoreId} {s : State} {x : IWord} (hk : s.Kept) (hs : s.wf = true) (hw : OnlyTq x) (hop : tqOp x = 3)
    (hwait : (core s k).wait = .queue x true) (hr : ready (released k s) k x = true) :
    ∃ t, exec (.qacqUnblock k) s = .next t ∧ core t k =
      { ((core s k).setS (tqRd x) 0).setS (tqRd x + 1) (BitVec.ofNat 64 (3 * 2 ^ 60 + qShown s (tqQ x))) with
        pc := (core s k).pc + 64, wait := .none } := by
  have hsync := syncDue_same (k := k) hs x
  have hcore : core (syncDue k s) k = core s k := syncDue_core k
  have hcl (t : State) (h : core t k = core s k) : tqQacq k x t = .done (qResult x 0 3 (qShown t (tqQ x))) (qTrace k 2 x 0 3 t) := by
    have hclosed : waitClosed t k = true := by rw [waitClosed, h, hwait]
    simp [tqQacq, hclosed, qShown]
  have hb : queueBlocks k x s = false := by simp [queueBlocks, hop, hcl s rfl]
  have hretry := retryQueue_goes hwait hs hw (.inr hop) hr hb
  rw [hop, wordEffect_onlyTq hw ((tqEffect_qacq hop _ _).trans (hcl _ hcore)), hcore] at hretry
  refine ⟨_, inContract_within hk execQacqUnblock_within (by decide) hretry, ?_⟩
  have ht : (qTrace k 2 x 0 3 (syncDue k s)).wf = true := qTrace_within.wf (syncDue_within.wf hs)
  have htcore : core (qTrace k 2 x 0 3 (syncDue k s)) k = core s k := (core_of_cores (qTrace_within.cores rfl) k).trans hcore
  rw [finishWord_released ht (by rw [htcore, hwait]) hw.br (entry' := core s k) rfl]
  have hdone := finishWord_plain_onlyCore (k := k) (entry := core s k) (ws := tqOnly (qResult x 0 3 (qShown (syncDue k s) (tqQ x))))
    (released_wf ht) (by rw [core_released ht]) hw.br
  rw [hdone.1, core_released ht, htcore, qShown, hsync.qFill, hsync.qHead, ← qShown]
  exact coreAfter_qResult_noWait x 0 3 _ _

/-- Settles O38: each operation by the state of its queue, and a word that was held back as it would have issued. -/
theorem coreQueueOperations : Obligations.CoreQueueOperations := by
  intro k w s hk hs
  refine ⟨fun hi hops => ?_, fun hi hops => ?_, fun hi hops h3 hc hn hf => ?_, fun hi hops h3 hp hh => ?_, fun x hwait hops hi hst => ?_,
    fun x hwait hops hi hst => ?_, fun x hwait hops hr => ?_⟩
  · obtain ⟨hw, hop⟩ := onlyTq_of_wordOps hops
    have hsync := syncDue_same (k := k) hs (withTq 0x01 w)
    have hopen := waitClosed_syncDue hi
    refine ⟨fun hst hp hn => exec_qres_reserves hs hi hw rfl hop hst hp hn, fun hst hp hn hnb => ?_, fun hst => ?_, fun h1 h3 hp => ?_⟩
    · exact exec_qres_unreserved hs hi hw rfl hop (tqQres_full hopen (hsync.qState.trans hst) ((hsync.mayProduce k).trans hp)
        (hsync.qFree ▸ hn) hnb)
    · exact exec_qres_unreserved hs hi hw rfl hop (tqQres_unused hopen (hsync.qState.trans hst))
    · exact exec_qres_closed hs hi hw rfl hop h1 h3 hp
  · obtain ⟨hw, hop⟩ := onlyTq_of_wordOps hops
    have hsync := syncDue_same (k := k) hs (withTq 0x03 w)
    have hopen := waitClosed_syncDue hi
    refine ⟨fun hst hc hf => ?_, fun hst hc hf hnb => ?_, fun hst => ?_⟩
    · have h := exec_qacq_shows hs hi hw rfl hop (tqQacq_element hopen (hsync.qState ▸ hst) ((hsync.mayConsume k).trans hc) (hsync.qFill ▸ hf))
      rw [Nat.zero_mul, Nat.zero_add, hsync.qSlot, hsync.qHead] at h
      exact h
    · have h := exec_qacq_shows hs hi hw rfl hop (tqQacq_empty hopen (hsync.qState ▸ hst) ((hsync.mayConsume k).trans hc) (hsync.qFill ▸ hf) hnb)
      rw [qShown, hf, Nat.zero_mod, Nat.zero_mul, Nat.zero_add] at h
      exact h
    · have h := exec_qacq_shows hs hi hw rfl hop (tqQacq_closed hopen (by rwa [hsync.qState, hsync.mayConsume]))
      rw [qShown, ← Nat.add_assoc] at h
      exact h
  · obtain ⟨hw, hop⟩ := onlyTq_of_wordOps hops
    exact exec_qrel_releases hs hi hw rfl hop h3 hc hn hf
  · obtain ⟨hw, hop⟩ := onlyTq_of_wordOps hops
    exact ⟨exec_qcmt_commits hs hi hw rfl hop h3 hp hh, qTail_qCommit (tqQ_lt _) (State.wf_regs hs) _, qCommit_mem _ _ _⟩
  · obtain ⟨hw, hop⟩ := onlyTq_of_wordOps hops
    exact exec_qresUnblock_issues hwait hs hw hk hop hi hst
  · obtain ⟨hw, hop⟩ := onlyTq_of_wordOps hops
    exact exec_qacqUnblock_issues hwait hs hw hk hop hi hst
  · obtain ⟨hw, hop⟩ := onlyTq_of_wordOps hops
    have h := exec_qacqUnblock_closed hk hs hw hop hwait hr
    rw [qShown, ← Nat.add_assoc] at h
    exact h

end Sys2Proof.Machine
end

section
/-! SUPPORT. QWAIT, SLEEP and GBAR, and the low-power states of a core (R162 to R165, R188, R210). -/

namespace Sys2Proof.Machine

/-! ### The power settings that a core takes (R188) -/

/-- A core with the power settings and watch slots of its registers. -/
def powerTaken (k : Nat) (s : State) (c : CoreSt) : CoreSt :=
  { c with pwr := s.rd (Reg.corePwr k), watch := (List.range 8).map fun i => s.rd (Reg.coreWatch0 k + 4 * i) }

theorem takePwr_eq (k : Nat) (s : State) : takePwr k s = setCore s k (powerTaken k s (core s k)) := rfl

theorem watched_lt {c : CoreSt} {x : Nat × Nat} (h : x ∈ watched c) : x.2 < 1024 := by
  obtain ⟨i, -, hi⟩ := List.mem_filterMap.mp h
  dsimp only at hi
  split at hi
  · cases hi
    exact fieldN_lt _ _ _
  · cases hi

section
variable {k : CoreId} {s t : State}

/-- The issue of a word changes none of the settings. -/
theorem powerTaken_of_issue (w : RegsOk s) (h : ChangesOnlyRegs (issueRegs k) s t) (c : CoreSt) : powerTaken k t c = powerTaken k s c := by
  have hlt := k.isLt
  have hin {x : Nat} (hlo : Reg.corePwr k ≤ x) (hhi : x < Reg.coreExcStatus k) : t.rd x = s.rd x := by
    refine (h w).2 x (issueRegs_outside ?_ ?_ ?_ ?_) <;> simp only [Reg.corePwr, Reg.coreExcStatus, Reg.corePc, Reg.coreStatus] at * <;> omega
  have hwatch : ((List.range 8).map fun i => t.rd (Reg.coreWatch0 k + 4 * i)) = (List.range 8).map fun i => s.rd (Reg.coreWatch0 k + 4 * i) := by
    refine List.map_congr_left fun i hi => hin ?_ ?_ <;> have hi := List.mem_range.mp hi <;>
      simp only [Reg.corePwr, Reg.coreWatch0, Reg.coreExcStatus] <;> omega
  rw [powerTaken, hwatch, hin le_rfl (by simp only [Reg.corePwr, Reg.coreExcStatus]; omega), powerTaken]

theorem qFill_of_issue (w : RegsOk s) (h : ChangesOnlyRegs (issueRegs k) s t) {c : CoreSt} {x : Nat × Nat} (hx : x ∈ watched c) :
    qFill t x.2 = qFill s x.2 := (sameQueue_of_issueRegs (watched_lt hx) w h).qFill

/-- Whether a watched queue holds an element. -/
def anyFilled (s : State) (c : CoreSt) : Bool := (watched c).any fun x => qFill s x.2 != 0

theorem anyFilled_of_issue (w : RegsOk s) (h : ChangesOnlyRegs (issueRegs k) s t) (c : CoreSt) : anyFilled t c = anyFilled s c := by
  rw [Bool.eq_iff_iff, anyFilled, anyFilled, List.any_eq_true, List.any_eq_true]
  exact exists_congr fun x => and_congr_right fun hx => by rw [qFill_of_issue w h hx]

theorem qwaitResult_of_issue (w : RegsOk s) (h : ChangesOnlyRegs (issueRegs k) s t) (c : CoreSt) : qwaitResult t c = qwaitResult s c := by
  have hfind : (watched c).find? (fun x => qFill t x.2 != 0) = (watched c).find? (fun x => qFill s x.2 != 0) :=
    List.find?_congr fun x hx => by rw [qFill_of_issue w h hx]
  rw [qwaitResult, hfind, qwaitResult]

theorem syncDue_takePwr (hs : s.wf = true) : takePwr k (syncDue k s) = setCore (syncDue k s) k (powerTaken k s (core s k)) := by
  rw [takePwr_eq, powerTaken_of_issue (State.wf_regs hs) (syncDue_changesOnlyRegs k s), syncDue_core]

/-! ### A core that is blocked -/

theorem blocked_onlyCore (hs : s.wf = true) (b : Bool) : OnlyCore k s (s.putB (Reg.coreStatus k) 6 b) (core s k) [] :=
  .of_within hs State.putB_within (putB_changesOnlyRegs (issueRegs_coreStatus k)) (by decide)

end

/-! ### QWAIT (R164, R210) -/

section
variable {k : CoreId} {v : IWord} {s : State}

theorem tqQwait_fallsThrough (hw : OnlyTq v) {pc : W64} {u : State} {c : CoreSt} (hu : u.wf = true)
    (h : takePwr k u = setCore u k c) : tqQwait k v pc false u =
      if anyFilled u c then .done (.ofS (tqRd v) (qwaitResult u c)) (setCore u k c)
      else .done .none (setCore (setCore u k c) k { c with wait := .qwait pc (some (tqRd v)) false, nap := .awake }) := by
  have hlinks : brLinks v (tqRd v) = false := by simp [brLinks, hw.br]
  have hcore : core (setCore u k c) k = c := core_setCore_same hu k c
  rw [tqQwait, h, hcore, hlinks]
  rfl

theorem tqEffect_qwait {w : IWord} (hop : tqOp w = 0x05) (c : CoreSt) (s : State) : tqEffect k w c false s = tqQwait k w c.pc false s := by
  simp [tqEffect, hop]

/-- The end of a word whose core waits in QWAIT. -/
theorem wordEnd_qwait {t : State} {pc : W64} {rd : Option Nat} (ht : t.wf = true) (hbr : brOp v = 0)
    (hwait : (core t k).wait = .qwait pc rd false) : OnlyCore k t (wordEnd k v (tqOnly .none) s t) { core t k with pc := (core s k).pc + 64 } [] ∧
      (wordEnd k v (tqOnly .none) s t).bit (Reg.coreStatus k) 6 = true := by
  have hun : unwait k t = t := by rw [unwait, hwait]
  have hcore : core (regsWritten k (tqOnly .none) (core s k) t) k = { core t k with pc := (core s k).pc + 64 } := (regsWritten_onlyCore ht).1
  have hr : (regsWritten k (tqOnly .none) (core s k) t).wf = true := regsWritten_within.wf ht
  have hend : wordEnd k v (tqOnly .none) s t = (regsWritten k (tqOnly .none) (core s k) t).putB (Reg.coreStatus k) 6 true := by
    have hbr10 : brOp v ≠ 0x10 := by omega
    have hbr11 : brOp v ≠ 0x11 := by omega
    rw [wordEnd, finishWord_fallsThrough ht (.inl hbr) hun, endWord, hcore, hwait, if_neg hbr10, if_neg hbr11]
  rw [hend]
  refine ⟨?_, State.bit_putB_same (State.wf_regs hr) (by decide)⟩
  have hblock := blocked_onlyCore (k := k) hr true
  rw [hcore] at hblock
  exact (regsWritten_onlyCore ht).trans hblock

variable {w : IWord} (hs : s.wf = true) (hi : issues s k v = true) (hw : OnlyTq v) (hv : v = withTq 0x05 w) (hop : tqOp v = 0x05)
include hs hi hw hv hop

theorem exec_qwait_filled (hf : anyFilled s (powerTaken k s (core s k)) = true) : ∃ t, exec (.qwait k w) s = .next t ∧
    WordDone k s t { (powerTaken k s (core s k)).setS (tqRd v) (qwaitResult s (powerTaken k s (core s k))) with pc := (core s k).pc + 64 } [] := by
  have hregs := syncDue_changesOnlyRegs k s
  have he : (syncDue k s).wf = true := syncDue_within.wf hs
  have hq := tqQwait_fallsThrough hw (pc := (core s k).pc) he (syncDue_takePwr (k := k) hs)
  rw [anyFilled_of_issue (State.wf_regs hs) hregs, qwaitResult_of_issue (State.wf_regs hs) hregs, if_pos hf] at hq
  refine ⟨_, exec_onlyTq (by rw [hv]; rfl) hi hw ((tqEffect_qwait hop _ _).trans hq), ?_⟩
  exact wordEnd_wordDone (setCore_within.wf he) ((syncDue_onlyCore hs k).trans (setCore_onlyCore he k _)) hw.br
    (wait_of_mayIssue (mayIssue_of_issues hi)) rfl rfl

theorem exec_qwait_waits (hf : anyFilled s (powerTaken k s (core s k)) = false) : ∃ t, exec (.qwait k w) s = .next t ∧
    OnlyCore k s t { powerTaken k s (core s k) with
      wait := .qwait (core s k).pc (some (tqRd v)) false, nap := .awake, pc := (core s k).pc + 64 } [] ∧ t.bit (Reg.coreStatus k) 6 = true := by
  have hregs := syncDue_changesOnlyRegs k s
  have he : (syncDue k s).wf = true := syncDue_within.wf hs
  have hq := tqQwait_fallsThrough hw (pc := (core s k).pc) he (syncDue_takePwr (k := k) hs)
  rw [anyFilled_of_issue (State.wf_regs hs) hregs, if_neg (by simp [hf])] at hq
  have hp : (setCore (syncDue k s) k (powerTaken k s (core s k))).wf = true := setCore_within.wf he
  have hpre := ((syncDue_onlyCore hs k).trans (setCore_onlyCore he k _)).trans (setCore_onlyCore hp k
    { powerTaken k s (core s k) with wait := .qwait (core s k).pc (some (tqRd v)) false, nap := .awake })
  obtain ⟨honly, hbit⟩ := wordEnd_qwait (s := s) (setCore_within.wf hp) hw.br (by rw [hpre.1])
  rw [hpre.1] at honly
  exact ⟨_, exec_onlyTq (by rw [hv]; rfl) hi hw ((tqEffect_qwait hop _ _).trans hq), hpre.trans honly, hbit⟩

end

/-! ### A word whose only operation is in the branch field -/

/-- The word has an operation in its branch field only. -/
structure OnlyBr (w : IWord) : Prop where
  sca : scaOp w = 0
  adr : adrOp w = 0
  vec : vecOp w = 0
  arr : arrOp w = 0
  tq : tqOp w = 0

theorem onlyBr_of_wordOps {w : IWord} {op : Nat} (h : wordOps w = [0, 0, 0, 0, 0, op]) : OnlyBr w ∧ brOp w = op := by
  simp only [wordOps, List.cons.injEq, and_true] at h
  obtain ⟨hsca, hadr, hvec, harr, htq, hbr⟩ := h
  exact ⟨⟨hsca, hadr, hvec, harr, htq⟩, hbr⟩

section
variable {c : Instr} {k : CoreId} {v w : IWord} {s stay : State}

theorem wordEffect_onlyBr (hw : OnlyBr w) :
    wordEffect k w stay s = .next (finishWord k w (core s k) [.none, .none, .none, .none] false s) := by
  simp [wordEffect, scaSys, scaWrites, adrEffect, gatherOutside, isGather_of_none hw.vec, vecEffect, arrOutside, arrEffect, tqEffect, hw.sca,
    hw.adr, hw.vec, hw.arr, hw.tq]

/-- The state of such a word, once its core stands at the next word. -/
def nextWord (k : CoreId) (s : State) : State := regsWritten k [.none, .none, .none, .none] (core s k) (syncDue k s)

theorem exec_onlyBr (hc : wordOf c = some (k, v)) (hi : issues s k v = true) (hw : OnlyBr v) (hs : s.wf = true) (hft : FallsThrough v) :
    exec c s = .next (endWord k v (core s k).pc none (nextWord k s)) := by
  have hcore : core (syncDue k s) k = core s k := syncDue_core k
  have hentry : entryState k v s = syncDue k s := by rw [entryState, arrived_of_noAccess (by rw [hw.adr]; rfl)]
  refine exec_word_next hc (kept_of_issues hi) ((issueWord_of_issues hi).trans ?_)
  rw [hentry, wordEffect_onlyBr hw, hcore, finishWord_fallsThrough (syncDue_within.wf hs) hft
    (unwait_of_none (by rw [hcore, wait_of_mayIssue (mayIssue_of_issues hi)]))]
  rfl

theorem nextWord_within : Within 2105352 s (nextWord k s) :=
  Within.step regsWritten_within (by decide) (Within.step syncDue_within (by decide) (Within.refl _ _))

theorem groupOf_of_warp {t : State} (h : t.warp = s.warp) (j : Nat) : groupOf t j = groupOf s j := by rw [groupOf, h, groupOf]

theorem nextWord_wf (hs : s.wf = true) : (nextWord k s).wf = true := regsWritten_within.wf (syncDue_within.wf hs)

theorem nextWord_onlyCore (hs : s.wf = true) : OnlyCore k s (nextWord k s) { core s k with pc := (core s k).pc + 64 } [] := by
  have h := regsWritten_onlyCore (k := k) (ws := [.none, .none, .none, .none]) (entry := core s k) (syncDue_within.wf hs : (syncDue k s).wf = true)
  rw [syncDue_core] at h
  exact (syncDue_onlyCore hs k).trans h

theorem nextWord_changesOnlyRegs : ChangesOnlyRegs (issueRegs k) s (nextWord k s) :=
  (syncDue_changesOnlyRegs k s).trans regsWritten_changesOnlyRegs

theorem nextWord_wait (hs : s.wf = true) (hi : issues s k v = true) : (core (nextWord k s) k).wait = .none := by
  rw [(nextWord_onlyCore hs).1]
  exact wait_of_mayIssue (mayIssue_of_issues hi)

theorem nextWord_blocked (hs : s.wf = true) : (nextWord k s).bit (Reg.coreStatus k) 6 = false := regsWritten_blocked (syncDue_within.wf hs)

/-- The end of a GBAR or a SLEEP. -/
theorem endWord_none {t : State} {pc : W64} (h : (core t k).wait = .none) :
    (brOp v = 0x10 → endWord k v pc none t = brGbar k pc none t) ∧ (brOp v = 0x11 → endWord k v pc none t = brSleep k v pc none t) := by
  refine ⟨fun hop => ?_, fun hop => ?_⟩ <;> rw [endWord, h] <;> simp [hop]

/-! ### SLEEP (R163, R188) -/

/-- What SLEEP makes of a core. -/
def sleeping (v : IWord) (pc : W64) (c : CoreSt) : CoreSt :=
  { c with wait := .sleep pc none, nap := match sleepCode v c.pwr with | none => .awake | some x => .wanted x }

theorem brSleep_eq {t : State} (ht : t.wf = true) (pc : W64) :
    brSleep k v pc none t = setCore (setCore t k (powerTaken k t (core t k))) k (sleeping v pc (powerTaken k t (core t k))) := by
  rw [brSleep, takePwr_eq, core_setCore_same ht]
  rfl

theorem exec_sleep_sleeps (hs : s.wf = true) (hi : issues s k v = true) (hw : OnlyBr v) (hv : v = withBr 0x11 w) (hop : brOp v = 0x11) :
    ∃ t, exec (.sleep k w) s = .next t ∧
      OnlyCore k s t { sleeping v (core s k).pc (powerTaken k s (core s k)) with pc := (core s k).pc + 64 } [] := by
  have hn := nextWord_wf (k := k) hs
  have hnext := nextWord_onlyCore (k := k) hs
  refine ⟨_, exec_onlyBr (by rw [hv]; rfl) hi hw hs (.inr (.inr hop)), ?_⟩
  rw [(endWord_none (nextWord_wait hs hi)).2 hop, brSleep_eq hn, hnext.1, powerTaken_of_issue (State.wf_regs hs) nextWord_changesOnlyRegs]
  exact (hnext.trans (setCore_onlyCore hn k _)).trans (setCore_onlyCore (setCore_within.wf hn) k _)

/-! ### GBAR (R162) -/

/-- A core in no group passes a GBAR. -/
theorem exec_gbar_alone (hs : s.wf = true) (hi : issues s k v = true) (hw : OnlyBr v) (hv : v = withBr 0x10 w) (hop : brOp v = 0x10)
    (hg : groupOf s k = none) : ∃ t, exec (.gbar k w) s = .next t ∧ WordDone k s t { core s k with pc := (core s k).pc + 64 } [] := by
  have hg' : groupOf (nextWord k s) k = none := (groupOf_of_warp (nextWord_within.warp rfl) k).trans hg
  refine ⟨_, exec_onlyBr (by rw [hv]; rfl) hi hw hs (.inr (.inl hop)), ?_⟩
  rw [(endWord_none (nextWord_wait hs hi)).1 hop, brGbar, hg']
  exact wordDone_completes (nextWord_wf hs) (nextWord_blocked hs) (nextWord_onlyCore hs) rfl

end

/-! ### The release of a group (R162) -/

/-- From a canonical state to another, no core has changed but core k. -/
def OtherCores (k : Nat) (s t : State) : Prop := s.wf = true → t.wf = true ∧ ∀ j, j ≠ k → core t j = core s j

section
variable {k : Nat} {s t u : State}

theorem OtherCores.trans (h : OtherCores k s t) (h' : OtherCores k t u) : OtherCores k s u := by
  intro hs
  obtain ⟨ht, hcores⟩ := h hs
  obtain ⟨hu, hcores'⟩ := h' ht
  exact ⟨hu, fun j hj => (hcores' j hj).trans (hcores j hj)⟩

theorem OtherCores.of_within {M : Nat} (h : Within M s t) (hM : M.testBit 13 = false) : OtherCores k s t := fun hs =>
  ⟨h.wf hs, fun j _ => core_of_cores (h.cores hM) j⟩

theorem OtherCores.refl : OtherCores k s s := .of_within (Within.refl 0 s) (by decide)

theorem OtherCores.ite {c : Prop} [Decidable c] {a b : State} (ha : OtherCores k s a) (hb : OtherCores k s b) :
    OtherCores k s (if c then a else b) := by split <;> assumption

theorem setCore_otherCores (c : CoreSt) : OtherCores k s (setCore s k c) := fun hs =>
  ⟨setCore_within.wf hs, fun _ hj => core_setCore_ne hs hj c⟩

theorem excNoted_within (e : Exc) (ea : W64) : Within 2097160 s (excNoted k e ea s) :=
  Within.step traceCore_within (by decide) (Within.step State.wrN_within (by decide) (Within.step State.wrQ_within (by decide)
    (Within.step State.wrQ_within (by decide) (Within.step State.satF_within (by decide)
      (Within.step State.putF_within (by decide) (Within.refl _ _))))))

/-- The bits that show that a core has stopped. -/
def stopShown (k : Nat) (inH : Bool) (s : State) : State :=
  (s.putB (Reg.coreExcStatus k) 0 true).putB (Reg.coreExcStatus k) 2 (inH || s.bit (Reg.coreExcStatus k) 2)

theorem stopShown_within (inH : Bool) : Within 8 s (stopShown k inH s) := Within.step State.putB_within (by decide) State.putB_within

theorem excStopped_otherCores (e : Exc) (ea : W64) (inH : Bool) : OtherCores k s (excStopped k e ea inH s) := by
  have hhalt : OtherCores k s (excHalted k e ea inH s) :=
    ((OtherCores.of_within (stopShown_within inH) (by decide)).trans (setCore_otherCores _)).trans (.of_within traceCore_within (by decide))
  exact .ite (hhalt.trans (.of_within State.raise_within (by decide))) hhalt

theorem takeException_otherCores (e : Exc) : OtherCores k s (takeException k e s) := by
  obtain ⟨s0, ea, -, hin, heq⟩ := takeException_eq k e s
  have hnoted : OtherCores k s (excNoted k e ea s0) :=
    OtherCores.trans (.of_within hin (by decide)) (.of_within (excNoted_within e ea) (by decide))
  have hhandled : OtherCores k s (excHandled k e ea (excNoted k e ea s0)) :=
    (hnoted.trans (.of_within State.putB_within (by decide))).trans (setCore_otherCores _)
  rw [heq]
  exact .ite hhandled (hnoted.trans (excStopped_otherCores e ea _))

theorem wordDone_otherCores (pc : W64) (refused : Option Nat) : OtherCores k s (wordDone k pc refused s) := by
  have hpc : OtherCores k s (s.wrQ (Reg.corePc k) 2 pc.toNat) := .of_within State.wrQ_within (by decide)
  cases refused with
  | none => exact hpc
  | some q => exact hpc.trans (takeException_otherCores _)

theorem endWait_otherCores : OtherCores k s (endWait k s) := by
  have hput : OtherCores k s (s.putB (Reg.coreStatus k) 6 false) := .of_within State.putB_within (by decide)
  unfold endWait
  dsimp only
  cases (core s k).wait with
  | none => exact hput
  | queue => exact hput
  | qwait w rd g =>
    exact .ite ((hput.trans (setCore_otherCores _)).trans (.of_within State.putB_within (by decide)))
      ((hput.trans (setCore_otherCores _)).trans (wordDone_otherCores _ _))
  | barrier w refused => exact (hput.trans (setCore_otherCores _)).trans (wordDone_otherCores _ _)
  | sleep w refused => exact (hput.trans (setCore_otherCores _)).trans (wordDone_otherCores _ _)

theorem wakeCore_otherCores (cause q : Nat) : OtherCores k s (wakeCore cause q k s) := by
  have hcause : OtherCores k s (wakeCause k cause q s) := .of_within wakeCause_within (by decide)
  have hresume (code : Nat) : OtherCores k s (traceResume k cause q code (wakeCause k cause q s)) :=
    hcause.trans (.of_within traceResume_within (by decide))
  unfold wakeCore
  dsimp only
  refine .ite .refl ?_
  cases (core s k).nap with
  | awake => exact hcause.trans endWait_otherCores
  | wanted => exact hcause.trans endWait_otherCores
  | entering code => exact (hresume code).trans endWait_otherCores
  | asleep => exact (OtherCores.ite hcause (hresume _)).trans (setCore_otherCores _)
  | exiting => exact .refl

theorem gbarFree_otherCores (g : Nat) : OtherCores k s (gbarFree g s k) := by
  unfold gbarFree
  refine .ite ?_ .refl
  split
  · exact endWait_otherCores
  · exact (setCore_otherCores _).trans (wakeCore_otherCores 3 0)
  · exact .refl

/-! ### A core that waited in a GBAR waits no more -/

theorem setCore_wait (hs : s.wf = true) (c : CoreSt) : (core (setCore s k c) k).wait = c.wait := by rw [core_setCore_same hs]

theorem excHalted_wait (hs : s.wf = true) (e : Exc) (ea : W64) (inH : Bool) :
    (core (excHalted k e ea inH s) k).wait = (core s k).wait := by
  have hput : (stopShown k inH s).wf = true := (stopShown_within inH).wf hs
  have hwait : (core (stopShown k inH s) k).wait = (core s k).wait :=
    congrArg CoreSt.wait (core_of_cores ((stopShown_within inH).cores (by decide)) k)
  exact (congrArg CoreSt.wait (core_of_cores (traceCore_within.cores (by decide)) k)).trans ((setCore_wait hput _).trans hwait)

theorem takeException_wait (hs : s.wf = true) (e : Exc) : (core (takeException k e s) k).wait = (core s k).wait := by
  obtain ⟨s0, ea, -, hin, heq⟩ := takeException_eq k e s
  have hnoted : (excNoted k e ea s0).wf = true := (excNoted_within e ea).wf (hin.wf hs)
  have hcore : core (excNoted k e ea s0) k = core s k :=
    core_of_cores (((excNoted_within e ea).cores (by decide)).trans (hin.cores (by decide))) k
  rw [heq, ← hcore]
  split
  · exact setCore_wait (State.putB_within.wf hnoted) _
  · unfold excStopped
    dsimp only
    split
    · rw [core_of_cores (State.raise_within.cores (by decide)), excHalted_wait hnoted]
    · exact excHalted_wait hnoted e ea _

theorem wordDone_wait (hs : s.wf = true) (pc : W64) (refused : Option Nat) :
    (core (wordDone k pc refused s) k).wait = (core s k).wait := by
  have hpc : core (s.wrQ (Reg.corePc k) 2 pc.toNat) k = core s k := core_of_cores (State.wrQ_within.cores (by decide)) k
  cases refused with
  | none => exact congrArg CoreSt.wait hpc
  | some q => exact (takeException_wait (State.wrQ_within.wf hs) _).trans (congrArg CoreSt.wait hpc)

/-- The end of a GBAR. -/
theorem endWait_barrier_wait (hs : s.wf = true) {a : W64} {r : Option Nat} (h : (core s k).wait = .barrier a r) :
    (core (endWait k s) k).wait = .none := by
  have hput : (s.putB (Reg.coreStatus k) 6 false).wf = true := State.putB_within.wf hs
  unfold endWait
  dsimp only
  rw [h]
  exact (wordDone_wait (setCore_within.wf hput) a r).trans (setCore_wait hput _)

end

/-- Core j is a member of group g that waits in a GBAR and not in QWAIT too. -/
structure WaitsInGroup (g : Nat) (j : CoreId) (s : State) : Prop where
  wf : s.wf = true
  group : groupOf s j = some g
  enabled : coreState s j = 1
  waits : ∃ a r, (core s j).wait = .barrier a r

section
variable {g i : Nat} {j : CoreId} {s : State}

theorem gbarFree_waits (h : WaitsInGroup g j s) (hne : j.val ≠ i) : WaitsInGroup g j (gbarFree g s i) := by
  obtain ⟨hwf, hcores⟩ := gbarFree_otherCores g h.wf
  have hstate := (gbarFree_keepsFld (keptInWaits_coreState j) g i s (State.wf_regs h.wf)).2
  refine ⟨hwf, (groupOf_of_warp (gbarFree_within.warp (by decide)) j).trans h.group, hstate.trans h.enabled, ?_⟩
  rw [hcores j hne]
  exact h.waits

theorem gbarFree_frees (h : WaitsInGroup g j s) : (core (gbarFree g s j) j).wait = .none := by
  obtain ⟨a, r, hwait⟩ := h.waits
  rw [gbarFree, if_pos (by simp [h.group, h.enabled]), hwait]
  exact endWait_barrier_wait h.wf hwait

theorem gbarFree_free (hs : s.wf = true) (h : (core s j).wait = .none) : (core (gbarFree g s i) j).wait = .none := by
  by_cases hne : j.val = i
  · subst hne
    have hsame : gbarFree g s j = s := by
      unfold gbarFree
      rw [h]
      exact ite_self s
    rw [hsame, h]
  · rw [(gbarFree_otherCores g hs).2 j hne, h]

theorem foldl_gbarFree_free (hs : s.wf = true) (h : (core s j).wait = .none) (l : List Nat) :
    (core (l.foldl (gbarFree g) s) j).wait = .none := by
  induction l generalizing s with
  | nil => exact h
  | cons i l ih => exact ih (gbarFree_within.wf hs) (gbarFree_free hs h)

/-- The release of a group reaches each member that waits. -/
theorem foldl_gbarFree_frees (h : WaitsInGroup g j s) {l : List Nat} (hl : j.val ∈ l) : (core (l.foldl (gbarFree g) s) j).wait = .none := by
  induction l generalizing s with
  | nil => cases hl
  | cons i l ih =>
    rw [List.foldl_cons]
    by_cases hne : j.val = i
    · subst hne
      exact foldl_gbarFree_free (gbarFree_within.wf h.wf) (gbarFree_frees h) l
    · exact ih (gbarFree_waits h hne) ((List.mem_cons.mp hl).resolve_left hne)

end

/-! ### A GBAR of a core in a group -/

section
variable {k : CoreId} {v w : IWord} {s : State}

/-- The core waits in its GBAR, before its group is looked at. -/
def atBarrier (k : CoreId) (pc : W64) (t : State) : State :=
  (setCore t k { core t k with wait := .barrier pc none }).putB (Reg.coreStatus k) 6 true

theorem brGbar_group {pc : W64} {t : State} {g : Nat} (h : groupOf t k = some g) :
    brGbar k pc none t = if gbarMet (atBarrier k pc t) g then (List.range 32).foldl (gbarFree g) (atBarrier k pc t) else atBarrier k pc t := by
  have hgroup : groupOf (atBarrier k pc t) k = some g := h
  rw [brGbar, h]
  show gbarCheck k (atBarrier k pc t) = _
  rw [gbarCheck, hgroup]

theorem atBarrier_within {pc : W64} {t : State} : Within 8200 t (atBarrier k pc t) :=
  Within.step State.putB_within (by decide) (Within.step setCore_within (by decide) (Within.refl _ _))

theorem atBarrier_onlyCore {pc : W64} {t : State} (ht : t.wf = true) :
    OnlyCore k t (atBarrier k pc t) { core t k with wait := .barrier pc none } [] ∧ (atBarrier k pc t).bit (Reg.coreStatus k) 6 = true := by
  have hset : (setCore t k { core t k with wait := .barrier pc none }).wf = true := setCore_within.wf ht
  have hblock := blocked_onlyCore (k := k) hset true
  rw [core_setCore_same ht] at hblock
  exact ⟨(setCore_onlyCore ht k _).trans hblock, State.bit_putB_same (State.wf_regs hset) (by decide)⟩

/-- The state in which a core of a group has come to its GBAR. -/
def gbarReached (k : CoreId) (s : State) : State := atBarrier k (core s k).pc (nextWord k s)

theorem gbarReached_within : Within 2105352 s (gbarReached k s) := Within.step atBarrier_within (by decide) nextWord_within

theorem gbarReached_onlyCore (hs : s.wf = true) :
    OnlyCore k s (gbarReached k s) { core s k with wait := .barrier (core s k).pc none, pc := (core s k).pc + 64 } [] ∧
      (gbarReached k s).bit (Reg.coreStatus k) 6 = true := by
  have hnext := nextWord_onlyCore (k := k) hs
  obtain ⟨honly, hbit⟩ := atBarrier_onlyCore (k := k) (pc := (core s k).pc) (nextWord_wf (k := k) hs)
  rw [hnext.1] at honly
  exact ⟨hnext.trans honly, hbit⟩

/-- The issue of a word leaves the state of every core. -/
theorem gbarReached_coreState (hs : s.wf = true) (j : CoreId) : coreState (gbarReached k s) j = coreState s j := by
  have h := keptInWaits_coreState j
  have hsync : KeepsFld (Reg.coreStatus j) 0 2 s (syncDue k s) := by
    unfold syncDue
    exact .ite (KeepsFld.trans (.of_regs (by rfl)) (traceCore_keepsFld h.ne_traceStatus _ _ _ _)) (.of_regs rfl)
  have hpmc (t : State) : KeepsFld (Reg.coreStatus j) 0 2 t (pmcCount 0x02 k 1 t) :=
    (pmcCount_isTraceReg _ _ _ _).keepsFld (by simpa [isTraceReg] using h.low)
  have hnext : KeepsFld (Reg.coreStatus j) 0 2 s (nextWord k s) :=
    ((hsync.trans (.of_regs (by rfl))).trans (blocked_keepsFld h k false _)).trans (hpmc _)
  exact ((hnext.trans (setCore_keepsFld _ _)).trans (blocked_keepsFld h k true _) (State.wf_regs hs)).2

theorem gbarReached_inGbar (hs : s.wf = true) (j : CoreId) : inGbar (gbarReached k s) j = if j = k then true else inGbar s j := by
  obtain ⟨⟨hcore, hothers, -, -⟩, -⟩ := gbarReached_onlyCore (k := k) hs
  by_cases h : j = k
  · subst h
    rw [if_pos rfl, inGbar, hcore]
  · rw [if_neg h, inGbar, hothers j h, inGbar]

/-- The barrier of a group is met once each other member that is ENABLED waits in it. -/
theorem gbarMet_gbarReached (hs : s.wf = true) (g : Nat) : gbarMet (gbarReached k s) g = true ↔
    ∀ j : CoreId, j ≠ k → groupOf s j = some g → coreState s j = 1 → inGbar s j = true := by
  have hgroup (j : Nat) : groupOf (gbarReached k s) j = groupOf s j := groupOf_of_warp (gbarReached_within.warp (by decide)) j
  have hmember (j : CoreId) : (groupOf (gbarReached k s) j != some g || coreState (gbarReached k s) j != 1 || inGbar (gbarReached k s) j) = true ↔
      (j ≠ k → groupOf s j = some g → coreState s j = 1 → inGbar s j = true) := by
    rw [hgroup, gbarReached_coreState hs, gbarReached_inGbar hs]
    by_cases h : j = k
    · simp [h]
    · simp only [h, if_false, Bool.or_eq_true, bne_iff_ne, ne_eq, not_false_eq_true, true_implies]
      tauto
  rw [gbarMet, List.all_eq_true]
  refine ⟨fun h j => (hmember j).mp (h j (List.mem_range.mpr j.isLt)), fun h j hj => (hmember ⟨j, List.mem_range.mp hj⟩).mpr (h ⟨j, List.mem_range.mp hj⟩)⟩

variable (hs : s.wf = true) (hi : issues s k v = true) (hw : OnlyBr v) (hv : v = withBr 0x10 w) (hop : brOp v = 0x10) {g : Nat}
  (hg : groupOf s k = some g)
include hs hi hw hv hop hg

theorem exec_gbar_group : exec (.gbar k w) s = .next
    (if gbarMet (gbarReached k s) g then (List.range 32).foldl (gbarFree g) (gbarReached k s) else gbarReached k s) := by
  have hgroup : groupOf (nextWord k s) k = some g := (groupOf_of_warp (nextWord_within.warp rfl) k).trans hg
  have h := exec_onlyBr (c := .gbar k w) (by rw [hv]; rfl) hi hw hs (.inr (.inl hop))
  rw [(endWord_none (nextWord_wait hs hi)).1 hop, brGbar_group hgroup] at h
  exact h

theorem exec_gbar_waits (hmet : gbarMet (gbarReached k s) g = false) : ∃ t, exec (.gbar k w) s = .next t ∧
    OnlyCore k s t { core s k with wait := .barrier (core s k).pc none, pc := (core s k).pc + 64 } [] ∧ t.bit (Reg.coreStatus k) 6 = true := by
  have h := exec_gbar_group hs hi hw hv hop hg
  rw [if_neg (by simp [hmet])] at h
  exact ⟨_, h, gbarReached_onlyCore hs⟩

theorem exec_gbar_releases (hmet : gbarMet (gbarReached k s) g = true) : ∃ t, exec (.gbar k w) s = .next t ∧ t.mem = s.mem ∧
    ∀ j : CoreId, groupOf s j = some g → coreState s j = 1 → (∃ a r, (core s j).wait = .barrier a r) ∨ j = k → (core t j).wait = .none := by
  have h := exec_gbar_group hs hi hw hv hop hg
  rw [if_pos hmet] at h
  have hin : Within 85991432 (gbarReached k s) ((List.range 32).foldl (gbarFree g) (gbarReached k s)) :=
    Within.foldl (fun _ _ => gbarFree_within) (Within.refl _ _)
  obtain ⟨⟨hcore, hothers, -, -⟩, -⟩ := gbarReached_onlyCore (k := k) hs
  refine ⟨_, h, (hin.mem (by decide)).trans (gbarReached_within.mem (by decide)), fun j hgj hst hwait => ?_⟩
  refine foldl_gbarFree_frees ⟨gbarReached_within.wf hs, (groupOf_of_warp (gbarReached_within.warp (by decide)) j).trans hgj,
    (gbarReached_coreState hs j).trans hst, ?_⟩ (List.mem_range.mpr j.isLt)
  by_cases hjk : j = k
  · subst hjk
    rw [hcore]
    exact ⟨_, _, rfl⟩
  · rw [hothers j hjk]
    exact hwait.resolve_right hjk

end

/-! ### The low-power states (R163, R165, R246) -/

section
variable {k : CoreId} {s : State} (hk : s.Kept) (hclk : s.cclk = true) (hst : coreState s k = 1)
include hk hclk hst

/-- A QWAIT that has been idle asks for DOZE. -/
theorem exec_idleDozeExpiry_wanted {a : W64} {r : Option Nat} {g : Bool} (hwait : (core s k).wait = .qwait a r g)
    (hnap : (core s k).nap = .awake) (hdoze : (core s k).pwr.toNat.testBit 0 = true) :
    exec (.idleDozeExpiry k) s = .next (setCore s k { core s k with nap := .wanted 1 }) := by
  have h : execIdleDozeExpiry k s = .next (setCore s k { core s k with nap := .wanted 1 }) := by
    unfold execIdleDozeExpiry
    dsimp only
    rw [hwait]
    exact onlyIf_of_true (by simp [hclk, hst, hnap, hdoze])
  exact inContract_within hk execIdleDozeExpiry_within (by decide) h

/-- The packet of the entry into a low-power state (R548). -/
def entryTraced (k : CoreId) (n : Nat) (s : State) : State :=
  if n = 1 then traceCore k 0x3 (codeAddr (sleepWord (core s k)).toNat 0) s
  else traceCore k 0x4 (codeAddr (sleepWord (core s k)).toNat (if n = 2 then 1 else 0)) s

theorem exec_lowPowerEntry_begins (hs : s.wf = true) {n : Nat} (hnap : (core s k).nap = .wanted n) (hidle : arraysIdle s k = true)
    (hroom : (traced s k && fifoFull s k) = false) : ∃ t, exec (.lowPowerEntry k) s = .next t ∧
      core t k = { core s k with nap := .entering n } ∧ t.fld (Reg.arrayStatus k) 0 5 = 0 := by
  have htrace : (entryTraced k n s).wf = true :=
    (Within.ite traceCore_within traceCore_within : Within 2097160 s (entryTraced k n s)).wf hs
  have h : execLowPowerEntry k s = .next
      ((setCore (entryTraced k n s) k { core s k with nap := .entering n }).putF (Reg.arrayStatus k) 0 5 0) := by
    rw [execLowPowerEntry, hnap]
    exact onlyIf_of_true (by simp [hclk, hst, hidle, hroom])
  refine ⟨_, inContract_within hk execLowPowerEntry_within (by decide) h, core_setCore_same htrace k _, ?_⟩
  exact State.fld_putF_same (State.wf_regs (setCore_within.wf htrace)) (by decide)

theorem exec_lowPowerEntryDone_asleep (hs : s.wf = true) {n : Nat} (hn : n < 8) (hnap : (core s k).nap = .entering n) :
    ∃ t, exec (.lowPowerEntryDone k) s = .next t ∧ core t k = { core s k with nap := .asleep } ∧ t.fld (Reg.coreStatus k) 3 3 = n := by
  have h : execLowPowerEntryDone k s = .next
      ((setCore s k { core s k with nap := .asleep }).putF (Reg.coreStatus k) 3 3 n) := by
    rw [execLowPowerEntryDone, hnap]
    exact onlyIf_of_true (by simp [hclk, hst])
  refine ⟨_, inContract_within hk execLowPowerEntryDone_within (by decide) h, core_setCore_same hs k _, ?_⟩
  exact (State.fld_putF_same (State.wf_regs (setCore_within.wf hs)) (by decide)).trans (Nat.mod_eq_of_lt hn)

/-- A core leaves a low-power state: it restarts after NAP without retention, and runs on after the others (R165). -/
theorem exec_lowPowerExitDone_leaves (hnap : (core s k).nap = .exiting) : exec (.lowPowerExitDone k) s = .next
    (if corePower s k == 3 then coreStart k 1 2 s else endWait k ((s.putF (Reg.coreStatus k) 3 3 0).putF (Reg.arrayStatus k) 0 5 0)) := by
  have h : execLowPowerExitDone k s = .next
      (if corePower s k == 3 then coreStart k 1 2 s else endWait k ((s.putF (Reg.coreStatus k) 3 3 0).putF (Reg.arrayStatus k) 0 5 0)) :=
    onlyIf_of_true (by simp [hclk, hst, hnap])
  exact inContract_within hk execLowPowerExitDone_within (by decide) h

end

/-- Settles O40: the waits of a word by what its core finds, and each low-power command by the state of its core. -/
theorem waitsAndSleep : Obligations.WaitsAndSleep := by
  intro k w s hk hs
  refine ⟨fun hi hops => ?_, fun hi hops => ?_, fun hi hops => ?_, fun hclk hst => ?_⟩
  · obtain ⟨hw, hop⟩ := onlyTq_of_wordOps hops
    exact ⟨exec_qwait_filled hs hi hw rfl hop, exec_qwait_waits hs hi hw rfl hop⟩
  · obtain ⟨hw, hop⟩ := onlyBr_of_wordOps hops
    exact exec_sleep_sleeps hs hi hw rfl hop
  · obtain ⟨hw, hop⟩ := onlyBr_of_wordOps hops
    refine ⟨exec_gbar_alone hs hi hw rfl hop, fun g hg hex => ?_, fun g hg hall => ?_⟩
    · obtain ⟨j, hne, hgj, hstj, hnot⟩ := hex
      refine exec_gbar_waits hs hi hw rfl hop hg (Bool.eq_false_iff.mpr fun hmet => ?_)
      have := (gbarMet_gbarReached hs g).mp hmet j hne hgj hstj
      rw [hnot] at this
      cases this
    · exact exec_gbar_releases hs hi hw rfl hop hg ((gbarMet_gbarReached hs g).mpr hall)
  · refine ⟨fun ⟨a, r, g, hwait⟩ hnap hdoze => exec_idleDozeExpiry_wanted hk hclk hst hwait hnap hdoze,
      fun n hnap hidle hroom => exec_lowPowerEntry_begins hk hclk hst hs hnap hidle hroom,
      fun n hn hnap => exec_lowPowerEntryDone_asleep hk hclk hst hs hn hnap, fun hnap hp => ?_, fun hnap hp => ?_⟩
    · rw [exec_lowPowerExitDone_leaves hk hclk hst hnap, if_pos (by simp [hp])]
    · rw [exec_lowPowerExitDone_leaves hk hclk hst hnap, if_neg (by simp [hp])]

end Sys2Proof.Machine
end

section
/-! SUPPORT. The fields of an instruction word (R190), and the scalar operations (R191, R192, R194, R202). -/

namespace Sys2Proof.Machine

/-! ### Fields of a word whose opcode has been set -/

/-- The bits of a word with one field replaced. -/
theorem testBit_setWf (w : IWord) (lo n v i : Nat) : (setWf w lo n v).toNat.testBit i =
    (decide (i < 512) && if lo ≤ i ∧ i < lo + n then v.testBit (i - lo) else w.toNat.testBit i) := by
  change (setWf w lo n v).getLsbD i = (decide (i < 512) && if lo ≤ i ∧ i < lo + n then v.testBit (i - lo) else w.getLsbD i)
  by_cases hi : i < 512
  · have hshift : (v * 2 ^ lo).testBit i = (decide (lo ≤ i) && v.testBit (i - lo)) := by rw [Nat.mul_comm, Nat.testBit_two_pow_mul]
    simp only [setWf, BitVec.getLsbD_or, BitVec.getLsbD_and, BitVec.getLsbD_not, BitVec.getLsbD_ofNat, testBit_mask, hi, hshift,
      decide_true, Bool.true_and]
    by_cases h : lo ≤ i ∧ i < lo + n
    · simp [h]
    · simp [h]
  · rw [BitVec.getLsbD_of_ge _ _ (by omega)]
    simp [hi]

theorem wfld_setWf_same (w : IWord) {lo n : Nat} (v : Nat) (h : lo + n ≤ 512) : wfld (setWf w lo n v) lo n = v % 2 ^ n := by
  refine Nat.eq_of_testBit_eq fun i => ?_
  rw [wfld, testBit_fieldN, testBit_setWf, Nat.testBit_mod_two_pow]
  by_cases hi : i < n
  · have hword : lo + i < 512 := by omega
    simp [hi, hword]
  · simp [hi]

theorem wfld_setWf_ne (w : IWord) {lo n lo' n' : Nat} (v : Nat) (hw : lo' + n' ≤ 512) (h : lo' + n' ≤ lo ∨ lo + n ≤ lo') :
    wfld (setWf w lo n v) lo' n' = wfld w lo' n' := by
  refine Nat.eq_of_testBit_eq fun i => ?_
  rw [wfld, wfld, testBit_fieldN, testBit_fieldN, testBit_setWf]
  by_cases hi : i < n'
  · have hword : lo' + i < 512 := by omega
    have hout : ¬(lo ≤ lo' + i ∧ lo' + i < lo + n) := by omega
    simp [hword, hout]
  · simp [hi]

theorem brOp_withBr (w : IWord) {op : Nat} (h : op < 2 ^ 5) : brOp (withBr op w) = op := by
  rw [brOp, brF, withBr, Nat.add_zero, wfld_setWf_same w op (by decide), Nat.mod_eq_of_lt h]

/-- A word with no operation (R191). -/
theorem wordOps_withNone (w : IWord) : wordOps (withNone w) = [0, 0, 0, 0, 0, 0] := by
  simp (disch := decide) only [wordOps, scaOp, adrOp, vecOp, arrOp, tqOp, brOp, scaF, adrF, vecF, arrF, tqF, brF, withNone, withBr, withTq,
    withArr, withVec, withAdr, withSca, wfld_setWf_same, wfld_setWf_ne, Nat.zero_mod]

/-! ### A word whose only operation is in the scalar field -/

/-- The word has an operation in its scalar field only, if any. -/
structure OnlySca (w : IWord) : Prop where
  adr : adrOp w = 0
  vec : vecOp w = 0
  arr : arrOp w = 0
  tq : tqOp w = 0
  br : brOp w = 0

theorem onlySca_of_wordOps {w : IWord} {op : Nat} (h : wordOps w = [op, 0, 0, 0, 0, 0]) : OnlySca w ∧ scaOp w = op := by
  simp only [wordOps, List.cons.injEq, and_true] at h
  obtain ⟨hsca, hadr, hvec, harr, htq, hbr⟩ := h
  exact ⟨⟨hadr, hvec, harr, htq, hbr⟩, hsca⟩

/-- The results of a word that has those of its scalar field only. -/
abbrev scaOnly (sw : Writes) : List Writes := [sw, .none, .none, .none]

section
variable {c : Instr} {k : CoreId} {v : IWord} {s stay : State}

theorem wordEffect_onlySca (hw : OnlySca v) : wordEffect k v stay s =
    .next (finishWord k v (core s k) (scaOnly (scaWrites k v s)) false (scaSys k v (core s k) s)) := by
  simp [wordEffect, adrEffect, gatherOutside, isGather_of_none hw.vec, vecEffect, arrOutside, arrEffect, tqEffect, hw.adr, hw.vec, hw.arr,
    hw.tq]

theorem exec_onlySca (hc : wordOf c = some (k, v)) (hi : issues s k v = true) (hw : OnlySca v) : exec c s =
    .next (wordEnd k v (scaOnly (scaWrites k v (syncDue k s))) s (scaSys k v (core s k) (syncDue k s))) := by
  have hentry : entryState k v s = syncDue k s := by rw [entryState, arrived_of_noAccess (by rw [hw.adr]; rfl)]
  refine exec_word_next hc (kept_of_issues hi) ((issueWord_of_issues hi).trans ?_)
  rw [hentry, wordEffect_onlySca hw, syncDue_core]
  rfl

/-- A scalar word that has left no more of its operation than a change of its core is complete. -/
theorem scaEnd_wordDone {t : State} {c' : CoreSt} {sw : Writes} (hi : issues s k v = true) (hw : OnlySca v) (ht : t.wf = true)
    (h : OnlyCore k s t c' []) (hwait : c'.wait = (core s k).wait) (hpc : c'.pc = (core s k).pc) :
    WordDone k s (wordEnd k v (scaOnly sw) s t) (coreAfter (scaOnly sw) (core s k) c') [] :=
  wordEnd_wordDone ht h hw.br (hwait.trans (wait_of_mayIssue (mayIssue_of_issues hi))) hpc rfl

/-- A word with no operation at all changes nothing but the place of its core (R191). -/
theorem exec_noOperation (hc : wordOf c = some (k, v)) (hs : s.wf = true) (hi : issues s k v = true) (hops : wordOps v = [0, 0, 0, 0, 0, 0]) :
    ∃ t, exec c s = .next t ∧ WordDone k s t { core s k with pc := (core s k).pc + 64 } [] := by
  obtain ⟨hw, hop⟩ := onlySca_of_wordOps hops
  have hexec := exec_onlySca hc hi hw
  simp only [scaWrites, scaSys, hop] at hexec
  exact ⟨_, hexec, scaEnd_wordDone hi hw (syncDue_within.wf hs) (syncDue_onlyCore hs k) rfl rfl⟩

/-- The result of a scalar operation that gives one, from the registers as they were before the word (R194). -/
def scaValue (k : CoreId) (v : IWord) (s : State) : W64 :=
  let c := core s k
  scaResult (scaOp v) (c.sreg (scaF v 13 5)) (scaB v c) (immBits v) (sysReg s k)

/-- The issue of a word changes no system register. -/
theorem sysReg_syncDue (hs : s.wf = true) (n : Nat) : sysReg (syncDue k s) k n = sysReg s k n := by
  have hlt := k.isLt
  have hreg {x : Nat} (hlo : Reg.coreExcStatus k ≤ x) (hhi : x ≤ Reg.coreExcInfo k) : (syncDue k s).rd x = s.rd x := by
    refine (syncDue_changesOnlyRegs k s (State.wf_regs hs)).2 x (issueRegs_outside ?_ ?_ ?_ ?_) <;>
      simp only [Reg.coreExcStatus, Reg.coreExcInfo, Reg.corePc, Reg.coreStatus] at * <;> omega
  have hstatus : (syncDue k s).fld (Reg.coreExcStatus k) 3 4 = s.fld (Reg.coreExcStatus k) 3 4 :=
    State.fld_of_rd (hreg le_rfl (by simp only [Reg.coreExcStatus, Reg.coreExcInfo]; omega)) 3 4
  have hinfo : (syncDue k s).rd (Reg.coreExcInfo k) = s.rd (Reg.coreExcInfo k) :=
    hreg (by simp only [Reg.coreExcStatus, Reg.coreExcInfo]; omega) le_rfl
  simp only [sysReg, syncDue_core, corePart_of_warp (syncDue_within.warp rfl), hstatus, hinfo]

theorem exec_scalar (hc : wordOf c = some (k, v)) (hs : s.wf = true) (hi : issues s k v = true) (hw : OnlySca v) (h0 : scaOp v ≠ 0)
    (h31 : scaOp v ≠ 0x31) : ∃ t, exec c s = .next t ∧
      WordDone k s t { (core s k).setS (scaF v 8 5) (scaValue k v s) with pc := (core s k).pc + 64 } [] := by
  have hsys : sysReg (syncDue k s) k = sysReg s k := funext (sysReg_syncDue hs)
  have hexec := exec_onlySca hc hi hw
  simp only [scaWrites, scaSys, h0, h31, syncDue_core, hsys, or_self, if_false] at hexec
  exact ⟨_, hexec, scaEnd_wordDone hi hw (syncDue_within.wf hs) (syncDue_onlyCore hs k) rfl rfl⟩

/-! ### What a word that issues does not raise -/

theorem illegalField_of_issues (hi : issues s k v = true) : illegalField v s k = none := by
  simp only [issues, ready, Bool.and_eq_true, Bool.not_eq_true', Option.isNone_iff_eq_none] at hi
  obtain ⟨⟨⟨⟨⟨⟨⟨⟨⟨⟨⟨⟨⟨-, -⟩, -⟩, -⟩, -⟩, hexc⟩, -⟩, -⟩, -⟩, -⟩, -⟩, -⟩, -⟩, -⟩ := hi
  cases hf : illegalField v s k with
  | none => rfl
  | some f =>
    rw [wordException, hf] at hexc
    cases hexc

/-- The fields that are not ILLEGAL where none is (R212). -/
theorem legal_of_illegalField (h : illegalField v s k = none) : scaIllegal v (core s k) = false ∧ brIllegal v s k = false := by
  unfold illegalField at h
  split_ifs at h with hctl hsca hadr hvec harr htq hbr
  exact ⟨Bool.eq_false_iff.mpr hsca, Bool.eq_false_iff.mpr hbr⟩

/-- SREAD and SWRITE name system registers that they may read and write (R202). -/
theorem sysRegs_of_issues (hi : issues s k v = true) : (scaOp v = 0x30 → (scaB v (core s k)).toNat % 256 ≤ 6) ∧
    (scaOp v = 0x31 → (scaB v (core s k)).toNat % 256 = 3 ∨ (scaB v (core s k)).toNat % 256 = 6) := by
  have h := (legal_of_illegalField (illegalField_of_issues hi)).1
  simp only [scaIllegal, Bool.or_eq_false_iff] at h
  obtain ⟨⟨-, hread⟩, hwrite⟩ := h
  exact ⟨fun hop => by simpa [hop, sysReadable] using hread, fun hop => by simpa [hop, sysWritable, or_iff_not_imp_left] using hwrite⟩

/-! ### SWRITE (R202) -/

/-- The core whose system register an SWRITE has written. -/
def swritten (v : IWord) (c : CoreSt) : CoreSt :=
  let a := c.sreg (scaF v 13 5)
  if (scaB v c).toNat % 256 = 3 then { c with epc := a } else { c with escratch := a }

theorem scaSys_swrite {t : State} (hop : scaOp v = 0x31) (ht : core t k = core s k) :
    scaSys k v (core s k) t = setCore t k (swritten v (core s k)) := by
  simp only [scaSys, hop, ht, swritten, if_true]
  split <;> rfl

theorem exec_swrite_writes (hc : wordOf c = some (k, v)) (hs : s.wf = true) (hi : issues s k v = true) (hw : OnlySca v) (hop : scaOp v = 0x31) :
    ∃ t, exec c s = .next t ∧ WordDone k s t { swritten v (core s k) with pc := (core s k).pc + 64 } [] := by
  have he : (syncDue k s).wf = true := syncDue_within.wf hs
  have hexec := exec_onlySca hc hi hw
  rw [scaSys_swrite hop (syncDue_core k), scaWrites, if_pos (.inr hop)] at hexec
  have hkeeps : (swritten v (core s k)).wait = (core s k).wait ∧ (swritten v (core s k)).pc = (core s k).pc := by
    unfold swritten
    dsimp only
    split <;> exact ⟨rfl, rfl⟩
  exact ⟨_, hexec, scaEnd_wordDone hi hw (setCore_within.wf he) ((syncDue_onlyCore hs k).trans (setCore_onlyCore he k _)) hkeeps.1 hkeeps.2⟩

end

/-! ### The results, by the rows of the table (R202) -/

theorem scaSll_eq (a b : W64) : scaSll a b = BitVec.ofNat 64 (a.toNat * 2 ^ (b.toNat % 64)) := by
  apply BitVec.eq_of_toNat_eq
  rw [scaSll, BitVec.toNat_shiftLeft, BitVec.toNat_ofNat, Nat.shiftLeft_eq]

theorem scaSrl_eq (a b : W64) : scaSrl a b = BitVec.ofNat 64 (a.toNat / 2 ^ (b.toNat % 64)) := by
  apply BitVec.eq_of_toNat_eq
  rw [scaSrl, BitVec.toNat_ushiftRight, BitVec.toNat_ofNat, Nat.shiftRight_eq_div_pow,
    Nat.mod_eq_of_lt ((Nat.div_le_self _ _).trans_lt a.isLt)]

theorem scaSra_eq (a b : W64) : scaSra a b = BitVec.ofInt 64 (a.toInt / 2 ^ (b.toNat % 64)) := by
  rw [scaSra, BitVec.sshiftRight, Int.shiftRight_eq_div_pow]
  norm_cast

theorem scaMul_eq (a b : W64) : scaMul a b = BitVec.ofNat 64 (a.toNat * b.toNat) := BitVec.mul_def ..

theorem scaMin_eq (a b : W64) : scaMin a b = if a.toInt ≤ b.toInt then a else b := by
  unfold scaMin
  split_ifs with h h' h'
  · rfl
  · omega
  · exact (BitVec.eq_of_toInt_eq (by omega)).symm
  · rfl

theorem scaMax_eq (a b : W64) : scaMax a b = if a.toInt ≤ b.toInt then b else a := by
  unfold scaMax
  split_ifs with h h' h'
  · rfl
  · omega
  · exact BitVec.eq_of_toInt_eq (by omega)
  · rfl

theorem scaMinu_eq (a b : W64) : scaMinu a b = if a.toNat ≤ b.toNat then a else b := by
  unfold scaMinu
  split_ifs with h h' h'
  · rfl
  · omega
  · exact (BitVec.eq_of_toNat_eq (by omega)).symm
  · rfl

theorem scaMaxu_eq (a b : W64) : scaMaxu a b = if a.toNat ≤ b.toNat then b else a := by
  unfold scaMaxu
  split_ifs with h h' h'
  · rfl
  · omega
  · exact BitVec.eq_of_toNat_eq (by omega)
  · rfl

/-- How many numbers from 0 on have a property, up to the first that has not. -/
theorem length_takeWhile_range {p : Nat → Bool} {m n : Nat} (hm : m ≤ n) (hlow : ∀ i, i < m → p i = true) (hat : m < n → p m = false) :
    ((List.range n).takeWhile p).length = m := by
  obtain ⟨d, rfl⟩ := Nat.exists_eq_add_of_le hm
  rw [List.range_add, List.takeWhile_append_of_pos fun i hi => hlow i (List.mem_range.mp hi), List.length_append, List.length_range]
  cases d with
  | zero => rfl
  | succ d => simp [List.range_succ_eq_map, hat (by omega)]

theorem scaClz_eq (a : W64) : scaClz a = BitVec.ofNat 64 ((List.range 64).takeWhile fun i => !a.getLsbD (63 - i)).length := by
  unfold scaClz
  congr 1
  by_cases ha : a = 0
  · rw [if_pos ha, length_takeWhile_range le_rfl (fun i _ => by simp [ha]) (fun h => absurd h (lt_irrefl _))]
  · have hne : a.toNat ≠ 0 := fun h => ha (BitVec.eq_of_toNat_eq h)
    have hlog : a.toNat.log2 < 64 := (Nat.log2_lt hne).mpr a.isLt
    have hlead (i : Nat) (hi : i < 63 - a.toNat.log2) : (!a.getLsbD (63 - i)) = true := by
      rw [Bool.not_eq_true', BitVec.getLsbD]
      exact Nat.testBit_lt_two_pow ((Nat.log2_lt hne).mp (by omega))
    have htop : (!a.getLsbD (63 - (63 - a.toNat.log2))) = false := by
      rw [Bool.not_eq_false', Nat.sub_sub_self (by omega), BitVec.getLsbD]
      exact Nat.testBit_log2 hne
    rw [if_neg ha, length_takeWhile_range (by omega) hlead fun _ => htop]

theorem scaPopc_eq (a : W64) : scaPopc a = BitVec.ofNat 64 ((List.range 64).countP fun i => a.getLsbD i) := by
  rw [List.countP_eq_length_filter]
  rfl

theorem scaMovhi_eq (a : W64) (imm : Nat) : scaMovhi a imm = (a &&& 0xFFFF#64) ||| (BitVec.ofNat 64 imm <<< 16) := by
  have h : BitVec.ofNat 64 (imm * 65536) = BitVec.ofNat 64 imm <<< 16 := by
    apply BitVec.eq_of_toNat_eq
    rw [BitVec.toNat_shiftLeft, BitVec.toNat_ofNat, BitVec.toNat_ofNat, Nat.shiftLeft_eq, Nat.mod_mul_mod]
  rw [scaMovhi, h]

/-- A row of the scalar operations: the command, its opcode, and its result from operands a and b and the long immediate. -/
abbrev ScalarRow := (CoreId → IWord → Instr) × Nat × (W64 → W64 → W64 → W64)

/-- The row says of its opcode what the model says. -/
structure IsScalar (r : ScalarRow) : Prop where
  word : ∀ k w, wordOf (r.1 k w) = some (k, withSca r.2.1 w)
  holds : r.2.1 ≠ 0
  reads : r.2.1 ≠ 0x31
  result : ∀ a b imm sys, scaResult r.2.1 a b imm sys = r.2.2 a b (BitVec.ofNat 64 imm)

theorem isScalar_of_mem {row : ScalarRow}
    (h : row ∈ ([(Instr.add, 0x01, fun a b _ => a + b), (.sub, 0x02, fun a b _ => a - b), (.andS, 0x03, fun a b _ => a &&& b),
      (.orS, 0x04, fun a b _ => a ||| b), (.xorS, 0x05, fun a b _ => a ^^^ b),
      (.sll, 0x06, fun a b _ => BitVec.ofNat 64 (a.toNat * 2 ^ (b.toNat % 64))),
      (.srl, 0x07, fun a b _ => BitVec.ofNat 64 (a.toNat / 2 ^ (b.toNat % 64))),
      (.sra, 0x08, fun a b _ => BitVec.ofInt 64 (a.toInt / 2 ^ (b.toNat % 64))),
      (.mul, 0x09, fun a b _ => BitVec.ofNat 64 (a.toNat * b.toNat)),
      (.mulhu, 0x0A, fun a b _ => BitVec.ofNat 64 (a.toNat * b.toNat / 2 ^ 64)),
      (.mulhs, 0x0B, fun a b _ => BitVec.ofInt 64 (a.toInt * b.toInt / 2 ^ 64)),
      (.slt, 0x0C, fun a b _ => if a.toInt < b.toInt then 1 else 0), (.sltu, 0x0D, fun a b _ => if a.toNat < b.toNat then 1 else 0),
      (.minS, 0x0E, fun a b _ => if a.toInt ≤ b.toInt then a else b), (.maxS, 0x0F, fun a b _ => if a.toInt ≤ b.toInt then b else a),
      (.minu, 0x10, fun a b _ => if a.toNat ≤ b.toNat then a else b), (.maxu, 0x11, fun a b _ => if a.toNat ≤ b.toNat then b else a),
      (.clz, 0x13, fun a _ _ => BitVec.ofNat 64 ((List.range 64).takeWhile fun i => !a.getLsbD (63 - i)).length),
      (.popc, 0x14, fun a _ _ => BitVec.ofNat 64 ((List.range 64).countP fun i => a.getLsbD i)),
      (.mov, 0x20, fun _ b _ => b), (.movhi, 0x21, fun a _ imm => (a &&& 0xFFFF#64) ||| (imm <<< 16))] : List ScalarRow)) :
    IsScalar row := by
  simp only [List.mem_cons, List.not_mem_nil, or_false] at h
  rcases h with rfl | rfl | rfl | rfl | rfl | rfl | rfl | rfl | rfl | rfl | rfl | rfl | rfl | rfl | rfl | rfl | rfl | rfl | rfl | rfl | rfl
  · exact ⟨fun _ _ => rfl, by decide, by decide, fun _ _ _ _ => rfl⟩
  · exact ⟨fun _ _ => rfl, by decide, by decide, fun _ _ _ _ => rfl⟩
  · exact ⟨fun _ _ => rfl, by decide, by decide, fun _ _ _ _ => rfl⟩
  · exact ⟨fun _ _ => rfl, by decide, by decide, fun _ _ _ _ => rfl⟩
  · exact ⟨fun _ _ => rfl, by decide, by decide, fun _ _ _ _ => rfl⟩
  · exact ⟨fun _ _ => rfl, by decide, by decide, fun a b _ _ => scaSll_eq a b⟩
  · exact ⟨fun _ _ => rfl, by decide, by decide, fun a b _ _ => scaSrl_eq a b⟩
  · exact ⟨fun _ _ => rfl, by decide, by decide, fun a b _ _ => scaSra_eq a b⟩
  · exact ⟨fun _ _ => rfl, by decide, by decide, fun a b _ _ => scaMul_eq a b⟩
  · exact ⟨fun _ _ => rfl, by decide, by decide, fun _ _ _ _ => rfl⟩
  · exact ⟨fun _ _ => rfl, by decide, by decide, fun _ _ _ _ => rfl⟩
  · exact ⟨fun _ _ => rfl, by decide, by decide, fun _ _ _ _ => rfl⟩
  · exact ⟨fun _ _ => rfl, by decide, by decide, fun _ _ _ _ => rfl⟩
  · exact ⟨fun _ _ => rfl, by decide, by decide, fun a b _ _ => scaMin_eq a b⟩
  · exact ⟨fun _ _ => rfl, by decide, by decide, fun a b _ _ => scaMax_eq a b⟩
  · exact ⟨fun _ _ => rfl, by decide, by decide, fun a b _ _ => scaMinu_eq a b⟩
  · exact ⟨fun _ _ => rfl, by decide, by decide, fun a b _ _ => scaMaxu_eq a b⟩
  · exact ⟨fun _ _ => rfl, by decide, by decide, fun a _ _ _ => scaClz_eq a⟩
  · exact ⟨fun _ _ => rfl, by decide, by decide, fun a _ _ _ => scaPopc_eq a⟩
  · exact ⟨fun _ _ => rfl, by decide, by decide, fun _ _ _ _ => rfl⟩
  · exact ⟨fun _ _ => rfl, by decide, by decide, fun a _ imm _ => scaMovhi_eq a imm⟩

/-- The information of an exception stands above its cause (R202). -/
theorem sysReg_exception {s : State} {k : CoreId} :
    sysReg s k 4 = s.rd (Reg.coreExcInfo k) ++ BitVec.ofNat 32 (s.fld (Reg.coreExcStatus k) 3 4) := by
  have hcause : s.fld (Reg.coreExcStatus k) 3 4 < 2 ^ 4 := fieldN_lt _ _ _
  have hinfo := (s.rd (Reg.coreExcInfo k)).isLt
  apply BitVec.eq_of_toNat_eq
  rw [BitVec.toNat_append, ← Nat.shiftLeft_add_eq_or_of_lt (BitVec.isLt _), Nat.shiftLeft_eq, BitVec.toNat_ofNat, sysReg, BitVec.toNat_ofNat]
  omega

/-- Settles O28: each row gives the result of its operation, and no scalar word changes anything beside its core. -/
theorem scalarOperations : Obligations.ScalarOperations := by
  intro k w s hs
  refine ⟨fun row hrow => ?_, fun hi => exec_noOperation rfl hs hi (wordOps_withNone w), fun hi hops => ?_, fun hi hops => ?_⟩
  · have hrow := isScalar_of_mem hrow
    intro v c hi hops
    obtain ⟨hw, hop⟩ := onlySca_of_wordOps hops
    have h := exec_scalar (hrow.word k w) hs hi hw (by rw [hop]; exact hrow.holds) (by rw [hop]; exact hrow.reads)
    rwa [scaValue, hop, hrow.result] at h
  · obtain ⟨hw, hop⟩ := onlySca_of_wordOps hops
    obtain ⟨t, he, hdone⟩ := exec_scalar (c := .sread k w) rfl hs hi hw (by rw [hop]; decide) (by rw [hop]; decide)
    have hx : scaValue k (withSca 0x30 w) s = sysReg s k ((scaB (withSca 0x30 w) (core s k)).toNat % 256) := by rw [scaValue, hop]; rfl
    refine ⟨t, _, he, hdone, (sysRegs_of_issues hi).1 hop, ?_⟩
    rw [hx]
    refine ⟨fun hn => ?_, fun hn => ?_, fun hn p hp => ?_, fun hn => ?_, fun hn => ?_, fun hn => ?_, fun hn => ?_⟩ <;> rw [hn]
    · rfl
    · rfl
    · rw [sysReg, hp]
      rfl
    · rfl
    · exact sysReg_exception
    · rfl
    · rfl
  · obtain ⟨hw, hop⟩ := onlySca_of_wordOps hops
    obtain ⟨t, he, hdone⟩ := exec_swrite_writes (c := .swrite k w) rfl hs hi hw hop
    refine ⟨(sysRegs_of_issues hi).2 hop, t, he, fun hn => ?_, fun hn => ?_⟩
    · rwa [swritten, if_pos hn] at hdone
    · rwa [swritten, if_neg (by rw [hn]; decide)] at hdone

end Sys2Proof.Machine
end

section
/-! SUPPORT. Branches (R197, R216): where a word with a branch goes on, the link it writes, and ERET. -/

namespace Sys2Proof.Machine

/-! ### Where a branch goes (R197) -/

theorem brTarget_eq (w : IWord) (pc : W64) : brTarget w pc = pc + BitVec.ofInt 64 (brOffset w) * 64 := by
  rw [brTarget, BitVec.ofInt_mul]
  rfl

/-- The low six bits of a register target are cleared. -/
theorem brReg_eq (a : W64) : brReg a = BitVec.ofNat 64 (a.toNat / 64 * 64) := by
  refine BitVec.eq_of_getLsbD_eq fun i hi => ?_
  have hlow : (0x3F#64).getLsbD i = decide (i < 6) := by
    rw [show (0x3F#64) = BitVec.ofNat 64 (2 ^ 6 - 1) from rfl, BitVec.getLsbD_ofNat, Nat.testBit_two_pow_sub_one, decide_eq_true hi,
      Bool.true_and]
  have hword : (a.toNat / 64 * 64).testBit i = (decide (6 ≤ i) && a.getLsbD i) := by
    rw [show a.toNat / 64 * 64 = 2 ^ 6 * (a.toNat / 2 ^ 6) from Nat.mul_comm _ _, Nat.testBit_two_pow_mul, Nat.testBit_div_two_pow]
    by_cases h : 6 ≤ i
    · simp [h, BitVec.getLsbD]
    · simp [h]
  rw [brReg, BitVec.getLsbD_and, BitVec.getLsbD_not, hlow, BitVec.getLsbD_ofNat, hword]
  by_cases h : 6 ≤ i
  · simp [h, hi]
  · simp [h, Nat.lt_of_not_le h]

/-- A row of the conditional branches: the command, its opcode, and when it is taken. -/
abbrev BranchRow := (CoreId → IWord → Instr) × Nat × (W64 → W64 → Bool)

/-- The row says of its opcode what the model says. -/
structure IsBranch (r : BranchRow) : Prop where
  word : ∀ k w, wordOf (r.1 k w) = some (k, withBr r.2.1 w)
  branches : 1 ≤ r.2.1 ∧ r.2.1 ≤ 7
  taken : ∀ v c, brOp v = r.2.1 → brTaken v c = if r.2.2 (c.sreg (brF v 5 5)) (c.sreg (brF v 10 5)) then some (brTarget v c.pc) else none

theorem isBranch_of_mem {row : BranchRow}
    (h : row ∈ ([(Instr.branchB, 0x01, fun _ _ => true), (.beq, 0x02, fun a b => a == b), (.bne, 0x03, fun a b => a != b),
      (.blt, 0x04, fun a b => a.slt b), (.bge, 0x05, fun a b => b.sle a), (.bltu, 0x06, fun a b => a.ult b),
      (.bgeu, 0x07, fun a b => b.ule a)] : List BranchRow)) : IsBranch row := by
  simp only [List.mem_cons, List.not_mem_nil, or_false] at h
  rcases h with rfl | rfl | rfl | rfl | rfl | rfl | rfl
  all_goals exact ⟨fun _ _ => rfl, by decide, fun v c hv => by rw [brTaken, hv]; rfl⟩

section
variable {k : CoreId} {v : IWord} {c : CoreSt}

theorem brNext_of_isBranch {row : BranchRow} (hrow : IsBranch row) (hv : brOp v = row.2.1) : brNext v c =
    if row.2.2 (c.sreg (brF v 5 5)) (c.sreg (brF v 10 5)) then c.pc + BitVec.ofInt 64 (brOffset v) * 64 else c.pc + 64 := by
  rw [brNext, hrow.taken v c hv]
  split
  · exact brTarget_eq v c.pc
  · rfl

/-- BL and BLIR write their link, other branches nothing. -/
theorem apply_brWrites : c.apply (brWrites v c) = if brOp v = 0x08 ∨ brOp v = 0x0A then c.setS (brF v 15 5) (c.pc + 64) else c := by
  unfold brWrites
  split <;> rfl

end

/-! ### The effect of a branch -/

section
variable {k : CoreId} {v : IWord} {entry : CoreSt} {s : State}

/-- What ERET leaves of the handler, before its core goes on; other branches leave the state as it is. -/
def handlerLeft (k : CoreId) (v : IWord) (s : State) : State := if brOp v = 0x0B then returnFromException k s else s

/-- The registers besides those of an issue that a branch writes. -/
def branchRegs (k : CoreId) (v : IWord) : List Nat := if brOp v = 0x0B then [Reg.coreExcStatus k] else []

theorem returnFromException_onlyCore (hs : s.wf = true) :
    OnlyCore k s (returnFromException k s) { core s k with pc := (core s k).epc } [Reg.coreExcStatus k] := by
  have hput : OnlyCore k s (s.putB (Reg.coreExcStatus k) 1 false) (core s k) [Reg.coreExcStatus k] :=
    ⟨rfl, fun _ _ => rfl, fun x _ hx => State.rd_putB_ne (State.wf_regs hs) (by simpa using hx),
      State.putB_within.same_of_not_mem (by decide)⟩
  exact hput.trans (setCore_onlyCore (State.putB_within.wf hs) k _)

theorem handlerLeft_onlyCore (hs : s.wf = true) : ∃ pc, OnlyCore k s (handlerLeft k v s) { core s k with pc := pc } (branchRegs k v) := by
  unfold handlerLeft branchRegs
  split
  · exact ⟨_, returnFromException_onlyCore hs⟩
  · exact ⟨_, .refl rfl⟩

theorem handlerLeft_wf (hs : s.wf = true) : (handlerLeft k v s).wf = true := by
  unfold handlerLeft
  split
  · exact returnFromException_within.wf hs
  · exact hs

/-- After the handler has been left, a branch sets the place of its core, and is traced and counted if it is taken. -/
theorem brEffect_afterHandler (hs : s.wf = true) : OnlyCore k (handlerLeft k v s) (brEffect k v entry s)
    { core (handlerLeft k v s) k with pc := brNext v entry } [] := by
  have hset := setCore_onlyCore (handlerLeft_wf (k := k) (v := v) hs) k { core (handlerLeft k v s) k with pc := brNext v entry }
  have hwf : (setCore (handlerLeft k v s) k { core (handlerLeft k v s) k with pc := brNext v entry }).wf = true :=
    setCore_within.wf (handlerLeft_wf hs)
  unfold brEffect
  cases brTaken v entry with
  | none => exact hset
  | some pc =>
    have hseen := OnlyCore.of_within (k := k) hwf (Within.step pmcCount_within (by decide) traceFiltered_within)
      ((traceFiltered_changesOnlyRegs k 0 0x2 (codeAddr pc.toNat 0) k _).trans (pmcCount_changesOnlyRegs 0x04 k 1 k _)) (by decide)
    rw [hset.1] at hseen
    exact hset.trans hseen

theorem brEffect_onlyCore (hs : s.wf = true) :
    OnlyCore k s (brEffect k v entry s) { core s k with pc := brNext v entry } (branchRegs k v) := by
  obtain ⟨pc, hleft⟩ := handlerLeft_onlyCore (k := k) (v := v) hs
  have hafter := brEffect_afterHandler (k := k) (v := v) (entry := entry) hs
  rw [hleft.1] at hafter
  exact (List.append_nil _).subst (motive := OnlyCore k s _ _) (hleft.trans hafter)

/-- The exception registers of a core are none that an issue changes. -/
theorem issueRegs_coreExcStatus (k : CoreId) : issueRegs k (Reg.coreExcStatus k) = false := by
  have := k.isLt
  refine issueRegs_outside ?_ ?_ ?_ ?_ <;> simp only [Reg.coreExcStatus, Reg.corePc, Reg.coreStatus] <;> omega

/-- ERET shows that its core has left the handler (R216). -/
theorem brEffect_eret_rd (hs : s.wf = true) (hop : brOp v = 0x0B) :
    (brEffect k v entry s).rd (Reg.coreExcStatus k) = s.rd (Reg.coreExcStatus k) &&& ~~~2#32 := by
  obtain ⟨-, -, hregs, -⟩ := brEffect_afterHandler (k := k) (v := v) (entry := entry) hs
  have hput (x : W32) : putWord x 1 1 0 = x &&& ~~~2#32 := by simp [putWord]
  rw [hregs _ (issueRegs_coreExcStatus k) List.not_mem_nil, handlerLeft, if_pos hop, ← hput]
  exact State.rd_wr_same (State.wf_regs hs)

/-! ### The end of a word with a branch -/

/-- The word is counted, and its core is not blocked. -/
def wordCounted (k : CoreId) (s : State) : State := pmcCount 0x02 k 1 (s.putB (Reg.coreStatus k) 6 false)

theorem wordCounted_within : Within 8 s (wordCounted k s) := Within.step pmcCount_within (by decide) State.putB_within

theorem wordCounted_changesOnlyRegs : ChangesOnlyRegs (issueRegs k) s (wordCounted k s) :=
  (putB_changesOnlyRegs (issueRegs_coreStatus k)).trans (pmcCount_changesOnlyRegs _ _ _ _ _)

theorem wordCounted_onlyCore (hs : s.wf = true) : OnlyCore k s (wordCounted k s) (core s k) [] :=
  .of_within hs wordCounted_within wordCounted_changesOnlyRegs (by decide)

theorem wordCounted_blocked (hs : s.wf = true) : (wordCounted k s).bit (Reg.coreStatus k) 6 = false := by
  have hlow : isTraceReg (Reg.coreStatus k) = false := by
    have := k.isLt
    simp only [isTraceReg, Reg.coreStatus, decide_eq_false_iff_not]
    omega
  rw [wordCounted, (pmcCount_isTraceReg _ _ _ _).bit (regsOk_putB (State.wf_regs hs)) hlow, State.bit_putB_same (State.wf_regs hs) (by decide)]

/-- A core that its word's branch has set is complete. -/
theorem wordCounted_wordDone {u : State} {c : CoreSt} {l : List Nat} {pc : W64} (hu : u.wf = true) (h : OnlyCore k s u c l)
    (hpc : pc = (core s k).pc) : WordDone k s (wordDone k pc none (wordCounted k u)) c l := by
  have hcounted := wordCounted_onlyCore (k := k) hu
  rw [h.1] at hcounted
  exact wordDone_completes (wordCounted_within.wf hu) (wordCounted_blocked hu)
    ((List.append_nil l).subst (motive := OnlyCore k s _ c) (h.trans hcounted)) hpc

/-- The state of a word once its branch has had its effect on the registers and on its core. -/
def branched (k : CoreId) (v : IWord) (s : State) : State :=
  let c := core s k
  brEffect k v c (setCore (syncDue k s) k (c.apply (brWrites v c)))

/-- The branch field holds an operation that does not wait: it is neither GBAR nor SLEEP. -/
def NeverWaits (v : IWord) : Prop := brOp v ≠ 0x10 ∧ brOp v ≠ 0x11

theorem branched_wf (hs : s.wf = true) : (branched k v s).wf = true := brEffect_within.wf (setCore_within.wf (syncDue_within.wf hs))

theorem branched_onlyCore (hs : s.wf = true) : OnlyCore k s (branched k v s)
    { (core s k).apply (brWrites v (core s k)) with pc := brNext v (core s k) } (branchRegs k v) := by
  have he : (syncDue k s).wf = true := syncDue_within.wf hs
  have hset := (syncDue_onlyCore hs k).trans (setCore_onlyCore he k ((core s k).apply (brWrites v (core s k))))
  have heffect := brEffect_onlyCore (k := k) (v := v) (entry := core s k) (setCore_within.wf he :
    (setCore (syncDue k s) k ((core s k).apply (brWrites v (core s k)))).wf = true)
  rw [hset.1] at heffect
  exact hset.trans heffect

theorem exec_branches {c : Instr} (hc : wordOf c = some (k, v)) (hs : s.wf = true) (hi : issues s k v = true) (hw : OnlyBr v)
    (hb : NeverWaits v) : exec c s = .next (wordDone k (core s k).pc none (wordCounted k (branched k v s))) := by
  obtain ⟨hgbar, hsleep⟩ := hb
  have hwait := wait_of_mayIssue (mayIssue_of_issues hi)
  have hentry : entryState k v s = syncDue k s := by rw [entryState, arrived_of_noAccess (by rw [hw.adr]; rfl)]
  have hun : unwait k (syncDue k s) = syncDue k s := unwait_of_none (by rw [syncDue_core, hwait])
  have hend {t : State} (ht : (core t k).wait = .none) : endWord k v (core s k).pc none t = wordDone k (core s k).pc none t := by
    simp [endWord, ht, hgbar, hsleep]
  refine exec_word_next hc (kept_of_issues hi) ((issueWord_of_issues hi).trans ?_)
  rw [hentry, wordEffect_onlyBr hw, syncDue_core, finishWord, hun, ← hend (t := wordCounted k (branched k v s))]
  · rw [syncDue_core]
    rfl
  · rw [(wordCounted_onlyCore (branched_wf hs)).1, (branched_onlyCore hs).1]
    exact ((core s k).apply_wait _).trans hwait

/-- A word with a branch writes its link, and its core goes on where the branch says (R197). -/
theorem exec_branches_wordDone {c : Instr} (hc : wordOf c = some (k, v)) (hs : s.wf = true) (hi : issues s k v = true) (hw : OnlyBr v)
    (hb : NeverWaits v) : ∃ t, exec c s = .next t ∧
      WordDone k s t { (core s k).apply (brWrites v (core s k)) with pc := brNext v (core s k) } (branchRegs k v) ∧
      (brOp v = 0x0B → t.rd (Reg.coreExcStatus k) = s.rd (Reg.coreExcStatus k) &&& ~~~2#32) := by
  refine ⟨_, exec_branches hc hs hi hw hb, wordCounted_wordDone (branched_wf hs) (branched_onlyCore hs) rfl, fun hop => ?_⟩
  have he : (syncDue k s).wf = true := syncDue_within.wf hs
  have hrest : ChangesOnlyRegs (issueRegs k) (branched k v s) (wordDone k (core s k).pc none (wordCounted k (branched k v s))) :=
    wordCounted_changesOnlyRegs.trans (wrQ_two_changesOnlyRegs (issueRegs_corePc k) (issueRegs_corePc_high k))
  have hsync : (syncDue k s).rd (Reg.coreExcStatus k) = s.rd (Reg.coreExcStatus k) :=
    (syncDue_changesOnlyRegs k s (State.wf_regs hs)).2 _ (issueRegs_coreExcStatus k)
  calc _ = (branched k v s).rd (Reg.coreExcStatus k) := (hrest (State.wf_regs (branched_wf hs))).2 _ (issueRegs_coreExcStatus k)
    _ = (syncDue k s).rd (Reg.coreExcStatus k) &&& ~~~2#32 := brEffect_eret_rd (setCore_within.wf he) hop
    _ = _ := by rw [hsync]

/-- A word with an ERET issues in a handler only (R212, R216). -/
theorem inHandler_of_issues (hi : issues s k v = true) (hop : brOp v = 0x0B) : s.bit (Reg.coreExcStatus k) 1 = true := by
  have h := (legal_of_illegalField (illegalField_of_issues hi)).2
  simp only [brIllegal, hop, Bool.or_eq_false_iff] at h
  simpa using h.2

theorem exec_eret_returns {w : IWord} (hs : s.wf = true) (hv : v = withBr 0x0B w) (hi : issues s k v = true)
    (hops : wordOps v = [0, 0, 0, 0, 0, 0x0B]) : ∃ t, exec (.eret k w) s = .next t ∧
      WordDone k s t { core s k with pc := (core s k).epc } [Reg.coreExcStatus k] ∧
      t.rd (Reg.coreExcStatus k) = s.rd (Reg.coreExcStatus k) &&& ~~~2#32 := by
  obtain ⟨hw, hop⟩ := onlyBr_of_wordOps hops
  have hnext : brNext v (core s k) = (core s k).epc := by
    rw [brNext, brTaken, hop]
    rfl
  obtain ⟨t, he, hdone, hrd⟩ := exec_branches_wordDone (c := .eret k w) (by rw [hv]; rfl) hs hi hw ⟨by rw [hop]; decide, by rw [hop]; decide⟩
  rw [apply_brWrites, hnext, branchRegs, if_pos hop, hop, if_neg (by decide)] at hdone
  exact ⟨t, he, hdone, hrd hop⟩

end

/-- Settles O31: a word with a branch in each case of where it goes and of what it links. -/
theorem branches : Obligations.Branches := by
  intro k w s hs
  refine ⟨fun row hrow => ?_, fun hi hops => ?_, fun hi hops => ?_, fun hi hops => ?_, fun hi hops => ?_⟩
  · have hrow := isBranch_of_mem hrow
    obtain ⟨hlo, hhi⟩ := hrow.branches
    intro v c hi hops p
    obtain ⟨hw, hop⟩ := onlyBr_of_wordOps hops
    have hne (n : Nat) (hn : 7 < n) : brOp v ≠ n := by omega
    obtain ⟨t, he, hdone, -⟩ := exec_branches_wordDone (hrow.word k w) hs hi hw ⟨hne _ (by decide), hne _ (by decide)⟩
    rw [apply_brWrites, brNext_of_isBranch hrow hop, branchRegs, if_neg (hne _ (by decide)),
      if_neg (not_or.mpr ⟨hne _ (by decide), hne _ (by decide)⟩)] at hdone
    exact ⟨t, he, hdone⟩
  · obtain ⟨hw, hop⟩ := onlyBr_of_wordOps hops
    obtain ⟨t, he, hdone, -⟩ := exec_branches_wordDone (c := .bl k w) rfl hs hi hw ⟨by rw [hop]; decide, by rw [hop]; decide⟩
    rw [apply_brWrites, branchRegs, hop, if_pos (by decide), if_neg (by decide), brNext, brTaken, hop] at hdone
    exact ⟨t, he, brTarget_eq _ _ ▸ hdone⟩
  · obtain ⟨hw, hop⟩ := onlyBr_of_wordOps hops
    obtain ⟨t, he, hdone, -⟩ := exec_branches_wordDone (c := .bir k w) rfl hs hi hw ⟨by rw [hop]; decide, by rw [hop]; decide⟩
    rw [apply_brWrites, branchRegs, hop, if_neg (by decide), if_neg (by decide), brNext, brTaken, hop] at hdone
    exact ⟨t, he, brReg_eq _ ▸ hdone⟩
  · obtain ⟨hw, hop⟩ := onlyBr_of_wordOps hops
    obtain ⟨t, he, hdone, -⟩ := exec_branches_wordDone (c := .blir k w) rfl hs hi hw ⟨by rw [hop]; decide, by rw [hop]; decide⟩
    rw [apply_brWrites, branchRegs, hop, if_pos (by decide), if_neg (by decide), brNext, brTaken, hop] at hdone
    exact ⟨t, he, brReg_eq _ ▸ hdone⟩
  · obtain ⟨-, hop⟩ := onlyBr_of_wordOps hops
    exact ⟨inHandler_of_issues hi hop, exec_eret_returns hs rfl hi hops⟩

end Sys2Proof.Machine
end

section
/-! SUPPORT. Exceptions (R215 to R217): what an exception shows of itself, and how its core goes on or stops. -/

namespace Sys2Proof.Machine

/-! ### An exception in three parts: it is noted, and the core goes on at its handler or stops -/

/-- The registers that an exception of core k may write, besides the pending bit of its vector. -/
def excRegs (k x : Nat) : Bool := decide (Reg.coreExcStatus k ≤ x ∧ x < Reg.coreExcHandler k) || x == Reg.traceStatus

/-- The address that an exception records: a free one where its cause has none (log entry 12). -/
def excAddr (e : Exc) (s : State) : W64 := e.addr.getD (freeQ s)

/-- The state once that address has been taken. -/
def excStart (e : Exc) (s : State) : State := if e.addr.isNone then s.tickFree.tickFree else s

section
variable {k : CoreId} {e : Exc} {s : State}

theorem excStart_within : Within 67108864 s (excStart e s) :=
  .ite (.step State.tickFree_within (by decide) State.tickFree_within) (.refl _ _)

theorem excStart_regs : (excStart e s).regs = s.regs := excStart_within.regs (by decide)

/-- The state once the exception is noted. -/
def excRecorded (k : CoreId) (e : Exc) (s : State) : State := excNoted k e (excAddr e s) (excStart e s)

theorem takeException_cases : takeException k e s =
    if (excRecorded k e s).bit (Reg.coreExcCfg k) 0 && !(excStart e s).bit (Reg.coreExcStatus k) 1 then
      excHandled k e (excAddr e s) (excRecorded k e s)
    else excStopped k e (excAddr e s) ((excStart e s).bit (Reg.coreExcStatus k) 1) (excRecorded k e s) := rfl

/-! ### What is noted -/

/-- What the exception registers of core k show of an exception taken in s. -/
structure ExcShown (k : CoreId) (e : Exc) (ea : W64) (s t : State) : Prop where
  cause : t.fld (Reg.coreExcStatus k) 3 4 = e.cause
  count : t.fld (Reg.coreExcStatus k) 16 16 = min (s.fld (Reg.coreExcStatus k) 16 16 + 1) 65535
  pc : t.rdQ (Reg.coreExcPc k) 2 = e.epc.toNat
  addr : t.rdQ (Reg.coreExcAddr k) 2 = ea.toNat
  info : t.rd (Reg.coreExcInfo k) = BitVec.ofNat 32 (e.field + 8 * e.queue + 2 ^ 16 * e.code)

theorem State.rdQ_two_of_keepsFld {x : Nat} {t u : State} (w : RegsOk t) (h : KeepsFld x 0 32 t u) (h4 : KeepsFld (x + 4) 0 32 t u) :
    u.rdQ x 2 = t.rdQ x 2 := State.rdQ_two_of_rd (h.rd_eq w) (h4.rd_eq w)

/-- What the exception registers show stays where nothing of it is written. -/
theorem ExcShown.keeps {ea : W64} {t u : State} (h : ExcShown k e ea s t) (w : RegsOk t)
    (hk : ∀ x lo n, x < 0x2700000 → (x = Reg.coreExcStatus k → 3 ≤ lo) → KeepsFld x lo n t u) : ExcShown k e ea s u := by
  have hlt := k.isLt
  have hfar {x : Nat} (hlo : Reg.coreExcPc k ≤ x) (hhi : x < Reg.coreExcHandler k) : KeepsFld x 0 32 t u := by
    refine hk x 0 32 ?_ fun hx => ?_ <;> simp only [Reg.coreExcPc, Reg.coreExcHandler, Reg.coreExcStatus] at * <;> omega
  have hstatus (lo n : Nat) (hlo : 3 ≤ lo) : KeepsFld (Reg.coreExcStatus k) lo n t u :=
    hk _ lo n (by simp only [Reg.coreExcStatus]; omega) fun _ => hlo
  refine ⟨(hstatus 3 4 (by decide) w).2.trans h.cause, (hstatus 16 16 (by decide) w).2.trans h.count, ?_, ?_, ?_⟩
  · rw [State.rdQ_two_of_keepsFld w (hfar ?_ ?_) (hfar ?_ ?_), h.pc] <;> simp only [Reg.coreExcPc, Reg.coreExcHandler] <;> omega
  · rw [State.rdQ_two_of_keepsFld w (hfar ?_ ?_) (hfar ?_ ?_), h.addr] <;>
      simp only [Reg.coreExcPc, Reg.coreExcAddr, Reg.coreExcHandler] <;> omega
  · rw [(hfar ?_ ?_).rd_eq w, h.info] <;> simp only [Reg.coreExcPc, Reg.coreExcInfo, Reg.coreExcHandler] <;> omega

/-- The cause is shown and the exception is counted. -/
def excCounted (k : CoreId) (e : Exc) (s : State) : State :=
  (s.putF (Reg.coreExcStatus k) 3 4 e.cause).satF (Reg.coreExcStatus k) 16 16

/-- Its pc is shown too. -/
def excPcShown (k : CoreId) (e : Exc) (s : State) : State := (excCounted k e s).wrQ (Reg.coreExcPc k) 2 e.epc.toNat

/-- Its address is shown too. -/
def excAddrShown (k : CoreId) (e : Exc) (ea : W64) (s : State) : State := (excPcShown k e s).wrQ (Reg.coreExcAddr k) 2 ea.toNat

/-- Its information is shown too. -/
def excInfoShown (k : CoreId) (e : Exc) (ea : W64) (s : State) : State :=
  (excAddrShown k e ea s).wrN (Reg.coreExcInfo k) (e.field + 8 * e.queue + 2 ^ 16 * e.code)

theorem excNoted_eq (ea : W64) : excNoted k e ea s = traceCore k 0x6 (codeAddr e.epc.toNat e.cause) (excInfoShown k e ea s) := rfl

section
variable {ea : W64} {x lo n : Nat}

theorem excNoted_afterInfo (hx : x ≠ Reg.traceStatus) : KeepsFld x lo n (excInfoShown k e ea s) (excNoted k e ea s) :=
  traceCore_keepsFld hx _ _ _ _

theorem excNoted_afterAddr (hx : x < Reg.coreExcInfo k) : KeepsFld x lo n (excAddrShown k e ea s) (excNoted k e ea s) := by
  have := k.isLt
  refine KeepsFld.trans (wr_keepsFld hx.ne) (excNoted_afterInfo ?_)
  simp only [Reg.coreExcInfo, Reg.traceStatus] at *
  omega

theorem excNoted_afterPc (hx : x < Reg.coreExcAddr k) : KeepsFld x lo n (excPcShown k e s) (excNoted k e ea s) := by
  refine KeepsFld.trans (wrQ_two_keepsFld (by omega) (by omega)) (excNoted_afterAddr ?_)
  simp only [Reg.coreExcInfo, Reg.coreExcAddr] at *
  omega

theorem excNoted_afterCount : KeepsFld (Reg.coreExcStatus k) lo n (excCounted k e s) (excNoted k e ea s) := by
  refine KeepsFld.trans (wrQ_two_keepsFld ?_ ?_) (excNoted_afterPc ?_) <;> simp only [Reg.coreExcStatus, Reg.coreExcPc, Reg.coreExcAddr] <;> omega

end

theorem excNoted_shown (ea : W64) (w : RegsOk s) (hc : e.cause < 16) : ExcShown k e ea s (excNoted k e ea s) := by
  have hlt := k.isLt
  have wCounted : RegsOk (excCounted k e s) := regsOk_putF (regsOk_putF w)
  have wPc : RegsOk (excPcShown k e s) := regsOk_wr (regsOk_wr wCounted)
  have wAddr : RegsOk (excAddrShown k e ea s) := regsOk_wr (regsOk_wr wPc)
  refine ⟨?_, ?_, ?_, ?_, ?_⟩
  · rw [(excNoted_afterCount wCounted).2]
    exact (State.fld_putF_ne (regsOk_putF w) (.inl (by decide))).trans ((State.fld_putF_same w (by decide)).trans (Nat.mod_eq_of_lt hc))
  · rw [(excNoted_afterCount wCounted).2]
    refine (State.fld_putF_same (regsOk_putF w) (by decide)).trans ?_
    rw [State.fld_putF_ne w (.inr (by decide))]
    omega
  · rw [State.rdQ_two_of_keepsFld wPc (excNoted_afterPc ?_) (excNoted_afterPc ?_)]
    · exact (State.rdQ_wrQ_two wCounted _ _).trans (Nat.mod_eq_of_lt e.epc.isLt)
    all_goals simp only [Reg.coreExcPc, Reg.coreExcAddr]; omega
  · rw [State.rdQ_two_of_keepsFld wAddr (excNoted_afterAddr ?_) (excNoted_afterAddr ?_)]
    · exact (State.rdQ_wrQ_two wPc _ _).trans (Nat.mod_eq_of_lt ea.isLt)
    all_goals simp only [Reg.coreExcAddr, Reg.coreExcInfo]; omega
  · rw [(excNoted_afterInfo ?_).rd_eq (regsOk_wr wAddr)]
    · exact State.rd_wr_same wAddr
    · simp only [Reg.coreExcInfo, Reg.traceStatus]
      omega

/-- The bits of CORE_EXC_STATUS below its cause stay. -/
theorem excNoted_bit (ea : W64) (w : RegsOk s) {i : Nat} (hi : i < 3) :
    (excNoted k e ea s).bit (Reg.coreExcStatus k) i = s.bit (Reg.coreExcStatus k) i := by
  have hcounted : KeepsFld (Reg.coreExcStatus k) i 1 s (excCounted k e s) :=
    KeepsFld.trans (putF_keepsFld fun _ => .inl (by omega)) (putF_keepsFld fun _ => .inl (by omega))
  exact (hcounted.trans excNoted_afterCount).bit_eq w

/-- The registers that an exception may write. -/
theorem excRegs_of_range {x : Nat} (hlo : Reg.coreExcStatus k ≤ x) (hhi : x < Reg.coreExcHandler k) : excRegs k x = true := by
  rw [excRegs, decide_eq_true ⟨hlo, hhi⟩, Bool.true_or]

theorem excRegs_coreExcStatus : excRegs k (Reg.coreExcStatus k) = true :=
  excRegs_of_range le_rfl (by simp only [Reg.coreExcStatus, Reg.coreExcHandler]; omega)

theorem traceCore_excRegs (type payload : Nat) : ChangesOnlyRegs (excRegs k) s (traceCore k type payload s) := fun w =>
  ⟨(traceCore_changesOnlyRegs k type payload k s w).1, fun x hx => by
    have hne : x ≠ Reg.traceStatus := fun h => by simp [excRegs, h] at hx
    exact (traceCore_keepsFld hne k type payload s).rd_eq w⟩

theorem excNoted_excRegs (ea : W64) : ChangesOnlyRegs (excRegs k) s (excNoted k e ea s) := by
  have hcounted : ChangesOnlyRegs (excRegs k) s (excCounted k e s) :=
    (wr_changesOnlyRegs excRegs_coreExcStatus).trans (wr_changesOnlyRegs excRegs_coreExcStatus)
  have hpc : ChangesOnlyRegs (excRegs k) (excCounted k e s) (excPcShown k e s) := by
    refine wrQ_two_changesOnlyRegs (excRegs_of_range ?_ ?_) (excRegs_of_range ?_ ?_) <;>
      simp only [Reg.coreExcStatus, Reg.coreExcPc, Reg.coreExcHandler] <;> omega
  have haddr : ChangesOnlyRegs (excRegs k) (excPcShown k e s) (excAddrShown k e ea s) := by
    refine wrQ_two_changesOnlyRegs (excRegs_of_range ?_ ?_) (excRegs_of_range ?_ ?_) <;>
      simp only [Reg.coreExcStatus, Reg.coreExcAddr, Reg.coreExcHandler] <;> omega
  have hinfo : ChangesOnlyRegs (excRegs k) (excAddrShown k e ea s) (excInfoShown k e ea s) := by
    refine wr_changesOnlyRegs (excRegs_of_range ?_ ?_) <;> simp only [Reg.coreExcStatus, Reg.coreExcInfo, Reg.coreExcHandler] <;> omega
  rw [excNoted_eq]
  exact (((hcounted.trans hpc).trans haddr).trans hinfo).trans (traceCore_excRegs _ _)

/-! ### The core goes on at its handler (R216) -/

theorem excHandled_keeps (ea : W64) {x lo n : Nat} (hx : x = Reg.coreExcStatus k → 3 ≤ lo) :
    KeepsFld x lo n s (excHandled k e ea s) :=
  KeepsFld.trans (putF_keepsFld fun h => .inr (by have := hx h; omega)) (setCore_keepsFld _ _)

theorem excHandled_core (ea : W64) (hs : s.wf = true) : core (excHandled k e ea s) k =
    { core s k with epc := e.epc, eaddr := ea, pc := BitVec.ofNat 64 (s.rdQ (Reg.coreExcHandler k) 2) } := by
  have hhandler : (s.putB (Reg.coreExcStatus k) 1 true).rdQ (Reg.coreExcHandler k) 2 = s.rdQ (Reg.coreExcHandler k) 2 := by
    refine State.rdQ_two_of_rd (State.rd_putB_ne (State.wf_regs hs) ?_) (State.rd_putB_ne (State.wf_regs hs) ?_) <;>
      simp only [Reg.coreExcHandler, Reg.coreExcStatus] <;> omega
  rw [excHandled, hhandler]
  exact core_setCore_same (State.putB_within.wf hs) k _

theorem excHandled_bits (ea : W64) (hs : s.wf = true) : (excHandled k e ea s).bit (Reg.coreExcStatus k) 1 = true ∧
    (excHandled k e ea s).bit (Reg.coreExcStatus k) 0 = s.bit (Reg.coreExcStatus k) 0 ∧
    (excHandled k e ea s).bit (Reg.coreExcStatus k) 2 = s.bit (Reg.coreExcStatus k) 2 :=
  have w := State.wf_regs hs
  ⟨State.bit_putB_same w (by decide), State.bit_putB_ne w (by decide), State.bit_putB_ne w (by decide)⟩

/-! ### The core stops (R217) -/

theorem raise_keepsLow {x lo n : Nat} (hx : x < 0x2700000) (v : Nat) : KeepsFld x lo n s (s.raise v) := by
  refine (raise_changesOnlyRegs v s).keepsFld ?_
  simp only [Reg.msixPba, beq_eq_false_iff_ne]
  omega

/-- Whether an interrupt is asked for, what a core that has stopped shows is what it shows before the interrupt. -/
theorem excStopped_afterHalt (ea : W64) (inH : Bool) {x lo n : Nat} (hx : x < 0x2700000) :
    KeepsFld x lo n (excHalted k e ea inH s) (excStopped k e ea inH s) :=
  .ite (raise_keepsLow hx _) (.of_regs rfl)

theorem excHalted_afterBits (ea : W64) (inH : Bool) {x lo n : Nat} (hx : x < 0x2700000) :
    KeepsFld x lo n (stopShown k inH s) (excHalted k e ea inH s) := by
  refine KeepsFld.trans (setCore_keepsFld k _) (traceCore_keepsFld ?_ _ _ _ _)
  simp only [Reg.traceStatus]
  omega

theorem stopShown_keeps (inH : Bool) {x lo n : Nat} (hx : x = Reg.coreExcStatus k → 3 ≤ lo) : KeepsFld x lo n s (stopShown k inH s) :=
  KeepsFld.trans (putF_keepsFld fun h => .inr (by have := hx h; omega)) (putF_keepsFld fun h => .inr (by have := hx h; omega))

theorem excStopped_keeps (ea : W64) (inH : Bool) {x lo n : Nat} (hlow : x < 0x2700000) (hx : x = Reg.coreExcStatus k → 3 ≤ lo) :
    KeepsFld x lo n s (excStopped k e ea inH s) :=
  ((stopShown_keeps inH hx).trans (excHalted_afterBits ea inH hlow)).trans (excStopped_afterHalt ea inH hlow)

theorem stopShown_bits (w : RegsOk s) (inH : Bool) : (stopShown k inH s).bit (Reg.coreExcStatus k) 0 = true ∧
    (stopShown k inH s).bit (Reg.coreExcStatus k) 1 = s.bit (Reg.coreExcStatus k) 1 ∧
    (stopShown k inH s).bit (Reg.coreExcStatus k) 2 = (inH || s.bit (Reg.coreExcStatus k) 2) := by
  have w1 : RegsOk (s.putB (Reg.coreExcStatus k) 0 true) := regsOk_putB w
  refine ⟨?_, ?_, State.bit_putB_same w1 (by decide)⟩
  · exact (State.bit_putB_ne w1 (by decide)).trans (State.bit_putB_same w (by decide))
  · exact (State.bit_putB_ne w1 (by decide)).trans (State.bit_putB_ne w (by decide))

theorem excStopped_bits (ea : W64) (w : RegsOk s) (inH : Bool) : (excStopped k e ea inH s).bit (Reg.coreExcStatus k) 0 = true ∧
    (excStopped k e ea inH s).bit (Reg.coreExcStatus k) 1 = s.bit (Reg.coreExcStatus k) 1 ∧
    (excStopped k e ea inH s).bit (Reg.coreExcStatus k) 2 = (inH || s.bit (Reg.coreExcStatus k) 2) := by
  have hlow : Reg.coreExcStatus k < 0x2700000 := by have := k.isLt; simp only [Reg.coreExcStatus]; omega
  have w1 : RegsOk (stopShown k inH s) := regsOk_putB (regsOk_putB w)
  have hkeep (i : Nat) : (excStopped k e ea inH s).bit (Reg.coreExcStatus k) i = (stopShown k inH s).bit (Reg.coreExcStatus k) i :=
    ((excHalted_afterBits ea inH hlow).trans (excStopped_afterHalt ea inH hlow)).bit_eq w1
  rw [hkeep, hkeep, hkeep]
  exact stopShown_bits w inH

theorem excHalted_core (ea : W64) (hs : s.wf = true) (inH : Bool) : core (excHalted k e ea inH s) k =
    { core s k with epc := e.epc, eaddr := ea } :=
  (core_of_cores (traceCore_within.cores (by decide)) k).trans (core_setCore_same ((stopShown_within inH).wf hs) k _)

theorem excStopped_core (ea : W64) (hs : s.wf = true) (inH : Bool) : core (excStopped k e ea inH s) k =
    { core s k with epc := e.epc, eaddr := ea } := by
  rw [← excHalted_core ea hs inH, excStopped]
  split
  · exact core_of_cores (State.raise_within.cores (by decide)) k
  · rfl

/-! ### Its interrupt (R217, R517) -/

/-- The message of a vector. -/
def msixMessage (s : State) (v : Nat) : Out :=
  .msix v (BitVec.ofNat 64 (s.rdQ (Reg.msixTable v) 2)) (s.rd (Reg.msixTable v + 8))

theorem raise_out {v : Nat} (h : s.msixHeld v = false) : (s.raise v).out = msixMessage s v :: s.out := by
  rw [State.raise, if_neg (by simp [h])]
  rfl

section
variable {t : State} (hregs : ChangesOnlyRegs (excRegs k) s t) (w : RegsOk s)
include hregs w

theorem rd_of_excRegs {x : Nat} (hx : x < Reg.coreExcStatus k ∨ Reg.coreExcHandler k ≤ x) (ht : x ≠ Reg.traceStatus) : t.rd x = s.rd x := by
  refine (hregs w).2 x ?_
  simp only [excRegs, Bool.or_eq_false_iff, decide_eq_false_iff_not, beq_eq_false_iff_ne]
  exact ⟨by omega, ht⟩

/-- An exception writes neither its configuration nor a vector. -/
theorem excCfg_of_excRegs : t.rd (Reg.coreExcCfg k) = s.rd (Reg.coreExcCfg k) := by
  have := k.isLt
  refine rd_of_excRegs hregs w (.inl ?_) ?_ <;> simp only [Reg.coreExcCfg, Reg.coreExcStatus, Reg.traceStatus] <;> omega

theorem msixTable_of_excRegs {v x : Nat} (hx : Reg.msixTable v ≤ x) : t.rd x = s.rd x := by
  have := k.isLt
  refine rd_of_excRegs hregs w (.inr ?_) ?_ <;> simp only [Reg.coreExcHandler, Reg.msixTable, Reg.traceStatus] at * <;> omega

theorem msixMessage_of_excRegs (v : Nat) : msixMessage t v = msixMessage s v := by
  have hlow : t.rdQ (Reg.msixTable v) 2 = s.rdQ (Reg.msixTable v) 2 :=
    State.rdQ_two_of_rd (msixTable_of_excRegs hregs w le_rfl) (msixTable_of_excRegs hregs w (Nat.le_add_right _ _))
  rw [msixMessage, hlow, msixTable_of_excRegs hregs w (Nat.le_add_right _ _), msixMessage]

theorem msixHeld_of_excRegs (hhost : t.host = s.host) (v : Nat) : t.msixHeld v = s.msixHeld v := by
  have hmask : t.bit (Reg.msixTable v + 12) 0 = s.bit (Reg.msixTable v + 12) 0 :=
    State.bit_of_rd (msixTable_of_excRegs hregs w (Nat.le_add_right _ _)) 0
  simp only [State.msixHeld, State.msixMasked, hmask, hhost]

end

theorem excHalted_excRegs (ea : W64) (inH : Bool) : ChangesOnlyRegs (excRegs k) s (excHalted k e ea inH s) := by
  refine ChangesOnlyRegs.trans (t := stopShown k inH s) ?_ (ChangesOnlyRegs.trans (.of_regs (by rfl)) (traceCore_excRegs _ _))
  exact (putB_changesOnlyRegs excRegs_coreExcStatus).trans (putB_changesOnlyRegs excRegs_coreExcStatus)

theorem excHalted_within (ea : W64) (inH : Bool) : Within 2105352 s (excHalted k e ea inH s) :=
  Within.step traceCore_within (by decide) (Within.step setCore_within (by decide) (Within.step (stopShown_within inH) (by decide) (.refl _ _)))

/-- A core that stops sends its message where one is asked for and may be sent. -/
theorem excStopped_out (ea : W64) (w : RegsOk s) (inH : Bool) (hask : s.bit (Reg.coreExcCfg k) 2 = true)
    (hgo : s.msixHeld (s.fld (Reg.coreExcCfg k) 8 8) = false) :
    (excStopped k e ea inH s).out = msixMessage s (s.fld (Reg.coreExcCfg k) 8 8) :: s.out := by
  have hregs := excHalted_excRegs (k := k) (e := e) (s := s) ea inH
  have hin := excHalted_within (k := k) (e := e) (s := s) ea inH
  have hcfg := excCfg_of_excRegs hregs w
  have hheld := msixHeld_of_excRegs hregs w (hin.host (by decide)) (s.fld (Reg.coreExcCfg k) 8 8)
  have hfld : (excHalted k e ea inH s).fld (Reg.coreExcCfg k) 8 8 = s.fld (Reg.coreExcCfg k) 8 8 := State.fld_of_rd hcfg 8 8
  rw [excStopped, State.bit_of_rd hcfg, hask]
  rw [if_pos rfl, hfld, raise_out (hheld.trans hgo), msixMessage_of_excRegs hregs w, hin.out (by decide)]

/-! ### Taking an exception -/

theorem excRecorded_within : Within 69206024 s (excRecorded k e s) :=
  Within.step (excNoted_within e _) (by decide) (Within.step excStart_within (by decide) (.refl _ _))

theorem excRecorded_excRegs : ChangesOnlyRegs (excRegs k) s (excRecorded k e s) :=
  (ChangesOnlyRegs.of_regs excStart_regs).trans (excNoted_excRegs _)

theorem excRecorded_bit (w : RegsOk s) {i : Nat} (hi : i < 3) :
    (excRecorded k e s).bit (Reg.coreExcStatus k) i = s.bit (Reg.coreExcStatus k) i := by
  have w0 : RegsOk (excStart e s) := by rwa [RegsOk, excStart_regs]
  exact (excNoted_bit _ w0 hi).trans (State.bit_of_rd (State.rd_of_regs excStart_regs _) i)

theorem excRecorded_shown (w : RegsOk s) (hc : e.cause < 16) : ExcShown k e (excAddr e s) s (excRecorded k e s) := by
  have w0 : RegsOk (excStart e s) := by rwa [RegsOk, excStart_regs]
  obtain ⟨hcause, hcount, hpc, haddr, hinfo⟩ := excNoted_shown (k := k) (excAddr e s) w0 hc
  exact ⟨hcause, hcount.trans (by rw [State.fld_of_rd (State.rd_of_regs excStart_regs _)]), hpc, haddr, hinfo⟩

theorem takeException_goesOn (w : RegsOk s) (hen : s.bit (Reg.coreExcCfg k) 0 = true) (hin : s.bit (Reg.coreExcStatus k) 1 = false) :
    takeException k e s = excHandled k e (excAddr e s) (excRecorded k e s) := by
  have hcfg : (excRecorded k e s).bit (Reg.coreExcCfg k) 0 = true := (State.bit_of_rd (excCfg_of_excRegs excRecorded_excRegs w) 0).trans hen
  have hst : (excStart e s).bit (Reg.coreExcStatus k) 1 = false := (State.bit_of_rd (State.rd_of_regs excStart_regs _) 1).trans hin
  rw [takeException_cases, hcfg, hst]
  rfl

theorem takeException_stops (w : RegsOk s) (h : s.bit (Reg.coreExcCfg k) 0 = false ∨ s.bit (Reg.coreExcStatus k) 1 = true) :
    takeException k e s = excStopped k e (excAddr e s) (s.bit (Reg.coreExcStatus k) 1) (excRecorded k e s) := by
  have hcfg : (excRecorded k e s).bit (Reg.coreExcCfg k) 0 = s.bit (Reg.coreExcCfg k) 0 :=
    State.bit_of_rd (excCfg_of_excRegs excRecorded_excRegs w) 0
  have hst : (excStart e s).bit (Reg.coreExcStatus k) 1 = s.bit (Reg.coreExcStatus k) 1 :=
    State.bit_of_rd (State.rd_of_regs excStart_regs _) 1
  rw [takeException_cases, hcfg, hst, if_neg]
  rcases h with h | h <;> simp [h]

/-- The exception registers show an exception that has been taken. -/
theorem takeException_shown (w : RegsOk s) (hc : e.cause < 16) : ExcShown k e (excAddr e s) s (takeException k e s) := by
  have hshown := excRecorded_shown (k := k) w hc
  have wn : RegsOk (excRecorded k e s) := (excRecorded_excRegs w).1
  rw [takeException_cases]
  split
  · exact hshown.keeps wn fun x lo n _ hx => excHandled_keeps _ hx
  · exact hshown.keeps wn fun x lo n hlow hx => excStopped_keeps _ _ hlow hx

/-- The core of an exception goes on at its handler (R216). -/
theorem takeException_handled (hs : s.wf = true) (hen : s.bit (Reg.coreExcCfg k) 0 = true) (hin : s.bit (Reg.coreExcStatus k) 1 = false) :
    let t := takeException k e s
    core t k = { core s k with epc := e.epc, eaddr := excAddr e s, pc := BitVec.ofNat 64 (s.rdQ (Reg.coreExcHandler k) 2) } ∧
    t.bit (Reg.coreExcStatus k) 1 = true ∧ t.bit (Reg.coreExcStatus k) 0 = s.bit (Reg.coreExcStatus k) 0 ∧
    t.bit (Reg.coreExcStatus k) 2 = s.bit (Reg.coreExcStatus k) 2 := by
  have hlt := k.isLt
  have w := State.wf_regs hs
  have hwf : (excRecorded k e s).wf = true := excRecorded_within.wf hs
  have hcore : core (excRecorded k e s) k = core s k := core_of_cores (excRecorded_within.cores (by decide)) k
  have hreg {x : Nat} (hlo : Reg.coreExcHandler k ≤ x) (hhi : x < Reg.traceStatus) : (excRecorded k e s).rd x = s.rd x :=
    rd_of_excRegs excRecorded_excRegs w (.inr hlo) hhi.ne
  have hhandler : (excRecorded k e s).rdQ (Reg.coreExcHandler k) 2 = s.rdQ (Reg.coreExcHandler k) 2 := by
    refine State.rdQ_two_of_rd (hreg le_rfl ?_) (hreg (Nat.le_add_right _ _) ?_) <;> simp only [Reg.coreExcHandler, Reg.traceStatus] <;> omega
  have hon := excHandled_core (k := k) (e := e) (excAddr e s) hwf
  have hbits := excHandled_bits (k := k) (e := e) (excAddr e s) hwf
  rw [hcore, hhandler] at hon
  rw [excRecorded_bit w (by decide), excRecorded_bit w (by decide)] at hbits
  rw [takeException_goesOn w hen hin]
  exact ⟨hon, hbits⟩

/-- The core of an exception stops (R217). -/
theorem takeException_stopped (hs : s.wf = true) (h : s.bit (Reg.coreExcCfg k) 0 = false ∨ s.bit (Reg.coreExcStatus k) 1 = true) :
    let t := takeException k e s
    core t k = { core s k with epc := e.epc, eaddr := excAddr e s } ∧ t.bit (Reg.coreExcStatus k) 0 = true ∧
    t.bit (Reg.coreExcStatus k) 1 = s.bit (Reg.coreExcStatus k) 1 ∧
    t.bit (Reg.coreExcStatus k) 2 = (s.bit (Reg.coreExcStatus k) 1 || s.bit (Reg.coreExcStatus k) 2) := by
  have w := State.wf_regs hs
  have hwf : (excRecorded k e s).wf = true := excRecorded_within.wf hs
  have hcore : core (excRecorded k e s) k = core s k := core_of_cores (excRecorded_within.cores (by decide)) k
  have hstop := excStopped_core (k := k) (e := e) (excAddr e s) hwf (s.bit (Reg.coreExcStatus k) 1)
  have hbits := excStopped_bits (k := k) (e := e) (excAddr e s) (State.wf_regs hwf) (s.bit (Reg.coreExcStatus k) 1)
  rw [hcore] at hstop
  rw [excRecorded_bit w (by decide), excRecorded_bit w (by decide)] at hbits
  rw [takeException_stops w h]
  exact ⟨hstop, hbits⟩

/-- Its message is sent where one is asked for and may be sent. -/
theorem takeException_out (hs : s.wf = true) (h : s.bit (Reg.coreExcCfg k) 0 = false ∨ s.bit (Reg.coreExcStatus k) 1 = true)
    (hask : s.bit (Reg.coreExcCfg k) 2 = true) (hgo : s.msixHeld (s.fld (Reg.coreExcCfg k) 8 8) = false) :
    (takeException k e s).out = msixMessage s (s.fld (Reg.coreExcCfg k) 8 8) :: s.out := by
  have w := State.wf_regs hs
  have hregs := excRecorded_excRegs (k := k) (e := e) (s := s)
  have hin := excRecorded_within (k := k) (e := e) (s := s)
  have hcfg := excCfg_of_excRegs hregs w
  have hfld : (excRecorded k e s).fld (Reg.coreExcCfg k) 8 8 = s.fld (Reg.coreExcCfg k) 8 8 := State.fld_of_rd hcfg 8 8
  have hheld := msixHeld_of_excRegs hregs w (hin.host (by decide)) (s.fld (Reg.coreExcCfg k) 8 8)
  rw [takeException_stops w h, excStopped_out _ (State.wf_regs (hin.wf hs)) _ ((State.bit_of_rd hcfg 2).trans hask)
    (by rw [hfld, hheld, hgo]), hfld, msixMessage_of_excRegs hregs w, hin.out (by decide)]

/-! ### TRAP (R215) -/

/-- The state in which an exception of a word is taken. -/
def excEntry (k : CoreId) (s : State) : State := syncDue k (depart (.word k) s)

theorem excEntry_within : Within 2113544 s (excEntry k s) := Within.step syncDue_within (by decide) (Within.step depart_within (by decide) (.refl _ _))

/-- A word raises TRAP where it raises nothing of a lower cause. -/
theorem wordException_trap {v : IWord} (hop : brOp v = 0x12) (hf : illegalField v s k = none) (hm : misalignField v (core s k) = none) :
    wordException v s k = some ⟨5, 6, 0, brF v 21 16, (core s k).pc, none⟩ := by
  simp [wordException, hf, hm, hop]

theorem exec_raises {c : Instr} {v : IWord} (hc : wordOf c = some (k, v)) (hk : s.Kept) (hm : mayIssue s k = true)
    (ht : traceHeld s k = false) (hl : inLocal k (core s k).pc.toNat = true) (hr : wordReserved v = false)
    (he : wordException v s k = some e) (hq : e.cause < 5 ∨ queueRefuses k v s = false) (hg : e.cause = 1 ∨ gatherHeld v s k = false) :
    exec c s = .next (takeException k e (excEntry k s)) :=
  exec_word_next hc hk ((issueWord_of_mayIssue hm).trans (tryIssue_exception hm ht hl hr he hq hg))

end

/-- Settles O32: an exception is noted, and its core goes on at its handler or stops; TRAP raises one, ERET and SWRITE to EPC are words
that end as others do. -/
theorem exceptions : Obligations.Exceptions := by
  refine ⟨fun k e s hs hc => ?_, fun k w s hk hs => ?_, fun k w s hs => ⟨fun hi hops => ?_, fun hi hops hn => ?_⟩⟩
  · obtain ⟨hcause, hcount, hpc, haddr, hinfo⟩ := takeException_shown (k := k) (State.wf_regs hs) hc
    obtain ⟨-, hothers⟩ := takeException_otherCores (k := k) e hs
    refine ⟨hcause, hcount, hpc, hinfo, ⟨excAddr e s, fun a ha => by rw [excAddr, ha]; rfl, haddr, takeException_handled hs, fun hstop => ?_⟩,
      fun j hj => hothers j fun h => hj (Fin.ext h), takeException_within.same_of_not_mem (by decide)⟩
    obtain ⟨hcore, hstopped, hhandler, hdouble⟩ := takeException_stopped (k := k) (e := e) hs hstop
    exact ⟨hcore, hstopped, hhandler, hdouble, takeException_out hs hstop⟩
  · intro v hm ht hl hr hf hmis hq hg
    have hop : brOp v = 0x12 := brOp_withBr w (by decide)
    have hexec := exec_raises (c := .trap k w) rfl hk hm ht hl hr (wordException_trap hop hf hmis) (.inr hq) (.inr hg)
    obtain ⟨hcause, -, hpc, -, hinfo⟩ := takeException_shown (k := k) (e := ⟨5, 6, 0, brF v 21 16, (core s k).pc, none⟩)
      (State.wf_regs (excEntry_within (k := k).wf hs)) (show 5 < 16 by decide)
    exact ⟨_, hexec, hcause, hpc, hinfo, (takeException_within.mem (by decide)).trans (excEntry_within.mem (by decide))⟩
  · obtain ⟨t, he, hdone, hrd⟩ := exec_eret_returns hs rfl hi hops
    refine ⟨t, he, ?_, by rw [hdone.1.1]⟩
    rw [State.bit, hrd]
    exact (BitVec.getLsbD_and ..).trans (Bool.and_false _)
  · obtain ⟨hw, hop⟩ := onlySca_of_wordOps hops
    obtain ⟨t, he, hdone⟩ := exec_swrite_writes (c := .swrite k w) rfl hs hi hw hop
    refine ⟨t, he, ?_⟩
    rw [hdone.1.1, swritten, if_pos hn]

end Sys2Proof.Machine
end

section
/-! SUPPORT. The tile reads (R211, R238): TRD, TRDT, TPOP and TSTAT. -/

namespace Sys2Proof.Machine

theorem tqArr_lt (w : IWord) : tqArr w < 4 := fieldN_lt _ _ _

section
variable {k : CoreId} {v : IWord} {s : State}

/-! ### What the issue of a word leaves of the arrays -/

theorem rd_arrays_syncDue (hs : s.wf = true) {x : Nat} (hlo : Reg.arrayCfg0 k ≤ x) (hhi : x < Reg.arrayCfg0 k + 0x10000) :
    (syncDue k s).rd x = s.rd x := by
  have := k.isLt
  refine (syncDue_changesOnlyRegs k s (State.wf_regs hs)).2 x (issueRegs_outside ?_ ?_ ?_ ?_) <;>
    simp only [Reg.arrayCfg0, Reg.corePc, Reg.coreStatus] at * <;> omega

theorem arrs_syncDue : arrs (syncDue k s) k = arrs s k := congrArg CoreSt.arr (syncDue_core k)

theorem tqOf_syncDue (a : Nat) : tqOf (syncDue k s) k a = tqOf s k a := by rw [tqOf, arrs_syncDue, tqOf]

theorem presented_syncDue (hs : s.wf = true) {a : Nat} (ha : a < 4) (paired : Bool) : presented (syncDue k s) k a paired = presented s k a paired := by
  have hwidth : arrWidth (syncDue k s) k a = arrWidth s k a := by
    refine State.fld_of_rd (rd_arrays_syncDue hs ?_ ?_) 0 8 <;> simp only [Reg.arrayCfg0, Reg.arrayWidth0] <;> omega
  rw [presented, hwidth, presented]

theorem tileRead_syncDue (hs : s.wf = true) (c : CoreSt) (t : Tile) : tileRead v c (syncDue k s) k t = tileRead v c s k t := by
  rw [tileRead, presented_syncDue hs (tqArr_lt v), tileRead]

theorem tileOf_syncDue (hs : s.wf = true) {a : Nat} (ha : a < 4) : tileOf (syncDue k s) k a = tileOf s k a := by
  have hbist (i : Nat) : (syncDue k s).bit (Reg.arrayBist0 k + 4 * a) i = s.bit (Reg.arrayBist0 k + 4 * a) i := by
    refine State.bit_of_rd (rd_arrays_syncDue hs ?_ ?_) i <;> simp only [Reg.arrayCfg0, Reg.arrayBist0] <;> omega
  have hck : ckOf (syncDue k s) k a = ckOf s k a := by rw [ckOf, arrs_syncDue, ckOf]
  rw [tileOf, hck, presented_syncDue hs ha, hbist, hbist, arrs_syncDue, tileOf]

/-! ### Operations that give a result and change nothing -/

/-- A tile-queue operation that gives register results and leaves the state as it is. -/
theorem exec_tqGives {c : Instr} {tw : Writes} (hc : wordOf c = some (k, v)) (hs : s.wf = true) (hi : issues s k v = true) (hw : OnlyTq v)
    (h : tqEffect k v (core s k) false (syncDue k s) = .done tw (syncDue k s)) :
    ∃ t, exec c s = .next t ∧ WordDone k s t (coreAfter (tqOnly tw) (core s k) (core s k)) [] :=
  ⟨_, exec_onlyTq hc hi hw h, tqEnd_wordDone (syncDue_within.wf hs) hi hw (syncDue_onlyCore hs k) rfl⟩

/-- TRD issues once a complete tile is at the head (R198, R201). -/
theorem headTile_of_issues (hi : issues s k v = true) (hop : tqOp v = 0x08) : ∃ x, headTile s k (tqArr v) = some x := by
  simp only [issues, ready, Bool.and_eq_true, Bool.not_eq_true'] at hi
  obtain ⟨⟨⟨-, htq⟩, -⟩, -⟩ := hi
  rw [tqWaits, hop] at htq
  exact Option.isSome_iff_exists.mp (by simpa using htq)

theorem exec_trd_reads {w : IWord} (hv : v = withTq 0x08 w) (hs : s.wf = true) (hi : issues s k v = true) (hw : OnlyTq v) (hop : tqOp v = 0x08)
    {x : Tile} (hx : headTile s k (tqArr v) = some x) : ∃ t, exec (.trd k w) s = .next t ∧
      WordDone k s t { (core s k).setV (tqVd v) (tileRead v (core s k) s k x) with pc := (core s k).pc + 64 } [] := by
  have hhead : headTile (syncDue k s) k (tqArr v) = some x := by rw [headTile, tqOf_syncDue]; exact hx
  refine exec_tqGives (tw := .ofV (tqVd v) (tileRead v (core s k) s k x)) (by rw [hv]; rfl) hs hi hw ?_
  rw [← tileRead_syncDue hs]
  simp [tqEffect, hop, tqTrd, hhead]

theorem exec_trdt_reads {w : IWord} (hv : v = withTq 0x09 w) (hs : s.wf = true) (hi : issues s k v = true) (hw : OnlyTq v) (hop : tqOp v = 0x09) :
    ∃ t, exec (.trdt k w) s = .next t ∧
      WordDone k s t { (core s k).setV (tqVd v) (tileRead v (core s k) s k (tileOf s k (tqArr v))) with pc := (core s k).pc + 64 } [] := by
  refine exec_tqGives (tw := .ofV (tqVd v) (tileRead v (core s k) s k (tileOf s k (tqArr v)))) (by rw [hv]; rfl) hs hi hw ?_
  rw [← tileRead_syncDue hs, ← tileOf_syncDue hs (tqArr_lt v)]
  simp [tqEffect, hop, tqTrdt]

/-- The complete tiles of array a. -/
def tilesComplete (s : State) (k a : Nat) : Nat := ((tqOf s k a).filter Tile.complete).length

theorem exec_tstat_counts {w : IWord} (hv : v = withTq 0x0B w) (hs : s.wf = true) (hi : issues s k v = true) (hw : OnlyTq v)
    (hop : tqOp v = 0x0B) : ∃ t, exec (.tstat k w) s = .next t ∧
      WordDone k s t { (core s k).setS (tqRd v) (BitVec.ofNat 64 (tilesComplete s k 0 + 2 ^ 8 * tilesComplete s k 1 +
        2 ^ 16 * tilesComplete s k 2 + 2 ^ 24 * tilesComplete s k 3)) with pc := (core s k).pc + 64 } [] := by
  refine exec_tqGives (tw := .ofS (tqRd v) (BitVec.ofNat 64 (tilesComplete s k 0 + 2 ^ 8 * tilesComplete s k 1 +
    2 ^ 16 * tilesComplete s k 2 + 2 ^ 24 * tilesComplete s k 3))) (by rw [hv]; rfl) hs hi hw ?_
  have hsum : ((List.range 4).map fun a => ((tqOf (syncDue k s) k a).filter Tile.complete).length * 256 ^ a).sum =
      tilesComplete s k 0 + 2 ^ 8 * tilesComplete s k 1 + 2 ^ 16 * tilesComplete s k 2 + 2 ^ 24 * tilesComplete s k 3 := by
    simp only [tqOf_syncDue, tilesComplete, List.range_succ, List.range_zero, List.map_append, List.map_cons, List.map_nil, List.sum_append,
      List.sum_cons, List.sum_nil, List.nil_append]
    omega
  simp [tqEffect, hop, tqTstat, hsum]

/-! ### TPOP -/

/-- The tiles of array a behind its head. -/
def tilesBehind (s : State) (k a : Nat) : List Tile := (tqOf s k a).drop 1

/-- The arrays of core k once the head tile of array a is dropped. -/
def popped (k : CoreId) (a : Nat) (s : State) : Arrays :=
  { arrs s k with tq := Tab.set (fun _ => []) (arrs s k).tq a (tilesBehind s k a) }

/-- The state once the head tile of array a is dropped, and its queue shows it. -/
def tilePopped (k : CoreId) (a : Nat) (s : State) : State :=
  (setArr k (popped k a s) s).putF (Reg.arrayTq0 k + 0x10 * a) 0 3 (tilesBehind s k a).length

theorem setArr_core (hs : s.wf = true) (x : Arrays) : core (setArr k x s) k = { core s k with arr := x } :=
  (core_of_cores (State.putB_within.cores (by decide)) k).trans (core_setCore_same hs k _)

theorem exec_tpop_pops {w : IWord} (hv : v = withTq 0x0A w) (hs : s.wf = true) (hi : issues s k v = true) (hw : OnlyTq v) (hop : tqOp v = 0x0A) :
    ∃ t, exec (.tpop k w) s = .next t ∧ core t k = { core s k with arr := popped k (tqArr v) s, pc := (core s k).pc + 64 } ∧
      t.fld (Reg.arrayTq0 k + 0x10 * tqArr v) 0 3 = (tilesBehind s k (tqArr v)).length % 8 ∧ t.mem = s.mem := by
  have hlt := k.isLt
  have ha := tqArr_lt v
  have he : (syncDue k s).wf = true := syncDue_within.wf hs
  have hin : Within 2105352 s (tilePopped k (tqArr v) (syncDue k s)) :=
    Within.step State.putF_within (by decide) (Within.step setArr_within (by decide) (Within.step syncDue_within (by decide) (.refl _ _)))
  have hcore : core (tilePopped k (tqArr v) (syncDue k s)) k = { core s k with arr := popped k (tqArr v) s } := by
    have h : core (tilePopped k (tqArr v) (syncDue k s)) k = core (setArr k (popped k (tqArr v) (syncDue k s)) (syncDue k s)) k :=
      core_of_cores (State.putF_within.cores (by decide)) k
    rw [h, setArr_core he, syncDue_core, popped, popped, arrs_syncDue, tilesBehind, tqOf_syncDue, tilesBehind]
  have hwait : (core (tilePopped k (tqArr v) (syncDue k s)) k).wait = .none := by
    rw [hcore]
    exact wait_of_mayIssue (mayIssue_of_issues hi)
  obtain ⟨hdone, -, hregs, hparts⟩ := wordEnd_onlyCore (s := s) (ws := tqOnly .none) (hin.wf hs) hwait hw.br
  refine ⟨_, exec_onlyTq (by rw [hv]; rfl) hi hw (t := tilePopped k (tqArr v) (syncDue k s)) (tw := .none) (by simp [tqEffect, hop]; rfl),
    ?_, ?_, (hparts .mem (by decide)).trans (hin.mem (by decide))⟩
  · rw [hdone, hcore]
    rfl
  · have hrd := hregs (Reg.arrayTq0 k + 0x10 * tqArr v) (issueRegs_outside ?_ ?_ ?_ ?_) List.not_mem_nil
    · have hw' : RegsOk (setArr k (popped k (tqArr v) (syncDue k s)) (syncDue k s)) := State.wf_regs (setArr_within.wf he)
      rw [State.fld_of_rd hrd, tilePopped, State.fld_putF_same hw' (by decide), tilesBehind, tqOf_syncDue, tilesBehind]
      rfl
    all_goals simp only [Reg.arrayTq0, Reg.corePc, Reg.coreStatus]; omega

end

/-- Settles O39: TRD, TRDT and TSTAT give their results and change nothing else; TPOP drops the head tile. -/
theorem tileReads : Obligations.TileReads := by
  intro k w s hs
  refine ⟨fun hi hops => ?_, fun hi hops => ?_, fun hi hops => ?_, fun hi hops => ?_⟩ <;> obtain ⟨hw, hop⟩ := onlyTq_of_wordOps hops
  · obtain ⟨x, hx⟩ := headTile_of_issues hi hop
    obtain ⟨t, he, hdone⟩ := exec_trd_reads rfl hs hi hw hop hx
    exact ⟨t, x, hx, he, hdone⟩
  · exact exec_trdt_reads rfl hs hi hw hop
  · exact exec_tpop_pops rfl hs hi hw hop
  · exact exec_tstat_counts rfl hs hi hw hop

end Sys2Proof.Machine
end

section
/-! SUPPORT. Two statements on the arrays that fail: a command and a check evaluated in a state that meets their hypotheses and not their
conclusions. -/

namespace Sys2Proof.Machine

/-! ### An ASYNC whose format is not one of the arrays (R240, R249) -/

/-- Core 0 ENABLED at the first word of its local store. -/
def asyncCore : State :=
  { State.reset with
    regs := [(Reg.coreStatus 0, 1)]
    cores := [(0, { CoreSt.start with pc := BitVec.ofNat 64 (localBase 0) })] }

/-- A word whose array field names A0 and format 2, which is no format of the arrays. -/
def asyncWord : IWord := setWf (setWf (setWf 0 0 4 1) 246 4 1) 253 4 2

theorem asyncWord_issues : asyncCore.wf = true ∧ issues asyncCore 0 (withArr 0x08 asyncWord) = true ∧
    wordOps (withArr 0x08 asyncWord) = [0, 0, 0, 0x08, 0, 0] ∧
    (let s := entryState 0 (withArr 0x08 asyncWord) asyncCore
     arrOutside (withArr 0x08 asyncWord) s 0 (core s 0) = some 249) := by decide +kernel

/-- A word whose only operation is in the array field and is outside contract. -/
theorem wordEffect_array_outside {k : CoreId} {v : IWord} {s stay : State} {op r : Nat} (hops : wordOps v = [0, 0, 0, op, 0, 0])
    (h : arrOutside v s k (core s k) = some r) : wordEffect k v stay s = .outside r := by
  simp only [wordOps, List.cons.injEq, and_true] at hops
  obtain ⟨hsca, hadr, hvec, -, -, -⟩ := hops
  simp [wordEffect, scaSys, adrEffect, gatherOutside, isGather_of_none hvec, vecEffect, hsca, hadr, hvec, h, oc]

theorem exec_asyncWord : exec (.async 0 asyncWord) asyncCore = .next (asyncCore.leave 249).settle := by
  obtain ⟨-, hi, hops, hout⟩ := asyncWord_issues
  exact exec_word_outside (k := 0) (w := withArr 0x08 asyncWord) rfl rfl ((issueWord_of_issues hi).trans (wordEffect_array_outside hops hout))

/-- Refutes O35: the clause on ASYNC has no hypothesis that the word is within contract. An ASYNC that names format 2 issues, as no field
of it is ILLEGAL or reserved, and leaves the contract by R249: what follows is not the state that the clause asks for, which is within
contract still. -/
theorem not_arrayWordsQueueTheirOperation : ¬ Obligations.ArrayWordsQueueTheirOperation := by
  intro h
  obtain ⟨hwf, hi, hops, -⟩ := asyncWord_issues
  obtain ⟨-, t, he, ⟨-, -, -, hparts⟩, -⟩ := (h 0 asyncWord asyncCore hwf).2 hi hops
  have ht : t = (asyncCore.leave 249).settle := Host.Outcome.next.inj (he.symm.trans exec_asyncWord)
  have hbroken := State.leave_settle_broken (s := asyncCore) (r := 249) rfl
  rw [← ht, show t.contract = asyncCore.contract from hparts .contract (by decide)] at hbroken
  cases hbroken

/-! ### The checks of an array beyond the four of a core, where the register file is not in canonical form (R272 to R278) -/

/-- The array number whose ARRAY_CK_CHECKED would stand at the offset of HOST_BAR2_PAGE2, which is 2 after power-up. -/
def pageArray : Nat := 0xBF7F8

theorem arrayCkChecked_pageArray : Reg.arrayCk0Checked 0 + 0x20 * pageArray = Reg.hostBar2Page 2 := rfl

/-- The part after reset with HOST_BAR2_PAGE2 at 1, and behind it, out of the order of a canonical file, the width of that array at 1. -/
def pageBefore : State := { State.reset with regs := [(Reg.hostBar2Page 2, 1), (Reg.arrayWidth0 0 + 0x10 * pageArray, 1)] }

/-- A tile whose element (0, 0) is 1, and whose checksums are 0. -/
def oneTile : Tile :=
  { elems := [(0, .word 1)], ckRow := [], ckCol := [], paired := false, complete := false, t := 0, rowCk := true, colCk := true
    duplicate := false, flt := false, k := 0 }

/-- Before the count the array has no column, and every line holds. -/
theorem oneTile_holds : ∀ col, ∀ i ∈ ckLines oneTile (presented pageBefore 0 pageArray false) col,
    lineSpecial oneTile (presented pageBefore 0 pageArray false) (fun _ => none) col i = false ∧
    lineFails oneTile (presented pageBefore 0 pageArray false) (fun _ => none) col i = false := by decide +kernel

/-- The count drops the entry before that of the width: the array has one column, whose checks fail. -/
theorem oneTile_reported : (checkTile 0 pageArray oneTile (fun _ => none) pageBefore).selv.inbox.length = 2 := by decide +kernel

/-- Refutes O36: its clauses on the checks of a tile speak of every number of a core and of an array, and of register files that are not
in canonical form. A count of checked tiles that reaches the value of its register after power-up drops the entry of that register; where
an entry stood out of order behind it, the count shows the entry, here the width of the array, and lines are compared that were not. -/
theorem not_arrayEvents : ¬ Obligations.ArrayEvents := by
  intro h
  obtain ⟨-, -, hchecks⟩ := h
  obtain ⟨hcounted, -, -⟩ := hchecks 0 pageArray oneTile (fun _ => none) pageBefore
  have hinbox := congrArg (fun s : State => s.selv.inbox.length) (hcounted rfl rfl oneTile_holds)
  exact absurd (oneTile_reported.symm.trans hinbox) (by decide)

end Sys2Proof.Machine
end

section
/-! SUPPORT. A word whose only operation is in the vector field and is no gather or scatter (R194, R284, R313): what it writes besides
its results is VEC_STATUS and the codes of its residues. -/

namespace Sys2Proof.Machine

/-- The word has an operation in its vector field only. -/
structure OnlyVec (w : IWord) : Prop where
  sca : scaOp w = 0
  adr : adrOp w = 0
  arr : arrOp w = 0
  tq : tqOp w = 0
  br : brOp w = 0

theorem onlyVec_of_wordOps {w : IWord} {op : Nat} (h : wordOps w = [0, 0, op, 0, 0, 0]) : OnlyVec w ∧ vecOp w = op := by
  simp only [wordOps, List.cons.injEq, and_true] at h
  obtain ⟨hsca, hadr, hvec, harr, htq, hbr⟩ := h
  exact ⟨⟨hsca, hadr, harr, htq, hbr⟩, hvec⟩

/-- The opcode is that of an operation on registers: neither none nor a gather or scatter. -/
def vecOnRegs (op : Nat) : Bool := op != 0 && op != 0x090 && op != 0x091

/-- The results of a word that has those of its vector field only. -/
abbrev vecOnly (vw : Writes) : List Writes := [.none, .none, vw, .none]

/-! ### The effects of the vector field -/

section
variable {k : CoreId} {v : IWord} {c : CoreSt} {s t stay : State}

theorem isGather_of_onRegs (h : vecOnRegs (vecOp v) = true) : isGather v = false := by
  simp only [vecOnRegs, Bool.and_eq_true, bne_iff_ne] at h
  obtain ⟨⟨-, hgath⟩, hscat⟩ := h
  simp [isGather, hgath, hscat]

/-- An operation of the vector field is counted, and sets its flags (R289, R314). -/
def flagsSet (k : CoreId) (f : VecFlags) (s : State) : State := pmcCount 0x09 k 1 (setVecFlags k f s)

/-- What an operation on registers leaves of the state: flags, its count, and its residues. -/
def vecLeft (k : CoreId) (v : IWord) (c : CoreSt) (f : VecFlags) (s : State) : State := noteResidue k v c (flagsSet k f s)

theorem vecEffect_onRegs (h : vecOnRegs (vecOp v) = true) :
    vecEffect k v c s = ((vecResult v c s).1, vecLeft k v c (vecResult v c s).2 s) := by
  have hg := isGather_of_onRegs h
  simp only [vecOnRegs, Bool.and_eq_true, bne_iff_ne] at h
  obtain ⟨⟨hnone, -⟩, hscat⟩ := h
  simp [vecEffect, vecLeft, flagsSet, hnone, hscat, hg]

theorem wordEffect_onlyVec (hw : OnlyVec v) (h : vecOnRegs (vecOp v) = true) {r : Writes × VecFlags} (hr : vecResult v (core s k) s = r) :
    wordEffect k v stay s = .next (finishWord k v (core s k) (vecOnly r.1) false (vecLeft k v (core s k) r.2 s)) := by
  simp [wordEffect, scaSys, scaWrites, adrEffect, gatherOutside, isGather_of_onRegs h, vecEffect_onRegs h, arrOutside, arrEffect, tqEffect,
    hw.sca, hw.adr, hw.arr, hw.tq, hr]

theorem exec_onlyVec {cmd : Instr} (hc : wordOf cmd = some (k, v)) (hi : issues s k v = true) (hw : OnlyVec v)
    (h : vecOnRegs (vecOp v) = true) {r : Writes × VecFlags} (hr : vecResult v (core s k) (syncDue k s) = r) :
    exec cmd s = .next (wordEnd k v (vecOnly r.1) s (vecLeft k v (core s k) r.2 (syncDue k s))) := by
  have hentry : entryState k v s = syncDue k s := by rw [entryState, arrived_of_noAccess (by rw [hw.adr]; rfl)]
  have hres : vecResult v (core (syncDue k s) k) (syncDue k s) = r := by rw [syncDue_core, hr]
  refine exec_word_next hc (kept_of_issues hi) ((issueWord_of_issues hi).trans ?_)
  rw [hentry, wordEffect_onlyVec hw h hres, syncDue_core]
  rfl

/-! ### VEC_STATUS and the residues -/

theorem flagsSet_within {f : VecFlags} : Within 8 s (flagsSet k f s) := Within.step pmcCount_within (by decide) setVecFlags_within

theorem flagsSet_onlyCore (hs : s.wf = true) (f : VecFlags) : OnlyCore k s (flagsSet k f s) (core s k) [Reg.vecStatus k] := by
  have hflags : OnlyCore k s (setVecFlags k f s) (core s k) [Reg.vecStatus k] :=
    ⟨rfl, fun _ _ => rfl, fun _ _ hx => State.rd_wr_ne (State.wf_regs hs) (by simpa using hx),
      setVecFlags_within.same_of_not_mem (by decide)⟩
  exact hflags.trans (.of_within (setVecFlags_within.wf hs) pmcCount_within (pmcCount_changesOnlyRegs _ _ _ _ _) (by decide))

/-- VEC_CFG and VEC_STATUS are no registers that an issue changes. -/
theorem issueRegs_vec (k : CoreId) : issueRegs k (Reg.vecCfg k) = false ∧ issueRegs k (Reg.vecStatus k) = false := by
  have hk := k.isLt
  constructor <;> apply issueRegs_outside <;> simp only [Reg.vecCfg, Reg.vecStatus, Reg.corePc, Reg.coreStatus] <;> omega

theorem flagsSet_status (hs : s.wf = true) (f : VecFlags) :
    (flagsSet k f s).rd (Reg.vecStatus k) = s.rd (Reg.vecStatus k) ||| f.word := by
  have hwf : (setVecFlags k f s).wf = true := setVecFlags_within.wf hs
  have hcounted := (pmcCount_changesOnlyRegs 0x09 k 1 k _ (State.wf_regs hwf)).2 _ (issueRegs_vec k).2
  rw [flagsSet, hcounted, setVecFlags, State.rd_wr_same (State.wf_regs hs)]

/-- The operations whose residues core k waits for, once v has taken its place among them (R313). -/
def checkedAfter (k : CoreId) (v : IWord) (c : CoreSt) (s : State) : List (Nat × Nat) :=
  if residueOp v && s.bit (Reg.vecCfg k) 0 then ((vecOp v, residueLanes v c) :: (core s k).checked).take residueDepth
  else (core s k).checked

theorem noteResidue_onlyCore (hs : s.wf = true) :
    OnlyCore k s (noteResidue k v c s) { core s k with checked := checkedAfter k v c s } [] := by
  unfold noteResidue checkedAfter
  split
  · exact setCore_onlyCore hs k _
  · exact .refl rfl

theorem core_noteResidue (hs : s.wf = true) : core (noteResidue k v c s) k = { core s k with checked := checkedAfter k v c s } :=
  (noteResidue_onlyCore hs).1

theorem noteResidue_of_not_residueOp (h : residueOp v = false) : noteResidue k v c s = s := by simp [noteResidue, h]

theorem vecLeft_wf (hs : s.wf = true) (f : VecFlags) : (vecLeft k v c f s).wf = true := noteResidue_within.wf (flagsSet_within.wf hs)

/-- An operation on registers leaves its core with the residues noted, and besides that VEC_STATUS. -/
theorem vecLeft_onlyCore (hs : s.wf = true) (f : VecFlags) :
    OnlyCore k s (vecLeft k v c f s) (core (noteResidue k v c s) k) [Reg.vecStatus k] := by
  have hflags := flagsSet_onlyCore (k := k) hs f
  have hnote := noteResidue_onlyCore (k := k) (v := v) (c := c) (flagsSet_within.wf hs : (flagsSet k f s).wf = true)
  have ⟨hcore, _, hregs, _⟩ := hflags
  have hcfg : (flagsSet k f s).bit (Reg.vecCfg k) 0 = s.bit (Reg.vecCfg k) 0 :=
    State.bit_of_rd (hregs _ (issueRegs_vec k).1 (by simp [Reg.vecCfg, Reg.vecStatus])) 0
  rw [checkedAfter, hcfg, hcore] at hnote
  rw [core_noteResidue hs]
  exact hflags.trans hnote

theorem vecLeft_status (hs : s.wf = true) (f : VecFlags) :
    (vecLeft k v c f s).rd (Reg.vecStatus k) = s.rd (Reg.vecStatus k) ||| f.word := by
  obtain ⟨-, -, hregs, -⟩ := noteResidue_onlyCore (k := k) (v := v) (c := c) (flagsSet_within.wf hs : (flagsSet k f s).wf = true)
  rw [vecLeft, hregs _ (issueRegs_vec k).2 List.not_mem_nil, flagsSet_status hs]

/-! ### A vector operation on registers -/

/-- R284, R289, R313: the results in the registers, the flags in VEC_STATUS, the residues noted, and nothing else but what every issue
may change. -/
theorem exec_vector {cmd : Instr} (hc : wordOf cmd = some (k, v)) (hs : s.wf = true) (hi : issues s k v = true) (hw : OnlyVec v)
    (h : vecOnRegs (vecOp v) = true) {r : Writes × VecFlags} (hr : ∀ u, vecResult v (core s k) u = r) :
    ∃ t, exec cmd s = .next t ∧
      WordDone k s t { (core (noteResidue k v (core s k) s) k).apply r.1 with pc := (core s k).pc + 64 } [Reg.vecStatus k] ∧
      t.rd (Reg.vecStatus k) = s.rd (Reg.vecStatus k) ||| r.2.word := by
  have hsync := syncDue_onlyCore hs k
  have hswf : (syncDue k s).wf = true := syncDue_within.wf hs
  obtain ⟨hcfg, hreg⟩ := issueRegs_vec k
  have ⟨_, _, hsynced, _⟩ := hsync
  have hnoted : core (noteResidue k v (core s k) (syncDue k s)) k = core (noteResidue k v (core s k) s) k := by
    rw [core_noteResidue hswf, core_noteResidue hs, checkedAfter, checkedAfter, State.bit_of_rd (hsynced _ hcfg List.not_mem_nil),
      syncDue_core]
  have hleft := hsync.trans (vecLeft_onlyCore (v := v) (c := core s k) hswf r.2)
  rw [hnoted, core_noteResidue hs] at hleft
  have hwait := wait_of_mayIssue (mayIssue_of_issues hi)
  have hlwf := vecLeft_wf (k := k) (v := v) (c := core s k) hswf r.2
  refine ⟨_, exec_onlyVec hc hi hw h (hr _), ?_, ?_⟩
  · rw [core_noteResidue hs]
    exact wordEnd_wordDone hlwf hleft hw.br hwait rfl rfl
  · obtain ⟨-, -, hended, -⟩ := wordEnd_onlyCore (ws := vecOnly r.1) (s := s) hlwf (by rw [hleft.1]; exact hwait) hw.br
    rw [hended _ hreg List.not_mem_nil, vecLeft_status hswf, hsynced _ hreg List.not_mem_nil]

/-- A register that has kept its value is none that the word has changed. -/
theorem WordDone.of_kept {a : Nat} {c' : CoreSt} (h : WordDone k s t c' [a]) (ha : t.rd a = s.rd a) : WordDone k s t c' [] := by
  obtain ⟨⟨hcore, hothers, hregs, hparts⟩, hdone⟩ := h
  refine ⟨⟨hcore, hothers, fun x hx _ => ?_, hparts⟩, hdone⟩
  by_cases hxa : x = a
  · rw [hxa, ha]
  · exact hregs x hx (by simpa using hxa)

end

/-! ### The rows of the vector table -/

/-- No word with this opcode carries residues (R313). -/
def vecUnchecked (op : Nat) : Bool := !([0x010, 0x011, 0x012, 0x013, 0x014, 0x018, 0x01D, 0x050, 0x064, 0x065, 0x066].contains op)

theorem residueOp_of_unchecked {v : IWord} (h : vecUnchecked (vecOp v) = true) : residueOp v = false := by
  simp only [vecUnchecked, Bool.not_eq_true', List.contains_eq_mem, decide_eq_false_iff_not, List.mem_cons, List.not_mem_nil, or_false,
    not_or] at h
  simp [residueOp, h]

/-- The command issues words with the opcode `op`, which computes `res` from registers alone: for each row of the table by definition. -/
structure IsVector (cmd : CoreId → IWord → Instr) (op : Nat) (res : IWord → CoreSt → Writes × VecFlags) : Prop where
  word : ∀ k w, wordOf (cmd k w) = some (k, withVec op w) := by exact fun _ _ => rfl
  onRegs : vecOnRegs op = true := by rfl
  result : ∀ v c u, vecOp v = op → vecResult v c u = res v c := by
    intro v c u h
    rw [vecResult, h]
    rfl

section
variable {cmd : CoreId → IWord → Instr} {op : Nat} {res : IWord → CoreSt → Writes × VecFlags} (hrow : IsVector cmd op res)
  {k : CoreId} {w : IWord} {s : State} (hs : s.wf = true)
include hrow hs

/-- A vector operation that sets no flag leaves VEC_STATUS as it was. -/
theorem exec_noFlags (hi : issues s k (withVec op w) = true) (hops : wordOps (withVec op w) = [0, 0, op, 0, 0, 0]) {r : Writes}
    (hr : res (withVec op w) (core s k) = (r, .none)) : ∃ t, exec (cmd k w) s = .next t ∧
      WordDone k s t { (core (noteResidue k (withVec op w) (core s k) s) k).apply r with pc := (core s k).pc + 64 } [] := by
  obtain ⟨hw, hop⟩ := onlyVec_of_wordOps hops
  obtain ⟨t, he, hdone, hstatus⟩ := exec_vector (hrow.word k w) hs hi hw (by rw [hop]; exact hrow.onRegs)
    fun u => (hrow.result _ _ u hop).trans hr
  exact ⟨t, he, hdone.of_kept (by rw [hstatus]; exact BitVec.or_zero)⟩

/-- The same for an operation that carries no residues. -/
theorem exec_noFlags_unchecked (hun : vecUnchecked op = true) (hi : issues s k (withVec op w) = true)
    (hops : wordOps (withVec op w) = [0, 0, op, 0, 0, 0]) {r : Writes} (hr : res (withVec op w) (core s k) = (r, .none)) :
    ∃ t, exec (cmd k w) s = .next t ∧ WordDone k s t { (core s k).apply r with pc := (core s k).pc + 64 } [] := by
  have hdone := exec_noFlags hrow hs hi hops hr
  rwa [noteResidue_of_not_residueOp (residueOp_of_unchecked (by rw [(onlyVec_of_wordOps hops).2]; exact hun))] at hdone

end

end Sys2Proof.Machine
end

section
/-! SUPPORT. The lanes of a register (R7, R284, R285): a register read as lanes, made of lanes, and computed lane by lane. -/

namespace Sys2Proof.Machine

/-! ### Numbers written in digits -/

/-- The digits of a number stand one above the other. -/
theorem testBit_foldr_digits {b : Nat} (hb : 0 < b) (l : List Nat) (j : Nat) :
    (l.foldr (fun x acc => x % 2 ^ b + 2 ^ b * acc) 0).testBit j = (l.getD (j / b) 0).testBit (j % b) := by
  induction l generalizing j with
  | nil => simp
  | cons x xs ih =>
    rw [List.foldr_cons, Nat.add_comm, Nat.testBit_two_pow_mul_add _ (Nat.mod_lt _ (Nat.two_pow_pos b))]
    by_cases hj : j < b
    · simp [hj, Nat.div_eq_of_lt hj, Nat.mod_eq_of_lt hj, Nat.testBit_mod_two_pow]
    · rw [if_neg hj, ih, Nat.div_eq_sub_div hb (Nat.le_of_not_lt hj), Nat.mod_eq_sub_mod (Nat.le_of_not_lt hj), List.getD_cons_succ]

/-- The same for single bits. -/
theorem testBit_foldr_bits {α : Type} (p : α → Bool) (l : List α) (j : Nat) :
    (l.foldr (fun x acc => (if p x then 1 else 0) + 2 * acc) 0).testBit j = (l.map p).getD j false := by
  have hbit (x : α) : (if p x then 1 else 0) % 2 = if p x then 1 else 0 := by cases p x <;> rfl
  have h := testBit_foldr_digits Nat.one_pos (l.map fun x => if p x then 1 else 0) j
  simp only [List.foldr_map, Nat.pow_one, hbit, Nat.div_one, Nat.mod_one] at h
  rw [h, List.getD_eq_getElem?_getD, List.getD_eq_getElem?_getD, List.getElem?_map, List.getElem?_map]
  cases l[j]? with
  | none => exact Nat.zero_testBit 0
  | some x => cases hp : p x <;> simp [hp]

/-! ### Lanes of a register -/

theorem ofNat_toNat_same {b : Nat} (x : BitVec b) : BitVec.ofNat b x.toNat = x := by rw [BitVec.ofNat_toNat, BitVec.setWidth_eq]

/-- Lane i of a register of lanes of b bits. -/
abbrev laneOf (b : Nat) (v : VReg) (i : Nat) : BitVec b := v.extractLsb' (i * b) b

theorem elemBits_dvd (f : Nat) : elemBits f ∣ 4096 := by
  unfold elemBits
  split <;> decide

theorem vBits_pos (w : IWord) : 0 < vBits w := Nat.pos_of_dvd_of_pos (elemBits_dvd _) (by decide)

/-- The lanes of a register, as the operations take them. -/
theorem lanes_eq (b : Nat) (v : VReg) : lanes b v = (List.range (4096 / b)).map fun i => (laneOf b v i).toNat := by
  refine List.map_congr_left fun i _ => ?_
  rw [BitVec.extractLsb'_toNat, Nat.shiftRight_eq_div_pow, fieldN]

theorem getD_lanes {b i : Nat} (v : VReg) (hi : i < 4096 / b) : (lanes b v).toArray.getD i 0 = (laneOf b v i).toNat := by
  simp [lanes_eq, hi]

section
variable {b : Nat} (hb : 0 < b)
include hb

theorem getLsbD_ofLanes (l : List Nat) (j : Nat) :
    (ofLanes b l).getLsbD j = (decide (j < 4096) && (l.getD (j / b) 0).testBit (j % b)) := by
  rw [ofLanes, BitVec.getLsbD_ofNat, testBit_foldr_digits hb]

/-- A lane of a register of lanes. -/
theorem laneOf_ofLanes (l : List Nat) {i : Nat} (hi : i < 4096 / b) : laneOf b (ofLanes b l) i = BitVec.ofNat b (l.getD i 0) := by
  have hend : (i + 1) * b ≤ 4096 := (Nat.le_div_iff_mul_le hb).mp hi
  refine BitVec.eq_of_getLsbD_eq fun j hj => ?_
  have hin : i * b + j < 4096 := by rw [Nat.succ_mul] at hend; omega
  have hdiv : (i * b + j) / b = i := by rw [Nat.mul_comm, Nat.mul_add_div hb, Nat.div_eq_of_lt hj, Nat.add_zero]
  rw [BitVec.getLsbD_extractLsb', getLsbD_ofLanes hb, hdiv, Nat.mul_comm, Nat.mul_add_mod, Nat.mod_eq_of_lt hj, Nat.mul_comm,
    BitVec.getLsbD_ofNat, decide_eq_true hin, Bool.true_and]

/-- A register is known by its lanes. -/
theorem eq_of_laneOf (hdvd : b ∣ 4096) {x y : VReg} (h : ∀ i, i < 4096 / b → laneOf b x i = laneOf b y i) : x = y := by
  refine BitVec.eq_of_getLsbD_eq fun j hj => ?_
  have hlane : j / b < 4096 / b := Nat.div_lt_div_of_lt_of_dvd hdvd hj
  have hbit := congrArg (BitVec.getLsbD · (j % b)) (h _ hlane)
  simpa [BitVec.getLsbD_extractLsb', Nat.mod_lt _ hb, Nat.div_add_mod'] using hbit

end

/-! ### Operations lane by lane (R285) -/

theorem VecFlags.all_eq_none {l : List VecFlags} (h : ∀ f ∈ l, f = VecFlags.none) : VecFlags.all l = .none := by
  unfold VecFlags.all
  induction l with
  | nil => rfl
  | cons f l ih =>
    rw [List.foldl_cons, h f (List.mem_cons_self ..)]
    exact ih fun g hg => h g (List.mem_cons_of_mem f hg)

section
variable {w : IWord} {c : CoreSt} {f : Nat → Nat → Nat → Lane}

/-- The bits of lane i of an operation on up to three operands. -/
def laneBits (w : IWord) (c : CoreSt) (f : Nat → Nat → Nat → Lane) (i : Nat) : Nat :=
  let b := vBits w
  (f (laneOf b (c.vreg (vVa w)) i).toNat (laneOf b (c.vreg (vVb w)) i).toNat (laneOf b (c.vreg (vVc w)) i).toNat).1

/-- The register that such an operation writes: masked lanes are zero or keep their old value. -/
def mapped (w : IWord) (c : CoreSt) (f : Nat → Nat → Nat → Lane) : VReg :=
  let b := vBits w
  ofLanes b ((List.range (4096 / b)).map fun i =>
    if masked w c b i then (if vPmZero w then 0 else (laneOf b (c.vreg (vVd w)) i).toNat) else laneBits w c f i)

/-- An operation whose lanes set no flag. -/
theorem map3_noFlags (hf : ∀ x y z, (f x y z).2 = VecFlags.none) : map3 w c f = (.ofV (vVd w) (mapped w c f), .none) := by
  have hidx : (lanes (vBits w) (c.vreg (vVd w))).zipIdx =
      (List.range (4096 / vBits w)).map fun i => ((laneOf (vBits w) (c.vreg (vVd w)) i).toNat, i) := by
    rw [lanes_eq]
    refine List.ext_getElem (by simp) fun i _ _ => by simp
  refine Prod.ext (congrArg (Writes.ofV _) (congrArg (ofLanes _) ?_)) (VecFlags.all_eq_none ?_)
  · rw [hidx, List.map_map, List.map_map]
    refine List.map_congr_left fun i hi => ?_
    have hlt := List.mem_range.mp hi
    simp only [Function.comp_apply, getD_lanes _ hlt, laneBits]
    split <;> rfl
  · simp only [List.mem_map]
    rintro _ ⟨_, ⟨x, -, rfl⟩, rfl⟩
    split
    · rfl
    · exact hf _ _ _

theorem laneOf_mapped {i : Nat} (hi : i < 4096 / vBits w) : laneOf (vBits w) (mapped w c f) i =
    if masked w c (vBits w) i then (if vPmZero w then 0 else laneOf (vBits w) (c.vreg (vVd w)) i)
    else BitVec.ofNat _ (laneBits w c f i) := by
  rw [mapped, laneOf_ofLanes (vBits_pos w) _ hi]
  simp only [List.getD_eq_getElem?_getD, List.getElem?_map, List.getElem?_range hi, Option.map_some, Option.getD_some]
  split_ifs
  · rfl
  · exact ofNat_toNat_same _
  · rfl

theorem masked_of_noMask (h : vPmEn w = false) (b i : Nat) : masked w c b i = false := by simp [masked, h]

/-- Without a mask, an operation whose lanes are those of x writes x. -/
theorem map3_whole {g : Nat → Nat → Nat → Nat} (hm : vPmEn w = false) {x : VReg} (h : ∀ i, i < 4096 / vBits w →
    BitVec.ofNat _ (laneBits w c (fun x y z => (g x y z, .none)) i) = laneOf (vBits w) x i) :
    map3 w c (fun x y z => (g x y z, .none)) = (.ofV (vVd w) x, .none) := by
  rw [map3_noFlags fun _ _ _ => rfl]
  refine congrArg (fun x => (Writes.ofV (vVd w) x, VecFlags.none)) (eq_of_laneOf (vBits_pos w) (elemBits_dvd _) fun i hi => ?_)
  rw [laneOf_mapped hi, if_neg (by simp [masked_of_noMask hm]), h i hi]

end

end Sys2Proof.Machine
end

section
/-! SUPPORT. The arithmetic of one element (R228, R235, R254, R289, R318, R392): two's complement numbers as bit vectors, the terms of an
accumulator, and the elements of the bank units. -/

namespace Sys2Proof.Machine

/-! ### Two's complement -/

theorem wrapN_eq (n : Nat) (x : Int) : wrapN n x = (BitVec.ofInt n x).toNat := (BitVec.toNat_ofInt x).symm

theorem ofNat_wrapN (n : Nat) (x : Int) : BitVec.ofNat n (wrapN n x) = BitVec.ofInt n x := by
  rw [wrapN_eq, ofNat_toNat_same]

theorem signedN_toNat {n : Nat} (hn : 0 < n) (x : BitVec n) : signedN n x.toNat = x.toInt := by
  have hpow : 2 ^ n = 2 * 2 ^ (n - 1) := by rw [← Nat.pow_succ', Nat.succ_eq_add_one, Nat.sub_add_cancel hn]
  rw [BitVec.toInt_eq_toNat_cond, signedN, Nat.mod_eq_of_lt x.isLt]
  split <;> split <;> omega

theorem ofInt_sub (n : Nat) (x y : Int) : BitVec.ofInt n (x - y) = BitVec.ofInt n x - BitVec.ofInt n y := by
  rw [Int.sub_eq_add_neg, BitVec.ofInt_add, BitVec.ofInt_neg, BitVec.sub_eq_add_neg]

/-- The bits of an integer's value are its own. -/
theorem IFmt.ofInt_val (i : IFmt) (hn : 0 < i.bits) (x : BitVec i.bits) : BitVec.ofInt i.bits (i.val x.toNat) = x := by
  unfold IFmt.val
  split
  · rw [signedN_toNat hn, BitVec.ofInt_toInt]
  · rw [Nat.mod_eq_of_lt x.isLt, BitVec.ofInt_natCast, ofNat_toNat_same]

/-! ### Elements of 8 bits -/

theorem int8_range (a : BitVec 8) : -128 ≤ a.toInt ∧ a.toInt ≤ 127 :=
  ⟨BitVec.le_toInt a, Int.le_of_lt_add_one (BitVec.toInt_lt (x := a))⟩

theorem int8_val (a : BitVec 8) : (⟨8, true⟩ : IFmt).val a.toNat = a.toInt := signedN_toNat (by decide) a

theorem opInt_int8 (a : Byte) : opInt 0 a.toNat = a.toInt := int8_val a

theorem opInt_uint8 (a : Byte) : opInt 0xB a.toNat = a.toNat := congrArg Nat.cast (Nat.mod_eq_of_lt a.isLt)

/-! ### One accumulator element (R228, R254) -/

section
variable {fmt : Nat} {eop : Nat} {acc : W32} {a ax b bx : Nat}

/-- The value an accumulator takes as a term. -/
theorem signedN_wrapN (x : Int) : signedN 32 (wrapN 32 x) = (BitVec.ofInt 32 x).toInt := by
  rw [wrapN_eq, signedN_toNat (by decide)]

/-- The first term of an operation without accumulation replaces the element. -/
theorem cell_replaces (hf : fltAcc fmt = false) :
    cell fmt eop true acc a ax b bx = BitVec.ofInt 32 (intTerm eop (opInt fmt a) (opInt fmt b)) := by
  simp [cell, accTerm, hf]

theorem intComb_adds (h3 : eop ≠ 3) (h4 : eop ≠ 4) (y x : Int) : intComb eop y x = y + signedN 32 (wrapN 32 x) := by
  unfold intComb
  split
  · exact absurd rfl h3
  · exact absurd rfl h4
  · rfl

/-- A sum is modulo 2^32. -/
theorem cell_adds (hf : fltAcc fmt = false) (h3 : eop ≠ 3) (h4 : eop ≠ 4) :
    cell fmt eop false acc a ax b bx = acc + BitVec.ofInt 32 (intTerm eop (opInt fmt a) (opInt fmt b)) := by
  have hcell : cell fmt eop false acc a ax b bx =
      BitVec.ofInt 32 (acc.toInt + signedN 32 (wrapN 32 (intTerm eop (opInt fmt a) (opInt fmt b)))) := by
    simp [cell, accTerm, intComb_adds h3 h4, hf]
  rw [hcell, signedN_wrapN, BitVec.ofInt_add, BitVec.ofInt_toInt, BitVec.ofInt_toInt]

/-- A comparison of a term within 32 bits is one of integers. -/
theorem cell_compares {f : Int → Int → Int} {x : Int} (hf : fltAcc fmt = false)
    (hcomb : ∀ y, intComb eop acc.toInt y = f acc.toInt (signedN 32 (wrapN 32 y))) (hx : intTerm eop (opInt fmt a) (opInt fmt b) = x)
    (hsel : f acc.toInt x = acc.toInt ∨ f acc.toInt x = x) (hlo : -2 ^ 31 ≤ x) (hhi : x < 2 ^ 31) :
    (cell fmt eop false acc a ax b bx).toInt = f acc.toInt x := by
  have hself : (BitVec.ofInt 32 x).toInt = x := BitVec.toInt_ofInt_eq_self (by decide) hlo hhi
  have hcell : cell fmt eop false acc a ax b bx = BitVec.ofInt 32 (f acc.toInt x) := by
    simp [cell, accTerm, hf, hx, hcomb, signedN_wrapN, hself]
  rw [hcell]
  rcases hsel with h | h
  · rw [h, BitVec.ofInt_toInt]
  · rw [h, hself]

end

section
variable (acc : W32) (a b : Byte) (ax bx : Nat)

theorem product_int8 : BitVec.ofInt 32 (intTerm 0 (opInt 0 a.toNat) (opInt 0 b.toNat)) = a.signExtend 32 * b.signExtend 32 := by
  rw [opInt_int8, opInt_int8]
  exact BitVec.ofInt_mul a.toInt b.toInt

theorem product_uint8 : BitVec.ofInt 32 (intTerm 0 (opInt 0xB a.toNat) (opInt 0xB b.toNat)) = a.setWidth 32 * b.setWidth 32 := by
  rw [opInt_uint8, opInt_uint8, ← BitVec.ofNat_toNat, ← BitVec.ofNat_toNat, ← BitVec.ofInt_natCast, ← BitVec.ofInt_natCast]
  exact BitVec.ofInt_mul (a.toNat : Int) b.toNat

theorem cell_int8_distance : cell 0 1 false acc a.toNat ax b.toNat bx = acc + BitVec.ofInt 32 |a.toInt - b.toInt| := by
  rw [cell_adds rfl (by decide) (by decide), opInt_int8, opInt_int8, Int.abs_eq_natAbs]
  rfl

theorem cell_int8_square : cell 0 2 false acc a.toNat ax b.toNat bx = acc + BitVec.ofInt 32 ((a.toInt - b.toInt) ^ 2) := by
  rw [cell_adds rfl (by decide) (by decide), opInt_int8, opInt_int8, sq]
  rfl

theorem cell_int8_min : (cell 0 3 false acc a.toNat ax b.toNat bx).toInt = min acc.toInt (a.toInt + b.toInt) := by
  obtain ⟨halo, hahi⟩ := int8_range a
  obtain ⟨hblo, hbhi⟩ := int8_range b
  exact cell_compares rfl (fun _ => rfl) (by rw [opInt_int8, opInt_int8]; rfl) (min_choice _ _) (by omega) (by omega)

theorem cell_int8_max : (cell 0 4 false acc a.toNat ax b.toNat bx).toInt = max acc.toInt (a.toInt * b.toInt) := by
  obtain ⟨halo, hahi⟩ := int8_range a
  obtain ⟨hblo, hbhi⟩ := int8_range b
  have hprod : |a.toInt * b.toInt| ≤ 128 * 128 := by
    rw [abs_mul]
    exact mul_le_mul (abs_le.mpr ⟨halo, by omega⟩) (abs_le.mpr ⟨hblo, by omega⟩) (abs_nonneg _) (by decide)
  obtain ⟨hlo, hhi⟩ := abs_le.mp hprod
  exact cell_compares rfl (fun _ => rfl) (by rw [opInt_int8, opInt_int8]; rfl) (max_choice _ _) (by omega) (by omega)

theorem cell_int8_equal : cell 0 5 false acc a.toNat ax b.toNat bx = if a = b then acc + 1 else acc := by
  rw [cell_adds rfl (by decide) (by decide), opInt_int8, opInt_int8, intTerm]
  simp only [BitVec.toInt_inj]
  split
  · rfl
  · exact BitVec.add_zero acc

/-- R228, R254: the operations on one accumulator element. -/
theorem cell_bytes :
    cell 0 0 false acc a.toNat ax b.toNat bx = acc + a.signExtend 32 * b.signExtend 32 ∧
    cell 0xB 0 false acc a.toNat ax b.toNat bx = acc + a.setWidth 32 * b.setWidth 32 ∧
    cell 0 0 true acc a.toNat ax b.toNat bx = a.signExtend 32 * b.signExtend 32 ∧
    cell 0 1 false acc a.toNat ax b.toNat bx = acc + BitVec.ofInt 32 |a.toInt - b.toInt| ∧
    cell 0 2 false acc a.toNat ax b.toNat bx = acc + BitVec.ofInt 32 ((a.toInt - b.toInt) ^ 2) ∧
    (cell 0 3 false acc a.toNat ax b.toNat bx).toInt = min acc.toInt (a.toInt + b.toInt) ∧
    (cell 0 4 false acc a.toNat ax b.toNat bx).toInt = max acc.toInt (a.toInt * b.toInt) ∧
    cell 0 5 false acc a.toNat ax b.toNat bx = if a = b then acc + 1 else acc := by
  refine ⟨?_, ?_, ?_, cell_int8_distance acc a b ax bx, cell_int8_square acc a b ax bx, cell_int8_min acc a b ax bx,
    cell_int8_max acc a b ax bx, cell_int8_equal acc a b ax bx⟩
  · rw [cell_adds rfl (by decide) (by decide), product_int8]
  · rw [cell_adds rfl (by decide) (by decide), product_uint8]
  · rw [cell_replaces rfl, product_int8]

end

/-! ### The elements of the bank units (R392) -/

/-- An INT8 result as an element: wrapped, or clamped with `sat`. -/
def int8Put (sat : Bool) (x : Int) : Nat := ((⟨8, true⟩ : IFmt).put sat x).1

theorem int8Put_wraps (x : Int) : int8Put false x = (BitVec.ofInt 8 x).toNat := wrapN_eq 8 x

theorem int8_clamp (x : Int) : (⟨8, true⟩ : IFmt).clamp x = max (-128) (min 127 x) := by
  simp only [IFmt.clamp, show (⟨8, true⟩ : IFmt).lo = -128 from rfl, show (⟨8, true⟩ : IFmt).hi = 127 from rfl]
  split_ifs <;> omega

theorem int8Put_clamps (x : Int) : (BitVec.ofNat 8 (int8Put true x)).toInt = max (-128) (min 127 x) := by
  have hput : int8Put true x = wrapN 8 ((⟨8, true⟩ : IFmt).clamp x) := rfl
  rw [hput, ofNat_wrapN, int8_clamp]
  exact BitVec.toInt_ofInt_eq_self (by decide) (by omega) (by omega)

/-- A result within the range is the same with and without `sat`. -/
theorem int8Put_within {x : Int} (hlo : -128 ≤ x) (hhi : x ≤ 127) (sat : Bool) : int8Put sat x = (BitVec.ofInt 8 x).toNat := by
  cases sat with
  | false => exact int8Put_wraps x
  | true =>
    have hput : int8Put true x = wrapN 8 ((⟨8, true⟩ : IFmt).clamp x) := rfl
    rw [hput, int8_clamp, wrapN_eq, min_eq_right hhi, max_eq_right hlo]

section
variable {o : BuOp} (a b : BitVec 8) (c : Nat) (ht : o.type = 0)
include ht

theorem buElem_add (hop : o.op = 0x01) : buElem o a.toNat b.toNat c = int8Put o.sat (a.toInt + b.toInt) := by
  rw [← int8_val a, ← int8_val b]
  simp [buElem, ht, hop, floatFmt, intFmt, int8Put]

theorem buElem_sub (hop : o.op = 0x02) : buElem o a.toNat b.toNat c = int8Put o.sat (a.toInt - b.toInt) := by
  rw [← int8_val a, ← int8_val b]
  simp [buElem, ht, hop, floatFmt, intFmt, int8Put]

theorem buElem_relu (hop : o.op = 0x08) : buElem o a.toNat b.toNat c = if a.toInt < 0 then 0 else a.toNat := by
  obtain ⟨hlo, hhi⟩ := int8_range a
  have hput : buElem o a.toNat b.toNat c = int8Put o.sat (max a.toInt 0) := by
    rw [← int8_val a]
    simp [buElem, ht, hop, floatFmt, intFmt, int8Put]
  rw [hput, int8Put_within (by omega) (by omega)]
  split_ifs with hneg
  · rw [max_eq_right (by omega)]
    rfl
  · rw [max_eq_left (by omega), BitVec.ofInt_toInt]

theorem buElem_clamp (hop : o.op = 0x09) : (BitVec.ofNat 8 (buElem o a.toNat b.toNat c)).toInt =
    min (max a.toInt (BitVec.ofNat 8 o.s).toInt) (BitVec.ofNat 8 o.aux).toInt := by
  have hput : buElem o a.toNat b.toNat c =
      int8Put o.sat (min (max a.toInt (BitVec.ofNat 8 o.s).toInt) (BitVec.ofNat 8 o.aux).toInt) := by
    rw [← int8_val a, ← int8_val (.ofNat 8 o.s), ← int8_val (.ofNat 8 o.aux), BitVec.toNat_ofNat, BitVec.toNat_ofNat]
    simp [buElem, ht, hop, floatFmt, intFmt, int8Put, elemBits]
  obtain ⟨halo, hahi⟩ := int8_range a
  obtain ⟨hslo, hshi⟩ := int8_range (.ofNat 8 o.s)
  obtain ⟨hxlo, hxhi⟩ := int8_range (.ofNat 8 o.aux)
  rw [hput, int8Put_within (by omega) (by omega), ofNat_toNat_same]
  exact BitVec.toInt_ofInt_eq_self (by decide) (by omega) (by omega)

end

end Sys2Proof.Machine
end

section
/-! SUPPORT. The rows of the vector table that compute lane by lane, that compare, and that work on predicates (R288, R289, R291 to
R293). -/

namespace Sys2Proof.Machine

/-! ### Integer arithmetic without saturation (R289) -/

/-- An integer type is one of two's complement or of natural numbers, of the width of its elements. -/
theorem formats_of_isInt {f : Nat} (h : isInt f = true) : floatFmt f = none ∧ ∃ sg, intFmt f = some ⟨elemBits f, sg⟩ := by
  have hf : f = 0 ∨ f = 1 ∨ f = 2 ∨ f = 3 ∨ f = 0xB ∨ f = 0xC ∨ f = 0xD := by
    simp only [isInt, Bool.or_eq_true, Bool.and_eq_true, decide_eq_true_eq] at h
    omega
  rcases hf with rfl | rfl | rfl | rfl | rfl | rfl | rfl <;> exact ⟨rfl, _, rfl⟩

theorem formats_of_isSInt {f : Nat} (h : isSInt f = true) : floatFmt f = none ∧ intFmt f = some ⟨elemBits f, true⟩ := by
  have hf : f = 0 ∨ f = 1 ∨ f = 2 ∨ f = 3 := by
    simp only [isSInt, decide_eq_true_eq] at h
    omega
  rcases hf with rfl | rfl | rfl | rfl <;> exact ⟨rfl, rfl⟩

/-- Each lane of an operation on integers a and b. -/
abbrev intLanes (w : IWord) (f : Int → Int → Int) (ff : List FVal → FVal) : Nat → Nat → Nat → Lane :=
  fun a b _ => numLane w (fun _ l => f (l.getD 0 0) (l.getD 1 0)) ff [a, b]

section
variable {w : IWord} {c : CoreSt} {f : Int → Int → Int} {ff : List FVal → FVal}

theorem intLanes_wraps (hf : isInt (vFmt w) = true) (hsat : vSat w = false) : ∃ i : IFmt, i.bits = vBits w ∧
    ∀ x y z, intLanes w f ff x y z = (wrapN (vBits w) (f (i.val x) (i.val y)), .none) := by
  obtain ⟨hfloat, sg, hint⟩ := formats_of_isInt hf
  refine ⟨⟨vBits w, sg⟩, rfl, fun x y z => ?_⟩
  simp [intLanes, numLane, hfloat, hint, intLane, IFmt.put, hsat, vBits, VecFlags.ofSat, VecFlags.none]

/-- The lanes of an operation that is one of rings. -/
theorem ofNat_laneBits_intLanes {g : (b : Nat) → BitVec b → BitVec b → BitVec b} (hf : isInt (vFmt w) = true) (hsat : vSat w = false)
    (hg : ∀ b x y, BitVec.ofInt b (f x y) = g b (BitVec.ofInt b x) (BitVec.ofInt b y)) (i : Nat) :
    BitVec.ofNat _ (laneBits w c (intLanes w f ff) i) =
      g (vBits w) (laneOf _ (c.vreg (vVa w)) i) (laneOf _ (c.vreg (vVb w)) i) := by
  obtain ⟨⟨b, sg⟩, hb, hlane⟩ := intLanes_wraps (f := f) (ff := ff) hf hsat
  dsimp only at hb
  subst hb
  rw [laneBits, hlane, ofNat_wrapN, hg]
  exact congrArg₂ _ (IFmt.ofInt_val ⟨vBits w, sg⟩ (vBits_pos w) _) (IFmt.ofInt_val ⟨vBits w, sg⟩ (vBits_pos w) _)

end

/-- A row of the integer operations that wrap: the command, its opcode, and its lanes. -/
abbrev WrappingRow := (CoreId → IWord → Instr) × Nat × ((b : Nat) → BitVec b → BitVec b → BitVec b)

/-- The model computes the row as `f` on integers, which on the bits of any width is the lane of the row. -/
structure IsWrapping (r : WrappingRow) (res : IWord → CoreSt → Writes × VecFlags) (f : Int → Int → Int) : Prop where
  vector : IsVector r.1 r.2.1 res
  lanes : ∀ v c, ∃ ff, res v c = map3 v c (intLanes v f ff)
  wraps : ∀ b x y, BitVec.ofInt b (f x y) = r.2.2 b (BitVec.ofInt b x) (BitVec.ofInt b y)

theorem isWrapping_of_mem {row : WrappingRow}
    (h : row ∈ ([(Instr.vadd, 0x10, fun _ x y => x + y), (.vsub, 0x11, fun _ x y => x - y), (.vmul, 0x12, fun _ x y => x * y)] :
      List WrappingRow)) : ∃ res f, IsWrapping row res f := by
  simp only [List.mem_cons, List.not_mem_nil, or_false] at h
  rcases h with rfl | rfl | rfl
  · exact ⟨vecAdd, (· + ·), {}, fun _ _ => ⟨_, rfl⟩, fun _ => BitVec.ofInt_add⟩
  · exact ⟨vecSub, (· - ·), {}, fun _ _ => ⟨_, rfl⟩, ofInt_sub⟩
  · exact ⟨vecMul, (· * ·), {}, fun _ _ => ⟨_, rfl⟩, fun _ => BitVec.ofInt_mul⟩

/-! ### Bitwise operations and moves (R291) -/

theorem laneOf_not {b i : Nat} (v : VReg) (hi : i < 4096 / b) : laneOf b (~~~v) i = ~~~(laneOf b v i) := by
  have hb : 0 < b := Nat.pos_of_ne_zero fun h => by simp [h] at hi
  have hend : i * b + b ≤ 4096 := by
    rw [← Nat.succ_mul]
    exact (Nat.le_div_iff_mul_le hb).mp hi
  refine BitVec.eq_of_getLsbD_eq fun j hj => ?_
  have hin : i * b + j < 4096 := by omega
  simp only [BitVec.getLsbD_extractLsb', BitVec.getLsbD_not, hj, hin, decide_true, Bool.true_and]

section
variable {v : IWord} (c : CoreSt) (hm : vPmEn v = false)
include hm

theorem vecAnd_eq : vecAnd v c = (.ofV (vVd v) (c.vreg (vVa v) &&& c.vreg (vVb v)), .none) :=
  map3_whole hm fun i _ => (ofNat_toNat_same (laneOf _ (c.vreg (vVa v)) i &&& laneOf _ (c.vreg (vVb v)) i)).trans
    BitVec.extractLsb'_and.symm

theorem vecOr_eq : vecOr v c = (.ofV (vVd v) (c.vreg (vVa v) ||| c.vreg (vVb v)), .none) :=
  map3_whole hm fun i _ => (ofNat_toNat_same (laneOf _ (c.vreg (vVa v)) i ||| laneOf _ (c.vreg (vVb v)) i)).trans
    BitVec.extractLsb'_or.symm

theorem vecXor_eq : vecXor v c = (.ofV (vVd v) (c.vreg (vVa v) ^^^ c.vreg (vVb v)), .none) :=
  map3_whole hm fun i _ => (ofNat_toNat_same (laneOf _ (c.vreg (vVa v)) i ^^^ laneOf _ (c.vreg (vVb v)) i)).trans
    BitVec.extractLsb'_xor.symm

theorem vecNot_eq : vecNot v c = (.ofV (vVd v) (~~~(c.vreg (vVa v))), .none) := by
  refine map3_whole hm fun i hi => ?_
  rw [laneBits, ← BitVec.toNat_not (x := laneOf (vBits v) (c.vreg (vVa v)) i), laneOf_not _ hi, ofNat_toNat_same]

theorem vecMov_eq : vecMov v c = (.ofV (vVd v) (c.vreg (vVa v)), .none) := map3_whole hm fun _ _ => ofNat_toNat_same _

end

/-- A row of the operations on whole registers: the command, its opcode, and its result from registers a and b. -/
abbrev WholeRow := (CoreId → IWord → Instr) × Nat × (VReg → VReg → VReg)

/-- Without a mask, the model's lanes of the row are the result of the whole register. -/
structure IsWhole (r : WholeRow) (res : IWord → CoreSt → Writes × VecFlags) : Prop where
  vector : IsVector r.1 r.2.1 res
  unchecked : vecUnchecked r.2.1 = true
  whole : ∀ v c, vPmEn v = false → res v c = (.ofV (vVd v) (r.2.2 (c.vreg (vVa v)) (c.vreg (vVb v))), .none)

theorem isWhole_of_mem {row : WholeRow}
    (h : row ∈ ([(Instr.vand, 0x19, fun x y => x &&& y), (.vor, 0x1A, fun x y => x ||| y), (.vxor, 0x1B, fun x y => x ^^^ y),
      (.vnot, 0x1C, fun x _ => ~~~x), (.vmov, 0x23, fun x _ => x)] : List WholeRow)) : ∃ res, IsWhole row res := by
  simp only [List.mem_cons, List.not_mem_nil, or_false] at h
  rcases h with rfl | rfl | rfl | rfl | rfl
  · exact ⟨vecAnd, {}, rfl, fun _ => vecAnd_eq⟩
  · exact ⟨vecOr, {}, rfl, fun _ => vecOr_eq⟩
  · exact ⟨vecXor, {}, rfl, fun _ => vecXor_eq⟩
  · exact ⟨vecNot, {}, rfl, fun _ => vecNot_eq⟩
  · exact ⟨vecMov, {}, rfl, fun _ => vecMov_eq⟩

/-! ### Compares (R292) -/

/-- The bits of P[pd] after a compare of signed lanes without a mask. -/
theorem compare_signed {w : IWord} {c : CoreSt} {fi : Int → Int → Bool} {ff : FVal → FVal → Bool} (hf : isSInt (vFmt w) = true)
    (hm : vPmEn w = false) : ∃ x, compare w c fi ff = (.ofP (vPd w) x, .none) ∧ ∀ j, j < 512 → x.getLsbD j =
      fi (laneOf (vBits w) (c.vreg (vVa w)) (8 * j / vBits w)).toInt (laneOf (vBits w) (c.vreg (vVb w)) (8 * j / vBits w)).toInt := by
  obtain ⟨hfloat, hint⟩ := formats_of_isSInt hf
  refine ⟨_, rfl, fun j hj => ?_⟩
  have hlane : 8 * j / vBits w < 4096 / vBits w := Nat.div_lt_div_of_lt_of_dvd (elemBits_dvd _) (by omega)
  have hval (x : BitVec (vBits w)) : (⟨elemBits (vFmt w), true⟩ : IFmt).val x.toNat = x.toInt := signedN_toNat (vBits_pos w) x
  rw [BitVec.getLsbD_ofNat, testBit_foldr_bits]
  simp only [List.getD_eq_getElem?_getD, List.getElem?_map, List.getElem?_range hj, Option.map_some, Option.getD_some,
    masked_of_noMask hm, hfloat, hint, getD_lanes _ hlane, hval, hj, decide_true, Bool.true_and, Bool.false_eq_true, if_false]

/-- A row of the compares: the command, its opcode, and what it finds of two signed lanes. -/
abbrev CompareRow := (CoreId → IWord → Instr) × Nat × (Int → Int → Bool)

/-- The model compares lanes of integers as the row does. -/
structure IsCompare (r : CompareRow) (res : IWord → CoreSt → Writes × VecFlags) : Prop where
  vector : IsVector r.1 r.2.1 res
  unchecked : vecUnchecked r.2.1 = true
  compares : ∀ v c, ∃ ff, res v c = compare v c r.2.2 ff

theorem isCompare_of_mem {row : CompareRow}
    (h : row ∈ ([(Instr.vcmpeq, 0x30, fun x y => decide (x = y)), (.vcmpne, 0x31, fun x y => decide (x ≠ y)),
      (.vcmplt, 0x32, fun x y => decide (x < y)), (.vcmple, 0x33, fun x y => decide (x ≤ y)), (.vcmpgt, 0x34, fun x y => decide (y < x)),
      (.vcmpge, 0x35, fun x y => decide (y ≤ x))] : List CompareRow)) : ∃ res, IsCompare row res := by
  have hne : (fun x y : Int => decide (x ≠ y)) = fun x y => x != y := by
    funext x y
    rw [bne, decide_not]
    rfl
  simp only [List.mem_cons, List.not_mem_nil, or_false] at h
  rcases h with rfl | rfl | rfl | rfl | rfl | rfl
  · exact ⟨vecCmpeq, {}, rfl, fun _ _ => ⟨_, rfl⟩⟩
  · exact ⟨vecCmpne, {}, rfl, fun _ _ => ⟨_, by rw [hne]; rfl⟩⟩
  · exact ⟨vecCmplt, {}, rfl, fun _ _ => ⟨_, rfl⟩⟩
  · exact ⟨vecCmple, {}, rfl, fun _ _ => ⟨_, rfl⟩⟩
  · exact ⟨vecCmpgt, {}, rfl, fun _ _ => ⟨_, rfl⟩⟩
  · exact ⟨vecCmpge, {}, rfl, fun _ _ => ⟨_, rfl⟩⟩

/-! ### Predicates (R293) -/

/-- A row of the operations on predicates: the command, its opcode, and its result from predicates a and b. -/
abbrev PredicateRow := (CoreId → IWord → Instr) × Nat × (PReg → PReg → PReg)

/-- The model computes the row on whole predicates. -/
structure IsPredicate (r : PredicateRow) (res : IWord → CoreSt → Writes × VecFlags) : Prop where
  vector : IsVector r.1 r.2.1 res
  unchecked : vecUnchecked r.2.1 = true
  bitwise : ∀ v c, res v c = (.ofP (vPd v) (r.2.2 (c.preg (vVa v % 8)) (c.preg (vVb v % 8))), .none)

theorem isPredicate_of_mem {row : PredicateRow}
    (h : row ∈ ([(Instr.pand, 0x40, fun x y => x &&& y), (.por, 0x41, fun x y => x ||| y), (.pxor, 0x42, fun x y => x ^^^ y),
      (.pnot, 0x43, fun x _ => ~~~x)] : List PredicateRow)) : ∃ res, IsPredicate row res := by
  simp only [List.mem_cons, List.not_mem_nil, or_false] at h
  rcases h with rfl | rfl | rfl | rfl
  · exact ⟨vecPand, {}, rfl, fun _ _ => rfl⟩
  · exact ⟨vecPor, {}, rfl, fun _ _ => rfl⟩
  · exact ⟨vecPxor, {}, rfl, fun _ _ => rfl⟩
  · exact ⟨vecPnot, {}, rfl, fun _ _ => rfl⟩

theorem isVector_pcnt : IsVector .pcnt 0x44 vecPcnt := {}

theorem isVector_pfirst : IsVector .pfirst 0x45 vecPfirst := {}

/-- The count of the bits of a predicate. -/
theorem length_bitsOf (x : PReg) : (bitsOf 512 x.toNat).length = (List.range 512).countP fun i => x.getLsbD i := by
  rw [List.countP_eq_length_filter]
  rfl

/-- The first number below n with a property, or n. -/
theorem headD_filter_range (p : Nat → Bool) (n : Nat) : ((List.range n).filter p).headD n ≤ n ∧
    (∀ i, i < ((List.range n).filter p).headD n → p i = false) ∧
    (((List.range n).filter p).headD n < n → p (((List.range n).filter p).headD n) = true) := by
  rw [List.headD_eq_head?_getD, List.head?_filter]
  cases h : (List.range n).find? p with
  | none =>
    rw [List.find?_range_eq_none] at h
    exact ⟨le_rfl, fun i hi => by simpa using h i hi, fun hlt => absurd hlt (lt_irrefl n)⟩
  | some i =>
    obtain ⟨hp, hin, hlow⟩ := List.find?_range_eq_some.mp h
    exact ⟨(List.mem_range.mp hin).le, fun j hj => by simpa using hlow j hj, fun _ => hp⟩

/-! ### The words of the rows -/

section
variable {k : CoreId} {w : IWord} {s : State} {res : IWord → CoreSt → Writes × VecFlags} (hs : s.wf = true)
include hs

theorem exec_wrapping {row : WrappingRow} {f : Int → Int → Int} (hrow : IsWrapping row res f) :
    let v := withVec row.2.1 w
    let c := core s k
    let b := vBits v
    issues s k v = true → wordOps v = [0, 0, row.2.1, 0, 0, 0] → isInt (vFmt v) = true → vSat v = false →
    ∃ t x, exec (row.1 k w) s = .next t ∧ WordDone k s t { (core (noteResidue k v c s) k).setV (vVd v) x with pc := c.pc + 64 } [] ∧
      ∀ i, i < 4096 / b → laneOf b x i = if masked v c b i then (if vPmZero v then 0 else laneOf b (c.vreg (vVd v)) i)
        else row.2.2 b (laneOf b (c.vreg (vVa v)) i) (laneOf b (c.vreg (vVb v)) i) := by
  intro v c b hi hops hfmt hsat
  obtain ⟨ff, hmap⟩ := hrow.lanes v c
  obtain ⟨_, -, hlane⟩ := intLanes_wraps (f := f) (ff := ff) hfmt hsat
  rw [map3_noFlags fun x y z => by rw [hlane]] at hmap
  obtain ⟨t, he, hdone⟩ := exec_noFlags hrow.vector hs hi hops hmap
  refine ⟨t, _, he, hdone, fun i hin => ?_⟩
  rw [laneOf_mapped hin, ofNat_laneBits_intLanes hfmt hsat hrow.wraps]

theorem exec_compare {row : CompareRow} (hrow : IsCompare row res) :
    let v := withVec row.2.1 w
    let c := core s k
    let b := vBits v
    issues s k v = true → wordOps v = [0, 0, row.2.1, 0, 0, 0] → isSInt (vFmt v) = true → vPmEn v = false →
    ∃ t x, exec (row.1 k w) s = .next t ∧ WordDone k s t { c.setP (vPd v) x with pc := c.pc + 64 } [] ∧
      ∀ j, j < 512 → x.getLsbD j =
        row.2.2 (laneOf b (c.vreg (vVa v)) (8 * j / b)).toInt (laneOf b (c.vreg (vVb v)) (8 * j / b)).toInt := by
  intro v c b hi hops hfmt hmask
  obtain ⟨ff, hcmp⟩ := hrow.compares v c
  obtain ⟨x, hx, hbits⟩ := compare_signed (c := c) (fi := row.2.2) (ff := ff) hfmt hmask
  obtain ⟨t, he, hdone⟩ := exec_noFlags_unchecked hrow.vector hs hrow.unchecked hi hops (hcmp.trans hx)
  exact ⟨t, x, he, hdone, hbits⟩

theorem exec_predicateCount :
    let v := withVec 0x44 w
    let c := core s k
    issues s k v = true → wordOps v = [0, 0, 0x44, 0, 0, 0] → ∃ t, exec (.pcnt k w) s = .next t ∧ WordDone k s t
      { c.setS (vVd v) (BitVec.ofNat 64 ((List.range 512).countP fun i => (c.preg (vVa v % 8)).getLsbD i)) with pc := c.pc + 64 } [] := by
  intro v c hi hops
  rw [← length_bitsOf]
  exact exec_noFlags_unchecked isVector_pcnt hs rfl hi hops rfl

theorem exec_predicateFirst :
    let v := withVec 0x45 w
    let c := core s k
    issues s k v = true → wordOps v = [0, 0, 0x45, 0, 0, 0] →
    ∃ t n, exec (.pfirst k w) s = .next t ∧ WordDone k s t { c.setS (vVd v) (BitVec.ofNat 64 n) with pc := c.pc + 64 } [] ∧
      n ≤ 512 ∧ (∀ i, i < n → (c.preg (vVa v % 8)).getLsbD i = false) ∧ (n < 512 → (c.preg (vVa v % 8)).getLsbD n = true) := by
  intro v c hi hops
  obtain ⟨t, he, hdone⟩ := exec_noFlags_unchecked isVector_pfirst hs rfl hi hops rfl
  exact ⟨t, _, he, hdone, headD_filter_range (fun i => (c.preg (vVa v % 8)).getLsbD i) 512⟩

end

/-- Settles O37: the words by their rows, the accumulator elements by `cell_bytes`, the bank units by their operations. -/
theorem elementArithmetic : Obligations.ElementArithmetic := by
  refine ⟨fun k w s hs => ⟨fun row hrow => ?_, fun row hrow => ?_, fun row hrow => ?_, fun row hrow => ?_,
      exec_predicateCount hs, exec_predicateFirst hs⟩, cell_bytes, fun o a b ht =>
      ⟨fun hop hsat => ?_, fun hop hsat => ?_, fun hop hsat => ?_, buElem_relu a b 0 ht, buElem_clamp a b 0 ht⟩⟩
  · obtain ⟨_, _, hrow⟩ := isWrapping_of_mem hrow
    exact exec_wrapping hs hrow
  · obtain ⟨_, hrow⟩ := isWhole_of_mem hrow
    exact fun hi hops hmask => exec_noFlags_unchecked hrow.vector hs hrow.unchecked hi hops (hrow.whole _ _ hmask)
  · obtain ⟨_, hrow⟩ := isCompare_of_mem hrow
    exact exec_compare hs hrow
  · obtain ⟨_, hrow⟩ := isPredicate_of_mem hrow
    exact fun hi hops => exec_noFlags_unchecked hrow.vector hs hrow.unchecked hi hops (hrow.bitwise _ _)
  · rw [buElem_add a b 0 ht hop, hsat, int8Put_wraps, BitVec.ofInt_add, BitVec.ofInt_toInt, BitVec.ofInt_toInt]
  · rw [buElem_sub a b 0 ht hop, hsat, int8Put_wraps, ofInt_sub, BitVec.ofInt_toInt, BitVec.ofInt_toInt]
  · rw [buElem_add a b 0 ht hop, hsat, int8Put_clamps]

end Sys2Proof.Machine
end

section
/-! SUPPORT. The rows of the vector table (R284 to R304, R333 to R338): each computes its results and flags from the registers of its
core. -/

namespace Sys2Proof.Machine

/-- A row of the vector table: the command, its opcode, and its results and flags from the registers. -/
abbrev VectorRow := (CoreId → IWord → Instr) × Nat × (IWord → CoreSt → Writes × VecFlags)

/-- A word of such a row, whose only operation it is, does what its row says. -/
theorem exec_vectorRow {row : VectorRow} (hrow : IsVector row.1 row.2.1 row.2.2) {k : CoreId} {w : IWord} {s : State} (hs : s.wf = true) :
    let v := withVec row.2.1 w
    let c := core s k
    let c1 := core (noteResidue k v c s) k
    issues s k v = true → wordOps v = [0, 0, row.2.1, 0, 0, 0] →
    ∃ t, exec (row.1 k w) s = .next t ∧ WordDone k s t { c1.apply (row.2.2 v c).1 with pc := c.pc + 64 } [Reg.vecStatus k] ∧
      (residueOp v = false → c1 = c) ∧
      t.rd (Reg.vecStatus k) = s.rd (Reg.vecStatus k) ||| (row.2.2 v c).2.word := by
  intro v c c1 hi hops
  obtain ⟨hw, hop⟩ := onlyVec_of_wordOps hops
  obtain ⟨t, he, hdone, hflags⟩ := exec_vector (hrow.word k w) hs hi hw (by rw [hop]; exact hrow.onRegs) fun u => hrow.result v c u hop
  exact ⟨t, he, hdone, fun h => congrArg (core · k) (noteResidue_of_not_residueOp h), hflags⟩

/-- Settles O33: each row of the table is a vector operation on registers, and such a word writes its results and sets its flags. -/
theorem vectorOperations : Obligations.VectorOperations := by
  intro k w s hs row hrow
  refine exec_vectorRow ?_ hs
  fin_cases hrow <;> exact {}

end Sys2Proof.Machine
end

section
/-! SUPPORT. Gathers and scatters (R305 to R308): a word whose only operation is one of them, and the bytes that the lanes of a scatter
leave. -/

namespace Sys2Proof.Machine

/-! ### Bytes of a run of writes -/

/-- Bytes that have each kept their value. -/
theorem State.bytes_of_byte {s t : State} {a n : Nat} (h : ∀ x, a ≤ x → x < a + n → t.byte x = s.byte x) :
    t.bytes a n = s.bytes a n := by
  simp only [State.bytes, State.byte] at h ⊢
  induction n generalizing a with
  | zero => rfl
  | succ n ih =>
    rw [Memory.reads, Memory.reads, h a (Nat.le_refl a) (by omega), ih fun x hx hn => h x (by omega) (by omega)]

/-- Write the data of some numbered addresses, one after another. -/
def putAll (d : Nat → List Byte) (l : List (Nat × Nat)) (s : State) : State := l.foldl (fun s x => s.putBytes x.2 (d x.1)) s

section
variable {d : Nat → List Byte} {e : Nat} (hd : ∀ i, (d i).length = e) {l : List (Nat × Nat)} {s : State} (hs : s.wf = true)
include hd hs

/-- A byte outside every range keeps its value. -/
theorem putAll_byte {a : Nat} (h : ∀ x ∈ l, a < x.2 ∨ x.2 + e ≤ a) : (putAll d l s).byte a = s.byte a :=
  (foldl_keepsByte (fun x hx t => (putBytes_changesOnlyBytes t x.2 (d x.1)).keepsByte (by rw [hd]; exact h x hx)) s hs).2

/-- Of rising numbers, one whose range no higher one writes leaves its data (R307). -/
theorem putAll_bytes (hl : l.Pairwise fun x y => x.1 < y.1) {x : Nat × Nat} (hx : x ∈ l)
    (h : ∀ y ∈ l, x.1 < y.1 → y.2 + e ≤ x.2 ∨ x.2 + e ≤ y.2) : (putAll d l s).bytes x.2 e = d x.1 := by
  induction l generalizing s with
  | nil => exact absurd hx List.not_mem_nil
  | cons z l ih =>
    obtain ⟨hlow, hl⟩ := List.pairwise_cons.mp hl
    have hput : (s.putBytes z.2 (d z.1)).wf = true := State.putBytes_within.wf hs
    rcases List.mem_cons.mp hx with rfl | hx
    · have hlater : (putAll d l (s.putBytes x.2 (d x.1))).bytes x.2 e = (s.putBytes x.2 (d x.1)).bytes x.2 e :=
        State.bytes_of_byte fun a ha hae => putAll_byte hd hput fun y hy => by
          have := h y (List.mem_cons_of_mem x hy) (hlow y hy)
          omega
      have hown : (s.putBytes x.2 (d x.1)).bytes x.2 e = d x.1 := by rw [← hd x.1, State.bytes_putBytes hs]
      exact hlater.trans hown
    · exact ih hput hl hx fun y hy => h y (List.mem_cons_of_mem z hy)

end

/-! ### The lanes of a scatter -/

/-- Lanes take part in ascending order. -/
theorem gatherLanes_pairwise (v : IWord) (c : CoreSt) : (gatherLanes v c).Pairwise fun x y => x.1 < y.1 := by
  have hnumbers (l : List Nat) : l.zipIdx.Pairwise fun x y => x.2 < y.2 := by
    rw [← List.pairwise_map (f := Prod.snd) (R := (· < ·)), List.zipIdx_map_snd]
    exact List.pairwise_lt_range'
  exact List.pairwise_map.mpr ((hnumbers _).filter _)

/-- The bytes of a lane of V[vb]. -/
def scatterData (v : IWord) (c : CoreSt) (i : Nat) : List Byte :=
  natLe (vBits v / 8) ((lanes (vBits v) (c.vreg (vVb v))).getD i 0)

theorem scatterData_length (v : IWord) (c : CoreSt) (i : Nat) : (scatterData v c i).length = vBits v / 8 := natLe_length _ _

theorem vecScat_eq (v : IWord) (c : CoreSt) (s : State) : vecScat v c s = putAll (scatterData v c) (gatherLanes v c) s := by
  simp [vecScat, putAll, scatterData]

/-! ### The effects of the vector field -/

/-- A gather or scatter is counted, with the time that its banks take (R308). -/
def gatherCounted (k : CoreId) (v : IWord) (c : CoreSt) (s : State) : State :=
  (flagsSet k .none s).satAdd (Reg.vecGathWait k) (gatherWait v c)

section
variable {k : CoreId} {v : IWord} {c : CoreSt} {s t stay : State}

theorem gatherCounted_within : Within 8 s (gatherCounted k v c s) :=
  Within.step State.satAdd_within (by decide) flagsSet_within

theorem gatherCounted_onlyCore (hs : s.wf = true) :
    OnlyCore k s (gatherCounted k v c s) (core s k) [Reg.vecStatus k, Reg.vecGathWait k] := by
  have hflags := flagsSet_onlyCore (k := k) hs .none
  have hwait : OnlyCore k (flagsSet k .none s) (gatherCounted k v c s) (core s k) [Reg.vecGathWait k] :=
    ⟨hflags.1, fun _ _ => rfl, fun _ _ hx => State.rd_wr_ne (State.wf_regs (flagsSet_within.wf hs)) (by simpa using hx),
      State.satAdd_within.same_of_not_mem (by decide)⟩
  exact hflags.trans hwait

theorem vecEffect_gather (h : vecOp v = 0x90) : vecEffect k v c s = ((vecGath v c s).1, gatherCounted k v c s) := by
  have hun : residueOp v = false := residueOp_of_unchecked (by rw [h]; rfl)
  simp [vecEffect, vecResult, h, isGather, noteResidue_of_not_residueOp hun, gatherCounted, flagsSet, vecGath]

theorem vecEffect_scatter (h : vecOp v = 0x91) : vecEffect k v c s = (.none, vecScat v c (gatherCounted k v c s)) := by
  have hun : residueOp v = false := residueOp_of_unchecked (by rw [h]; rfl)
  simp [vecEffect, vecResult, h, isGather, noteResidue_of_not_residueOp hun, gatherCounted, flagsSet]

theorem wordEffect_lanes (hw : OnlyVec v) (hin : gatherOutside k v (core s k) s = none) {vw : Writes}
    (h : vecEffect k v (core s k) s = (vw, t)) :
    wordEffect k v stay s = .next (finishWord k v (core s k) (vecOnly vw) false t) := by
  simp [wordEffect, scaSys, scaWrites, adrEffect, arrOutside, arrEffect, tqEffect, hw.sca, hw.adr, hw.arr, hw.tq, hin, h]

/-- A word whose lanes are within contract ends with what its vector field leaves. -/
theorem exec_lanes {cmd : Instr} (hc : wordOf cmd = some (k, v)) (hi : issues s k v = true) (hw : OnlyVec v)
    (hin : gatherOutside k v (core s k) (entryState k v s) = none) {vw : Writes}
    (h : vecEffect k v (core s k) (syncDue k s) = (vw, t)) : exec cmd s = .next (wordEnd k v (vecOnly vw) s t) := by
  have hentry : entryState k v s = syncDue k s := by rw [entryState, arrived_of_noAccess (by rw [hw.adr]; rfl)]
  rw [hentry, ← syncDue_core k] at hin
  rw [← syncDue_core k] at h
  refine exec_word_next hc (kept_of_issues hi) ((issueWord_of_issues hi).trans ?_)
  rw [hentry, wordEffect_lanes hw hin h, syncDue_core, wordEnd]

/-- R305, R306: a gather leaves its register, VEC_STATUS and VEC_GATH_WAIT. -/
theorem exec_gather {cmd : Instr} (hc : wordOf cmd = some (k, v)) (hs : s.wf = true) (hi : issues s k v = true) (hw : OnlyVec v)
    (hop : vecOp v = 0x90) (hin : gatherOutside k v (core s k) (entryState k v s) = none) :
    ∃ t, exec cmd s = .next t ∧ WordDone k s t { (core s k).apply (vecGath v (core s k) s).1 with pc := (core s k).pc + 64 }
      [Reg.vecStatus k, Reg.vecGathWait k] := by
  have hswf : (syncDue k s).wf = true := syncDue_within.wf hs
  have hread (a n : Nat) : (syncDue k s).bytes a n = s.bytes a n :=
    State.bytes_of_mem (syncDue_within.mem rfl) (syncDue_within.memGen rfl) a n
  have hgath : vecGath v (core s k) (syncDue k s) = vecGath v (core s k) s := by simp only [vecGath, hread]
  have hleft := (syncDue_onlyCore hs k).trans (gatherCounted_onlyCore (v := v) (c := core s k) hswf)
  rw [syncDue_core] at hleft
  refine ⟨_, exec_lanes hc hi hw hin (vecEffect_gather hop), ?_⟩
  rw [hgath]
  exact wordEnd_wordDone (gatherCounted_within.wf hswf) hleft hw.br (wait_of_mayIssue (mayIssue_of_issues hi)) rfl rfl

/-- The state once the lanes of a scatter are written. -/
def scattered (k : CoreId) (v : IWord) (s : State) : State :=
  vecScat v (core s k) (gatherCounted k v (core s k) (syncDue k s))

theorem gatherCounted_syncDue_within : Within 2097160 s (gatherCounted k v c (syncDue k s)) :=
  Within.step gatherCounted_within (by decide) syncDue_within

theorem scattered_within : Within 2097192 s (scattered k v s) :=
  Within.step vecScat_within (by decide) (Within.step gatherCounted_syncDue_within (by decide) (Within.refl _ _))

theorem core_scattered (j : Nat) : core (scattered k v s) j = core s j := core_of_cores (scattered_within.cores rfl) j

theorem scattered_byte (hs : s.wf = true) {a : Nat} (h : ∀ x ∈ gatherLanes v (core s k), a < x.2 ∨ x.2 + vBits v / 8 ≤ a) :
    (scattered k v s).byte a = s.byte a := by
  have hcounted : Within 2097160 s (gatherCounted k v (core s k) (syncDue k s)) := gatherCounted_syncDue_within
  rw [scattered, vecScat_eq, putAll_byte (scatterData_length v _) (hcounted.wf hs) h, State.byte, hcounted.mem rfl, hcounted.memGen rfl,
    State.byte]

theorem scattered_bytes (hs : s.wf = true) {x : Nat × Nat} (hx : x ∈ gatherLanes v (core s k))
    (h : ∀ y ∈ gatherLanes v (core s k), x.1 < y.1 → y.2 + vBits v / 8 ≤ x.2 ∨ x.2 + vBits v / 8 ≤ y.2) :
    (scattered k v s).bytes x.2 (vBits v / 8) = scatterData v (core s k) x.1 := by
  rw [scattered, vecScat_eq]
  exact putAll_bytes (scatterData_length v _) (gatherCounted_syncDue_within.wf hs) (gatherLanes_pairwise v _) hx h

/-- R307: a scatter leaves the bytes of its lanes, and changes no register of its core. -/
theorem exec_scatter {cmd : Instr} (hc : wordOf cmd = some (k, v)) (hs : s.wf = true) (hi : issues s k v = true) (hw : OnlyVec v)
    (hop : vecOp v = 0x91) (hin : gatherOutside k v (core s k) (entryState k v s) = none) :
    ∃ t, exec cmd s = .next t ∧ core t k = { core s k with pc := (core s k).pc + 64 } ∧ (∀ j : CoreId, j ≠ k → core t j = core s j) ∧
      (∀ p : Part, p ∉ [.regs, .cores, .trace, .mem] → p.same s t) ∧
      t.mem = (scattered k v s).mem ∧ t.memGen = (scattered k v s).memGen := by
  have hwait : (core (scattered k v s) k).wait = .none := by rw [core_scattered, wait_of_mayIssue (mayIssue_of_issues hi)]
  obtain ⟨hcore, hothers, -, hparts⟩ := wordEnd_onlyCore (ws := vecOnly .none) (s := s) (scattered_within.wf hs) hwait hw.br
  have hkept (p : Part) (hp : p ∉ [.regs, .cores, .trace, .mem]) : p.same s (scattered k v s) :=
    scattered_within.same_of_not_mem (l := [.regs, .cores, .trace, .mem]) (by decide) p hp
  refine ⟨_, exec_lanes hc hi hw hin (vecEffect_scatter hop), ?_, fun j hj => ?_, fun p hp => ?_, hparts .mem (by decide),
    hparts .memGen (by decide)⟩
  · exact hcore.trans (by rw [core_scattered]; rfl)
  · exact (hothers j hj).trans (core_scattered j)
  · exact p.same_trans (hkept p hp)
      (hparts p fun h => hp ((by decide : [Part.regs, .cores, .trace] ⊆ [.regs, .cores, .trace, .mem]) h))

end

/-- Settles O34: the word of a gather by `exec_gather`, that of a scatter by `exec_scatter` and the bytes that its lanes leave. -/
theorem gatherAndScatter : Obligations.GatherAndScatter := by
  refine fun k w s hs => ⟨?_, ?_⟩
  · intro v c hi hops hin
    obtain ⟨hw, hop⟩ := onlyVec_of_wordOps hops
    exact exec_gather (cmd := .vgath k w) rfl hs hi hw hop hin
  · intro v c e hi hops hin
    obtain ⟨hw, hop⟩ := onlyVec_of_wordOps hops
    obtain ⟨t, he, hcore, hothers, hparts, hmem, hgen⟩ := exec_scatter (cmd := .vscat k w) rfl hs hi hw hop hin
    refine ⟨t, he, hcore, hothers, hparts, fun a ha => ?_, fun x hx h => ?_⟩
    · rw [State.byte, hmem, hgen]
      exact scattered_byte hs ha
    · rw [State.bytes_of_mem hmem hgen]
      exact scattered_bytes hs hx h

end Sys2Proof.Machine
end

section
/-! SUPPORT. Sparse jobs (R346 to R353, R363): which job a command runs, where its pair list lies, and what its end leaves. -/

namespace Sys2Proof.Machine

/-! ### The pair list (R350 to R352) -/

/-- Pairs for `n` groups make at most `n` groups of 256 bytes. -/
theorem groupBytes_length_le {l : List (Nat × Nat)} {n : Nat} (h : l.length ≤ 32 * n) : (groupBytes l).length ≤ 256 * n := by
  have hpair : (l.flatMap fun p => natLe 4 p.1 ++ natLe 4 p.2).length = 8 * l.length := by
    simp [List.length_flatMap, natLe_length, Nat.mul_comm]
  have hpad : (ffs (8 * (32 * groupsOf l.length - l.length))).length = 8 * (32 * groupsOf l.length - l.length) := by simp [ffs]
  rw [groupBytes, List.length_append, hpair, hpad, groupsOf]
  omega

/-- The groups of all offsets lie within the capacity of the list. -/
theorem writeGroups_changesOnlyBytes {base cap g : Nat} (ls : List (List (Nat × Nat))) (hit : Bool) (s : State) (hg : g ≤ cap) :
    ChangesOnlyBytes base (256 * cap) s (writeGroups base cap ls g hit s).2.2.2 := by
  induction ls generalizing g hit s with
  | nil => exact (Within.refl 0 s).changesOnlyBytes
  | cons l ls ih =>
    rw [writeGroups]
    generalize hn : (if hit then 0 else min (groupsOf l.length) (cap - g)) = n
    have hroom : g + n ≤ cap := by
      split at hn <;> omega
    have hlen : (groupBytes (l.take (32 * n))).length ≤ 256 * n := groupBytes_length_le (List.length_take_le _ _)
    exact ((putEngine_changesOnlyBytes _ _ s).widen (by omega) (by omega)).trans (ih _ _ hroom)

/-- A matching job changes no byte outside its pair list. -/
theorem runMatch_changesOnlyBytes (k : Nat) (j : List Byte) (f : State → List Byte → Int × Int × Int → List (Nat × Nat)) (s : State) :
    ChangesOnlyBytes (leAt j 0x28 8) (256 * leAt j 4 4) s (runMatch k j f s).2 := by
  have hlist := writeGroups_changesOnlyBytes (base := leAt j 0x28 8) (((List.range (jobOffs j)).map (jobOffset s j)).map (f s j))
    false s (Nat.zero_le (leAt j 4 4))
  have hcount (n : Nat) (u : State) : ChangesOnlyBytes (leAt j 0x28 8) (256 * leAt j 4 4) u (countPairs k n u) :=
    countPairs_within.changesOnlyBytes
  unfold runMatch
  dsimp only
  split
  · exact (hlist.trans (hcount _ _)).trans State.putB_within.changesOnlyBytes
  · exact hlist.trans (hcount _ _)

section
variable {k : CoreId} {s : State} {i : Nat} {d : Dma} {j : List Byte}

/-! ### The job that a command runs (R346, R349, R365 to R367) -/

section
variable {kind : Nat} {f : List Byte → State → (Nat × Bool × Nat × List (Nat × Nat)) × State}
  (ho : oldestJob s k = some (i, d, j)) (hc : s.cclk = true) (hst : coreState s k = 1) (hran : d.ran = none) (hl : d.lost = false)
  (hkind : jobKind j = kind)
include ho hc hst hran hl hkind

theorem runJob_next (hin : jobOutside k j s = none) : runJob kind k f s = .next (markRan k i (f j s).1 (f j s).2) := by
  simp [runJob, onlyIfR, ho, hc, hst, hran, hl, hkind, hin]

theorem runJob_outside {r : Nat} (hout : jobOutside k j s = some r) : runJob kind k f s = .outside r := by
  simp [runJob, onlyIfR, oc, ho, hc, hst, hran, hl, hkind, hout]

end

/-! ### The end of a job (R351, R353, R363) -/

/-- Job number i is no longer the core's, and SPARSE_STATUS says whether another is. -/
def jobRemoved (k : CoreId) (i : Nat) (s : State) : State :=
  (dmaRemoved k i s).putB (Reg.sparseStatus k) 0 ((core (dmaRemoved k i s) k).dma.any fun x => x.job.isSome)

theorem jobRemoved_within : Within 8200 s (jobRemoved k i s) :=
  Within.step State.putB_within (by decide) (Within.step setCore_within (by decide) (Within.refl _ _))

theorem jobRemoved_dma (hs : s.wf = true) : (core (jobRemoved k i s) k).dma = (core s k).dma.eraseIdx i := by
  obtain ⟨hcore, -⟩ := core_dmaRemoved hs rfl k i
  exact congrArg CoreSt.dma hcore

theorem rd_jobRemoved (hs : s.wf = true) : (jobRemoved k i s).rd (Reg.sparseJobs k) = s.rd (Reg.sparseJobs k) :=
  State.rd_putB_ne (State.wf_regs (s := s) hs) (by simp only [Reg.sparseJobs, Reg.sparseStatus]; omega)

/-- The count table of a matching job has been written, and the job counted. -/
def jobCounted (k : CoreId) (j : List Byte) (x : Nat × Bool × Nat × List (Nat × Nat)) (s : State) : State :=
  State.sat (if jobKind j == 1 || jobKind j == 2 then putEngine (leAt j 0x30 8) (countTable x) s else s) (Reg.sparseJobs k)

theorem jobCounted_within {x} : Within 134217768 s (jobCounted k j x s) :=
  Within.step State.sat_within (by decide)
    (Within.ite (Within.step putEngine_within (by decide) (Within.refl _ _)) (Within.refl _ _))

theorem rd_jobCounted {x} (hs : s.wf = true) :
    ((jobCounted k j x s).rd (Reg.sparseJobs k)).toNat = min ((s.rd (Reg.sparseJobs k)).toNat + 1) 0xFFFFFFFF := by
  have htable : Within 134217760 s (if jobKind j == 1 || jobKind j == 2 then putEngine (leAt j 0x30 8) (countTable x) s else s) :=
    Within.ite putEngine_within (Within.refl _ _)
  rw [jobCounted, State.sat, State.satAdd, State.rd_wrN_toNat (State.wf_regs (htable.wf hs)) (by omega),
    State.rd_of_regs (htable.regs rfl)]

theorem jobCounted_mem_of_match {x} (h : jobKind j = 1 ∨ jobKind j = 2) :
    (jobCounted k j x s).mem = (s.putBytes (leAt j 0x30 8) (countTable x)).mem := by
  have hguard : Within 134217728 s (engineGuard [] (leAt j 0x30 8) (countTable x).length s) := engineGuard_within
  have hkind : (jobKind j == 1 || jobKind j == 2) = true := by simpa using h
  rw [jobCounted, if_pos hkind, State.sat_mem, putEngine, State.putBytes_mem, State.putBytes_mem, hguard.mem rfl, hguard.memGen rfl]

theorem jobCounted_mem_of_nzmap {x} (h : jobKind j = 3) : (jobCounted k j x s).mem = s.mem := by
  rw [jobCounted, if_neg (by simp [h]), State.sat_mem]

section
variable (hq : 1024 ≤ d.cmplQ)
include hq

theorem endJob_of_ran {x} (hran : d.ran = some x) (hl : d.lost = false) : endJob k i d j s = jobRemoved k i (jobCounted k j x s) := by
  have hnoq : ¬d.cmplQ < 1024 := by omega
  simp only [endJob, dmaCommit, hran, hl, hnoq, Bool.not_false, Bool.and_true, if_false, Bool.false_eq_true]
  rfl

theorem endJob_of_lost (hl : d.lost = true) : endJob k i d j s = jobRemoved k i s := by
  have hnoq : ¬d.cmplQ < 1024 := by omega
  cases hran : d.ran <;>
    simp only [endJob, dmaCommit, hran, hl, hnoq, Bool.not_true, Bool.and_false, if_false, if_true, Bool.false_eq_true] <;> rfl

/-- A job that has run, or that a drain abandoned, ends (R353, R363). -/
theorem execSparseJobComplete_ends (ho : oldestJob s k = some (i, d, j)) (hc : s.cclk = true)
    (h : (d.lost || d.ran.isSome) = true) : execSparseJobComplete k s = .next (endJob k i d j s) := by
  have hwhen : (s.cclk && (d.lost || d.ran.isSome || jobKind j == 0 || 3 < jobKind j)) = true := by simp [hc, h]
  simp only [execSparseJobComplete, ho, onlyIfR, hwhen, if_true, commitRange_of_noQueue hq, engAccess_goes (s := s) (rs := []) rfl]
  rfl

end

/-- A job of a known kind that has not run, and that no drain abandoned, does not end. -/
theorem execSparseJobComplete_waits (ho : oldestJob s k = some (i, d, j)) (hran : d.ran = none) (hl : d.lost = false)
    (h1 : 1 ≤ jobKind j) (h3 : jobKind j ≤ 3) : execSparseJobComplete k s = .next s := by
  have h0 : jobKind j ≠ 0 := by omega
  have h4 : ¬3 < jobKind j := by omega
  simp [execSparseJobComplete, ho, onlyIfR, hran, hl, h0, h4]

end

/-- Settles O42: the commands that run a job by `runJob`, its end by `jobCounted` and `jobRemoved`. -/
theorem sparseJobs : Obligations.SparseJobs := by
  intro k s i d j hk hs hc ho
  refine ⟨fun hst hran hl hin => ⟨fun row hrow hkind => ?_, fun hkind => ?_⟩, fun hst hran hl r hout row hrow hkind => ?_,
    fun x hran hl hq => ?_, fun hl hq => ?_, fun hran hl h1 h3 => ?_⟩
  · refine ⟨?_, (runMatch_changesOnlyBytes k j row.2.2 s hs).2⟩
    simp only [List.mem_cons, List.not_mem_nil, or_false] at hrow
    rcases hrow with rfl | rfl <;> exact inContract_next hk (runJob_next ho hc hst hran hl hkind hin)
  · exact inContract_next hk (runJob_next ho hc hst hran hl hkind hin)
  · simp only [List.mem_cons, List.not_mem_nil, or_false] at hrow
    rcases hrow with rfl | rfl | rfl <;> exact inContract_leave hk (runJob_outside ho hc hst hran hl hkind hout)
  · have hcounted : (jobCounted k j x s).wf = true := jobCounted_within.wf hs
    refine ⟨jobRemoved k i (jobCounted k j x s), ?_, ?_, ?_, fun hkind => ?_, fun hkind => ?_⟩
    · rw [← endJob_of_ran hq hran hl]
      exact inContract_next hk (execSparseJobComplete_ends hq ho hc (by simp [hran]))
    · rw [jobRemoved_dma hcounted, core_of_cores (jobCounted_within.cores rfl)]
    · rw [rd_jobRemoved hcounted, rd_jobCounted hs]
    · exact (jobRemoved_within.mem rfl).trans (jobCounted_mem_of_match hkind)
    · exact (jobRemoved_within.mem rfl).trans (jobCounted_mem_of_nzmap hkind)
  · have hkept : (jobRemoved k i s).Kept := kept_of_contract (jobRemoved_within.contract rfl) hk
    refine ⟨jobRemoved k i s, inContract_kept hk hkept ?_, jobRemoved_dma hs, jobRemoved_within.mem rfl, rd_jobRemoved hs⟩
    rw [← endJob_of_lost hq hl]
    exact execSparseJobComplete_ends hq ho hc (by simp [hl])
  · exact inContract_kept hk hk (execSparseJobComplete_waits ho hran hl h1 h3)

end Sys2Proof.Machine
end

section
/-! SUPPORT. The channels of companion memory (R386 to R391): what a channel holds, and its registers show, after the operations of its
command queue. -/

namespace Sys2Proof.Machine

/-! ### The channels of a state -/

theorem State.wf_chans {s : State} (w : s.wf = true) : Tab.wf (fun _ => Chan.idle) s.chans = true := by
  simp only [State.wf, Bool.and_eq_true] at w
  exact w.1.2

theorem chan_setChan_same {s : State} (w : s.wf = true) (c : Nat) (x : Chan) : chan (setChan s c x) c = x :=
  Tab.get_set_same c x (State.wf_chans w)

theorem chan_of_chans {s t : State} (h : t.chans = s.chans) (c : Nat) : chan t c = chan s c := by rw [chan, h, chan]

section
variable (x : Chan) (p : Nat) (f : PortCount → PortCount)

@[simp] theorem mapPort_waiting : (mapPort x p f).waiting = x.waiting := rfl
@[simp] theorem mapPort_accq : (mapPort x p f).accq = x.accq := rfl
@[simp] theorem mapPort_running : (mapPort x p f).running = x.running := rfl

end

section
variable (x : Chan) (o : Nat) (bs : List Byte)

/-- Staging bytes changes what is staged only. -/
theorem stageBytes_lists : (stageBytes x o bs).waiting = x.waiting ∧ (stageBytes x o bs).accq = x.accq ∧
    (stageBytes x o bs).running = x.running := by
  induction bs generalizing x o with
  | nil => exact ⟨rfl, rfl, rfl⟩
  | cons b bs ih =>
    obtain ⟨hwaiting, haccq, hrunning⟩ := ih (if o < 0x20000 ∧ o % 0x1000 < 0x800 then
      { x with staging := Tab.set (fun _ => 0) x.staging o b } else x) (o + 1)
    rw [stageBytes, hwaiting, haccq, hrunning]
    split <;> exact ⟨rfl, rfl, rfl⟩

end

/-! ### Counters -/

/-- A saturating counter counts up to all ones. -/
theorem State.rd_sat_toNat {s : State} (w : RegsOk s) (a : Nat) : ((s.sat a).rd a).toNat = min ((s.rd a).toNat + 1) 0xFFFFFFFF :=
  State.rd_wrN_toNat w (by omega)

theorem sat_only {a : Nat} {s : State} : ChangesOnlyRegs (· == a) s (s.sat a) := wr_changesOnlyRegs (by simp)

/-! ### The operations of a command queue (R387, R391, R396) -/

section
variable {s : State} (c : Nat)

theorem memSync_only : ChangesOnlyRegs (· == Reg.memQueue c) s (memSync c s) := wr_changesOnlyRegs (by simp)

theorem chan_memSync (c' : Nat) : chan (memSync c s) c' = chan s c' := chan_of_chans (memSync_within.chans rfl) c'

theorem buCount_only (m : BuCmd) : ChangesOnlyRegs (· == Reg.memCmdDone c) s (buCount c m s) :=
  ChangesOnlyRegs.trans (.of_regs (by rfl)) sat_only

variable (hs : s.wf = true)
include hs

/-- A completed command is counted at its port. -/
theorem chan_buCount (m : BuCmd) :
    chan (buCount c m s) c = mapPort (chan s c) m.port fun p => { p with completed := p.completed + 1 } :=
  (chan_of_chans (State.sat_within.chans rfl) c).trans (chan_setChan_same hs c _)

theorem rd_buCount (m : BuCmd) :
    ((buCount c m s).rd (Reg.memCmdDone c)).toNat = min ((s.rd (Reg.memCmdDone c)).toNat + 1) 0xFFFFFFFF :=
  State.rd_sat_toNat (State.wf_regs (setChan_within.wf hs)) _

/-- R387: a refused command changes no queue of its channel; it is counted, and noted in MEM_STATUS. -/
theorem refuseCmd_shows (p : Nat) :
    chan (refuseCmd c p s) c = mapPort (chan s c) p (fun x => { x with refused := x.refused + 1 }) ∧
    (refuseCmd c p s).bit (Reg.memStatus c) 5 = true ∧
    ((refuseCmd c p s).rd (Reg.memCmdRefused c)).toNat = min ((s.rd (Reg.memCmdRefused c)).toNat + 1) 0xFFFFFFFF := by
  have hset {x : Chan} : RegsOk (setChan s c x) := State.wf_regs (setChan_within.wf hs)
  refine ⟨(chan_of_chans rfl c).trans (chan_setChan_same hs c _), State.bit_putB_same (sat_only.regsOk hset) (by decide), ?_⟩
  rw [refuseCmd, putB_only.rd_ne (sat_only.regsOk hset) (by simp only [Reg.memCmdRefused, Reg.memStatus]; omega)]
  exact State.rd_sat_toNat hset _

end

/-! ### The write of the last word of a slot (R386) -/

section
variable {c o : Nat} {s : State}

theorem chanRefuses_congr {t : State} (hr : t.regs = s.regs) (hp : t.pins = s.pins) (hh : t.hold = s.hold) (c : Nat) :
    chanRefuses t c = chanRefuses s c := by
  rw [chanRefuses, chanRefuses, chanState, State.fld_of_rd (State.rd_of_regs hr _), hp, State.inHold, hh]
  rfl

/-- A command that its channel does not refuse waits to be accepted. -/
theorem chan_submit (hs : s.wf = true) (p : Nat) (cmd : BitVec 256) (h : chanRefuses s c = false) :
    chan (submit c p cmd s) c = { chan s c with waiting := (chan s c).waiting ++ [⟨cmd, p⟩] } := by
  have hset := chan_setChan_same hs c { chan s c with waiting := (chan s c).waiting ++ [⟨cmd, p⟩] }
  rw [submit, if_neg (by simp [h])]
  dsimp only
  split
  · exact (chan_of_chans (meterAdd_within.chans rfl) c).trans hset
  · exact hset

theorem submit_of_refuses {p : Nat} {cmd : BitVec 256} (h : chanRefuses s c = true) : submit c p cmd s = refuseCmd c p s := if_pos h

/-- A write of eight bytes at the last word of a slot covers that word and no other. -/
theorem coveredWords_slotEnd (h32 : o % 32 = 0x18) (hlt : o < 0x20000) (hslot : o % 0x1000 < 0x800) : coveredWords o 8 = [o] := by
  have h0 : o / 32 * 32 + 0x18 = o := by omega
  have hrange : List.range (8 / 32 + 2) = [0, 1] := rfl
  simp only [coveredWords, hrange, List.map_cons, List.map_nil, Nat.add_zero, h0]
  rw [List.filter_cons_of_pos (by simp [hlt, hslot]), List.filter_cons_of_neg (by rw [decide_eq_true_iff]; omega), List.filter_nil]

/-- A write that stays in the window of channel c. -/
theorem winWrite_of_chan {bs : List Byte} (h : o + bs.length ≤ 0x100000) (hpos : 0 < bs.length) :
    winWrite (winBase + c * 0x100000 + o) bs s = winWriteChan c o bs s := by
  have ho : winBase + c * 0x100000 + o - winBase = c * 0x100000 + o := by omega
  have hc : (c * 0x100000 + o) / 0x100000 = c := by omega
  have hmod : (c * 0x100000 + o) % 0x100000 = o := by omega
  have hroom : bs.length ≤ (c + 1) * 0x100000 - (c * 0x100000 + o) := by omega
  simp only [winWrite, ho, hc, hmod, List.take_of_length_le hroom, if_neg (Nat.not_lt.mpr hroom)]

/-- R386: the write of the last word of a slot submits the command that its slot then holds. -/
theorem winWriteChan_slotEnd {bs : List Byte} (hav : chanAvail s c = true) (h8 : bs.length = 8) (h32 : o % 32 = 0x18)
    (hlt : o < 0x20000) (hslot : o % 0x1000 < 0x800) (hs : s.wf = true) :
    winWriteChan c o bs s = submit c (o / 0x1000)
      (BitVec.ofNat 256 (leNat (slotBytes (stageBytes (chan s c) o bs) (o - 0x18)))) (setChan s c (stageBytes (chan s c) o bs)) := by
  simp [winWriteChan, hav, h8, coveredWords_slotEnd h32 hlt hslot, chan_setChan_same hs]

end

end Sys2Proof.Machine
end

section
/-! SUPPORT. The effects of bank-unit commands on memory (R390 to R396): each writes the granules of its destination at most. -/

namespace Sys2Proof.Machine

/-! ### Granules -/

theorem poisonRange_changesOnlyBytes (a m : Nat) (s : State) : ChangesOnlyBytes a (8 * m) s (poisonRange a (8 * m) s) := by
  have hword (l : List Nat) (hl : ∀ i ∈ l, i < m) (t : State) : ChangesOnlyBytes a (8 * m) t
      (l.foldl (fun s i => setHealth (s.putBytes (a + 8 * i) (ffs 8)) (a / 8 + i) .poisoned) t) := by
    induction l generalizing t with
    | nil => exact (Within.refl 0 t).changesOnlyBytes
    | cons i l ih =>
      have hi : i < m := hl i (List.mem_cons_self ..)
      have hput : ChangesOnlyBytes (a + 8 * i) 8 t (t.putBytes (a + 8 * i) (ffs 8)) := putBytes_changesOnlyBytes t _ (ffs 8)
      exact ((hput.widen (by omega) (by omega)).trans setHealth_within.changesOnlyBytes).trans
        (ih (fun j hj => hl j (List.mem_cons_of_mem i hj)) _)
  have hm : 8 * m / 8 = m := by omega
  rw [poisonRange, hm]
  exact hword _ (fun i hi => List.mem_range.mp hi) s

/-- A destination granule takes at most its 256 bytes (R390, R393). -/
theorem granWrite_changesOnlyBytes {d : Nat} {bad : Bool} {bs : List Byte} (h : bs.length ≤ 256) (s : State) :
    ChangesOnlyBytes d 256 s (granWrite d bad bs s) := by
  unfold granWrite
  split
  · exact poisonRange_changesOnlyBytes d 32 s
  · exact countUnavail_within.changesOnlyBytes.trans ((compWriteWords_changesOnlyBytes _ d bs _).widen (Nat.le_refl d) (by omega))

theorem devRead_length_le (a n : Nat) (s : State) : (devRead a n s).1.length ≤ n := by
  unfold devRead
  split
  · exact List.length_take_le _ _
  · split
    · simp [winRead]
    · exact (reads_length _ _ a n).le

/-- The bytes read of each granule are at most 256. -/
theorem granRead_getD_length_le (l : List Nat) (i : Nat) (s : State) : ((granRead s l).1.getD i []).length ≤ 256 := by
  induction l generalizing i s with
  | nil => simp [granRead]
  | cons a l ih =>
    cases i with
    | zero => exact devRead_length_le a 256 s
    | succ i => exact ih i _

/-- The elements of a granule fill it at most. -/
theorem buGran_length_le (o : BuOp) (a b c : List Byte) : (buGran o a b c).length ≤ 256 := by
  have hmul : 256 / (elemBits o.type / 8) * (elemBits o.type / 8) ≤ 256 := Nat.div_mul_le_self _ _
  simpa [buGran, granElems, List.length_flatMap, natLe_length, Function.comp_def] using hmul

theorem bitPlane_length (rs : List Int) (j : Nat) : (bitPlane rs j).length = 256 := by simp [bitPlane]

/-! ### Addresses of granules -/

theorem chanInv_of_warp {s t : State} (h : t.warp = s.warp) (c a : Nat) : chanInv t c a = chanInv s c a := by rw [chanInv, h, chanInv]

theorem vecGran_of_warp {s t : State} (h : t.warp = s.warp) (c u o i : Nat) : vecGran t c u o i = vecGran s c u o i :=
  chanInv_of_warp h c _

theorem bitGran_of_warp {s t : State} (h : t.warp = s.warp) (c u o i j : Nat) : bitGran t c u o i j = bitGran s c u o i j :=
  chanInv_of_warp h c _

/-! ### Steps that keep a byte wherever it lies in no destination -/

theorem KeepsByte.trans {a : Nat} {s t u : State} (h : KeepsByte a s t) (h' : KeepsByte a t u) : KeepsByte a s u := by
  intro w
  obtain ⟨wt, ht⟩ := h w
  obtain ⟨wu, hu⟩ := h' wt
  exact ⟨wu, hu.trans ht⟩

/-- Steps that each keep the address map, and a byte wherever the map is that of the first state. -/
theorem foldl_keepsByte_of_warp {α : Type} {a : Nat} {f : State → α → State} {l : List α} {s : State}
    (hw : ∀ u y, (f u y).warp = u.warp) (h : ∀ y ∈ l, ∀ u, u.warp = s.warp → KeepsByte a u (f u y)) :
    KeepsByte a s (l.foldl f s) := by
  induction l generalizing s with
  | nil => exact fun w => ⟨w, rfl⟩
  | cons y l ih =>
    exact (h y (List.mem_cons_self ..) s rfl).trans
      (ih fun z hz u hu => h z (List.mem_cons_of_mem y hz) u (hu.trans (hw s y)))

theorem granRead_keepsByte (a : Nat) (l : List Nat) (s : State) : KeepsByte a s (granRead s l).2.2 :=
  (granRead_within.changesOnlyBytes (a := 0) (n := a)).keepsByte (.inr (by omega))

/-! ### Word-layout commands (R392) -/

/-- One granule of a word-layout command: granule i of A and others are read, and what they give is written to granule i of D in
unit u. -/
def granStep (c : Nat) (o : BuOp) (u : Nat) (more : State → Nat → List Nat) (g : List (List Byte) → List Byte) (s : State) (i : Nat) :
    State :=
  let r := granRead s (vecGran s c o.unit o.a i :: more s i)
  granWrite (vecGran r.2.2 c u o.d i) r.2.1 (g r.1) r.2.2

/-- A command has two operands in granules. -/
def takesTwo (o : BuOp) : Bool := decide (o.op = 0x01 ∨ o.op = 0x02 ∨ o.op = 0x03 ∨ o.op = 0x04) && !o.bs

/-- The granules besides A that an arithmetic command reads. -/
def arithMore (c : Nat) (o : BuOp) (s : State) (i : Nat) : List Nat :=
  (if takesTwo o then [vecGran s c o.unit o.b i] else []) ++ (if o.op = 0x04 then [vecGran s c o.unit o.c i] else [])

/-- What an arithmetic command writes for the granules read. -/
def arithGran (o : BuOp) (g : List (List Byte)) : List Byte :=
  buGran o (g.getD 0 []) (if takesTwo o then g.getD 1 [] else g.getD 0 []) (if o.op = 0x04 then g.getLastD [] else g.getD 0 [])

/-- What LUT writes for the granules read. -/
def lutGran (g : List (List Byte)) : List Byte := (g.getD 0 []).map fun b => (g.getD 1 []).getD b.toNat 0

section
variable (c : Nat) (o : BuOp) (s : State)

theorem buWords_eq : buWords c o s = (List.range o.n).foldl (granStep c o o.unit (arithMore c o) (arithGran o)) s := rfl

theorem buLut_eq : buLut c o s =
    (List.range o.n).foldl (granStep c o o.unit (fun s _ => [vecGran s c o.unit o.b 0]) lutGran) s := rfl

theorem buMove_eq : buMove c o s =
    (List.range o.n).foldl (granStep c o o.dunit (fun _ _ => []) fun g => g.getD 0 []) s := rfl

end

section
variable {a c u : Nat} {o : BuOp} {more : State → Nat → List Nat} {g : List (List Byte) → List Byte} {s : State}

/-- A word-layout command changes no byte outside the granules of its destination. -/
theorem foldl_granStep_keepsByte (hg : ∀ t l, (g (granRead t l).1).length ≤ 256)
    (h : ∀ i, i < o.n → a < vecGran s c u o.d i ∨ vecGran s c u o.d i + 256 ≤ a) :
    KeepsByte a s ((List.range o.n).foldl (granStep c o u more g) s) := by
  refine foldl_keepsByte_of_warp (fun t i => (granWrite_within.warp rfl).trans (granRead_within.warp rfl)) fun i hi t ht => ?_
  have hdest (l : List Nat) : vecGran (granRead t l).2.2 c u o.d i = vecGran s c u o.d i :=
    vecGran_of_warp ((granRead_within.warp rfl).trans ht) ..
  exact (granRead_keepsByte a _ t).trans
    ((granWrite_changesOnlyBytes (hg _ _) _).keepsByte (by rw [hdest]; exact h i (List.mem_range.mp hi)))

theorem lutGran_length_le (l : List Nat) (t : State) : (lutGran (granRead t l).1).length ≤ 256 := by
  rw [lutGran, List.length_map]
  exact granRead_getD_length_le l 0 t

end

/-! ### Bit-serial commands (R394, R395) -/

/-- Planes 0 to m − 1 of block i of a bit-serial operand. -/
def bitPlanes (s : State) (c u o i m : Nat) : List Nat := (List.range m).map fun j => bitGran s c u o i j

/-- D shares a plane granule with A or B. -/
def bitShares (c : Nat) (o : BuOp) (s : State) : Bool :=
  (buDest s c o).any fun d => (List.range o.n).any fun k =>
    (List.range o.wa).any (fun j => bitGran s c o.unit o.a k j == d) || (List.range o.wb).any (fun j => bitGran s c o.unit o.b k j == d)

/-- The 2,048 results of a block. -/
def bitResults (mul signed : Bool) (ga gb : List (List Byte)) : List Int :=
  (List.range 2048).map fun k =>
    if mul then bitElem signed ga k * bitElem signed gb k else bitElem signed ga k + bitElem signed gb k

/-- What is written to plane j of a block: its results, or free values where D shares a granule with an operand. -/
def planeBytes (shares : Bool) (rs : List Int) (s : State) (j : Nat) : List Byte :=
  if shares then (List.range 256).map fun k => Config.freeByte (s.freeCtr * 256 + k) else bitPlane rs j

/-- The planes of one block of the destination are written. -/
def planesWritten (shares bad : Bool) (rs : List Int) (ds : List Nat) (s : State) : State :=
  ds.zipIdx.foldl (fun s d => granWrite d.1 bad (planeBytes shares rs s d.2) (if shares then s.tickFree else s)) s

/-- One block of a bit-serial command. -/
def blockStep (mul : Bool) (c : Nat) (o : BuOp) (s : State) (i : Nat) : State :=
  let ra := granRead s (bitPlanes s c o.unit o.a i o.wa)
  let rb := granRead ra.2.2 (bitPlanes s c o.unit o.b i o.wb)
  planesWritten (bitShares c o s) (ra.2.1 || rb.2.1) (bitResults mul (o.type == 0) ra.1 rb.1) (bitPlanes s c o.unit o.d i o.wd) rb.2.2

theorem buBits_eq (mul : Bool) (c : Nat) (o : BuOp) (s : State) : buBits mul c o s = (List.range o.n).foldl (blockStep mul c o) s := rfl

theorem planeBytes_length (shares : Bool) (rs : List Int) (s : State) (j : Nat) : (planeBytes shares rs s j).length = 256 := by
  unfold planeBytes
  split
  · simp
  · exact bitPlane_length rs j

section
variable {a c : Nat} {o : BuOp} {shares bad mul : Bool} {rs : List Int} {ds : List Nat} {s : State}

theorem planesWritten_keepsByte (h : ∀ d ∈ ds, a < d ∨ d + 256 ≤ a) : KeepsByte a s (planesWritten shares bad rs ds s) := by
  refine foldl_keepsByte (fun d hd t => ?_) s
  have hfree : ChangesOnlyBytes d.1 256 t (if shares then t.tickFree else t) :=
    (Within.ite State.tickFree_within (Within.refl _ _)).changesOnlyBytes
  have hmem : d.1 ∈ ds := List.fst_mem_of_mem_zipIdx hd
  exact (hfree.trans (granWrite_changesOnlyBytes (planeBytes_length ..).le _)).keepsByte (h _ hmem)

theorem planesWritten_within : Within 67240104 s (planesWritten shares bad rs ds s) :=
  Within.foldl (fun _ _ => Within.step granWrite_within (by decide)
    (Within.ite (Within.step State.tickFree_within (by decide) (Within.refl _ _)) (Within.refl _ _))) (Within.refl _ _)

/-- A bit-serial command changes no byte outside the planes of its destination. -/
theorem buBits_keepsByte
    (h : ∀ i, i < o.n → ∀ j, j < o.wd → a < bitGran s c o.unit o.d i j ∨ bitGran s c o.unit o.d i j + 256 ≤ a) :
    KeepsByte a s (buBits mul c o s) := by
  rw [buBits_eq]
  refine foldl_keepsByte_of_warp
    (fun t i => (planesWritten_within.warp rfl).trans ((granRead_within.warp rfl).trans (granRead_within.warp rfl))) fun i hi t ht => ?_
  refine ((granRead_keepsByte a _ t).trans (granRead_keepsByte a _ _)).trans (planesWritten_keepsByte fun d hd => ?_)
  obtain ⟨j, hj, rfl⟩ := List.mem_map.mp hd
  rw [bitGran_of_warp ht]
  exact h i (List.mem_range.mp hi) j (List.mem_range.mp hj)

end

end Sys2Proof.Machine
end

section
/-! SUPPORT. The commands of the bank units (R386 to R398): submission, acceptance, start and completion. -/

namespace Sys2Proof.Machine

/-! ### Clocks -/

theorem tclk_of_cclk {s : State} (h : s.cclk = true) : s.tclk = true := (Bool.and_eq_true_iff.mp h).1

theorem inHold_of_cclk {s : State} (h : s.cclk = true) : s.inHold = false := by
  simpa using (Bool.and_eq_true_iff.mp h).2

/-! ### Submission (R386, R387) -/

/-- The write of a slot's last word submits the command that the slot then holds. -/
theorem busWrite_slotEnd {ag : Agent} {c o : Nat} {bs : List Byte} {s : State}
    (hok : accessOk s ag true (winBase + c * 0x100000 + o) 8 = true) (hs : s.wf = true) (hav : chanAvail s c = true)
    (h8 : bs.length = 8) (hc : c < 48) (h32 : o % 32 = 0x18) (hlt : o < 0x20000) (hslot : o % 0x1000 < 0x800) :
    busWrite ag (winBase + c * 0x100000 + o) bs s = submit c (o / 0x1000)
      (BitVec.ofNat 256 (leNat (slotBytes (stageBytes (chan s c) o bs) (o - 0x18)))) (setChan s c (stageBytes (chan s c) o bs)) := by
  have hcomp : inComp (winBase + c * 0x100000 + o) = false := decide_eq_false (by unfold winBase; omega)
  have hwin : inWin (winBase + c * 0x100000 + o) = true :=
    Bool.and_eq_true_iff.mpr ⟨decide_eq_true (by omega), decide_eq_true (by omega)⟩
  rw [busWrite, if_pos (by rw [h8, hok]), meterCharge_outside_comp _ hcomp, devWrite, if_neg (by simp [hcomp]), if_pos hwin,
    winWrite_of_chan (by omega) (by omega), winWriteChan_slotEnd hav h8 h32 hlt hslot hs]

section
variable {c : Fin 48} {s : State} (hk : s.Kept) (hs : s.wf = true) (hc : s.cclk = true)

section
variable {p : CoreId} {slot : Fin 64}

theorem execCommandSubmit_submits (hs : s.wf = true) (hc : s.cclk = true) (w3 : W64) (hav : chanAvail s c = true)
    (hok : accessOk s (.core p) true (winBase + c * 0x100000 + p * 0x1000 + slot * 32 + 0x18) 8 = true) :
    ∃ cmd, cmd = BitVec.ofNat 256 (leNat (slotBytes (stageBytes (chan s c) (p * 0x1000 + slot * 32 + 0x18) (natLe 8 w3.toNat))
        (p * 0x1000 + slot * 32))) ∧
      execCommandSubmit c p slot w3 s =
        .next (submit c p cmd (setChan s c (stageBytes (chan s c) (p * 0x1000 + slot * 32 + 0x18) (natLe 8 w3.toNat)))) := by
  obtain ⟨c, hcl⟩ := c
  obtain ⟨p, hp⟩ := p
  obtain ⟨slot, hslot⟩ := slot
  have haddr : winBase + c * 0x100000 + p * 0x1000 + slot * 32 + 0x18 = winBase + c * 0x100000 + (p * 0x1000 + slot * 32 + 0x18) := by
    omega
  have hport : (p * 0x1000 + slot * 32 + 0x18) / 0x1000 = p := by omega
  have hbus := busWrite_slotEnd (o := p * 0x1000 + slot * 32 + 0x18) (haddr ▸ hok) hs hav (natLe_length 8 w3.toNat) hcl (by omega)
    (by omega) (by omega)
  rw [hport, ← haddr] at hbus
  exact ⟨_, rfl, (onlyIf_of_true hc).trans (congrArg _ hbus)⟩

include hk hs hc

theorem exec_commandSubmit_shows (w3 : W64) (hav : chanAvail s c = true)
    (hok : accessOk s (.core p) true (winBase + c * 0x100000 + p * 0x1000 + slot * 32 + 0x18) 8 = true) :
    ∃ t, exec (.commandSubmit c p slot w3) s = .next t ∧ t.mem = s.mem ∧ (chan t c).accq = (chan s c).accq ∧
      (chanRefuses s c = false →
        (chan t c).waiting = (chan s c).waiting ++ [⟨BitVec.ofNat 256 (leNat (slotBytes (stageBytes (chan s c) (p * 0x1000 + slot * 32 + 0x18)
          (natLe 8 w3.toNat)) (p * 0x1000 + slot * 32))), p⟩]) ∧
      (chanRefuses s c = true → (chan t c).waiting = (chan s c).waiting ∧ t.bit (Reg.memStatus c) 5 = true ∧
        (t.rd (Reg.memCmdRefused c)).toNat = min ((s.rd (Reg.memCmdRefused c)).toNat + 1) 0xFFFFFFFF) := by
  obtain ⟨cmd, hcmd, e⟩ := execCommandSubmit_submits hs hc w3 hav hok
  rw [← hcmd]
  obtain ⟨hwaiting, haccq, -⟩ := stageBytes_lists (chan s c) (p * 0x1000 + slot * 32 + 0x18) (natLe 8 w3.toNat)
  generalize stageBytes (chan s c) (p * 0x1000 + slot * 32 + 0x18) (natLe 8 w3.toNat) = x at e hwaiting haccq
  have hset : (setChan s c x).wf = true := setChan_within.wf hs
  have hchan : chan (setChan s c x) c = x := chan_setChan_same hs c x
  have href : chanRefuses (setChan s c x) c = chanRefuses s c := chanRefuses_congr rfl rfl rfl c
  refine ⟨_, inContract_within hk execCommandSubmit_within rfl e, submit_within.mem rfl, ?_⟩
  cases h : chanRefuses s c with
  | false =>
    have hsub := chan_submit hset p cmd (href.trans h)
    rw [hchan] at hsub
    exact ⟨by rw [hsub, haccq], fun _ => by rw [hsub, hwaiting], (nomatch ·)⟩
  | true =>
    rw [submit_of_refuses (href.trans h)]
    obtain ⟨hsub, hbit, hrd⟩ := refuseCmd_shows c hset p
    rw [hchan] at hsub
    exact ⟨by rw [hsub, mapPort_accq, haccq], (nomatch ·), fun _ => ⟨by rw [hsub, mapPort_waiting, hwaiting], hbit, hrd⟩⟩

end

/-! ### Acceptance (R387, R391) -/

section
variable {m : BuCmd} {l : List BuCmd}

/-- The channel once its oldest submitted command is accepted, and counted. -/
def cmdAccepted (c : Nat) (m : BuCmd) (l : List BuCmd) (s : State) : State :=
  (setChan s c (mapPort { chan s c with waiting := l } m.port fun p => { p with accepted := p.accepted + 1 })).sat (Reg.memCmdAccepted c)

theorem cmdAccepted_within {c : Nat} : Within 16392 s (cmdAccepted c m l s) :=
  Within.step State.sat_within (by decide) (Within.step setChan_within (by decide) (Within.refl _ _))

theorem chan_cmdAccepted {c : Nat} (hs : s.wf = true) : (chan (cmdAccepted c m l s) c).waiting = l ∧
    (chan (cmdAccepted c m l s) c).accq = (chan s c).accq := by
  have h := (chan_of_chans rfl c : chan (cmdAccepted c m l s) c = _).trans (chan_setChan_same hs c _)
  rw [h]
  exact ⟨rfl, rfl⟩

theorem rd_cmdAccepted {c : Nat} (hs : s.wf = true) :
    ((cmdAccepted c m l s).rd (Reg.memCmdAccepted c)).toNat = min ((s.rd (Reg.memCmdAccepted c)).toNat + 1) 0xFFFFFFFF :=
  State.rd_sat_toNat (State.wf_regs (setChan_within.wf hs)) _

/-- What a bad command leaves: it is completed at once (R391). -/
def cmdBad (c : Nat) (m : BuCmd) (s : State) : State := (buCount c m s).sat (Reg.memBadCmd c)

/-- What a good command leaves: it waits to start. -/
def cmdQueued (c : Nat) (m : BuCmd) (s : State) : State := memSync c (setChan s c { chan s c with accq := (chan s c).accq ++ [m] })

theorem execCommandAccept_accepts (hc : s.cclk = true) (hw : (chan s c).waiting = m :: l) (href : chanRefuses s c = false)
    (hroom : (chan s c).accq.length < 64) :
    execCommandAccept c s = .next (if buBad m.cmd then cmdBad c m (cmdAccepted c m l s) else cmdQueued c m (cmdAccepted c m l s)) := by
  have hroom : ¬64 ≤ (chan s c).accq.length := by omega
  simp only [execCommandAccept, hw, tclk_of_cclk hc, href, if_neg hroom, Bool.not_true, Bool.false_eq_true, if_false]
  split <;> rfl

include hk hs hc

theorem exec_commandAccept_refuses (hw : (chan s c).waiting = m :: l) (href : chanRefuses s c = true) :
    ∃ t, exec (.commandAccept c) s = .next t ∧ (chan t c).waiting = l ∧ (chan t c).accq = (chan s c).accq ∧
      t.bit (Reg.memStatus c) 5 = true ∧ (t.rd (Reg.memCmdRefused c)).toNat = min ((s.rd (Reg.memCmdRefused c)).toNat + 1) 0xFFFFFFFF := by
  have e : execCommandAccept c s = .next (refuseCmd c m.port (setChan s c { chan s c with waiting := l })) := by
    simp [execCommandAccept, hw, tclk_of_cclk hc, href]
  obtain ⟨hchan, hbit, hrd⟩ := refuseCmd_shows c (setChan_within.wf hs : (setChan s c { chan s c with waiting := l }).wf = true) m.port
  rw [chan_setChan_same hs] at hchan
  exact ⟨_, inContract_within hk execCommandAccept_within rfl e, by rw [hchan, mapPort_waiting], by rw [hchan, mapPort_accq], hbit, hrd⟩

theorem exec_commandAccept_accepts (hw : (chan s c).waiting = m :: l) (href : chanRefuses s c = false)
    (hroom : (chan s c).accq.length < 64) :
    ∃ t, exec (.commandAccept c) s = .next t ∧ (chan t c).waiting = l ∧
      (chan t c).accq = (if buBad m.cmd then (chan s c).accq else (chan s c).accq ++ [m]) ∧
      (t.rd (Reg.memCmdAccepted c)).toNat = min ((s.rd (Reg.memCmdAccepted c)).toNat + 1) 0xFFFFFFFF ∧
      (buBad m.cmd = true → (t.rd (Reg.memBadCmd c)).toNat = min ((s.rd (Reg.memBadCmd c)).toNat + 1) 0xFFFFFFFF) := by
  refine ⟨_, inContract_within hk execCommandAccept_within rfl (execCommandAccept_accepts hc hw href hroom), ?_⟩
  have hacc : (cmdAccepted c m l s).wf = true := cmdAccepted_within.wf hs
  obtain ⟨hwaiting, haccq⟩ := chan_cmdAccepted (c := c) (m := m) (l := l) hs
  have hrd := rd_cmdAccepted (c := c) (m := m) (l := l) hs
  cases hbad : buBad m.cmd with
  | true =>
    have hcount : RegsOk (buCount c m (cmdAccepted c m l s)) := State.wf_regs (buCount_within.wf hacc)
    have hchan : chan (cmdBad c m (cmdAccepted c m l s)) c = _ :=
      (chan_of_chans (State.sat_within.chans rfl) c).trans (chan_buCount c hacc m)
    have hold : (cmdAccepted c m l s).rd (Reg.memBadCmd c) = s.rd (Reg.memBadCmd c) :=
      sat_only.rd_ne (State.wf_regs (setChan_within.wf hs)) (by simp only [Reg.memBadCmd, Reg.memCmdAccepted]; omega)
    simp only [if_true, hchan, mapPort_waiting, mapPort_accq]
    refine ⟨hwaiting, haccq, ?_, fun _ => ?_⟩
    · rw [cmdBad, sat_only.rd_ne hcount (by simp only [Reg.memBadCmd, Reg.memCmdAccepted]; omega),
        (buCount_only c m).rd_ne (State.wf_regs hacc) (by simp only [Reg.memCmdDone, Reg.memCmdAccepted]; omega), hrd]
    · rw [cmdBad, State.rd_sat_toNat hcount,
        (buCount_only c m).rd_ne (State.wf_regs hacc) (by simp only [Reg.memCmdDone, Reg.memBadCmd]; omega), hold]
  | false =>
    have hchan : chan (cmdQueued c m (cmdAccepted c m l s)) c = _ := (chan_memSync c c).trans (chan_setChan_same hacc c _)
    simp only [Bool.false_eq_true, if_false, hchan]
    refine ⟨hwaiting, by rw [haccq], ?_, fun h => h.elim⟩
    rw [cmdQueued, (memSync_only c).rd_ne (State.wf_regs (setChan_within.wf hacc)) (by simp only [Reg.memQueue, Reg.memCmdAccepted]; omega)]
    exact hrd

end

/-! ### The start of a command (R392 to R396) -/

/-- A command that starts the words of one op, with its effect on memory. -/
structure IsBuRow (c : Fin 48) (cmd : Instr) (op : Nat) (f : BuOp → State → State) : Prop where
  exec_eq : ∀ s, exec cmd s = inContract (buStart op c f) s
  within : ∀ o s, Within 67240104 s (f o s)
  keepsByte : ∀ o s a, o.op = op → (∀ d ∈ buDest s c o, a < d ∨ d + 256 ≤ a) → KeepsByte a s (f o s)

/-- The destination of a command that is neither bit-serial nor a MOVE. -/
theorem buDest_default {o : BuOp} (hop : o.op ∉ [0x10, 0x11, 0x18]) :
    buDest s c o = (List.range o.n).map fun i => vecGran s c o.unit o.d i := by
  simp only [List.mem_cons, List.not_mem_nil, or_false, not_or] at hop
  obtain ⟨hadd, hmul, hmove⟩ := hop
  simp [buDest]

theorem isBuRow_words {cmd : Instr} {op : Nat} (hop : op ∉ [0x10, 0x11, 0x18])
    (he : ∀ s, exec cmd s = inContract (buStart op c (buWords c)) s) : IsBuRow c cmd op (buWords c) where
  exec_eq := he
  within _ _ := Within.step buWords_within (by decide) (Within.refl _ _)
  keepsByte o s a ho h := by
    rw [buDest_default (ho ▸ hop)] at h
    rw [buWords_eq]
    exact foldl_granStep_keepsByte (fun _ _ => buGran_length_le ..) fun i hi => h _ (List.mem_map_of_mem (List.mem_range.mpr hi))

theorem isBuRow_lut : IsBuRow c (.lut c) 0x0A (buLut c) where
  exec_eq _ := rfl
  within _ _ := Within.step buLut_within (by decide) (Within.refl _ _)
  keepsByte o s a ho h := by
    rw [buDest_default (by rw [ho]; decide)] at h
    rw [buLut_eq]
    exact foldl_granStep_keepsByte (fun t l => lutGran_length_le l t) fun i hi => h _ (List.mem_map_of_mem (List.mem_range.mpr hi))

theorem isBuRow_move : IsBuRow c (.moveBu c) 0x18 (buMove c) where
  exec_eq _ := rfl
  within _ _ := Within.step buMove_within (by decide) (Within.refl _ _)
  keepsByte o s a ho h := by
    simp only [buDest, ho] at h
    rw [buMove_eq]
    exact foldl_granStep_keepsByte (fun t l => granRead_getD_length_le l 0 t) fun i hi =>
      h _ (List.mem_map_of_mem (List.mem_range.mpr hi))

theorem isBuRow_bits {cmd : Instr} {op : Nat} {mul : Bool} (hop : op = 0x10 ∨ op = 0x11)
    (he : ∀ s, exec cmd s = inContract (buStart op c (buBits mul c)) s) : IsBuRow c cmd op (buBits mul c) where
  exec_eq := he
  within _ _ := buBits_within
  keepsByte o s a ho h := by
    have hdest : buDest s c o = (List.range o.n).flatMap fun i => bitPlanes s c o.unit o.d i o.wd := by
      rcases hop with rfl | rfl <;> simp only [buDest, ho, bitPlanes]
    rw [hdest] at h
    exact buBits_keepsByte fun i hi j hj => h _ (List.mem_flatMap.mpr
      ⟨i, List.mem_range.mpr hi, List.mem_map_of_mem (List.mem_range.mpr hj)⟩)

theorem isBuRow_of_mem (c : Fin 48) {row : Instr × Nat × (BuOp → State → State)}
    (h : row ∈ ([(.bankUnitAdd c, 0x01, buWords c), (.bankUnitSub c, 0x02, buWords c), (.bankUnitMul c, 0x03, buWords c), (.madd c, 0x04, buWords c),
      (.relu c, 0x08, buWords c), (.bankUnitClamp c, 0x09, buWords c), (.lut c, 0x0A, buLut c), (.bsadd c, 0x10, buBits false c),
      (.bsmul c, 0x11, buBits true c), (.moveBu c, 0x18, buMove c)] : List (Instr × Nat × (BuOp → State → State)))) :
    IsBuRow c row.1 row.2.1 row.2.2 := by
  simp only [List.mem_cons, List.not_mem_nil, or_false] at h
  rcases h with rfl | rfl | rfl | rfl | rfl | rfl | rfl | rfl | rfl | rfl
  · exact isBuRow_words (op := 0x01) (by decide) fun _ => rfl
  · exact isBuRow_words (op := 0x02) (by decide) fun _ => rfl
  · exact isBuRow_words (op := 0x03) (by decide) fun _ => rfl
  · exact isBuRow_words (op := 0x04) (by decide) fun _ => rfl
  · exact isBuRow_words (op := 0x08) (by decide) fun _ => rfl
  · exact isBuRow_words (op := 0x09) (by decide) fun _ => rfl
  · exact isBuRow_lut
  · exact isBuRow_bits (.inl rfl) fun _ => rfl
  · exact isBuRow_bits (.inr rfl) fun _ => rfl
  · exact isBuRow_move

theorem chan_takeFront (hs : s.wf = true) {m : BuCmd} {l run : List BuCmd} (hq : (chan s c).accq = m :: l) :
    (chan (takeFront c run s) c).accq = l ∧ (chan (takeFront c run s) c).running = (chan s c).running ++ run := by
  rw [takeFront, chan_setChan_same hs, hq]
  exact ⟨rfl, rfl⟩

section
variable {cmd : Instr} {op : Nat} {f : BuOp → State → State} {m : BuCmd} {l : List BuCmd}

theorem IsBuRow.exec_starts (hr : IsBuRow c cmd op f) (hk : s.Kept) (hs : s.wf = true) (hc : s.cclk = true)
    (hq : (chan s c).accq = m :: l) (hidle : buIdle s c (buOp m.cmd) = true) (hb : noBarrier s c = true) (hop : (buOp m.cmd).op = op) :
    ∃ t, exec cmd s = .next t ∧ t = memSync c (f (buOp m.cmd) (takeFront c [m] s)) ∧
      (chan t c).accq = l ∧ (chan t c).running = (chan s c).running ++ [m] ∧
      ∀ a, (∀ d ∈ buDest s c (buOp m.cmd), a < d ∨ d + 256 ≤ a) → t.byte a = s.byte a := by
  have e : buStart op c f s = .next (memSync c (f (buOp m.cmd) (takeFront c [m] s))) := by
    simp [buStart, hq, onlyIf, hc, hop, hidle, hb]
  have hchan : chan (memSync c (f (buOp m.cmd) (takeFront c [m] s))) c = chan (takeFront c [m] s) c :=
    (chan_memSync c c).trans (chan_of_chans ((hr.within _ _).chans rfl) c)
  obtain ⟨haccq, hrunning⟩ := chan_takeFront (c := c) hs (run := [m]) hq
  refine ⟨_, ?_, rfl, by rw [hchan, haccq], by rw [hchan, hrunning], fun a ha => ?_⟩
  · rw [hr.exec_eq]
    exact inContract_within hk (buStart_within (M := 67256488) (by decide)
      fun o t => Within.step (hr.within o t) (by decide) (Within.refl _ _)) rfl e
  · have hfront : KeepsByte a s (takeFront c [m] s) := fun w => ⟨takeFront_within.wf w, rfl⟩
    have hsync (t : State) : KeepsByte a t (memSync c t) := fun w => ⟨memSync_within.wf w, rfl⟩
    exact (((hfront.trans (hr.keepsByte _ _ a hop ha)).trans (hsync _)) hs).2

theorem IsBuRow.exec_otherOp (hr : IsBuRow c cmd op f) (hk : s.Kept) (hq : (chan s c).accq = m :: l) (hop : (buOp m.cmd).op ≠ op) :
    exec cmd s = .next s := by
  rw [hr.exec_eq]
  exact inContract_kept hk hk (by simp [buStart, hq, onlyIf, hop])

end

/-! ### Barriers, NOTIFY and completion (R396, R398, R399) -/

include hk

/-- Behind a barrier no command starts. -/
theorem exec_behindBarrier (hb : noBarrier s c = false) : exec (.relu c) s = .next s ∧ exec (.notify c) s = .next s := by
  refine ⟨inContract_kept hk hk (f := execRelu c) ?_, inContract_kept hk hk (f := execNotify c) ?_⟩
  · cases hq : (chan s c).accq <;> simp [execRelu, buStart, hq, onlyIf, hb]
  · cases hq : (chan s c).accq <;> simp [execNotify, hq, hb]

include hs hc

theorem exec_notify_writes {m : BuCmd} {l : List BuCmd} (hq : (chan s c).accq = m :: l) (hop : (buOp m.cmd).op = 0x1F)
    (hrun : (chan s c).running = []) (hb : noBarrier s c = true) (hin : notifyOutside s m = false) :
    ∃ t : State, exec (.notify c) s = .next t.settle ∧ (chan t c).accq = l ∧
      t.mem = (s.putBytes (notifyAddr m) (natLe 8 (notifyTag m))).mem ∧
      (t.rd (Reg.memCmdDone c)).toNat = min ((s.rd (Reg.memCmdDone c)).toNat + 1) 0xFFFFFFFF := by
  have e : execNotify c s = .next (memSync c (buCount c m (notifyWrite m false (takeFront c [] s)))) := by
    simp [execNotify, hq, hc, hop, hrun, hb, hin]
  have hfront : (takeFront c [] s).wf = true := takeFront_within.wf hs
  have hwrite : (notifyWrite m false (takeFront c [] s)).wf = true := notifyWrite_within.wf hfront
  obtain ⟨haccq, -⟩ := chan_takeFront (c := c) hs (run := []) hq
  refine ⟨_, inContract_next hk e, ?_, ?_, ?_⟩
  · rw [chan_memSync, chan_buCount c hwrite, mapPort_accq, chan_of_chans (notifyWrite_within.chans rfl), haccq]
  · have hguard (a n : Nat) (t : State) : Within 134217728 t (engineGuard [] a n t) := engineGuard_within
    rw [memSync_within.mem rfl, buCount_within.mem rfl, notifyWrite, putEngine, State.putBytes_mem, (hguard _ _ _).mem rfl,
      (hguard _ _ _).memGen rfl]
    rfl
  · rw [(memSync_only c).rd_ne (State.wf_regs (buCount_within.wf hwrite)) (by simp only [Reg.memQueue, Reg.memCmdDone]; omega),
      rd_buCount c hwrite, State.rd_of_regs (notifyWrite_within.regs rfl)]
    rfl

theorem exec_bankUnitComplete_ends {u : Fin 8} {m : BuCmd} (hf : (chan s c).running.find? (fun r => (buOp r.cmd).unit == u.val) = some m) :
    ∃ t, exec (.bankUnitComplete c u) s = .next t ∧ (chan t c).running = (chan s c).running.erase m ∧ t.mem = s.mem ∧
      (t.rd (Reg.memCmdDone c)).toNat = min ((s.rd (Reg.memCmdDone c)).toNat + 1) 0xFFFFFFFF := by
  have e : execBankUnitComplete c u s =
      .next (memSync c (buCount c m (setChan s c { chan s c with running := (chan s c).running.erase m }))) := by
    simp [execBankUnitComplete, hf, onlyIf, tclk_of_cclk hc]
  have hset : (setChan s c { chan s c with running := (chan s c).running.erase m }).wf = true := setChan_within.wf hs
  refine ⟨_, inContract_within hk execBankUnitComplete_within rfl e, ?_, ?_, ?_⟩
  · rw [chan_memSync, chan_buCount c hset, mapPort_running, chan_setChan_same hs]
  · rw [memSync_within.mem rfl, buCount_within.mem rfl, setChan_mem]
  · rw [(memSync_only c).rd_ne (State.wf_regs (buCount_within.wf hset)) (by simp only [Reg.memQueue, Reg.memCmdDone]; omega),
      rd_buCount c hset, setChan_rd]

end

/-- Settles O45: the submission by the write of a slot's last word, the starts by the rows of `IsBuRow`. -/
theorem bankUnits : Obligations.BankUnits := by
  intro c s hk hs hc
  refine ⟨fun p slot w3 hav hok => exec_commandSubmit_shows hk hs hc w3 hav hok,
    fun m l hw => ⟨exec_commandAccept_refuses hk hs hc hw, fun href hfull => ?_, exec_commandAccept_accepts hk hs hc hw⟩, ?_,
    fun m l hq hidle hb _ row hrow => ⟨fun hop => (isBuRow_of_mem c hrow).exec_starts hk hs hc hq hidle hb hop,
      fun hop => (isBuRow_of_mem c hrow).exec_otherOp hk hq hop⟩,
    exec_behindBarrier hk, fun m l hq hop hrun hb hin => exec_notify_writes hk hs hc hq hop hrun hb hin,
    fun u m hf => exec_bankUnitComplete_ends hk hs hc hf⟩
  · exact inContract_kept hk hk (f := execCommandAccept c) (by simp [execCommandAccept, hw, href, hfull])
  · simp [chanRefuses, inHold_of_cclk hc]

end Sys2Proof.Machine
end

section
/-! SUPPORT. Ordinary accesses to companion memory (R371 to R379, R399, R489, R490, R513): the bytes that reads and writes of good
words give and leave. -/

namespace Sys2Proof.Machine

/-! ### Runs of bytes -/

theorem State.bytes_length (s : State) (a n : Nat) : (s.bytes a n).length = n := reads_length _ _ a n

theorem State.bytes_append (s : State) (a m n : Nat) : s.bytes a (m + n) = s.bytes a m ++ s.bytes (a + m) n := by
  simp only [State.bytes]
  induction m generalizing a with
  | zero => rw [Nat.zero_add]; rfl
  | succ m ih => rw [Nat.add_right_comm, Memory.reads, ih, Memory.reads, List.cons_append, Nat.add_assoc, Nat.add_comm 1]

theorem State.bytes_drop_take (s : State) (a k n m : Nat) (h : k + n ≤ m) : ((s.bytes a m).drop k).take n = s.bytes (a + k) n := by
  obtain ⟨r, rfl⟩ := Nat.exists_eq_add_of_le h
  have hk : (s.bytes a k).length = k := s.bytes_length a k
  have hn : (s.bytes (a + k) n).length = n := s.bytes_length (a + k) n
  rw [Nat.add_assoc, State.bytes_append, List.drop_left' hk, State.bytes_append, List.take_left' hn]

/-- Bytes of word after word. -/
theorem State.bytes_words (s : State) (w m : Nat) :
    ((List.range m).flatMap fun i => s.bytes (8 * (w + i)) 8) = s.bytes (8 * w) (8 * m) := by
  induction m with
  | zero => rfl
  | succ m ih =>
    rw [List.range_succ, List.flatMap_append, ih, List.flatMap_singleton, Nat.mul_succ, State.bytes_append, Nat.mul_add]

/-! ### Good words (R375 to R379) -/

theorem State.wf_health {s : State} (w : s.wf = true) : Tab.wf (fun _ => Health.good) s.health = true := by
  simp only [State.wf, Bool.and_eq_true] at w
  exact w.1.1.1.2

/-- A word of an available channel that holds what was written to it. -/
def WordGood (s : State) (w : Nat) : Prop := healthOf s w = .good ∧ chanAvail s (chanOf s (8 * w)).1 = true

/-- Every word that a range touches is good. -/
def RangeGood (s : State) (a n : Nat) : Prop := ∀ w, a / 8 ≤ w → w < a / 8 + wordSpan a n → WordGood s w

theorem chanOf_of_warp {s t : State} (h : t.warp = s.warp) (a : Nat) : chanOf t a = chanOf s a := by
  rw [chanOf, linearOf, h, chanOf, linearOf]

theorem wordBytes_of_good {s : State} {w : Nat} (h : WordGood s w) : wordBytes s w = s.bytes (8 * w) 8 := by
  obtain ⟨hgood, hav⟩ := h
  simp [wordBytes, hgood, hav]

/-- A read of good words gives their bytes. -/
theorem compRead_of_good {s : State} {a n : Nat} (h : RangeGood s a n) : (compRead a n s).1 = s.bytes a n := by
  have hwords : (List.range (wordSpan a n)).flatMap (fun i => wordBytes s (a / 8 + i)) = s.bytes (8 * (a / 8)) (8 * wordSpan a n) := by
    rw [← State.bytes_words]
    refine List.flatMap_congr fun i hi => wordBytes_of_good (h _ (by omega) ?_)
    have := List.mem_range.mp hi
    omega
  have hfits : a % 8 + n ≤ 8 * wordSpan a n := by unfold wordSpan; omega
  rw [compRead, hwords, State.bytes_drop_take _ _ _ _ _ hfits, Nat.div_add_mod]

/-! ### Writes of good words -/

section
variable {s t : State}

/-- A write of bytes within a good word puts them there, and the word stays good. -/
theorem compWriteWord_of_good {w o : Nat} {bs : List Byte} (h : WordGood s w) (ho : o + bs.length ≤ 8) :
    compWriteWord w o bs s = setHealth (s.putBytes (8 * w + o) bs) w .good := by
  obtain ⟨hgood, hav⟩ := h
  have hnote : noteWord w s = s := by simp only [noteWord, hgood]
  by_cases h8 : bs.length = 8
  · have ho : o = 0 := by omega
    simp [compWriteWord, hav, h8, ho]
  · simp [compWriteWord, hav, h8, hgood, hnote]

theorem WordGood.setHealth {w v : Nat} {u : State} (hs : u.wf = true) (h : WordGood u v) : WordGood (setHealth u w .good) v := by
  refine ⟨?_, h.2⟩
  by_cases e : v = w
  · subst e
    exact Tab.get_set_same _ _ (State.wf_health hs)
  · exact (Tab.get_set_ne _ e (State.wf_health hs)).trans h.1

/-- The first word of a write takes the `m` bytes that lie in it, and leaves the words of the rest good. -/
theorem compWriteWord_first {a m : Nat} {bs : List Byte} (hm : m = 8 - a % 8) (hs : s.wf = true) (hne : bs ≠ [])
    (h : RangeGood s a bs.length) :
    (compWriteWord (a / 8) (a % 8) (bs.take m) s).bytes a (bs.take m).length = bs.take m ∧
      RangeGood (compWriteWord (a / 8) (a % 8) (bs.take m) s) (a + m) (bs.drop m).length := by
  have hlen : (bs.take m).length ≤ m := List.length_take_le _ _
  have hdrop : (bs.drop m).length = bs.length - m := List.length_drop
  have hpos : 0 < bs.length := List.length_pos_of_ne_nil hne
  have hput : (s.putBytes a (bs.take m)).wf = true := State.putBytes_within.wf hs
  have hfirst : WordGood s (a / 8) := h _ (Nat.le_refl _) (by unfold wordSpan; omega)
  have hword : compWriteWord (a / 8) (a % 8) (bs.take m) s = setHealth (s.putBytes a (bs.take m)) (a / 8) .good :=
    (compWriteWord_of_good hfirst (by omega)).trans (by rw [Nat.div_add_mod])
  rw [hword]
  refine ⟨State.bytes_putBytes hs, fun w hlo hhi => WordGood.setHealth hput (h w ?_ ?_)⟩
  · omega
  · unfold wordSpan at hhi ⊢
    omega

/-- Words, one after another, take the bytes that lie in them. -/
theorem compWriteWords_of_good {n a : Nat} {bs : List Byte} (hs : s.wf = true) (hn : wordSpan a bs.length ≤ n)
    (h : RangeGood s a bs.length) : (compWriteWords n a bs s).bytes a bs.length = bs := by
  induction n generalizing a bs s with
  | zero =>
    have hnil : bs = [] := List.length_eq_zero_iff.mp (by unfold wordSpan at hn; omega)
    rw [hnil]
    rfl
  | succ n ih =>
    rcases eq_or_ne bs [] with rfl | hne
    · rfl
    rw [compWriteWords, if_neg (by simpa using hne)]
    generalize hm : 8 - a % 8 = m
    have hlen : (bs.take m).length = min m bs.length := List.length_take
    have hdrop : (bs.drop m).length = bs.length - m := List.length_drop
    obtain ⟨hfirst, hgood⟩ := compWriteWord_first hm.symm hs hne h
    have ht : (compWriteWord (a / 8) (a % 8) (bs.take m) s).wf = true := compWriteWord_within.wf hs
    generalize compWriteWord (a / 8) (a % 8) (bs.take m) s = t at hfirst hgood ht ⊢
    have hkeeps := (compWriteWords_changesOnlyBytes n (a + m) (bs.drop m) t ht).2
    have hstart : (compWriteWords n (a + m) (bs.drop m) t).bytes a (bs.take m).length = bs.take m :=
      (State.bytes_of_byte fun x _ _ => hkeeps x (by omega)).trans hfirst
    have hend : (compWriteWords n (a + m) (bs.drop m) t).bytes (a + (bs.take m).length) (bs.drop m).length = bs.drop m := by
      by_cases hshort : bs.length ≤ m
      · rw [List.drop_eq_nil_of_le hshort]
        rfl
      · have hfull : (bs.take m).length = m := by omega
        rw [hfull]
        exact ih ht (by unfold wordSpan at hn ⊢; omega) hgood
    have hall : bs.length = (bs.take m).length + (bs.drop m).length := by omega
    rw [hall, State.bytes_append, hstart, hend, List.take_append_drop]

end

/-! ### Accesses by the bus (R489 to R491) -/

theorem RangeGood.congr {s t : State} {a n : Nat} (h : RangeGood s a n) (hw : t.warp = s.warp) (hh : t.health = s.health)
    (ha : ∀ c, chanAvail t c = chanAvail s c) : RangeGood t a n := by
  intro w hlo hhi
  obtain ⟨hgood, hav⟩ := h w hlo hhi
  exact ⟨by rw [healthOf, hh]; exact hgood, by rw [chanOf_of_warp hw, ha]; exact hav⟩

theorem chanAvail_of_regs {s t : State} (h : t.regs = s.regs) (c : Nat) : chanAvail t c = chanAvail s c := by
  rw [chanAvail, State.rdQ_of_regs h, chanAvail]

/-- Counting unavailable channels changes no word. -/
theorem RangeGood.countUnavail {s : State} {a n b m : Nat} (hs : s.wf = true) (h : RangeGood s a n) :
    RangeGood (countUnavail b m s) a n := by
  refine h.congr (countUnavail_within.warp rfl) (countUnavail_within.health rfl) fun c => ?_
  rw [chanAvail, chanAvail, State.rdQ_two_of_keepsFld (State.wf_regs hs) (countUnavail_keepsFld ⟨by decide, by decide⟩ b m s)
    (countUnavail_keepsFld ⟨by decide, by decide⟩ b m s)]

section
variable {s : State} {ag : Agent} {a n : Nat} {bs : List Byte} (hcomp : inComp a = true)
include hcomp

theorem busRead_of_good (hok : accessOk s ag false a n = true) (h : RangeGood s a n) : (busRead ag a n s).1 = s.bytes a n := by
  have hcharge : Within 131072 s (meterCharge ag a n s) := meterCharge_within
  have hgood := h.congr (hcharge.warp rfl) (hcharge.health rfl) (chanAvail_of_regs (hcharge.regs rfl))
  rw [busRead, if_pos hok, devRead, if_pos hcomp, compRead_of_good hgood]
  exact State.bytes_of_mem (hcharge.mem rfl) (hcharge.memGen rfl) a n

theorem busWrite_of_good (hs : s.wf = true) (hok : accessOk s ag true a bs.length = true) (h : RangeGood s a bs.length) :
    (busWrite ag a bs s).bytes a bs.length = bs := by
  have hcharge : Within 131072 s (meterCharge ag a bs.length s) := meterCharge_within
  have hgood := h.congr (hcharge.warp rfl) (hcharge.health rfl) (chanAvail_of_regs (hcharge.regs rfl))
  rw [busWrite, if_pos hok, devWrite, if_pos hcomp, compWrite]
  exact compWriteWords_of_good (countUnavail_within.wf (hcharge.wf hs)) (Nat.le_refl _) (hgood.countUnavail (hcharge.wf hs))

end

/-! ### The command (R399, R513) -/

section
variable {ag : Agent} {a : W64} {acc : Access} {s : State} (hc : s.cclk = true) (hn : 0 < accLen acc) (h0 : inComp a.toNat = true)
  (h1 : inComp (a.toNat + accLen acc - 1) = true) (hm : meterWaits s ag a.toNat (accLen acc) = false)
  (hw : chanWaits s (requesterOf ag a.toNat) a.toNat (accLen acc) = false)
include hc hn h0 h1 hm hw

/-- An access of the fabric that waits for nothing is performed. -/
theorem execMemoryAccess_performs (hag : ag ≠ .host) :
    execMemoryAccess ag a acc s = accPerform ag a.toNat acc (depart (requesterOf ag a.toNat) s) := by
  have hn : (accLen acc == 0) = false := beq_false_of_ne (by omega)
  cases ag with
  | host => exact absurd rfl hag
  | core | part | chain =>
    simp only [execMemoryAccess, hc, hn, h0, h1, hm, hw, Bool.not_true, Bool.and_true, Bool.or_false, Bool.false_eq_true, if_false]
    rfl

/-- Of the accesses of the host that wait, the first may always be performed. -/
theorem execMemoryAccess_first (hag : ag = .host) {rest : List (Nat × Access)} (hq : s.host.waiting = (a.toNat, acc) :: rest) :
    execMemoryAccess ag a acc s =
      accPerform .host a.toNat acc (depart (.host a.toNat) { s with host := { s.host with waiting := rest } }) := by
  have hn : accLen acc ≠ 0 := by omega
  have hturn : hostTurn [] acc = true := by cases acc <;> rfl
  subst hag
  simp [execMemoryAccess, hc, hn, h0, h1, hm, hw, hostAccess, hq, splitAtAccess, hturn]

end

theorem accPerform_write {ag : Agent} {a : Nat} {bs : List Byte} {s : State} (h : writeOutside s ag a bs.length = none) :
    accPerform ag a (.write bs) s = .next (busWrite ag a bs s) := by
  simp [accPerform, h]

theorem accPerform_outside {ag : Agent} {a r : Nat} {bs : List Byte} {s : State} (h : writeOutside s ag a bs.length = some r) :
    accPerform ag a (.write bs) s = .outside r := by
  simp [accPerform, h, oc]

/-- Settles O44: the accesses by `accPerform`, their bytes by `busRead_of_good` and `busWrite_of_good`. -/
theorem memoryAccesses : Obligations.MemoryAccesses := by
  intro ag a s n bs hk hs hc hlen hpos h0 h1 hm hw s0
  subst hlen
  have hdepart : Within 16384 s s0 := depart_within
  have hs0 : s0.wf = true := hdepart.wf hs
  have hgood (h : RangeGood s a.toNat bs.length) : RangeGood s0 a.toNat bs.length :=
    h.congr (hdepart.warp rfl) (hdepart.health rfl) (chanAvail_of_regs (hdepart.regs rfl))
  refine ⟨fun hag => ?_, fun hag hin => ?_, fun hag r hout => ?_, fun hag rest hq => ?_, fun hag rest hq hin => ?_⟩
  · have e := execMemoryAccess_performs (acc := .read bs.length) hc hpos h0 h1 hm hw hag
    refine ⟨_, inContract_within hk execMemoryAccess_within rfl e, ?_, rfl, fun hok h => ?_, fun hno => ?_⟩
    · exact (busRead_within.mem rfl).trans (hdepart.mem rfl)
    · have hread := busRead_of_good h0 hok (hgood h)
      rw [State.bytes_of_mem (hdepart.mem rfl) (hdepart.memGen rfl)] at hread
      exact congrArg Resp.data hread
    · rw [busRead_refused hno]
  · have e := (execMemoryAccess_performs (acc := .write bs) hc hpos h0 h1 hm hw hag).trans (accPerform_write hin)
    refine ⟨_, inContract_within hk execMemoryAccess_within rfl e, fun x hx => ?_, fun hok h => ?_, fun hno => busWrite_refused hno⟩
    · exact ((hdepart.changesOnlyBytes.trans (busWrite_changesOnlyBytes ag a.toNat bs s0)) hs).2 x hx
    · exact busWrite_of_good h0 hs0 hok (hgood h)
  · exact inContract_leave hk
      ((execMemoryAccess_performs (acc := .write bs) hc hpos h0 h1 hm hw hag).trans (accPerform_outside hout))
  · have e := execMemoryAccess_first (acc := .read bs.length) hc hpos h0 h1 hm hw hag hq
    have hread : Within 147464 { s with host := { s.host with waiting := rest } }
        (busRead .host a.toNat bs.length (depart (.host a.toNat) { s with host := { s.host with waiting := rest } })).2 :=
      Within.step busRead_within (by decide) (Within.step depart_within (by decide) (Within.refl _ _))
    exact ⟨_, inContract_within hk execMemoryAccess_within rfl e, congrArg HostSt.waiting (hread.host rfl), hread.mem rfl, _, rfl⟩
  · have e := (execMemoryAccess_first (acc := .write bs) hc hpos h0 h1 hm hw hag hq).trans (accPerform_write hin)
    have hturned : ChangesOnlyBytes a.toNat bs.length s { s with host := { s.host with waiting := rest } } := fun w => ⟨w, fun _ _ => rfl⟩
    have hhost : (busWrite .host a.toNat bs (depart (.host a.toNat) { s with host := { s.host with waiting := rest } })).host =
        { s.host with waiting := rest } := (busWrite_within.host rfl).trans (depart_within.host rfl)
    exact ⟨_, inContract_within hk execMemoryAccess_within rfl e, congrArg HostSt.waiting hhost,
      (((hturned.trans depart_within.changesOnlyBytes).trans (busWrite_changesOnlyBytes _ _ _ _)) hs).2⟩

end Sys2Proof.Machine
end

section
/-! SUPPORT. Channel modes (R381, R382, R389, R397, R398): requests by the host, the commands that a request discards, the end of a drain,
and the derating of a hot channel. -/

namespace Sys2Proof.Machine

/-! ### Commands that a request discards (R382, R389, R398) -/

/-- A command that had not started is discarded: it counts as completed and as dropped, and a NOTIFY writes its tag marked. -/
def cmdDropped (c : Nat) (s : State) (m : BuCmd) : State :=
  let s := (buCount c m s).sat (Reg.memCmdDropped c)
  if (buOp m.cmd).op = 0x1F then notifyWrite m true s else s

/-- The same with the check of R403. -/
def dropOne (c : Nat) (m : BuCmd) (s : State) : Res State :=
  let s := (buCount c m s).sat (Reg.memCmdDropped c)
  if (buOp m.cmd).op = 0x1F then (if notifyOutside s m then oc 403 else .next (notifyWrite m true s)) else .next s

/-- No accepted command of channel c waits to start. -/
def queueEmptied (c : Nat) (s : State) : State :=
  setChan s c { chan s c with accq := [], barriers := (chan s c).barriers.map fun b => (b.1, 0) }

theorem buDiscard_eq (c : Nat) (s : State) : buDiscard c s =
    andThen ((chan s c).accq.foldl (fun r m => andThen r (dropOne c m)) (.next (queueEmptied c s))) fun s => .next (memSync c s) := rfl

theorem notifyOutside_of_warp {s t : State} (h : t.warp = s.warp) (m : BuCmd) : notifyOutside t m = notifyOutside s m := by
  simp only [notifyOutside, corePart_of_warp h, partEntry_of_warp h]

section
variable {c : Nat} {s : State}

theorem dropCounted_within {m : BuCmd} : Within 16392 s ((buCount c m s).sat (Reg.memCmdDropped c)) :=
  Within.step State.sat_within (by decide) buCount_within

theorem cmdDropped_within {m : BuCmd} : Within 134234152 s (cmdDropped c s m) := by
  have hcount : Within 134234152 s ((buCount c m s).sat (Reg.memCmdDropped c)) :=
    Within.step dropCounted_within (by decide) (Within.refl _ _)
  exact Within.ite (Within.step notifyWrite_within (by decide) hcount) hcount

theorem dropOne_next {m : BuCmd} (h : (buOp m.cmd).op = 0x1F → notifyOutside s m = false) : dropOne c m s = .next (cmdDropped c s m) := by
  have hout := notifyOutside_of_warp ((dropCounted_within (c := c) (m := m) (s := s)).warp rfl) m
  unfold dropOne cmdDropped
  dsimp only
  by_cases hop : (buOp m.cmd).op = 0x1F
  · rw [if_pos hop, if_pos hop, if_neg (by simp [hout, h hop])]
  · rw [if_neg hop, if_neg hop]

/-- Commands whose tags lie within their partitions are discarded one after another. -/
theorem foldl_dropOne {l : List BuCmd} (h : ∀ m ∈ l, (buOp m.cmd).op = 0x1F → notifyOutside s m = false) :
    l.foldl (fun r m => andThen r (dropOne c m)) (.next s) = .next (l.foldl (cmdDropped c) s) := by
  induction l generalizing s with
  | nil => rfl
  | cons m l ih =>
    have hrest : ∀ n ∈ l, (buOp n.cmd).op = 0x1F → notifyOutside (cmdDropped c s m) n = false := fun n hn hop =>
      (notifyOutside_of_warp (cmdDropped_within.warp rfl) n).trans (h n (List.mem_cons_of_mem m hn) hop)
    rw [List.foldl_cons, List.foldl_cons, andThen, dropOne_next (h m (List.mem_cons_self ..)), ih hrest]

theorem foldl_cmdDropped_within (l : List BuCmd) : Within 134234152 s (l.foldl (cmdDropped c) s) :=
  Within.foldl (fun _ _ => cmdDropped_within) (Within.refl _ _)

/-- The registers that count discarded commands. -/
def dropRegs (c x : Nat) : Bool := x == Reg.memCmdDone c || x == Reg.memCmdDropped c

theorem cmdDropped_changesOnlyRegs (m : BuCmd) : ChangesOnlyRegs (dropRegs c) s (cmdDropped c s m) := by
  have hdone : ChangesOnlyRegs (dropRegs c) s (buCount c m s) :=
    ChangesOnlyRegs.trans (.of_regs (by rfl)) (wr_changesOnlyRegs (by simp [dropRegs]))
  have hcount : ChangesOnlyRegs (dropRegs c) s ((buCount c m s).sat (Reg.memCmdDropped c)) :=
    hdone.trans (wr_changesOnlyRegs (by simp [dropRegs]))
  exact .ite (hcount.trans (.of_regs (notifyWrite_within.regs rfl))) hcount

theorem rd_cmdDropped (hs : s.wf = true) (m : BuCmd) :
    ((cmdDropped c s m).rd (Reg.memCmdDropped c)).toNat = min ((s.rd (Reg.memCmdDropped c)).toNat + 1) 0xFFFFFFFF := by
  have hregs : (cmdDropped c s m).regs = ((buCount c m s).sat (Reg.memCmdDropped c)).regs := by
    unfold cmdDropped
    dsimp only
    split
    · exact notifyWrite_within.regs rfl
    · rfl
  rw [State.rd_of_regs hregs, State.rd_sat_toNat (State.wf_regs (buCount_within.wf hs)),
    (buCount_only c m).rd_ne (State.wf_regs hs) (by simp only [Reg.memCmdDone, Reg.memCmdDropped]; omega)]

/-- Each discarded command counts once in MEM_CMD_DROPPED. -/
theorem rd_foldl_cmdDropped (hs : s.wf = true) (l : List BuCmd) : ((l.foldl (cmdDropped c) s).rd (Reg.memCmdDropped c)).toNat =
    min ((s.rd (Reg.memCmdDropped c)).toNat + l.length) 0xFFFFFFFF := by
  induction l generalizing s with
  | nil =>
    have := (s.rd (Reg.memCmdDropped c)).isLt
    simp only [List.foldl_nil, List.length_nil]
    omega
  | cons m l ih =>
    rw [List.foldl_cons, ih (cmdDropped_within.wf hs), rd_cmdDropped hs, List.length_cons]
    omega

theorem chan_cmdDropped (hs : s.wf = true) (m : BuCmd) : (chan (cmdDropped c s m) c).accq = (chan s c).accq ∧
    (chan (cmdDropped c s m) c).running = (chan s c).running := by
  have hchan : chan (cmdDropped c s m) c = chan (buCount c m s) c := by
    refine chan_of_chans ?_ c
    unfold cmdDropped
    dsimp only
    split
    · exact notifyWrite_within.chans rfl
    · rfl
  rw [hchan, chan_buCount c hs]
  exact ⟨rfl, rfl⟩

theorem chan_foldl_cmdDropped (hs : s.wf = true) (l : List BuCmd) : (chan (l.foldl (cmdDropped c) s) c).accq = (chan s c).accq ∧
    (chan (l.foldl (cmdDropped c) s) c).running = (chan s c).running := by
  induction l generalizing s with
  | nil => exact ⟨rfl, rfl⟩
  | cons m l ih =>
    obtain ⟨haccq, hrunning⟩ := chan_cmdDropped (c := c) hs m
    obtain ⟨haccq', hrunning'⟩ := ih (s := cmdDropped c s m) (cmdDropped_within.wf hs)
    exact ⟨haccq'.trans haccq, hrunning'.trans hrunning⟩

/-- Tags outside companion memory leave its bytes. -/
theorem cmdDropped_keepsComp {a : Nat} {m : BuCmd} (ha : inComp a = true) (h : (buOp m.cmd).op = 0x1F → inComp (notifyAddr m) = false) :
    KeepsByte a s (cmdDropped c s m) := by
  have hcount : KeepsByte a s ((buCount c m s).sat (Reg.memCmdDropped c)) := fun w => ⟨dropCounted_within.wf w, rfl⟩
  unfold cmdDropped
  dsimp only
  split
  · next hop =>
    have hbelow : a < notifyAddr m := by
      have hm := h hop
      simp only [inComp, decide_eq_true_eq, decide_eq_false_iff_not] at ha hm
      omega
    exact hcount.trans ((putEngine_changesOnlyBytes _ _ _).keepsByte (.inl hbelow))
  · exact hcount

end

/-! ### Requests for a mode (R381, R382) -/

/-- Channel c is DRAINING toward a mode. -/
def drainingTo (c mode : Nat) (s : State) : State := (s.putF (Reg.memStatus c) 0 2 2).putF (Reg.memStatus c) 2 1 mode

section
variable {c mode : Nat} {s : State}

theorem drainingTo_within : Within 8 s (drainingTo c mode s) := Within.step State.putF_within (by decide) State.putF_within

theorem drainingTo_only : ChangesOnlyRegs (· == Reg.memStatus c) s (drainingTo c mode s) :=
  (putF_changesOnlyRegs (by simp)).trans (putF_changesOnlyRegs (by simp))

theorem drainingTo_shows (w : RegsOk s) (hm : mode ≤ 1) :
    chanState (drainingTo c mode s) c = 2 ∧ (drainingTo c mode s).fld (Reg.memStatus c) 2 1 = mode := by
  have hput : RegsOk (s.putF (Reg.memStatus c) 0 2 2) := regsOk_putF w
  refine ⟨(State.fld_putF_ne hput (by decide)).trans (State.fld_putF_same w (by decide)), ?_⟩
  rw [drainingTo, State.fld_putF_same hput (by decide)]
  omega

/-- A request for the other mode, once the commands that have not started are discarded. -/
def modeLeft (c mode : Nat) (s : State) : State :=
  memSync c ((chan s c).accq.foldl (cmdDropped c) (queueEmptied c (drainingTo c mode s)))

theorem modeRequest_other (hst : chanState s c = 1 - mode) (hm : mode ≤ 1)
    (hin : ∀ m ∈ (chan s c).accq, (buOp m.cmd).op = 0x1F → notifyOutside s m = false) :
    modeRequest c mode s = .next (modeLeft c mode s) := by
  have hwarp : (queueEmptied c (drainingTo c mode s)).warp = s.warp := rfl
  have hchan : chan (drainingTo c mode s) c = chan s c := rfl
  have hfold := foldl_dropOne (c := c) (s := queueEmptied c (drainingTo c mode s)) (l := (chan s c).accq)
    fun m hmem hop => (notifyOutside_of_warp hwarp m).trans (hin m hmem hop)
  have h3 : ¬chanState s c = 3 := by omega
  have h2 : ¬chanState s c = 2 := by omega
  have hne : ¬chanState s c = mode := by omega
  simp only [modeRequest, h3, h2, hne, if_false]
  change buDiscard c (drainingTo c mode s) = _
  rw [buDiscard_eq, hchan, hfold]
  rfl

theorem queueEmptied_wf (hs : s.wf = true) : (queueEmptied c (drainingTo c mode s)).wf = true :=
  setChan_within.wf (drainingTo_within.wf hs)

/-- The registers that a request changes besides MEM_STATUS. -/
theorem modeLeft_changesOnlyRegs :
    ChangesOnlyRegs (fun x => dropRegs c x || x == Reg.memQueue c) (drainingTo c mode s) (modeLeft c mode s) := by
  have hfold : ChangesOnlyRegs (dropRegs c) (drainingTo c mode s)
      ((chan s c).accq.foldl (cmdDropped c) (queueEmptied c (drainingTo c mode s))) :=
    ChangesOnlyRegs.trans (.of_regs (by rfl)) (foldl_changesOnlyRegs (fun m _ t => cmdDropped_changesOnlyRegs m) _)
  exact (hfold.mono fun x hx => (Bool.or_eq_false_iff.mp hx).1).trans ((memSync_only c).mono fun x hx => (Bool.or_eq_false_iff.mp hx).2)

theorem modeLeft_shows (hs : s.wf = true) (hm : mode ≤ 1) :
    chanState (modeLeft c mode s) c = 2 ∧ (modeLeft c mode s).fld (Reg.memStatus c) 2 1 = mode ∧
    (chan (modeLeft c mode s) c).accq = [] ∧ (chan (modeLeft c mode s) c).running = (chan s c).running ∧
    ((modeLeft c mode s).rd (Reg.memCmdDropped c)).toNat =
      min ((s.rd (Reg.memCmdDropped c)).toNat + (chan s c).accq.length) 0xFFFFFFFF := by
  have hdrain : (drainingTo c mode s).wf = true := drainingTo_within.wf hs
  have hempty : (queueEmptied c (drainingTo c mode s)).wf = true := queueEmptied_wf hs
  obtain ⟨hstate, htarget⟩ := drainingTo_shows (c := c) (State.wf_regs hs) hm
  have hstatus : (fun x => dropRegs c x || x == Reg.memQueue c) (Reg.memStatus c) = false := by
    simp [dropRegs, Reg.memCmdDone, Reg.memCmdDropped, Reg.memQueue, Reg.memStatus]
  obtain ⟨haccq, hrunning⟩ := chan_foldl_cmdDropped (c := c) hempty (chan s c).accq
  have hchan : chan (queueEmptied c (drainingTo c mode s)) c = _ := chan_setChan_same hdrain c _
  rw [hchan] at haccq hrunning
  refine ⟨(modeLeft_changesOnlyRegs.fld (State.wf_regs hdrain) hstatus 0 2).trans hstate,
    (modeLeft_changesOnlyRegs.fld (State.wf_regs hdrain) hstatus 2 1).trans htarget, ?_, ?_, ?_⟩
  · rw [modeLeft, chan_memSync, haccq]
  · rw [modeLeft, chan_memSync, hrunning]
    rfl
  · have hold : (queueEmptied c (drainingTo c mode s)).rd (Reg.memCmdDropped c) = s.rd (Reg.memCmdDropped c) :=
      drainingTo_only.rd_ne (State.wf_regs hs) (by simp only [Reg.memCmdDropped, Reg.memStatus]; omega)
    rw [modeLeft, (memSync_only c).rd_ne (State.wf_regs ((foldl_cmdDropped_within _).wf hempty))
      (by simp only [Reg.memCmdDropped, Reg.memQueue]; omega), rd_foldl_cmdDropped hempty, hold]

/-- Companion memory stays as it was where no tag lies in it. -/
theorem modeLeft_keepsComp {a : Nat} (ha : inComp a = true)
    (h : ∀ m ∈ (chan s c).accq, (buOp m.cmd).op = 0x1F → inComp (notifyAddr m) = false) : KeepsByte a s (modeLeft c mode s) := by
  have hempty : KeepsByte a s (queueEmptied c (drainingTo c mode s)) := fun w => ⟨queueEmptied_wf w, rfl⟩
  have hfold := foldl_keepsByte (fun m hm t => cmdDropped_keepsComp (c := c) (s := t) ha (h m hm)) (queueEmptied c (drainingTo c mode s))
  have hsync (t : State) : KeepsByte a t (memSync c t) := fun w => ⟨memSync_within.wf w, rfl⟩
  exact (hempty.trans hfold).trans (hsync _)

end

/-! ### Requests by the host -/

theorem hostOpen_held {s : State} (h : hostOpen s = true) : hostTakes .held s = true ∧ s.inHold = false := by
  simp only [hostOpen, hostTakes, Bool.and_eq_true, Bool.or_eq_true, Bool.not_eq_true'] at h ⊢
  obtain ⟨⟨⟨hreach, hhold⟩, hclk⟩, hpost⟩ := h
  have hhold : s.inHold = false := hhold.resolve_right (by decide)
  have hclk : (s.clk == Clk.running) = true := by simpa using hclk
  exact ⟨⟨⟨⟨hreach, .inl hhold⟩, .inl (.inl hclk)⟩, hpost⟩, hhold⟩

theorem hostMode_of_open {c mode : Nat} {s : State} (h : hostOpen s = true) : hostMode c mode s = modeRequest c mode s := by
  obtain ⟨hheld, hhold⟩ := hostOpen_held h
  rw [hostMode, hostWrite_of_takes hheld, if_neg (by simp [hhold])]

section
variable {c : Fin 48} {s : State} (hk : s.Kept) (hs : s.wf = true)
include hk hs

/-- What a request for a mode does in each state of its channel. -/
theorem exec_modeRequest {cmd : Instr} {mode : Nat} (hm : mode ≤ 1) (he : exec cmd s = inContract (hostMode c mode) s)
    (hopen : hostOpen s = true) :
    (chanState s c = 3 ∨ chanState s c = mode → exec cmd s = .next s) ∧
    (chanState s c = 2 → ∃ t, exec cmd s = .next t ∧ t.fld (Reg.memStatus c) 2 1 = mode ∧ chanState t c = 2 ∧
      ∀ p : Part, p ≠ .regs → p.same s t) ∧
    (chanState s c = 1 - mode → (∀ m ∈ (chan s c).accq, (buOp m.cmd).op = 0x1F → notifyOutside s m = false) →
      ∃ t : State, exec cmd s = .next t.settle ∧
        chanState t c = 2 ∧ t.fld (Reg.memStatus c) 2 1 = mode ∧ (chan t c).accq = [] ∧ (chan t c).running = (chan s c).running ∧
        (t.rd (Reg.memCmdDropped c)).toNat = min ((s.rd (Reg.memCmdDropped c)).toNat + (chan s c).accq.length) 0xFFFFFFFF ∧
        ((∀ m ∈ (chan s c).accq, (buOp m.cmd).op = 0x1F → inComp (notifyAddr m) = false) → ∀ a, inComp a = true → t.byte a = s.byte a)) := by
  have hmode : hostMode c mode s = modeRequest c mode s := hostMode_of_open hopen
  have w : RegsOk s := State.wf_regs hs
  rw [he]
  refine ⟨fun hst => inContract_kept hk hk (hmode.trans ?_), fun hst => ?_, fun hst hin => ?_⟩
  · rcases hst with h3 | hsame
    · rw [modeRequest, if_pos h3]
    · have h3 : ¬mode = 3 := by omega
      have h2 : ¬mode = 2 := by omega
      simp only [modeRequest, hsame, h3, h2, if_false, if_true]
  · have e : modeRequest c mode s = .next (s.putF (Reg.memStatus c) 2 1 mode) := by simp [modeRequest, hst]
    have hput : Within 8 s (s.putF (Reg.memStatus c) 2 1 mode) := State.putF_within
    refine ⟨_, inContract_kept hk (kept_of_contract (hput.contract rfl) hk) (hmode.trans e), ?_, (State.fld_putF_ne w (by decide)).trans hst,
      fun p hp => hput.same_of_not_mem (l := [.regs]) (by decide) p (by simpa using hp)⟩
    rw [State.fld_putF_same w (by decide)]
    omega
  · obtain ⟨hstate, htarget, haccq, hrunning, hrd⟩ := modeLeft_shows (c := c) hs hm
    exact ⟨_, inContract_next hk (hmode.trans (modeRequest_other hst hm hin)), hstate, htarget, haccq, hrunning, hrd,
      fun h a ha => (modeLeft_keepsComp ha h hs).2⟩

end

end Sys2Proof.Machine
end

section
/-! SUPPORT. The statement on channel modes (R10, R381, R382, R397, R584). -/

namespace Sys2Proof.Machine

/-! ### A write that changes nothing -/

/-- Writing what a key holds leaves a canonical table as it is. -/
theorem Tab.set_get {α : Type} [DecidableEq α] {d : Nat → α} {t : Tab α} {lo : Nat} (i : Nat) (w : Tab.wfFrom d lo t = true) :
    Tab.set d t i (Tab.get d t i) = t := by
  induction t generalizing lo with
  | nil => simp [Tab.set, Tab.get, Tab.cons]
  | cons e t ih =>
    obtain ⟨k, x⟩ := e
    simp only [Tab.wfFrom, Bool.and_eq_true, decide_eq_true_eq] at w
    obtain ⟨⟨-, hx⟩, ht⟩ := w
    rw [Tab.get, Tab.set]
    split
    · rw [Tab.cons, if_pos rfl]
    · split
      · next e => rw [Tab.cons, e, if_neg hx]
      · rw [ih ht]

theorem State.wr_rd_self {s : State} (w : RegsOk s) (a : Nat) : s.wr a (s.rd a) = s := by
  rw [State.wr, State.rd, Tab.set_get a w]

/-! ### MEM_CTRL (R381) -/

/-- MEM_CTRL has the two request bits, which no write keeps. -/
theorem memCtrl_codes : ∀ c : Fin 48, blkOf (Reg.memCtrl c) = some .memB ∧
    (regHit (Reg.memCtrl c)).map (fun h => (h.word.rw, h.word.w1c, 3#32 &&& reservedBits h)) = some (0, 0, 0) := by decide +kernel

/-- A write of both request bits asks for memory mode. -/
theorem writeWords_memCtrl {c : Fin 48} {s : State} (w : RegsOk s) :
    writeWords .memB [(Reg.memCtrl c, 3#32)] s = execMemToMemory c s := by
  obtain ⟨-, hcodes⟩ := memCtrl_codes c
  obtain ⟨h, hh, hcode⟩ := Option.map_eq_some_iff.mp hcodes
  simp only [Prod.mk.injEq] at hcode
  obtain ⟨hrw, hw1c, hres⟩ := hcode
  have hlt := c.isLt
  have hf : Reg.memCtrl c ≠ Reg.traceFreeze := by simp only [Reg.memCtrl, Reg.traceFreeze]; omega
  have hout : wordOutside s .memB (Reg.memCtrl c, 3#32) = none := by simp only [wordOutside, if_neg hf, hh]; simp [hrw, hres]
  have hbits : w1cBits (Reg.memCtrl c) = 0#32 := by simp [w1cBits, hh, hw1c]
  have hclear : w1cClear s (Reg.memCtrl c, 3#32) = s := by
    have hall : ~~~(3#32 &&& 0#32) = BitVec.allOnes 32 := by decide
    rw [w1cClear, hbits, hall, BitVec.and_allOnes]
    exact State.wr_rd_self w _
  have horder : writeOrder [(Reg.memCtrl c, 3#32)] = [(Reg.memCtrl c, 3#32)] := by
    unfold writeOrder
    cases h : actsOnWrite (Reg.memCtrl c, 3#32) <;> simp [h]
  have hblk : writeWord .memB (Reg.memCtrl c, 3#32) s = execMemToMemory c s := by
    simp [writeWord, if_neg hf, hh, hbits, writeBlk, writeMem]
  have hjudged (r : Res State) : andThen r (windowsJudged .memB [(Reg.memCtrl c, 3#32)]) = r := by
    cases r <;> simp [andThen, windowsJudged, windowWord]
  simp only [writeWords, List.findSome?_cons, List.findSome?_nil, hout, List.foldl_cons, List.foldl_nil, hclear, horder]
  rw [hjudged, andThen, hblk]

theorem exec_bar0Write_memCtrl {c : Fin 48} {s : State} (hs : s.wf = true) (hk : s.Kept) (hopen : hostOpen s = true) :
    exec (.bar0Write (BitVec.ofNat 26 (Reg.memCtrl c)) .b32 3#64 false) s = exec (.memToMemory c) s := by
  have hlt := c.isLt
  have haddr : (BitVec.ofNat 26 (Reg.memCtrl c)).toNat = Reg.memCtrl c := by
    rw [BitVec.toNat_ofNat, Nat.mod_eq_of_lt]
    simp only [Reg.memCtrl]
    omega
  have hal : aligned (BitVec.ofNat 26 (Reg.memCtrl c)).toNat .b32 = true := by
    rw [haddr, aligned, beq_iff_eq]
    simp only [Reg.memCtrl]
    omega
  obtain ⟨hheld, -⟩ := hostOpen_held hopen
  have hwrite : execBar0Write (BitVec.ofNat 26 (Reg.memCtrl c)) .b32 3#64 false s = execMemToMemory c s := by
    rw [execBar0Write_aligned hal (by rw [haddr]; exact (memCtrl_codes c).1) (show hostTakes (blkDom .memB) s = true from hheld), haddr]
    exact writeWords_memCtrl (State.wf_regs hs)
  rw [exec_bar0Write, exec_memToMemory]
  simp only [inContract, inContractWith, State.settle_of_kept hk, hwrite]

/-! ### The end of a drain (R181, R381, R382) -/

theorem exec_channelDrainComplete_waits {c : Fin 48} {s : State} (hk : s.Kept)
    (h : (chan s c).running ≠ [] ∨ (chan s c).barriers ≠ []) :
    exec (.channelDrainComplete c) s = .next s := by
  refine inContract_kept hk hk (f := execChannelDrainComplete c) ?_
  rcases h with h | h <;> simp [execChannelDrainComplete, onlyIf, h]

section
variable {c : Fin 48} {s : State} (hk : s.Kept) (hc : s.cclk = true) (hst : chanState s c = 2)
  (hrun : (chan s c).running = []) (hbar : (chan s c).barriers = [])
include hk hc hst hrun hbar

theorem exec_channelDrainComplete_enters (hs : s.wf = true) (h : s.fld (Reg.memStatus c) 2 1 = 0 ∨ ringIn s c = false) :
    ∃ t, exec (.channelDrainComplete c) s = .next t ∧ chanState t c = s.fld (Reg.memStatus c) 2 1 ∧ ∀ p : Part, p ≠ .regs → p.same s t := by
  have hin : (s.fld (Reg.memStatus c) 2 1 == 1 && ringIn s c) = false := by rcases h with h | h <;> simp [h]
  have e : execChannelDrainComplete c s = .next (s.putF (Reg.memStatus c) 0 2 (s.fld (Reg.memStatus c) 2 1)) := by
    simp [execChannelDrainComplete, onlyIf, hc, hst, hrun, hbar, hin, State.leaveIf]
  have hput : Within 8 s (s.putF (Reg.memStatus c) 0 2 (s.fld (Reg.memStatus c) 2 1)) := State.putF_within
  refine ⟨_, inContract_kept hk (kept_of_contract (hput.contract rfl) hk) e, ?_,
    fun p hp => hput.same_of_not_mem (l := [.regs]) (by decide) p (by simpa using hp)⟩
  have hlt : s.fld (Reg.memStatus c) 2 1 < 2 ^ 1 := fieldN_lt _ _ _
  rw [chanState, State.fld_putF_same (State.wf_regs hs) (by decide)]
  omega

theorem exec_channelDrainComplete_ring (ht : s.fld (Reg.memStatus c) 2 1 = 1) (hring : ringIn s c = true) :
    exec (.channelDrainComplete c) s = .next ((s.leave 181).putF (Reg.memStatus c) 0 2 1).settle :=
  inContract_next hk (f := execChannelDrainComplete c)
    (by simp [execChannelDrainComplete, onlyIf, hc, hst, hrun, hbar, ht, hring, State.leaveIf])

end

/-! ### Derating (R397, R584) -/

/-- Channel c has the temperature of its device: above 85 °C it is derated, at 83 °C and below no longer. -/
def tempSampled (x : BitVec 8) (s : State) (c : Nat) : State :=
  let s := s.putF (Reg.memTemp c) 0 8 x.toNat
  if 85 < x.toInt then s.putB (Reg.memStatus c) 3 true
  else if x.toInt ≤ 83 then s.putB (Reg.memStatus c) 3 false else s

/-- The registers MGMT_TEMP_MD and MGMT_TEMP follow. -/
def tempShown (d : Fin 12) (x : BitVec 8) (s : State) : State := memHottest (s.putF (Reg.mgmtTempMd (d / 4)) (8 * (d.val % 4)) 8 x.toNat)

theorem execMemTempSample_samples {d : Fin 12} {x : BitVec 8} {s : State} (ht : s.tclk = true) (hb : s.bistDone = true) :
    execMemTempSample d x s =
      .next (tempShown d x (((List.range 4).map (4 * d.val + ·)).foldl (tempSampled x) s)) := by
  rw [execMemTempSample, onlyIf_of_true (by simp [ht, hb]), List.foldl_map]
  rfl

section
variable {x : BitVec 8} {s : State} {c : Nat}

/-- The registers of channel c that a sample writes. -/
def tempRegs (c y : Nat) : Bool := y == Reg.memTemp c || y == Reg.memStatus c

theorem tempSampled_changesOnlyRegs : ChangesOnlyRegs (tempRegs c) s (tempSampled x s c) := by
  have htemp : ChangesOnlyRegs (tempRegs c) s (s.putF (Reg.memTemp c) 0 8 x.toNat) := putF_changesOnlyRegs (by simp [tempRegs])
  have hbit (b : Bool) : ChangesOnlyRegs (tempRegs c) s ((s.putF (Reg.memTemp c) 0 8 x.toNat).putB (Reg.memStatus c) 3 b) :=
    htemp.trans (putB_changesOnlyRegs (by simp [tempRegs]))
  exact .ite (hbit true) (.ite (hbit false) htemp)

/-- A channel shows its temperature and whether it is derated; `was` is whether it had been. -/
def ShowsTemp (x : BitVec 8) (c : Nat) (was : Bool) (t : State) : Prop :=
  t.fld (Reg.memTemp c) 0 8 = x.toNat ∧
    t.bit (Reg.memStatus c) 3 = (if x.toInt > 85 then true else if x.toInt ≤ 83 then false else was)

theorem tempSampled_shows (w : RegsOk s) : ShowsTemp x c (s.bit (Reg.memStatus c) 3) (tempSampled x s c) := by
  have hput : RegsOk (s.putF (Reg.memTemp c) 0 8 x.toNat) := regsOk_putF w
  have hne : Reg.memStatus c ≠ Reg.memTemp c := by simp only [Reg.memStatus, Reg.memTemp]; omega
  have htemp : (s.putF (Reg.memTemp c) 0 8 x.toNat).fld (Reg.memTemp c) 0 8 = x.toNat :=
    (State.fld_putF_same w (by decide)).trans (Nat.mod_eq_of_lt x.isLt)
  have hkeep (b : Bool) : ((s.putF (Reg.memTemp c) 0 8 x.toNat).putB (Reg.memStatus c) 3 b).fld (Reg.memTemp c) 0 8 = x.toNat :=
    (State.fld_of_rd (State.rd_putB_ne hput hne.symm) 0 8).trans htemp
  unfold tempSampled ShowsTemp
  dsimp only
  split
  · exact ⟨hkeep true, State.bit_putB_same hput (by decide)⟩
  · split
    · exact ⟨hkeep false, State.bit_putB_same hput (by decide)⟩
    · exact ⟨htemp, State.bit_of_rd (State.rd_putF_ne w hne) 3⟩

/-- What changes neither register of a channel leaves what it shows. -/
theorem ShowsTemp.of_changesOnlyRegs {p : Nat → Bool} {was : Bool} {t u : State} (h : ShowsTemp x c was t) (ht : RegsOk t)
    (hu : ChangesOnlyRegs p t u) (htemp : p (Reg.memTemp c) = false) (hstatus : p (Reg.memStatus c) = false) : ShowsTemp x c was u :=
  ⟨(hu.fld ht htemp 0 8).trans h.1, (hu.bit ht hstatus 3).trans h.2⟩

theorem tempRegs_other {c c' : Nat} (h : c' ≠ c) : tempRegs c' (Reg.memTemp c) = false ∧ tempRegs c' (Reg.memStatus c) = false := by
  simp only [tempRegs, Bool.or_eq_false_iff, beq_eq_false_iff_ne, Reg.memTemp, Reg.memStatus]
  omega

theorem foldl_tempSampled_changesOnlyRegs (l : List Nat) :
    ChangesOnlyRegs (fun y => l.any fun c => tempRegs c y) s (l.foldl (tempSampled x) s) :=
  foldl_changesOnlyRegs (fun c hc _ => (tempSampled_changesOnlyRegs (c := c)).mono fun _ hy =>
    Bool.eq_false_iff.mpr (List.any_eq_false.mp hy c hc)) s

/-- Of the channels sampled, each shows its own. -/
theorem foldl_tempSampled_shows {l : List Nat} (w : RegsOk s) (hl : l.Nodup) (hc : c ∈ l) :
    ShowsTemp x c (s.bit (Reg.memStatus c) 3) (l.foldl (tempSampled x) s) := by
  induction l generalizing s with
  | nil => exact absurd hc List.not_mem_nil
  | cons c' l ih =>
    obtain ⟨hout, hl⟩ := List.nodup_cons.mp hl
    have hstep : RegsOk (tempSampled x s c') := tempSampled_changesOnlyRegs.regsOk w
    rcases List.mem_cons.mp hc with rfl | hc
    · have hother : ∀ b ∈ l, tempRegs b (Reg.memTemp c) = false ∧ tempRegs b (Reg.memStatus c) = false := fun b hb =>
        tempRegs_other fun e => hout (e ▸ hb)
      refine (tempSampled_shows w).of_changesOnlyRegs hstep (foldl_tempSampled_changesOnlyRegs l) ?_ ?_
      · simpa using fun b hb => (hother b hb).1
      · simpa using fun b hb => (hother b hb).2
    · have hne : c' ≠ c := fun e => hout (e ▸ hc)
      have hwas := (tempSampled_changesOnlyRegs (x := x)).bit w (tempRegs_other hne).2 3
      have h := ih hstep hl hc
      rwa [hwas] at h

theorem tempShown_changesOnlyRegs (d : Fin 12) : ChangesOnlyRegs (fun y => decide (0x2900000 ≤ y)) s (tempShown d x s) :=
  (putF_changesOnlyRegs (decide_eq_true (by simp only [Reg.mgmtTempMd]; omega))).trans
    (putF_changesOnlyRegs (decide_eq_true (by decide)))

end

theorem exec_memTempSample_shows {c : Fin 48} {s : State} (hk : s.Kept) (hs : s.wf = true) (d : Fin 12) (x : BitVec 8) (ht : s.tclk = true)
    (hb : s.bistDone = true) (hd : c.val / 4 = d.val) :
    ∃ t, exec (.memTempSample d x) s = .next t ∧ t.fld (Reg.memTemp c) 0 8 = x.toNat ∧
      t.bit (Reg.memStatus c) 3 = (if x.toInt > 85 then true else if x.toInt ≤ 83 then false else s.bit (Reg.memStatus c) 3) ∧
      ∀ p : Part, p ≠ .regs → p.same s t := by
  have hlt := c.isLt
  have e := execMemTempSample_samples (x := x) (d := d) ht hb
  have hwithin := execMemTempSample_within _ e
  have hmem : c.val ∈ (List.range 4).map (4 * d.val + ·) :=
    List.mem_map.mpr ⟨c.val - 4 * d.val, List.mem_range.mpr (by omega), by omega⟩
  have hl : ((List.range 4).map (4 * d.val + ·)).Nodup := List.nodup_range.map fun _ _ h => Nat.add_left_cancel h
  have hfold := foldl_tempSampled_shows (x := x) (State.wf_regs hs) hl hmem
  have hshown := hfold.of_changesOnlyRegs ((foldl_tempSampled_changesOnlyRegs _).regsOk (State.wf_regs hs))
    (tempShown_changesOnlyRegs (x := x) d) (decide_eq_false (by simp only [Reg.memTemp]; omega))
    (decide_eq_false (by simp only [Reg.memStatus]; omega))
  exact ⟨_, inContract_within hk execMemTempSample_within rfl e, hshown.1, hshown.2,
    fun p hp => hwithin.same_of_not_mem (l := [.regs]) (by decide) p (by simpa using hp)⟩

/-- Settles O43: the requests by `exec_modeRequest`, the write of both bits by `writeWords_memCtrl`. -/
theorem channelModes : Obligations.ChannelModes := by
  intro c s hk hs
  refine ⟨fun hopen row hrow => ?_, exec_bar0Write_memCtrl hs hk,
    fun hc hst hrun hbar => ⟨exec_channelDrainComplete_enters hk hc hst hrun hbar hs, exec_channelDrainComplete_ring hk hc hst hrun hbar⟩,
    fun _ _ => exec_channelDrainComplete_waits hk, exec_memTempSample_shows hk hs⟩
  simp only [List.mem_cons, List.not_mem_nil, or_false] at hrow
  rcases hrow with rfl | rfl
  · exact exec_modeRequest hk hs (Nat.zero_le 1) exec_memToMemory hopen
  · exact exec_modeRequest hk hs (Nat.le_refl 1) exec_memToProcessor hopen

end Sys2Proof.Machine
end

section
/-! SUPPORT. The statement on the requests of the embedding engine (R408 to R412, R430, R431). -/

namespace Sys2Proof.Machine

/-! ### The request next in turn (R408) -/

/-- LOOKUP and GRAD take a request the same way. -/
theorem exec_embRequest (i : Fin 8) (grad : Bool) (s : State) :
    exec (if grad then .embGrad i else .embLookup i) s = inContract (takeRequest i grad) s := by cases grad <;> rfl

section
variable {s : State} {i q : Nat} {grad : Bool} (hc : s.cclk = true) (hpf : s.pins.pfN = true) (hn : nextReq s = some i)
  (hroom : s.fld Reg.embStatus 8 8 ≠ 64) (hq : s.emb.reqQ.getD i 0xFFFF = q)
include hc hpf hn hroom hq

/-- A request queue that the engine does not consume, or of too short elements (R430). -/
theorem takeRequest_outside (h : qCons s q ≠ 3 ∨ qEsize s q < 72) : takeRequest i grad s = .outside 430 := by
  subst hq
  simp only [takeRequest, hc, hpf, hn, bne_self_eq_false, Bool.not_true, Bool.or_self, beq_eq_false_iff_ne.mpr hroom,
    Bool.false_eq_true, if_false, if_pos h, oc]

theorem takeRequest_accepts {p : Nat} {e : List Byte} (hcons : qCons s q = 3) (hsize : 72 ≤ qEsize s q) (he : qPeek s q = some e)
    (hp : queuePart s q = some p) (hkind : leAt e 6 1 % 4 = 1 ↔ grad = true)
    (hgo : engWaits s (takeRange s q ++ requestRanges s q p e) = false) :
    takeRequest i grad s = acceptRequest q p e
      (qTake q { engGo (takeRange s q ++ requestRanges s q p e) s with
        emb := { (engGo (takeRange s q ++ requestRanges s q p e) s).emb with turn := (i + 1) % 8 } }) := by
  subst hq
  have hfit : ¬(qCons s (s.emb.reqQ.getD i 0xFFFF) ≠ 3 ∨ qEsize s (s.emb.reqQ.getD i 0xFFFF) < 72) := by omega
  simp only [takeRequest, hc, hpf, hn, bne_self_eq_false, Bool.not_true, Bool.or_self, beq_eq_false_iff_ne.mpr hroom,
    Bool.false_eq_true, if_false, if_neg hfit, he, hp, if_neg (not_not_intro (propext hkind)), engAccess_go hgo]

end

/-! ### A request accepted (R409, R410, R425, R431) -/

theorem badRequest_iff {s : State} {x : EmbTab} {q p : Nat} {e : List Byte} :
    badRequest s x q p e = true ↔ x.partMask.testBit p = false ∨ leAt e 2 2 = 0 ∨ 256 < leAt e 2 2 ∨
      qEsize s q < 64 + 8 * leAt e 2 2 ∨ 2 ≤ leAt e 6 1 % 4 := by
  simp [badRequest, or_assoc]

/-- The gradient that a GRAD brings, and the state once it has been read (R425). -/
def requestGrad (x : EmbTab) (j : EmbJob) (e : List Byte) (s : State) : Option (List W32) × State :=
  if leAt e 6 1 % 4 = 1 then
    (some ((List.range x.dim).map fun i => BitVec.ofNat 32 (leAt (busRead j.agent j.out (4 * x.dim) s).1 (4 * i) 4)),
      (busRead j.agent j.out (4 * x.dim) s).2)
  else (none, s)

/-- What is built up once all indices of a request have been gone through, in the step that accepts it (R410, log entry 58). -/
def requestRows (x : EmbTab) (j : EmbJob) (e : List Byte) (s : State) : EmbAcc :=
  (indexRecs e (leAt e 2 2)).foldl (takeIndex x ((leAt e 6 1).testBit 2))
    ⟨{ j with grad := (requestGrad x j e s).1 }, [], false, (requestGrad x j e s).2⟩

section
variable {s : State} {q p : Nat} {e : List Byte}

theorem acceptRequest_undescribed (hx : embTab (takeNum s).2 (leAt e 0 2) = none) :
    acceptRequest q p e s = .next ((putJob { newJob (takeNum s).2 s.emb.nextId p 0 0 e with refused := true } (takeNum s).2).putB
      Reg.embStatus 1 true) := by
  simp only [takeNum] at hx
  simp only [acceptRequest, takeNum, hx]

section
variable {x : EmbTab} {t : State} {j : EmbJob} (ht : (takeNum s).2 = t) (hx : embTab t (leAt e 0 2) = some x)
  (hj : newJob t s.emb.nextId p (t.fld (Reg.embTabCur (leAt e 0 2)) 0 2) x.dim e = j)
include ht hx hj

theorem acceptRequest_malformed (hbad : badRequest t x q p e = true) :
    acceptRequest q p e s = .next ((putJob { j with refused := true } t).putB Reg.embStatus 1 true) := by
  subst ht hj
  simp only [takeNum] at hx hbad
  simp only [acceptRequest, takeNum, hx, hbad, if_true]

variable (hbad : badRequest t x q p e = false)
include hbad

/-- A request whose result or touched bits lie outside the regions (R431). -/
theorem acceptRequest_outRegions (h : inOnDie (leAt e 8 8) = false ∨ inRegions t p (leAt e 8 8) (4 * x.dim) = false ∨
    (x.touch ≠ 0 ∧ inTabRegions t x x.touch ((x.rows + 7) / 8) = false)) : acceptRequest q p e s = .outside 431 := by
  subst ht hj
  simp only [takeNum] at hx hbad h
  simp only [acceptRequest, takeNum, hx, hbad, newJob, Bool.false_eq_true, if_false, oc]
  rcases h with h | h | ⟨ht, h⟩
  · simp [h]
  · simp [h]
  · simp [h, ht]

theorem acceptRequest_values (hdie : inOnDie (leAt e 8 8) = true) (hreg : inRegions t p (leAt e 8 8) (4 * x.dim) = true)
    (htouch : x.touch = 0 ∨ inTabRegions t x x.touch ((x.rows + 7) / 8) = true) :
    acceptRequest q p e s =
      if (requestRows x j e t).outside then .outside 431
      else
        let r := (List.range 16).foldl (askChip (requestRows x j e t).others) ((requestRows x j e t).job, (requestRows x j e t).s)
        .next (putJob r.1.settle r.2) := by
  have hin : ¬(x.touch ≠ 0 ∧ (!inTabRegions t x x.touch ((x.rows + 7) / 8)) = true) := by
    rcases htouch with h | h <;> simp [h]
  have hout : j.out = leAt e 8 8 := hj ▸ rfl
  have hgrad : j.grad = none := hj ▸ rfl
  have hnum : takeNum s = (s.emb.nextId, t) := ht ▸ rfl
  rw [← hout] at hdie hreg
  simp only [acceptRequest, hnum, hx, hj, hbad, hdie, hreg, Bool.not_true, Bool.or_self, Bool.false_eq_true, if_false, if_neg hin, oc,
    requestRows, requestGrad]
  by_cases hkind : leAt e 6 1 % 4 = 1
  · simp only [if_pos hkind]
  · simp only [if_neg hkind, ← hgrad]

end

end

/-! ### A request completes (R412, R413) -/

/-- What a request writes to its result (R411, R413, R425). -/
def requestResult (s : State) (j : EmbJob) : List Byte :=
  if j.refused || j.grad.isSome then [] else (pooled s.warp.chip j).flatMap fun w => natLe 4 w.toNat

/-- The accesses that the completion of a request makes. -/
def completeRanges (s : State) (j : EmbJob) : EngRanges :=
  (j.agent, j.out, (requestResult s j).length) ::
    if j.replyQ ≠ 0xFFFF ∧ j.replyQ < 1024 ∧ (queuePart s j.replyQ).isSome = true then commitRange s j.replyQ else []

/-- The result of a request is written. -/
def resultWritten (s : State) (j : EmbJob) : State :=
  if (requestResult s j).isEmpty then engGo (completeRanges s j) s
  else engWrite [] j.agent j.out (requestResult s j) (engGo (completeRanges s j) s)

section
variable {s : State} {r : BitVec 16} {j : EmbJob} (hc : s.cclk = true)
  (hj : s.emb.jobs.find? (fun j => j.id = r.toNat ∧ j.served = none) = some j) (hr : j.ready = true)
  (hgo : engWaits s (completeRanges s j) = false)
include hc hj hr hgo

/-- A request without a reply queue ends with its result. -/
theorem execEmbRequestComplete_silent (h : j.replyQ = 0xFFFF) :
    execEmbRequestComplete r s = .next (dropJob j (resultWritten s j)) := by
  simp only [execEmbRequestComplete, hj, hc, hr, Bool.not_true, Bool.or_self, Bool.false_eq_true, if_false, if_pos h]
  exact engAccess_go hgo _

/-- The completion element follows the result (R412). -/
theorem execEmbRequestComplete_replies (h : j.replyQ < 1024) (hp : (queuePart s j.replyQ).isSome = true)
    (hput : (engCommit j.replyQ (completion j) (resultWritten s j)).1 = true) :
    execEmbRequestComplete r s = .next (dropJob j (engCommit j.replyQ (completion j) (resultWritten s j)).2) := by
  have hq : j.replyQ ≠ 0xFFFF := by omega
  simp only [execEmbRequestComplete, hj, hc, hr, Bool.not_true, Bool.or_self, Bool.false_eq_true, if_false, if_neg hq]
  refine (engAccess_go hgo _).trans ?_
  rw [if_neg (not_not_intro ⟨hq, h, hp⟩)]
  split
  · next hput' => exact congrArg (fun p : Bool × State => Res.next (dropJob j p.2)) hput'.symm
  · next hlost => exact absurd ((congrArg Prod.fst hlost).symm.trans hput) Bool.false_ne_true

end

theorem completion_length (j : EmbJob) : (completion j).length = 32 := by
  simp [completion, natLe_length, zeros]

theorem completion_tag (j : EmbJob) : (completion j).take 8 = natLe 8 j.tag.toNat := by
  simp only [completion, List.append_assoc]
  exact List.take_left' (natLe_length 8 _)

/-! ### The statement -/

/-- Settles O46: the turn by `takeRequest`, the element by `acceptRequest`, the completion by `execEmbRequestComplete`. -/
theorem embeddingRequests : Obligations.EmbeddingRequests := by
  intro s hk _ hc
  refine ⟨fun i q p e grad hpf hn hroom hq => ?_, fun r j hj hr => ?_⟩
  · intro c
    refine ⟨fun h => (exec_embRequest i grad s).trans (inContract_leave hk (takeRequest_outside hc hpf hn hroom hq h)), ?_⟩
    intro hcons hsize he hp hkind rs hgo s0 s1
    have haccept := takeRequest_accepts hc hpf hn hroom hq hcons hsize he hp hkind hgo
    have hnext {t : State} (h : acceptRequest q p e s0 = .next t) : exec c s = .next t.settle :=
      (exec_embRequest i grad s).trans (inContract_next hk (haccept.trans h))
    have hout (h : acceptRequest q p e s0 = .outside 431) : exec c s = .next (s.leave 431).settle :=
      (exec_embRequest i grad s).trans (inContract_leave hk (haccept.trans h))
    refine ⟨fun hx => hnext (acceptRequest_undescribed hx), fun x hx => ?_⟩
    intro j bad
    have hgood (h : ¬bad) : badRequest s1 x q p e = false := Bool.eq_false_iff.mpr fun hb => h (badRequest_iff.mp hb)
    refine ⟨fun h => hnext (acceptRequest_malformed rfl hx rfl (badRequest_iff.mpr h)),
      fun h hregion => hout (acceptRequest_outRegions rfl hx rfl (hgood h) hregion),
      fun h hdie hreg htouch g s2 acc hgrad hlook hacc => ?_⟩
    have hval := acceptRequest_values (s := s0) rfl hx (rfl : _ = j) (hgood h) hdie hreg htouch
    have hbrought : requestGrad x j e s1 = (g, s2) := by
      cases grad with
      | true => obtain ⟨rfl, rfl⟩ := hgrad rfl; exact if_pos (hkind.mpr rfl)
      | false => obtain ⟨rfl, rfl⟩ := hlook rfl; exact if_neg fun hk => Bool.false_ne_true (hkind.mp hk)
    have hrows : requestRows x j e s1 = acc := by rw [requestRows, hbrought, hacc]
    rw [hrows] at hval
    exact ⟨fun ho => hout (hval.trans (if_pos ho)), fun ho => hnext (hval.trans (if_neg (by simp [ho])))⟩
  · intro result rs hgo
    exact ⟨fun h => inContract_next hk (execEmbRequestComplete_silent hc hj hr hgo h),
      fun h hp hput => inContract_next hk (execEmbRequestComplete_replies hc hj hr hgo h hp hput), completion_length j, completion_tag j⟩

end Sys2Proof.Machine
end

section
/-! SUPPORT. Sub-requests and partials of the embedding engine (R411, R414, R421, R443). -/

namespace Sys2Proof.Machine

/-! ### A sub-request arrives (R411, R414, R421, R429, R431) -/

section
variable {s : State} {m : SubMsg}

theorem execEmbSub_forwards (h : m.dst.toNat ≠ s.warp.chip) (ht : s.tclk = true) :
    execEmbSub m s = .next (msgTakenAny 1 (forwardTo m.dst.toNat 1 (subSize m) (.sub m.dst.toNat m) s)) := by
  rw [execEmbSub, if_pos h, onlyIf_of_true ht]

/-- The work that a sub-request for table `x` becomes, before its rows are gone through. -/
def servedJob (x : EmbTab) (m : SubMsg) (s : State) : EmbJob :=
  { newJob (takeNum s).2 s.emb.nextId 8 m.vslot x.dim [] with
    served := some (m.chip.toNat, m.req.toNat), table := m.table.toNat, hops := m.hops, grad := m.grad, supply := false }

/-- The accesses that serving a sub-request makes. -/
def servedRanges (x : EmbTab) (m : SubMsg) (s : State) : EngRanges :=
  ((m.recs.flatMap (subRanges s x m)).map fun r => (Agent.chain, r.1, r.2)) ++ sampleRange s

variable (h : m.dst.toNat = s.warp.chip) (hc : s.cclk = true)
include h hc

/-- A sub-request for a table that this chip does not describe (R429, log entry 58). -/
theorem execEmbSub_undescribed (hx : embTab s m.table.toNat = none) : execEmbSub m s = .outside 429 := by
  simp [execEmbSub, h, hc, hx, oc]

variable {x : EmbTab} (hx : embTab s m.table.toNat = some x)
include hx

/-- A sub-request of another dimension than the table's (R429, log entry 59). -/
theorem execEmbSub_mismatch (hd : m.dim ≠ x.dim) : execEmbSub m s = .outside 429 := by
  simp [execEmbSub, h, hc, hx, hd, oc]

variable (hd : m.dim = x.dim)
include hd

theorem execEmbSub_outRegions (ht : x.touch ≠ 0) (hreg : inTabRegions s x x.touch ((x.rows + 7) / 8) = false) :
    execEmbSub m s = .outside 431 := by
  simp [execEmbSub, h, hc, hx, hd, ht, hreg, oc]

/-- The rows of a sub-request are gone through in order in the step that takes it (log entry 58), once their accesses need not wait. -/
theorem execEmbSub_serves (ht : x.touch = 0 ∨ inTabRegions s x x.touch ((x.rows + 7) / 8) = true)
    (hgo : engWaits s (servedRanges x m s) = false) {t : State} (hs : engGo (servedRanges x m s) s = t) :
    execEmbSub m s = .next (msgTakenAny 1 (finishServed (m.recs.foldl (takeSubRec x) (servedJob x m t, (takeNum t).2)).1
      (m.recs.foldl (takeSubRec x) (servedJob x m t, (takeNum t).2)).2)) := by
  have hin : ¬(x.touch ≠ 0 ∧ (!inTabRegions s x x.touch ((x.rows + 7) / 8)) = true) := by
    rcases ht with ht | ht <;> simp [ht]
  rw [execEmbSub, if_neg (not_not_intro h), if_neg (by simp [hc]), hx]
  dsimp only
  rw [if_neg (not_not_intro hd), if_neg hin]
  exact (engAccess_go hgo _).trans (hs ▸ rfl)

end

/-! ### A partial arrives (R411, R414) -/

section
variable {s : State} {m : PartMsg} (ht : s.tclk = true)
include ht

theorem execEmbPart_forwards (h : m.dst.toNat ≠ s.warp.chip) :
    execEmbPart m s = .next (msgTakenAny 2 (forwardTo m.dst.toNat 2 (32 + 4 * m.vals.length) (.part m.dst.toNat m) s)) := by
  rw [execEmbPart, if_pos h, onlyIf_of_true ht]

/-- A partial that nothing waits for is discarded. -/
theorem execEmbPart_discards (h : m.dst.toNat = s.warp.chip) (hj : s.emb.jobs.findSome? (takePart m) = none) :
    execEmbPart m s = .next (msgTakenAny 2 s) := by
  rw [execEmbPart, if_neg (not_not_intro h), onlyIf_of_true ht, hj]

theorem execEmbPart_takes {j : EmbJob} (h : m.dst.toNat = s.warp.chip) (hj : s.emb.jobs.findSome? (takePart m) = some j) :
    execEmbPart m s = .next (msgTakenAny 2 (finishServed j s)) := by
  rw [execEmbPart, if_neg (not_not_intro h), onlyIf_of_true ht, hj]

end

/-- Work that waits for nothing more takes no partial. -/
theorem takePart_giveUp (m : PartMsg) (j : EmbJob) : takePart m j.giveUp = none := by
  have hfwd : (j.giveUp.terms.any fun t => t.st = .fwd m.req.toNat) = false := by
    rw [List.any_eq_false]
    intro t ht
    obtain ⟨t, -, rfl⟩ := List.mem_map.mp ht
    cases hst : t.st with
    | val _ => simp [hst]
    | none => simp [hst]
    | moving => cases j.grad <;> simp [hst]
    | fwd _ => simp
  have hwait : j.giveUp.waitFor = [] := rfl
  simp only [takePart, hfwd, hwait, List.find?_nil, Bool.false_eq_true, if_false, ite_self]

/-! ### A partial that does not come (R414) -/

theorem embSync_keepsStatus (t v : Nat) (s : State) : KeepsFld Reg.embStatus 2 1 s (embSync t v s) := by
  have hfld (u : State) (n : Nat) : KeepsFld Reg.embStatus 2 1 u (u.putF Reg.embStatus 8 8 n) := putF_keepsFld fun _ => by decide
  unfold embSync
  dsimp only
  split
  · exact (wr_keepsFld (by simp only [Reg.embStatus, Reg.embTabDrain0]; omega)).trans (hfld _ _)
  · exact hfld _ _

/-- The work in flight once `j` is added, or replaced at its place. -/
def jobsPut (j : EmbJob) (jobs : List EmbJob) : List EmbJob :=
  if jobs.any fun i => i.id == j.id then jobs.map fun i => if i.id = j.id then j else i else jobs ++ [j]

theorem putJob_eq (j : EmbJob) (s : State) :
    putJob j s = embSync j.table j.vslot { s with emb := { s.emb with jobs := jobsPut j s.emb.jobs } } := rfl

theorem putJob_emb (j : EmbJob) (s : State) : (putJob j s).emb = { s.emb with jobs := jobsPut j s.emb.jobs } := by
  rw [putJob_eq, embSync_within.emb rfl]

theorem putJob_keepsStatus (j : EmbJob) (s : State) : KeepsFld Reg.embStatus 2 1 s (putJob j s) := by
  rw [putJob_eq]
  refine KeepsFld.trans ?_ (embSync_keepsStatus _ _ _)
  exact .of_regs rfl

/-- The state in which the only work in flight has given up. -/
def timedOut (j : EmbJob) (s : State) : State := putJob { j with remoteFail := true }.giveUp (s.putB Reg.embStatus 2 true)

section
variable {s : State} {j : EmbJob} (hj : s.emb.jobs = [j])
include hj

theorem timedOut_jobs : (timedOut j s).emb.jobs = [{ j with remoteFail := true }.giveUp] := by
  have hid : ({ j with remoteFail := true } : EmbJob).giveUp.id = j.id := rfl
  rw [timedOut, putJob_emb, State.putB_emb, hj]
  simp [jobsPut, hid]

theorem execEmbRemoteTimeout_gives_up (hc : s.cclk = true) (hserved : j.served = none) (hwait : j.waitFor ≠ []) (hid : j.id < 65536) :
    execEmbRemoteTimeout (BitVec.ofNat 16 j.id) s = .next (timedOut j s) := by
  have hr : (BitVec.ofNat 16 j.id).toNat = j.id := Nat.mod_eq_of_lt hid
  have hw : j.waitFor.isEmpty = false := by simpa using hwait
  have hfind (p : EmbJob → Bool) (h : p j = true) : [j].find? p = some j := List.find?_cons_of_pos h
  rw [execEmbRemoteTimeout, hj, hr, hfind _ (by simp [hserved, hw])]
  simp [onlyIf, hc, hserved, finishServed, EmbJob.settle, timedOut]

end

theorem timedOut_flagged {s : State} (w : s.wf = true) (j : EmbJob) : (timedOut j s).bit Reg.embStatus 2 = true := by
  have wr := State.wf_regs w
  obtain ⟨-, h⟩ := putJob_keepsStatus { j with remoteFail := true }.giveUp _ (regsOk_putB wr)
  exact (State.bit_of_fld h).trans (State.bit_putB_same wr (by decide))

end Sys2Proof.Machine
end

section
/-! SUPPORT. The registers of the embedding engine (R416, R418, R422, R423), and the statement on them and on its messages. -/

namespace Sys2Proof.Machine

/-! ### The current slot (R416) -/

/-- A command within contract leaves the parts that its meaning leaves. -/
theorem inContract_leaves {M : Nat} {l : List Part} {f : State → Res State} {s t : State} (hk : s.Kept) (h : WithinR M s (f s))
    (hM : M.testBit 27 = false) (hl : Nat.land M (partsMask l) = M) (e : f s = .next t) :
    inContract f s = .next t ∧ ∀ p : Part, p ∉ l → p.same s t :=
  ⟨inContract_within hk h hM e, (h t e).same_of_not_mem hl⟩

section
variable {s : State} (hk : s.Kept) (w : s.wf = true) (ho : hostOpen s = true) (t : Fin 256) (v : Fin 4)
include hk w ho

theorem exec_embTabCurWrite_valid (hv : s.bit (Reg.embTabStatus t) v = true) :
    ∃ u, exec (.embTabCurWrite t v) s = .next u ∧ u.rd (Reg.embTabCur t) = BitVec.ofNat 32 v.val ∧
      (∀ a, a ≠ Reg.embTabCur t → u.rd a = s.rd a) ∧ ∀ p : Part, p ≠ .regs → p.same s u := by
  have e : execEmbTabCurWrite t v s = .next (s.wrN (Reg.embTabCur t) v) := by
    rw [execEmbTabCurWrite, hostWrite_of_takes ho, if_pos hv]
  obtain ⟨hexec, hsame⟩ := inContract_leaves (l := [.regs]) hk execEmbTabCurWrite_within rfl (by decide) e
  exact ⟨_, hexec, State.rd_wr_same (State.wf_regs w), fun a ha => State.rd_wr_ne (State.wf_regs w) ha,
    fun p hp => hsame p (by simpa using hp)⟩

theorem exec_embTabCurWrite_invalid (hv : s.bit (Reg.embTabStatus t) v = false) :
    ∃ u, exec (.embTabCurWrite t v) s = .next u ∧ u.bit Reg.embStatus 4 = true ∧
      (∀ a, a ≠ Reg.embStatus → u.rd a = s.rd a) ∧ ∀ p : Part, p ≠ .regs → p.same s u := by
  have e : execEmbTabCurWrite t v s = .next (s.putB Reg.embStatus 4 true) := by
    rw [execEmbTabCurWrite, hostWrite_of_takes ho, if_neg (by simp [hv])]
  obtain ⟨hexec, hsame⟩ := inContract_leaves (l := [.regs]) hk execEmbTabCurWrite_within rfl (by decide) e
  exact ⟨_, hexec, State.bit_putB_same (State.wf_regs w) (by decide), fun a ha => State.rd_putB_ne (State.wf_regs w) ha,
    fun p hp => hsame p (by simpa using hp)⟩

end

/-! ### The end of a load window (R418) -/

/-- The registers of the tables. -/
def isTabReg (y : Nat) : Bool := decide (0x2410000 ≤ y)

theorem latchCount_changesOnlyRegs {reg : Nat → Nat} (h : ∀ n, 0x2410000 ≤ reg n) (counts : Tab Nat) (s : State) :
    ChangesOnlyRegs isTabReg s (latchCount reg counts s) :=
  foldl_changesOnlyRegs (fun _ _ _ => wr_changesOnlyRegs (decide_eq_true (h _))) s

/-- The counts of the window have been latched. -/
def windowLatched (s : State) : State :=
  let s := latchCount Reg.embTabLoad s.emb.load s
  let s := latchCount Reg.embTabLoadRemote s.emb.remote s
  latchCount Reg.embTabLoadSent s.emb.sent s

theorem windowLatched_changesOnlyRegs (s : State) : ChangesOnlyRegs isTabReg s (windowLatched s) :=
  ((latchCount_changesOnlyRegs (fun _ => Nat.le_add_right_of_le (by decide)) _ _).trans
    (latchCount_changesOnlyRegs (fun _ => Nat.le_add_right_of_le (by decide)) _ _)).trans
    (latchCount_changesOnlyRegs (fun _ => Nat.le_add_right_of_le (by decide)) _ _)

theorem windowLatched_within {s : State} : Within 8 s (windowLatched s) :=
  Within.step latchCount_within rfl (Within.step latchCount_within rfl latchCount_within)

theorem loadWindowEnd_eq (s : State) : loadWindowEnd s = { (windowLatched s).inc Reg.embWindow with
    emb := { (windowLatched s).emb with load := [], remote := [], sent := [] }
    pos := { (windowLatched s).pos with msDue := false } } := rfl

theorem loadWindowEnd_window {s : State} (w : s.wf = true) : (loadWindowEnd s).rd Reg.embWindow = s.rd Reg.embWindow + 1 := by
  obtain ⟨wr, hkeep⟩ := windowLatched_changesOnlyRegs s (State.wf_regs w)
  have hinc : (loadWindowEnd s).rd Reg.embWindow = ((windowLatched s).inc Reg.embWindow).rd Reg.embWindow := State.rd_of_regs rfl _
  rw [hinc, State.inc, State.rd_wr_same wr, hkeep _ (by decide)]

section
variable {s : State} (hk : s.Kept)
include hk

theorem exec_embLoadWindowEnd_due (w : s.wf = true) (ht : s.tclk = true) (hd : s.pos.msDue = true) :
    ∃ t, exec .embLoadWindowEnd s = .next t ∧ t.rd Reg.embWindow = s.rd Reg.embWindow + 1 ∧
      t.emb = { s.emb with load := [], remote := [], sent := [] } ∧ t.pos = { s.pos with msDue := false } ∧
      ∀ p : Part, p ∉ [.regs, .pos, .emb] → p.same s t := by
  have e : execEmbLoadWindowEnd s = .next (loadWindowEnd s) := onlyIf_of_true (by simp [ht, hd])
  obtain ⟨hexec, hsame⟩ := inContract_leaves (l := [.regs, .pos, .emb]) hk execEmbLoadWindowEnd_within rfl (by decide) e
  refine ⟨_, hexec, loadWindowEnd_window w, ?_, ?_, hsame⟩
  · rw [loadWindowEnd_eq, windowLatched_within.emb rfl]
  · rw [loadWindowEnd_eq, windowLatched_within.pos rfl]

theorem exec_embLoadWindowEnd_early (hd : s.pos.msDue = false) : exec .embLoadWindowEnd s = .next s :=
  inContract_kept hk hk (f := execEmbLoadWindowEnd) (if_neg (by simp [hd]))

end

/-! ### Fences and redirects (R422, R423) -/

section
variable {s : State} (hk : s.Kept) (w : s.wf = true) (ho : hostOpen s = true)
include hk w ho

theorem exec_embFence_waits : ∃ t, exec .embFence s = .next t ∧ t.emb = { s.emb with fence := s.emb.jobs.map fun j => j.id } ∧
    t.bit Reg.embStatus 0 = !s.emb.jobs.isEmpty ∧ ∀ p : Part, p ∉ [.regs, .emb] → p.same s t := by
  have e : execEmbFence s = .next ({ s with emb := { s.emb with fence := s.emb.jobs.map EmbJob.id } }.putB Reg.embStatus 0
      (!(s.emb.jobs.map EmbJob.id).isEmpty)) := hostWrite_of_takes ho
  obtain ⟨hexec, hsame⟩ := inContract_leaves (l := [.regs, .emb]) hk execEmbFence_within rfl (by decide) e
  refine ⟨_, hexec, rfl, ?_, hsame⟩
  refine (State.bit_putB_same ?_ (by decide)).trans (congrArg not List.isEmpty_map)
  exact State.wf_regs w

theorem exec_clearRedirects_clears : ∃ t, exec .clearRedirects s = .next t ∧ t.emb = { s.emb with redirects := [] } ∧
    t.rd Reg.embRedirUsed = 0 ∧ (∀ a, a ≠ Reg.embRedirUsed → t.rd a = s.rd a) ∧ ∀ p : Part, p ∉ [.regs, .emb] → p.same s t := by
  have e : execClearRedirects s = .next ({ s with emb := { s.emb with redirects := [] } }.wrN Reg.embRedirUsed 0) :=
    hostWrite_of_takes ho
  obtain ⟨hexec, hsame⟩ := inContract_leaves (l := [.regs, .emb]) hk execClearRedirects_within rfl (by decide) e
  exact ⟨_, hexec, rfl, State.rd_wr_same (State.wf_regs w),
    fun a ha => State.rd_wr_ne (s := { s with emb := { s.emb with redirects := [] } }) (State.wf_regs w) ha, hsame⟩

end

/-! ### The statement -/

theorem exec_embRemoteTimeout_flags {s : State} {j : EmbJob} (hk : s.Kept) (w : s.wf = true) (hc : s.cclk = true)
    (hj : s.emb.jobs = [j]) (hserved : j.served = none) (hwait : j.waitFor ≠ []) :
    ∃ t, exec (.embRemoteTimeout (BitVec.ofNat 16 j.id)) s = .next t ∧
      (j.id < 65536 → t.bit Reg.embStatus 2 = true ∧ t.emb.jobs = [{ j with remoteFail := true }.giveUp]) := by
  by_cases hid : j.id < 65536
  · exact ⟨_, inContract_within hk execEmbRemoteTimeout_within rfl (execEmbRemoteTimeout_gives_up hj hc hserved hwait hid),
      fun _ => ⟨timedOut_flagged w j, timedOut_jobs hj⟩⟩
  · obtain ⟨t, ht⟩ := inContractWith_answers id (execEmbRemoteTimeout (BitVec.ofNat 16 j.id)) s
    exact ⟨t, ht, fun h => absurd h hid⟩

/-- Settles O47: the messages by `execEmbSub`, `execEmbPart` and their timeout, the registers each by its command. -/
theorem embeddingMessagesAndRegisters : Obligations.EmbeddingMessagesAndRegisters := by
  intro s hk w
  refine ⟨fun m h ht => inContract_next hk (execEmbSub_forwards h ht),
    fun m h hc hx => inContract_leave hk (execEmbSub_undescribed h hc hx),
    fun m x h hc hx => ⟨fun hd => inContract_leave hk (execEmbSub_mismatch h hc hx hd),
      fun hd ht hreg => inContract_leave hk (execEmbSub_outRegions h hc hx hd ht hreg), fun hd ht => ?_⟩,
    fun m ht => ⟨fun h => inContract_within hk execEmbPart_within rfl (execEmbPart_forwards ht h),
      fun h hj => inContract_within hk execEmbPart_within rfl (execEmbPart_discards ht h hj),
      fun j h hj => inContract_within hk execEmbPart_within rfl (execEmbPart_takes ht h hj)⟩,
    fun j hc hj hserved hwait => exec_embRemoteTimeout_flags hk w hc hj hserved hwait,
    fun j m => takePart_giveUp m j,
    fun t v ho => ⟨exec_embTabCurWrite_valid hk w ho t v, exec_embTabCurWrite_invalid hk w ho t v⟩,
    fun ht hd => exec_embLoadWindowEnd_due hk w ht hd, fun _ hd => exec_embLoadWindowEnd_early hk hd,
    exec_embFence_waits hk w, exec_clearRedirects_clears hk w⟩
  intro rs hgo s0 j r
  exact inContract_next hk (execEmbSub_serves h hc hx hd ht hgo rfl)

end Sys2Proof.Machine
end
